-- ==== Sys2Proof/Word.lean ====
section
/-!
DEFINITION. The word types of the SK7 (00 R4, R5, R6) and the sparse map in which the state keeps what is indexed by a large number
space (strands, tiles, table entries).
-/
namespace Sys2Proof

/-- A byte of memory (00 R5). -/
abbrev Byte := BitVec 8
/-- A 32-bit instruction word (00 R5). -/
abbrev Word32 := BitVec 32
/-- A 64-bit register (11 R266). -/
abbrev Word := BitVec 64
/-- A 512-bit vector register (09 R226). -/
abbrev Vec := BitVec 512

/-- A finite map from numbers, kept with its keys strictly rising, so that equal maps are equal data. -/
abbrev SMap (α : Type) := List (Nat × α)

namespace SMap

/-- The entry of key `k`, or `d` where the map lists none. -/
def get {α : Type} (m : SMap α) (d : α) (k : Nat) : α :=
  match m with
  | [] => d
  | (k', v) :: rest => if k' = k then v else get rest d k

/-- The map with `v` at key `k`. -/
def set {α : Type} (m : SMap α) (k : Nat) (v : α) : SMap α :=
  match m with
  | [] => [(k, v)]
  | (k', w) :: rest =>
    if k' = k then (k, v) :: rest
    else if k < k' then (k, v) :: (k', w) :: rest
    else (k', w) :: set rest k v

/-- The map without key `k`. -/
def del {α : Type} (m : SMap α) (k : Nat) : SMap α :=
  List.filter (fun e => !(e.1 == k)) m

/-- Whether the map lists key `k`. -/
def has {α : Type} (m : SMap α) (k : Nat) : Bool := m.any (fun e => e.1 == k)

end SMap
end Sys2Proof
end

