-- ==== Sys2Proof/Syntax.lean ====
section
/-!
DEFINITION. Syntax of the SK7: one constructor of `Instr` for every row of spec/opcode_table.json. A row with an encoding is an
instruction word, its arguments are the word's fields. A row without one is a step of the device itself (95): an event, whose
arguments are what the world outside the package, or the passing of time, brings with it. The events stand first: the compiler gives
a number above 244 to no constructor with arguments, so only the decoder, which builds the words that come after, is noncomputable.
-/
namespace Sys2Proof

/-- Who executes instruction words: a strand (number die/cluster/tile/core/strand, 02 R2) or the courier slot of a core (05 R142). -/
inductive Agent where
  | strand (n : Nat)
  | courier (core : Nat)
  deriving DecidableEq, Repr

/-- What wears out and is spared (01 R15). -/
inductive Wear where
  | tile (die position : Nat)
  | row (stack pseudoChannel bank row : Nat)
  | channel (stack pseudoChannel : Nat)
  | lane (port lane : Nat)
  | feltColumn (array column : Nat)
  deriving DecidableEq, Repr

/-- The register windows through which a plain register write arrives (01 R31, 02 R58, 03 R82). -/
inductive RegWindow where
  | control
  | ostler
  | depot
  deriving DecidableEq, Repr

/-- A Treuc packet: its 16-byte header and its body (01 R21). -/
structure Packet where
  dest : BitVec 16
  src : BitVec 16
  key : BitVec 16
  fareTag : BitVec 16
  opcode : BitVec 8
  flags : BitVec 8
  length : BitVec 16
  tag : BitVec 32
  body : List Byte
  deriving DecidableEq, Repr

/-- Events of a fare step that the activity estimator has counted (04 R125): of a strand, by kind (0 instructions, 1 K steps, 3 pool and 4 L2
accesses, 5 bytes of HBM and 6 of links, 7 replays); wadding units of a tile's groups. -/
inductive FareEvent where
  | strand (n kind count : Nat)
  | wadding (tile units : Nat)
  deriving DecidableEq, Repr

/-- A reply to a fault message: the body of a REPLY packet (06 R184), or the same fields delivered inside the package (16 R384).
`from?` is the packet that brought it, to be acknowledged. -/
structure FaultReply where
  mailbox : Word
  seq : BitVec 32
  disp : BitVec 8
  poster : BitVec 16
  posterFlags : BitVec 8
  value : Word
  from? : Option Packet
  deriving DecidableEq, Repr

/-- The instructions and steps of the SK7, one constructor per row of the opcode table. -/
inductive Instr where
  /-- R50: Release of package reset starts the boot sequence of the management controller. -/
  | packageReset (strapHigh : Bool)
  /-- R43: At a 1 PPS edge the management controller samples the counter against IEEE 1588 time. -/
  | ppsEdge
  /-- R43: A time-of-day message over MCTP disciplines the management controller's IEEE 1588 time. -/
  | timeOfDayMessage (seconds : Nat)
  /-- R14: A junction reaching 95 °C raises the clock mask removal and writes a THERMAL THROTTLE record. -/
  | junctionThrottle (source : Nat)
  /-- R14: A junction reaching 110 °C resets every partition and logs a THERMAL SHUTDOWN record. -/
  | junctionShutdown (source : Nat)
  /-- R16: A wear trigger for a tile, HBM row or channel, lane or Felt column arrives and its swap is scheduled or left pending. -/
  | wearTrigger (w : Wear)
  /-- R15: Firmware brings in a spare tile, HBM row, pseudo-channel or Felt column once the owning partition is idle, and writes a SPARE record. -/
  | spareSwap (w : Wear)
  /-- R80: The roles of a fenced column tile move to an alternate tile, or the package enters RECOVERY. -/
  | roleMove (die position : Nat)
  /-- R17: A lane loses lock and is replaced at once by a retrain, or the port fails if the spare is in use. -/
  | lossOfLock (port : Fin 36) (lane : Nat)
  /-- R122: At the end of each 1 ms window the HEALTH role compares replay counts with their thresholds and applies R15. -/
  | healthWindow (cycles : List (Nat × Nat × Nat))
  /-- R122: A late transition makes the tile repeat a cycle at half clock and increments its replay counter. -/
  | timingReplay (tile : Nat)
  /-- R23: An IDLE flit is received and its AckSeq acknowledges DATA flits. -/
  | idleFlit (port : Fin 36) (flit : List Byte)
  /-- R22: A DATA flit is corrected, checked and accepted in order, or discarded with a NAK on failure or gap. -/
  | dataFlit (port : Fin 36) (flit : List Byte)
  /-- R23: An ACK flit is received and acknowledges DATA flits up to its AckSeq. -/
  | ackFlit (port : Fin 36) (flit : List Byte)
  /-- R23: A NAK flit is received and the sender replays from the named Seq in order. -/
  | nakFlit (port : Fin 36) (flit : List Byte)
  /-- R39: A TRAIN flit carrying a training record advances the port through LOCK, MAP, IDENT and READY. -/
  | trainFlit (port : Fin 36) (flit : List Byte)
  /-- R22: A sender that receives no acknowledgement for 1 µs replays on its own. -/
  | replayTimeout (port : Fin 36)
  /-- R23: A receiver holding unacknowledged DATA flits with nothing to send sends an ACK flit within 256 ns. -/
  | ackTimer (port : Fin 36)
  /-- R23: After 1 µs without the named flit a receiver may send a further NAK. -/
  | nakHoldoffExpiry (port : Fin 36)
  /-- R24: A flit not accepted within 13 µs, or held over 8 µs when a retrain is needed, declares the port failed. -/
  | linkRetryBound (port : Fin 36)
  /-- R34: Training not complete within 100 µs fails the port with CAUSE 0x03. -/
  | trainingTimeout (port : Fin 36)
  /-- R34: The partner signals reset or power-down and the port is declared failed with CAUSE 0x04. -/
  | partnerReset (port : Fin 36)
  /-- R36: A 32-byte notice record of a port failure is written to NOTICEA and NOTICEB within 50 µs. -/
  | noticeRecord (port : Fin 36)
  /-- R30: Class-O packets held after a change of port are released once the old port's packets are acknowledged or completed. -/
  | classOHoldEnd (dest : Nat)
  /-- R40: PORTCTL.DISABLE holds the port DOWN, first failing an UP or TRAINING port with CAUSE 0x05. -/
  | portDisable (port : Fin 36)
  /-- R40: PORTCTL.TRAIN starts training from DOWN or FAILED. -/
  | portTrain (port : Fin 36)
  /-- R40: PORTCTL.RESET fails an UP or TRAINING port, leaves it DOWN and clears its counters. -/
  | portReset (port : Fin 36)
  /-- R32: Writing RTCTL.SWREQ requests a bank switch at SWTIME, refused with SWERR while BUSY. -/
  | swreq
  /-- R29: At the SWTIME tick all I/O dies make the other routing and key bank active. -/
  | bankSwitch
  /-- R29: A write to a routing or key entry lands in the inactive bank, or is ignored and sets AWERR. -/
  | routingBankWrite (offset : Nat) (value : Word)
  /-- R31: A write to DEVNUM sets the device number, or is ignored with AWERR while a port is UP. -/
  | devnumWrite (value : Word)
  /-- R27: A packet arriving on a Treuc port is key-checked and routed by one lookup, or discarded with a reject reply. -/
  | transitPacket (port : Fin 36) (packet : Packet)
  /-- R181: A read request reaches its home depot, which serves it under the directory. -/
  | rd (packet : Packet)
  /-- R181: A read-for-exclusive request reaches its home depot and grants ownership. -/
  | rdx (packet : Packet)
  /-- R181: A masked 64-byte write reaches its home depot and is applied, marking waybill maps. -/
  | wr (packet : Packet)
  /-- R330: An AMO request is performed atomically at its home depot and answered with the old value. -/
  | amoPacket (packet : Packet)
  /-- R181: A writeback of 64 bytes reaches the home depot. -/
  | wb (packet : Packet)
  /-- R181: The depot's snoop reaches an owner or sharer, which answers HIT or MISS. -/
  | snp (packet : Packet)
  /-- R186: A snoop answer reaches the depot, which writes HIT data and serves the request or marks the entry DERELICT on MISS. -/
  | snprsp (packet : Packet)
  /-- R181: Read data returns to the requester and completes its access. -/
  | dataPacket (packet : Packet)
  /-- R183: A reply arrives and completes the originating access according to its status. -/
  | ackPacket (packet : Packet)
  /-- R181: An invalidation removes a cached copy of a line. -/
  | inv (packet : Packet)
  /-- R170: A domain TRINV message makes the receiving device run steps 1-3 and acknowledge. -/
  | trinvPacket (packet : Packet)
  /-- R184: A GEN message records a context's new generation at the depot and is acknowledged. -/
  | gen (packet : Packet)
  /-- R184: A CHARGE message credits energy to fare tags of the sender. -/
  | charge (packet : Packet)
  /-- R38: A MGMT packet applies up to 16 writes to the link configuration block, or is refused. -/
  | mgmt (packet : Packet)
  /-- R37: A NOTICE packet makes the depot of PA write the 32-byte notice record under key slot 0. -/
  | notice (packet : Packet)
  /-- R390: A SEND message reaches its target core and is refused or held until its line is empty, then lands and raises a trigger. -/
  | sendPacket (packet : Packet)
  /-- R391: A courier message reaches its target core's inbox, or is refused. -/
  | courierPacket (packet : Packet)
  /-- R361: An MSEND message reaches the target engine, which accepts it into the named strand's queue or rejects it. -/
  | msendPacket (packet : Packet)
  /-- R184: A dray data piece is applied granule by granule at its home device. -/
  | draywr (packet : Packet)
  /-- R184: A KILL packet makes the receiving device's SVC role start the kill of R102. -/
  | killPacket (packet : Packet)
  /-- R384: A reply to a fault message reaches its waiting poster, which acquires it and acts on its disposition, or it is discarded. -/
  | reply (r : FaultReply)
  /-- R181: A packet with a reserved opcode is discarded, with a BAD_OPCODE reply if it requires acknowledgement. -/
  | reservedOpcode (packet : Packet)
  /-- R191: A request with no reply within 100 µs completes with REMOTE_GONE, sub-code TIMEOUT. -/
  | requestTimeout (tag : Nat)
  /-- R192: Writing 1 to a GONE bit restores access to the device. -/
  | goneClear (dev : Nat)
  /-- R126: At least every 100 µs a device sends accumulated charges to each source in CHARGE messages. -/
  | chargeSend
  /-- R186: A snoop left unanswered for DTMO µs makes the directory entry DERELICT. -/
  | snoopTimeout (granule : Nat)
  /-- R189: DCMD PEEK fills DSTAT and DDATA for the line at DADDR. -/
  | peek (keyid : BitVec 8)
  /-- R189: DCMD RECLAIM.KEEP clears the derelict mark of a DERELICT line and makes it I with its kept value. -/
  | reclaimKeep
  /-- R189: DCMD RECLAIM.DATA writes DDATA under KEYID to a DERELICT line, clears both marks and makes it I. -/
  | reclaimData (keyid : BitVec 8)
  /-- R66: An 8-byte doorbell write names a queue and sets its TAIL, or is rejected with a QUEUE record. -/
  | doorbell (offset size : Nat) (pasid : Option (BitVec 20)) (value : Word)
  /-- R64: QCTL CREATE copies QSTAGE into a free slot of the queue table as an ACTIVE queue. -/
  | queueCreate (value : Word)
  /-- R75: QCTL DESTROY drains a queue, lets dispatched blocks finish and makes its slot TOMB. -/
  | destroy (value : Word)
  /-- R75: QCTL DESTROY.KILL drains a queue, kills its blocks at the kill fence and makes its slot TOMB. -/
  | destroyKill (value : Word)
  /-- R64: QCTL RESUME returns an ERROR queue to ACTIVE and fetches again from HEAD. -/
  | queueResume (value : Word)
  /-- R68: The fetcher reads the slot at HEAD and checks phase, sequence, CRC and fields before making the packet current. -/
  | packetFetch (queue : Nat) (hostBytes : List Byte)
  /-- R68: 250 ns after a failed check the fetcher reads the slot again. -/
  | fetchReread (queue : Nat) (hostBytes : List Byte)
  /-- R70: A LAUNCH packet starts a run from its launch record. -/
  | launchPacket (queue : Nat)
  /-- R219: A RELAUNCH packet swaps the dirty maps and starts a relaunch, or is refused. -/
  | relaunchPacket (queue : Nat)
  /-- R95: A COACH packet registers a coach context from its carriage table. -/
  | coach (queue : Nat)
  /-- R75: A DESTROY packet destroys a queue of the same PASID. -/
  | destroyPacket (queue : Nat)
  /-- R70: A SIGNAL packet waits for earlier work and then acts only through its flags. -/
  | signal (queue : Nat)
  /-- R71: A WAITMEM packet polls a memory word until a condition holds. -/
  | waitmem (queue : Nat)
  /-- R71: Every 1 µs a WAITMEM reads its word with acquire and tests its condition. -/
  | waitmemPoll (queue : Nat)
  /-- R70: A NOP packet does nothing. -/
  | nopPacket (queue : Nat)
  /-- R74: When a packet's work completes the device writes its completion record and signal as one release. -/
  | packetCompletion (queue : Nat)
  /-- R78: Expiry of a queue's time-slice timer resets its partition. -/
  | timesliceExpiry (queues : List Nat)
  /-- R78: A PARTRST bit resets a partition: contexts lost, queues to ERROR with completion records RESET. -/
  | partitionReset (mask : BitVec 8)
  /-- R76: A PARTCFG MODE write sets the partition mode, or is ignored with CFGERR. -/
  | partcfgWrite (value : Word)
  /-- R59: A QHCTL write enables the queue table or sets its size, or is ignored. -/
  | qhctlWrite (value : Word)
  /-- R62: A CTXCTL write enables the context descriptor table or sets its size, or is ignored. -/
  | ctxctlWrite (value : Word)
  /-- R47: A write to ERRBASE or ERRSIZE sets up a new host error ring with head and tail 0. -/
  | errorRingSetup (toSize : Bool) (value : Word)
  /-- R72: A write to a partition's storage block sets its queue pair; V from 0 to 1 resets tail, head and phase. -/
  | storageBlockWrite (partition : Fin 8) (offset : Nat) (value : Word)
  /-- R55: A host read through an aperture entry is checked and translated, completing after earlier posted writes, or with Unsupported Request. -/
  | bar4Read (offset length : Nat)
  /-- R56: A host posted write through an aperture entry becomes visible at PACKAGE scope in arrival order, or is discarded. -/
  | bar4Write (offset : Nat) (bytes : List Byte) (relaxed : Bool)
  /-- R57: A peer load with no completion in 50 µs raises REMOTE_GONE, sub-code PEER. -/
  | peerLoadTimeout (agent : Agent)
  /-- R51: MGMTCMD CHUNK copies staging bytes into the image under assembly at MGMTOFF. -/
  | chunk (cmd : Word) (mctp : Option (List Byte))
  /-- R51: MGMTCMD COMMIT checks the assembled image and stores it or applies a hot patch. -/
  | commit (cmd : Word)
  /-- R51: MGMTCMD ATTEST writes a signed 404-byte attestation report for the nonce. -/
  | attest (mctpNonce : Option (List Byte))
  /-- R51: MGMTCMD REBOOT resets every partition, drops the host port and reruns boot from step 2. -/
  | reboot
  /-- R51: MGMTCMD ABORT discards the image under assembly. -/
  | abort
  /-- R105: Once no column tile is inside the listed functions, the table entries are replaced and VERSION updated. -/
  | hotPatchApply
  /-- R105: A patch still waiting after 1 ms is refused with RESULT 3 and waiting calls proceed. -/
  | patchTimeout
  /-- R85: Firmware writes a bind record's STATE with release; dispatch accepts or refuses it with BADBIND. -/
  | bindRecordWrite (cluster slot offset : Nat) (bytes : List Byte)
  /-- R86: Dispatch places a block message from a BOUND record into a core's inbox, subject to FLOOR. -/
  | blockDispatch (cluster slot core : Nat)
  /-- R135: A free strand activates on the oldest block message and its state is set. -/
  | blockActivation (strand : Nat)
  /-- R83: A write to MFW sets a cluster's column-tile mask and lock. -/
  | mfwWrite (cluster : Nat) (value : Word)
  /-- R91: DSPCMD CUT removes the run's resident blocks at or above the cut index, highest first. -/
  | cut (arg : BitVec 32)
  /-- R93: DSPCMD RESUME restores the run's blocks at FLOOR on their recorded core and strand. -/
  | dispatchResume (tile : Nat)
  /-- R102: DSPCMD KILL frees the context's records and stops its blocks, beginning the kill fence. -/
  | kill (ctx : BitVec 32)
  /-- R102: When every touched device has acknowledged the new generation, the context's memory and arrays are handed on. -/
  | killFenceEnd (ctx : BitVec 32)
  /-- R90: DSPCMD HOLD sets every record of a context to HELD. -/
  | hold (ctx : BitVec 32)
  /-- R90: DSPCMD RELEASE sets a context's records back to BOUND. -/
  | release (ctx : BitVec 32)
  /-- R125: Each 1 µs step the activity estimator debits each context's fare account by the events counted; with none it is no step, and
  a hold goes on (R100). -/
  | fareEstimate (counted : Option (List FareEvent))
  /-- R114: An FGRANT write adds energy to an account, returning a held context to BOUND when positive. -/
  | fgrant (value : Word)
  /-- R170: TRINV RANGE writes back and invalidates lines and drops TLB entries over a range at the scope. -/
  | trinvRange (value : Word)
  /-- R170: TRINV ALL writes back and invalidates lines and drops TLB entries for every address. -/
  | trinvAll (value : Word)
  /-- R170: TRINV GRANTS drops every PLB entry of a protection domain in the scope. -/
  | trinvGrants (value : Word)
  /-- R166: A walk meeting MIG re-reads the entry every 250 ns, faulting NODE_BUSY after 8,000 ticks. -/
  | migReread (agent : Agent)
  /-- R109: At the end of phase 2 the tile resumes in its new gear. -/
  | gearRailSettled (tile : Nat)
  /-- R107: After 20 µs with no tile in GALLOP the cluster L2 rail moves to 0.66 V. -/
  | l2RailLower (cluster : Nat)
  /-- R112: An idle tile writes back its cache region and is power-gated. -/
  | park (tile : Nat)
  /-- R113: The in-rush arbiter starts a tile wake after its hold and the rail settles in 400 ns. -/
  | wake (tile : Nat)
  /-- R115: A LATTOL write sets a partition's tolerated wake latency and idle tiles leave states that exceed it. -/
  | lattolWrite (partition : Fin 8) (value : Word)
  /-- R117: Every 4 unmasked cycles the drag grants and releases column-group units. -/
  | dragStep (cluster : Nat)
  /-- R121: Every 10 µs the cluster adjusts the number of removed clock pulses. -/
  | clockMaskAdjust (cluster powerW : Nat) (hot : Bool)
  /-- R144: A free strand latches the oldest eligible trigger and activates its handler. -/
  | triggerLatch (strand : Nat)
  /-- R142: The courier slot starts the next courier from its inbox. -/
  | courierStart (core : Nat)
  /-- R357: A queued matrix command starts when it heads the queue and holds its column groups. -/
  | matrixCommandStart (tile : Nat)
  /-- R240: An MMA K step ends and drains its rounded results to the accumulator banks. -/
  | kStep (tile : Nat)
  /-- R365: A dray segment reads, writes, sets full/empty bits and makes its landing update, or fails. -/
  | draySegment (tile : Nat) (channel : Fin 4)
  /-- R368: An 8-byte store to an aperture word starts a DRAY.GO for the context, or is dropped with a HW record. The line is that of a tile
  and a context. -/
  | drayApertureStart (line : Nat × BitVec 32) (channel : Fin 4) (data : Word)
  /-- R369: A STORAGE segment's NVM Express completion is acquired and its landing update made. -/
  | storageCompletion (tile : Nat) (channel : Fin 4) (cid : Nat) (statusOk : Bool)
  /-- R369: A STORAGE segment without completion in 1 s fails with REMOTE_GONE and clears the storage block's V. -/
  | storageTimeout (tile : Nat) (channel : Fin 4) (cid : Nat)
  /-- R153: The stream unit moves one 64-byte group between scratchpad and a stream buffer. -/
  | streamTransfer (strand : Nat) (q : Fin 8)
  /-- R376: An array takes the next command of its queue and acts on it under R255. -/
  | feltCommandExecute (array : Fin 8)
  /-- R253: Charging to IC ends and the array enters RUN. -/
  | feltLoadEnd (array : Fin 8)
  /-- R256: Every summer stays small for DWELL ns and the array goes to HOLD with RESULT SETTLED. -/
  | settleDetect (array : Fin 8)
  /-- R253: RUN lasting RUNMAX ends the run phase with RESULT TIMEOUT. -/
  | feltRunmax (array : Fin 8)
  /-- R257: A node or summer reaching full scale clamps the array to IDLE with RESULT SAT and posts a SAT message. -/
  | feltSaturation (array : Fin 8) (summer : Bool) (element : Nat)
  /-- R253: After 1 s in HOLD the array goes to IDLE. -/
  | holdTimeout (array : Fin 8)
  /-- R262: A conversion writes the sample record, full/empty bits and barrier update. -/
  | feltConversion (array : Fin 8)
  /-- R264: An array recalibrates in IDLE for 20 µs. -/
  | calibration (array : Fin 8)
  /-- R95: A 4 KiB piece of a carriage lands and ARRIVED advances; the last makes it RESIDENT. -/
  | carriagePiece (coach index offset : Nat) (bytes : List Byte)
  /-- R97: A failed carriage fetch makes the flag word FAULTED with its code. -/
  | carriageFetchFail (coach index : Nat) (code : BitVec 7)
  /-- R99: A fetch needing memory evicts a RESIDENT carriage with no riders. -/
  | eviction (coach index : Nat)
  /-- R220: When a round's blocks have exited and been acknowledged, the next set is formed from the round map or the relaunch ends. -/
  | relaunchRound (run : BitVec 32)
  /-- R8: A write to a register with no behaviour of its own stores its writable fields. -/
  | registerWrite (window : RegWindow) (offset : Nat) (value : Word)
  /-- R256: The time-out given to a waiting FELT.SETTLE passes before the run phase ends, and SETTLE returns the status word with RESULT TIMEOUT while the run continues. -/
  | settleTimeout (agent : Agent)
  /-- R57: A completion for a peer-window load arrives at the host port, returning data, or Unsupported Request or Completer Abort, which raise REMOTE_GONE, sub-code PEER. -/
  | peerReadCompletion (agent : Agent) (ok : Bool) (bytes : List Byte)
  /-- R78: A partition's reset ends within 5 ms: it accepts work again and its clusters answer MISS to every snoop. -/
  | partitionResetEnd (partition : Fin 8)
  /-- R351: A queued PLD, PST, PZERO, ACC.ZERO, ACC.WR, ACC.ST, MSCALE or MOUT ends its work, setting full/empty bits and making its landing update, or writes a fault into the barrier word. -/
  | matrixCommandEnd (tile : Nat)
  /-- R97: An EVICTING carriage's pages have been released and its flag word becomes ABSENT. -/
  | carriageEvicted (coach index : Nat)
  /-- R178: After the L2 rail rises above 0.72 V the L2 re-encodes its lines and returns ways 7 and 15 to data. -/
  | l2RailRisen (cluster : Nat)
  /-- R17: A lane whose corrected-symbol rate passed its threshold is replaced by a retrain once every partition of the package is idle, and a SPARE record is written. -/
  | wearingLaneReplace (port : Fin 36) (lane : Nat)
  /-- R39: During training a port gains bit lock, symbol lock and deskew on at least eight lanes and moves from step LOCK to MAP. -/
  | lockAcquired (port : Fin 36) (lanes : BitVec 16)
  /-- R273: Every word of major 0x00 raises ILLEGAL. -/
  | ill (x : BitVec 26)
  /-- R292: X[d] := a + b, or the 32-bit form. -/
  | add (d : BitVec 5) (a : BitVec 5) (b : BitVec 5) (w : BitVec 1)
  /-- R292: X[d] := a − b. -/
  | sub (d : BitVec 5) (a : BitVec 5) (b : BitVec 5) (w : BitVec 1)
  /-- R292: X[d] := a AND b. -/
  | and (d : BitVec 5) (a : BitVec 5) (b : BitVec 5) (w : BitVec 1)
  /-- R292: X[d] := a OR b. -/
  | or (d : BitVec 5) (a : BitVec 5) (b : BitVec 5) (w : BitVec 1)
  /-- R292: X[d] := a XOR b. -/
  | xor (d : BitVec 5) (a : BitVec 5) (b : BitVec 5) (w : BitVec 1)
  /-- R292: X[d] := a AND NOT b. -/
  | andn (d : BitVec 5) (a : BitVec 5) (b : BitVec 5) (w : BitVec 1)
  /-- R292: Shift left logical by b. -/
  | sll (d : BitVec 5) (a : BitVec 5) (b : BitVec 5) (w : BitVec 1)
  /-- R292: Shift right logical by b. -/
  | srl (d : BitVec 5) (a : BitVec 5) (b : BitVec 5) (w : BitVec 1)
  /-- R292: Shift right arithmetic by b. -/
  | sra (d : BitVec 5) (a : BitVec 5) (b : BitVec 5) (w : BitVec 1)
  /-- R292: Set 1 if a < b signed. -/
  | slt (d : BitVec 5) (a : BitVec 5) (b : BitVec 5) (w : BitVec 1)
  /-- R292: Set 1 if a < b unsigned. -/
  | sltu (d : BitVec 5) (a : BitVec 5) (b : BitVec 5) (w : BitVec 1)
  /-- R292: Signed lesser of a and b. -/
  | min (d : BitVec 5) (a : BitVec 5) (b : BitVec 5) (w : BitVec 1)
  /-- R292: Signed greater of a and b. -/
  | max (d : BitVec 5) (a : BitVec 5) (b : BitVec 5) (w : BitVec 1)
  /-- R292: Unsigned lesser of a and b. -/
  | minu (d : BitVec 5) (a : BitVec 5) (b : BitVec 5) (w : BitVec 1)
  /-- R292: Unsigned greater of a and b. -/
  | maxu (d : BitVec 5) (a : BitVec 5) (b : BitVec 5) (w : BitVec 1)
  /-- R292: Count leading zero bits of a. -/
  | clz (d : BitVec 5) (a : BitVec 5) (w : BitVec 1)
  /-- R292: Count trailing zero bits of a. -/
  | ctz (d : BitVec 5) (a : BitVec 5) (w : BitVec 1)
  /-- R292: Count one bits of a. -/
  | popc (d : BitVec 5) (a : BitVec 5) (w : BitVec 1)
  /-- R293: Low 64 bits of a × b, or the 32-bit form. -/
  | mul (d : BitVec 5) (a : BitVec 5) (b : BitVec 5) (w : BitVec 1)
  /-- R293: High 64 bits of signed a × b. -/
  | mulh (d : BitVec 5) (a : BitVec 5) (b : BitVec 5)
  /-- R293: High 64 bits of unsigned a × b. -/
  | mulhu (d : BitVec 5) (a : BitVec 5) (b : BitVec 5)
  /-- R293: High 64 bits of signed a × unsigned b. -/
  | mulhsu (d : BitVec 5) (a : BitVec 5) (b : BitVec 5)
  /-- R293: Signed quotient under R228. -/
  | div (d : BitVec 5) (a : BitVec 5) (b : BitVec 5) (w : BitVec 1)
  /-- R293: Unsigned quotient under R228. -/
  | divu (d : BitVec 5) (a : BitVec 5) (b : BitVec 5) (w : BitVec 1)
  /-- R293: Signed remainder under R228. -/
  | rem (d : BitVec 5) (a : BitVec 5) (b : BitVec 5) (w : BitVec 1)
  /-- R293: Unsigned remainder under R228. -/
  | remu (d : BitVec 5) (a : BitVec 5) (b : BitVec 5) (w : BitVec 1)
  /-- R294: X[d] := X[a] + immediate. -/
  | addi (d : BitVec 5) (a : BitVec 5) (i : BitVec 16)
  /-- R294: X[d] := X[a] AND immediate. -/
  | andi (d : BitVec 5) (a : BitVec 5) (i : BitVec 16)
  /-- R294: X[d] := X[a] OR immediate. -/
  | ori (d : BitVec 5) (a : BitVec 5) (i : BitVec 16)
  /-- R294: X[d] := X[a] XOR immediate. -/
  | xori (d : BitVec 5) (a : BitVec 5) (i : BitVec 16)
  /-- R295: Shift left logical by an immediate amount. -/
  | slli (d : BitVec 5) (a : BitVec 5) (w : BitVec 1) (s : BitVec 6)
  /-- R295: Shift right logical by an immediate amount. -/
  | srli (d : BitVec 5) (a : BitVec 5) (w : BitVec 1) (s : BitVec 6)
  /-- R295: Shift right arithmetic by an immediate amount. -/
  | srai (d : BitVec 5) (a : BitVec 5) (w : BitVec 1) (s : BitVec 6)
  /-- R294: Set 1 if X[a] < immediate signed. -/
  | slti (d : BitVec 5) (a : BitVec 5) (i : BitVec 16)
  /-- R294: Set 1 if X[a] < immediate unsigned. -/
  | sltiu (d : BitVec 5) (a : BitVec 5) (i : BitVec 16)
  /-- R296: X[d] := immediate × 2^16. -/
  | lui (d : BitVec 5) (i : BitVec 21)
  /-- R296: X[d] := PC + immediate × 2^16. -/
  | auipc (d : BitVec 5) (i : BitVec 21)
  /-- R297: Indexed load from X[a] + X[b] × size. -/
  | ldx (d : BitVec 5) (a : BitVec 5) (b : BitVec 5) (w : BitVec 3)
  /-- R298: Floating add, rounded. -/
  | fadd (d : BitVec 5) (a : BitVec 5) (b : BitVec 5) (p : BitVec 1)
  /-- R298: Floating subtract, rounded. -/
  | fsub (d : BitVec 5) (a : BitVec 5) (b : BitVec 5) (p : BitVec 1)
  /-- R298: Floating multiply, rounded. -/
  | fmul (d : BitVec 5) (a : BitVec 5) (b : BitVec 5) (p : BitVec 1)
  /-- R298: Floating divide, rounded. -/
  | fdiv (d : BitVec 5) (a : BitVec 5) (b : BitVec 5) (p : BitVec 1)
  /-- R298: Floating square root, rounded. -/
  | fsqrt (d : BitVec 5) (a : BitVec 5) (p : BitVec 1)
  /-- R298: minimumNumber of a and b. -/
  | fmin (d : BitVec 5) (a : BitVec 5) (b : BitVec 5) (p : BitVec 1)
  /-- R298: maximumNumber of a and b. -/
  | fmax (d : BitVec 5) (a : BitVec 5) (b : BitVec 5) (p : BitVec 1)
  /-- R298: a with the sign of b. -/
  | fsgnj (d : BitVec 5) (a : BitVec 5) (b : BitVec 5) (p : BitVec 1)
  /-- R298: a with the inverted sign of b. -/
  | fsgnjn (d : BitVec 5) (a : BitVec 5) (b : BitVec 5) (p : BitVec 1)
  /-- R298: a with its sign XOR the sign of b. -/
  | fsgnjx (d : BitVec 5) (a : BitVec 5) (b : BitVec 5) (p : BitVec 1)
  /-- R298: Quiet equality compare to an integer. -/
  | feq (d : BitVec 5) (a : BitVec 5) (b : BitVec 5) (p : BitVec 1)
  /-- R298: Signaling less-than compare to an integer. -/
  | flt (d : BitVec 5) (a : BitVec 5) (b : BitVec 5) (p : BitVec 1)
  /-- R298: Signaling less-or-equal compare to an integer. -/
  | fle (d : BitVec 5) (a : BitVec 5) (b : BitVec 5) (p : BitVec 1)
  /-- R299: a × b + c rounded once. -/
  | fmadd (d : BitVec 5) (a : BitVec 5) (b : BitVec 5) (c : BitVec 5) (p : BitVec 1)
  /-- R299: a × b − c rounded once. -/
  | fmsub (d : BitVec 5) (a : BitVec 5) (b : BitVec 5) (c : BitVec 5) (p : BitVec 1)
  /-- R299: −(a × b) − c rounded once. -/
  | fnmadd (d : BitVec 5) (a : BitVec 5) (b : BitVec 5) (c : BitVec 5) (p : BitVec 1)
  /-- R299: −(a × b) + c rounded once. -/
  | fnmsub (d : BitVec 5) (a : BitVec 5) (b : BitVec 5) (c : BitVec 5) (p : BitVec 1)
  /-- R301: Converts between floating and integer types under R236. -/
  | fcvt (d : BitVec 5) (a : BitVec 5) (t : BitVec 4) (s : BitVec 4)
  /-- R302: Writes a one-hot class of a floating value. -/
  | fclass (d : BitVec 5) (a : BitVec 5) (s : BitVec 4)
  /-- R303: Branch if equal. -/
  | beq (a : BitVec 5) (b : BitVec 5) (o : BitVec 13)
  /-- R303: Branch if not equal. -/
  | bne (a : BitVec 5) (b : BitVec 5) (o : BitVec 13)
  /-- R303: Branch if less, signed. -/
  | blt (a : BitVec 5) (b : BitVec 5) (o : BitVec 13)
  /-- R303: Branch if greater or equal, signed. -/
  | bge (a : BitVec 5) (b : BitVec 5) (o : BitVec 13)
  /-- R303: Branch if less, unsigned. -/
  | bltu (a : BitVec 5) (b : BitVec 5) (o : BitVec 13)
  /-- R303: Branch if greater or equal, unsigned. -/
  | bgeu (a : BitVec 5) (b : BitVec 5) (o : BitVec 13)
  /-- R303: Branch if any bit of a mask is set. -/
  | bmany (a : BitVec 5) (o : BitVec 13)
  /-- R303: Branch if no bit of a mask is set. -/
  | bmnone (a : BitVec 5) (o : BitVec 13)
  /-- R304: Jump relative and link. -/
  | jal (d : BitVec 5) (i : BitVec 21)
  /-- R305: Jump to register plus offset and link. -/
  | jalr (d : BitVec 5) (a : BitVec 5) (i : BitVec 16)
  /-- R380: Posts a SYSC fault message with the code and argument. -/
  | sysc (d : BitVec 5) (a : BitVec 5) (c : BitVec 12)
  /-- R380: Posts a BRK fault message with the code. -/
  | brk (c : BitVec 12)
  /-- R136: Ends the activation after unbinding streams, writing the waybill entry and checking accumulators. -/
  | exit
  /-- R382: An instruction boundary that lets waiting events act and other strands issue. -/
  | yield
  /-- R384: Waits for and claims the next message of a mailbox. -/
  | svcRecv (d : BitVec 5) (a : BitVec 5)
  /-- R384: Sends a reply with a disposition to a message's poster and clears its BUSY bit. -/
  | svcResume (d : BitVec 5) (a : BitVec 5) (c : BitVec 12)
  /-- R384: Starts the kill of the context named by a message. -/
  | svcKill (a : BitVec 5)
  /-- R385: Reads a CSR. -/
  | csrr (d : BitVec 5) (n : BitVec 12)
  /-- R385: Writes a CSR and returns its old value. -/
  | csrw (d : BitVec 5) (a : BitVec 5) (n : BitVec 12)
  /-- R385: Sets bits of a CSR and returns its old value. -/
  | csrs (d : BitVec 5) (a : BitVec 5) (n : BitVec 12)
  /-- R385: Clears bits of a CSR and returns its old value. -/
  | csrc (d : BitVec 5) (a : BitVec 5) (n : BitVec 12)
  /-- R387: Sets the strand's gear request, changing the tile's gear if needed. -/
  | gear (d : BitVec 5) (g : BitVec 1)
  /-- R390: Sends a 64-byte payload to a trigger line of a target core with release. -/
  | send (d : BitVec 5) (a : BitVec 5) (b : BitVec 5)
  /-- R391: Sends a courier descriptor to a target core's inbox. -/
  | courier (a : BitVec 5) (b : BitVec 5)
  /-- R392: Attaches a handler to a trigger slot of the core. -/
  | bind (a : BitVec 5) (b : BitVec 5)
  /-- R392: Detaches the handler of a trigger slot. -/
  | unbind (b : BitVec 5)
  /-- R394: Starts a child run from a launch record and returns its RUNID. -/
  | launch (d : BitVec 5) (a : BitVec 5) (b : BitVec 5)
  /-- R395: Starts a relaunch of a run of the context, or reports refusal. -/
  | relaunch (d : BitVec 5) (a : BitVec 5) (b : BitVec 5) (l : BitVec 8)
  /-- R396: Sets the waybill skip window. -/
  | wbSkip (a : BitVec 5) (b : BitVec 5)
  /-- R396: Marks the waybill read buffer ALL. -/
  | wbAll
  /-- R310: Lane add. -/
  | vadd (d : BitVec 5) (a : BitVec 5) (b : BitVec 5) (m : BitVec 3) (e : BitVec 2) (x : BitVec 1)
  /-- R310: Lane subtract. -/
  | vsub (d : BitVec 5) (a : BitVec 5) (b : BitVec 5) (m : BitVec 3) (e : BitVec 2) (x : BitVec 1)
  /-- R310: Lane AND. -/
  | vand (d : BitVec 5) (a : BitVec 5) (b : BitVec 5) (m : BitVec 3) (e : BitVec 2) (x : BitVec 1)
  /-- R310: Lane OR. -/
  | vor (d : BitVec 5) (a : BitVec 5) (b : BitVec 5) (m : BitVec 3) (e : BitVec 2) (x : BitVec 1)
  /-- R310: Lane XOR. -/
  | vxor (d : BitVec 5) (a : BitVec 5) (b : BitVec 5) (m : BitVec 3) (e : BitVec 2) (x : BitVec 1)
  /-- R310: Lane AND NOT. -/
  | vandn (d : BitVec 5) (a : BitVec 5) (b : BitVec 5) (m : BitVec 3) (e : BitVec 2) (x : BitVec 1)
  /-- R310: Lane shift left logical. -/
  | vsll (d : BitVec 5) (a : BitVec 5) (b : BitVec 5) (m : BitVec 3) (e : BitVec 2) (x : BitVec 1)
  /-- R310: Lane shift right logical. -/
  | vsrl (d : BitVec 5) (a : BitVec 5) (b : BitVec 5) (m : BitVec 3) (e : BitVec 2) (x : BitVec 1)
  /-- R310: Lane shift right arithmetic. -/
  | vsra (d : BitVec 5) (a : BitVec 5) (b : BitVec 5) (m : BitVec 3) (e : BitVec 2) (x : BitVec 1)
  /-- R310: Lane signed minimum. -/
  | vmin (d : BitVec 5) (a : BitVec 5) (b : BitVec 5) (m : BitVec 3) (e : BitVec 2) (x : BitVec 1)
  /-- R310: Lane signed maximum. -/
  | vmax (d : BitVec 5) (a : BitVec 5) (b : BitVec 5) (m : BitVec 3) (e : BitVec 2) (x : BitVec 1)
  /-- R310: Lane unsigned minimum. -/
  | vminu (d : BitVec 5) (a : BitVec 5) (b : BitVec 5) (m : BitVec 3) (e : BitVec 2) (x : BitVec 1)
  /-- R310: Lane unsigned maximum. -/
  | vmaxu (d : BitVec 5) (a : BitVec 5) (b : BitVec 5) (m : BitVec 3) (e : BitVec 2) (x : BitVec 1)
  /-- R310: Low bits of lane product. -/
  | vmul (d : BitVec 5) (a : BitVec 5) (b : BitVec 5) (m : BitVec 3) (e : BitVec 2) (x : BitVec 1)
  /-- R310: High bits of signed lane product. -/
  | vmulh (d : BitVec 5) (a : BitVec 5) (b : BitVec 5) (m : BitVec 3) (e : BitVec 2) (x : BitVec 1)
  /-- R310: High bits of unsigned lane product. -/
  | vmulhu (d : BitVec 5) (a : BitVec 5) (b : BitVec 5) (m : BitVec 3) (e : BitVec 2) (x : BitVec 1)
  /-- R311: Signed saturating lane add. -/
  | vsadd (d : BitVec 5) (a : BitVec 5) (b : BitVec 5) (m : BitVec 3) (e : BitVec 2) (x : BitVec 1)
  /-- R311: Unsigned saturating lane add. -/
  | vsaddu (d : BitVec 5) (a : BitVec 5) (b : BitVec 5) (m : BitVec 3) (e : BitVec 2) (x : BitVec 1)
  /-- R311: Signed saturating lane subtract. -/
  | vssub (d : BitVec 5) (a : BitVec 5) (b : BitVec 5) (m : BitVec 3) (e : BitVec 2) (x : BitVec 1)
  /-- R311: Unsigned saturating lane subtract. -/
  | vssubu (d : BitVec 5) (a : BitVec 5) (b : BitVec 5) (m : BitVec 3) (e : BitVec 2) (x : BitVec 1)
  /-- R312: Lane floating add. -/
  | vfadd (d : BitVec 5) (a : BitVec 5) (b : BitVec 5) (m : BitVec 3) (e : BitVec 2) (x : BitVec 1)
  /-- R312: Lane floating subtract. -/
  | vfsub (d : BitVec 5) (a : BitVec 5) (b : BitVec 5) (m : BitVec 3) (e : BitVec 2) (x : BitVec 1)
  /-- R312: Lane floating multiply. -/
  | vfmul (d : BitVec 5) (a : BitVec 5) (b : BitVec 5) (m : BitVec 3) (e : BitVec 2) (x : BitVec 1)
  /-- R312: Lane floating divide. -/
  | vfdiv (d : BitVec 5) (a : BitVec 5) (b : BitVec 5) (m : BitVec 3) (e : BitVec 2) (x : BitVec 1)
  /-- R312: Lane floating square root. -/
  | vfsqrt (d : BitVec 5) (a : BitVec 5) (m : BitVec 3) (e : BitVec 2)
  /-- R312: Lane minimumNumber. -/
  | vfmin (d : BitVec 5) (a : BitVec 5) (b : BitVec 5) (m : BitVec 3) (e : BitVec 2) (x : BitVec 1)
  /-- R312: Lane maximumNumber. -/
  | vfmax (d : BitVec 5) (a : BitVec 5) (b : BitVec 5) (m : BitVec 3) (e : BitVec 2) (x : BitVec 1)
  /-- R312: Lane sign injection. -/
  | vfsgnj (d : BitVec 5) (a : BitVec 5) (b : BitVec 5) (m : BitVec 3) (e : BitVec 2) (x : BitVec 1)
  /-- R312: Lane inverted sign injection. -/
  | vfsgnjn (d : BitVec 5) (a : BitVec 5) (b : BitVec 5) (m : BitVec 3) (e : BitVec 2) (x : BitVec 1)
  /-- R312: Lane XOR sign injection. -/
  | vfsgnjx (d : BitVec 5) (a : BitVec 5) (b : BitVec 5) (m : BitVec 3) (e : BitVec 2) (x : BitVec 1)
  /-- R313: Lane a × b + c rounded once. -/
  | vfmadd (d : BitVec 5) (a : BitVec 5) (b : BitVec 5) (c : BitVec 5) (m : BitVec 3) (f : BitVec 2)
  /-- R313: Lane a × b − c rounded once. -/
  | vfmsub (d : BitVec 5) (a : BitVec 5) (b : BitVec 5) (c : BitVec 5) (m : BitVec 3) (f : BitVec 2)
  /-- R313: Lane −(a × b) − c rounded once. -/
  | vfnmadd (d : BitVec 5) (a : BitVec 5) (b : BitVec 5) (c : BitVec 5) (m : BitVec 3) (f : BitVec 2)
  /-- R313: Lane −(a × b) + c rounded once. -/
  | vfnmsub (d : BitVec 5) (a : BitVec 5) (b : BitVec 5) (c : BitVec 5) (m : BitVec 3) (f : BitVec 2)
  /-- R314: Integer lane equality to a mask. -/
  | vcmpEq (d : BitVec 5) (a : BitVec 5) (b : BitVec 5) (m : BitVec 3) (e : BitVec 2) (x : BitVec 1)
  /-- R314: Integer lane inequality to a mask. -/
  | vcmpNe (d : BitVec 5) (a : BitVec 5) (b : BitVec 5) (m : BitVec 3) (e : BitVec 2) (x : BitVec 1)
  /-- R314: Signed lane less-than to a mask. -/
  | vcmpLt (d : BitVec 5) (a : BitVec 5) (b : BitVec 5) (m : BitVec 3) (e : BitVec 2) (x : BitVec 1)
  /-- R314: Signed lane greater-or-equal to a mask. -/
  | vcmpGe (d : BitVec 5) (a : BitVec 5) (b : BitVec 5) (m : BitVec 3) (e : BitVec 2) (x : BitVec 1)
  /-- R314: Unsigned lane less-than to a mask. -/
  | vcmpLtu (d : BitVec 5) (a : BitVec 5) (b : BitVec 5) (m : BitVec 3) (e : BitVec 2) (x : BitVec 1)
  /-- R314: Unsigned lane greater-or-equal to a mask. -/
  | vcmpGeu (d : BitVec 5) (a : BitVec 5) (b : BitVec 5) (m : BitVec 3) (e : BitVec 2) (x : BitVec 1)
  /-- R314: Quiet floating lane equality to a mask. -/
  | vfcmpEq (d : BitVec 5) (a : BitVec 5) (b : BitVec 5) (m : BitVec 3) (e : BitVec 2) (x : BitVec 1)
  /-- R314: Quiet floating lane inequality to a mask. -/
  | vfcmpNe (d : BitVec 5) (a : BitVec 5) (b : BitVec 5) (m : BitVec 3) (e : BitVec 2) (x : BitVec 1)
  /-- R314: Signaling floating lane less-than to a mask. -/
  | vfcmpLt (d : BitVec 5) (a : BitVec 5) (b : BitVec 5) (m : BitVec 3) (e : BitVec 2) (x : BitVec 1)
  /-- R314: Signaling floating lane less-or-equal to a mask. -/
  | vfcmpLe (d : BitVec 5) (a : BitVec 5) (b : BitVec 5) (m : BitVec 3) (e : BitVec 2) (x : BitVec 1)
  /-- R314: Quiet unordered test to a mask. -/
  | vfcmpUo (d : BitVec 5) (a : BitVec 5) (b : BitVec 5) (m : BitVec 3) (e : BitVec 2) (x : BitVec 1)
  /-- R315: Integer sum reduction into x. -/
  | vredsum (d : BitVec 5) (a : BitVec 5) (b : BitVec 5) (m : BitVec 3) (e : BitVec 2)
  /-- R315: Signed minimum reduction. -/
  | vredmin (d : BitVec 5) (a : BitVec 5) (b : BitVec 5) (m : BitVec 3) (e : BitVec 2)
  /-- R315: Signed maximum reduction. -/
  | vredmax (d : BitVec 5) (a : BitVec 5) (b : BitVec 5) (m : BitVec 3) (e : BitVec 2)
  /-- R315: Unsigned minimum reduction. -/
  | vredminu (d : BitVec 5) (a : BitVec 5) (b : BitVec 5) (m : BitVec 3) (e : BitVec 2)
  /-- R315: Unsigned maximum reduction. -/
  | vredmaxu (d : BitVec 5) (a : BitVec 5) (b : BitVec 5) (m : BitVec 3) (e : BitVec 2)
  /-- R315: AND reduction. -/
  | vredand (d : BitVec 5) (a : BitVec 5) (b : BitVec 5) (m : BitVec 3) (e : BitVec 2)
  /-- R315: OR reduction. -/
  | vredor (d : BitVec 5) (a : BitVec 5) (b : BitVec 5) (m : BitVec 3) (e : BitVec 2)
  /-- R315: XOR reduction. -/
  | vredxor (d : BitVec 5) (a : BitVec 5) (b : BitVec 5) (m : BitVec 3) (e : BitVec 2)
  /-- R315: Integer inclusive scan into a vector. -/
  | vscan (d : BitVec 5) (a : BitVec 5) (b : BitVec 5) (m : BitVec 3) (e : BitVec 2)
  /-- R315: Floating sum reduction in lane order. -/
  | vfredo (d : BitVec 5) (a : BitVec 5) (b : BitVec 5) (m : BitVec 3) (e : BitVec 2)
  /-- R315: Floating sum reduction in pairwise order. -/
  | vfredp (d : BitVec 5) (a : BitVec 5) (b : BitVec 5) (m : BitVec 3) (e : BitVec 2)
  /-- R315: Floating minimum reduction, lane order. -/
  | vfredmino (d : BitVec 5) (a : BitVec 5) (b : BitVec 5) (m : BitVec 3) (e : BitVec 2)
  /-- R315: Floating maximum reduction, lane order. -/
  | vfredmaxo (d : BitVec 5) (a : BitVec 5) (b : BitVec 5) (m : BitVec 3) (e : BitVec 2)
  /-- R315: Floating minimum reduction, pairwise order. -/
  | vfredminp (d : BitVec 5) (a : BitVec 5) (b : BitVec 5) (m : BitVec 3) (e : BitVec 2)
  /-- R315: Floating maximum reduction, pairwise order. -/
  | vfredmaxp (d : BitVec 5) (a : BitVec 5) (b : BitVec 5) (m : BitVec 3) (e : BitVec 2)
  /-- R315: Floating running sum in lane order. -/
  | vfscano (d : BitVec 5) (a : BitVec 5) (b : BitVec 5) (m : BitVec 3) (e : BitVec 2)
  /-- R317: Broadcasts a scalar to lanes. -/
  | vbcast (d : BitVec 5) (a : BitVec 5) (m : BitVec 3) (e : BitVec 2)
  /-- R317: Extracts one lane to a scalar. -/
  | vextract (d : BitVec 5) (a : BitVec 5) (b : BitVec 5) (e : BitVec 2)
  /-- R317: Inserts a scalar into one lane. -/
  | vinsert (d : BitVec 5) (a : BitVec 5) (b : BitVec 5) (e : BitVec 2)
  /-- R317: Slides lanes up by a scalar amount. -/
  | vslideup (d : BitVec 5) (a : BitVec 5) (b : BitVec 5) (m : BitVec 3) (e : BitVec 2)
  /-- R317: Slides lanes down by a scalar amount. -/
  | vslidedown (d : BitVec 5) (a : BitVec 5) (b : BitVec 5) (m : BitVec 3) (e : BitVec 2)
  /-- R317: Permutes lanes by index vector. -/
  | vperm (d : BitVec 5) (a : BitVec 5) (b : BitVec 5) (m : BitVec 3) (e : BitVec 2)
  /-- R317: Selects lanes of two vectors by mask. -/
  | vsel (d : BitVec 5) (a : BitVec 5) (b : BitVec 5) (m : BitVec 3) (e : BitVec 2)
  /-- R318: Sign-extends half-width lanes. -/
  | vsext (d : BitVec 5) (a : BitVec 5) (m : BitVec 3) (e : BitVec 2) (h : BitVec 1)
  /-- R318: Zero-extends half-width lanes. -/
  | vzext (d : BitVec 5) (a : BitVec 5) (m : BitVec 3) (e : BitVec 2) (h : BitVec 1)
  /-- R318: Signed saturating narrowing. -/
  | vnarrow (d : BitVec 5) (a : BitVec 5) (b : BitVec 5) (m : BitVec 3) (e : BitVec 2)
  /-- R318: Signed-to-unsigned saturating narrowing. -/
  | vnarrowsu (d : BitVec 5) (a : BitVec 5) (b : BitVec 5) (m : BitVec 3) (e : BitVec 2)
  /-- R318: Unsigned saturating narrowing. -/
  | vnarrowu (d : BitVec 5) (a : BitVec 5) (b : BitVec 5) (m : BitVec 3) (e : BitVec 2)
  /-- R318: Truncating narrowing. -/
  | vtrunc (d : BitVec 5) (a : BitVec 5) (b : BitVec 5) (m : BitVec 3) (e : BitVec 2)
  /-- R319: Exact widening FP16 to FP32 or FP32 to FP64. -/
  | vfwiden (d : BitVec 5) (a : BitVec 5) (m : BitVec 3) (e : BitVec 2) (h : BitVec 1)
  /-- R319: Exact widening BF16 to FP32. -/
  | vfwidenBf (d : BitVec 5) (a : BitVec 5) (m : BitVec 3) (e : BitVec 2) (h : BitVec 1)
  /-- R319: Rounding floating narrowing. -/
  | vfnarrow (d : BitVec 5) (a : BitVec 5) (b : BitVec 5) (m : BitVec 3) (e : BitVec 2)
  /-- R319: Signed integer lanes to floating. -/
  | vfcvtFX (d : BitVec 5) (a : BitVec 5) (b : BitVec 5) (m : BitVec 3) (e : BitVec 2)
  /-- R319: Unsigned integer lanes to floating. -/
  | vfcvtFXu (d : BitVec 5) (a : BitVec 5) (b : BitVec 5) (m : BitVec 3) (e : BitVec 2)
  /-- R319: Floating lanes to signed integers. -/
  | vfcvtXF (d : BitVec 5) (a : BitVec 5) (b : BitVec 5) (m : BitVec 3) (e : BitVec 2)
  /-- R319: Floating lanes to unsigned integers. -/
  | vfcvtXuF (d : BitVec 5) (a : BitVec 5) (b : BitVec 5) (m : BitVec 3) (e : BitVec 2)
  /-- R320: Decodes PS8 bytes exactly to floating lanes. -/
  | vps8 (d : BitVec 5) (a : BitVec 5) (m : BitVec 3) (e : BitVec 2) (p : BitVec 3)
  /-- R321: Mask AND. -/
  | mand (d : BitVec 5) (a : BitVec 5) (b : BitVec 5)
  /-- R321: Mask OR. -/
  | mor (d : BitVec 5) (a : BitVec 5) (b : BitVec 5)
  /-- R321: Mask XOR. -/
  | mxor (d : BitVec 5) (a : BitVec 5) (b : BitVec 5)
  /-- R321: Mask AND NOT. -/
  | mandn (d : BitVec 5) (a : BitVec 5) (b : BitVec 5)
  /-- R321: Mask NOT. -/
  | mnot (d : BitVec 5) (a : BitVec 5)
  /-- R321: Mask from a scalar. -/
  | mset (d : BitVec 5) (a : BitVec 5)
  /-- R321: Scalar from a mask. -/
  | mget (d : BitVec 5) (a : BitVec 5)
  /-- R321: Counts set bits of a mask. -/
  | mpopc (d : BitVec 5) (a : BitVec 5)
  /-- R321: Index of the lowest set mask bit. -/
  | mfirst (d : BitVec 5) (a : BitVec 5)
  /-- R321: Mask of the first n lanes. -/
  | mfirstn (d : BitVec 5) (a : BitVec 5)
  /-- R325: Loads 64 bytes into a vector. -/
  | vld (d : BitVec 5) (a : BitVec 5) (o : BitVec 13)
  /-- R325: Stores a vector as 64 bytes. -/
  | vst (s : BitVec 5) (a : BitVec 5) (o : BitVec 13)
  /-- R326: Masked unit-stride vector load. -/
  | vldm (d : BitVec 5) (a : BitVec 5) (m : BitVec 3) (e : BitVec 2)
  /-- R326: Masked strided vector load. -/
  | vlds (d : BitVec 5) (a : BitVec 5) (b : BitVec 5) (m : BitVec 3) (e : BitVec 2)
  /-- R326: Masked indexed gather. -/
  | vgath (d : BitVec 5) (a : BitVec 5) (b : BitVec 5) (m : BitVec 3) (e : BitVec 2)
  /-- R326: Masked unit-stride vector store. -/
  | vstm (s : BitVec 5) (a : BitVec 5) (m : BitVec 3) (e : BitVec 2)
  /-- R326: Masked strided vector store. -/
  | vsts (s : BitVec 5) (a : BitVec 5) (b : BitVec 5) (m : BitVec 3) (e : BitVec 2)
  /-- R326: Masked indexed scatter. -/
  | vscat (s : BitVec 5) (a : BitVec 5) (b : BitVec 5) (m : BitVec 3) (e : BitVec 2)
  /-- R323: Plain scalar load. -/
  | ld (d : BitVec 5) (a : BitVec 5) (w : BitVec 3) (o : BitVec 13)
  /-- R324: Plain scalar store. -/
  | st (s : BitVec 5) (a : BitVec 5) (w : BitVec 2) (o : BitVec 13)
  /-- R329: Atomic add. -/
  | amoadd (d : BitVec 5) (a : BitVec 5) (b : BitVec 5) (s : BitVec 3) (r : BitVec 1) (q : BitVec 1) (z : BitVec 1)
  /-- R329: Atomic AND. -/
  | amoand (d : BitVec 5) (a : BitVec 5) (b : BitVec 5) (s : BitVec 3) (r : BitVec 1) (q : BitVec 1) (z : BitVec 1)
  /-- R329: Atomic OR. -/
  | amoor (d : BitVec 5) (a : BitVec 5) (b : BitVec 5) (s : BitVec 3) (r : BitVec 1) (q : BitVec 1) (z : BitVec 1)
  /-- R329: Atomic XOR. -/
  | amoxor (d : BitVec 5) (a : BitVec 5) (b : BitVec 5) (s : BitVec 3) (r : BitVec 1) (q : BitVec 1) (z : BitVec 1)
  /-- R329: Atomic signed minimum. -/
  | amomin (d : BitVec 5) (a : BitVec 5) (b : BitVec 5) (s : BitVec 3) (r : BitVec 1) (q : BitVec 1) (z : BitVec 1)
  /-- R329: Atomic signed maximum. -/
  | amomax (d : BitVec 5) (a : BitVec 5) (b : BitVec 5) (s : BitVec 3) (r : BitVec 1) (q : BitVec 1) (z : BitVec 1)
  /-- R329: Atomic unsigned minimum. -/
  | amominu (d : BitVec 5) (a : BitVec 5) (b : BitVec 5) (s : BitVec 3) (r : BitVec 1) (q : BitVec 1) (z : BitVec 1)
  /-- R329: Atomic unsigned maximum. -/
  | amomaxu (d : BitVec 5) (a : BitVec 5) (b : BitVec 5) (s : BitVec 3) (r : BitVec 1) (q : BitVec 1) (z : BitVec 1)
  /-- R329: Atomic swap. -/
  | amoswap (d : BitVec 5) (a : BitVec 5) (b : BitVec 5) (s : BitVec 3) (r : BitVec 1) (q : BitVec 1) (z : BitVec 1)
  /-- R329: Atomic compare and swap. -/
  | amocas (d : BitVec 5) (a : BitVec 5) (b : BitVec 5) (s : BitVec 3) (r : BitVec 1) (q : BitVec 1) (z : BitVec 1)
  /-- R333: Orders named access kinds at a scope. -/
  | fence (s : BitVec 3) (k : BitVec 4)
  /-- R334: Waits for a line's full bit, then loads with acquire. -/
  | ldsync (d : BitVec 5) (a : BitVec 5) (w : BitVec 3)
  /-- R335: Sets a line's full/empty bit with release. -/
  | stfe (a : BitVec 5)
  /-- R335: Clears a line's full/empty bit. -/
  | feclr (a : BitVec 5)
  /-- R336: Waits until a memory value meets a condition, then acquires. -/
  | waitv (d : BitVec 5) (a : BitVec 5) (b : BitVec 5) (s : BitVec 3) (c : BitVec 1) (w : BitVec 3)
  /-- R332: Load with acquire at a scope. -/
  | ldAcq (d : BitVec 5) (a : BitVec 5) (s : BitVec 3) (w : BitVec 3)
  /-- R332: Store with release at a scope. -/
  | stRel (d : BitVec 5) (a : BitVec 5) (s : BitVec 3) (w : BitVec 2)
  /-- R337: Initialises a barrier object. -/
  | barInit (a : BitVec 5) (b : BitVec 5)
  /-- R337: Adds expected bytes to a barrier. -/
  | barExpect (a : BitVec 5) (b : BitVec 5)
  /-- R337: Arrives at a local barrier with release. -/
  | barArrive (d : BitVec 5) (a : BitVec 5)
  /-- R340: Arrives at a barrier on another tile of the cluster. -/
  | barArriveC (a : BitVec 5) (b : BitVec 5)
  /-- R337: Waits for a barrier phase and acquires. -/
  | barWait (d : BitVec 5) (a : BitVec 5) (b : BitVec 5)
  /-- R337: Waits for a barrier phase, counting towards the tile's doze. -/
  | barWaitDoze (d : BitVec 5) (a : BitVec 5) (b : BitVec 5)
  /-- R337: Reads a barrier word without waiting. -/
  | barTest (d : BitVec 5) (a : BitVec 5) (b : BitVec 5)
  /-- R342: Maps a global range into the stash. -/
  | stashMap (d : BitVec 5) (a : BitVec 5) (b : BitVec 5)
  /-- R343: Unmaps a stash entry after writing back. -/
  | stashUnmap (a : BitVec 5)
  /-- R343: Writes back a stash entry's dirty lines. -/
  | stashFlush (a : BitVec 5)
  /-- R344: Moves PB_HI between stash and cache. -/
  | cacheResize (d : BitVec 5) (a : BitVec 5)
  /-- R345: Advisory prefetch into the L2. -/
  | pref (a : BitVec 5)
  /-- R345: Writes back and invalidates a line. -/
  | cflush (a : BitVec 5)
  /-- R347: Waits for a carriage and takes a rider. -/
  | cwait (d : BitVec 5) (a : BitVec 5)
  /-- R348: Gives back a carriage rider with release. -/
  | crel (a : BitVec 5)
  /-- R348: Reads a carriage flag word without waiting. -/
  | ctest (d : BitVec 5) (a : BitVec 5)
  /-- R353: Binds an accumulator name to banks, or reports none. -/
  | accAlloc (d : BitVec 5) (a : BitVec 5) (k : BitVec 1)
  /-- R353: Frees an accumulator's banks after its commands end. -/
  | accFree (a : BitVec 5)
  /-- R353: Queues zeroing of an accumulator. -/
  | accZero (a : BitVec 5)
  /-- R354: Reads one accumulator group and its status word. -/
  | accRd (d : BitVec 5) (a : BitVec 5) (b : BitVec 5) (e : BitVec 5)
  /-- R354: Queues a write of a vector into an accumulator group. -/
  | accWr (d : BitVec 5) (a : BitVec 5) (b : BitVec 5)
  /-- R355: Queues a drain of an accumulator to memory. -/
  | accSt (d : BitVec 5) (a : BitVec 5) (b : BitVec 5)
  /-- R351: Queues a panel load from memory. -/
  | pld (d : BitVec 5) (a : BitVec 5) (b : BitVec 5)
  /-- R351: Queues a panel store to memory. -/
  | pst (d : BitVec 5) (a : BitVec 5) (b : BitVec 5)
  /-- R351: Queues zeroing of a panel. -/
  | pzero (d : BitVec 5)
  /-- R356: Queues a BF16 matrix multiply-accumulate. -/
  | mmaBf16 (c : BitVec 4) (a : BitVec 4) (b : BitVec 4) (z : BitVec 1)
  /-- R356: Queues an FP16 matrix multiply-accumulate. -/
  | mmaFp16 (c : BitVec 4) (a : BitVec 4) (b : BitVec 4) (z : BitVec 1)
  /-- R356: Queues a BF16 by PS8 matrix multiply-accumulate. -/
  | mmaPs8 (c : BitVec 4) (a : BitVec 4) (b : BitVec 4) (z : BitVec 1)
  /-- R356: Queues a BF16 by PS4 matrix multiply-accumulate. -/
  | mmaPs4 (c : BitVec 4) (a : BitVec 4) (b : BitVec 4) (z : BitVec 1)
  /-- R356: Queues a BF16 by TERN matrix multiply-accumulate. -/
  | mmaTern (c : BitVec 4) (a : BitVec 4) (b : BitVec 4) (z : BitVec 1)
  /-- R356: Queues an FP64 matrix multiply-accumulate. -/
  | mmaFp64 (c : BitVec 4) (a : BitVec 4) (b : BitVec 4) (z : BitVec 1)
  /-- R359: Queues a scaled fold of a partial into an FP32 accumulator. -/
  | mscale (d : BitVec 4) (a : BitVec 4) (r : BitVec 6) (s : BitVec 4)
  /-- R359: Queues a fold of outlier channels into an FP32 accumulator. -/
  | mout (d : BitVec 4) (a : BitVec 4) (o : BitVec 4) (n : BitVec 4)
  /-- R360: Sends a matrix command descriptor to another engine. -/
  | msend (a : BitVec 5)
  /-- R360: Waits until the strand's own engine commands have ended. -/
  | mwait (d : BitVec 5)
  /-- R362: Sets the context's dray template table. -/
  | drayTpl (a : BitVec 5) (s : BitVec 6)
  /-- R364: Starts a dray copy from a template and returns its tag. -/
  | drayGo (d : BitVec 5) (a : BitVec 5) (b : BitVec 5) (c : BitVec 2) (s : BitVec 6)
  /-- R367: Sets a dray copy's slack. -/
  | draySlack (a : BitVec 5) (b : BitVec 5)
  /-- R367: Cancels a dray copy before its next segment. -/
  | drayCancel (a : BitVec 5)
  /-- R367: Returns a dray copy's status. -/
  | drayStat (d : BitVec 5) (a : BitVec 5)
  /-- R368: Sets or clears the context's dray aperture line. -/
  | drayAper (a : BitVec 5)
  /-- R373: Binds a stream register to a scratchpad pattern. -/
  | strmBind (d : BitVec 5) (a : BitVec 5)
  /-- R373: Unbinds a stream register, flushing output. -/
  | strmUnbind (d : BitVec 5)
  /-- R371: Returns a stream's position in groups. -/
  | strmPos (d : BitVec 5) (b : BitVec 5)
  /-- R376: Loads a configuration image into a Felt slot. -/
  | feltCfg (a : BitVec 5) (b : BitVec 5) (k : BitVec 3) (s : BitVec 3)
  /-- R376: Replaces a slot's scale exponents. -/
  | feltScale (a : BitVec 5) (b : BitVec 5) (k : BitVec 3) (s : BitVec 3)
  /-- R376: Replaces a slot's initial values. -/
  | feltIc (a : BitVec 5) (b : BitVec 5) (k : BitVec 3) (s : BitVec 3)
  /-- R376: Starts a run phase on a slot. -/
  | feltRun (b : BitVec 5) (k : BitVec 3) (s : BitVec 3)
  /-- R376: Waits for the run phase to end or a time-out and returns the status word. -/
  | feltSettle (d : BitVec 5) (a : BitVec 5) (k : BitVec 3)
  /-- R377: Converts the array and writes a sample record. -/
  | feltSample (a : BitVec 5) (b : BitVec 5) (k : BitVec 3) (g : BitVec 1)
  /-- R376: Ends HOLD or sets a pending halt. -/
  | feltHalt (k : BitVec 3)
  /-- R376: Returns the array's status word. -/
  | feltStat (d : BitVec 5) (k : BitVec 3)
  /-- R275: Shifts 24 bits into the XIMM latch. -/
  | ximm (p : BitVec 24)
  /-- R277: An advisory hint with no effect. -/
  | hintNop
  /-- R277: Predicts the next branch taken or not taken. -/
  | hintTaken (t : BitVec 1)
  /-- R277: Advises that the strand spins. -/
  | hintSpin (n : BitVec 8)
  /-- R277: Advises keeping the next access's line in the L2. -/
  | hintKeep
  /-- R278: Fills the FRM place of the modifier latch. -/
  | modFrm (r : BitVec 3)
  /-- R278: Fills the QSEL place of the modifier latch. -/
  | modQsel (q : BitVec 4)
  deriving DecidableEq, Repr

end Sys2Proof
end

