-- ==== Sys2Proof/Decode.lean ====
section
/-!
DEFINITION. The decoder of 32-bit instruction words, and after it the encoder, both from the encoding tables of chapters 11 to 16.
The decoder follows each row's fixed bits and fields. A value of a field that the row's chapter refuses (a reserved w code, a mask
number above 7) is the meaning's to refuse, since it raises ILLEGAL like every other reserved word (11 R271).
-/
namespace Sys2Proof

/-- Why a word is no instruction of the table (11 R271, R273, R277, R278). -/
inductive Reject where
  /-- A reserved major opcode. -/
  | reservedMajor
  /-- An H word of kind 11. -/
  | reservedKind
  /-- A function code that is not assigned, or an unused field that is not zero. -/
  | reservedField
  /-- A MOD word whose selector or value lies outside the table of R278. -/
  | badModifier
  /-- Not four bytes. -/
  | length
  deriving DecidableEq, Repr

/-- Bits `lo + len - 1` down to `lo` of a word (11 R269). -/
def field (w : Word32) (lo len : Nat) : BitVec len := w.extractLsb' lo len

/-- The words of major 0x00 (11 R272). -/
def decodeIll (w : Word32) : Except Reject Instr :=
  .ok (.ill (field w 0 26))

/-- The words of major 0x01 (11 R272). -/
def decodeOpi (w : Word32) : Except Reject Instr :=
  if field w 9 2 = 0x0#2 ∧ field w 0 8 = 0x0#8 then .ok (.add (field w 21 5) (field w 16 5) (field w 11 5) (field w 8 1))
  else if field w 9 2 = 0x0#2 ∧ field w 0 8 = 0x1#8 then .ok (.sub (field w 21 5) (field w 16 5) (field w 11 5) (field w 8 1))
  else if field w 9 2 = 0x0#2 ∧ field w 0 8 = 0x2#8 then .ok (.and (field w 21 5) (field w 16 5) (field w 11 5) (field w 8 1))
  else if field w 9 2 = 0x0#2 ∧ field w 0 8 = 0x3#8 then .ok (.or (field w 21 5) (field w 16 5) (field w 11 5) (field w 8 1))
  else if field w 9 2 = 0x0#2 ∧ field w 0 8 = 0x4#8 then .ok (.xor (field w 21 5) (field w 16 5) (field w 11 5) (field w 8 1))
  else if field w 9 2 = 0x0#2 ∧ field w 0 8 = 0x5#8 then .ok (.andn (field w 21 5) (field w 16 5) (field w 11 5) (field w 8 1))
  else if field w 9 2 = 0x0#2 ∧ field w 0 8 = 0x6#8 then .ok (.sll (field w 21 5) (field w 16 5) (field w 11 5) (field w 8 1))
  else if field w 9 2 = 0x0#2 ∧ field w 0 8 = 0x7#8 then .ok (.srl (field w 21 5) (field w 16 5) (field w 11 5) (field w 8 1))
  else if field w 9 2 = 0x0#2 ∧ field w 0 8 = 0x8#8 then .ok (.sra (field w 21 5) (field w 16 5) (field w 11 5) (field w 8 1))
  else if field w 9 2 = 0x0#2 ∧ field w 0 8 = 0x9#8 then .ok (.slt (field w 21 5) (field w 16 5) (field w 11 5) (field w 8 1))
  else if field w 9 2 = 0x0#2 ∧ field w 0 8 = 0xa#8 then .ok (.sltu (field w 21 5) (field w 16 5) (field w 11 5) (field w 8 1))
  else if field w 9 2 = 0x0#2 ∧ field w 0 8 = 0xb#8 then .ok (.min (field w 21 5) (field w 16 5) (field w 11 5) (field w 8 1))
  else if field w 9 2 = 0x0#2 ∧ field w 0 8 = 0xc#8 then .ok (.max (field w 21 5) (field w 16 5) (field w 11 5) (field w 8 1))
  else if field w 9 2 = 0x0#2 ∧ field w 0 8 = 0xd#8 then .ok (.minu (field w 21 5) (field w 16 5) (field w 11 5) (field w 8 1))
  else if field w 9 2 = 0x0#2 ∧ field w 0 8 = 0xe#8 then .ok (.maxu (field w 21 5) (field w 16 5) (field w 11 5) (field w 8 1))
  else if field w 9 7 = 0x0#7 ∧ field w 0 8 = 0xf#8 then .ok (.clz (field w 21 5) (field w 16 5) (field w 8 1))
  else if field w 9 7 = 0x0#7 ∧ field w 0 8 = 0x10#8 then .ok (.ctz (field w 21 5) (field w 16 5) (field w 8 1))
  else if field w 9 7 = 0x0#7 ∧ field w 0 8 = 0x11#8 then .ok (.popc (field w 21 5) (field w 16 5) (field w 8 1))
  else .error .reservedField

/-- The words of major 0x02 (11 R272). -/
def decodeMulDiv (w : Word32) : Except Reject Instr :=
  if field w 9 2 = 0x0#2 ∧ field w 0 8 = 0x0#8 then .ok (.mul (field w 21 5) (field w 16 5) (field w 11 5) (field w 8 1))
  else if field w 0 11 = 0x1#11 then .ok (.mulh (field w 21 5) (field w 16 5) (field w 11 5))
  else if field w 0 11 = 0x2#11 then .ok (.mulhu (field w 21 5) (field w 16 5) (field w 11 5))
  else if field w 0 11 = 0x3#11 then .ok (.mulhsu (field w 21 5) (field w 16 5) (field w 11 5))
  else if field w 9 2 = 0x0#2 ∧ field w 0 8 = 0x4#8 then .ok (.div (field w 21 5) (field w 16 5) (field w 11 5) (field w 8 1))
  else if field w 9 2 = 0x0#2 ∧ field w 0 8 = 0x5#8 then .ok (.divu (field w 21 5) (field w 16 5) (field w 11 5) (field w 8 1))
  else if field w 9 2 = 0x0#2 ∧ field w 0 8 = 0x6#8 then .ok (.rem (field w 21 5) (field w 16 5) (field w 11 5) (field w 8 1))
  else if field w 9 2 = 0x0#2 ∧ field w 0 8 = 0x7#8 then .ok (.remu (field w 21 5) (field w 16 5) (field w 11 5) (field w 8 1))
  else .error .reservedField

/-- The words of major 0x07 (11 R272). -/
def decodeShiftI (w : Word32) : Except Reject Instr :=
  if field w 15 1 = 0x0#1 ∧ field w 6 8 = 0x0#8 then .ok (.slli (field w 21 5) (field w 16 5) (field w 14 1) (field w 0 6))
  else if field w 15 1 = 0x0#1 ∧ field w 6 8 = 0x40#8 then .ok (.srli (field w 21 5) (field w 16 5) (field w 14 1) (field w 0 6))
  else if field w 15 1 = 0x0#1 ∧ field w 6 8 = 0x80#8 then .ok (.srai (field w 21 5) (field w 16 5) (field w 14 1) (field w 0 6))
  else .error .reservedField

/-- The words of major 0x0a (11 R272). -/
def decodeLui (w : Word32) : Except Reject Instr :=
  .ok (.lui (field w 21 5) (field w 0 21))

/-- The words of major 0x0c (11 R272). -/
def decodeLdx (w : Word32) : Except Reject Instr :=
  if field w 3 8 = 0x0#8 then .ok (.ldx (field w 21 5) (field w 16 5) (field w 11 5) (field w 0 3))
  else .error .reservedField

/-- The words of major 0x10 (11 R272). -/
def decodeFop (w : Word32) : Except Reject Instr :=
  if field w 1 10 = 0x0#10 then .ok (.fadd (field w 21 5) (field w 16 5) (field w 11 5) (field w 0 1))
  else if field w 1 10 = 0x1#10 then .ok (.fsub (field w 21 5) (field w 16 5) (field w 11 5) (field w 0 1))
  else if field w 1 10 = 0x2#10 then .ok (.fmul (field w 21 5) (field w 16 5) (field w 11 5) (field w 0 1))
  else if field w 1 10 = 0x3#10 then .ok (.fdiv (field w 21 5) (field w 16 5) (field w 11 5) (field w 0 1))
  else if field w 1 15 = 0x4#15 then .ok (.fsqrt (field w 21 5) (field w 16 5) (field w 0 1))
  else if field w 1 10 = 0x5#10 then .ok (.fmin (field w 21 5) (field w 16 5) (field w 11 5) (field w 0 1))
  else if field w 1 10 = 0x6#10 then .ok (.fmax (field w 21 5) (field w 16 5) (field w 11 5) (field w 0 1))
  else if field w 1 10 = 0x7#10 then .ok (.fsgnj (field w 21 5) (field w 16 5) (field w 11 5) (field w 0 1))
  else if field w 1 10 = 0x8#10 then .ok (.fsgnjn (field w 21 5) (field w 16 5) (field w 11 5) (field w 0 1))
  else if field w 1 10 = 0x9#10 then .ok (.fsgnjx (field w 21 5) (field w 16 5) (field w 11 5) (field w 0 1))
  else if field w 1 10 = 0xa#10 then .ok (.feq (field w 21 5) (field w 16 5) (field w 11 5) (field w 0 1))
  else if field w 1 10 = 0xb#10 then .ok (.flt (field w 21 5) (field w 16 5) (field w 11 5) (field w 0 1))
  else if field w 1 10 = 0xc#10 then .ok (.fle (field w 21 5) (field w 16 5) (field w 11 5) (field w 0 1))
  else .error .reservedField

/-- The words of major 0x11 (11 R272). -/
def decodeFma (w : Word32) : Except Reject Instr :=
  if field w 1 5 = 0x0#5 then .ok (.fmadd (field w 21 5) (field w 16 5) (field w 11 5) (field w 6 5) (field w 0 1))
  else if field w 1 5 = 0x1#5 then .ok (.fmsub (field w 21 5) (field w 16 5) (field w 11 5) (field w 6 5) (field w 0 1))
  else if field w 1 5 = 0x2#5 then .ok (.fnmadd (field w 21 5) (field w 16 5) (field w 11 5) (field w 6 5) (field w 0 1))
  else if field w 1 5 = 0x3#5 then .ok (.fnmsub (field w 21 5) (field w 16 5) (field w 11 5) (field w 6 5) (field w 0 1))
  else .error .reservedField

/-- The words of major 0x12 (11 R272). -/
def decodeCvt (w : Word32) : Except Reject Instr :=
  if field w 10 6 = 0x0#6 ∧ field w 0 2 = 0x0#2 then .ok (.fcvt (field w 21 5) (field w 16 5) (field w 6 4) (field w 2 4))
  else if field w 6 10 = 0x0#10 ∧ field w 0 2 = 0x1#2 then .ok (.fclass (field w 21 5) (field w 16 5) (field w 2 4))
  else .error .reservedField

/-- The words of major 0x18 (11 R272). -/
def decodeBr (w : Word32) : Except Reject Instr :=
  if field w 13 3 = 0x0#3 then .ok (.beq (field w 21 5) (field w 16 5) (field w 0 13))
  else if field w 13 3 = 0x1#3 then .ok (.bne (field w 21 5) (field w 16 5) (field w 0 13))
  else if field w 13 3 = 0x2#3 then .ok (.blt (field w 21 5) (field w 16 5) (field w 0 13))
  else if field w 13 3 = 0x3#3 then .ok (.bge (field w 21 5) (field w 16 5) (field w 0 13))
  else if field w 13 3 = 0x4#3 then .ok (.bltu (field w 21 5) (field w 16 5) (field w 0 13))
  else if field w 13 3 = 0x5#3 then .ok (.bgeu (field w 21 5) (field w 16 5) (field w 0 13))
  else if field w 13 8 = 0x6#8 then .ok (.bmany (field w 21 5) (field w 0 13))
  else if field w 13 8 = 0x7#8 then .ok (.bmnone (field w 21 5) (field w 0 13))
  else .error .reservedField

/-- The words of major 0x1b (11 R272). -/
def decodeSys (w : Word32) : Except Reject Instr :=
  if field w 12 4 = 0x0#4 then .ok (.sysc (field w 21 5) (field w 16 5) (field w 0 12))
  else if field w 12 14 = 0x1#14 then .ok (.brk (field w 0 12))
  else if field w 0 26 = 0x2000#26 then .ok (.exit)
  else if field w 0 26 = 0x3000#26 then .ok (.yield)
  else if field w 0 16 = 0x4000#16 then .ok (.svcRecv (field w 21 5) (field w 16 5))
  else if field w 12 4 = 0x5#4 then .ok (.svcResume (field w 21 5) (field w 16 5) (field w 0 12))
  else if field w 21 5 = 0x0#5 ∧ field w 0 16 = 0x6000#16 then .ok (.svcKill (field w 16 5))
  else .error .reservedField

/-- The words of major 0x1c (11 R272). -/
def decodeCsr (w : Word32) : Except Reject Instr :=
  if field w 12 9 = 0x0#9 then .ok (.csrr (field w 21 5) (field w 0 12))
  else if field w 12 4 = 0x1#4 then .ok (.csrw (field w 21 5) (field w 16 5) (field w 0 12))
  else if field w 12 4 = 0x2#4 then .ok (.csrs (field w 21 5) (field w 16 5) (field w 0 12))
  else if field w 12 4 = 0x3#4 then .ok (.csrc (field w 21 5) (field w 16 5) (field w 0 12))
  else .error .reservedField

/-- The words of major 0x1d (11 R272). -/
def decodeGear (w : Word32) : Except Reject Instr :=
  if field w 1 20 = 0x0#20 then .ok (.gear (field w 21 5) (field w 0 1))
  else .error .reservedField

/-- The words of major 0x1e (11 R272). -/
def decodeMsg (w : Word32) : Except Reject Instr :=
  if field w 0 11 = 0x0#11 then .ok (.send (field w 21 5) (field w 16 5) (field w 11 5))
  else if field w 21 5 = 0x0#5 ∧ field w 0 11 = 0x1#11 then .ok (.courier (field w 16 5) (field w 11 5))
  else if field w 21 5 = 0x0#5 ∧ field w 0 11 = 0x2#11 then .ok (.bind (field w 16 5) (field w 11 5))
  else if field w 16 10 = 0x0#10 ∧ field w 0 11 = 0x3#11 then .ok (.unbind (field w 11 5))
  else .error .reservedField

/-- The words of major 0x1f (11 R272). -/
def decodeWork (w : Word32) : Except Reject Instr :=
  if field w 0 11 = 0x0#11 then .ok (.launch (field w 21 5) (field w 16 5) (field w 11 5))
  else if field w 0 3 = 0x1#3 then .ok (.relaunch (field w 21 5) (field w 16 5) (field w 11 5) (field w 3 8))
  else if field w 21 5 = 0x0#5 ∧ field w 0 11 = 0x2#11 then .ok (.wbSkip (field w 16 5) (field w 11 5))
  else if field w 0 26 = 0x3#26 then .ok (.wbAll)
  else .error .reservedField

/-- The words of major 0x20 (11 R272). -/
noncomputable def decodeVop (w : Word32) : Except Reject Instr :=
  if field w 0 5 = 0x0#5 then .ok (.vadd (field w 21 5) (field w 16 5) (field w 11 5) (field w 8 3) (field w 6 2) (field w 5 1))
  else if field w 0 5 = 0x1#5 then .ok (.vsub (field w 21 5) (field w 16 5) (field w 11 5) (field w 8 3) (field w 6 2) (field w 5 1))
  else if field w 0 5 = 0x2#5 then .ok (.vand (field w 21 5) (field w 16 5) (field w 11 5) (field w 8 3) (field w 6 2) (field w 5 1))
  else if field w 0 5 = 0x3#5 then .ok (.vor (field w 21 5) (field w 16 5) (field w 11 5) (field w 8 3) (field w 6 2) (field w 5 1))
  else if field w 0 5 = 0x4#5 then .ok (.vxor (field w 21 5) (field w 16 5) (field w 11 5) (field w 8 3) (field w 6 2) (field w 5 1))
  else if field w 0 5 = 0x5#5 then .ok (.vandn (field w 21 5) (field w 16 5) (field w 11 5) (field w 8 3) (field w 6 2) (field w 5 1))
  else if field w 0 5 = 0x6#5 then .ok (.vsll (field w 21 5) (field w 16 5) (field w 11 5) (field w 8 3) (field w 6 2) (field w 5 1))
  else if field w 0 5 = 0x7#5 then .ok (.vsrl (field w 21 5) (field w 16 5) (field w 11 5) (field w 8 3) (field w 6 2) (field w 5 1))
  else if field w 0 5 = 0x8#5 then .ok (.vsra (field w 21 5) (field w 16 5) (field w 11 5) (field w 8 3) (field w 6 2) (field w 5 1))
  else if field w 0 5 = 0x9#5 then .ok (.vmin (field w 21 5) (field w 16 5) (field w 11 5) (field w 8 3) (field w 6 2) (field w 5 1))
  else if field w 0 5 = 0xa#5 then .ok (.vmax (field w 21 5) (field w 16 5) (field w 11 5) (field w 8 3) (field w 6 2) (field w 5 1))
  else if field w 0 5 = 0xb#5 then .ok (.vminu (field w 21 5) (field w 16 5) (field w 11 5) (field w 8 3) (field w 6 2) (field w 5 1))
  else if field w 0 5 = 0xc#5 then .ok (.vmaxu (field w 21 5) (field w 16 5) (field w 11 5) (field w 8 3) (field w 6 2) (field w 5 1))
  else if field w 0 5 = 0xd#5 then .ok (.vmul (field w 21 5) (field w 16 5) (field w 11 5) (field w 8 3) (field w 6 2) (field w 5 1))
  else if field w 0 5 = 0xe#5 then .ok (.vmulh (field w 21 5) (field w 16 5) (field w 11 5) (field w 8 3) (field w 6 2) (field w 5 1))
  else if field w 0 5 = 0xf#5 then .ok (.vmulhu (field w 21 5) (field w 16 5) (field w 11 5) (field w 8 3) (field w 6 2) (field w 5 1))
  else if field w 0 5 = 0x10#5 then .ok (.vsadd (field w 21 5) (field w 16 5) (field w 11 5) (field w 8 3) (field w 6 2) (field w 5 1))
  else if field w 0 5 = 0x11#5 then .ok (.vsaddu (field w 21 5) (field w 16 5) (field w 11 5) (field w 8 3) (field w 6 2) (field w 5 1))
  else if field w 0 5 = 0x12#5 then .ok (.vssub (field w 21 5) (field w 16 5) (field w 11 5) (field w 8 3) (field w 6 2) (field w 5 1))
  else if field w 0 5 = 0x13#5 then .ok (.vssubu (field w 21 5) (field w 16 5) (field w 11 5) (field w 8 3) (field w 6 2) (field w 5 1))
  else .error .reservedField

/-- The words of major 0x21 (11 R272). -/
noncomputable def decodeVfop (w : Word32) : Except Reject Instr :=
  if field w 0 5 = 0x0#5 then .ok (.vfadd (field w 21 5) (field w 16 5) (field w 11 5) (field w 8 3) (field w 6 2) (field w 5 1))
  else if field w 0 5 = 0x1#5 then .ok (.vfsub (field w 21 5) (field w 16 5) (field w 11 5) (field w 8 3) (field w 6 2) (field w 5 1))
  else if field w 0 5 = 0x2#5 then .ok (.vfmul (field w 21 5) (field w 16 5) (field w 11 5) (field w 8 3) (field w 6 2) (field w 5 1))
  else if field w 0 5 = 0x3#5 then .ok (.vfdiv (field w 21 5) (field w 16 5) (field w 11 5) (field w 8 3) (field w 6 2) (field w 5 1))
  else if field w 11 5 = 0x0#5 ∧ field w 0 6 = 0x4#6 then .ok (.vfsqrt (field w 21 5) (field w 16 5) (field w 8 3) (field w 6 2))
  else if field w 0 5 = 0x5#5 then .ok (.vfmin (field w 21 5) (field w 16 5) (field w 11 5) (field w 8 3) (field w 6 2) (field w 5 1))
  else if field w 0 5 = 0x6#5 then .ok (.vfmax (field w 21 5) (field w 16 5) (field w 11 5) (field w 8 3) (field w 6 2) (field w 5 1))
  else if field w 0 5 = 0x7#5 then .ok (.vfsgnj (field w 21 5) (field w 16 5) (field w 11 5) (field w 8 3) (field w 6 2) (field w 5 1))
  else if field w 0 5 = 0x8#5 then .ok (.vfsgnjn (field w 21 5) (field w 16 5) (field w 11 5) (field w 8 3) (field w 6 2) (field w 5 1))
  else if field w 0 5 = 0x9#5 then .ok (.vfsgnjx (field w 21 5) (field w 16 5) (field w 11 5) (field w 8 3) (field w 6 2) (field w 5 1))
  else .error .reservedField

/-- The words of major 0x22 (11 R272). -/
noncomputable def decodeVfmaA (w : Word32) : Except Reject Instr :=
  if field w 2 1 = 0x0#1 then .ok (.vfmadd (field w 21 5) (field w 16 5) (field w 11 5) (field w 6 5) (field w 3 3) (field w 0 2))
  else if field w 2 1 = 0x1#1 then .ok (.vfmsub (field w 21 5) (field w 16 5) (field w 11 5) (field w 6 5) (field w 3 3) (field w 0 2))
  else .error .reservedField

/-- The words of major 0x23 (11 R272). -/
noncomputable def decodeVfmaB (w : Word32) : Except Reject Instr :=
  if field w 2 1 = 0x0#1 then .ok (.vfnmadd (field w 21 5) (field w 16 5) (field w 11 5) (field w 6 5) (field w 3 3) (field w 0 2))
  else if field w 2 1 = 0x1#1 then .ok (.vfnmsub (field w 21 5) (field w 16 5) (field w 11 5) (field w 6 5) (field w 3 3) (field w 0 2))
  else .error .reservedField

/-- The words of major 0x24 (11 R272). -/
noncomputable def decodeVcmp (w : Word32) : Except Reject Instr :=
  if field w 0 5 = 0x0#5 then .ok (.vcmpEq (field w 21 5) (field w 16 5) (field w 11 5) (field w 8 3) (field w 6 2) (field w 5 1))
  else if field w 0 5 = 0x1#5 then .ok (.vcmpNe (field w 21 5) (field w 16 5) (field w 11 5) (field w 8 3) (field w 6 2) (field w 5 1))
  else if field w 0 5 = 0x2#5 then .ok (.vcmpLt (field w 21 5) (field w 16 5) (field w 11 5) (field w 8 3) (field w 6 2) (field w 5 1))
  else if field w 0 5 = 0x3#5 then .ok (.vcmpGe (field w 21 5) (field w 16 5) (field w 11 5) (field w 8 3) (field w 6 2) (field w 5 1))
  else if field w 0 5 = 0x4#5 then .ok (.vcmpLtu (field w 21 5) (field w 16 5) (field w 11 5) (field w 8 3) (field w 6 2) (field w 5 1))
  else if field w 0 5 = 0x5#5 then .ok (.vcmpGeu (field w 21 5) (field w 16 5) (field w 11 5) (field w 8 3) (field w 6 2) (field w 5 1))
  else if field w 0 5 = 0x10#5 then .ok (.vfcmpEq (field w 21 5) (field w 16 5) (field w 11 5) (field w 8 3) (field w 6 2) (field w 5 1))
  else if field w 0 5 = 0x11#5 then .ok (.vfcmpNe (field w 21 5) (field w 16 5) (field w 11 5) (field w 8 3) (field w 6 2) (field w 5 1))
  else if field w 0 5 = 0x12#5 then .ok (.vfcmpLt (field w 21 5) (field w 16 5) (field w 11 5) (field w 8 3) (field w 6 2) (field w 5 1))
  else if field w 0 5 = 0x13#5 then .ok (.vfcmpLe (field w 21 5) (field w 16 5) (field w 11 5) (field w 8 3) (field w 6 2) (field w 5 1))
  else if field w 0 5 = 0x14#5 then .ok (.vfcmpUo (field w 21 5) (field w 16 5) (field w 11 5) (field w 8 3) (field w 6 2) (field w 5 1))
  else .error .reservedField

/-- The words of major 0x25 (11 R272). -/
noncomputable def decodeVred (w : Word32) : Except Reject Instr :=
  if field w 0 6 = 0x0#6 then .ok (.vredsum (field w 21 5) (field w 16 5) (field w 11 5) (field w 8 3) (field w 6 2))
  else if field w 0 6 = 0x1#6 then .ok (.vredmin (field w 21 5) (field w 16 5) (field w 11 5) (field w 8 3) (field w 6 2))
  else if field w 0 6 = 0x2#6 then .ok (.vredmax (field w 21 5) (field w 16 5) (field w 11 5) (field w 8 3) (field w 6 2))
  else if field w 0 6 = 0x3#6 then .ok (.vredminu (field w 21 5) (field w 16 5) (field w 11 5) (field w 8 3) (field w 6 2))
  else if field w 0 6 = 0x4#6 then .ok (.vredmaxu (field w 21 5) (field w 16 5) (field w 11 5) (field w 8 3) (field w 6 2))
  else if field w 0 6 = 0x5#6 then .ok (.vredand (field w 21 5) (field w 16 5) (field w 11 5) (field w 8 3) (field w 6 2))
  else if field w 0 6 = 0x6#6 then .ok (.vredor (field w 21 5) (field w 16 5) (field w 11 5) (field w 8 3) (field w 6 2))
  else if field w 0 6 = 0x7#6 then .ok (.vredxor (field w 21 5) (field w 16 5) (field w 11 5) (field w 8 3) (field w 6 2))
  else if field w 0 6 = 0x8#6 then .ok (.vscan (field w 21 5) (field w 16 5) (field w 11 5) (field w 8 3) (field w 6 2))
  else if field w 0 6 = 0x10#6 then .ok (.vfredo (field w 21 5) (field w 16 5) (field w 11 5) (field w 8 3) (field w 6 2))
  else if field w 0 6 = 0x11#6 then .ok (.vfredp (field w 21 5) (field w 16 5) (field w 11 5) (field w 8 3) (field w 6 2))
  else if field w 0 6 = 0x12#6 then .ok (.vfredmino (field w 21 5) (field w 16 5) (field w 11 5) (field w 8 3) (field w 6 2))
  else if field w 0 6 = 0x13#6 then .ok (.vfredmaxo (field w 21 5) (field w 16 5) (field w 11 5) (field w 8 3) (field w 6 2))
  else if field w 0 6 = 0x16#6 then .ok (.vfredminp (field w 21 5) (field w 16 5) (field w 11 5) (field w 8 3) (field w 6 2))
  else if field w 0 6 = 0x17#6 then .ok (.vfredmaxp (field w 21 5) (field w 16 5) (field w 11 5) (field w 8 3) (field w 6 2))
  else if field w 0 6 = 0x18#6 then .ok (.vfscano (field w 21 5) (field w 16 5) (field w 11 5) (field w 8 3) (field w 6 2))
  else .error .reservedField

/-- The words of major 0x26 (11 R272). -/
noncomputable def decodeVperm (w : Word32) : Except Reject Instr :=
  if field w 11 5 = 0x0#5 ∧ field w 0 6 = 0x0#6 then .ok (.vbcast (field w 21 5) (field w 16 5) (field w 8 3) (field w 6 2))
  else if field w 8 3 = 0x0#3 ∧ field w 0 6 = 0x1#6 then .ok (.vextract (field w 21 5) (field w 16 5) (field w 11 5) (field w 6 2))
  else if field w 8 3 = 0x0#3 ∧ field w 0 6 = 0x2#6 then .ok (.vinsert (field w 21 5) (field w 16 5) (field w 11 5) (field w 6 2))
  else if field w 0 6 = 0x3#6 then .ok (.vslideup (field w 21 5) (field w 16 5) (field w 11 5) (field w 8 3) (field w 6 2))
  else if field w 0 6 = 0x4#6 then .ok (.vslidedown (field w 21 5) (field w 16 5) (field w 11 5) (field w 8 3) (field w 6 2))
  else if field w 0 6 = 0x5#6 then .ok (.vperm (field w 21 5) (field w 16 5) (field w 11 5) (field w 8 3) (field w 6 2))
  else if field w 0 6 = 0x6#6 then .ok (.vsel (field w 21 5) (field w 16 5) (field w 11 5) (field w 8 3) (field w 6 2))
  else .error .reservedField

/-- The words of major 0x27 (11 R272). -/
noncomputable def decodeVcvt (w : Word32) : Except Reject Instr :=
  if field w 11 5 = 0x0#5 ∧ field w 1 5 = 0x0#5 then .ok (.vsext (field w 21 5) (field w 16 5) (field w 8 3) (field w 6 2) (field w 0 1))
  else if field w 11 5 = 0x0#5 ∧ field w 1 5 = 0x1#5 then .ok (.vzext (field w 21 5) (field w 16 5) (field w 8 3) (field w 6 2) (field w 0 1))
  else if field w 0 6 = 0x4#6 then .ok (.vnarrow (field w 21 5) (field w 16 5) (field w 11 5) (field w 8 3) (field w 6 2))
  else if field w 0 6 = 0x5#6 then .ok (.vnarrowsu (field w 21 5) (field w 16 5) (field w 11 5) (field w 8 3) (field w 6 2))
  else if field w 0 6 = 0x6#6 then .ok (.vnarrowu (field w 21 5) (field w 16 5) (field w 11 5) (field w 8 3) (field w 6 2))
  else if field w 0 6 = 0x7#6 then .ok (.vtrunc (field w 21 5) (field w 16 5) (field w 11 5) (field w 8 3) (field w 6 2))
  else if field w 11 5 = 0x0#5 ∧ field w 1 5 = 0x4#5 then .ok (.vfwiden (field w 21 5) (field w 16 5) (field w 8 3) (field w 6 2) (field w 0 1))
  else if field w 11 5 = 0x0#5 ∧ field w 1 5 = 0x5#5 then .ok (.vfwidenBf (field w 21 5) (field w 16 5) (field w 8 3) (field w 6 2) (field w 0 1))
  else if field w 0 6 = 0xc#6 then .ok (.vfnarrow (field w 21 5) (field w 16 5) (field w 11 5) (field w 8 3) (field w 6 2))
  else if field w 0 6 = 0x10#6 then .ok (.vfcvtFX (field w 21 5) (field w 16 5) (field w 11 5) (field w 8 3) (field w 6 2))
  else if field w 0 6 = 0x11#6 then .ok (.vfcvtFXu (field w 21 5) (field w 16 5) (field w 11 5) (field w 8 3) (field w 6 2))
  else if field w 0 6 = 0x12#6 then .ok (.vfcvtXF (field w 21 5) (field w 16 5) (field w 11 5) (field w 8 3) (field w 6 2))
  else if field w 0 6 = 0x13#6 then .ok (.vfcvtXuF (field w 21 5) (field w 16 5) (field w 11 5) (field w 8 3) (field w 6 2))
  else if field w 11 5 = 0x0#5 ∧ field w 3 3 = 0x4#3 then .ok (.vps8 (field w 21 5) (field w 16 5) (field w 8 3) (field w 6 2) (field w 0 3))
  else .error .reservedField

/-- The words of major 0x33 (11 R272). -/
noncomputable def decodeMask (w : Word32) : Except Reject Instr :=
  if field w 0 11 = 0x0#11 then .ok (.mand (field w 21 5) (field w 16 5) (field w 11 5))
  else if field w 0 11 = 0x1#11 then .ok (.mor (field w 21 5) (field w 16 5) (field w 11 5))
  else if field w 0 11 = 0x2#11 then .ok (.mxor (field w 21 5) (field w 16 5) (field w 11 5))
  else if field w 0 11 = 0x3#11 then .ok (.mandn (field w 21 5) (field w 16 5) (field w 11 5))
  else if field w 0 16 = 0x4#16 then .ok (.mnot (field w 21 5) (field w 16 5))
  else if field w 0 16 = 0x5#16 then .ok (.mset (field w 21 5) (field w 16 5))
  else if field w 0 16 = 0x6#16 then .ok (.mget (field w 21 5) (field w 16 5))
  else if field w 0 16 = 0x7#16 then .ok (.mpopc (field w 21 5) (field w 16 5))
  else if field w 0 16 = 0x8#16 then .ok (.mfirst (field w 21 5) (field w 16 5))
  else if field w 0 16 = 0x9#16 then .ok (.mfirstn (field w 21 5) (field w 16 5))
  else .error .reservedField

/-- The words of major 0x28 (11 R272). -/
noncomputable def decodeVld (w : Word32) : Except Reject Instr :=
  if field w 13 3 = 0x0#3 then .ok (.vld (field w 21 5) (field w 16 5) (field w 0 13))
  else .error .reservedField

/-- The words of major 0x29 (11 R272). -/
noncomputable def decodeVst (w : Word32) : Except Reject Instr :=
  if field w 13 3 = 0x0#3 then .ok (.vst (field w 21 5) (field w 16 5) (field w 0 13))
  else .error .reservedField

/-- The words of major 0x2a (11 R272). -/
noncomputable def decodeVgath (w : Word32) : Except Reject Instr :=
  if field w 11 5 = 0x0#5 ∧ field w 0 6 = 0x0#6 then .ok (.vldm (field w 21 5) (field w 16 5) (field w 8 3) (field w 6 2))
  else if field w 0 6 = 0x1#6 then .ok (.vlds (field w 21 5) (field w 16 5) (field w 11 5) (field w 8 3) (field w 6 2))
  else if field w 0 6 = 0x2#6 then .ok (.vgath (field w 21 5) (field w 16 5) (field w 11 5) (field w 8 3) (field w 6 2))
  else .error .reservedField

/-- The words of major 0x2b (11 R272). -/
noncomputable def decodeVscat (w : Word32) : Except Reject Instr :=
  if field w 11 5 = 0x0#5 ∧ field w 0 6 = 0x0#6 then .ok (.vstm (field w 21 5) (field w 16 5) (field w 8 3) (field w 6 2))
  else if field w 0 6 = 0x1#6 then .ok (.vsts (field w 21 5) (field w 16 5) (field w 11 5) (field w 8 3) (field w 6 2))
  else if field w 0 6 = 0x2#6 then .ok (.vscat (field w 21 5) (field w 16 5) (field w 11 5) (field w 8 3) (field w 6 2))
  else .error .reservedField

/-- The words of major 0x2d (11 R272). -/
noncomputable def decodeSt (w : Word32) : Except Reject Instr :=
  if field w 15 1 = 0x0#1 then .ok (.st (field w 21 5) (field w 16 5) (field w 13 2) (field w 0 13))
  else .error .reservedField

/-- The words of major 0x2e (11 R272). -/
noncomputable def decodeAmo (w : Word32) : Except Reject Instr :=
  if field w 10 1 = 0x0#1 ∧ field w 0 4 = 0x0#4 then .ok (.amoadd (field w 21 5) (field w 16 5) (field w 11 5) (field w 7 3) (field w 6 1) (field w 5 1) (field w 4 1))
  else if field w 10 1 = 0x0#1 ∧ field w 0 4 = 0x1#4 then .ok (.amoand (field w 21 5) (field w 16 5) (field w 11 5) (field w 7 3) (field w 6 1) (field w 5 1) (field w 4 1))
  else if field w 10 1 = 0x0#1 ∧ field w 0 4 = 0x2#4 then .ok (.amoor (field w 21 5) (field w 16 5) (field w 11 5) (field w 7 3) (field w 6 1) (field w 5 1) (field w 4 1))
  else if field w 10 1 = 0x0#1 ∧ field w 0 4 = 0x3#4 then .ok (.amoxor (field w 21 5) (field w 16 5) (field w 11 5) (field w 7 3) (field w 6 1) (field w 5 1) (field w 4 1))
  else if field w 10 1 = 0x0#1 ∧ field w 0 4 = 0x4#4 then .ok (.amomin (field w 21 5) (field w 16 5) (field w 11 5) (field w 7 3) (field w 6 1) (field w 5 1) (field w 4 1))
  else if field w 10 1 = 0x0#1 ∧ field w 0 4 = 0x5#4 then .ok (.amomax (field w 21 5) (field w 16 5) (field w 11 5) (field w 7 3) (field w 6 1) (field w 5 1) (field w 4 1))
  else if field w 10 1 = 0x0#1 ∧ field w 0 4 = 0x6#4 then .ok (.amominu (field w 21 5) (field w 16 5) (field w 11 5) (field w 7 3) (field w 6 1) (field w 5 1) (field w 4 1))
  else if field w 10 1 = 0x0#1 ∧ field w 0 4 = 0x7#4 then .ok (.amomaxu (field w 21 5) (field w 16 5) (field w 11 5) (field w 7 3) (field w 6 1) (field w 5 1) (field w 4 1))
  else if field w 10 1 = 0x0#1 ∧ field w 0 4 = 0x8#4 then .ok (.amoswap (field w 21 5) (field w 16 5) (field w 11 5) (field w 7 3) (field w 6 1) (field w 5 1) (field w 4 1))
  else if field w 10 1 = 0x0#1 ∧ field w 0 4 = 0x9#4 then .ok (.amocas (field w 21 5) (field w 16 5) (field w 11 5) (field w 7 3) (field w 6 1) (field w 5 1) (field w 4 1))
  else .error .reservedField

/-- The words of major 0x2f (11 R272). -/
noncomputable def decodeSync (w : Word32) : Except Reject Instr :=
  if field w 7 19 = 0x0#19 then .ok (.fence (field w 4 3) (field w 0 4))
  else if field w 3 13 = 0x10#13 then .ok (.ldsync (field w 21 5) (field w 16 5) (field w 0 3))
  else if field w 21 5 = 0x0#5 ∧ field w 0 16 = 0x100#16 then .ok (.stfe (field w 16 5))
  else if field w 21 5 = 0x0#5 ∧ field w 0 16 = 0x180#16 then .ok (.feclr (field w 16 5))
  else if field w 7 4 = 0x4#4 then .ok (.waitv (field w 21 5) (field w 16 5) (field w 11 5) (field w 4 3) (field w 3 1) (field w 0 3))
  else if field w 7 9 = 0x5#9 ∧ field w 3 1 = 0x0#1 then .ok (.ldAcq (field w 21 5) (field w 16 5) (field w 4 3) (field w 0 3))
  else if field w 7 9 = 0x6#9 ∧ field w 2 2 = 0x0#2 then .ok (.stRel (field w 21 5) (field w 16 5) (field w 4 3) (field w 0 2))
  else .error .reservedField

/-- The words of major 0x30 (11 R272). -/
noncomputable def decodeBar (w : Word32) : Except Reject Instr :=
  if field w 21 5 = 0x0#5 ∧ field w 0 11 = 0x0#11 then .ok (.barInit (field w 16 5) (field w 11 5))
  else if field w 21 5 = 0x0#5 ∧ field w 0 11 = 0x1#11 then .ok (.barExpect (field w 16 5) (field w 11 5))
  else if field w 0 16 = 0x2#16 then .ok (.barArrive (field w 21 5) (field w 16 5))
  else if field w 21 5 = 0x0#5 ∧ field w 0 11 = 0x3#11 then .ok (.barArriveC (field w 16 5) (field w 11 5))
  else if field w 0 11 = 0x4#11 then .ok (.barWait (field w 21 5) (field w 16 5) (field w 11 5))
  else if field w 0 11 = 0x5#11 then .ok (.barWaitDoze (field w 21 5) (field w 16 5) (field w 11 5))
  else if field w 0 11 = 0x6#11 then .ok (.barTest (field w 21 5) (field w 16 5) (field w 11 5))
  else .error .reservedField

/-- The words of major 0x31 (11 R272). -/
noncomputable def decodeStash (w : Word32) : Except Reject Instr :=
  if field w 0 11 = 0x0#11 then .ok (.stashMap (field w 21 5) (field w 16 5) (field w 11 5))
  else if field w 21 5 = 0x0#5 ∧ field w 0 16 = 0x1#16 then .ok (.stashUnmap (field w 16 5))
  else if field w 21 5 = 0x0#5 ∧ field w 0 16 = 0x2#16 then .ok (.stashFlush (field w 16 5))
  else if field w 0 16 = 0x3#16 then .ok (.cacheResize (field w 21 5) (field w 16 5))
  else if field w 21 5 = 0x0#5 ∧ field w 0 16 = 0x4#16 then .ok (.pref (field w 16 5))
  else if field w 21 5 = 0x0#5 ∧ field w 0 16 = 0x5#16 then .ok (.cflush (field w 16 5))
  else .error .reservedField

/-- The words of major 0x32 (11 R272). -/
noncomputable def decodeCarriage (w : Word32) : Except Reject Instr :=
  if field w 0 16 = 0x0#16 then .ok (.cwait (field w 21 5) (field w 16 5))
  else if field w 21 5 = 0x0#5 ∧ field w 0 16 = 0x1#16 then .ok (.crel (field w 16 5))
  else if field w 0 16 = 0x2#16 then .ok (.ctest (field w 21 5) (field w 16 5))
  else .error .reservedField

/-- The words of major 0x34 (11 R272). -/
noncomputable def decodeAcc (w : Word32) : Except Reject Instr :=
  if field w 7 9 = 0x0#9 ∧ field w 0 6 = 0x0#6 then .ok (.accAlloc (field w 21 5) (field w 16 5) (field w 6 1))
  else if field w 21 5 = 0x0#5 ∧ field w 0 16 = 0x1#16 then .ok (.accFree (field w 16 5))
  else if field w 21 5 = 0x0#5 ∧ field w 0 16 = 0x2#16 then .ok (.accZero (field w 16 5))
  else if field w 0 6 = 0x3#6 then .ok (.accRd (field w 21 5) (field w 16 5) (field w 11 5) (field w 6 5))
  else if field w 0 11 = 0x4#11 then .ok (.accWr (field w 21 5) (field w 16 5) (field w 11 5))
  else if field w 0 11 = 0x5#11 then .ok (.accSt (field w 21 5) (field w 16 5) (field w 11 5))
  else .error .reservedField

/-- The words of major 0x35 (11 R272). -/
noncomputable def decodePanel (w : Word32) : Except Reject Instr :=
  if field w 0 11 = 0x0#11 then .ok (.pld (field w 21 5) (field w 16 5) (field w 11 5))
  else if field w 0 11 = 0x1#11 then .ok (.pst (field w 21 5) (field w 16 5) (field w 11 5))
  else if field w 0 21 = 0x2#21 then .ok (.pzero (field w 21 5))
  else .error .reservedField

/-- The words of major 0x36 (11 R272). -/
noncomputable def decodeMma (w : Word32) : Except Reject Instr :=
  if field w 11 3 = 0x0#3 ∧ field w 0 10 = 0x0#10 then .ok (.mmaBf16 (field w 22 4) (field w 18 4) (field w 14 4) (field w 10 1))
  else if field w 11 3 = 0x1#3 ∧ field w 0 10 = 0x0#10 then .ok (.mmaFp16 (field w 22 4) (field w 18 4) (field w 14 4) (field w 10 1))
  else if field w 11 3 = 0x2#3 ∧ field w 0 10 = 0x0#10 then .ok (.mmaPs8 (field w 22 4) (field w 18 4) (field w 14 4) (field w 10 1))
  else if field w 11 3 = 0x3#3 ∧ field w 0 10 = 0x0#10 then .ok (.mmaPs4 (field w 22 4) (field w 18 4) (field w 14 4) (field w 10 1))
  else if field w 11 3 = 0x4#3 ∧ field w 0 10 = 0x0#10 then .ok (.mmaTern (field w 22 4) (field w 18 4) (field w 14 4) (field w 10 1))
  else if field w 11 3 = 0x5#3 ∧ field w 0 10 = 0x0#10 then .ok (.mmaFp64 (field w 22 4) (field w 18 4) (field w 14 4) (field w 10 1))
  else .error .reservedField

/-- The words of major 0x37 (11 R272). -/
noncomputable def decodeMscale (w : Word32) : Except Reject Instr :=
  if field w 10 8 = 0x0#8 then .ok (.mscale (field w 22 4) (field w 18 4) (field w 4 6) (field w 0 4))
  else if field w 11 3 = 0x1#3 ∧ field w 0 7 = 0x0#7 then .ok (.mout (field w 22 4) (field w 18 4) (field w 14 4) (field w 7 4))
  else .error .reservedField

/-- The words of major 0x38 (11 R272). -/
noncomputable def decodeMsend (w : Word32) : Except Reject Instr :=
  if field w 21 5 = 0x0#5 ∧ field w 0 16 = 0x0#16 then .ok (.msend (field w 16 5))
  else if field w 0 21 = 0x1#21 then .ok (.mwait (field w 21 5))
  else .error .reservedField

/-- The words of major 0x3a (11 R272). -/
noncomputable def decodeDray (w : Word32) : Except Reject Instr :=
  if field w 21 5 = 0x0#5 ∧ field w 6 10 = 0x0#10 then .ok (.drayTpl (field w 16 5) (field w 0 6))
  else if field w 8 3 = 0x1#3 then .ok (.drayGo (field w 21 5) (field w 16 5) (field w 11 5) (field w 6 2) (field w 0 6))
  else if field w 21 5 = 0x0#5 ∧ field w 0 11 = 0x200#11 then .ok (.draySlack (field w 16 5) (field w 11 5))
  else if field w 21 5 = 0x0#5 ∧ field w 0 16 = 0x300#16 then .ok (.drayCancel (field w 16 5))
  else if field w 0 16 = 0x400#16 then .ok (.drayStat (field w 21 5) (field w 16 5))
  else if field w 21 5 = 0x0#5 ∧ field w 0 16 = 0x500#16 then .ok (.drayAper (field w 16 5))
  else .error .reservedField

/-- The words of major 0x3b (11 R272). -/
noncomputable def decodeStrm (w : Word32) : Except Reject Instr :=
  if field w 0 16 = 0x0#16 then .ok (.strmBind (field w 21 5) (field w 16 5))
  else if field w 0 21 = 0x1#21 then .ok (.strmUnbind (field w 21 5))
  else if field w 16 5 = 0x0#5 ∧ field w 0 11 = 0x2#11 then .ok (.strmPos (field w 21 5) (field w 11 5))
  else .error .reservedField

/-- The words of major 0x3c (11 R272). -/
noncomputable def decodeFelt (w : Word32) : Except Reject Instr :=
  if field w 21 5 = 0x0#5 ∧ field w 7 1 = 0x0#1 ∧ field w 0 4 = 0x0#4 then .ok (.feltCfg (field w 16 5) (field w 11 5) (field w 8 3) (field w 4 3))
  else if field w 21 5 = 0x0#5 ∧ field w 7 1 = 0x0#1 ∧ field w 0 4 = 0x1#4 then .ok (.feltScale (field w 16 5) (field w 11 5) (field w 8 3) (field w 4 3))
  else if field w 21 5 = 0x0#5 ∧ field w 7 1 = 0x0#1 ∧ field w 0 4 = 0x2#4 then .ok (.feltIc (field w 16 5) (field w 11 5) (field w 8 3) (field w 4 3))
  else if field w 16 10 = 0x0#10 ∧ field w 7 1 = 0x0#1 ∧ field w 0 4 = 0x3#4 then .ok (.feltRun (field w 11 5) (field w 8 3) (field w 4 3))
  else if field w 11 5 = 0x0#5 ∧ field w 0 8 = 0x4#8 then .ok (.feltSettle (field w 21 5) (field w 16 5) (field w 8 3))
  else if field w 21 5 = 0x0#5 ∧ field w 0 7 = 0x5#7 then .ok (.feltSample (field w 16 5) (field w 11 5) (field w 8 3) (field w 7 1))
  else if field w 11 15 = 0x0#15 ∧ field w 0 8 = 0x6#8 then .ok (.feltHalt (field w 8 3))
  else if field w 11 10 = 0x0#10 ∧ field w 0 8 = 0x7#8 then .ok (.feltStat (field w 21 5) (field w 8 3))
  else .error .reservedField

/-- The words of major 0x3f (11 R272). -/
noncomputable def decodeHint (w : Word32) : Except Reject Instr :=
  if field w 24 2 = 0x0#2 then .ok (.ximm (field w 0 24))
  else if field w 0 26 = 0x1000000#26 then .ok (.hintNop)
  else if field w 1 25 = 0x880000#25 then .ok (.hintTaken (field w 0 1))
  else if field w 8 18 = 0x12000#18 then .ok (.hintSpin (field w 0 8))
  else if field w 0 26 = 0x1300000#26 then .ok (.hintKeep)
  else if field w 3 23 = 0x402000#23 then .ok (.modFrm (field w 0 3))
  else if field w 4 22 = 0x202000#22 then .ok (.modQsel (field w 0 4))
  else if field w 24 2 = 0x2#2 then .error .badModifier
  else if field w 24 2 = 0x3#2 then .error .reservedKind
  else .error .reservedField

/-- The instruction a 32-bit word encodes (11 R272). -/
noncomputable def decodeWord (w : Word32) : Except Reject Instr :=
  match (field w 26 6).toNat with
  | 0x00 => decodeIll w
  | 0x01 => decodeOpi w
  | 0x02 => decodeMulDiv w
  | 0x03 => .ok (.addi (field w 21 5) (field w 16 5) (field w 0 16))
  | 0x04 => .ok (.andi (field w 21 5) (field w 16 5) (field w 0 16))
  | 0x05 => .ok (.ori (field w 21 5) (field w 16 5) (field w 0 16))
  | 0x06 => .ok (.xori (field w 21 5) (field w 16 5) (field w 0 16))
  | 0x07 => decodeShiftI w
  | 0x08 => .ok (.slti (field w 21 5) (field w 16 5) (field w 0 16))
  | 0x09 => .ok (.sltiu (field w 21 5) (field w 16 5) (field w 0 16))
  | 0x0a => decodeLui w
  | 0x0b => .ok (.auipc (field w 21 5) (field w 0 21))
  | 0x0c => decodeLdx w
  | 0x10 => decodeFop w
  | 0x11 => decodeFma w
  | 0x12 => decodeCvt w
  | 0x18 => decodeBr w
  | 0x19 => .ok (.jal (field w 21 5) (field w 0 21))
  | 0x1a => .ok (.jalr (field w 21 5) (field w 16 5) (field w 0 16))
  | 0x1b => decodeSys w
  | 0x1c => decodeCsr w
  | 0x1d => decodeGear w
  | 0x1e => decodeMsg w
  | 0x1f => decodeWork w
  | 0x20 => decodeVop w
  | 0x21 => decodeVfop w
  | 0x22 => decodeVfmaA w
  | 0x23 => decodeVfmaB w
  | 0x24 => decodeVcmp w
  | 0x25 => decodeVred w
  | 0x26 => decodeVperm w
  | 0x27 => decodeVcvt w
  | 0x33 => decodeMask w
  | 0x28 => decodeVld w
  | 0x29 => decodeVst w
  | 0x2a => decodeVgath w
  | 0x2b => decodeVscat w
  | 0x2c => .ok (.ld (field w 21 5) (field w 16 5) (field w 13 3) (field w 0 13))
  | 0x2d => decodeSt w
  | 0x2e => decodeAmo w
  | 0x2f => decodeSync w
  | 0x30 => decodeBar w
  | 0x31 => decodeStash w
  | 0x32 => decodeCarriage w
  | 0x34 => decodeAcc w
  | 0x35 => decodePanel w
  | 0x36 => decodeMma w
  | 0x37 => decodeMscale w
  | 0x38 => decodeMsend w
  | 0x3a => decodeDray w
  | 0x3b => decodeStrm w
  | 0x3c => decodeFelt w
  | 0x3f => decodeHint w
  | _ => .error .reservedMajor

/-- The 32-bit little-endian word of four bytes (00 R5). -/
def wordOfBytes (b0 b1 b2 b3 : Byte) : Word32 := b3 ++ b2 ++ b1 ++ b0

/-- The instruction that stands in memory as these bytes, lowest address first. -/
noncomputable def decode (bytes : List Byte) : Except Reject Instr :=
  match bytes with
  | [b0, b1, b2, b3] => decodeWord (wordOfBytes b0 b1 b2 b3)
  | _ => .error .length

/-- The four bytes of an instruction word as memory holds them. -/
def bytesOfWord (w : Word32) : List Byte := [field w 0 8, field w 8 8, field w 16 8, field w 24 8]

/-- What the decoder reads from the instruction whose bits are `w` (bit 0 the least significant of the word); `none` where it
refuses. Every row of the table with an encoding has 32 bits. -/
noncomputable def decodeTableWord (nbits w : Nat) : Option Instr :=
  if nbits ≤ 32 then
    match decode (bytesOfWord (BitVec.ofNat 32 w)) with
    | .ok i => some i
    | .error _ => none
  else none

/-- The word of an instruction; a step of the device that is no instruction word has none. -/
def encode (i : Instr) : Option Word32 :=
  match i with
  | .ill x => some (0x0#6 ++ x)
  | .add d a b w => some (0x1#6 ++ d ++ a ++ b ++ 0x0#2 ++ w ++ 0x0#8)
  | .sub d a b w => some (0x1#6 ++ d ++ a ++ b ++ 0x0#2 ++ w ++ 0x1#8)
  | .and d a b w => some (0x1#6 ++ d ++ a ++ b ++ 0x0#2 ++ w ++ 0x2#8)
  | .or d a b w => some (0x1#6 ++ d ++ a ++ b ++ 0x0#2 ++ w ++ 0x3#8)
  | .xor d a b w => some (0x1#6 ++ d ++ a ++ b ++ 0x0#2 ++ w ++ 0x4#8)
  | .andn d a b w => some (0x1#6 ++ d ++ a ++ b ++ 0x0#2 ++ w ++ 0x5#8)
  | .sll d a b w => some (0x1#6 ++ d ++ a ++ b ++ 0x0#2 ++ w ++ 0x6#8)
  | .srl d a b w => some (0x1#6 ++ d ++ a ++ b ++ 0x0#2 ++ w ++ 0x7#8)
  | .sra d a b w => some (0x1#6 ++ d ++ a ++ b ++ 0x0#2 ++ w ++ 0x8#8)
  | .slt d a b w => some (0x1#6 ++ d ++ a ++ b ++ 0x0#2 ++ w ++ 0x9#8)
  | .sltu d a b w => some (0x1#6 ++ d ++ a ++ b ++ 0x0#2 ++ w ++ 0xa#8)
  | .min d a b w => some (0x1#6 ++ d ++ a ++ b ++ 0x0#2 ++ w ++ 0xb#8)
  | .max d a b w => some (0x1#6 ++ d ++ a ++ b ++ 0x0#2 ++ w ++ 0xc#8)
  | .minu d a b w => some (0x1#6 ++ d ++ a ++ b ++ 0x0#2 ++ w ++ 0xd#8)
  | .maxu d a b w => some (0x1#6 ++ d ++ a ++ b ++ 0x0#2 ++ w ++ 0xe#8)
  | .clz d a w => some (0x1#6 ++ d ++ a ++ 0x0#7 ++ w ++ 0xf#8)
  | .ctz d a w => some (0x1#6 ++ d ++ a ++ 0x0#7 ++ w ++ 0x10#8)
  | .popc d a w => some (0x1#6 ++ d ++ a ++ 0x0#7 ++ w ++ 0x11#8)
  | .mul d a b w => some (0x2#6 ++ d ++ a ++ b ++ 0x0#2 ++ w ++ 0x0#8)
  | .mulh d a b => some (0x2#6 ++ d ++ a ++ b ++ 0x1#11)
  | .mulhu d a b => some (0x2#6 ++ d ++ a ++ b ++ 0x2#11)
  | .mulhsu d a b => some (0x2#6 ++ d ++ a ++ b ++ 0x3#11)
  | .div d a b w => some (0x2#6 ++ d ++ a ++ b ++ 0x0#2 ++ w ++ 0x4#8)
  | .divu d a b w => some (0x2#6 ++ d ++ a ++ b ++ 0x0#2 ++ w ++ 0x5#8)
  | .rem d a b w => some (0x2#6 ++ d ++ a ++ b ++ 0x0#2 ++ w ++ 0x6#8)
  | .remu d a b w => some (0x2#6 ++ d ++ a ++ b ++ 0x0#2 ++ w ++ 0x7#8)
  | .addi d a i => some (0x3#6 ++ d ++ a ++ i)
  | .andi d a i => some (0x4#6 ++ d ++ a ++ i)
  | .ori d a i => some (0x5#6 ++ d ++ a ++ i)
  | .xori d a i => some (0x6#6 ++ d ++ a ++ i)
  | .slli d a w s => some (0x7#6 ++ d ++ a ++ 0x0#1 ++ w ++ 0x0#8 ++ s)
  | .srli d a w s => some (0x7#6 ++ d ++ a ++ 0x0#1 ++ w ++ 0x40#8 ++ s)
  | .srai d a w s => some (0x7#6 ++ d ++ a ++ 0x0#1 ++ w ++ 0x80#8 ++ s)
  | .slti d a i => some (0x8#6 ++ d ++ a ++ i)
  | .sltiu d a i => some (0x9#6 ++ d ++ a ++ i)
  | .lui d i => some (0xa#6 ++ d ++ i)
  | .auipc d i => some (0xb#6 ++ d ++ i)
  | .ldx d a b w => some (0xc#6 ++ d ++ a ++ b ++ 0x0#8 ++ w)
  | .fadd d a b p => some (0x10#6 ++ d ++ a ++ b ++ 0x0#10 ++ p)
  | .fsub d a b p => some (0x10#6 ++ d ++ a ++ b ++ 0x1#10 ++ p)
  | .fmul d a b p => some (0x10#6 ++ d ++ a ++ b ++ 0x2#10 ++ p)
  | .fdiv d a b p => some (0x10#6 ++ d ++ a ++ b ++ 0x3#10 ++ p)
  | .fsqrt d a p => some (0x10#6 ++ d ++ a ++ 0x4#15 ++ p)
  | .fmin d a b p => some (0x10#6 ++ d ++ a ++ b ++ 0x5#10 ++ p)
  | .fmax d a b p => some (0x10#6 ++ d ++ a ++ b ++ 0x6#10 ++ p)
  | .fsgnj d a b p => some (0x10#6 ++ d ++ a ++ b ++ 0x7#10 ++ p)
  | .fsgnjn d a b p => some (0x10#6 ++ d ++ a ++ b ++ 0x8#10 ++ p)
  | .fsgnjx d a b p => some (0x10#6 ++ d ++ a ++ b ++ 0x9#10 ++ p)
  | .feq d a b p => some (0x10#6 ++ d ++ a ++ b ++ 0xa#10 ++ p)
  | .flt d a b p => some (0x10#6 ++ d ++ a ++ b ++ 0xb#10 ++ p)
  | .fle d a b p => some (0x10#6 ++ d ++ a ++ b ++ 0xc#10 ++ p)
  | .fmadd d a b c p => some (0x11#6 ++ d ++ a ++ b ++ c ++ 0x0#5 ++ p)
  | .fmsub d a b c p => some (0x11#6 ++ d ++ a ++ b ++ c ++ 0x1#5 ++ p)
  | .fnmadd d a b c p => some (0x11#6 ++ d ++ a ++ b ++ c ++ 0x2#5 ++ p)
  | .fnmsub d a b c p => some (0x11#6 ++ d ++ a ++ b ++ c ++ 0x3#5 ++ p)
  | .fcvt d a t s => some (0x12#6 ++ d ++ a ++ 0x0#6 ++ t ++ s ++ 0x0#2)
  | .fclass d a s => some (0x12#6 ++ d ++ a ++ 0x0#10 ++ s ++ 0x1#2)
  | .beq a b o => some (0x18#6 ++ a ++ b ++ 0x0#3 ++ o)
  | .bne a b o => some (0x18#6 ++ a ++ b ++ 0x1#3 ++ o)
  | .blt a b o => some (0x18#6 ++ a ++ b ++ 0x2#3 ++ o)
  | .bge a b o => some (0x18#6 ++ a ++ b ++ 0x3#3 ++ o)
  | .bltu a b o => some (0x18#6 ++ a ++ b ++ 0x4#3 ++ o)
  | .bgeu a b o => some (0x18#6 ++ a ++ b ++ 0x5#3 ++ o)
  | .bmany a o => some (0x18#6 ++ a ++ 0x6#8 ++ o)
  | .bmnone a o => some (0x18#6 ++ a ++ 0x7#8 ++ o)
  | .jal d i => some (0x19#6 ++ d ++ i)
  | .jalr d a i => some (0x1a#6 ++ d ++ a ++ i)
  | .sysc d a c => some (0x1b#6 ++ d ++ a ++ 0x0#4 ++ c)
  | .brk c => some (0x6c001#20 ++ c)
  | .exit => some (0x6c002000#32)
  | .yield => some (0x6c003000#32)
  | .svcRecv d a => some (0x1b#6 ++ d ++ a ++ 0x4000#16)
  | .svcResume d a c => some (0x1b#6 ++ d ++ a ++ 0x5#4 ++ c)
  | .svcKill a => some (0x360#11 ++ a ++ 0x6000#16)
  | .csrr d n => some (0x1c#6 ++ d ++ 0x0#9 ++ n)
  | .csrw d a n => some (0x1c#6 ++ d ++ a ++ 0x1#4 ++ n)
  | .csrs d a n => some (0x1c#6 ++ d ++ a ++ 0x2#4 ++ n)
  | .csrc d a n => some (0x1c#6 ++ d ++ a ++ 0x3#4 ++ n)
  | .gear d g => some (0x1d#6 ++ d ++ 0x0#20 ++ g)
  | .send d a b => some (0x1e#6 ++ d ++ a ++ b ++ 0x0#11)
  | .courier a b => some (0x3c0#11 ++ a ++ b ++ 0x1#11)
  | .bind a b => some (0x3c0#11 ++ a ++ b ++ 0x2#11)
  | .unbind b => some (0x7800#16 ++ b ++ 0x3#11)
  | .launch d a b => some (0x1f#6 ++ d ++ a ++ b ++ 0x0#11)
  | .relaunch d a b l => some (0x1f#6 ++ d ++ a ++ b ++ l ++ 0x1#3)
  | .wbSkip a b => some (0x3e0#11 ++ a ++ b ++ 0x2#11)
  | .wbAll => some (0x7c000003#32)
  | .vadd d a b m e x => some (0x20#6 ++ d ++ a ++ b ++ m ++ e ++ x ++ 0x0#5)
  | .vsub d a b m e x => some (0x20#6 ++ d ++ a ++ b ++ m ++ e ++ x ++ 0x1#5)
  | .vand d a b m e x => some (0x20#6 ++ d ++ a ++ b ++ m ++ e ++ x ++ 0x2#5)
  | .vor d a b m e x => some (0x20#6 ++ d ++ a ++ b ++ m ++ e ++ x ++ 0x3#5)
  | .vxor d a b m e x => some (0x20#6 ++ d ++ a ++ b ++ m ++ e ++ x ++ 0x4#5)
  | .vandn d a b m e x => some (0x20#6 ++ d ++ a ++ b ++ m ++ e ++ x ++ 0x5#5)
  | .vsll d a b m e x => some (0x20#6 ++ d ++ a ++ b ++ m ++ e ++ x ++ 0x6#5)
  | .vsrl d a b m e x => some (0x20#6 ++ d ++ a ++ b ++ m ++ e ++ x ++ 0x7#5)
  | .vsra d a b m e x => some (0x20#6 ++ d ++ a ++ b ++ m ++ e ++ x ++ 0x8#5)
  | .vmin d a b m e x => some (0x20#6 ++ d ++ a ++ b ++ m ++ e ++ x ++ 0x9#5)
  | .vmax d a b m e x => some (0x20#6 ++ d ++ a ++ b ++ m ++ e ++ x ++ 0xa#5)
  | .vminu d a b m e x => some (0x20#6 ++ d ++ a ++ b ++ m ++ e ++ x ++ 0xb#5)
  | .vmaxu d a b m e x => some (0x20#6 ++ d ++ a ++ b ++ m ++ e ++ x ++ 0xc#5)
  | .vmul d a b m e x => some (0x20#6 ++ d ++ a ++ b ++ m ++ e ++ x ++ 0xd#5)
  | .vmulh d a b m e x => some (0x20#6 ++ d ++ a ++ b ++ m ++ e ++ x ++ 0xe#5)
  | .vmulhu d a b m e x => some (0x20#6 ++ d ++ a ++ b ++ m ++ e ++ x ++ 0xf#5)
  | .vsadd d a b m e x => some (0x20#6 ++ d ++ a ++ b ++ m ++ e ++ x ++ 0x10#5)
  | .vsaddu d a b m e x => some (0x20#6 ++ d ++ a ++ b ++ m ++ e ++ x ++ 0x11#5)
  | .vssub d a b m e x => some (0x20#6 ++ d ++ a ++ b ++ m ++ e ++ x ++ 0x12#5)
  | .vssubu d a b m e x => some (0x20#6 ++ d ++ a ++ b ++ m ++ e ++ x ++ 0x13#5)
  | .vfadd d a b m e x => some (0x21#6 ++ d ++ a ++ b ++ m ++ e ++ x ++ 0x0#5)
  | .vfsub d a b m e x => some (0x21#6 ++ d ++ a ++ b ++ m ++ e ++ x ++ 0x1#5)
  | .vfmul d a b m e x => some (0x21#6 ++ d ++ a ++ b ++ m ++ e ++ x ++ 0x2#5)
  | .vfdiv d a b m e x => some (0x21#6 ++ d ++ a ++ b ++ m ++ e ++ x ++ 0x3#5)
  | .vfsqrt d a m e => some (0x21#6 ++ d ++ a ++ 0x0#5 ++ m ++ e ++ 0x4#6)
  | .vfmin d a b m e x => some (0x21#6 ++ d ++ a ++ b ++ m ++ e ++ x ++ 0x5#5)
  | .vfmax d a b m e x => some (0x21#6 ++ d ++ a ++ b ++ m ++ e ++ x ++ 0x6#5)
  | .vfsgnj d a b m e x => some (0x21#6 ++ d ++ a ++ b ++ m ++ e ++ x ++ 0x7#5)
  | .vfsgnjn d a b m e x => some (0x21#6 ++ d ++ a ++ b ++ m ++ e ++ x ++ 0x8#5)
  | .vfsgnjx d a b m e x => some (0x21#6 ++ d ++ a ++ b ++ m ++ e ++ x ++ 0x9#5)
  | .vfmadd d a b c m f => some (0x22#6 ++ d ++ a ++ b ++ c ++ m ++ 0x0#1 ++ f)
  | .vfmsub d a b c m f => some (0x22#6 ++ d ++ a ++ b ++ c ++ m ++ 0x1#1 ++ f)
  | .vfnmadd d a b c m f => some (0x23#6 ++ d ++ a ++ b ++ c ++ m ++ 0x0#1 ++ f)
  | .vfnmsub d a b c m f => some (0x23#6 ++ d ++ a ++ b ++ c ++ m ++ 0x1#1 ++ f)
  | .vcmpEq d a b m e x => some (0x24#6 ++ d ++ a ++ b ++ m ++ e ++ x ++ 0x0#5)
  | .vcmpNe d a b m e x => some (0x24#6 ++ d ++ a ++ b ++ m ++ e ++ x ++ 0x1#5)
  | .vcmpLt d a b m e x => some (0x24#6 ++ d ++ a ++ b ++ m ++ e ++ x ++ 0x2#5)
  | .vcmpGe d a b m e x => some (0x24#6 ++ d ++ a ++ b ++ m ++ e ++ x ++ 0x3#5)
  | .vcmpLtu d a b m e x => some (0x24#6 ++ d ++ a ++ b ++ m ++ e ++ x ++ 0x4#5)
  | .vcmpGeu d a b m e x => some (0x24#6 ++ d ++ a ++ b ++ m ++ e ++ x ++ 0x5#5)
  | .vfcmpEq d a b m e x => some (0x24#6 ++ d ++ a ++ b ++ m ++ e ++ x ++ 0x10#5)
  | .vfcmpNe d a b m e x => some (0x24#6 ++ d ++ a ++ b ++ m ++ e ++ x ++ 0x11#5)
  | .vfcmpLt d a b m e x => some (0x24#6 ++ d ++ a ++ b ++ m ++ e ++ x ++ 0x12#5)
  | .vfcmpLe d a b m e x => some (0x24#6 ++ d ++ a ++ b ++ m ++ e ++ x ++ 0x13#5)
  | .vfcmpUo d a b m e x => some (0x24#6 ++ d ++ a ++ b ++ m ++ e ++ x ++ 0x14#5)
  | .vredsum d a b m e => some (0x25#6 ++ d ++ a ++ b ++ m ++ e ++ 0x0#6)
  | .vredmin d a b m e => some (0x25#6 ++ d ++ a ++ b ++ m ++ e ++ 0x1#6)
  | .vredmax d a b m e => some (0x25#6 ++ d ++ a ++ b ++ m ++ e ++ 0x2#6)
  | .vredminu d a b m e => some (0x25#6 ++ d ++ a ++ b ++ m ++ e ++ 0x3#6)
  | .vredmaxu d a b m e => some (0x25#6 ++ d ++ a ++ b ++ m ++ e ++ 0x4#6)
  | .vredand d a b m e => some (0x25#6 ++ d ++ a ++ b ++ m ++ e ++ 0x5#6)
  | .vredor d a b m e => some (0x25#6 ++ d ++ a ++ b ++ m ++ e ++ 0x6#6)
  | .vredxor d a b m e => some (0x25#6 ++ d ++ a ++ b ++ m ++ e ++ 0x7#6)
  | .vscan d a b m e => some (0x25#6 ++ d ++ a ++ b ++ m ++ e ++ 0x8#6)
  | .vfredo d a b m e => some (0x25#6 ++ d ++ a ++ b ++ m ++ e ++ 0x10#6)
  | .vfredp d a b m e => some (0x25#6 ++ d ++ a ++ b ++ m ++ e ++ 0x11#6)
  | .vfredmino d a b m e => some (0x25#6 ++ d ++ a ++ b ++ m ++ e ++ 0x12#6)
  | .vfredmaxo d a b m e => some (0x25#6 ++ d ++ a ++ b ++ m ++ e ++ 0x13#6)
  | .vfredminp d a b m e => some (0x25#6 ++ d ++ a ++ b ++ m ++ e ++ 0x16#6)
  | .vfredmaxp d a b m e => some (0x25#6 ++ d ++ a ++ b ++ m ++ e ++ 0x17#6)
  | .vfscano d a b m e => some (0x25#6 ++ d ++ a ++ b ++ m ++ e ++ 0x18#6)
  | .vbcast d a m e => some (0x26#6 ++ d ++ a ++ 0x0#5 ++ m ++ e ++ 0x0#6)
  | .vextract d a b e => some (0x26#6 ++ d ++ a ++ b ++ 0x0#3 ++ e ++ 0x1#6)
  | .vinsert d a b e => some (0x26#6 ++ d ++ a ++ b ++ 0x0#3 ++ e ++ 0x2#6)
  | .vslideup d a b m e => some (0x26#6 ++ d ++ a ++ b ++ m ++ e ++ 0x3#6)
  | .vslidedown d a b m e => some (0x26#6 ++ d ++ a ++ b ++ m ++ e ++ 0x4#6)
  | .vperm d a b m e => some (0x26#6 ++ d ++ a ++ b ++ m ++ e ++ 0x5#6)
  | .vsel d a b m e => some (0x26#6 ++ d ++ a ++ b ++ m ++ e ++ 0x6#6)
  | .vsext d a m e h => some (0x27#6 ++ d ++ a ++ 0x0#5 ++ m ++ e ++ 0x0#5 ++ h)
  | .vzext d a m e h => some (0x27#6 ++ d ++ a ++ 0x0#5 ++ m ++ e ++ 0x1#5 ++ h)
  | .vnarrow d a b m e => some (0x27#6 ++ d ++ a ++ b ++ m ++ e ++ 0x4#6)
  | .vnarrowsu d a b m e => some (0x27#6 ++ d ++ a ++ b ++ m ++ e ++ 0x5#6)
  | .vnarrowu d a b m e => some (0x27#6 ++ d ++ a ++ b ++ m ++ e ++ 0x6#6)
  | .vtrunc d a b m e => some (0x27#6 ++ d ++ a ++ b ++ m ++ e ++ 0x7#6)
  | .vfwiden d a m e h => some (0x27#6 ++ d ++ a ++ 0x0#5 ++ m ++ e ++ 0x4#5 ++ h)
  | .vfwidenBf d a m e h => some (0x27#6 ++ d ++ a ++ 0x0#5 ++ m ++ e ++ 0x5#5 ++ h)
  | .vfnarrow d a b m e => some (0x27#6 ++ d ++ a ++ b ++ m ++ e ++ 0xc#6)
  | .vfcvtFX d a b m e => some (0x27#6 ++ d ++ a ++ b ++ m ++ e ++ 0x10#6)
  | .vfcvtFXu d a b m e => some (0x27#6 ++ d ++ a ++ b ++ m ++ e ++ 0x11#6)
  | .vfcvtXF d a b m e => some (0x27#6 ++ d ++ a ++ b ++ m ++ e ++ 0x12#6)
  | .vfcvtXuF d a b m e => some (0x27#6 ++ d ++ a ++ b ++ m ++ e ++ 0x13#6)
  | .vps8 d a m e p => some (0x27#6 ++ d ++ a ++ 0x0#5 ++ m ++ e ++ 0x4#3 ++ p)
  | .mand d a b => some (0x33#6 ++ d ++ a ++ b ++ 0x0#11)
  | .mor d a b => some (0x33#6 ++ d ++ a ++ b ++ 0x1#11)
  | .mxor d a b => some (0x33#6 ++ d ++ a ++ b ++ 0x2#11)
  | .mandn d a b => some (0x33#6 ++ d ++ a ++ b ++ 0x3#11)
  | .mnot d a => some (0x33#6 ++ d ++ a ++ 0x4#16)
  | .mset d a => some (0x33#6 ++ d ++ a ++ 0x5#16)
  | .mget d a => some (0x33#6 ++ d ++ a ++ 0x6#16)
  | .mpopc d a => some (0x33#6 ++ d ++ a ++ 0x7#16)
  | .mfirst d a => some (0x33#6 ++ d ++ a ++ 0x8#16)
  | .mfirstn d a => some (0x33#6 ++ d ++ a ++ 0x9#16)
  | .vld d a o => some (0x28#6 ++ d ++ a ++ 0x0#3 ++ o)
  | .vst s a o => some (0x29#6 ++ s ++ a ++ 0x0#3 ++ o)
  | .vldm d a m e => some (0x2a#6 ++ d ++ a ++ 0x0#5 ++ m ++ e ++ 0x0#6)
  | .vlds d a b m e => some (0x2a#6 ++ d ++ a ++ b ++ m ++ e ++ 0x1#6)
  | .vgath d a b m e => some (0x2a#6 ++ d ++ a ++ b ++ m ++ e ++ 0x2#6)
  | .vstm s a m e => some (0x2b#6 ++ s ++ a ++ 0x0#5 ++ m ++ e ++ 0x0#6)
  | .vsts s a b m e => some (0x2b#6 ++ s ++ a ++ b ++ m ++ e ++ 0x1#6)
  | .vscat s a b m e => some (0x2b#6 ++ s ++ a ++ b ++ m ++ e ++ 0x2#6)
  | .ld d a w o => some (0x2c#6 ++ d ++ a ++ w ++ o)
  | .st s a w o => some (0x2d#6 ++ s ++ a ++ 0x0#1 ++ w ++ o)
  | .amoadd d a b s r q z => some (0x2e#6 ++ d ++ a ++ b ++ 0x0#1 ++ s ++ r ++ q ++ z ++ 0x0#4)
  | .amoand d a b s r q z => some (0x2e#6 ++ d ++ a ++ b ++ 0x0#1 ++ s ++ r ++ q ++ z ++ 0x1#4)
  | .amoor d a b s r q z => some (0x2e#6 ++ d ++ a ++ b ++ 0x0#1 ++ s ++ r ++ q ++ z ++ 0x2#4)
  | .amoxor d a b s r q z => some (0x2e#6 ++ d ++ a ++ b ++ 0x0#1 ++ s ++ r ++ q ++ z ++ 0x3#4)
  | .amomin d a b s r q z => some (0x2e#6 ++ d ++ a ++ b ++ 0x0#1 ++ s ++ r ++ q ++ z ++ 0x4#4)
  | .amomax d a b s r q z => some (0x2e#6 ++ d ++ a ++ b ++ 0x0#1 ++ s ++ r ++ q ++ z ++ 0x5#4)
  | .amominu d a b s r q z => some (0x2e#6 ++ d ++ a ++ b ++ 0x0#1 ++ s ++ r ++ q ++ z ++ 0x6#4)
  | .amomaxu d a b s r q z => some (0x2e#6 ++ d ++ a ++ b ++ 0x0#1 ++ s ++ r ++ q ++ z ++ 0x7#4)
  | .amoswap d a b s r q z => some (0x2e#6 ++ d ++ a ++ b ++ 0x0#1 ++ s ++ r ++ q ++ z ++ 0x8#4)
  | .amocas d a b s r q z => some (0x2e#6 ++ d ++ a ++ b ++ 0x0#1 ++ s ++ r ++ q ++ z ++ 0x9#4)
  | .fence s k => some (0x1780000#25 ++ s ++ k)
  | .ldsync d a w => some (0x2f#6 ++ d ++ a ++ 0x10#13 ++ w)
  | .stfe a => some (0x5e0#11 ++ a ++ 0x100#16)
  | .feclr a => some (0x5e0#11 ++ a ++ 0x180#16)
  | .waitv d a b s c w => some (0x2f#6 ++ d ++ a ++ b ++ 0x4#4 ++ s ++ c ++ w)
  | .ldAcq d a s w => some (0x2f#6 ++ d ++ a ++ 0x5#9 ++ s ++ 0x0#1 ++ w)
  | .stRel d a s w => some (0x2f#6 ++ d ++ a ++ 0x6#9 ++ s ++ 0x0#2 ++ w)
  | .barInit a b => some (0x600#11 ++ a ++ b ++ 0x0#11)
  | .barExpect a b => some (0x600#11 ++ a ++ b ++ 0x1#11)
  | .barArrive d a => some (0x30#6 ++ d ++ a ++ 0x2#16)
  | .barArriveC a b => some (0x600#11 ++ a ++ b ++ 0x3#11)
  | .barWait d a b => some (0x30#6 ++ d ++ a ++ b ++ 0x4#11)
  | .barWaitDoze d a b => some (0x30#6 ++ d ++ a ++ b ++ 0x5#11)
  | .barTest d a b => some (0x30#6 ++ d ++ a ++ b ++ 0x6#11)
  | .stashMap d a b => some (0x31#6 ++ d ++ a ++ b ++ 0x0#11)
  | .stashUnmap a => some (0x620#11 ++ a ++ 0x1#16)
  | .stashFlush a => some (0x620#11 ++ a ++ 0x2#16)
  | .cacheResize d a => some (0x31#6 ++ d ++ a ++ 0x3#16)
  | .pref a => some (0x620#11 ++ a ++ 0x4#16)
  | .cflush a => some (0x620#11 ++ a ++ 0x5#16)
  | .cwait d a => some (0x32#6 ++ d ++ a ++ 0x0#16)
  | .crel a => some (0x640#11 ++ a ++ 0x1#16)
  | .ctest d a => some (0x32#6 ++ d ++ a ++ 0x2#16)
  | .accAlloc d a k => some (0x34#6 ++ d ++ a ++ 0x0#9 ++ k ++ 0x0#6)
  | .accFree a => some (0x680#11 ++ a ++ 0x1#16)
  | .accZero a => some (0x680#11 ++ a ++ 0x2#16)
  | .accRd d a b e => some (0x34#6 ++ d ++ a ++ b ++ e ++ 0x3#6)
  | .accWr d a b => some (0x34#6 ++ d ++ a ++ b ++ 0x4#11)
  | .accSt d a b => some (0x34#6 ++ d ++ a ++ b ++ 0x5#11)
  | .pld d a b => some (0x35#6 ++ d ++ a ++ b ++ 0x0#11)
  | .pst d a b => some (0x35#6 ++ d ++ a ++ b ++ 0x1#11)
  | .pzero d => some (0x35#6 ++ d ++ 0x2#21)
  | .mmaBf16 c a b z => some (0x36#6 ++ c ++ a ++ b ++ 0x0#3 ++ z ++ 0x0#10)
  | .mmaFp16 c a b z => some (0x36#6 ++ c ++ a ++ b ++ 0x1#3 ++ z ++ 0x0#10)
  | .mmaPs8 c a b z => some (0x36#6 ++ c ++ a ++ b ++ 0x2#3 ++ z ++ 0x0#10)
  | .mmaPs4 c a b z => some (0x36#6 ++ c ++ a ++ b ++ 0x3#3 ++ z ++ 0x0#10)
  | .mmaTern c a b z => some (0x36#6 ++ c ++ a ++ b ++ 0x4#3 ++ z ++ 0x0#10)
  | .mmaFp64 c a b z => some (0x36#6 ++ c ++ a ++ b ++ 0x5#3 ++ z ++ 0x0#10)
  | .mscale d a r s => some (0x37#6 ++ d ++ a ++ 0x0#8 ++ r ++ s)
  | .mout d a o n => some (0x37#6 ++ d ++ a ++ o ++ 0x1#3 ++ n ++ 0x0#7)
  | .msend a => some (0x700#11 ++ a ++ 0x0#16)
  | .mwait d => some (0x38#6 ++ d ++ 0x1#21)
  | .drayTpl a s => some (0x740#11 ++ a ++ 0x0#10 ++ s)
  | .drayGo d a b c s => some (0x3a#6 ++ d ++ a ++ b ++ 0x1#3 ++ c ++ s)
  | .draySlack a b => some (0x740#11 ++ a ++ b ++ 0x200#11)
  | .drayCancel a => some (0x740#11 ++ a ++ 0x300#16)
  | .drayStat d a => some (0x3a#6 ++ d ++ a ++ 0x400#16)
  | .drayAper a => some (0x740#11 ++ a ++ 0x500#16)
  | .strmBind d a => some (0x3b#6 ++ d ++ a ++ 0x0#16)
  | .strmUnbind d => some (0x3b#6 ++ d ++ 0x1#21)
  | .strmPos d b => some (0x3b#6 ++ d ++ 0x0#5 ++ b ++ 0x2#11)
  | .feltCfg a b k s => some (0x780#11 ++ a ++ b ++ k ++ 0x0#1 ++ s ++ 0x0#4)
  | .feltScale a b k s => some (0x780#11 ++ a ++ b ++ k ++ 0x0#1 ++ s ++ 0x1#4)
  | .feltIc a b k s => some (0x780#11 ++ a ++ b ++ k ++ 0x0#1 ++ s ++ 0x2#4)
  | .feltRun b k s => some (0xf000#16 ++ b ++ k ++ 0x0#1 ++ s ++ 0x3#4)
  | .feltSettle d a k => some (0x3c#6 ++ d ++ a ++ 0x0#5 ++ k ++ 0x4#8)
  | .feltSample a b k g => some (0x780#11 ++ a ++ b ++ k ++ g ++ 0x5#7)
  | .feltHalt k => some (0x1e0000#21 ++ k ++ 0x6#8)
  | .feltStat d k => some (0x3c#6 ++ d ++ 0x0#10 ++ k ++ 0x7#8)
  | .ximm p => some (0xfc#8 ++ p)
  | .hintNop => some (0xfd000000#32)
  | .hintTaken t => some (0x7e880000#31 ++ t)
  | .hintSpin n => some (0xfd2000#24 ++ n)
  | .hintKeep => some (0xfd300000#32)
  | .modFrm r => some (0x1fc02000#29 ++ r)
  | .modQsel q => some (0xfe02000#28 ++ q)
  | .packageReset _ => none
  | .ppsEdge => none
  | .timeOfDayMessage _ => none
  | .junctionThrottle _ => none
  | .junctionShutdown _ => none
  | .wearTrigger _ => none
  | .spareSwap _ => none
  | .roleMove _ _ => none
  | .lossOfLock _ _ => none
  | .healthWindow _ => none
  | .timingReplay _ => none
  | .idleFlit _ _ => none
  | .dataFlit _ _ => none
  | .ackFlit _ _ => none
  | .nakFlit _ _ => none
  | .trainFlit _ _ => none
  | .replayTimeout _ => none
  | .ackTimer _ => none
  | .nakHoldoffExpiry _ => none
  | .linkRetryBound _ => none
  | .trainingTimeout _ => none
  | .partnerReset _ => none
  | .noticeRecord _ => none
  | .classOHoldEnd _ => none
  | .portDisable _ => none
  | .portTrain _ => none
  | .portReset _ => none
  | .swreq => none
  | .bankSwitch => none
  | .routingBankWrite _ _ => none
  | .devnumWrite _ => none
  | .transitPacket _ _ => none
  | .rd _ => none
  | .rdx _ => none
  | .wr _ => none
  | .amoPacket _ => none
  | .wb _ => none
  | .snp _ => none
  | .snprsp _ => none
  | .dataPacket _ => none
  | .ackPacket _ => none
  | .inv _ => none
  | .trinvPacket _ => none
  | .gen _ => none
  | .charge _ => none
  | .mgmt _ => none
  | .notice _ => none
  | .sendPacket _ => none
  | .courierPacket _ => none
  | .msendPacket _ => none
  | .draywr _ => none
  | .killPacket _ => none
  | .reply _ => none
  | .reservedOpcode _ => none
  | .requestTimeout _ => none
  | .goneClear _ => none
  | .chargeSend => none
  | .snoopTimeout _ => none
  | .peek _ => none
  | .reclaimKeep => none
  | .reclaimData _ => none
  | .doorbell _ _ _ _ => none
  | .queueCreate _ => none
  | .destroy _ => none
  | .destroyKill _ => none
  | .queueResume _ => none
  | .packetFetch _ _ => none
  | .fetchReread _ _ => none
  | .launchPacket _ => none
  | .relaunchPacket _ => none
  | .coach _ => none
  | .destroyPacket _ => none
  | .signal _ => none
  | .waitmem _ => none
  | .waitmemPoll _ => none
  | .nopPacket _ => none
  | .packetCompletion _ => none
  | .timesliceExpiry _ => none
  | .partitionReset _ => none
  | .partcfgWrite _ => none
  | .qhctlWrite _ => none
  | .ctxctlWrite _ => none
  | .errorRingSetup _ _ => none
  | .storageBlockWrite _ _ _ => none
  | .bar4Read _ _ => none
  | .bar4Write _ _ _ => none
  | .peerLoadTimeout _ => none
  | .chunk _ _ => none
  | .commit _ => none
  | .attest _ => none
  | .reboot => none
  | .abort => none
  | .hotPatchApply => none
  | .patchTimeout => none
  | .bindRecordWrite _ _ _ _ => none
  | .blockDispatch _ _ _ => none
  | .blockActivation _ => none
  | .mfwWrite _ _ => none
  | .cut _ => none
  | .dispatchResume _ => none
  | .kill _ => none
  | .killFenceEnd _ => none
  | .hold _ => none
  | .release _ => none
  | .fareEstimate .. => none
  | .fgrant _ => none
  | .trinvRange _ => none
  | .trinvAll _ => none
  | .trinvGrants _ => none
  | .migReread _ => none
  | .gearRailSettled _ => none
  | .l2RailLower _ => none
  | .park _ => none
  | .wake _ => none
  | .lattolWrite _ _ => none
  | .dragStep _ => none
  | .clockMaskAdjust _ _ _ => none
  | .triggerLatch _ => none
  | .courierStart _ => none
  | .matrixCommandStart _ => none
  | .kStep _ => none
  | .draySegment _ _ => none
  | .drayApertureStart _ _ _ => none
  | .storageCompletion _ _ _ _ => none
  | .storageTimeout _ _ _ => none
  | .streamTransfer _ _ => none
  | .feltCommandExecute _ => none
  | .feltLoadEnd _ => none
  | .settleDetect _ => none
  | .feltRunmax _ => none
  | .feltSaturation _ _ _ => none
  | .holdTimeout _ => none
  | .feltConversion _ => none
  | .calibration _ => none
  | .carriagePiece _ _ _ _ => none
  | .carriageFetchFail _ _ _ => none
  | .eviction _ _ => none
  | .relaunchRound _ => none
  | .registerWrite _ _ _ => none
  | .settleTimeout _ => none
  | .peerReadCompletion _ _ _ => none
  | .partitionResetEnd _ => none
  | .matrixCommandEnd _ => none
  | .carriageEvicted _ _ => none
  | .l2RailRisen _ => none
  | .wearingLaneReplace _ _ => none
  | .lockAcquired _ _ => none

end Sys2Proof
end

