-- ==== Sys2Proof/Config.lean ====
section
/-!
DEFINITION. What is fixed for one device, and the free values: constants with no body, of which nothing can be proved. A statement
that holds of the model holds whatever they are.
-/
namespace Sys2Proof.Config

/-! ## Free values (assumption log 3): each is applied to the state's counter of free values taken, or to the operands it depends on. -/

/-- Reference ticks that pass while one step is made (00 R7 counts them, no rule fixes them for the model's steps). -/
opaque freeElapsed : Nat → Nat
/-- Whether the next step is one of the pending steps of engines and hardware, or an instruction of an agent (no rule orders them). -/
opaque freeTurn : Nat → Bool
/-- Which of the agents that can issue issues next (05 R140). -/
opaque freePick : Nat → Nat
/-- The low 32 bits of a matrix capability, chosen afresh for each grant (05 R155). -/
opaque freeCapability : Nat → BitVec 32
/-- Which of the allowed pairs of code and straddle bit a node of a sample shows (10 R259, R262). -/
opaque freeSample : Nat → Nat → Nat
/-- The bind records that firmware writes for a run, by cluster and slot: what R84 leaves to firmware in each, as 64 bytes (02 R62;
03 R84). -/
opaque freeBinding : Nat → List (Nat × Nat × List (BitVec 8))
/-- A new run identifier's position among those not in use (16 R394). -/
opaque freeRunId : Nat → BitVec 32
/-- What a racing access of a partly failing write leaves: whether the k-th granule is written (15 R365). -/
opaque freeGranule : Nat → Nat → Bool
/-- The port a class-U packet takes among the live ports of its destination, by queue depth (01 R27). -/
opaque freePort : Nat → Nat

/-! ## The device (assumption log 10) -/

/-- The key that firmware assigns to a partition (01 R28). -/
opaque partitionKey : Nat → BitVec 16

/-- Silicon stepping, DEVINFO[47:40] (02 R58). -/
opaque stepping : BitVec 8
/-- Serial number, DEVINFO[39:0] (02 R58). -/
opaque serial : BitVec 40
/-- Boot ROM version (01 R53). -/
opaque bootRomVersion : BitVec 32
/-- The fused minimum security version (01 R50) at manufacture. -/
opaque fusedSvn : BitVec 8
/-- The firmware image that slot A (0) or B (1) holds at manufacture (01 R50). -/
opaque factoryImage : Nat → List (BitVec 8)
/-- The ostler configuration table in its store at manufacture (03 R79). -/
opaque factoryTable : List (BitVec 8)
/-- Energy in nJ that firmware's weights give to one event (04 R125): 0 an instruction, 1 a K step, 2 a wadding unit, 3 a pool and 4 an L2
access, 5 a byte of HBM and 6 of a link, 7 a replay, 8 a Felt array's 1 µs, 9 a byte of its image (10 R265), 256 on a packet's work by opcode. -/
opaque fareWeight : Nat → Nat
/-- A tile's static energy in nJ for 1 µs, in GALLOP or not (04 R125). -/
opaque staticPower : Bool → Nat
/-- Firmware's own image: version, security version and whether it is signed to raise the fused minimum (01 R50, 03 R103). -/
opaque imageVersion : List (BitVec 8) → BitVec 32
/-- Security version an image carries (01 R50). -/
opaque imageSvn : List (BitVec 8) → BitVec 8
/-- Whether the management controller's own firmware passes its boot ROM's check (01 R50). -/
opaque controllerOk : Bool
/-- Whether a firmware image's signature verifies (01 R49; the manual does not lay the image out). -/
opaque imageSigned : List (BitVec 8) → Bool
/-- Address of the firmware's patch area (03 R104). -/
opaque patchArea : BitVec 64
/-- Whether an image is signed to raise the fused minimum (01 R50). -/
opaque imageRaises : List (BitVec 8) → Bool

/-- The granules whose data a bank's row of a pseudo-channel holds: stack, pseudo-channel, bank, row (01 R15 fixes no layout). -/
opaque rowGranules : Nat → Nat → Nat → Nat → List Nat

/-! ## Cryptography and coding whose keys or polynomials the manual keeps (assumption log 7, 8, 9) -/

/-- ECDSA P-521 verification under Voxok's key: digest, r and s (01 R49). -/
opaque ecdsaVerify : BitVec 512 → Nat → Nat → Bool
/-- The numbers r and s of the ECDSA P-521 signature of a digest under the device identity key (01 R52, R53). -/
opaque ecdsaR : BitVec 512 → BitVec 521
opaque ecdsaS : BitVec 512 → BitVec 521
/-- Forward error correction of 256 bytes with more errors than it can correct (01 R19, R22). -/
opaque fecRepair : List (BitVec 8) → List (BitVec 8)
/-- What a sector encrypted under one key slot reads as under another: address, key that wrote, key that reads, data (06 R180). -/
opaque wrongKey : Nat → BitVec 8 → BitVec 8 → BitVec 512 → BitVec 512

end Sys2Proof.Config
end

