-- ==== Sys2Proof/Machine/State.lean ====
section
/-!
DEFINITION. The state of one SK7 package as plain data, and its value right after reset. Every field names the rule that gives it.
What the manual indexes by a large number space is a sparse map whose unlisted entries have the reset value.
-/
namespace Sys2Proof.Machine

/-- Why the machine stops. Nothing of the SK7 stops it: a fault of the manual is a message (06 R172), which is a next state. -/
inductive Fault where
  /-- Raised by no step of the model: the manual gives every fault an effect. Safe. -/
  | unraised
  deriving DecidableEq, Repr

/-- Why a step has no meaning here. -/
inductive Refusal where
  /-- Raised by an arm of `exec` whose instruction has no meaning yet. Safe: no claim about the instruction can be proved. -/
  | notModelled (mnemonic : String)
  deriving DecidableEq, Repr

/-- A memory: cells in strictly rising address order, none of them equal to the byte an unlisted address reads as (log 4). -/
abbrev Memory := List Host.Cell

/-! ## Strands, couriers, cores -/

/-- What a strand runs (05 R134, R144). -/
inductive Activation where
  | free
  | block (run : BitVec 32) (index : Nat)
  | handler (run : BitVec 32) (line : Word) (slot : Nat)
  | courier (run : BitVec 32)
  deriving DecidableEq, Repr

/-- A fault that awaits its reply, as R172 reports it: code, sub-code, kind (bit 7 DEFERRED), address, the entry of bytes 48-55. -/
structure FaultInfo where
  code : BitVec 8
  sub : BitVec 16
  kind : BitVec 8
  addr : Word
  entry : Word
  /-- The register a SYSC's reply value goes to (16 R384). -/
  dest : BitVec 5 := 0
  deriving DecidableEq, Repr

/-- Where an agent stands. -/
inductive Status where
  /-- It issues its next instruction. -/
  | ready
  /-- Stalled in WaitUntil, on a stream, on a full queue: the instruction at pc is executed again (03 R91, 14 R322). -/
  | stalled
  /-- It waits for the memory reply named by `tag` (06 R183). -/
  | awaitTag (tag : Nat)
  /-- It waits for a peer read: bus address, bytes, the access's kind and address (02 R57). -/
  | awaitPeer (bus n kind : Nat) (va : Word)
  /-- It waits for the reply to message `seq` of `mailbox` (16 R383); mailbox 0 is the ostler SVC role. -/
  | awaitReply (mailbox : Word) (seq : BitVec 32)
  /-- Its fault message is still to be posted: the slot is busy, or the mailbox's line is elsewhere (16 R383 step 1). -/
  | posting
  /-- Its posting to a mailbox of another device is under way (16 R383). -/
  | awaitPost (id : Nat)
  /-- The posting failed: it stays blocked until the kill stops it (16 R383). -/
  | blocked
  deriving DecidableEq, Repr

/-- An accumulator name that holds banks (05 R151, 03 R92): the banks in allocation order, KIND, status word (09 R242), the word of
the MMA that owns it. -/
structure AccName where
  banks : List Nat
  fp64 : Bool
  status : BitVec 16
  owner : BitVec 32
  deriving DecidableEq, Repr

/-- A stream register (05 R153, 15 R371-R373): STRMCFG, the pattern as bound, position, buffered groups oldest first, groups moved by
the unit, and whether the current output line awaits its full/empty bit. -/
structure Stream where
  bound : Bool := false
  out : Bool := false
  recOffset : Nat := 0
  base : Nat := 0
  dims : List (Nat × Int) := []
  position : Nat := 0
  buffer : List Vec := []
  moved : Nat := 0
  deriving DecidableEq, Repr

/-- The waybill read buffer (08 R215, R216): ranges of swatches (start, length), the ALL mark, the skip window; and of the block's sample
log (08 R224, R225) the NOLOG mark, the FELT.SAMPLEs issued, those settled in order, the records that stand (number, offset, bytes of the
sample) and the measurements that wait for an earlier one (none: a sample that failed). -/
structure ReadBuffer where
  all : Bool := false
  ranges : List (Nat × Nat) := []
  skipStart : Nat := 0
  skipLen : Nat := 0
  nolog : Bool := false
  issued : Nat := 0
  next : Nat := 0
  log : List (Nat × Nat × Nat) := []
  waiting : List (Nat × Option (Word × List Byte)) := []
  deriving DecidableEq, Repr

/-- One agent that executes words: a strand, or a courier slot (05 R140, R142). -/
structure Strand where
  x : Vector Word 32 := Vector.replicate 32 0
  v : Vector Vec 32 := Vector.replicate 32 0
  m : Vector Word 8 := Vector.replicate 8 0
  pc : Word := 0
  /-- FCSR bits 8:0 (09 R234). -/
  fcsr : BitVec 9 := 0
  /-- XL: COUNT and BITS (11 R268). -/
  xlCount : Nat := 0
  xlBits : BitVec 48 := 0
  /-- The FRM and QSEL places of the modifier latch (11 R278). -/
  frm : Option (BitVec 3) := none
  qsel : Option (BitVec 4) := none
  /-- FARE (04 R125). -/
  fare : Word := 0
  /-- Gear request (04 R108). -/
  gearReq : Bool := false
  /-- PSHAPE0-15 (15 R350), reserved bits kept zero. -/
  pshape : Vector Word 16 := Vector.replicate 16 0
  q : Vector Stream 8 := Vector.replicate 8 {}
  a : Vector (Option AccName) 16 := Vector.replicate 16 none
  buffer : ReadBuffer := {}
  act : Activation := .free
  status : Status := .ready
  /-- The fault message it has posted and awaits the reply of (06 R172). -/
  pending : Option FaultInfo := none
  /-- The fault a memory reply brought, taken when the instruction is retried (06 R183). -/
  replyFault : Option FaultInfo := none
  /-- The old value a remote AMO's reply brought (06 R183), and the bytes peer reads brought, by bus address (02 R57). -/
  replyValue : Option Word := none
  peerBytes : List (Nat × List Byte) := []
  /-- A deferred store fault (06 R174). -/
  deferred : Option FaultInfo := none
  /-- The outstanding-acknowledgement counter (07 R198). -/
  acks : Nat := 0
  /-- The entry with MIG set that an access waits at, by its physical address; since when; the tick of the re-read that it waits for (06
R166). -/
  migReads : Option (Nat × Nat × Option Nat) := none
  /-- It waits in BAR.WAIT.DOZE (04 R111). -/
  dozing : Bool := false
  /-- It is to be removed: it issues no further instruction (03 R91 step 1). -/
  stopping : Bool := false
  /-- The remote form it waits in has been sent and, if `some`, answered: 0 accepted (14 R340, 16 R390). -/
  sent : Bool := false
  /-- CWAIT has asked for its fetch (14 R347). -/
  asked : Bool := false
  /-- What SVC.RECV's claim packet compares the mailbox word against (16 R384); the word that released a strand from the doze wait, until
its tile is back in its gear (04 R111). -/
  sysValue : Option Word := none
  /-- Courier slot only: its words, budget, sender's barrier (05 R141): address, the sender's tile and tile image, or the packet that
brought it. -/
  words : List Word32 := []
  budget : Nat := 0
  barrier : Word := 0
  senderTile : Nat := 0
  senderImage : Nat := 0
  senderTag : Option Packet := none
  deriving DecidableEq, Repr

/-- A courier message in an inbox (05 R141) with where it came from. -/
structure CourierMsg where
  budget : Nat
  nword : Nat
  run : BitVec 32
  barrier : Word
  args : List Word
  words : List Word32
  senderTile : Nat
  senderImage : Nat
  senderTag : Option Packet
  deriving DecidableEq, Repr

/-- A SEND that a core holds until its line is empty (16 R390). -/
structure HeldSend where
  run : BitVec 32
  line : Word
  payload : Vec
  deriving DecidableEq, Repr

/-- An inbox entry (05 R134). -/
inductive InboxEntry where
  | block (run : BitVec 32) (index : Nat) (generation : BitVec 16) (args : List Word)
  | courier (msg : CourierMsg)
  deriving DecidableEq, Repr

/-- A protection-lookaside entry (06 R161, R162): base and length in bytes, rights D A X W RD in bits 4:0, domain. -/
structure PlbEntry where
  base : Nat
  size : Nat
  rights : BitVec 5
  pdom : BitVec 16
  deriving DecidableEq, Repr

/-- What belongs to a core beside its strands (05 R134, R144-R147; 06 R162; 15 R364): slot bindings (run, slot, handler), held triggers (run,
slot, line) and TRIGDROP of each run with an image on the tile. -/
structure CoreUnit where
  inbox : List InboxEntry := []
  held : List HeldSend := []
  handlers : List (BitVec 32 × Nat × Word) := []
  triggers : List (BitVec 32 × Nat × Word) := []
  dropped : List (BitVec 32 × BitVec 32) := []
  plb : List PlbEntry := []
  draySeq : BitVec 16 := 0
  /-- Strands that have yielded, each with the strands that must issue before it (16 R382). -/
  yields : List (Nat × List Nat) := []
  deriving DecidableEq, Repr

/-! ## The tile -/

/-- A command of the matrix engine's queue (15 R349): who issued it, the command word's meaning, operands copied at issue, the
barrier, and for an MSEND the arrival it makes. -/
inductive MatrixOp where
  | pld (panel : Nat) (base : Word) (shape : Word)
  | pst (panel : Nat) (base : Word) (shape : Word)
  | pzero (panel : Nat)
  | accZero (name : Nat)
  | accWr (name : Nat) (group : Nat) (data : Vec)
  | accSt (name : Nat) (base : Word)
  | mma (form : Nat) (name pa pb : Nat) (z : Bool) (word : BitVec 32)
  | mscale (d p panel row : Nat)
  | mout (d pa panel n : Nat)
  deriving DecidableEq, Repr

structure MatrixCmd where
  strand : Nat
  run : BitVec 32
  op : MatrixOp
  barrier : Word
  /-- For a command that came by MSEND: the tile and tile image, or the packet, whose barrier takes the arrival (15 R361). -/
  remote : Option (Nat × Nat × Option Packet) := none
  /-- The block that issued it, whose reads a waybill records (08 R214). -/
  block : Option Nat := none
  /-- Rows and columns flagged before the MMA was stopped (09 R241). -/
  flagA : List Nat := []
  flagB : List Nat := []
  /-- The names it uses, as they were when its strand's activation ended without it (05 R136, R152). -/
  own : List (Nat × AccName) := []
  deriving DecidableEq, Repr

/-- The command that the matrix engine runs: K steps done, rows and columns flagged (09 R241), and whether it has started (15 R357). -/
structure MatrixRun where
  cmd : MatrixCmd
  started : Bool := false
  step : Nat := 0
  flagA : List Nat := []
  flagB : List Nat := []
  /-- Rows or 64-byte groups already moved by a panel or drain command (15 R351, R355). -/
  moved : Nat := 0
  deriving DecidableEq, Repr

/-- A dray template record as copied at issue (15 R363). -/
structure Template where
  kind : Nat
  esz : Nat
  slices : Nat
  src : Word
  dst : Word
  bar : Word
  sstride : Int
  dims : List (Nat × Int × Int)
  deriving DecidableEq, Repr

/-- A dray copy in flight (05 R154, 15 R364-R367). -/
structure Copy where
  tag : BitVec 32
  core : Nat
  strand : Option Nat
  run : BitVec 32
  ctx : BitVec 32
  tpl : Template
  srcBase : Word
  dstBase : Word
  slack : Nat
  /-- Elements already copied, or STORAGE blocks issued; destination bytes landed. -/
  element : Nat := 0
  done : Nat := 0
  started : Bool := false
  paused : Bool := false
  cancelled : Bool := false
  issued : Nat := 0
  /-- Its segment is in flight; the tick since which it waits for its next one (15 R365). -/
  active : Bool := false
  waitSince : Nat := 0
  /-- STORAGE segments outstanding: command identifier and bytes (15 R369); whether the bytes of the segments that will not be issued have
  been subtracted from BYTES (15 R365, R367). -/
  outstanding : List (Nat × Nat) := []
  settled : Bool := false
  /-- The carriage that a STORAGE copy of the COACH role fetches: coach and index (03 R95). -/
  carriage : Option (Nat × Nat) := none
  deriving DecidableEq, Repr

/-- A stash map entry (14 R342): context, number, global base, bytes, first line of the pool. -/
structure StashEntry where
  ctx : BitVec 32
  number : Nat
  base : Nat
  length : Nat
  firstLine : Nat
  deriving DecidableEq, Repr

/-- States of a tile's supply (04 R106). -/
inductive Gear where
  | park
  | walk
  | gallop
  deriving DecidableEq, Repr

/-- A context's template table and aperture line on a tile (15 R362, R368). -/
structure DrayTable where
  base : Word := 0
  count : Nat := 0
  aperture : Word := 0
  deriving DecidableEq, Repr

structure Tile where
  /-- Pool: 786,432 bytes (05 R148). -/
  pool : Memory := []
  /-- 64-bit words of the pool in which an uncorrectable error stands (06 R178). -/
  poolBad : List Nat := []
  /-- Full 128-byte lines (07 R200). -/
  full : List Nat := []
  pbLo : Nat := 0
  pbMid : Nat := 0
  pbHi : Nat := 0
  panBase : Nat := 0
  panCnt : Nat := 0
  /-- Accumulator memory: 262,144 bytes, and the banks taken (05 R151). -/
  acc : Memory := []
  banks : List Nat := []
  /-- 64-bit words of the accumulator memory in which an uncorrectable error stands (06 R178). -/
  accBad : List Nat := []
  /-- Runs whose tile image is here, with their context, first in first (05 R138, R147). -/
  images : List (BitVec 32 × BitVec 32) := []
  /-- The number of each of these images, by its run: a name that an image keeps wherever it is (03 R91, R93). -/
  ids : SMap Nat := []
  /-- Capabilities granted to contexts here (05 R155). -/
  mcap : List (BitVec 32 × Word) := []
  queue : List MatrixCmd := []
  /-- MSEND messages held in the mesh while the queue is full: sending tile and tile image, packet, descriptor (05 R156). -/
  heldMsends : List (Nat × Nat × Option Packet × List Byte) := []
  running : Option MatrixRun := none
  dray : Vector (List Copy) 4 := Vector.replicate 4 []
  /-- Template table and aperture line of each context, by its number (15 R362, R368). -/
  tables : SMap DrayTable := []
  stash : List StashEntry := []
  /-- Stash lines (pool line numbers) that have been filled (06 R179). -/
  stashFilled : List Nat := []
  /-- Gear, the gear being changed to, one asked for meanwhile, doze (04 R106-R111). -/
  gear : Gear := .gallop
  changing : Option Gear := none
  doze : Bool := false
  /-- A wake asked for while parked, the gear that its work requests, and when it was first asked for (04 R113). -/
  wakeAsked : Bool := false
  wakeGear : Option Gear := none
  wakeTick : Nat := 0
  /-- The stream that the stream unit served last: 8 x strand + stream (05 R153). -/
  lastStream : Nat := 127
  /-- The tick at which it parked (04 R113). -/
  parkTick : Nat := 0
  /-- Replays in this 1 ms window (04 R122). -/
  winWalk : Nat := 0
  winGallop : Nat := 0
  deriving DecidableEq, Repr

/-! ## Cluster, die -/

/-- A bind record (03 R84). -/
structure BindRecord where
  ctx : BitVec 32 := 0
  run : BitVec 32 := 0
  pdom : BitVec 16 := 0
  gearReq : BitVec 8 := 0
  prio : BitVec 8 := 0
  fareAcct : BitVec 32 := 0
  path : List (BitVec 16) := []
  blkFirst : BitVec 32 := 0
  blkLast : BitVec 32 := 0
  pbLo : BitVec 16 := 0
  pbMid : BitVec 16 := 0
  pbHi : BitVec 16 := 0
  panBase : BitVec 8 := 0
  panCnt : BitVec 8 := 0
  tileMask : BitVec 8 := 0
  feltGrant : BitVec 8 := 0
  state : BitVec 8 := 0
  reserved : BitVec 8 := 0
  service : BitVec 48 := 0
  saveArea : BitVec 48 := 0
  deriving DecidableEq, Repr

/-- A 64-byte granule held by a cluster's caches (06 R177): virtual granule, home device, physical granule address, KEYID. -/
structure L2Line where
  cluster : Nat
  vline : Nat
  dev : Nat
  pa : Nat
  key : BitVec 8
  owned : Bool
  dirty : Bool
  poison : Bool
  /-- An uncorrectable error stands in the line (06 R178). -/
  bad : Bool := false
  /-- Its way of the L2; none for a line that stands in a stash (00 R2, 06 R178, R179). -/
  way : Option Nat := none
  /-- The runs whose writes it took, 0 for any other writer (08 R218). -/
  tags : List (BitVec 32) := []
  data : Vec
  deriving DecidableEq, Repr

/-- A cluster TLB entry (06 R164, R190): page base and size, the leaf entry; the class-O port that served a remote page's device at the
fill, and that port's GEN then. -/
structure TlbEntry where
  page : Nat
  size : Nat
  pte : Word
  gen : BitVec 16
  port : Option Nat := none
  deriving DecidableEq, Repr

structure Cluster where
  tmask : BitVec 8 := 0xff
  mfwLock : Bool := false
  ostMask : BitVec 8 := 0
  slots : SMap BindRecord := []
  tlb : List TlbEntry := []
  /-- Column-group units each tile holds, requests in issue order (tile, step issued, units wanted), finished tiles in order
  (04 R117, R118). -/
  units : SMap Nat := []
  /-- The context that pays for the wadding of a tile's units (04 R117, R118). -/
  payers : SMap (BitVec 32) := []
  requests : List (Nat × Nat × Nat) := []
  finished : List Nat := []
  dragStep : Nat := 0
  dragTbl : Word := 0x4444444444444444
  maskN : Nat := 0
  /-- The tick of the cluster's last tile wake (04 R113). -/
  lastWake : Option Nat := none
  /-- A junction has reached 95 °C since the last adjustment of the mask (01 R14, 04 R121). -/
  hot : Bool := false
  /-- L2 rail at 0.66 V; check bits in DEC-TED with 14 ways (04 R107, 06 R178). -/
  railLow : Bool := false
  decTed : Bool := false
  flagOr : BitVec 11 := 0
  /-- The tick of the last raise of a flag, and the bits raised at it (09 R238). -/
  raised : Nat × BitVec 11 := (0, 0)
  deriving DecidableEq, Repr

structure Die where
  /-- Physical tile of a position, where it is not its own (01 R413); fenced positions; spares used. -/
  moved : SMap Nat := []
  fenced : List Nat := []
  sparesUsed : Nat := 0
  /-- Column positions with their roles, alternates, alternates in use (03 R79, R80). -/
  column : List (Nat × BitVec 8) := []
  alternates : List Nat := []
  /-- Replay counters of physical tiles: WREPL, GREPL (04 R123). -/
  replays : SMap (BitVec 32 × BitVec 32) := []
  deriving DecidableEq, Repr

/-! ## Depots and the domain -/

/-- Condition of a 64-byte sector in HBM beside its data (06 R178, R180): KEYID of its tag, ECC, marks. -/
structure Sector where
  key : BitVec 8 := 0
  uncorrectable : Bool := false
  corrected : Bool := false
  poisoned : Bool := false
  derelict : Bool := false
  deriving DecidableEq, Repr

/-- Directory state of a granule (06 R185). -/
inductive DirState where
  | uncached
  | shared
  | owned
  | derelict
  deriving DecidableEq, Repr

structure DirEntry where
  st : DirState := .uncached
  clusters : List Nat := []
  remotes : List Nat := []
  wide : Bool := false
  ownerDev : Option Nat := none
  /-- A snoop is outstanding; packets that wait for it; INV acknowledgements awaited. -/
  snooping : Bool := false
  waiting : List Packet := []
  invs : Nat := 0
  /-- The tick at which the snoop was sent (06 R186). -/
  snoopTick : Nat := 0
  deriving DecidableEq, Repr

/-- A request that left on Treuc and awaits its reply (06 R183, R191): who waits and what for. -/
inductive ReqKind where
  /-- `kind` is the access's kind in a fault message (06 R172). -/
  | load (cluster vline key kind : Nat)
  | store (kind : Nat)
  | amo
  /-- A load of a register of another device's depot control window, with the access's kind (06 R188, R414). -/
  | register (kind : Nat)
  | writeback
  | snoop (granule : Nat)
  | invalidate (granule : Nat)
  | generation (ctx : BitVec 32)
  | trinv
  | message
  | send
  | courier (tile image : Nat) (barrier : Word)
  | msend (tile image : Nat) (barrier : Word)
  | notice
  | killReq
  | replyMsg (mailbox : Word) (slot : Nat)
  /-- The read of the granule of a carriage's byte `got` for a coach (03 R95). -/
  | carriage (coach index got : Nat)
  /-- A step of a posting to a mailbox of another device (16 R383). -/
  | post (id : Nat)
  /-- An engine's write: the unit that waits for it and its piece number (15 R365). -/
  | engine (unit piece : Nat)
  /-- An engine's read, which fills the cluster's L2. -/
  | engineLoad (unit cluster vline key : Nat)
  | charge
  deriving DecidableEq, Repr

structure Request where
  dev : Nat
  agent : Option Agent
  kind : ReqKind
  addr : Word
  ctx : BitVec 32
  classO : Bool
  /-- The port it left by, once it has left, and the tick at which it was made (01 R30, R35; 06 R191). -/
  port : Option Nat := none
  since : Nat := 0
  /-- The physical granule that its request word names, on its device, and how many granules a write covers from there on (06 R184). -/
  pa : Nat := 0
  granules : Nat := 1
  /-- An invalidation of its granule has come in meanwhile: its data fill no cache (06 R170, R181; 07 R195). -/
  stale : Bool := false
  deriving DecidableEq, Repr

/-! ## Contexts, runs, coaches -/

/-- How far a posting to a mailbox of another device has come (16 R383): it waits for an earlier one to that mailbox; the mailbox's first
granule is asked for; the slot is being written; the granule goes back as it was, for the posting to be tried again; it goes back with BUSY
set and POSTED incremented; it goes back because the posting has failed. -/
inductive PostStage where
  | queued
  | asked
  | slot
  | again
  | update
  | failed
  deriving DecidableEq, Repr

/-- A posting under way: who waits for it, if anyone; the fault and its source, for the records of a failure; where the mailbox lies; the
message but for its number, and the granule. -/
structure OutPost where
  id : Nat
  agent : Option Agent
  ctx : BitVec 32
  source : Nat
  fault : FaultInfo
  mailbox : Word
  dev : Nat
  pa : Nat
  key : BitVec 8
  message : List Byte
  stage : PostStage
  head : List Byte := []
  /-- A snoop for the granule that came in meanwhile: it is answered when the granule goes back. -/
  snoop : Option Packet := none
  deriving DecidableEq, Repr

structure Context where
  bound : Bool := false
  pdom : BitVec 16 := 0
  glBase : Nat := 0
  glCount : Nat := 0
  service : Word := 0
  saveArea : Word := 0
  gearReq : Bool := false
  fareAcct : BitVec 32 := 0
  feltGrant : BitVec 8 := 0
  prio : BitVec 3 := 0
  part : Nat := 0
  fareTag : BitVec 16 := 0
  generation : BitVec 16 := 0
  touched : List Nat := []
  held : Bool := false
  coach : Bool := false
  /-- Since when its save area waits for an entry with MIG set (03 R92, 06 R166). -/
  saveSince : Option Nat := none
  /-- A kill that waits for changes of gear to end (04 R110). -/
  killAsked : Bool := false
  killing : Bool := false
  killAcks : List Nat := []
  /-- What the kill fence clears: accumulator banks and tiles' panels (03 R102): tile and bank. -/
  doomedBanks : List (Nat × Nat) := []
  doomedTiles : List Nat := []
  deriving DecidableEq, Repr

/-- Where a block of a run stands (03 R87, R91; 05 R134). -/
inductive BlockState where
  | waiting
  | inbox
  | resident (strand : Nat)
  | preempted (slot : Nat)
  | exited
  | killed
  | discarded
  deriving DecidableEq, Repr

/-- A boot entry of a launch record (05 R137). -/
structure BootEntry where
  size : Nat
  share : Nat
  trig : Nat
  deriving DecidableEq, Repr

/-- A level descriptor (05 R129). -/
structure Level where
  count : Nat
  domain : BitVec 3
  scope : BitVec 3
  deriving DecidableEq, Repr

/-- Who takes a run's completion: the packet of a queue, or a barrier in the tile image of who launched it, with the tile it was on then
(02 R74, 16 R394). -/
inductive Origin where
  | queue (slot seq : Nat)
  | barrier (tile image : Nat) (addr : Word)
  | none
  deriving DecidableEq, Repr

/-- A launch record as read at launch (05 R128, 08 R209). -/
structure LaunchRecord where
  levels : List Level := []
  record : Bool := false
  replay : Bool := false
  boots : List BootEntry := []
  entry : Word := 0
  stack : Nat := 0
  args : List Word := []
  wbBase : Nat := 0
  wbSize : Nat := 0
  rlimit : Nat := 0
  slper : Nat := 0
  watch : List (Nat × Nat) := []
  deriving DecidableEq, Repr

/-- A block or handler removed under R91: its strand's state and number, the tile and the stop reason of its record (03 R92), and the
contents of its accumulator banks, in the order of the names, which lie in the save area from a page on. -/
structure SavedBlock where
  block : Nat
  strand : Strand
  number : Nat
  stop : BitVec 8
  banks : List (Nat × Memory)
  bankPage : Nat := 0
  /-- The MMA stopped between two of its K steps (15 R349). -/
  mma : Option MatrixCmd := none
  /-- The number of the tile image that its strand belongs to (03 R93). -/
  image : Nat := 0
  deriving DecidableEq, Repr

/-- A tile image saved under R91: the tile, the images of the context's runs on it, pool banks below PB_MID with their uncorrectable errors,
full lines, boundaries,
stash mappings, the cores' handlers, held triggers, held messages and running handlers, the copies, template table and aperture. -/
structure SavedImage where
  tile : Nat
  /-- The page of the save area from which the pool banks lie. -/
  page : Nat := 0
  runs : List (BitVec 32 × BitVec 32)
  ids : SMap Nat := []
  pbLo : Nat
  pbMid : Nat
  pbHi : Nat
  panBase : Nat
  panCnt : Nat
  held : List (Nat × List HeldSend)
  dropped : List (Nat × List (BitVec 32 × BitVec 32))
  active : List SavedBlock
  pool : Memory
  poolBad : List Nat := []
  full : List Nat
  stash : List StashEntry
  handlers : List (Nat × List (BitVec 32 × Nat × Word))
  triggers : List (Nat × List (BitVec 32 × Nat × Word))
  copies : List (List Copy)
  /-- The context's template table and aperture line. -/
  table : DrayTable
  deriving DecidableEq, Repr

/-- A write of a run's waybill region (08 R211): its offset, its bytes, whether they are ORed into what is there, and since when an entry
with MIG set holds it up (06 R166). -/
structure RegionWrite where
  off : Nat
  bytes : List Byte
  into : Bool := false
  since : Option Nat := none
  deriving DecidableEq, Repr

structure Run where
  ctx : BitVec 32 := 0
  lr : LaunchRecord := {}
  first : Nat := 0
  last : Nat := 0
  blocks : SMap BlockState := []
  floor : Nat := 0xffffffff
  exited : Nat := 0
  killed : Nat := 0
  /-- Blocks of the launch, or of the relaunch's round, that have not finished. -/
  remaining : Nat := 0
  /-- A destroy of its queue has discarded the blocks that had not been dispatched (02 R75). -/
  closed : Bool := false
  faultCode : BitVec 8 := 0
  origin : Origin := .none
  /-- Completed (02 R74). -/
  complete : Bool := false
  /-- The waybill status word as last changed (08 R212), and the physical page of each watched 64 KiB page as arming found it, `none`
  for one whose swatches are treated as set (08 R218). -/
  wbWord : Word := 0
  armed : List (Nat × Option Nat) := []
  /-- Writes of the waybill region were lost (08 R416). -/
  wbLost : Bool := false
  /-- Writes of the region that the hardware has still to make, in order; since when a read of it waits (08 R416, 06 R166). -/
  parked : List RegionWrite := []
  regionSince : Option Nat := none
  /-- Since when the run's arming waits for an entry with MIG set (08 R218). -/
  arming : Option Nat := none
  /-- A relaunch that has ended: its origin, status, code and rounds, until its completion is released (08 R220, R221). -/
  finishing : Option (Origin × Nat × Nat × Nat) := none
  /-- Blocks that have ended with reads or samples of engine commands outstanding: their buffers, and whether their entries are valid
  (08 R217). -/
  ending : SMap (ReadBuffer × Bool) := []
  /-- A relaunch in progress: its set, round, limit, origin of its completion (08 R220). -/
  relaunch : Option (List Nat × Nat × Nat × Origin) := none
  /-- Saved blocks in removal order: block, saved strand, core and strand number, tile, STOP (03 R92). -/
  saved : List SavedBlock := []
  images : List SavedImage := []
  deriving DecidableEq, Repr

structure Carriage where
  src : BitVec 8
  eclass : BitVec 8
  srcHi : BitVec 32
  srcAddr : Word
  devAddr : Nat
  length : Nat
  flag : Nat
  /-- Bytes that its fetch has asked its source for; pieces landed, as offsets; order of the last CWAIT. -/
  asked : Nat := 0
  /-- Bytes that have come from an SK7, and those of the piece under way. -/
  got : Nat := 0
  part : List Byte := []
  landed : List Nat := []
  lastWait : Nat := 0
  deriving DecidableEq, Repr

structure Coach where
  ctx : BitVec 32
  priority : Nat
  autoFetch : Bool
  carriages : List Carriage
  deriving DecidableEq, Repr

/-! ## Links -/

/-- A DATA flit that its sender keeps until it is acknowledged (01 R22-R24): Seq, class, HdrOff, payload, the tick of its first
transmission (none while a retrain holds it), its replays, and whether a lane retrain has begun in that time. -/
structure KeptFlit where
  seq : Nat
  cls : Nat
  hdrOff : Nat
  payload : List Byte
  since : Option Nat
  replays : Nat := 0
  retrained : Bool := false
  deriving DecidableEq, Repr

/-- A notice that is still to be written (01 R35-R37): t0, port, CAUSE, new GEN, live ports, 1588 seconds and nanoseconds at t0, its
sequence number once it has one, and the addresses it has not been written to. -/
structure Notice where
  t0 : Nat
  port : Nat
  cause : BitVec 8
  gen : BitVec 16
  live : Nat
  sec : Nat
  ns : Nat
  todo : Option (BitVec 32 × List Word) := none
  deriving DecidableEq, Repr

/-- A class-O packet of another device that has passed through and is not yet acknowledged (01 R30): source, destination, tag, the port
it left by, the tick. -/
structure Transit where
  src : Nat
  dest : Nat
  tag : BitVec 32
  port : Nat
  since : Nat
  deriving DecidableEq, Repr

structure Port where
  /-- 0 DOWN, 1 TRAINING, 2 UP, 3 FAILED (01 R33). -/
  state : Nat := 0
  cause : BitVec 8 := 0
  gen : BitVec 16 := 0
  spare : Bool := false
  keyRej : Nat := 0
  replays : Nat := 0
  disable : Bool := false
  /-- Sender: Seq of the last DATA flit, highest acknowledged, flits kept (01 R22, R23). -/
  txSeq : Nat := 4095
  acked : Nat := 4095
  kept : List KeptFlit := []
  /-- Flits not yet sent because 2,048 are kept: class, HdrOff, payload (log 41). -/
  queued : List (Nat × Nat × List Byte) := []
  /-- The tick from which the 1 µs without an acknowledgement runs (01 R22). -/
  ackTick : Nat := 0
  /-- Receiver: highest Seq in order, a NAK is outstanding, last AckSeq sent, a DATA flit has come in since the last AckSeq sent, bytes
  of a packet begun (01 R23). -/
  rxSeq : Nat := 4095
  nakOut : Bool := false
  ackSent : Nat := 4095
  ackDue : Bool := false
  rxBuf : List Byte := []
  /-- Training: step 1-4, lanes offered by each end, partner's DEVNUM and EPOCH; a retrain keeps the port UP (01 R39). -/
  step : Nat := 0
  retrain : Bool := false
  myLanes : BitVec 16 := 0
  lanes : BitVec 16 := 0
  partnerDev : BitVec 16 := 0
  partnerEpoch : BitVec 16 := 0
  t0 : Nat := 0
  deriving DecidableEq, Repr

/-! ## Host interface -/

/-- A packet that has become current and is not complete (02 R68, R73, R74): sequence number, its 64 bytes, whether its dispatch has
ended, its run, what its completion record will say, and whether it was current when a destroy of its queue began (R75). -/
structure PacketRun where
  seq : Nat
  bytes : List Byte
  dispatched : Bool := false
  run : Option (BitVec 32) := none
  workDone : Bool := false
  status : Nat := 0
  code : BitVec 8 := 0
  exited : Nat := 0
  killed : Nat := 0
  discarded : Bool := false
  destroyed : Bool := false
  /-- Its partition has been reset: its record says RESET (02 R78). -/
  reset : Bool := false
  result : Word := 0
  deriving DecidableEq, Repr

/-- What the fetcher of a queue does (02 R68): nothing, it awaits its first read of the slot, it waits the 250 ns before a re-read, it
awaits a re-read. -/
inductive FetchStep where
  | idle
  | first
  | pause
  | reread
  deriving DecidableEq, Repr

/-- Run time of a live queue, keyed by its slot in the queue table (02 R68, R73-R75, R77): the fetcher's step, the tick of its first read
of the present slot and the re-reads that have failed; packets not complete (oldest first); a destroy in progress with KILL or not, and
the slot and sequence number of the DESTROY packet that asked; the time-slice timer: the packet it was loaded for, the ticks left, and
the tick since which it counts (none while the queue is in ERROR); a HEAD that the table has still to take, and since when it waits; the
packet whose completion is being written; the context whose kill a DESTROY.KILL awaits. -/
structure QueueRun where
  fetch : FetchStep := .idle
  fetchTick : Nat := 0
  rereads : Nat := 0
  slice : Option (Nat × Nat × Option Nat) := none
  packets : List PacketRun := []
  draining : Option Bool := none
  destroyer : Option (Nat × Nat) := none
  headDue : Option (Nat × Nat) := none
  writing : Option Nat := none
  killWait : Option (BitVec 32) := none
  deriving DecidableEq, Repr

/-- What left the host port, in order (02 R56, R57, R74). -/
inductive BusOp where
  | write (bus : Word) (bytes : List Byte)
  | read (bus : Word) (n : Nat) (agent : Agent)
  | complete (offset : Nat) (bytes : Option (List Byte))
  deriving DecidableEq, Repr

/-- A packet that left the package by a port, or that is held for its destination (01 R30); a flit a port sends on its own. -/
inductive LinkOp where
  | packet (port : Nat) (p : Packet)
  | flit (port : Nat) (bytes : List Byte)
  deriving DecidableEq, Repr

/-! ## The Felt -/

/-- A configuration image in a slot: its bytes as loaded, current sigma and IC codes, fingerprint, admissible, ganged (10 R247-R252). -/
structure FeltSlot where
  image : List Byte
  sigma : List Int
  ic : List Int
  fingerprint : Word
  admissible : Bool
  gang : Bool
  deriving DecidableEq, Repr

inductive FeltOp where
  | cfg (slot : Nat) (addr : Word)
  | scale (slot : Nat) (addr : Word)
  | ic (slot : Nat) (addr : Word)
  | run (slot : Nat)
  | sample (grid : Bool) (dst : Word)
  | halt
  | settle (ticks : Nat)
  | stat
  deriving DecidableEq, Repr

structure FeltCmd where
  op : FeltOp
  /-- The strand that issued it, and the tile image that it belongs to. -/
  strand : Nat
  image : Nat := 0
  run : BitVec 32
  ctx : BitVec 32
  pc : Word
  barrier : Word
  /-- The block that issued it, and the number of its FELT.SAMPLE (08 R224). -/
  block : Nat := 0
  index : Nat := 0
  deriving DecidableEq, Repr

/-- The commands that a strand waits in for their answer (10 R254, R256). -/
def feltAsks (op : FeltOp) : Bool :=
  match op with
  | .settle _ => true
  | .stat => true
  | _ => false

/-- A sample record as its conversion measured it, the fingerprint of the slot then, and whether a logged record replaces it, once that is
decided (08 R225; 10 R262). -/
structure SampleRecord where
  bytes : List Byte := []
  fp : Word := 0
  logged : Option Bool := none
  deriving DecidableEq, Repr

structure FeltArray where
  /-- 0 IDLE, 1 LOAD, 2 RUN, 3 HOLD (10 R254). -/
  state : Nat := 0
  result : Nat := 0
  haltp : Bool := false
  aslot : Nat := 0
  runUs : BitVec 16 := 0
  slots : Vector (Option FeltSlot) 8 := Vector.replicate 8 none
  queue : List FeltCmd := []
  /-- The FELT.RUN of the run phase, and of the last one begun; a SAMPLE whose conversion is in progress (10 R257, R262). -/
  runCmd : Option FeltCmd := none
  lastRun : Option FeltCmd := none
  /-- Scale exponents and initial values that the run phase and its HOLD use (10 R252). -/
  used : List Int × List Int := ([], [])
  /-- Strands that wait in FELT.SETTLE, with the tick at which their time-out passes, 0 for none (10 R256). -/
  settlers : List (Nat × Nat) := []
  converting : Option FeltCmd := none
  record : SampleRecord := {}
  /-- What follows the run phase instead of HOLD: a FELT.CFG into the slot or a FELT.RUN (10 R255), a fare hold or kill (R265). -/
  skipHold : Bool := false
  ctx : Option (BitVec 32) := none
  calibrating : Bool := false
  startTick : Nat := 0
  /-- The end of its last calibration (10 R264); SAT messages still to be posted: the FELT.RUN, whether a summer saturated, which element,
  and when (10 R257). -/
  lastCal : Nat := 0
  sats : List (FeltCmd × Bool × Nat × Nat) := []
  withdrawn : Bool := false
  sparesUsed : Nat := 0
  /-- Image bytes loaded since the last fare step (10 R265). -/
  loaded : Nat := 0
  deriving DecidableEq, Repr

/-! ## Error records (01 R44, R48) -/

/-- Classes of error records (01 R44). -/
inductive RecordClass where
  | hw | fault | link | spare | security | thermal | queue
  deriving DecidableEq, Repr

/-- What an error record reports. -/
structure Report where
  cls : RecordClass
  code : Nat := 0
  flags : Nat := 0
  sub : Nat := 0
  source : Nat
  ctx : Nat := 0
  addr : Nat := 0
  detail : List Byte := []
  deriving DecidableEq, Repr

/-- An event whose record is still to be written: its counter stamp, that stamp's 1588 time, what it reports (01 R44, R46). -/
structure Fresh where
  stamp : Nat
  sec : Nat
  ns : Nat
  report : Report
  deriving DecidableEq, Repr

/-! ## The package -/

/-- The management block and boot (01 R50-R53, 03 R103-R105). -/
structure Management where
  recovery : Bool := false
  bootSlot : Bool := false
  strapHigh : Bool := false
  svn : BitVec 8 := 0
  fused : BitVec 8 := Config.fusedSvn
  result : BitVec 4 := 0
  busy : Bool := false
  offset : Word := 0
  length : Word := 0
  staging : Memory := []
  target : Option (BitVec 4) := none
  image : List Byte := []
  slotA : List Byte := Config.factoryImage 0
  slotB : List Byte := Config.factoryImage 1
  table : List Byte := Config.factoryTable
  patches : List (BitVec 512) := []
  version : BitVec 32 := 0
  patchResult : BitVec 4 := 0
  patchBusy : Bool := false
  patch : List Byte := []
  functions : SMap Word := []
  patchArea : List Byte := []
  /-- When the wait for the listed functions began (03 R105). -/
  patchTick : Nat := 0
  /-- The firmware image and the configuration table that booted, or that failed to (01 R53). -/
  running : List Byte := []
  runningTable : List Byte := []
  /-- Attestation reports returned over MCTP (01 R51). -/
  reports : List (List Byte) := []
  todSeconds : Nat := 0
  sampleTick : Nat := 0
  sampleSeconds : Nat := 0
  /-- The latest 1588 time that the pair before gave (01 R43). -/
  sampleFloor : Nat × Nat := (0, 0)
  log : List (List Byte) := []
  sequence : BitVec 32 := 0
  /-- The events whose records are still to be written, by stamp and source number (01 R46). -/
  fresh : List Fresh := []
  /-- Wear triggers whose swap has not been made (01 R16). -/
  pendingSpares : List Wear := []
  /-- Those of them whose record PENDING has been written. -/
  pendingLogged : List Wear := []
  usedRows : SMap Nat := []
  usedChannels : SMap Nat := []
  deriving DecidableEq, Repr

/-- Registers of the host control window with behaviour of their own (02 R58, 04 R114, 01 R31). The manual gives QHBASE, QSTAGE, ERRBASE,
ERRTAIL and CTXBASE no reset value; 0 is a DESIGN CHOICE (log 14). -/
structure HostRegs where
  partMode : BitVec 2 := 0
  cfgErr : Bool := false
  resetting : BitVec 8 := 0
  qhBase : Word := 0
  qhEn : Bool := false
  qhLog : BitVec 5 := 6
  qStage : Vector Word 8 := Vector.replicate 8 0
  qctlQnum : BitVec 12 := 0
  qctlPasid : BitVec 20 := 0
  qctlResult : BitVec 4 := 0
  qctlBusy : Bool := false
  /-- Doorbells and queue commands whose lookup must wait, each with the tick since which it waits (02 R63, 06 R166). -/
  tableWaits : List (Instr × Nat) := []
  errBase : Word := 0
  errSize : Word := 16
  errHead : BitVec 32 := 0
  errTail : BitVec 32 := 0
  lost : Bool := false
  ctxBase : Word := 0
  ctxEn : Bool := false
  ctxLog : BitVec 5 := 4
  apertures : SMap (Word × Word) := []
  peers : SMap (Word × Word) := []
  storage : SMap (Vector Word 8) := []
  /-- Submission tail, completion head, expected phase of each storage block (02 R72, 15 R369). -/
  storageRun : SMap (Nat × Nat × Bool) := []
  lattol : Vector (BitVec 32) 8 := Vector.replicate 8 0
  pwrLimit : BitVec 16 := 3600
  fselAcct : BitVec 32 := 0
  deriving DecidableEq, Repr

/-- Link configuration block (01 R31, R32). -/
structure LinkRegs where
  active : Bool := false
  pending : Bool := false
  awErr : Bool := false
  swErr : Bool := false
  swTime : Word := 0
  devnum : BitVec 13 := 0
  noticeA : Word := 0
  noticeB : Word := 0
  bank0 : SMap Word := []
  bank1 : SMap Word := []
  keys0 : SMap Word := []
  keys1 : SMap Word := []
  /-- Class-O port in use per destination, where it has changed; holds open; class-O packets outstanding per destination (01 R30). -/
  holds : List Nat := []
  /-- Packets held at egress, each with the routing entry that its one lookup gave it (01 R27, R30). -/
  heldPackets : List (Nat × Packet) := []
  /-- Other devices' class-O packets that passed through and are not yet acknowledged (01 R30). -/
  transit : List Transit := []
  noticeSeq : BitVec 32 := 1
  notices : List Notice := []
  deriving DecidableEq, Repr

/-- Work under way that has passed its checks: a dray copy of a tile, a command of a tile's matrix engine, of a Felt array, a peer load of an
agent. -/
inductive EngineWork where
  | copy (tile : Nat) (tag : BitVec 32)
  | matrix (tile : Nat) (cmd : MatrixCmd)
  | felt (array : Nat) (cmd : FeltCmd)
  | peer (agent : Agent) (bus : Nat) (va : Word)
  deriving DecidableEq, Repr

/-- Translation control block and the ostler window's DSPSTAT (06 R167, 03 R90). -/
structure OstlerRegs where
  trBase : Word := 0
  dtVa : Word := 0
  dtPa : Word := 0
  trVa : Word := 0
  trLen : BitVec 32 := 0
  trScope : BitVec 3 := 0
  trPdom : BitVec 16 := 0
  trErr : Bool := false
  /-- CMD as last stored; devices whose acknowledgement a TRINV awaits; the accesses under way when it began that it waits for: requests
  by tag (06 R167, R170). -/
  trCmd : BitVec 4 := 0
  trAcks : List Nat := []
  trWait : List Nat := []
  /-- The same of dray copies and engine commands: those under way whose checked accesses it waits for (06 R170). -/
  trUnits : List EngineWork := []
  /-- TRINV packets of other devices that are not complete here, with what each waits for (06 R170). -/
  trinvHeld : List (Packet × List Nat × List EngineWork) := []
  epoch : BitVec 16 := 1
  gone : List Nat := []
  believed : SMap (BitVec 16) := []
  dspRun : BitVec 32 := 0
  dspErr : Bool := false
  /-- A CUT in progress: its run and cut index (03 R90, R91). -/
  dspCut : Option (BitVec 32 × Nat) := none
  /-- The context of the last KILL of DSPCMD (03 R90). -/
  dspKill : Option (BitVec 32) := none
  /-- Port and GEN recorded with a deep TLB entry for a remote page, by the entry's physical address (06 R190). -/
  deepGens : SMap (Nat × BitVec 16) := []
  deriving DecidableEq, Repr

/-- Depot control window (06 R188). -/
structure DepotRegs where
  dtmo : BitVec 16 := 20
  drlCnt : BitVec 32 := 0
  daddr : Word := 0
  derr : Bool := false
  dstat : Word := 0
  ddata : Vector Word 8 := Vector.replicate 8 0
  deriving DecidableEq, Repr

/-- The state of one package. -/
structure State where
  /-- Steps that a register write or an instruction causes at once, in order: they come before anything else (assumption log 1). -/
  urgent : List Instr := []
  /-- Steps of engines and hardware, and inputs from outside, that are still to come, in no fixed relation to the strands' instructions
  (assumption log 1). -/
  agenda : List Instr := []
  /-- The agent that issues next (assumption log 2). -/
  cur : Agent := .strand 0
  /-- Who issued last on each core: a strand's number on it, 4 for the courier slot (05 R140, R142). -/
  turns : SMap Nat := []
  /-- The time-stamp counter as a number (01 R42). -/
  now : Nat := 0
  /-- Free values taken so far (assumption log 3). -/
  free : Nat := 0
  strands : SMap Strand := []
  couriers : SMap Strand := []
  cores : SMap CoreUnit := []
  tiles : SMap Tile := []
  clusters : SMap Cluster := []
  dies : SMap Die := []
  hbm : Memory := []
  sectors : SMap Sector := []
  dir : SMap DirEntry := []
  l2 : List L2Line := []
  contexts : SMap Context := []
  runs : SMap Run := []
  coaches : List Coach := []
  /-- Generations that depots recorded for other devices' contexts: device, context, generation (03 R101). -/
  generations : List (Nat × BitVec 32 × BitVec 16) := []
  queues : SMap QueueRun := []
  ports : Vector Port 36 := Vector.replicate 36 {}
  requests : SMap Request := []
  nextTag : Nat := 1
  /-- The number of the next tile image that is made. -/
  nextImage : Nat := 1
  host : HostRegs := {}
  link : LinkRegs := {}
  ostler : OstlerRegs := {}
  depot : DepotRegs := {}
  mgmt : Management := {}
  felt : Vector FeltArray 8 := Vector.replicate 8 {}
  /-- Fare balances in nJ, fare tags to accounts, charges owed to (source, tag) (04 R125, R126). -/
  balances : SMap Int := []
  fareTags : SMap Nat := []
  charges : List (Nat × Nat × Nat) := []
  /-- Units that wait at an entry with MIG set: its address, since when, the tick of the next re-read (06 R166). -/
  migWaits : SMap (Nat × Nat × Nat) := []
  /-- Messages to the ostler SVC role, and postings to mailboxes of other devices (16 R383). -/
  svcInbox : List (List Byte) := []
  svcPosted : BitVec 32 := 0
  outPosts : List OutPost := []
  /-- Pieces of engine writes that have been made or answered: unit, piece, code, sub-code (15 R365). -/
  engineDone : List (Nat × Nat × Nat × Nat) := []
  /-- Reads of peer windows by engines, in order: agent, bus address, bytes; and what came back, by bus address (02 R57). -/
  peerReads : List (Agent × Nat × Nat) := []
  peerData : SMap (Option (List Byte)) := []
  busOut : List BusOp := []
  linkOut : List LinkOp := []
  deriving DecidableEq, Repr

/-- The machine right after reset (00 to 16, each field's own rule; assumption log 14 for what no rule gives). -/
def State.reset : State := {}

end Sys2Proof.Machine
end

