-- ==== Sys2Proof/Machine/Bits.lean ====
section
/-!
DEFINITION. Bit fields, sign extension, byte order, and memory as a list of cells (00 R4, R5, R11).
-/
namespace Sys2Proof.Machine

/-- Bits `hi` down to `lo` of `v`, as an unsigned integer (00 R11). -/
def bits (v : Nat) (hi lo : Nat) : Nat := v / 2 ^ lo % 2 ^ (hi + 1 - lo)

/-- One bit of `v`. -/
def bit (v : Nat) (i : Nat) : Bool := v.testBit i

/-- `v` with bits `hi` down to `lo` replaced by the low bits of `x`. -/
def setBits (v : Nat) (hi lo : Nat) (x : Nat) : Nat :=
  v - bits v hi lo * 2 ^ lo + x % 2 ^ (hi + 1 - lo) * 2 ^ lo

/-- The low `n` bits of `v` read as a two's-complement integer (00 R11). -/
def sext (v : Nat) (n : Nat) : Int :=
  if v % 2 ^ n < 2 ^ (n - 1) then (v % 2 ^ n : Nat) else ((v % 2 ^ n : Nat) : Int) - 2 ^ n

/-- An integer modulo 2^n, as the bits of an n-bit field. -/
def wrap (n : Nat) (v : Int) : Nat := (v % (2 ^ n : Int)).toNat

/-- An integer modulo 2^64. -/
def word (v : Int) : Word := BitVec.ofInt 64 v

/-- The `n` bytes of `v`, least significant first (00 R5). -/
def leBytes (n : Nat) (v : Nat) : List Byte :=
  match n with
  | 0 => []
  | k + 1 => BitVec.ofNat 8 v :: leBytes k (v / 256)

/-- The number whose bytes are given, least significant first (00 R5). -/
def ofBytes (bs : List Byte) : Nat :=
  match bs with
  | [] => 0
  | b :: rest => b.toNat + 256 * ofBytes rest

/-- The number in bytes `at` to `at + n - 1` of a byte list; bytes past its end read 0. -/
def fieldAt (bs : List Byte) (start n : Nat) : Nat := ofBytes ((bs.drop start).take n)

/-- Whether bytes `start` to `start + n - 1` of a list are zero. -/
def zeroAt (bs : List Byte) (start n : Nat) : Bool := ((bs.drop start).take n).all (· == 0)

/-- A byte list with `new` written from place `start` on, within its length. -/
def patch (bs : List Byte) (start : Nat) (new : List Byte) : List Byte :=
  (bs.take start ++ new ++ bs.drop (start + new.length)).take bs.length

/-- A byte list brought to length `n` with zeros. -/
def padTo (n : Nat) (bs : List Byte) : List Byte := (bs ++ List.replicate (n - bs.length) 0).take n

/-- A list with its `i`-th item replaced. -/
def setNth {α : Type} (l : List α) (i : Nat) (x : α) : List α := l.set i x

/-- The bytes of a 64-byte vector, lane 0 lowest (09 R226). -/
def vecBytes (v : Vec) : List Byte := leBytes 64 v.toNat

/-- A 64-byte vector from its bytes. -/
def vecOfBytes (bs : List Byte) : Vec := BitVec.ofNat 512 (ofBytes bs)

/-! ## Memory as cells -/

/-- What an unlisted address reads as (assumption log 4). -/
def emptyByte : Byte := 0

/-- One byte of a memory. -/
def memGet (m : Memory) (a : Nat) : Byte :=
  match m with
  | [] => emptyByte
  | (k, v) :: rest => if k = a then v else memGet rest a

/-- A memory with one byte written; the canonical form is kept (assumption log 4). -/
def memSet (m : Memory) (a : Nat) (b : Byte) : Memory :=
  match m with
  | [] => if b = emptyByte then [] else [(a, b)]
  | (k, v) :: rest =>
    if k < a then (k, v) :: memSet rest a b
    else if k = a then (if b = emptyByte then rest else (a, b) :: rest)
    else if b = emptyByte then (k, v) :: rest else (a, b) :: (k, v) :: rest

/-- `n` bytes of a memory from address `a`. -/
def memRead (m : Memory) (a n : Nat) : List Byte :=
  match n with
  | 0 => []
  | k + 1 => memGet m a :: memRead m (a + 1) k

/-- A memory with bytes written from address `a` on. -/
def memWrite (m : Memory) (a : Nat) (bs : List Byte) : Memory :=
  match bs with
  | [] => m
  | b :: rest => memWrite (memSet m a b) (a + 1) rest

/-- A memory with `n` bytes from `a` on made zero. -/
def memClear (m : Memory) (a n : Nat) : Memory := m.filter (fun c => c.1 < a || a + n ≤ c.1)

/-- A memory with the cells of another written over it. -/
def memOver (m : Memory) (cells : Memory) : Memory := cells.foldl (fun m c => memSet m c.1 c.2) m

/-- The canonical form: addresses strictly rising, no entry equal to the byte an unlisted address reads as (assumption log 4). -/
def Memory.wf (m : Memory) : Bool :=
  match m with
  | [] => true
  | (k, v) :: rest => decide (v ≠ emptyByte) && rest.all (fun c => decide (k < c.1)) && Memory.wf rest

/-! ## Lists as small sets and queues -/

/-- A list without the first item equal to `x`. -/
def without {α : Type} [DecidableEq α] (l : List α) (x : α) : List α := l.filter (fun y => !(decide (y = x)))

/-- A list with `x` in it once. -/
def with1 {α : Type} [DecidableEq α] (l : List α) (x : α) : List α := if x ∈ l then l else l ++ [x]

/-- The numbers `lo, lo+1, …` below `lo + n`. -/
def numbersFrom (lo n : Nat) : List Nat := (List.range n).map (lo + ·)

end Sys2Proof.Machine
end

