-- ==== Sys2Proof/Machine/Digest.lean ====
section
/-!
DEFINITION. The SHA-512 digest that the manual names (01 R49, R52; 03 R103; 08 R224). The manual does not print the function: it is taken
from FIPS 180-4 (PRESUMED, assumption log 8).
-/
namespace Sys2Proof.Machine

/-- The eight words of the hash state. -/
structure HashState where
  a : Nat
  b : Nat
  c : Nat
  d : Nat
  e : Nat
  f : Nat
  g : Nat
  h : Nat
  deriving DecidableEq, Repr

/-- The initial hash value. -/
def hashInit : HashState :=
  ⟨0x6A09E667F3BCC908, 0xBB67AE8584CAA73B, 0x3C6EF372FE94F82B, 0xA54FF53A5F1D36F1,
   0x510E527FADE682D1, 0x9B05688C2B3E6C1F, 0x1F83D9ABFB41BD6B, 0x5BE0CD19137E2179⟩

/-- The 80 round constants. -/
def roundConstants : List Nat :=
  [0x428A2F98D728AE22, 0x7137449123EF65CD, 0xB5C0FBCFEC4D3B2F, 0xE9B5DBA58189DBBC,
   0x3956C25BF348B538, 0x59F111F1B605D019, 0x923F82A4AF194F9B, 0xAB1C5ED5DA6D8118,
   0xD807AA98A3030242, 0x12835B0145706FBE, 0x243185BE4EE4B28C, 0x550C7DC3D5FFB4E2,
   0x72BE5D74F27B896F, 0x80DEB1FE3B1696B1, 0x9BDC06A725C71235, 0xC19BF174CF692694,
   0xE49B69C19EF14AD2, 0xEFBE4786384F25E3, 0x0FC19DC68B8CD5B5, 0x240CA1CC77AC9C65]
  ++ [0x2DE92C6F592B0275, 0x4A7484AA6EA6E483, 0x5CB0A9DCBD41FBD4, 0x76F988DA831153B5,
   0x983E5152EE66DFAB, 0xA831C66D2DB43210, 0xB00327C898FB213F, 0xBF597FC7BEEF0EE4,
   0xC6E00BF33DA88FC2, 0xD5A79147930AA725, 0x06CA6351E003826F, 0x142929670A0E6E70,
   0x27B70A8546D22FFC, 0x2E1B21385C26C926, 0x4D2C6DFC5AC42AED, 0x53380D139D95B3DF,
   0x650A73548BAF63DE, 0x766A0ABB3C77B2A8, 0x81C2C92E47EDAEE6, 0x92722C851482353B]
  ++ [0xA2BFE8A14CF10364, 0xA81A664BBC423001, 0xC24B8B70D0F89791, 0xC76C51A30654BE30,
   0xD192E819D6EF5218, 0xD69906245565A910, 0xF40E35855771202A, 0x106AA07032BBD1B8,
   0x19A4C116B8D2D0C8, 0x1E376C085141AB53, 0x2748774CDF8EEB99, 0x34B0BCB5E19B48A8,
   0x391C0CB3C5C95A63, 0x4ED8AA4AE3418ACB, 0x5B9CCA4F7763E373, 0x682E6FF3D6B2B8A3,
   0x748F82EE5DEFB2FC, 0x78A5636F43172F60, 0x84C87814A1F0AB72, 0x8CC702081A6439EC]
  ++ [0x90BEFFFA23631E28, 0xA4506CEBDE82BDE9, 0xBEF9A3F7B2C67915, 0xC67178F2E372532B,
   0xCA273ECEEA26619C, 0xD186B8C721C0C207, 0xEADA7DD6CDE0EB1E, 0xF57D4F7FEE6ED178,
   0x06F067AA72176FBA, 0x0A637DC5A2C898A6, 0x113F9804BEF90DAE, 0x1B710B35131C471B,
   0x28DB77F523047D84, 0x32CAAB7B40C72493, 0x3C9EBE0A15C9BEBC, 0x431D67C49C100D4C,
   0x4CC5D4BECB3E42B6, 0x597F299CFC657E2A, 0x5FCB6FAB3AD6FAEC, 0x6C44198C4A475817]

/-- A 64-bit word rotated right. -/
def rotr64 (x n : Nat) : Nat := (x >>> n ||| x <<< (64 - n)) % 2 ^ 64

def bigSigma0 (x : Nat) : Nat := rotr64 x 28 ^^^ rotr64 x 34 ^^^ rotr64 x 39
def bigSigma1 (x : Nat) : Nat := rotr64 x 14 ^^^ rotr64 x 18 ^^^ rotr64 x 41
def smallSigma0 (x : Nat) : Nat := rotr64 x 1 ^^^ rotr64 x 8 ^^^ (x >>> 7)
def smallSigma1 (x : Nat) : Nat := rotr64 x 19 ^^^ rotr64 x 61 ^^^ (x >>> 6)

/-- One round with its constant and message word. -/
def hashRound (k w : Nat) (s : HashState) : HashState :=
  let t1 := s.h + bigSigma1 s.e + ((s.e &&& s.f) ^^^ ((2 ^ 64 - 1 - s.e) &&& s.g)) + k + w
  let t2 := bigSigma0 s.a + ((s.a &&& s.b) ^^^ (s.a &&& s.c) ^^^ (s.b &&& s.c))
  ⟨(t1 + t2) % 2 ^ 64, s.a, s.b, s.c, (s.d + t1) % 2 ^ 64, s.e, s.f, s.g⟩

/-- The rounds over the constants that remain; `w` is the window of the next 16 message words. -/
def hashRounds (ks w : List Nat) (s : HashState) : HashState :=
  match ks with
  | [] => s
  | k :: rest =>
    let next := (smallSigma1 (w.getD 14 0) + w.getD 9 0 + smallSigma0 (w.getD 1 0) + w.getD 0 0) % 2 ^ 64
    hashRounds rest (w.drop 1 ++ [next]) (hashRound k (w.getD 0 0) s)

/-- A number from its bytes, most significant first. -/
def ofBytesBE (bs : List Byte) : Nat := bs.foldl (fun n b => 256 * n + b.toNat) 0
/-- A number's `n` bytes, most significant first. -/
def beBytes (n v : Nat) : List Byte := (leBytes n v).reverse

/-- One block of 128 bytes enters the state. -/
def hashBlock (s : HashState) (block : List Byte) : HashState :=
  let t := hashRounds roundConstants ((List.range 16).map (fun i => ofBytesBE ((block.drop (8 * i)).take 8))) s
  let add := fun (x y : Nat) => (x + y) % 2 ^ 64
  ⟨add s.a t.a, add s.b t.b, add s.c t.c, add s.d t.d, add s.e t.e, add s.f t.f, add s.g t.g, add s.h t.h⟩

/-- The blocks of a padded message; `fuel` bounds them. -/
def hashBlocks (fuel : Nat) (s : HashState) (bs : List Byte) : HashState :=
  match fuel with
  | 0 => s
  | k + 1 => hashBlocks k (hashBlock s (bs.take 128)) (bs.drop 128)

/-- The SHA-512 digest of a message: 64 bytes. -/
def sha512 (msg : List Byte) : List Byte :=
  let zeros := (239 - msg.length % 128) % 128
  let padded := msg ++ [0x80] ++ List.replicate zeros 0 ++ beBytes 16 (8 * msg.length)
  let s := hashBlocks (padded.length / 128) hashInit padded
  beBytes 8 s.a ++ beBytes 8 s.b ++ beBytes 8 s.c ++ beBytes 8 s.d ++ beBytes 8 s.e ++ beBytes 8 s.f ++ beBytes 8 s.g ++ beBytes 8 s.h

/-- The digest as a number, most significant byte first. -/
def digestOf (msg : List Byte) : BitVec 512 := BitVec.ofNat 512 (ofBytesBE (sha512 msg))

/-- Whether a signature verifies over a message: r then s, 66 bytes each, most significant byte first (01 R49, R53; 03 R79, R104). -/
def signatureOk (msg sig : List Byte) : Bool := Config.ecdsaVerify (digestOf msg) (ofBytesBE (sig.take 66)) (ofBytesBE ((sig.drop 66).take 66))

/-- The 132 bytes of a signature under the device identity key (01 R52, R53). The manual does not say how the number that ECDSA takes for each
signature is chosen; here equal digests have equal signatures, a DESIGN CHOICE (log 8). -/
def signed (msg : List Byte) : List Byte := beBytes 66 (Config.ecdsaR (digestOf msg)).toNat ++ beBytes 66 (Config.ecdsaS (digestOf msg)).toNat

end Sys2Proof.Machine
end

