-- ==== Sys2Proof/Machine/Float.lean ====
section
/-!
DEFINITION. Floating-point arithmetic: exact values as an integer times a power of two, and one rounding (09 R229-R236). A result comes
with its flags as bits 4:0 of FCSR: NV 16, DZ 8, OF 4, UF 2, NX 1.
-/
namespace Sys2Proof.Machine

/-- A format: exponent and fraction widths (09 R229). -/
structure Fmt where
  ebits : Nat
  fbits : Nat
  deriving DecidableEq, Repr

def fp16 : Fmt := { ebits := 5, fbits := 10 }
def bf16 : Fmt := { ebits := 8, fbits := 7 }
def fp32 : Fmt := { ebits := 8, fbits := 23 }
def fp64 : Fmt := { ebits := 11, fbits := 52 }

/-- The floating esz column of R270. -/
def fmtOf (e : BitVec 2) : Fmt := if e = 0 then fp16 else if e = 1 then bf16 else if e = 2 then fp32 else fp64

def Fmt.width (f : Fmt) : Nat := 1 + f.ebits + f.fbits
def Fmt.bias (f : Fmt) : Int := 2 ^ (f.ebits - 1) - 1
def Fmt.expMax (f : Fmt) : Nat := 2 ^ f.ebits - 1
/-- Exponent of the least normal number. -/
def Fmt.emin (f : Fmt) : Int := 1 - f.bias

/-- The value a datum denotes: a finite one is (−1)^neg · m · 2^e. -/
inductive FVal where
  | nan (signaling : Bool)
  | inf (neg : Bool)
  | fin (neg : Bool) (m : Nat) (e : Int)
  deriving DecidableEq, Repr

def signOf (f : Fmt) (b : Nat) : Bool := b.testBit (f.width - 1)

/-- Reads a datum (09 R229). -/
def fdecode (f : Fmt) (b : Nat) : FVal :=
  let frac := bits b (f.fbits - 1) 0
  let ex := bits b (f.fbits + f.ebits - 1) f.fbits
  if ex = f.expMax then (if frac = 0 then .inf (signOf f b) else .nan (!frac.testBit (f.fbits - 1)))
  else if ex = 0 then .fin (signOf f b) frac (f.emin - f.fbits)
  else .fin (signOf f b) (2 ^ f.fbits + frac) (f.emin - f.fbits + (ex - 1 : Nat))

def isNan (v : FVal) : Bool :=
  match v with
  | .nan _ => true
  | _ => false

def isSnan (v : FVal) : Bool :=
  match v with
  | .nan s => s
  | _ => false

/-- The canonical quiet NaN (09 R229). -/
def canonNan (f : Fmt) : Nat := f.expMax * 2 ^ f.fbits + 2 ^ (f.fbits - 1)
def infBits (f : Fmt) (neg : Bool) : Nat := (if neg then 2 ^ (f.width - 1) else 0) + f.expMax * 2 ^ f.fbits
def zeroBits (f : Fmt) (neg : Bool) : Nat := if neg then 2 ^ (f.width - 1) else 0
def maxFinite (f : Fmt) (neg : Bool) : Nat := infBits f neg - 1

/-- Number of significant bits. -/
def bitLen (m : Nat) : Nat := if m = 0 then 0 else m.log2 + 1

/-- Whether a magnitude with remainder `r` of 2^`sh` (and a sticky tail) rounds up. -/
def roundsUp (mode : Nat) (neg : Bool) (lsb : Bool) (r sh : Nat) (sticky : Bool) : Bool :=
  let inexact := !(r = 0) || sticky
  let half := 2 ^ (sh - 1)
  if mode = 0 then decide (half < r) || (r = half && (sticky || lsb))
  else if mode = 1 then false
  else if mode = 2 then neg && inexact
  else if mode = 3 then !neg && inexact
  else decide (half ≤ r)

/-- A magnitude m·2^e, with a sticky tail below, brought to a multiple of 2^q: the multiple and whether it is inexact. -/
def roundTo (mode : Nat) (neg : Bool) (m : Nat) (e q : Int) (sticky : Bool) : Nat × Bool :=
  if q ≤ e then (m * 2 ^ (e - q).toNat, sticky)
  else
    let sh := (q - e).toNat
    let k := m / 2 ^ sh
    let r := m % 2 ^ sh
    (k + (if roundsUp mode neg (k % 2 = 1) r sh sticky then 1 else 0), !(r = 0) || sticky)

/-- Round(v, f, mode) of R11 for the finite value (−1)^neg · (m and its sticky tail) · 2^e, with OF, UF and NX (09 R235, R236). -/
def fround (f : Fmt) (mode : Nat) (neg : Bool) (m : Nat) (e : Int) (sticky : Bool) : Nat × Nat :=
  if m = 0 && !sticky then (zeroBits f neg, 0)
  else
    let top : Int := e + (bitLen m : Nat) - 1
    let q : Int := max (top - f.fbits) (f.emin - f.fbits)
    let (k, inexact) := roundTo mode neg m e q sticky
    let (k, q) := if k = 2 ^ (f.fbits + 1) then (2 ^ f.fbits, q + 1) else (k, q)
    let sign := if neg then 2 ^ (f.width - 1) else 0
    let ex : Int := q + f.fbits + f.bias
    if 2 ^ f.fbits ≤ k ∧ (f.expMax : Int) ≤ ex then
      let toInf := mode = 0 || mode = 4 || (mode = 2 && neg) || (mode = 3 && !neg)
      (if toInf then infBits f neg else maxFinite f neg, 5)
    else
      let tiny := decide (top < f.emin) && !decide ((roundTo mode neg m e (top - f.fbits) sticky).1 = 2 ^ (f.fbits + 1) ∧ top + 1 = f.emin)
      let flags := if inexact then (if tiny then 3 else 1) else 0
      if 2 ^ f.fbits ≤ k then (sign + ex.toNat * 2 ^ f.fbits + (k - 2 ^ f.fbits), flags) else (sign + k, flags)

/-- A finite value as a signed integer at exponent `e0` ≤ its own. -/
def scaled (neg : Bool) (m : Nat) (e e0 : Int) : Int := (if neg then -1 else 1) * ((m * 2 ^ (e - e0).toNat : Nat) : Int)

/-- An exact signed sum rounded; `zneg` is the sign of an exact zero. -/
def froundInt (f : Fmt) (mode : Nat) (v : Int) (e : Int) (zneg : Bool) : Nat × Nat :=
  if v = 0 then (zeroBits f zneg, 0) else fround f mode (decide (v < 0)) v.natAbs e false

/-- The sign of an exact zero sum of two terms (09 R235). -/
def zeroSign (mode : Nat) (n1 n2 : Bool) : Bool := if n1 = n2 then n1 else mode = 2

/-- NV for a signaling NaN among the operands. -/
def snanFlag (vs : List FVal) : Nat := if vs.any isSnan then 16 else 0

/-- Sum of two values rounded to `f`. -/
def faddV (f : Fmt) (mode : Nat) (x y : FVal) : Nat × Nat :=
  match x, y with
  | .nan s, _ => (canonNan f, if s || isSnan y then 16 else 0)
  | _, .nan s => (canonNan f, if s then 16 else 0)
  | .inf a, .inf b => if a = b then (infBits f a, 0) else (canonNan f, 16)
  | .inf a, .fin .. => (infBits f a, 0)
  | .fin .., .inf b => (infBits f b, 0)
  | .fin a m e, .fin b n d =>
    let e0 := min e d
    if m = 0 ∧ n = 0 then (zeroBits f (zeroSign mode a b), 0)
    else froundInt f mode (scaled a m e e0 + scaled b n d e0) e0 (mode = 2)

def negV (v : FVal) : FVal :=
  match v with
  | .nan s => .nan s
  | .inf n => .inf (!n)
  | .fin n m e => .fin (!n) m e

/-- The exact product of two values, before rounding; `none` for 0 × ∞. -/
def mulV (x y : FVal) : Option FVal :=
  match x, y with
  | .nan s, _ => some (.nan (s || isSnan y))
  | _, .nan s => some (.nan s)
  | .inf a, .inf b => some (.inf (a != b))
  | .inf a, .fin b n _ => if n = 0 then none else some (.inf (a != b))
  | .fin a m _, .inf b => if m = 0 then none else some (.inf (a != b))
  | .fin a m e, .fin b n d => some (.fin (a != b) (m * n) (e + d))

def fpack (f : Fmt) (mode : Nat) (v : FVal) : Nat × Nat :=
  match v with
  | .nan s => (canonNan f, if s then 16 else 0)
  | .inf n => (infBits f n, 0)
  | .fin n m e => fround f mode n m e false

def fadd (f : Fmt) (mode a b : Nat) : Nat × Nat := faddV f mode (fdecode f a) (fdecode f b)
def fsub (f : Fmt) (mode a b : Nat) : Nat × Nat := faddV f mode (fdecode f a) (negV (fdecode f b))

def fmul (f : Fmt) (mode a b : Nat) : Nat × Nat :=
  match mulV (fdecode f a) (fdecode f b) with
  | none => (canonNan f, 16)
  | some v => fpack f mode v

/-- a × b + c with one rounding; `np` negates the product, `nc` the addend (12 R299). -/
def ffma (f : Fmt) (mode : Nat) (np nc : Bool) (a b c : Nat) : Nat × Nat :=
  let x := fdecode f a
  let y := fdecode f b
  let z := fdecode f c
  match mulV x y with
  | none => (canonNan f, 16)
  | some p =>
    if isNan p || isNan z then (canonNan f, snanFlag [x, y, z])
    else faddV f mode (if np then negV p else p) (if nc then negV z else z)

def fdiv (f : Fmt) (mode a b : Nat) : Nat × Nat :=
  let x := fdecode f a
  let y := fdecode f b
  match x, y with
  | .nan _, _ => (canonNan f, snanFlag [x, y])
  | _, .nan _ => (canonNan f, snanFlag [x, y])
  | .inf _, .inf _ => (canonNan f, 16)
  | .inf n, .fin k _ _ => (infBits f (n != k), 0)
  | .fin n _ _, .inf k => (zeroBits f (n != k), 0)
  | .fin n m e, .fin k d g =>
    if d = 0 then (if m = 0 then (canonNan f, 16) else (infBits f (n != k), 8))
    else if m = 0 then (zeroBits f (n != k), 0)
    else
      let s := f.fbits + 4 + bitLen d
      fround f mode (n != k) (m * 2 ^ s / d) (e - g - s) (!(m * 2 ^ s % d = 0))

/-- Integer square root, bit `i - 1` and below still open above `r`. -/
def isqrtFrom (n : Nat) (i r : Nat) : Nat :=
  match i with
  | 0 => r
  | k + 1 => if (r + 2 ^ k) * (r + 2 ^ k) ≤ n then isqrtFrom n k (r + 2 ^ k) else isqrtFrom n k r

def isqrt (n : Nat) : Nat := isqrtFrom n (bitLen n / 2 + 1) 0

def fsqrt (f : Fmt) (mode a : Nat) : Nat × Nat :=
  match fdecode f a with
  | .nan s => (canonNan f, if s then 16 else 0)
  | .inf n => if n then (canonNan f, 16) else (infBits f false, 0)
  | .fin n m e =>
    if m = 0 then (zeroBits f n, 0)
    else if n then (canonNan f, 16)
    else
      let s := 2 * (f.fbits + 4) + (if (e % 2 = 0) then 0 else 1)
      let v := m * 2 ^ s
      let r := isqrt v
      fround f mode false r ((e - s) / 2) (!(r * r = v))

/-- Exact order of two values that are not NaN. -/
def fltV (x y : FVal) : Bool :=
  match x, y with
  | .nan _, _ => false
  | _, .nan _ => false
  | .inf a, .inf b => a && !b
  | .inf a, .fin .. => a
  | .fin .., .inf b => !b
  | .fin a m e, .fin b n d => decide (scaled a m e (min e d) < scaled b n d (min e d))

def feqV (x y : FVal) : Bool :=
  match x, y with
  | .nan _, _ => false
  | _, .nan _ => false
  | .inf a, .inf b => a = b
  | .inf _, .fin .. => false
  | .fin .., .inf _ => false
  | .fin a m e, .fin b n d => decide (scaled a m e (min e d) = scaled b n d (min e d))

/-- Order with −0 below +0 (09 R235). -/
def fbelow (x y : FVal) : Bool :=
  match x, y with
  | .fin a 0 _, .fin b 0 _ => a && !b
  | _, _ => fltV x y

/-- minimumNumber, or maximumNumber (09 R235). -/
def fminmax (f : Fmt) (wantMax : Bool) (a b : Nat) : Nat × Nat :=
  let x := fdecode f a
  let y := fdecode f b
  let fl := snanFlag [x, y]
  if isNan x && isNan y then (canonNan f, fl)
  else if isNan x then (b, fl)
  else if isNan y then (a, fl)
  else if wantMax then (if fbelow x y then b else a, fl)
  else (if fbelow y x then b else a, fl)

/-- Sign injection: 0 copies b's sign, 1 its inverse, 2 the exclusive or (12 R298). -/
def fsign (f : Fmt) (how a b : Nat) : Nat :=
  let low := a % 2 ^ (f.width - 1)
  let s := if how = 0 then signOf f b else if how = 1 then !signOf f b else signOf f a != signOf f b
  low + (if s then 2 ^ (f.width - 1) else 0)

/-- Comparisons: 0 equal (quiet), 1 less, 2 less or equal (signaling) (12 R298). -/
def fcompare (f : Fmt) (how a b : Nat) : Bool × Nat :=
  let x := fdecode f a
  let y := fdecode f b
  let fl := if how = 0 then snanFlag [x, y] else if isNan x || isNan y then 16 else 0
  (if how = 0 then feqV x y else if how = 1 then fltV x y else fltV x y || feqV x y, fl)

/-- FCLASS (12 R302). -/
def fclassify (f : Fmt) (a : Nat) : Nat :=
  match fdecode f a with
  | .nan s => if s then 8 else 9
  | .inf n => if n then 0 else 7
  | .fin n m _ =>
    if m = 0 then (if n then 3 else 4)
    else if m < 2 ^ f.fbits then (if n then 2 else 5)
    else if n then 1 else 6

/-- A value as an integer of `n` bits, saturated (09 R236): the integer and the flags. -/
def ftoint (f : Fmt) (mode n : Nat) (signed : Bool) (a : Nat) : Int × Nat :=
  let lo : Int := if signed then -(2 ^ (n - 1)) else 0
  let hi : Int := if signed then 2 ^ (n - 1) - 1 else 2 ^ n - 1
  match fdecode f a with
  | .nan _ => (hi, 16)
  | .inf neg => (if neg then lo else hi, 16)
  | .fin neg m e =>
    let (k, inexact) := roundTo mode neg m e 0 false
    let v : Int := if neg then -(k : Int) else k
    if v < lo then (lo, 16) else if hi < v then (hi, 16) else (v, if inexact then 1 else 0)

/-- An integer rounded to a format (09 R236). -/
def fofint (f : Fmt) (mode : Nat) (v : Int) : Nat × Nat := froundInt f mode v 0 false

/-- Conversion between formats, rounded or exact (09 R236). -/
def fconvert (src dst : Fmt) (mode a : Nat) : Nat × Nat := fpack dst mode (fdecode src a)

/-! ## Narrow formats (09 R231, R232) -/

/-- A PS8 byte in units of 2^−6. -/
def ps8 (b : Nat) : Int :=
  let term := fun (s sh : Nat) => if sh = 7 then (0 : Int) else (if s = 1 then -1 else 1) * 2 ^ (6 - sh)
  term (bits b 7 7) (bits b 6 4) + term (bits b 3 3) (bits b 2 0)

/-- A PS4 nibble in units of 2^−6. -/
def ps4 (b : Nat) : Int := if bits b 2 0 = 7 then 0 else (if bits b 3 3 = 1 then -1 else 1) * 2 ^ (6 - bits b 2 0)

/-- A TERN code; 0b10 is reserved and read as 0. -/
def tern (b : Nat) : Int := if b % 4 = 1 then 1 else if b % 4 = 3 then -1 else 0

/-- A PS8 byte as a datum of a format, exactly. -/
def ps8To (f : Fmt) (b : Nat) : Nat := (froundInt f 0 (ps8 b) (-6) false).1

end Sys2Proof.Machine
end

