-- ==== Sys2Proof/Machine/Base.lean ====
section
/-!
DEFINITION. The hierarchy's numbering, reading and writing of the agents and units of the state, error records, full/empty bits with
the triggers they raise, and barrier updates. Everything above is built from these.
-/
namespace Sys2Proof.Machine

/-! ## Numbering (00 R2): strand 4 x core + s, core 4 x tile + c, tile 8 x cluster + t, cluster 16 x die + c -/

def agentCore (a : Agent) : Nat :=
  match a with
  | .strand n => n / 4
  | .courier c => c

def agentTile (a : Agent) : Nat := agentCore a / 4
def agentCluster (a : Agent) : Nat := agentTile a / 8
def agentDie (a : Agent) : Nat := agentTile a / 128

def isCourier (a : Agent) : Bool :=
  match a with
  | .strand _ => false
  | .courier _ => true

/-! ## Units of the state -/

def getAgent (s : State) (a : Agent) : Strand :=
  match a with
  | .strand n => s.strands.get {} n
  | .courier c => s.couriers.get {} c

def putAgent (s : State) (a : Agent) (t : Strand) : State :=
  match a with
  | .strand n => { s with strands := s.strands.set n t }
  | .courier c => { s with couriers := s.couriers.set c t }

def modAgent (s : State) (a : Agent) (f : Strand → Strand) : State := putAgent s a (f (getAgent s a))

/-- The strand or courier slot that issues now. -/
def me (s : State) : Strand := getAgent s s.cur

def modMe (s : State) (f : Strand → Strand) : State := modAgent s s.cur f

def getCore (s : State) (c : Nat) : CoreUnit := s.cores.get {} c
def modCore (s : State) (c : Nat) (f : CoreUnit → CoreUnit) : State := { s with cores := s.cores.set c (f (getCore s c)) }
def getTile (s : State) (t : Nat) : Tile := s.tiles.get {} t
def modTile (s : State) (t : Nat) (f : Tile → Tile) : State := { s with tiles := s.tiles.set t (f (getTile s t)) }
def getCluster (s : State) (c : Nat) : Cluster := s.clusters.get {} c
def modCluster (s : State) (c : Nat) (f : Cluster → Cluster) : State :=
  { s with clusters := s.clusters.set c (f (getCluster s c)) }
def getDie (s : State) (d : Nat) : Die := s.dies.get {} d
def modDie (s : State) (d : Nat) (f : Die → Die) : State := { s with dies := s.dies.set d (f (getDie s d)) }
def getRun (s : State) (r : BitVec 32) : Run := s.runs.get {} r.toNat
def modRun (s : State) (r : BitVec 32) (f : Run → Run) : State := { s with runs := s.runs.set r.toNat (f (getRun s r)) }
def getCtx (s : State) (c : BitVec 32) : Context := s.contexts.get {} c.toNat
def modCtx (s : State) (c : BitVec 32) (f : Context → Context) : State :=
  { s with contexts := s.contexts.set c.toNat (f (getCtx s c)) }

def devnum (s : State) : Nat := s.link.devnum.toNat

/-- The run that an activation belongs to (05 R132 RUNID). -/
def actRun (a : Activation) : BitVec 32 :=
  match a with
  | .free => 0
  | .block r _ => r
  | .handler r _ _ => r
  | .courier r => r

def agentRun (s : State) (a : Agent) : BitVec 32 := actRun (getAgent s a).act
def agentCtx (s : State) (a : Agent) : BitVec 32 := (getRun s (agentRun s a)).ctx
/-- BLKID of an agent: 0 in a trigger handler and in a courier (05 R132, R144; 16 R386). -/
def agentBlock (s : State) (a : Agent) : Nat :=
  match (getAgent s a).act with
  | .block _ i => i
  | _ => 0

/-- Ostler mode: only column tiles run in it (03 R81). -/
def ostlerTile (s : State) (t : Nat) : Bool := (getCluster s (t / 8)).ostMask.getLsbD (t % 8)
def ostlerMode (s : State) (a : Agent) : Bool := ostlerTile s (agentTile a)

/-- The partition that owns a die under PARTCFG.MODE (02 R76). -/
def partOfDie (s : State) (d : Nat) : Nat := d * 2 ^ s.host.partMode.toNat / 8
def partOfCluster (s : State) (c : Nat) : Nat := partOfDie s (c / 16)
def partCount (s : State) : Nat := 2 ^ s.host.partMode.toNat

/-- Steps that come before anything else: what a register write causes. -/
def soon (s : State) (evs : List Instr) : State := { s with urgent := s.urgent ++ evs }
/-- Steps put at the end of the agenda. -/
def later (s : State) (evs : List Instr) : State := { s with agenda := s.agenda ++ evs }

/-- Free strands of a core look for triggers and block messages, its courier slot for couriers, its cluster's BOUND records for a place
(03 R86; 05 R134, R142, R144). -/
def wakeCore (s : State) (core : Nat) : State :=
  later s (((List.range 4).filter (fun k => !(s.strands.has (4 * core + k)))).flatMap (fun k =>
    [.triggerLatch (4 * core + k), .blockActivation (4 * core + k)]) ++ [.courierStart core]
    ++ ((getCluster s (core / 32)).slots.filter (fun r => r.2.state == 1)).map (fun r => .blockDispatch (core / 32) r.1 core))

/-- Dispatch looks again for places for the blocks of the records that pass a test (03 R86). -/
def boundTokens (s : State) (p : BindRecord → Bool) : List Instr :=
  s.clusters.flatMap (fun c => (c.2.slots.filter (fun r => r.2.state == 1 && p r.2)).flatMap (fun r =>
    ((List.range 8).filter (fun t => r.2.tileMask.getLsbD t)).flatMap (fun t =>
      (List.range 4).map (fun k => .blockDispatch c.1 r.1 (4 * (8 * c.1 + t) + k)))))

/-- A packet's work is complete, with what its completion record will say: RESET where its partition has been reset (02 R78). A time-slice
timer loaded for it stops (02 R77). -/
def packetDone (s : State) (slot seq : Nat) (f : PacketRun → PacketRun) : State :=
  let q := s.queues.get {} slot
  later { s with queues := s.queues.set slot { q with
    packets := q.packets.map (fun p => if p.seq = seq then doneAs (f p) else p)
    slice := q.slice.filter (fun t => !(t.1 = seq)) } }
    [.packetCompletion slot]
where
  doneAs (p : PacketRun) : PacketRun :=
    { p with workDone := true, status := if p.reset then 5 else p.status, code := if p.reset then 0 else p.code }

/-! ## Registers (11 R266, 00 R10) -/

/-- X[r]; x0 reads 0. -/
def readX (t : Strand) (r : BitVec 5) : Word := if r = 0 then 0 else t.x[r.toNat]'r.isLt
/-- X[r] := v; a write of x0 is discarded. -/
def writeX (t : Strand) (r : BitVec 5) (v : Word) : Strand :=
  if r = 0 then t else { t with x := t.x.set r.toNat v r.isLt }
def readV (t : Strand) (r : BitVec 5) : Vec := t.v[r.toNat]'r.isLt
def writeV (t : Strand) (r : BitVec 5) (v : Vec) : Strand := { t with v := t.v.set r.toNat v r.isLt }
/-- M[r]; m0 reads all ones. -/
def readM (t : Strand) (r : BitVec 3) : Word := if r = 0 then BitVec.allOnes 64 else t.m[r.toNat]'r.isLt
/-- M[r] := v; a write of m0 is discarded. -/
def writeM (t : Strand) (r : BitVec 3) (v : Word) : Strand :=
  if r = 0 then t else { t with m := t.m.set r.toNat v r.isLt }

/-! ## Source numbers and error records (01 R44-R48, R413) -/

/-- The physical tile that serves a tile's position (01 R413). -/
def physTile (s : State) (t : Nat) : Nat := (getDie s (t / 128)).moved.get (t % 128) (t % 128)
/-- Source number of a tile (01 R45). -/
def tileSource (s : State) (t : Nat) : Nat := t / 128 * 136 + physTile s t
def clusterSource (c : Nat) : Nat := 0x1000 + c
/-- Source number of the depot of a physical address (06 R159). -/
def depotSource (pa : Nat) : Nat := 0x2000 + pa / (80 * 2 ^ 30) * 32 + bits pa 12 8
def portSource (p : Nat) : Nat := 0x3000 + p
def feltSource (a : Nat) : Nat := 0x4000 + a
def hostSource : Nat := 0x5000
def mgmtSource : Nat := 0x6000

def recordClass (c : RecordClass) : Nat :=
  match c with
  | .hw => 1
  | .fault => 2
  | .link => 3
  | .spare => 4
  | .security => 5
  | .thermal => 6
  | .queue => 7

/-- 1588 time of a counter value, from the latest sample pair (01 R43): seconds and nanoseconds. It is a monotone function of the counter:
never earlier than what the pair before gave at the latest edge (log 32). -/
def time1588 (s : State) (t : Nat) : Nat × Nat :=
  let ns := t - s.mgmt.sampleTick
  let sec := s.mgmt.sampleSeconds + ns / 1000000000
  let floor := s.mgmt.sampleFloor
  if sec < floor.1 || (sec = floor.1 && decide (ns % 1000000000 < floor.2)) then floor else (sec, ns % 1000000000)

/-- The 64 bytes of a record (01 R44). -/
def recordBytes (s : State) (x : Fresh) (lost : Bool) : List Byte :=
  let r := x.report
  leBytes 8 x.stamp ++ leBytes 6 x.sec ++ leBytes 4 x.ns ++ leBytes 2 r.source ++ leBytes 1 (recordClass r.cls) ++ leBytes 1 r.code
    ++ leBytes 2 (r.flags + if lost then 4 else 0) ++ leBytes 4 s.mgmt.sequence.toNat ++ leBytes 4 r.ctx ++ leBytes 8 r.addr
    ++ leBytes 4 r.sub ++ padTo 20 r.detail

/-- An event is to be recorded: among the events that await their record it stands by its stamp, the lower source number first where
stamps are equal (01 R46). The record is written when the tick is over (`recordsOut`). -/
def logRecord (s : State) (r : Report) : State :=
  let t := match s.mgmt.fresh.find? (fun x => x.stamp == s.now) with
    | some x => (x.sec, x.ns)
    | none => time1588 s s.now
  let after := fun (x : Fresh) => x.stamp == s.now && decide (r.source < x.report.source)
  { s with mgmt := { s.mgmt with
      fresh := s.mgmt.fresh.filter (fun x => !after x) ++ { stamp := s.now, sec := t.1, ns := t.2, report := r } :: s.mgmt.fresh.filter after } }

/-- Writes an error record to the management controller's log and, when it is set up and not full, to the host error ring
(01 R46, R47). -/
def recordOut (s : State) (r : Fresh) : State :=
  let h := s.host
  let full := (h.errHead - h.errTail).toNat = h.errSize.toNat
  let toRing := !(h.errBase == 0) && !full
  let bytes := recordBytes s r (toRing && h.lost)
  let log := s.mgmt.log ++ [bytes]
  let mgmt := { s.mgmt with log := log.drop (log.length - 65536), sequence := s.mgmt.sequence + 1 }
  if toRing then
    { s with mgmt := mgmt
             busOut := s.busOut ++ [.write (h.errBase + BitVec.ofNat 64 (64 * (h.errHead.toNat % h.errSize.toNat))) bytes]
             host := { h with errHead := h.errHead + 1, lost := false } }
  else { s with mgmt := mgmt, host := { h with lost := if h.errBase == 0 then h.lost else true } }

/-- Every record that is still to be written is written. -/
def allRecordsOut (s : State) : State := s.mgmt.fresh.foldl recordOut { s with mgmt := { s.mgmt with fresh := [] } }

/-- The records of the ticks that are over are written, in the order of R46. -/
def recordsOut (s : State) : State :=
  (s.mgmt.fresh.filter (fun x => decide (x.stamp < s.now))).foldl recordOut
    { s with mgmt := { s.mgmt with fresh := s.mgmt.fresh.filter (fun x => !decide (x.stamp < s.now)) } }

/-! ## The scratchpad (05 R148, R137) -/

/-- First address of the tile-local window (05 R148). -/
def windowBase : Nat := 0x01FFFFFFF0000000
/-- First address of the ostler control window (03 R82). -/
def ostlerBase : Nat := 0x01FFFFFFE0000000

/-- Whether an address lies in the tile-local window. -/
def inWindow (va : Nat) : Bool := decide (windowBase ≤ va) && decide (va < windowBase + 0x10000000)
def inOstler (va : Nat) : Bool := decide (ostlerBase ≤ va) && decide (va < windowBase)

/-- Whether `n` bytes at a pool offset lie in the scratchpad region. -/
def inScratch (t : Tile) (off n : Nat) : Bool := decide (4096 * t.pbLo ≤ off) && decide (off + n ≤ 4096 * t.pbMid)
/-- Whether `n` bytes at a pool offset lie in the vector-spill or the scratchpad region. -/
def inSpillOrScratch (t : Tile) (off n : Nat) : Bool :=
  decide (4096 * 8 * t.panCnt ≤ off) && decide (off + n ≤ 4096 * t.pbMid)

/-- Copies of a boot on a tile, by SHARE (05 R137). -/
def bootCopies (share : Nat) : Nat := if share = 0 then 16 else if share = 1 then 4 else 1

/-- Offset of boot `n` in the scratchpad (05 R137). -/
def bootOffset (boots : List BootEntry) (n : Nat) : Nat :=
  ((boots.take n).map (fun b => b.size * bootCopies b.share)).sum

/-- The copy of a boot that belongs to strand `st` of core `c` of the tile (05 R137). -/
def bootCopy (share c st : Nat) : Nat := if share = 0 then 4 * c + st else if share = 1 then c else 0

/-- Pool offset of the copy of boot `n` that belongs to strand `st` of core `c`, or `none` for an unused entry. -/
def bootAt (t : Tile) (lr : LaunchRecord) (n c st : Nat) : Option (Nat × Nat) :=
  match lr.boots[n]? with
  | none => none
  | some b => some (4096 * t.pbLo + bootOffset lr.boots n + b.size * bootCopy b.share c st, b.size)

/-- Pool offset of the end of the stack of strand `st` of core `c` (05 R137). -/
def stackTop (t : Tile) (lr : LaunchRecord) (c st : Nat) : Nat :=
  4096 * t.pbLo + bootOffset lr.boots lr.boots.length + lr.stack * (4 * c + st + 1)

/-- Pool offset of the first free scratch byte (05 R132 SCRATCH). -/
def scratchAt (t : Tile) (lr : LaunchRecord) : Nat :=
  4096 * t.pbLo + bootOffset lr.boots lr.boots.length + lr.stack * 16

/-- Index of the boot whose TRIG names a slot (05 R137). -/
def bootOfSlot (lr : LaunchRecord) (slot : Nat) : Option Nat := lr.boots.findIdx? (fun b => b.trig == slot + 1)

/-- Whether an image of the run is on the tile (05 R138). -/
def hasImage (s : State) (t : Nat) (run : BitVec 32) : Bool := (getTile s t).images.any (fun i => i.1 == run)

/-- The number of a run's image on a tile; 0 for none. -/
def imageId (s : State) (t : Nat) (run : BitVec 32) : Nat := (getTile s t).ids.get 0 run.toNat

/-- The tile on which an image stands. -/
def imageTile (s : State) (id : Nat) : Option Nat := (s.tiles.find? (fun e => e.2.ids.any (fun x => x.2 == id))).map (·.1)

/-- The tile of a Felt command's strand: where its image stands now, else where it was issued. -/
def cmdTile (s : State) (c : FeltCmd) : Nat := (imageTile s c.image).getD (c.strand / 16)

/-- The strand of a Felt command: it keeps its core and strand number on every tile (03 R93). -/
def cmdStrand (s : State) (c : FeltCmd) : Nat := 16 * cmdTile s c + c.strand % 16

/-! ## Full/empty bits and triggers (07 R200, 05 R144, R145) -/

/-- The slot of core `c` whose trigger lines contain the pool line, for a run with an image here. -/
def triggerSlot (t : Tile) (lr : LaunchRecord) (c line : Nat) : Option Nat :=
  (List.range 4).find? (fun slot =>
    match bootOfSlot lr slot with
    | none => false
    | some n =>
      match bootAt t lr n c 0 with
      | none => false
      | some (off, size) => decide (off ≤ 128 * line) && decide (128 * line < off + size))

/-- A trigger raised on a core: held, or dropped when 16 are held; the drop counts for every run with an image there (05 R132, R145). -/
def raiseOn (c : CoreUnit) (run : BitVec 32) (slot : Nat) (addr : Word) : CoreUnit :=
  if c.triggers.length < 16 then { c with triggers := c.triggers ++ [(run, slot, addr)] }
  else { c with dropped := c.dropped.map (fun d => (d.1, d.2 + 1)) }

/-- The run, core and slot of a tile's line, over the images on the tile. -/
def triggerOf (s : State) (tile line : Nat) : Option (BitVec 32 × Nat × Nat) :=
  let t := getTile s tile
  (t.images.flatMap (fun i => (List.range 4).filterMap (fun c =>
    (triggerSlot t (getRun s i.1).lr c line).map (fun slot => (i.1, c, slot))))).head?

/-- Sets the full/empty bit of a pool line; a change from empty to full of a trigger line raises one trigger. -/
def setFull (s : State) (tile line : Nat) : State :=
  if line ∈ (getTile s tile).full then s
  else
    let s1 := modTile s tile (fun t => { t with full := t.full ++ [line] })
    match triggerOf s tile line with
    | none => s1
    | some (run, c, slot) =>
      wakeCore (modCore s1 (4 * tile + c) (fun u => raiseOn u run slot (BitVec.ofNat 64 (windowBase + 128 * line)))) (4 * tile + c)

def isFull (s : State) (tile line : Nat) : Bool := decide (line ∈ (getTile s tile).full)

/-! ## Pool bytes -/

def poolRead (s : State) (tile off n : Nat) : List Byte := memRead (getTile s tile).pool off n

/-- Whether an uncorrectable error stands in one of the 64-bit words that `n` bytes touch: such an access takes MEM_UE, sub-code POOL
(06 R178). -/
def wordsHit (bad : List Nat) (off n : Nat) : Bool := bad.any (fun w => decide (off < 8 * w + 8) && decide (8 * w < off + n))

/-- The words with an error after a write of `n` bytes: a word written whole has none (DEDUCED, log 59). -/
def wordsLeft (bad : List Nat) (off n : Nat) : List Nat := bad.filter (fun w => !(decide (off ≤ 8 * w) && decide (8 * w + 8 ≤ off + n)))

/-- Whether a write of `n` bytes touches a word with an error without writing it whole, and so must read it. -/
def wordsTorn (bad : List Nat) (off n : Nat) : Bool := wordsHit (wordsLeft bad off n) off n

def poolWrite (s : State) (tile off : Nat) (bs : List Byte) : State :=
  modTile s tile (fun t => { t with pool := memWrite t.pool off bs, poolBad := wordsLeft t.poolBad off bs.length })

/-- Bytes of a pool zeroed. -/
def poolClear (t : Tile) (off n : Nat) : Tile := { t with pool := memClear t.pool off n, poolBad := wordsLeft t.poolBad off n }

/-- A SEND that a core of the tile holds for a line lands in it: payload, zeros, full (16 R390). -/
def landHeld (s : State) (tile line : Nat) : State :=
  let addr : Word := BitVec.ofNat 64 (windowBase + 128 * line)
  match (List.range 4).findSome? (fun c => ((getCore s (4 * tile + c)).held.find? (fun h => h.line == addr)).map (fun h => (4 * tile + c, h))) with
  | none => s
  | some (core, h) =>
    let s1 := modCore s core (fun u => { u with held := u.held.erase h })
    setFull (poolWrite s1 tile (128 * line) (vecBytes h.payload ++ List.replicate 64 0)) tile line

/-- Empties a line; a message held for it lands. -/
def clearFull (s : State) (tile line : Nat) : State := landHeld (modTile s tile (fun t => { t with full := without t.full line })) tile line

/-- Sets the full/empty bits of the lines that `n` bytes at a pool offset touch. -/
def setFullOver (s : State) (tile off n : Nat) : State :=
  (numbersFrom (off / 128) ((off + n - 1) / 128 + 1 - off / 128)).foldl (fun s l => setFull s tile l) s

/-- An engine's write into the pool: the bytes, then the full/empty bits of the lines it writes (07 R200). -/
def engineWrite (s : State) (tile off : Nat) (bs : List Byte) : State :=
  setFullOver (poolWrite s tile off bs) tile off bs.length

/-! ## Barrier objects (07 R202, R203) -/

/-- An update of a barrier word. -/
inductive BarUpdate where
  | arrive
  | expect (n : Nat)
  | land (n : Nat)
  | fail (code n : Nat)
  | arriveFail (code : Nat)
  deriving DecidableEq, Repr

/-- A command's failure code enters ERR if ERR is 0 (07 R203). -/
def barErr (w code : Nat) : Nat := if bits w 62 56 = 0 then setBits w 62 56 code else w

/-- An update applied to the barrier word, before the phase test (07 R203). -/
def barApply (w : Nat) (u : BarUpdate) : Nat :=
  match u with
  | .arrive => setBits w 55 32 (bits w 55 32 + 0xFFFFFF)
  | .expect n => setBits w 31 0 (bits w 31 0 + n)
  | .land n => setBits w 31 0 (bits w 31 0 + (0x100000000 - n % 0x100000000))
  | .fail code n =>
    let w := barErr w code
    setBits w 31 0 (bits w 31 0 + (0x100000000 - n % 0x100000000))
  | .arriveFail code =>
    let w := barErr w code
    setBits w 55 32 (bits w 55 32 + 0xFFFFFF)

/-- The whole update of R203: the phase flips, and the counts are loaded afresh, when both reach zero. -/
def barStep (w reload : Nat) (u : BarUpdate) : Nat :=
  let w := barApply w u
  if bits w 55 32 = 0 && bits w 31 0 = 0 then
    setBits (setBits (setBits w 63 63 (1 - bits w 63 63)) 55 32 (bits reload 23 0)) 31 0 0
  else w

/-- Reads the barrier word at a window address of a tile. -/
def barRead (s : State) (tile : Nat) (va : Word) : Nat := ofBytes (poolRead s tile (va.toNat - windowBase) 8)

/-- Updates the barrier object at a window address of a tile; address 0 names none (14 R415). -/
def barUpdate (s : State) (tile : Nat) (va : Word) (u : BarUpdate) : State :=
  if va = 0 then s
  else
    let off := va.toNat - windowBase
    let reload := ofBytes (poolRead s tile (off + 8) 8)
    poolWrite s tile off (leBytes 8 (barStep (barRead s tile va) reload u))

/-- A refusal or failure that names a barrier writes it; one that names none writes a HW record (01 R48 NO_BARRIER). -/
def barOrRecord (s : State) (tile : Nat) (va : Word) (u : BarUpdate) (sub : Nat) : State :=
  if va = 0 then logRecord s { cls := .hw, sub := sub, source := tileSource s tile } else barUpdate s tile va u

end Sys2Proof.Machine
end

