-- ==== Sys2Proof/Machine/Fec.lean ====
section
/-!
DEFINITION. The forward error correction of a flit: two interleaved Reed-Solomon codewords over 8-bit symbols with six parity symbols each,
each of which corrects three symbols (01 R19, R22). The manual gives neither the field nor the generator: the field polynomial 0x11D, the
roots α^0 to α^5 and the interleaving by even and odd bytes are PRESUMED (assumption log 9).
-/
namespace Sys2Proof.Machine

/-- A symbol times α. -/
def gfTwice (a : Nat) : Nat := if 128 ≤ a then (2 * a) ^^^ 0x11D else 2 * a

/-- The product of two symbols; `n` is 8 at the first call. -/
def gfTimes (n a b : Nat) : Nat :=
  match n with
  | 0 => 0
  | k + 1 => (if b % 2 = 1 then a else 0) ^^^ gfTimes k (gfTwice a) (b / 2)

def gfMul (a b : Nat) : Nat := gfTimes 8 a b

/-- α to the power `n`. -/
def gfExp (n : Nat) : Nat :=
  match n with
  | 0 => 1
  | k + 1 => gfTwice (gfExp k)

/-- The inverse of a symbol other than 0: its power 254. -/
def gfInv (a : Nat) : Nat :=
  ((List.range 7).foldl (fun (r : Nat × Nat) _ => let q := gfMul r.1 r.1; (q, gfMul r.2 q)) (a, 1)).2

/-- A polynomial at a symbol; the highest coefficient stands first. -/
def gfEval (cs : List Nat) (x : Nat) : Nat := cs.foldl (fun acc c => gfMul acc x ^^^ c) 0

/-- A polynomial times `x + r`. -/
def gfTimesRoot (cs : List Nat) (r : Nat) : List Nat := List.zipWith (· ^^^ ·) (cs ++ [0]) (0 :: cs.map (gfMul r))

/-- The generator's coefficients below its leading 1. -/
def rsGenerator : List Nat := (((List.range 6).map gfExp).foldl gfTimesRoot [1]).drop 1

/-- The six parity symbols of a codeword's message. -/
def rsParity (msg : List Nat) : List Nat :=
  msg.foldl (fun reg c =>
    let f := c ^^^ reg.headD 0
    List.zipWith (· ^^^ ·) (reg.drop 1 ++ [0]) (rsGenerator.map (gfMul f))) (List.replicate 6 0)

/-- The six syndromes of a word: all zero of a codeword. -/
def rsSyndromes (cw : List Nat) : List Nat := (List.range 6).map (fun j => gfEval cw (gfExp j))

/-- The locator of `n` errors, highest coefficient first, from the syndromes by Cramer's rule; `none` where it is not determined. -/
def rsLocator (s : List Nat) (n : Nat) : Option (List Nat) :=
  let at' := fun (i : Nat) => s.getD i 0
  let det2 := fun (a b c d : Nat) => gfMul a d ^^^ gfMul b c
  let det3 := fun (c0 c1 c2 : Nat → Nat) =>
    gfMul (c0 0) (det2 (c1 1) (c2 1) (c1 2) (c2 2)) ^^^ gfMul (c1 0) (det2 (c0 1) (c2 1) (c0 2) (c2 2))
      ^^^ gfMul (c2 0) (det2 (c0 1) (c1 1) (c0 2) (c1 2))
  let col := fun (j : Nat) (i : Nat) => at' (i + j)
  let solved := fun (d : Nat) (tops : List Nat) => if d = 0 then none else some (1 :: tops.map (fun t => gfMul t (gfInv d)))
  match n with
  | 1 => solved (at' 0) [at' 1]
  | 2 => solved (det2 (at' 0) (at' 1) (at' 1) (at' 2)) [det2 (at' 0) (at' 2) (at' 1) (at' 3), det2 (at' 2) (at' 1) (at' 3) (at' 2)]
  | 3 => solved (det3 (col 0) (col 1) (col 2)) [det3 (col 0) (col 1) (col 3), det3 (col 0) (col 3) (col 2), det3 (col 3) (col 1) (col 2)]
  | _ => none

/-- The errors of a locator's roots among the places of a word of `len` symbols: place and magnitude. -/
def rsErrors (s : List Nat) (locator : List Nat) (len : Nat) : List (Nat × Nat) :=
  let places := (List.range len).filter (fun d => gfEval locator (gfExp d) = 0)
  places.map (fun d =>
    let others := (without places d).foldl (fun cs e => gfTimesRoot cs (gfExp e)) [1]
    let sum := (List.zipWith gfMul others.reverse s).foldl (· ^^^ ·) 0
    (d, gfMul sum (gfInv (gfEval others (gfExp d)))))

/-- A word with errors taken out: place 0 is its last symbol. -/
def rsMended (cw : List Nat) (es : List (Nat × Nat)) : List Nat :=
  es.foldl (fun cw e => cw.set (cw.length - 1 - e.1) (cw.getD (cw.length - 1 - e.1) 0 ^^^ e.2)) cw

/-- The codeword within three symbols of a word, if there is one. -/
def rsCorrect (cw : List Nat) : Option (List Nat) :=
  let s := rsSyndromes cw
  if s.all (· == 0) then some cw
  else
    [1, 2, 3].findSome? (fun n =>
      match rsLocator s n with
      | none => none
      | some l =>
        let mended := rsMended cw (rsErrors s l cw.length)
        if (rsSyndromes mended).all (· == 0) then some mended else none)

/-- Every second item of a list, from the first. -/
def everySecond {α : Type} (l : List α) : List α :=
  match l with
  | [] => []
  | [a] => [a]
  | a :: _ :: rest => a :: everySecond rest

/-- Two lists of one length woven into one. -/
def weave {α : Type} (a b : List α) : List α :=
  match a, b with
  | x :: xs, y :: ys => x :: y :: weave xs ys
  | _, _ => []

/-- The symbols of the codeword of the even bytes, or of the odd ones. -/
def halfOf (bs : List Byte) (odd : Bool) : List Nat := (everySecond (if odd then bs.drop 1 else bs)).map BitVec.toNat

/-- The 12 parity bytes of a flit's bytes 0 to 243. -/
def fecParity (bs : List Byte) : List Byte := (weave (rsParity (halfOf bs false)) (rsParity (halfOf bs true))).map (BitVec.ofNat 8)

/-- Forward error correction of 256 bytes: a flit whose parity is right stands, three wrong symbols of each codeword are corrected, and what
becomes of any others is a free value (01 R19, R22; log 9). -/
def fecCorrect (raw : List Byte) : List Byte :=
  if raw.drop 244 = fecParity (raw.take 244) then raw
  else
    match rsCorrect (halfOf raw false), rsCorrect (halfOf raw true) with
    | some a, some b => (weave a b).map (BitVec.ofNat 8)
    | _, _ => Config.fecRepair raw

end Sys2Proof.Machine
end

