-- ==== Sys2Proof/Machine/Depot.lean ====
section
/-!
DEFINITION. Packets leaving the device, the depots with their directory, the sectors of HBM, the cluster L2, and the waybill maps that
depots mark (01 R21-R30, 06 R177-R187, 08 R218).
-/
namespace Sys2Proof.Machine

/-! ## Routing (01 R25-R30, R35) -/

/-- The routing entry of a destination in the active bank. -/
def routeEntry (s : State) (dest : Nat) : Nat :=
  ((if s.link.active then s.link.bank1 else s.link.bank0).get 0 dest).toNat

def getPort (s : State) (p : Nat) : Port := s.ports.toList.getD p {}
def setPort (s : State) (p : Nat) (f : Port → Port) : State :=
  { s with ports := s.ports.mapIdx (fun i x => if i = p then f x else x) }
def portUp (s : State) (p : Nat) : Bool := decide ((getPort s p).state = 2)

/-- Live ports of an entry's PortSet, in increasing order. -/
def livePorts (s : State) (e : Nat) : List Nat := (List.range 36).filter (fun p => e.testBit p && portUp s p)

/-- An entry routes when V is 1 and OPort is a port of PortSet (01 R25). -/
def entryRoutes (e : Nat) : Bool := e.testBit 63 && decide (bits e 62 57 ≤ 35) && e.testBit (bits e 62 57)

/-- The class-O port of a routing entry: OPort while it is up, else the lowest live port of PortSet (01 R27, R35). An OPort that is DOWN
or TRAINING without having been declared failed is treated as a failed one: DESIGN CHOICE (log 42). -/
def entryPort (s : State) (e : Nat) : Option Nat :=
  if entryRoutes e then (if portUp s (bits e 62 57) then some (bits e 62 57) else (livePorts s e).head?) else none

/-- The class-O port of a destination in the active bank. -/
def classOPort (s : State) (dest : Nat) : Option Nat := entryPort s (routeEntry s dest)

def hasRoute (s : State) (dest : Nat) : Bool := (classOPort s dest).isSome

/-- Opcodes of class U (06 R181, R184). -/
def classU (op : Nat) : Bool := op = 0x03 || op = 0x08 || op = 0x13

/-- The active key table (01 R26). -/
def keyTable (s : State) : List Nat :=
  (List.range 8).map (fun k => ((if s.link.active then s.link.keys1 else s.link.keys0).get 0 k).toNat)

/-- Whether a key matches a valid entry; 0 never matches (01 R26). -/
def keyAccepted (s : State) (key : Nat) : Bool :=
  !(key = 0) && (keyTable s).any (fun e => e.testBit 63 && bits e 15 0 = key)
def keyManages (s : State) (key : Nat) : Bool :=
  !(key = 0) && (keyTable s).any (fun e => e.testBit 63 && e.testBit 62 && bits e 15 0 = key)
/-- The key of the lowest-numbered valid entry with MGMT set (01 R37). -/
def mgmtKey (s : State) : Option Nat := ((keyTable s).find? (fun e => e.testBit 63 && e.testBit 62)).map (fun e => bits e 15 0)

/-- A packet of this device. One that no context sends (SNP, INV, TRINV, CHARGE) has context 0 here, and so the key of that context's
partition: 01 R28 names no other, a DESIGN CHOICE (log 60). -/
def newPacket (s : State) (dest : Nat) (ctx : BitVec 32) (op : Nat) (ack : Bool) (tag : Nat) (body : List Byte) : Packet :=
  { dest := BitVec.ofNat 16 dest, src := BitVec.ofNat 16 (devnum s), key := Config.partitionKey (getCtx s ctx).part,
    fareTag := (getCtx s ctx).fareTag, opcode := BitVec.ofNat 8 op, flags := if ack then 1 else 0,
    length := BitVec.ofNat 16 body.length, tag := BitVec.ofNat 32 tag, body := body }

/-- The bytes of a packet (01 R21). -/
def packetBytes (p : Packet) : List Byte :=
  leBytes 2 p.dest.toNat ++ leBytes 2 p.src.toNat ++ leBytes 2 p.key.toNat ++ leBytes 2 p.fareTag.toNat ++ [p.opcode, p.flags]
    ++ leBytes 2 p.length.toNat ++ leBytes 4 p.tag.toNat ++ p.body

/-- A packet read from its bytes. -/
def packetOfBytes (bs : List Byte) : Packet :=
  { dest := BitVec.ofNat 16 (fieldAt bs 0 2), src := BitVec.ofNat 16 (fieldAt bs 2 2), key := BitVec.ofNat 16 (fieldAt bs 4 2),
    fareTag := BitVec.ofNat 16 (fieldAt bs 6 2), opcode := BitVec.ofNat 8 (fieldAt bs 8 1), flags := BitVec.ofNat 8 (fieldAt bs 9 1),
    length := BitVec.ofNat 16 (fieldAt bs 10 2), tag := BitVec.ofNat 32 (fieldAt bs 12 4),
    body := (bs.drop 16).take (fieldAt bs 10 2) }

/-- Bitwise CRC-32 with the reflected polynomial of IEEE 802.3 (01 R19, 02 R67): one byte. -/
def crcByte (crc : Nat) (n : Nat) : Nat :=
  match n with
  | 0 => crc
  | k + 1 => crcByte (if crc % 2 = 1 then (crc / 2) ^^^ 0xEDB88320 else crc / 2) k

/-- CRC-32 of a byte list, initial value and final XOR all ones. -/
def crc32 (bs : List Byte) : Nat := (bs.foldl (fun c b => crcByte (c ^^^ b.toNat) 8) 0xFFFFFFFF) ^^^ 0xFFFFFFFF

/-- A flit from its header word and payload (01 R19, R20). -/
def makeFlit (header : Nat) (payload : List Byte) : List Byte :=
  let front := leBytes 8 header ++ padTo 232 payload
  let upto := front ++ leBytes 4 (crc32 front)
  upto ++ fecParity upto

def flitHeader (typ cls seq ack hdrOff : Nat) : Nat :=
  typ * 2 ^ 60 + cls * 2 ^ 59 + seq % 4096 * 2 ^ 47 + ack % 4096 * 2 ^ 35 + hdrOff * 2 ^ 30

/-- Splits a packet into payloads of 232 bytes; `n` bounds the pieces. -/
def pieces (n : Nat) (bs : List Byte) : List (List Byte) :=
  match n with
  | 0 => []
  | k + 1 => if bs.isEmpty then [] else bs.take 232 :: pieces k (bs.drop 232)

/-- A port by its number. -/
def portNumber (p : Nat) : Fin 36 := ⟨p % 36, Nat.mod_lt _ (by decide)⟩

/-- The bytes of a kept flit as a port sends it now: AckSeq is the highest Seq that the port has received in order (01 R23). -/
def flitBytes (x : Port) (f : KeptFlit) : List Byte := makeFlit (flitHeader 1 f.cls f.seq x.rxSeq f.hdrOff) f.payload

/-- One DATA flit of a port: numbered, kept for replay, sent unless a retrain holds it; the first flit kept starts the timers of R22 and
R24 (01 R17, R22-R24). -/
def putFlit (s : State) (p : Nat) (cls hdrOff : Nat) (payload : List Byte) : State :=
  let port := getPort s p
  let f : KeptFlit := { seq := (port.txSeq + 1) % 4096, cls := cls, hdrOff := hdrOff, payload := payload, since := if port.retrain then none else some s.now }
  let s1 := setPort s p (fun x =>
    { x with
      txSeq := f.seq
      kept := x.kept ++ [f]
      ackTick := if x.kept.isEmpty then s.now else x.ackTick
      ackSent := if x.retrain then x.ackSent else x.rxSeq
      ackDue := x.ackDue && x.retrain })
  let s2 := { s1 with linkOut := s.linkOut ++ if port.retrain then [] else [.flit p (flitBytes port f)] }
  if port.kept.isEmpty then later s2 [.replayTimeout (portNumber p), .linkRetryBound (portNumber p)] else s2

/-- A flit to be sent: 2,048 are kept at most, and a further one waits until an acknowledgement makes room. The wait is a DESIGN CHOICE:
R22 gives the number kept and not what a sender does with one more (log 41). -/
def sendFlit (s : State) (p : Nat) (cls hdrOff : Nat) (payload : List Byte) : State :=
  let port := getPort s p
  if port.queued.isEmpty && decide (port.kept.length < 2048) then putFlit s p cls hdrOff payload
  else setPort s p (fun x => { x with queued := x.queued ++ [(cls, hdrOff, payload)] })

/-- A packet that requires an acknowledgement has left by a port: this device's own request, or a class-O packet in transit
(01 R30, R35). -/
def noteSent (s : State) (p : Nat) (pk : Packet) : State :=
  if !pk.flags.getLsbD 0 then s
  else if pk.src.toNat % 8192 = devnum s then
    { s with requests := s.requests.map (fun r =>
        if r.1 = pk.tag.toNat && r.2.dev = pk.dest.toNat % 8192 then (r.1, { r.2 with port := some p }) else r) }
  else if classU pk.opcode.toNat then s
  else
    { s with link := { s.link with
        transit := s.link.transit ++ [{ src := pk.src.toNat % 8192, dest := pk.dest.toNat % 8192, tag := pk.tag, port := p, since := s.now }] } }

/-- A packet leaves by a port, in flits of its own (assumption log 11). -/
def sendFrom (s : State) (p : Nat) (pk : Packet) : State :=
  let s1 := noteSent { s with linkOut := s.linkOut ++ [.packet p pk] } p pk
  let cls := if classU pk.opcode.toNat then 1 else 0
  ((pieces 20 (packetBytes pk)).foldl (fun (acc : State × Bool) b => (sendFlit acc.1 p cls (if acc.2 then 0 else 31) b, false)) (s1, true)).1

/-- A packet for another device: class O by the class-O port, held while a hold is open with the routing entry that it was looked up
by; class U by some live port (01 R25, R27, R30). Without a route nothing leaves. -/
def sendPacket (s : State) (pk : Packet) : State :=
  let dest := pk.dest.toNat % 8192
  if classU pk.opcode.toNat then
    let live := if entryRoutes (routeEntry s dest) then livePorts s (routeEntry s dest) else []
    match live[Config.freePort s.free % live.length]? with
    | some p => sendFrom { s with free := s.free + 1 } p pk
    | none => s
  else if dest ∈ s.link.holds then { s with link := { s.link with heldPackets := s.link.heldPackets ++ [(routeEntry s dest, pk)] } }
  else
    match classOPort s dest with
    | some p => sendFrom s p pk
    | none => s

/-- A request with a fresh tag: remembered until its reply, and sent (06 R183, R191). -/
def sendRequest (s : State) (dev : Nat) (agent : Option Agent) (kind : ReqKind) (addr : Word) (ctx : BitVec 32) (op : Nat)
    (body : List Byte) : State × Nat :=
  let tag := s.nextTag
  let r : Request :=
    { dev := dev, agent := agent, kind := kind, addr := addr, ctx := ctx, classO := !classU op, since := s.now, pa := fieldAt body 0 6 / 64 * 64,
      granules := if op = 0x13 then fieldAt body 16 2 / 64 else 1 }
  let s1 := later { s with requests := s.requests.set tag r, nextTag := tag % 0xFFFFFFFF + 1 } [.requestTimeout tag]
  let s2 := modCtx s1 ctx (fun c => { c with touched := with1 c.touched dev })
  (sendPacket s2 (newPacket s2 dev ctx op true tag body), tag)

/-- A request word (06 R182). -/
def requestWord (s : State) (dev pa : Nat) (ctx : BitVec 32) (key : BitVec 8) (size : Nat) (rel acq : Bool) : List Byte :=
  leBytes 6 pa ++ leBytes 2 (s.ostler.believed.get 0 dev).toNat ++ leBytes 4 ctx.toNat ++ leBytes 2 (getCtx s ctx).generation.toNat
    ++ [key, BitVec.ofNat 8 (size + (if rel then 128 else 0) + if acq then 64 else 0)]

/-- The reply body of R183. -/
def replyBody (s : State) (reqWord : List Byte) (status sub code value : Nat) : List Byte :=
  padTo 16 reqWord ++ [BitVec.ofNat 8 status, BitVec.ofNat 8 sub] ++ leBytes 2 s.ostler.epoch.toNat ++ [BitVec.ofNat 8 code, 0, 0, 0]
    ++ leBytes 8 value

/-- Opcodes whose body begins with a request word (06 R181, R184). -/
def hasRequestWord (op : Nat) : Bool := (1 ≤ op && op ≤ 8) || op = 0x0A || op = 0x13

/-- A reply to a packet: its Tag, with Src and Dest exchanged (06 R183). It carries the key and the FareTag of the packet answered, and asks
for no acknowledgement itself, class O or not: both are DESIGN CHOICES (01 R28 speaks of a sending context; log 60). -/
def replyTo (s : State) (p : Packet) (op : Nat) (body : List Byte) : State :=
  sendPacket s { p with dest := p.src, src := p.dest, opcode := BitVec.ofNat 8 op, flags := 0,
                        length := BitVec.ofNat 16 body.length, body := body }

def acknowledge (s : State) (p : Packet) (reqWord : List Byte) (status sub code value : Nat) : State :=
  replyTo s p 0x09 (replyBody s reqWord status sub code value)

/-- A store of a strand that awaits its acknowledgement. -/
def isStore (k : ReqKind) : Bool :=
  match k with
  | .store _ => true
  | _ => false

/-- A request that writes memory of its device. -/
def isWrite (k : ReqKind) : Bool :=
  match k with
  | .store _ | .amo | .engine _ _ => true
  | _ => false

/-- Whether a write of this device to a granule of another device has no reply yet. While one is out no agent of the package reads or
writes the granule there, so that every store is ordered before what any of them does after it (07 R194 to R197). -/
def writeOut (s : State) (dev pa : Nat) : Bool :=
  s.requests.any (fun e => isWrite e.2.kind && e.2.dev == dev && decide (e.2.pa / 64 ≤ pa / 64) && decide (pa / 64 < e.2.pa / 64 + e.2.granules))

/-- Reads under way to a device's granules bring data that no cache keeps. -/
def staleReads (s : State) (p : Request → Bool) : State :=
  { s with requests := s.requests.map (fun r => if p r.2 then (r.1, { r.2 with stale := true }) else r) }

/-- `n` granules of another device are about to be written: no cache of the package keeps its copy of them, or one that is on its way (07
R195). -/
def forgetFar (s : State) (dev pa n : Nat) : State :=
  let hit := fun (d a : Nat) => d == dev && decide (pa / 64 ≤ a / 64) && decide (a / 64 < pa / 64 + n)
  staleReads { s with l2 := s.l2.filter (fun l => !hit l.dev l.pa) } (fun r => hit r.dev r.pa)

/-! ## Physical memory (06 R159, R178, R180) -/

/-- First byte past HBM. -/
def hbmSize : Nat := 0x14000000000
/-- Depot control window (06 R188). -/
def depotWindow : Nat := 0xF0000000000

def populated (pa : Nat) : Bool := decide (pa < hbmSize) || (decide (depotWindow ≤ pa) && decide (pa < depotWindow + 0x10000))

def sectorOf (s : State) (g : Nat) : Sector := s.sectors.get {} g
def modSector (s : State) (g : Nat) (f : Sector → Sector) : State := { s with sectors := s.sectors.set g (f (sectorOf s g)) }
def dirOf (s : State) (g : Nat) : DirEntry := s.dir.get {} g
def modDir (s : State) (g : Nat) (f : DirEntry → DirEntry) : State := { s with dir := s.dir.set g (f (dirOf s g)) }

/-- Whether a cluster's partition is under reset (02 R78, 06 R186). -/
def clusterResetting (s : State) (c : Nat) : Bool := s.host.resetting.getLsbD (partOfCluster s c)

/-- The line by which a local cluster holds a home granule. -/
def lineOfHome (s : State) (c g : Nat) : Option L2Line :=
  s.l2.find? (fun l => l.cluster == c && l.dev == devnum s && l.pa == 64 * g)

/-- Outcome of a depot's service: done, refused with a fault code and sub-code, or waiting for a snoop. -/
inductive Served (α : Type) where
  | ok (a : α) (s : State)
  | bad (code sub : Nat) (s : State)
  | busy (s : State)

/-- What a read of a sector returns, and the record it writes (06 R178, R180): a mark takes POISON, then the ECC, then the tag. The record
of an uncorrectable error is a FAULT record of MEM_UE, sub-code HBM, with flag bit 0: R48 gives HW no sub-code for it (log 47). -/
def readSector (s : State) (g : Nat) (key : BitVec 8) : Served Vec :=
  let m := sectorOf s g
  if m.derelict then .bad 0x07 0x04 s
  else if m.poisoned then .bad 0x07 0x02 s
  else if m.uncorrectable then
    .bad 0x08 0x01 (logRecord s { cls := .fault, code := 0x08, sub := 1, flags := 1, source := depotSource (64 * g), addr := 64 * g })
  else
    let s1 := if m.corrected then logRecord s { cls := .hw, flags := 2, sub := 4, source := depotSource (64 * g), addr := 64 * g } else s
    if m.key = key then .ok (vecOfBytes (memRead s.hbm (64 * g) 64)) s1 else .bad 0x09 0x01 s1

/-- A whole-sector write: data under a key, ECC and tag computed anew, the data mark cleared (06 R178, R180). -/
def writeSector (s : State) (g : Nat) (key : BitVec 8) (v : Vec) : State :=
  modSector { s with hbm := memWrite s.hbm (64 * g) (vecBytes v) } g
    (fun m => { m with key := key, uncorrectable := false, corrected := false, poisoned := false })

/-- Physical bytes as the package's agents see them: a cluster's owned copy, else memory. -/
def physByte (s : State) (pa : Nat) : Byte :=
  match s.l2.find? (fun l => l.owned && l.dev == devnum s && l.pa == pa / 64 * 64) with
  | some l => BitVec.ofNat 8 (l.data.toNat / 2 ^ (8 * (pa % 64)))
  | none => memGet s.hbm pa

def physRead (s : State) (pa n : Nat) : List Byte := (List.range n).map (fun i => physByte s (pa + i))

/-- One byte of a vector replaced. -/
def vecSetByte (v : Vec) (i : Nat) (b : Byte) : Vec := BitVec.ofNat 512 (setBits v.toNat (8 * i + 7) (8 * i) b.toNat)

/-- Hardware's own write of a physical byte: memory and every cached copy take it at once. -/
def physPoke (s : State) (pa : Nat) (b : Byte) : State :=
  { s with hbm := memSet s.hbm pa b
           l2 := s.l2.map (fun l => if l.dev == devnum s && l.pa == pa / 64 * 64 then { l with data := vecSetByte l.data (pa % 64) b } else l) }

def physWrite (s : State) (pa : Nat) (bs : List Byte) : State :=
  ((List.range bs.length).zip bs).foldl (fun s e => physPoke s (pa + e.1) e.2) s

/-- The same under a key slot, which the sectors' tags then carry. -/
def physWriteKey (s : State) (pa : Nat) (key : BitVec 8) (bs : List Byte) : State :=
  (numbersFrom (pa / 64) ((pa + bs.length + 63) / 64 - pa / 64)).foldl (fun s g => modSector s g (fun m => { m with key := key })) (physWrite s pa bs)

/-! ## The walk (06 R165, R166) -/

/-- Outcome of a walk: device, physical address, key, page size and the leaf; a fault with the entry that caused it; an entry with MIG
set and its address; a granule whose owner is on another device; a granule of a node whose sector cannot be read. -/
inductive WalkRes where
  | ok (dev pa : Nat) (key : BitVec 8) (size pte : Nat)
  | fault (code sub : Nat) (entry : Nat)
  | mig (entry ea : Nat)
  | busy (granule : Nat)
  | bad (granule : Nat)

/-- A granule whose value its depot must wait for: another device owns it, or the depot serves another request for it (06 R185). -/
def heldElsewhere (s : State) (g : Nat) : Bool :=
  let d := dirOf s g
  d.snooping || decide (0 < d.invs) || !d.waiting.isEmpty || d.ownerDev.isSome || (d.st == .owned && d.clusters.any (clusterResetting s))

/-- The copy of a granule that a cluster of this device owns. -/
def ownedLine (s : State) (g : Nat) : Option L2Line := s.l2.find? (fun l => l.owned && l.dev == devnum s && l.pa == 64 * g)

/-- What a reader at the depot gets of a granule, and what its read leaves: a local cluster's owned copy, whose errors show as at any use,
else the sector (06 R178, R180). -/
def homeRead (s : State) (g : Nat) (key : BitVec 8) : Served Vec :=
  match ownedLine s g with
  | some l =>
    if l.poison || (l.bad && l.dirty) then .bad 0x07 0x02 s
    else if l.bad then
      readSector (logRecord { s with l2 := s.l2.erase l } { cls := .hw, flags := 2, sub := 5, source := clusterSource l.cluster, addr := 64 * l.vline }) g key
    else .ok l.data s
  | none => readSector s g key

/-- `n` bytes from byte `off` of a granule on. -/
def vecField (v : Vec) (off n : Nat) : List Byte := ((vecBytes v).drop off).take n

/-- NodeRead of R166: 8 bytes at their depot, with every store visible at PACKAGE scope (key slot 0, assumption log 7). -/
def nodeRead (s : State) (pa : Nat) : Except WalkRes Nat :=
  let g := pa / 64
  if heldElsewhere s g then .error (.busy g)
  else
    match homeRead s g 0 with
    | .ok v _ => .ok (ofBytes (vecField v (pa % 64) 8))
    | .bad _ _ _ => .error (.bad g)
    | .busy _ => .error (.busy g)

/-- What the read of a node leaves (06 R180). -/
def nodeNote (s : State) (g : Nat) : State :=
  match homeRead s g 0 with
  | .ok _ s1 => s1
  | .bad _ _ s1 => s1
  | .busy s1 => s1

/-- The fault code and sub-code of a node that cannot be read, with the record that its read writes (06 R178, R180). -/
def nodeFault (s : State) (g : Nat) : Nat × Nat × State :=
  match homeRead s g 0 with
  | .bad code sub s1 => (code, sub, s1)
  | .ok _ s1 => (0x08, 0x01, s1)
  | .busy s1 => (0x08, 0x01, s1)

/-- The walk from a node over the levels that remain, each with its low and high index bits (06 R166). -/
def walkFrom (s : State) (va node lvl : Nat) (levels : List (Nat × Nat)) : WalkRes :=
  match levels with
  | [] => .fault 0x06 0x04 0
  | (lo, hi) :: rest =>
    match nodeRead s (node + 8 * bits va hi lo) with
    | .error r => r
    | .ok e =>
      if e.testBit 61 then .mig e (node + 8 * bits va hi lo)
      else if !e.testBit 63 then .fault 0x05 0x01 e
      else
        let leaf := e.testBit 62
        let rem := e.testBit 60
        if !(bits e 46 44 = 0) || !(bits e 2 0 = 0) || (lvl = 0 && leaf) || (lvl = 3 && !leaf) || (!rem && !(bits e 59 47 = 0)) then
          .fault 0x06 0x04 e
        else if !leaf then
          if !(bits e 11 4 = 0) then .fault 0x06 0x04 e
          else if rem && !(bits e 59 47 = devnum s) then .fault 0x06 0x02 e
          else if e.testBit 3 then .fault 0x06 0x01 e
          else walkFrom s va (bits e 43 12 * 4096) (lvl + 1) rest
        else if e.testBit 3 || !(bits e (lo - 1) 12 = 0) then .fault 0x06 0x04 e
        else
          let dev := if rem then bits e 59 47 else devnum s
          let pa := bits e 43 lo * 2 ^ lo + bits va (lo - 1) 0
          if dev = devnum s && !populated pa then .fault 0x06 0x04 e
          else .ok dev pa (BitVec.ofNat 8 (bits e 11 4)) (2 ^ lo) e

/-- The page-table walk of a virtual address (06 R166). -/
def walk (s : State) (va : Nat) : WalkRes :=
  walkFrom s va (bits s.ostler.trBase.toNat 43 21 * 2 ^ 21) 0 [(39, 56), (30, 38), (21, 29), (16, 20)]

/-- What the reads of a walk leave, from a node on: the record of each node whose sector needed a correction (06 R180). -/
def walkNotes (s : State) (va node : Nat) (levels : List (Nat × Nat)) : State :=
  match levels with
  | [] => s
  | (lo, hi) :: rest =>
    let ea := node + 8 * bits va hi lo
    match nodeRead s ea with
    | .error _ => s
    | .ok e => if e.testBit 61 || !e.testBit 63 || e.testBit 62 then nodeNote s (ea / 64) else walkNotes (nodeNote s (ea / 64)) va (bits e 43 12 * 4096) rest

/-- The state after the walk of an address. -/
def walked (s : State) (va : Nat) : State :=
  walkNotes s va (bits s.ostler.trBase.toNat 43 21 * 2 ^ 21) [(39, 56), (30, 38), (21, 29), (16, 20)]

/-! ## Waybill maps (08 R211, R218) -/

/-- `n` rounded up to a multiple of 4,096. -/
def up4k (n : Nat) : Nat := (n + 4095) / 4096 * 4096

/-- Number of watched swatches. -/
def watchCount (lr : LaunchRecord) : Nat := (lr.watch.map (·.2)).sum

/-- Watched index of a swatch number, if it is watched; no address at or above 2^52 is (08 R209). -/
def watchIndex (watch : List (Nat × Nat)) (sw : Nat) : Option Nat :=
  match watch with
  | [] => none
  | (base, len) :: rest =>
    if base / 4096 ≤ sw ∧ sw < base / 4096 + len ∧ sw < 2 ^ 40 then some (sw - base / 4096)
    else (watchIndex rest sw).map (· + len)

/-- Blocks a record declares (05 R131). -/
def blockCount (lr : LaunchRecord) : Nat := (lr.levels.map (·.count)).foldl (· * ·) 1

/-- Offset of map `k` of the region: dirty maps 0 and 1, round maps 2 and 3 (08 R211). -/
def mapOffset (lr : LaunchRecord) (k : Nat) : Nat :=
  0x1000 + up4k (128 * blockCount lr) + k * up4k ((watchCount lr + 7) / 8)

/-- STATE of a waybill status word (08 R212). -/
def wbState (w : Word) : Nat := bits w.toNat 63 61

/-- A write of the region, cut where the region's addresses enter another 64 KiB page: each piece has a translation of its own. -/
def regionPieces (base off : Nat) (bs : List Byte) (into : Bool) (fuel : Nat) : List RegionWrite :=
  match fuel with
  | 0 => []
  | k + 1 =>
    let here := 65536 - (base + off) % 65536
    if bs.length ≤ here then [{ off := off, bytes := bs, into := into }]
    else { off := off, bytes := bs.take here, into := into } :: regionPieces base (off + here) (bs.drop here) into k

def parkWrite (s : State) (run : BitVec 32) (off : Nat) (bs : List Byte) (into : Bool) : State :=
  modRun s run (fun r => { r with parked := r.parked ++ regionPieces r.lr.wbBase off bs into (bs.length / 65536 + 2) })

/-- A write of the region by hardware: made, in order, when the step is over (`regionsOut`). -/
def regionWrite (s : State) (run : BitVec 32) (off : Nat) (bs : List Byte) : State := parkWrite s run off bs false

/-- Bits set in the region. -/
def regionOr (s : State) (run : BitVec 32) (off : Nat) (bs : List Byte) : State := parkWrite s run off bs true

/-- Sets the bit of watched swatch `j` in map `k` of a run. -/
def markBit (s : State) (run : BitVec 32) (k j : Nat) : State :=
  regionOr s run (mapOffset (getRun s run).lr k + j / 8) [BitVec.ofNat 8 (2 ^ (j % 8))]

/-- The map that a write by run `tag` (0: none) marks: the round map while that run is relaunching, else the live map (08 R218). -/
def markedMap (r : Run) (run tag : BitVec 32) : Nat :=
  match r.relaunch with
  | some (_, round, _, _) => if tag = run then 2 + round % 2 else (bits r.wbWord.toNat 60 60)
  | none => bits r.wbWord.toNat 60 60

/-- Marks, for one run, the watched swatches that a physical granule of this device holds. -/
def markRun (s : State) (run : BitVec 32) (r : Run) (g : Nat) (tag : BitVec 32) : State :=
  if wbState r.wbWord = 0 then s
  else
    r.armed.foldl (fun s e =>
      match e.2 with
      | none => s
      | some base =>
        if base ≤ 64 * g ∧ 64 * g < base + 0x10000 then
          match watchIndex r.lr.watch (e.1 * 16 + (64 * g - base) / 4096) with
          | some j => markBit s run (markedMap r run tag) j
          | none => s
        else s) s

/-- A depot grants exclusive ownership of, or applies a write to, a granule: the waybill maps take it (08 R218). -/
def markMaps (s : State) (g : Nat) (tag : BitVec 32) : State :=
  s.runs.foldl (fun s e => markRun s (BitVec.ofNat 32 e.1) e.2 g tag) s

/-! ## Directory and snoops (06 R185-R187) -/

/-- Packets that waited for a granule go back to be served, in arrival order. -/
def packetEvent (p : Packet) : Instr :=
  if p.opcode = 0x01 then .rd p
  else if p.opcode = 0x02 then .rdx p
  else if p.opcode = 0x03 then .wr p
  else if p.opcode = 0x04 then .amoPacket p
  else if p.opcode = 0x13 then .draywr p
  else if p.opcode = 0x0F then .notice p
  else .wb p

/-- Requests that waited for a granule take POISON; the reply to one that carries no request word has zeros for it (06 R183, R187). -/
def poisonWaiting (s : State) (ps : List Packet) : State :=
  ps.foldl (fun s p => acknowledge s p (if hasRequestWord p.opcode.toNat then p.body.take 16 else []) 1 4 0 0) s

/-- An entry becomes DERELICT, once (06 R187). The copy of a local owner that did not answer is invalid: its late answer would be discarded
and INV sent to it (R186). -/
def makeDerelict (s : State) (g : Nat) (owner : Nat) : State :=
  let d := dirOf s g
  if d.st == .derelict then s
  else
    let s1 := modSector { s with l2 := s.l2.filter (fun l => !(l.dev == devnum s && l.pa == 64 * g)) } g (fun m => { m with derelict := true })
    let s2 := modDir s1 g (fun _ => { st := .derelict, clusters := d.clusters, ownerDev := d.ownerDev })
    let s3 := poisonWaiting s2 d.waiting
    let s4 := logRecord s3 { cls := .hw, sub := 3, source := depotSource (64 * g), addr := 64 * g, detail := leBytes 4 owner }
    { s4 with depot := { s4.depot with drlCnt := s4.depot.drlCnt + 1 } }

/-- A line written back to its local home; a late writeback into a DERELICT entry does not land (06 R178, R186). -/
def writeBack (s : State) (l : L2Line) : State :=
  let g := l.pa / 64
  if !l.dirty || !(l.dev = devnum s) || (dirOf s g).st == .derelict then s
  else
    let s1 := writeSector s g l.key l.data
    l.tags.foldl (fun s tag => markMaps s g tag) (if l.poison || l.bad then modSector s1 g (fun m => { m with poisoned := true }) else s1)

def dropLine (s : State) (c g dev : Nat) : State :=
  { s with l2 := s.l2.filter (fun l => !(l.cluster == c && l.pa == 64 * g && l.dev == dev)) }

/-- A cluster gives up a line: written back if dirty, dropped, and out of the directory. -/
def evictLine (s : State) (l : L2Line) : State :=
  let g := l.pa / 64
  let s1 := dropLine (writeBack s l) l.cluster g l.dev
  if l.dev = devnum s && !((dirOf s1 g).st == .derelict) then
    modDir s1 g (fun d =>
      let cl := without d.clusters l.cluster
      { d with clusters := cl, st := if cl.isEmpty && d.remotes.isEmpty && !d.wide && d.ownerDev.isNone then .uncached else if d.st == .owned then .shared else d.st })
  else s1

/-- A snoop is out: its time-out of DTMO µs runs (06 R186). -/
def awaitSnoop (s : State) (g : Nat) : State :=
  later (modDir s g (fun d => { d with snooping := true, snoopTick := s.now })) [.snoopTimeout g]

/-- The depot's snoop of a local owner: HIT writes the data and leaves the copy shared; MISS makes the entry DERELICT; a cluster under
reset answers nothing yet (06 R186). -/
def snoopLocal (s : State) (g c : Nat) : Served Unit :=
  if clusterResetting s c then .busy (awaitSnoop s g)
  else
    match lineOfHome s c g with
    | some l =>
      let s1 := writeBack s l
      let s2 := { s1 with l2 := s1.l2.map (fun x => if x.cluster == c && x.pa == 64 * g && x.dev == devnum s then { x with owned := false, dirty := false, poison := x.poison || (x.bad && x.dirty), bad := x.bad && !x.dirty } else x) }
      .ok () (modDir s2 g (fun d => { d with st := .shared }))
    | none => .bad 0x07 0x04 (makeDerelict s g c)

/-- Sends SNP for a granule that another device owns and waits for the answer (06 R186). -/
def snoopRemote (s : State) (g dev : Nat) : Served Unit :=
  let (s1, _) := sendRequest s dev none (.snoop g) (BitVec.ofNat 64 (64 * g)) 0 0x06 (requestWord s dev (64 * g) 0 (sectorOf s g).key 6 false false)
  .busy (awaitSnoop s1 g)

/-- Brings a granule to a state in which no one but `keep` owns it. The depot serves one request for it at a time, in arrival order: it is
busy while a snoop or an invalidation is out, or an earlier packet waits (06 R185). A request of this device's own agents and engines that
finds it busy has not arrived yet: it comes again, and arrives when it finds the depot free (DESIGN CHOICE, log 61). -/
def settle (s : State) (g : Nat) (keep : Option Nat) : Served Unit :=
  let d := dirOf s g
  if d.st == .derelict then .bad 0x07 0x04 s
  else if d.snooping || decide (0 < d.invs) || !d.waiting.isEmpty then .busy s
  else
    match d.ownerDev with
    | some dev => snoopRemote s g dev
    | none =>
      if d.st == .owned then
        match d.clusters.head? with
        | some c => if keep = some c then .ok () s else snoopLocal s g c
        | none => .ok () s
      else .ok () s

/-- Invalidates every copy but `keep`'s: local copies at once, other devices by INV, whose acknowledgements are awaited (06 R185). -/
def invalidate (s : State) (g : Nat) (keep : Option Nat) : Served Unit :=
  let d := dirOf s g
  if 0 < d.invs then .busy s
  else
    let s1 := { s with l2 := s.l2.filter (fun l => !(l.pa == 64 * g && l.dev == devnum s && !(keep == some l.cluster))) }
    let cl := d.clusters.filter (fun c => keep == some c)
    let others := if d.wide then (List.range 8192).filter (fun dev => !(dev = devnum s) && hasRoute s dev) else d.remotes
    if others.isEmpty then
      .ok () (modDir s1 g (fun d => { d with clusters := cl, wide := false, remotes := [], st := if cl.isEmpty then .uncached else d.st }))
    else
      let s2 := others.foldl (fun s dev =>
        (sendRequest s dev none (.invalidate g) (BitVec.ofNat 64 (64 * g)) 0 0x0A (requestWord s dev (64 * g) 0 (sectorOf s g).key 6 false false)).1) s1
      .busy (modDir s2 g (fun d => { d with clusters := cl, wide := false, remotes := [], invs := others.length }))

/-- A reader waits for a granule of a table that its depot is bringing home. -/
def nodeWait {α : Type} (s : State) (g : Nat) : Served α :=
  match settle s g none with
  | .ok _ s1 => .busy s1
  | .bad code sub s1 => .bad code sub s1
  | .busy s1 => .busy s1

/-- Physical bytes in one granule of a table that hardware reads: a cache's owned copy, else the sector under key slot 0 (log 7). -/
def tableRead (s : State) (pa n : Nat) : Served (List Byte) :=
  let g := pa / 64
  if heldElsewhere s g then nodeWait s g
  else
    match homeRead s g 0 with
    | .ok v s1 => .ok (vecField v (pa % 64) n) s1
    | .bad c b s1 => .bad c b s1
    | .busy s1 => .busy s1

/-- The depot takes granules to itself: no one owns them, and before a write no one shares them. A DERELICT one stays as it is. -/
def depotTakes (s : State) (write : Bool) (gs : List Nat) : Served Unit :=
  match gs with
  | [] => .ok () s
  | g :: rest =>
    match settle s g none with
    | .busy s1 => .busy s1
    | .bad _ _ s1 => depotTakes s1 write rest
    | .ok _ s1 =>
      if !write then depotTakes s1 write rest
      else
        match invalidate s1 g none with
        | .busy s2 => .busy s2
        | .bad _ _ s2 => depotTakes s2 write rest
        | .ok _ s2 => depotTakes s2 write rest

/-- A read at the depot that takes no copy: engines, hosts, other devices' requests. -/
def depotRead (s : State) (g : Nat) (key : BitVec 8) : Served Vec :=
  match settle s g none with
  | .ok _ s1 => readSector s1 g key
  | .bad c b s1 => .bad c b s1
  | .busy s1 => .busy s1

/-- The bytes of `v` selected by a 64-bit mask, over `old`. -/
def mergeBytes (old v : Vec) (mask : Nat) : Vec :=
  vecOfBytes (((vecBytes old).zip ((vecBytes v).zip (List.range 64))).map (fun e => if mask.testBit e.2.2 then e.2.1 else e.1))

/-- A change of a granule at the depot: copies invalidated first, a partial write read and checked first, then applied (07 R199,
06 R181). -/
def depotApply (s : State) (g : Nat) (key : BitVec 8) (mask : Nat) (f : Vec → Vec) : Served Unit :=
  match settle s g none with
  | .bad c b s1 => .bad c b s1
  | .busy s1 => .busy s1
  | .ok _ s1 =>
    match invalidate s1 g none with
    | .bad c b s2 => .bad c b s2
    | .busy s2 => .busy s2
    | .ok _ s2 =>
      if mask = 2 ^ 64 - 1 then .ok () (writeSector s2 g key (f 0))
      else
        match readSector s2 g key with
        | .ok old s3 => .ok () (writeSector s3 g key (f old))
        | .bad c b s3 => .bad c b s3
        | .busy s3 => .busy s3

/-- A write at the depot: applied, and marked in the waybills' maps (08 R218). -/
def depotWrite (s : State) (g : Nat) (key : BitVec 8) (v : Vec) (mask : Nat) (tag : BitVec 32) : Served Unit :=
  match depotApply s g key mask (fun old => if mask = 2 ^ 64 - 1 then v else mergeBytes old v mask) with
  | .ok _ s1 => .ok () (markMaps s1 g tag)
  | r => r

/-! ## The waybill region's own reads and writes (08 R211, R416) -/

/-- The bytes that a span shares with a granule: the offset in the granule and the bytes. -/
def inGranule (pa : Nat) (bs : List Byte) (g : Nat) : Nat × List Byte :=
  let lo := max pa (64 * g)
  (lo % 64, (bs.drop (lo - pa)).take (64 * g + 64 - lo))

/-- A write of hardware over the granules of a span of memory. -/
def spanApply (s : State) (pa : Nat) (key : BitVec 8) (bs : List Byte) (into : Bool) (gs : List Nat) : Served Unit :=
  match gs with
  | [] => .ok () s
  | g :: rest =>
    let p := inGranule pa bs g
    let image := vecOfBytes (List.replicate p.1 0 ++ p.2)
    let mask := if into then 0 else (2 ^ p.2.length - 1) * 2 ^ p.1
    match depotApply s g key mask (fun old => if into then old ||| image else if mask = 2 ^ 64 - 1 then image else mergeBytes old image mask) with
    | .ok _ s1 => spanApply s1 pa key bs into rest
    | r => r

/-- The walk of hardware that works for no strand: device, physical address and key, or why not now. An entry with MIG set is waited for,
since `since`, up to 8,000 ticks (06 R166). -/
def hardwareWalk (s : State) (va : Nat) (since : Option Nat) : Served (Nat × Nat × BitVec 8) :=
  match walk s va with
  | .ok dev pa key _ _ => .ok (dev, pa, key) (walked s va)
  | .fault code sub _ => .bad code sub (walked s va)
  | .mig _ _ => if decide (since.getD s.now + 8000 ≤ s.now) then .bad 0x06 0x03 s else .busy s
  | .bad g =>
    let r := nodeFault s g
    .bad r.1 r.2.1 r.2.2
  | .busy g => nodeWait s g

/-- The same for a unit that waits by itself: the leaf and the page size. Its re-reads of an entry with MIG set are 250 ns apart, and end
8,000 ticks after the first (06 R166). -/
def unitWalk (s : State) (unit va : Nat) : Served (Nat × Nat) :=
  let w := s.migWaits.get (0, 0, 0) unit
  let s1 := { s with migWaits := s.migWaits.del unit }
  if s.migWaits.has unit && decide (s.now < w.2.2) then .busy s
  else
    match walk s va with
    | .ok _ _ _ size pte => .ok (pte, size) (walked s1 va)
    | .fault code sub _ => .bad code sub (walked s1 va)
    | .mig _ ea =>
      let start := if s.migWaits.has unit && w.1 = ea then w.2.1 else s.now
      if start + 8000 ≤ s.now then .bad 0x06 0x03 s1 else .busy { nodeNote s (ea / 64) with migWaits := s.migWaits.set unit (ea, start, s.now + 250) }
    | .bad g =>
      let r := nodeFault s g
      .bad r.1 r.2.1 r.2.2
    | .busy g => nodeWait s g

/-- Where `off` of a run's region lies: this device's memory, or why not now (08 R416). -/
def regionPlace (s : State) (run : BitVec 32) (off : Nat) (since : Option Nat) : Served (Nat × BitVec 8) :=
  match hardwareWalk s ((getRun s run).lr.wbBase + off) since with
  | .ok (dev, pa, key) s1 => if dev = devnum s1 && decide (pa < hbmSize) then .ok (pa, key) s1 else .bad 0x05 0x01 s1
  | .bad c b s1 => .bad c b s1
  | .busy s1 => .busy s1

/-- The oldest parked write of a run is tried; it lies in one page. -/
def regionTry (s : State) (run : BitVec 32) (w : RegionWrite) : Served Unit :=
  match regionPlace s run w.off w.since with
  | .ok p s1 => spanApply s1 p.1 p.2 w.bytes w.into (numbersFrom (p.1 / 64) ((p.1 + w.bytes.length + 63) / 64 - p.1 / 64))
  | .bad c b s1 => .bad c b s1
  | .busy s1 => .busy s1

/-- Makes a run's parked writes in order, until one must wait. One that fails is lost, remembered and recorded (08 R416); `fuel` bounds
the writes. -/
def regionFlush (s : State) (run : BitVec 32) (fuel : Nat) : State :=
  match fuel with
  | 0 => s
  | k + 1 =>
    match (getRun s run).parked with
    | [] => s
    | w :: rest =>
      match regionTry s run w with
      | .ok _ s1 => regionFlush (modRun s1 run (fun r => { r with parked := rest })) run k
      | .bad _ _ s1 =>
        let s2 := modRun s1 run (fun r => { r with parked := rest, wbLost := true })
        regionFlush (logRecord s2 { cls := .hw, sub := 0x0A, source := mgmtSource, addr := (getRun s run).lr.wbBase + w.off }) run k
      | .busy s1 => modRun s1 run (fun r => { r with parked := { w with since := some (w.since.getD s.now) } :: rest })

/-- The parked writes of every run. -/
def regionsFlush (s : State) : State :=
  (s.runs.filter (fun e => !e.2.parked.isEmpty)).foldl (fun s e => regionFlush s (BitVec.ofNat 32 e.1) e.2.parked.length) s

/-- One thing after another at the depots. -/
def Served.andThen {α β : Type} (x : Served α) (f : α → State → Served β) : Served β :=
  match x with
  | .ok a s => f a s
  | .bad c b s => .bad c b s
  | .busy s => .busy s

/-- The granules of a span of memory, read in order. -/
def granulesRead (s : State) (key : BitVec 8) (gs : List Nat) : Served (List Byte) :=
  match gs with
  | [] => .ok [] s
  | g :: rest => (depotRead s g key).andThen (fun v s1 => (granulesRead s1 key rest).andThen (fun bs s2 => .ok (vecBytes v ++ bs) s2))

/-- A read of `n` bytes of a run's region, page by page, after its parked writes; `fuel` bounds the pages. -/
def regionRead (s : State) (run : BitVec 32) (fuel off n : Nat) : Served (List Byte) :=
  if !(getRun s run).parked.isEmpty then .busy s
  else
    match fuel with
    | 0 => .ok [] s
    | k + 1 =>
      if n = 0 then .ok [] s
      else
        let here := min n (4096 - off % 4096)
        match regionPlace s run off (getRun s run).regionSince with
        | .ok p s1 =>
          (granulesRead s1 p.2 (numbersFrom (p.1 / 64) ((p.1 + here + 63) / 64 - p.1 / 64))).andThen (fun bs s2 =>
            (regionRead (modRun s2 run (fun r => { r with regionSince := none })) run k (off + here) (n - here)).andThen (fun rest s3 =>
              .ok ((bs.drop (p.1 % 64)).take here ++ rest) s3))
        | .bad c b s1 => .bad c b s1
        | .busy s1 => .busy (modRun s1 run (fun r => { r with regionSince := some (r.regionSince.getD s.now) }))

/-- The same for a read whose pages its length bounds. -/
def regionBytes (s : State) (run : BitVec 32) (off n : Nat) : Served (List Byte) := regionRead s run (n / 4096 + 2) off n

/-! ## The cluster L2 (06 R177) -/

/-- The L2 line of a virtual granule. -/
def l2Find (s : State) (c vline : Nat) : Option L2Line := s.l2.find? (fun l => l.cluster == c && l.vline == vline)

/-- Whether a line is mapped in a stash of its cluster: it stands there, not in a way of the L2 (06 R179). -/
def stashed (s : State) (l : L2Line) : Bool :=
  (numbersFrom (8 * l.cluster) 8).any (fun t => (getTile s t).stash.any (fun e => decide (e.base ≤ 64 * l.vline) && decide (64 * l.vline < e.base + e.length)))

/-- Ways of the L2 that hold lines: 16, and without ways 7 and 15 while its check bits use those (00 R2, 06 R178). -/
def l2Ways (s : State) (cluster : Nat) : List Nat :=
  (List.range 16).filter (fun w => !((getCluster s cluster).decTed && (w = 7 || w = 15)))

/-- The lines of the set of a 128-byte line: the L2's 8 MiB are 4,096 sets of 16 ways. The set of a line, its number mod 4096, is a DESIGN
CHOICE (log 6). -/
def l2Set (s : State) (cluster line : Nat) : List L2Line :=
  s.l2.filter (fun x => x.cluster == cluster && x.vline / 2 % 4096 == line % 4096 && x.way.isSome)

/-- The way that a 128-byte line takes: the one it stands in with its other granule, else one that is free, else one whose line leaves; which
one is a free value (DESIGN CHOICE, log 6). -/
def l2Way (s : State) (cluster line : Nat) : Nat :=
  let set := l2Set s cluster line
  match (set.find? (fun x => x.vline / 2 == line)).bind L2Line.way with
  | some w => w
  | none =>
    let all := l2Ways s cluster
    let free := all.filter (fun w => !(set.any (fun x => x.way == some w)))
    let from_ := if free.isEmpty then all else free
    from_.getD (Config.freePick s.free % from_.length) 0

/-- A fill: a line of the same home under another virtual address, and an older line of the same tag, leave first (06 R177); what stands in
the way that it takes leaves too. -/
def l2Fill (s : State) (l : L2Line) : State :=
  let old := s.l2.filter (fun x => x.cluster == l.cluster && (x.vline == l.vline || (x.dev == l.dev && x.pa == l.pa)))
  let s1 := old.foldl evictLine s
  if stashed s1 l then { s1 with l2 := s1.l2 ++ [{ l with way := none }] }
  else
    let way := l2Way s1 l.cluster (l.vline / 2)
    let s2 := ((l2Set s1 l.cluster (l.vline / 2)).filter (fun x => !(x.vline / 2 == l.vline / 2) && x.way == some way)).foldl evictLine { s1 with free := s1.free + 1 }
    { s2 with l2 := s2.l2 ++ [{ l with way := some way }] }

/-- Lines of the pool that stash entries take. -/
def stashLines (es : List StashEntry) : List Nat := es.flatMap (fun e => numbersFrom e.firstLine (e.length / 128))

/-- Entries of a tile's stash map go: their dirty lines are written back, all of them leave the cluster that no other entry maps, and the
pool's lines are free and empty (06 R179, 14 R343). -/
def unmapEntries (s : State) (tile : Nat) (p : StashEntry → Bool) : State :=
  let gone := (getTile s tile).stash.filter p
  let lines := stashLines gone
  let s1 := modTile s tile (fun t =>
    { t with
      stash := t.stash.filter (fun e => !p e)
      full := t.full.filter (fun l => !(decide (l ∈ lines)))
      stashFilled := t.stashFilled.filter (fun l => !(decide (l ∈ lines))) })
  (s1.l2.filter (fun l => l.cluster == tile / 8 && !stashed s1 l
    && gone.any (fun e => decide (e.base ≤ 64 * l.vline) && decide (64 * l.vline < e.base + e.length)))).foldl evictLine s1

/-- An uncorrectable error of a line shows when the line is used: a clean line is dropped, to be fetched again, with a HW record; a dirty
one is poisoned (06 R178). -/
def l2Scrub (s : State) (c vline : Nat) : State :=
  match s.l2.find? (fun l => l.cluster == c && l.vline == vline && l.bad) with
  | none => s
  | some l =>
    if l.dirty then { s with l2 := s.l2.map (fun x => if x.cluster == c && x.vline == vline then { x with bad := false, poison := true } else x) }
    else logRecord (evictLine s l) { cls := .hw, flags := 2, sub := 5, source := clusterSource c, addr := 64 * vline }

def l2Update (s : State) (c vline : Nat) (f : L2Line → L2Line) : State :=
  { s with l2 := s.l2.map (fun l => if l.cluster == c && l.vline == vline then f l else l) }

/-- A cluster's read of a granule of local memory: filled shared. -/
def clusterFill (s : State) (c vline g : Nat) (key : BitVec 8) : Served Vec :=
  match depotRead s g key with
  | .bad a b s1 => .bad a b s1
  | .busy s1 => .busy s1
  | .ok v s1 =>
    let s2 := l2Fill s1 { cluster := c, vline := vline, dev := devnum s, pa := 64 * g, key := key, owned := false, dirty := false, poison := false, tags := [], data := v }
    .ok v (modDir s2 g (fun d => { d with clusters := with1 d.clusters c, st := .shared }))

/-- A cluster takes a granule of local memory exclusive; `whole` when the store covers all 64 bytes, which needs no read. -/
def clusterOwn (s : State) (c vline g : Nat) (key : BitVec 8) (whole : Bool) (tag : BitVec 32) : Served Unit :=
  match l2Find s c vline with
  | some l =>
    if l.owned && l.pa == 64 * g then .ok () s
    else own s
  | none => own s
where
  own (s : State) : Served Unit :=
    match settle s g none with
    | .bad a b s1 => .bad a b s1
    | .busy s1 => .busy s1
    | .ok _ s1 =>
      match invalidate s1 g none with
      | .bad a b s2 => .bad a b s2
      | .busy s2 => .busy s2
      | .ok _ s2 =>
        let fill (s3 : State) (v : Vec) : Served Unit :=
          let s4 := l2Fill s3 { cluster := c, vline := vline, dev := devnum s, pa := 64 * g, key := key, owned := true, dirty := false, poison := false, tags := [tag], data := v }
          .ok () (markMaps (modDir s4 g (fun d => { d with clusters := [c], st := .owned })) g tag)
        if whole then fill s2 0
        else
          match readSector s2 g key with
          | .ok v s3 => fill s3 v
          | .bad a b s3 => .bad a b s3
          | .busy s3 => .busy s3

/-- Bytes of the L2 line of a virtual granule replaced; the line is dirty and carries the writer's run. -/
def l2Write (s : State) (c vline off : Nat) (bs : List Byte) (tag : BitVec 32) : State :=
  l2Update s c vline (fun l => { l with data := vecOfBytes (patch (vecBytes l.data) off bs), dirty := true, tags := if tag ∈ l.tags then l.tags else l.tags ++ [tag],
                                        poison := l.poison && !(off = 0 && bs.length = 64) })

end Sys2Proof.Machine
end

