-- ==== Sys2Proof/Machine/Registers.lean ====
section
/-!
DEFINITION. What reads of the register windows return, and which step a write of a register with behaviour of its own is (01 R18, R31,
02 R58, 03 R82-R90, 04 R114-R123, 06 R167, R188, 09 R238). Every other offset reads zero and ignores writes.
-/
namespace Sys2Proof.Machine

def b2n (b : Bool) : Nat := if b then 1 else 0

/-! ## Bind records (03 R84) -/

def bindBytes (r : BindRecord) : List Byte :=
  leBytes 4 r.ctx.toNat ++ leBytes 4 r.run.toNat ++ leBytes 2 r.pdom.toNat ++ [r.gearReq, r.prio] ++ leBytes 4 r.fareAcct.toNat
    ++ padTo 16 (r.path.flatMap (fun h => leBytes 2 h.toNat)) ++ leBytes 4 r.blkFirst.toNat ++ leBytes 4 r.blkLast.toNat
    ++ leBytes 2 r.pbLo.toNat ++ leBytes 2 r.pbMid.toNat ++ leBytes 2 r.pbHi.toNat ++ [r.panBase, r.panCnt, r.tileMask, r.feltGrant, r.state, r.reserved]
    ++ leBytes 6 r.service.toNat ++ leBytes 6 r.saveArea.toNat

def bindOfBytes (b : List Byte) : BindRecord :=
  { ctx := .ofNat _ (fieldAt b 0 4), run := .ofNat _ (fieldAt b 4 4), pdom := .ofNat _ (fieldAt b 8 2), gearReq := .ofNat _ (fieldAt b 10 1),
    prio := .ofNat _ (fieldAt b 11 1), fareAcct := .ofNat _ (fieldAt b 12 4),
    path := (List.range 8).map (fun k => .ofNat _ (fieldAt b (16 + 2 * k) 2)),
    blkFirst := .ofNat _ (fieldAt b 32 4), blkLast := .ofNat _ (fieldAt b 36 4), pbLo := .ofNat _ (fieldAt b 40 2), pbMid := .ofNat _ (fieldAt b 42 2),
    pbHi := .ofNat _ (fieldAt b 44 2), panBase := .ofNat _ (fieldAt b 46 1), panCnt := .ofNat _ (fieldAt b 47 1), tileMask := .ofNat _ (fieldAt b 48 1),
    feltGrant := .ofNat _ (fieldAt b 49 1), state := .ofNat _ (fieldAt b 50 1), reserved := .ofNat _ (fieldAt b 51 1),
    service := .ofNat _ (fieldAt b 52 6), saveArea := .ofNat _ (fieldAt b 58 6) }

/-! ## Register values -/

/-- The rotating clock mask for `n` removed pulses (04 R120). -/
def clockMask (n : Nat) : Nat := ((List.range 32).map (fun i => if (i + 1) * n / 32 > i * n / 32 then 0 else 2 ^ i)).sum

/-- Enabled tiles of a mask. -/
def ones8 (m : BitVec 8) : Nat := ((List.range 8).filter (fun i => m.getLsbD i)).length

/-- Felt arrays that each partition owns under PARTCFG.MODE (02 R76). -/
def arraysEach (s : State) : Nat := 8 / partCount s

/-- FELTOUT of a cluster: bit k, the withdrawn array k of the partition that owns the cluster (01 R18). -/
def feltOut (s : State) (c : Nat) : Nat :=
  (((List.range (arraysEach s)).filter (fun k => (s.felt.toList.getD (partOfCluster s c * arraysEach s + k) {}).withdrawn)).map (2 ^ ·)).sum

/-- A partition is DEGRADED when a cluster has fewer than 8 tiles or an array is withdrawn (01 R18). -/
def degraded (s : State) (c : Nat) : Bool :=
  (List.range 128).any (fun k => partOfCluster s k = partOfCluster s c && !((getCluster s k).tmask == 0xff)) || !(feltOut s c = 0)

def capacityWord (s : State) (c : Nat) : Nat :=
  let k := getCluster s c
  b2n (degraded s c) * 2 ^ 63 + feltOut s c * 2 ^ 20 + (8 - (getDie s (c / 16)).sparesUsed) * 2 ^ 16 + k.tmask.toNat * 2 ^ 8 + ones8 k.tmask

def portStat (p : Port) : Nat :=
  p.gen.toNat * 2 ^ 48 + p.cause.toNat * 2 ^ 40 + b2n p.spare * 2 ^ 39 + p.state * 2 ^ 32 + p.keyRej % 65536 * 2 ^ 16 + p.replays % 65536

/-- RTCTL (01 R32): BUSY while a switch is pending or a class-O hold is open. -/
def routeBusy (s : State) : Bool := s.link.pending || !s.link.holds.isEmpty
def rtctl (s : State) : Nat := b2n s.link.awErr * 8 + b2n s.link.swErr * 4 + b2n (routeBusy s) * 2 + b2n s.link.active

def mgmtStat (s : State) : Nat :=
  let m := s.mgmt
  b2n m.recovery * 2 ^ 63 + m.fused.toNat * 2 ^ 40 + m.svn.toNat * 2 ^ 32 + b2n m.bootSlot * 2 ^ 24 + m.result.toNat * 16 + b2n m.busy

/-- The link configuration block (01 R31). -/
def linkRead (s : State) (off : Nat) : Nat :=
  if off = 0x100000 then rtctl s
  else if off = 0x100008 then s.link.swTime.toNat
  else if off = 0x100010 then devnum s
  else if off = 0x100018 then s.link.noticeA.toNat
  else if off = 0x100020 then s.link.noticeB.toNat
  else if 0x101000 ≤ off ∧ off < 0x101000 + 8 * 36 then portStat (getPort s ((off - 0x101000) / 8))
  else if 0x101200 ≤ off ∧ off < 0x101200 + 8 * 36 then b2n (getPort s ((off - 0x101200) / 8)).disable * 4
  else if 0x120000 ≤ off ∧ off < 0x130000 then (s.link.bank0.get 0 ((off - 0x120000) / 8)).toNat
  else if 0x130000 ≤ off ∧ off < 0x140000 then (s.link.bank1.get 0 ((off - 0x130000) / 8)).toNat
  else if 0x140000 ≤ off ∧ off < 0x140040 then (s.link.keys0.get 0 ((off - 0x140000) / 8)).toNat
  else if 0x140040 ≤ off ∧ off < 0x140080 then (s.link.keys1.get 0 ((off - 0x140040) / 8)).toNat
  else 0

/-- The control window as the host reads it (02 R58, 04 R114). -/
def controlRead (s : State) (off : Nat) : Nat :=
  let h := s.host
  if off = 0x0 then 0x5EC7 * 2 ^ 48 + Config.stepping.toNat * 2 ^ 40 + Config.serial.toNat
  else if off = 0x8 then b2n h.cfgErr * 4 + h.partMode.toNat
  else if off = 0x20 then h.qhBase.toNat
  else if off = 0x28 then b2n h.qhEn * 2 ^ 31 + h.qhLog.toNat
  else if 0x40 ≤ off ∧ off < 0x80 then (h.qStage.toList.getD ((off - 0x40) / 8) 0).toNat
  else if off = 0x80 then h.qctlQnum.toNat * 2 ^ 32 + h.qctlPasid.toNat * 2 ^ 12 + h.qctlResult.toNat * 16 + b2n h.qctlBusy
  else if off = 0xA0 then h.errBase.toNat
  else if off = 0xA8 then h.errSize.toNat
  else if off = 0xB0 then h.errHead.toNat
  else if off = 0xB8 then h.errTail.toNat
  else if off = 0xC0 then h.ctxBase.toNat
  else if off = 0xC8 then b2n h.ctxEn * 2 ^ 31 + h.ctxLog.toNat
  else if off = 0x100 then mgmtStat s
  else if off = 0x110 then s.mgmt.offset.toNat
  else if off = 0x118 then s.mgmt.length.toNat
  else if 0x200 ≤ off ∧ off < 0x600 then capacityWord s ((off - 0x200) / 8)
  else if 0x600 ≤ off ∧ off < 0x800 then ((h.storage.get (Vector.replicate 8 0) ((off - 0x600) / 64)).toList.getD ((off - 0x600) % 64 / 8) 0).toNat
  else if 0x1000 ≤ off ∧ off < 0x9000 then
    let e := h.apertures.get (0, 0) ((off - 0x1000) / 16)
    (if off % 16 = 0 then e.1 else e.2).toNat
  else if 0x9000 ≤ off ∧ off < 0x9100 then
    let e := h.peers.get (0, 0) ((off - 0x9000) / 16)
    (if off % 16 = 0 then e.1 else e.2).toNat
  else if 0x100000 ≤ off ∧ off < 0x150000 then linkRead s off
  else if 0x200000 ≤ off ∧ off < 0x200040 then (h.lattol.toList.getD ((off - 0x200000) / 8) 0).toNat
  else if off = 0x200080 then h.pwrLimit.toNat
  else if off = 0x200108 then h.fselAcct.toNat * 2 ^ 32
  else if off = 0x200110 then wrap 64 ((s.balances.get 0 h.fselAcct.toNat) / 1000)
  else if 0x400000 ≤ off ∧ off < 0x800000 then ofBytes (memRead s.mgmt.staging (off - 0x400000) 8)
  else 0

/-- PATCHCTL (03 R103). -/
def patchCtl (s : State) : Nat := s.mgmt.version.toNat * 2 ^ 32 + s.mgmt.patchResult.toNat * 16 + b2n s.mgmt.patchBusy

/-- GONE word `w` (06 R167, R192). -/
def goneWord (s : State) (w : Nat) : Nat := ((List.range 64).filter (fun b => decide (64 * w + b ∈ s.ostler.gone))).map (2 ^ ·) |>.sum

/-- Whether work that a TRINV waits for is still under way (06 R170). -/
def workOut (s : State) (w : EngineWork) : Bool :=
  match w with
  | .copy tile tag => (getTile s tile).dray.toList.any (fun ch => ch.any (fun c => c.tag == tag))
  | .matrix tile cmd => (getTile s tile).queue.any (fun c => c = cmd) || (getTile s tile).running.any (fun r => decide (r.cmd = cmd))
  | .felt array cmd =>
    let f := s.felt.toList.getD array {}
    f.queue.any (fun c => c = cmd) || f.runCmd.any (fun c => decide (c = cmd)) || f.converting.any (fun c => decide (c = cmd))
  | .peer a bus va => match (getAgent s a).status with
    | .awaitPeer b _ _ w => b = bus && w == va
    | _ => false

/-- What a TRINV waits for is not complete: requests by tag, and engine work. -/
def waitsOn (s : State) (tags : List Nat) (work : List EngineWork) : Bool := tags.any (fun t => s.requests.has t) || work.any (workOut s)

/-- TRINV.BUSY: devices that have not acknowledged, or accesses that the command waits for (06 R167, R170, R171). -/
def trinvBusy (s : State) : Bool := !s.ostler.trAcks.isEmpty || waitsOn s s.ostler.trWait s.ostler.trUnits

/-- BUSY of DSPSTAT: a CUT or RESUME goes on, or the last KILL has not reached the end of its fence (03 R90, R102). -/
def dspBusy (s : State) : Bool := s.ostler.dspCut.isSome || s.ostler.dspKill.any (fun c => (getCtx s c).killing || (getCtx s c).killAsked)

/-- The ostler control window as a load reads it (03 R82). -/
def ostlerRead (s : State) (off : Nat) : Nat :=
  let o := s.ostler
  if off < 0x100000 then fieldAt (bindBytes ((getCluster s (off / 0x2000)).slots.get {} (off % 0x2000 / 64))) (off % 64) 8
  else if off = 0x100008 then o.dspRun.toNat * 2 ^ 32 + b2n o.dspErr * 4 + b2n (dspBusy s) * 2
  else if 0x110000 ≤ off ∧ off < 0x110400 then
    let c := getCluster s ((off - 0x110000) / 8)
    b2n c.mfwLock * 2 ^ 63 + c.ostMask.toNat
  else if off = 0x120000 then patchCtl s
  else if 0x130000 ≤ off ∧ off < 0x130400 then (getCluster s ((off - 0x130000) / 8)).dragTbl.toNat
  else if 0x131000 ≤ off ∧ off < 0x131400 then
    let n := (getCluster s ((off - 0x131000) / 8)).maskN
    n * 2 ^ 32 + clockMask n
  else if 0x132000 ≤ off ∧ off < 0x132000 + 8 * 1088 then
    let i := (off - 0x132000) / 8
    let r := (getDie s (i / 136)).replays.get (0, 0) (i % 136)
    r.1.toNat * 2 ^ 32 + r.2.toNat
  else if 0x138000 ≤ off ∧ off < 0x138400 then (getCluster s ((off - 0x138000) / 8)).flagOr.toNat
  else if off = 0x150000 then o.trBase.toNat
  else if off = 0x150008 then o.dtVa.toNat
  else if off = 0x150010 then o.dtPa.toNat
  else if off = 0x150018 then o.trVa.toNat
  else if off = 0x150020 then o.trLen.toNat
  else if off = 0x150028 then o.trScope.toNat * 2 ^ 57 + o.trPdom.toNat * 2 ^ 32 + b2n o.trErr * 2 + b2n (trinvBusy s) + o.trCmd.toNat * 2 ^ 60
  else if off = 0x150040 then o.epoch.toNat
  else if 0x150100 ≤ off ∧ off < 0x150500 then goneWord s ((off - 0x150100) / 8)
  else 0

/-- The depot control window as a load reads it (06 R188). -/
def depotRegRead (s : State) (off : Nat) : Nat :=
  let d := s.depot
  if off = 0x0 then d.dtmo.toNat
  else if off = 0x8 then d.drlCnt.toNat
  else if off = 0x10 then d.daddr.toNat
  else if off = 0x18 then b2n d.derr * 2
  else if off = 0x20 then d.dstat.toNat
  else if 0x40 ≤ off ∧ off < 0x80 then (d.ddata.toList.getD ((off - 0x40) / 8) 0).toNat
  else 0

/-! ## Writes that are steps of their own -/

/-- The steps that an 8-byte write of the ostler control window is. -/
def ostlerEvents (off : Nat) (v : Word) : List Instr :=
  let w := v.toNat
  if off < 0x100000 then [.bindRecordWrite (off / 0x2000) (off % 0x2000 / 64) (off % 64) (leBytes 8 w)]
  else if 0x110000 ≤ off ∧ off < 0x110400 then [.mfwWrite ((off - 0x110000) / 8) v]
  else if off = 0x150028 then
    let c := bits w 63 60
    if c = 1 then [.trinvRange v]
    else if c = 2 then [.trinvAll v]
    else if c = 3 then [.trinvGrants v]
    else [.registerWrite .ostler off v]
  else if 0x150100 ≤ off ∧ off < 0x150500 then
    ((List.range 64).filter (fun b => w.testBit b)).map (fun b => .goneClear ((off - 0x150100) / 8 * 64 + b))
  else [.registerWrite .ostler off v]

/-- Writing 1 to DCMD.ERR clears it, before a command of the same write acts (06 R188, 00 R8). -/
def clearDepotErr (s : State) (off : Nat) (v : Word) : State :=
  if off = 0x18 && v.getLsbD 1 then { s with depot := { s.depot with derr := false } } else s

/-- The steps that an 8-byte write of the depot control window is. -/
def depotEvents (off : Nat) (v : Word) : List Instr :=
  let w := v.toNat
  if off = 0x18 then
    let c := bits w 63 60
    if c = 1 then [.peek (BitVec.ofNat 8 (bits w 15 8))]
    else if c = 2 then [.reclaimKeep]
    else if c = 3 then [.reclaimData (BitVec.ofNat 8 (bits w 15 8))]
    else [.registerWrite .depot off v]
  else [.registerWrite .depot off v]

/-- An 8-byte write of the depot control window. -/
def depotPut (s : State) (off : Nat) (v : Word) : State := soon (clearDepotErr s off v) (depotEvents off v)

def portOf (off base : Nat) : Fin 36 := ⟨(off - base) / 8 % 36, Nat.mod_lt _ (by decide)⟩

/-- The steps that a write of PORTCTL is: RESET first, then TRAIN; DISABLE holds the port down (01 R40). -/
def portEvents (p : Fin 36) (w : Nat) : List Instr :=
  (if w.testBit 2 then [.portDisable p] else [.registerWrite .control (0x101200 + 8 * p.val) 0])
    ++ (if w.testBit 0 then [.portReset p] else []) ++ (if w.testBit 1 && !w.testBit 2 then [.portTrain p] else [])

/-- The steps that an 8-byte write of the link configuration block is. -/
def linkEvents (off : Nat) (v : Word) : List Instr :=
  let w := v.toNat
  if off = 0x100000 then
    (if w.testBit 3 || w.testBit 2 then [.registerWrite .control off (v &&& 0xC)] else []) ++ (if w.testBit 4 then [.swreq] else [])
  else if off = 0x100010 then [.devnumWrite v]
  else if 0x101200 ≤ off ∧ off < 0x101200 + 8 * 36 then portEvents (portOf off 0x101200) w
  else if 0x120000 ≤ off ∧ off < 0x140080 then [.routingBankWrite off v]
  else [.registerWrite .control off v]

def part8 (off base step : Nat) : Fin 8 := ⟨(off - base) / step % 8, Nat.mod_lt _ (by decide)⟩

/-- The steps that an 8-byte write of the control window is; `none` where it is a plain write (02 R58). -/
def controlEvents (off : Nat) (v : Word) : Option (List Instr) :=
  let w := v.toNat
  if off = 0x8 then some [.partcfgWrite v]
  else if off = 0x10 then some [.partitionReset (BitVec.ofNat 8 w)]
  else if off = 0x28 then some [.qhctlWrite v]
  else if off = 0x80 then
    let c := bits w 63 60
    if c = 1 then some [.queueCreate v]
    else if c = 2 then some [.destroy v]
    else if c = 3 then some [.destroyKill v]
    else if c = 4 then some [.queueResume v]
    else none
  else if off = 0xA0 then some [.errorRingSetup false v]
  else if off = 0xA8 then some [.errorRingSetup true v]
  else if off = 0xC8 then some [.ctxctlWrite v]
  else if off = 0x108 then
    let c := bits w 63 60
    if c = 1 then some [.chunk v none]
    else if c = 2 then some [.commit v]
    else if c = 3 then some [.attest none]
    else if c = 4 then some [.reboot]
    else if c = 5 then some [.abort]
    else none
  else if 0x600 ≤ off ∧ off < 0x800 then some [.storageBlockWrite (part8 off 0x600 64) ((off - 0x600) % 64) v]
  else if 0x100000 ≤ off ∧ off < 0x150000 then
    match linkEvents off v with
    | [.registerWrite _ _ _] => none
    | evs => some evs
  else if 0x200000 ≤ off ∧ off < 0x200040 then some [.lattolWrite (part8 off 0x200000 8) v]
  else if off = 0x200100 then some [.fgrant v]
  else none

end Sys2Proof.Machine
end

