-- ==== Sys2Proof/Machine/Access.lean ====
section
/-!
DEFINITION. What an instruction does while it executes, and every memory access: the checks in their order, protection, translation,
caches, the windows, other devices, the waybill's recording (06 R157-R183, 07 R198, 08 R214-R216, 14 R322-R330).
-/
namespace Sys2Proof.Machine

/-- Why an instruction does not complete now: it raises a fault; the memory refuses it with a fault, and what the depots and caches have
done stands (06 R174, R178, R187); or it waits in a changed state and is executed again. -/
inductive Stop where
  | fault (f : FaultInfo)
  | failed (f : FaultInfo) (s : State)
  | wait (s : State)

/-- What stands of a state in which a memory refused an instruction: the agent's own registers are as before it (06 R174). -/
def rolledBack (s s1 : State) : State := putAgent { s1 with cur := s.cur } s.cur (getAgent s s.cur)

/-- An instruction's execution: a state and a value, or a stop. A fault leaves the state before the instruction (06 R174). -/
abbrev Exec (α : Type) := StateT State (Except Stop) α

def faultInfo (code sub kind : Nat) (addr : Word) (entry : Nat) : FaultInfo :=
  { code := BitVec.ofNat 8 code, sub := BitVec.ofNat 16 sub, kind := BitVec.ofNat 8 kind, addr := addr, entry := BitVec.ofNat 64 entry }

/-- Fault(code, …) of R11. -/
def raise {α : Type} (code sub : Nat) (kind : Nat := 0) (addr : Word := 0) (entry : Nat := 0) : Exec α :=
  fun _ => .error (.fault (faultInfo code sub kind addr entry))

/-- WaitUntil of R11: the instruction is executed again from the state given. -/
def waitIn {α : Type} (s : State) : Exec α := fun _ => .error (.wait s)
/-- Waits in the present state. -/
def stall {α : Type} : Exec α := fun s => .error (.wait s)

def update (f : State → State) : Exec Unit := fun s => .ok ((), f s)

/-- The registers of the issuing agent. -/
def self : Exec Strand := fun s => .ok (me s, s)
def setSelf (f : Strand → Strand) : Exec Unit := update (fun s => modMe s f)
def theAgent : Exec Agent := fun s => .ok (s.cur, s)
def theState : Exec State := fun s => .ok (s, s)

def getX (r : BitVec 5) : Exec Word := fun s => .ok (readX (me s) r, s)
def setX (r : BitVec 5) (v : Word) : Exec Unit := setSelf (fun t => writeX t r v)
def getV (r : BitVec 5) : Exec Vec := fun s => .ok (readV (me s) r, s)
def setV (r : BitVec 5) (v : Vec) : Exec Unit := setSelf (fun t => writeV t r v)
def getM (r : BitVec 3) : Exec Word := fun s => .ok (readM (me s) r, s)
def setM (r : BitVec 3) (v : Word) : Exec Unit := setSelf (fun t => writeM t r v)

/-- A depot's service inside an instruction: a refusal raises its fault, a snoop makes the agent wait. -/
def served {α : Type} (kind : Nat) (addr : Word) (f : State → Served α) : Exec α := fun s =>
  match f s with
  | .ok a s1 => .ok (a, s1)
  | .bad code sub s1 => .error (.failed (faultInfo code sub kind addr 0) s1)
  | .busy s1 => .error (.wait s1)

/-! ## Kinds of access -/

/-- A kind of access: the message's kind (06 R172), the rights it needs (06 R161: RD 1, W 2, X 4, A 8), and what it may reach: a
scalar of the plain widths reaches the control windows and the peer window (06 R414, 02 R57); a form that is refused there; the
vector-spill region as well as the scratchpad; an acquire (06 R182). -/
structure Kind where
  kind : Nat
  need : Nat
  plain : Bool := true
  vector : Bool := false
  acq : Bool := false
  deriving DecidableEq, Repr

def kLoad : Kind := { kind := 0, need := 1 }
def kStore : Kind := { kind := 1, need := 2 }
def kAmo : Kind := { kind := 2, need := 11, plain := false }
def kVload : Kind := { kind := 4, need := 1, vector := true }
def kVstore : Kind := { kind := 5, need := 2, vector := true }
def kGather : Kind := { kind := 6, need := 1, plain := false }
def kScatter : Kind := { kind := 6, need := 2, plain := false }
def kWait : Kind := { kind := 0, need := 1, plain := false, acq := true }
def kFlag : Kind := { kind := 2, need := 9, plain := false }

/-- Where an access goes. -/
inductive Target where
  | pool (off : Nat)
  | ostler (off : Nat)
  | peer (bus : Nat)
  | direct (pa : Nat)
  | global (rights : Nat)
  deriving DecidableEq, Repr

/-! ## Protection (06 R161, R162) -/

/-- The context's grant-list place: physical base and entries (06 R160). -/
def grantList (s : State) (ctx : BitVec 32) : Nat × Nat := ((getCtx s ctx).glBase * 4096, (getCtx s ctx).glCount)

/-- A grant-list entry as a lookaside entry; `none` when it is invalid or breaks its layout (06 R161). -/
def grantEntry (pdom : BitVec 16) (w0 w1 : Nat) : Option PlbEntry :=
  if w0.testBit 63 && bits w0 62 57 = 0 && bits w0 15 0 = 0 && bits w1 31 5 = 0 && !(bits w1 63 32 = 0) then
    some { base := bits w0 56 16 * 65536, size := bits w1 63 32 * 65536, rights := BitVec.ofNat 5 w1, pdom := pdom }
  else none

def covers (e : PlbEntry) (va n : Nat) : Bool := decide (e.base ≤ va) && decide (va + n ≤ e.base + e.size)

/-- Searches a grant list from entry `i` upward, over `count` entries, for the first valid one that covers the access. -/
def searchGrants (s : State) (pdom : BitVec 16) (base i count va n : Nat) : Served (Option PlbEntry) :=
  match count with
  | 0 => .ok none s
  | k + 1 =>
    match tableRead s (base + 16 * i) 16 with
    | .bad c b s1 => .bad c b s1
    | .busy s1 => .busy s1
    | .ok bs s1 =>
      match grantEntry pdom (fieldAt bs 0 8) (fieldAt bs 8 8) with
      | some e => if covers e va n then .ok (some e) s1 else searchGrants s1 pdom base (i + 1) k va n
      | none => searchGrants s1 pdom base (i + 1) k va n

/-- The entry by which a core's PLB covers an access of a context; a miss loads it from the grant list (06 R162). -/
def plbLookup (s : State) (core : Nat) (ctx : BitVec 32) (va n : Nat) : Served (Option PlbEntry) :=
  let pdom := (getCtx s ctx).pdom
  match (getCore s core).plb.find? (fun e => e.pdom == pdom && covers e va n) with
  | some e => .ok (some e) s
  | none =>
    let (base, count) := grantList s ctx
    match searchGrants s pdom base 0 count va n with
    | .ok (some e) s1 => .ok (some e) (modCore s1 core (fun c => { c with plb := (c.plb ++ [e]).drop (c.plb.length + 1 - 64) }))
    | r => r

/-- Checks a span for rights under a context's PDOM, as an instruction checks its operands at issue. -/
def spanRights (kind need : Nat) (va : Word) (n : Nat) : Exec Nat := do
  let a ← theAgent
  match ← served kind va (fun s => plbLookup s (agentCore a) (agentCtx s a) va.toNat n) with
  | some e =>
    if e.rights.toNat &&& need = need then pure e.rights.toNat else raise 0x04 0x01 kind va
  | none => raise 0x04 0x01 kind va

/-! ## The checks of an access (06 R163, R414; 14 R322) -/

/-- Whether a courier may reach the bytes: only boots of its run that are shared by the core or the tile (05 R142). -/
def courierMay (s : State) (a : Agent) (va n : Nat) : Bool :=
  let tile := agentTile a
  let t := getTile s tile
  let lr := (getRun s (agentRun s a)).lr
  (List.range lr.boots.length).any (fun i =>
    match lr.boots[i]? with
    | none => false
    | some b =>
      !(b.share = 0) && (List.range (bootCopies b.share)).any (fun k =>
        let lo := windowBase + 4096 * t.pbLo + bootOffset lr.boots i + b.size * k
        decide (lo ≤ va) && decide (va + n ≤ lo + b.size)))

/-- The peer entry whose range an address falls in: the lowest-numbered that matches (02 R57). -/
def peerOf (s : State) (va : Nat) : Option Nat :=
  (List.range 16).findSome? (fun j =>
    let e := s.host.peers.get (0, 0) j
    let base := bits e.1.toNat 56 16 * 65536
    if e.1.toNat.testBit 63 && decide (base ≤ va) && decide (va < base + bits e.1.toNat 15 0 * 65536) then
      some (bits e.2.toNat 63 16 * 65536 + (va - base))
    else none)

/-- Whether an address lies in the deep TLB range, and the physical place it is mapped to (06 R169). -/
def deepRange (s : State) (va : Nat) : Option Nat :=
  let o := s.ostler
  let base := bits o.dtVa.toNat 56 30 * 2 ^ 30
  if o.dtVa.toNat.testBit 63 && decide (base ≤ va) && decide (va < base + 2 ^ 30) then
    some (bits o.dtPa.toNat 43 30 * 2 ^ 30 + (va - base))
  else none

/-- Whether `n` bytes at an address touch a range. -/
def spanHits (base size va n : Nat) : Bool := decide (va < base + size) && decide (base < va + n)

/-- Whether they touch the deep TLB range, or a peer-window range (06 R169, 02 R57). -/
def deepSpan (s : State) (va n : Nat) : Bool := s.ostler.dtVa.toNat.testBit 63 && spanHits (bits s.ostler.dtVa.toNat 56 30 * 2 ^ 30) (2 ^ 30) va n
def peerSpan (s : State) (va n : Nat) : Bool :=
  (List.range 16).any (fun j =>
    let e := s.host.peers.get (0, 0) j
    e.1.toNat.testBit 63 && spanHits (bits e.1.toNat 56 16 * 65536) (bits e.1.toNat 15 0 * 65536) va n)

/-- A control window's own rule on the kind of access that reaches it (06 R414). -/
def windowForm (k : Kind) (va : Word) (n : Nat) : Exec Unit :=
  if !k.plain then raise 0x04 0x01 k.kind va
  else if k.vector || !(n = 8) then raise 0x03 0 k.kind va
  else pure ()

/-- The canonical check, which comes before every other check of an access (06 R157, R163). -/
def canonical (kind : Nat) (va : Word) : Exec Unit := if bits va.toNat 63 57 = 0 then pure () else raise 0x05 0x02 kind va

/-- The checks of an access of `n` bytes, in order: canonical, a courier's own rule, alignment, the windows, protection. -/
def check (k : Kind) (va : Word) (n : Nat) : Exec Target := do
  let a ← theAgent
  let s ← theState
  let v := va.toNat
  canonical k.kind va
  if isCourier a && !courierMay s a v n then raise 0x04 0x01 k.kind va
  if !(v % n = 0) then raise 0x03 0 k.kind va
  if inWindow v then
    if inSpillOrScratch (getTile s (agentTile a)) (v - windowBase) n then pure (.pool (v - windowBase))
    else raise 0x04 0x03 k.kind va
  else if inOstler v then
    if !ostlerMode s a then raise 0x04 0x02 k.kind va
    else do
      windowForm k va n
      pure (.ostler (v - ostlerBase))
  else
    match deepRange s v with
    | some pa =>
      if !ostlerMode s a then raise 0x04 0x01 k.kind va
      else do
        let _ ← spanRights k.kind k.need va n
        pure (.direct pa)
    | none =>
      let rights ← spanRights k.kind k.need va n
      let s ← theState
      match peerOf s v with
      | some bus =>
        if !k.plain && !(k.kind = 6) && !(k == kFlag) then raise 0x04 0x01 k.kind va
        else if k.kind = 6 && decide (n > 8) then raise 0x03 0 k.kind va
        else pure (.peer bus)
      | none => pure (.global rights)

/-! ## Translation (06 R164-R169, R190-R192) -/

/-- The class-O port that serves a device, with its GEN (06 R190). -/
def devGen (s : State) (dev : Nat) : Option (Nat × BitVec 16) := (classOPort s dev).map (fun p => (p, (getPort s p).gen))

def pteDev (s : State) (pte : Nat) : Nat := if pte.testBit 60 then bits pte 59 47 else devnum s

/-- A cluster TLB entry that covers an address and is still valid. -/
def tlbFind (s : State) (c va : Nat) : Option TlbEntry :=
  (getCluster s c).tlb.find? (fun e => decide (e.page ≤ va) && decide (va < e.page + e.size) &&
    (pteDev s e.pte.toNat == devnum s || e.port.any (fun p => (getPort s p).gen == e.gen)))

def pageSize (z : Nat) : Nat := if z = 0 then 2 ^ 16 else if z = 1 then 2 ^ 21 else 2 ^ 30

/-- Physical address of the deep TLB line of an address at size code `z` (06 R169). -/
def deepLine (s : State) (va z : Nat) : Nat :=
  let p := va / pageSize z * pageSize z
  bits s.ostler.dtPa.toNat 43 30 * 2 ^ 30 + 128 * bits ((p / 2 ^ 16 * 0x9E3779B97F4A7C15 + z) % 2 ^ 64) 63 41

/-- Whether the port that an entry for a page of another device was filled by still has its GEN (06 R190). -/
def deepGenValid (s : State) (ea : Nat) : Bool :=
  s.ostler.deepGens.has ea && (getPort s (s.ostler.deepGens.get (0, 0) ea).1).gen == (s.ostler.deepGens.get (0, 0) ea).2

/-- The leaf that a deep TLB line, as read, holds for an address at a size code (06 R169, R190). -/
def deepWay (s : State) (va z : Nat) (line : List Byte) : Option Nat :=
  (List.range 8).findSome? (fun w =>
    let tag := fieldAt line (16 * w) 8
    let pte := fieldAt line (16 * w + 8) 8
    if tag.testBit 63 && bits tag 62 61 = z && bits tag 56 16 = va / pageSize z * pageSize z / 65536 &&
        (pteDev s pte = devnum s || deepGenValid s (deepLine s va z + 16 * w)) then some pte
    else none)

/-- The sets of an address read in turn at their depot until one holds its page: the leaf and the page size (06 R169, R178, R180). -/
def deepProbe (s : State) (va : Nat) (zs : List Nat) : Served (Option (Nat × Nat)) :=
  match zs with
  | [] => .ok none s
  | z :: rest =>
    match tableRead s (deepLine s va z) 64 with
    | .bad code sub s1 => .bad code sub s1
    | .busy s1 => .busy s1
    | .ok a s1 =>
      match tableRead s1 (deepLine s va z + 64) 64 with
      | .bad code sub s2 => .bad code sub s2
      | .busy s2 => .busy s2
      | .ok b s2 =>
        match deepWay s2 va z (a ++ b) with
        | some pte => .ok (some (pte, pageSize z)) s2
        | none => deepProbe s2 va rest

/-- The deep TLB stage, skipped while DTVA.EN is 0 (06 R164, R169). -/
def deepFind (s : State) (va : Nat) : Served (Option (Nat × Nat)) :=
  if s.ostler.dtVa.toNat.testBit 63 then deepProbe s va [0, 1, 2] else .ok none s

/-- A walk's result goes into the first invalid way of its deep TLB set, or into way 0 (06 R169). -/
def deepInsert (s : State) (va size pte : Nat) : State :=
  if !s.ostler.dtVa.toNat.testBit 63 then s
  else
    let z := if size = 2 ^ 16 then 0 else if size = 2 ^ 21 then 1 else 2
    let line := deepLine s va z
    let w := ((List.range 8).find? (fun w => !(ofBytes (physRead s (line + 16 * w) 8)).testBit 63)).getD 0
    let tag := 2 ^ 63 + z * 2 ^ 61 + va / size * size
    let s1 := physWriteKey s (line + 16 * w) 0 (leBytes 8 tag ++ leBytes 8 pte)
    let gens := match (if pteDev s pte = devnum s then none else devGen s (pteDev s pte)) with
      | some g => s1.ostler.deepGens.set (line + 16 * w) g
      | none => s1.ostler.deepGens.del (line + 16 * w)
    { s1 with ostler := { s1.ostler with deepGens := gens } }

/-- A cluster TLB holds 4,096 entries; a further one replaces any (06 R164). -/
def tlbInsert (s : State) (c va size pte : Nat) : State :=
  let dev := pteDev s pte
  let g := if dev = devnum s then none else devGen s dev
  let e : TlbEntry := { page := va / size * size, size := size, pte := BitVec.ofNat 64 pte, gen := (g.map (·.2)).getD 0, port := g.map (·.1) }
  if (getCluster s c).tlb.length < 4096 then modCluster s c (fun k => { k with tlb := k.tlb ++ [e] })
  else modCluster { s with free := s.free + 1 } c (fun k => { k with tlb := k.tlb.set (Config.freePick s.free % k.tlb.length) e })

/-- Device, physical address and key of an address under a leaf entry of a page. -/
def place (s : State) (va size pte : Nat) : Nat × Nat × BitVec 8 :=
  (pteDev s pte, bits pte 43 12 * 4096 / size * size + va % size, BitVec.ofNat 8 (bits pte 11 4))

/-- Whether a translated address leads nowhere: unpopulated memory of this device (06 R159, R166). -/
def unpopulated (s : State) (p : Nat × Nat × BitVec 8) : Bool := decide (p.1 = devnum s) && !populated p.2.1

/-- An access waits at an entry with MIG set, which is read again every 250 ns: the state, or `none` once 8,000 ticks have passed since
its first read (06 R166). -/
def migWait (s : State) (a : Agent) (ea : Nat) : Option State :=
  let start := match (getAgent s a).migReads with
    | some (e, t, _) => if e = ea then t else s.now
    | none => s.now
  if start + 8000 ≤ s.now then none
  else some (later (modAgent (nodeNote s (ea / 64)) a (fun t => { t with migReads := some (ea, start, some (s.now + 250)) })) [.migReread a])

/-- Whether an agent waits for its next re-read. -/
def migAsleep (s : State) (a : Agent) : Bool := ((getAgent s a).migReads.bind (fun m => m.2.2)).isSome

/-- A depot's refusal in the middle of an access. -/
def failIn {α : Type} (code sub kind : Nat) (va : Word) (entry : Nat) (s : State) : Exec α :=
  fun _ => .error (.failed (faultInfo code sub kind va entry) s)

/-- The leaf entry of an address and the size of its page: the cluster TLB, the deep TLB, a walk (06 R164). -/
def leafOf (kind : Nat) (va : Word) : Exec (Nat × Nat) := do
  let a ← theAgent
  let s ← theState
  let v := va.toNat
  let c := agentCluster a
  match tlbFind s c v with
  | some e => pure (e.pte.toNat, e.size)
  | none =>
    match ← served kind va (fun s => deepFind s v) with
    | some (pte, size) => do
      update (fun s => tlbInsert s c v size pte)
      pure (pte, size)
    | none =>
      let s ← theState
      if migAsleep s a then waitIn s
      else
        match walk s v with
        | .ok _ _ _ size pte => do
          update (fun s => tlbInsert (deepInsert (walked s v) v size pte) c v size pte)
          setSelf (fun t => { t with migReads := none })
          pure (pte, size)
        | .fault code sub e => failIn code sub kind va e (walked s v)
        | .mig e ea =>
          (match migWait s a ea with
            | some s1 => waitIn s1
            | none => failIn 0x06 0x03 kind va e s)
        | .bad g =>
          let r := nodeFault s g
          failIn r.1 r.2.1 kind va 0 r.2.2
        | .busy g => served kind va (fun s => nodeWait s g)

/-- Device, physical address and key of an address; a failure is the agent's fault (06 R166, R172, R192). -/
def translate (kind : Nat) (va : Word) : Exec (Nat × Nat × BitVec 8) := do
  let (pte, size) ← leafOf kind va
  let s ← theState
  let r := place s va.toNat size pte
  if unpopulated s r then raise 0x06 0x04 kind va pte
  if !(r.1 = devnum s) && decide (r.1 ∈ s.ostler.gone) then raise 0x0A 0x05 kind va r.1
  pure r

/-- The offset in the depot control window, when a physical address leads there. -/
def depotOff (pa : Nat) : Option Nat :=
  if depotWindow ≤ pa ∧ pa < depotWindow + 0x10000 then some (pa - depotWindow) else none

/-- The leaf entry of an address and the size of its page, for a unit of a cluster that waits by itself (06 R164, R166). -/
def unitLeaf (s : State) (c unit va : Nat) : Served (Nat × Nat) :=
  match tlbFind s c va with
  | some e => .ok (e.pte.toNat, e.size) s
  | none =>
    match deepFind s va with
    | .bad code sub s1 => .bad code sub s1
    | .busy s1 => .busy s1
    | .ok (some (pte, size)) s1 => .ok (pte, size) (tlbInsert s1 c va size pte)
    | .ok none s1 =>
      match unitWalk s1 unit va with
      | .ok (pte, size) s2 => .ok (pte, size) (tlbInsert (deepInsert s2 va size pte) c va size pte)
      | r => r

/-- Whether a page of 64 KiB from `va` on leads to a depot control window, for the pages that a span touches; a page that does not translate
shows it when it is used (06 R414). -/
def depotPages (s : State) (c unit : Nat) (pages : List Nat) : Served Bool :=
  match pages with
  | [] => .ok false s
  | va :: rest =>
    match unitLeaf s c unit va with
    | .busy s1 => .busy s1
    | .bad _ _ s1 => depotPages s1 c unit rest
    | .ok (pte, size) s1 => if (depotOff (place s1 va size pte).2.1).isSome then .ok true s1 else depotPages s1 c unit rest

/-- Whether a span touches a depot control window: one look for each of its pages. -/
def depotInSpan (s : State) (c unit va n : Nat) : Served Bool :=
  depotPages s c unit ((numbersFrom (va / 65536) ((va + n - 1) / 65536 + 1 - va / 65536)).map (fun p => max va (65536 * p)))

/-! ## Recording of reads (08 R214-R216) -/

/-- A span `lo` to `hi` grown by every range that it then overlaps or adjoins, and the ranges left; `fuel` bounds the rounds (08 R215). -/
def absorbRanges (fuel lo hi : Nat) (rs : List (Nat × Nat)) : Nat × Nat × List (Nat × Nat) :=
  match fuel with
  | 0 => (lo, hi, rs)
  | k + 1 =>
    let touches := fun (r : Nat × Nat) => decide (r.1 ≤ hi) && decide (lo ≤ r.1 + r.2)
    let hit := rs.filter touches
    if hit.isEmpty then (lo, hi, rs)
    else absorbRanges k (hit.foldl (fun m r => min m r.1) lo) (hit.foldl (fun m r => max m (r.1 + r.2)) hi) (rs.filter (fun r => !touches r))

/-- A span cut into ranges of at most 2^24 − 1 swatches: the part beyond a full range starts a new one (08 R215). -/
def cutRange (fuel lo len : Nat) : List (Nat × Nat) :=
  match fuel with
  | 0 => []
  | k + 1 => if len ≤ 2 ^ 24 - 1 then [(lo, len)] else (lo, 2 ^ 24 - 1) :: cutRange k (lo + (2 ^ 24 - 1)) (len - (2 ^ 24 - 1))

/-- One range into the buffer: coalesced with what it overlaps or adjoins, or a new range, or ALL (08 R215). -/
def recordRange (b : ReadBuffer) (lo len : Nat) : ReadBuffer :=
  if b.all then b
  else
    let grown := absorbRanges 33 lo (lo + len) b.ranges
    let ranges := grown.2.2 ++ cutRange (grown.2.1 / (2 ^ 24 - 1) + 1) grown.1 (grown.2.1 - grown.1)
    if ranges.length ≤ 32 then { b with ranges := ranges } else { b with all := true }

/-- A change of a block's read buffer, where it is now: at the strand that runs the block, with a removed block, or with one that has ended
while its engine commands go on (08 R217). -/
def modBuffer (s : State) (run : BitVec 32) (block : Nat) (f : ReadBuffer → ReadBuffer) : State :=
  match (getRun s run).blocks.get .waiting block with
  | .resident n => modAgent s (.strand n) (fun t => { t with buffer := f t.buffer })
  | .preempted _ => modRun s run (fun r => { r with saved := r.saved.map (fun b => if b.block = block && decide (b.strand.act = .block run block)
      then { b with strand := { b.strand with buffer := f b.strand.buffer } } else b) })
  | _ => if (getRun s run).ending.has block then
      modRun s run (fun r => { r with ending := r.ending.set block (f (r.ending.get ({}, false) block).1, (r.ending.get ({}, false) block).2) }) else s

/-- A block's read buffer, where it is now. -/
def bufferAt (s : State) (run : BitVec 32) (block : Nat) : Option ReadBuffer :=
  match (getRun s run).blocks.get .waiting block with
  | .resident n => some (s.strands.get {} n).buffer
  | .preempted _ => ((getRun s run).saved.find? (fun b => b.block = block && decide (b.strand.act = .block run block))).map (·.strand.buffer)
  | _ => if (getRun s run).ending.has block then some ((getRun s run).ending.get ({}, false) block).1 else none

/-- The swatches that `n` bytes from `va` touch, as a start and a length; none lies at or above 2^52 (08 R209). -/
def swatchesOf (va n : Nat) : Nat × Nat := (va / 4096, min ((va + n - 1) / 4096 + 1) (2 ^ 40) - va / 4096)

/-- Whether a buffer of a run takes a read: some of its swatches are watched and they do not all lie in the skip window (08 R214, R216). -/
def readTaken (r : Run) (b : ReadBuffer) (sw : Nat × Nat) : Bool :=
  r.lr.record && r.lr.watch.any (fun w => decide (w.1 / 4096 < sw.1 + sw.2) && decide (sw.1 < w.1 / 4096 + w.2))
    && !(decide (b.skipStart ≤ sw.1) && decide (sw.1 + sw.2 ≤ b.skipStart + b.skipLen) && decide (0 < b.skipLen))

/-- A read that an engine makes for a block's command is recorded when it is made (08 R214). -/
def recordEngineRead (s : State) (run : BitVec 32) (block : Nat) (va n : Nat) : State :=
  match bufferAt s run block with
  | some b => if readTaken (getRun s run) b (swatchesOf va n) then modBuffer s run block (fun b => recordRange b (swatchesOf va n).1 (swatchesOf va n).2) else s
  | none => s

/-- A read of `n` bytes at a virtual address by a block of a recorded run enters the strand's read buffer (08 R214, R216). -/
def recordRead (s : State) (a : Agent) (va n : Nat) : State :=
  match (getAgent s a).act with
  | .block run _ =>
    let sw := swatchesOf va n
    if readTaken (getRun s run) (getAgent s a).buffer sw then modAgent s a (fun t => { t with buffer := recordRange t.buffer sw.1 sw.2 }) else s
  | _ => s

def noteRead (va : Word) (n : Nat) : Exec Unit := update (fun s => recordRead s s.cur va.toNat n)

/-! ## The stash (06 R179, 14 R342) -/

/-- Stash line (pool line number) that a mapped address belongs to on a tile, with its entry. -/
def stashOf (s : State) (tile : Nat) (ctx : BitVec 32) (va : Nat) : Option (Nat × StashEntry) :=
  (getTile s tile).stash.findSome? (fun e =>
    if e.ctx == ctx && decide (e.base ≤ va) && decide (va < e.base + e.length) then some (e.firstLine + (va - e.base) / 128, e) else none)

/-! ## Loads -/

/-- Sends a request and leaves the agent waiting for its reply (06 R181, R183). -/
def awaitRemote (s : State) (a : Agent) (dev : Nat) (kind : ReqKind) (addr : Word) (op : Nat) (body : List Byte) : State :=
  let (s1, tag) := sendRequest s dev (some a) kind addr (agentCtx s a) op body
  modAgent s1 a (fun t => { t with status := .awaitTag tag })

/-- The granule of a global address in the issuing cluster's L2, filled from its home on a miss. -/
def granule (kind : Nat) (va : Word) (acq : Bool := false) : Exec Vec := do
  let a ← theAgent
  update (fun s => l2Scrub s (agentCluster a) (va.toNat / 64))
  let s ← theState
  let c := agentCluster a
  match l2Find s c (va.toNat / 64) with
  | some l => if l.poison then raise 0x07 0x02 kind va else pure l.data
  | none =>
    let (dev, pa, key) ← translate kind va
    let s ← theState
    if dev = devnum s then served kind va (fun s => clusterFill s c (va.toNat / 64) (pa / 64) key)
    else if !hasRoute s dev then raise 0x15 0x01 kind va
    else if writeOut s dev pa then stall
    else waitIn (awaitRemote s a dev (.load c (va.toNat / 64) key.toNat kind) va 0x01 (requestWord s dev (pa / 64 * 64) (agentCtx s a) key 6 false acq))

/-- Both granules of a mapped 128-byte line stand in the cluster. -/
def lineHeld (s : State) (c va : Nat) : Bool := (l2Find s c (va / 128 * 2)).isSome && (l2Find s c (va / 128 * 2 + 1)).isSome

/-- First touch of a stash-mapped line fills it, with RD checked, and sets its full/empty bit; a line that has been invalidated since is
filled afresh (06 R179). -/
def stashTouch (va : Word) (acq : Bool := false) : Exec Unit := do
  let a ← theAgent
  let s ← theState
  match stashOf s (agentTile a) (agentCtx s a) va.toNat with
  | none => pure ()
  | some (line, _) =>
    if decide (line ∈ (getTile s (agentTile a)).stashFilled) && lineHeld s (agentCluster a) va.toNat then pure ()
    else
      let base := BitVec.ofNat 64 (va.toNat / 128 * 128)
      let _ ← spanRights 7 1 base 128
      let _ ← granule 7 base acq
      let _ ← granule 7 (base + 64) acq
      noteRead base 128
      update (fun s => setFull (modTile s (agentTile a) (fun t => { t with stashFilled := with1 t.stashFilled line })) (agentTile a) line)

/-- The device and the offset, when a translated address leads to a depot control window. A cached line never does. -/
def depotPlace (kind : Nat) (va : Word) : Exec (Option (Nat × Nat)) := do
  let a ← theAgent
  let s ← theState
  if (l2Find s (agentCluster a) (va.toNat / 64)).isSome then pure none
  else
    let (dev, pa, _) ← translate kind va
    pure ((depotOff pa).map (fun off => (dev, off)))

/-- A register of another device's depot control window, read by a request of 8 bytes (06 R182, R188, R414; log 21). -/
def depotRemote (kind dev off : Nat) (va : Word) (acq : Bool) : Exec (List Byte) := do
  let a ← theAgent
  let t ← self
  let s ← theState
  match t.replyValue with
  | some v => pure (leBytes 8 v.toNat)
  | none =>
    if !hasRoute s dev then raise 0x15 0x01 kind va
    else if writeOut s dev (depotWindow + off) then stall
    else
      let body := requestWord s dev (depotWindow + off) (agentCtx s a) 0 3 false acq
      waitIn (modAgent (awaitRemote s a dev (.register kind) va 0x01 body) a (fun t => { t with sent := true }))

/-- An access of `n` bytes of the pool that reads them: MEM_UE, sub-code POOL, where one of their words has an uncorrectable error (06 R178). -/
def poolSound (kind : Nat) (va : Word) (tile off n : Nat) : Exec Unit := do
  let s ← theState
  if wordsHit (getTile s tile).poolBad off n then raise 0x08 0x03 kind va else pure ()

/-- Reads the bytes that a checked access reaches. -/
def readTarget (k : Kind) (va : Word) (n : Nat) (t : Target) : Exec (List Byte) := do
  let a ← theAgent
  let s ← theState
  match t with
  | .pool off => do
    poolSound k.kind va (agentTile a) off n
    pure (poolRead s (agentTile a) off n)
  | .ostler off => pure (leBytes n (ostlerRead s off))
  | .direct pa => do
    noteRead va n
    served k.kind va (fun s => tableRead s pa n)
  | .peer bus =>
    match (me s).peerBytes.find? (fun e => e.1 == bus) with
    | some e => do
      noteRead va n
      pure (padTo n e.2)
    | none => waitIn (modMe { s with busOut := s.busOut ++ [.read (BitVec.ofNat 64 bus) n a] } (fun t => { t with status := .awaitPeer bus n k.kind va }))
  | .global rights =>
    match ← depotPlace k.kind va with
    | some (dev, off) =>
      if !(rights.testBit 4) then raise 0x04 0x01 k.kind va
      else do
        windowForm k va n
        noteRead va n
        let s ← theState
        if dev = devnum s then pure (leBytes n (depotRegRead s off)) else depotRemote k.kind dev off va k.acq
    | none =>
      stashTouch va k.acq
      let v ← granule k.kind va k.acq
      noteRead va n
      pure ((vecBytes v).drop (va.toNat % 64) |>.take n)

/-- A load of `n` bytes with all its checks (14 R322, R323). -/
def loadBytes (k : Kind) (va : Word) (n : Nat) : Exec (List Byte) := do
  let t ← check k va n
  readTarget k va n t

/-! ## Stores -/

/-- Every aperture line that is set: its tile, its context, its address. The table of an image that has been saved is not resident, and a
store to its line still asks for a start, which then fails (15 R362, R368). -/
def apertureLines (s : State) : List (Nat × BitVec 32 × Nat) :=
  (s.tiles.flatMap (fun e => e.2.tables.map (fun t => (e.1, BitVec.ofNat 32 t.1, t.2.aperture.toNat)))
    ++ s.runs.flatMap (fun r => r.2.images.map (fun i => (i.tile, r.2.ctx, i.table.aperture.toNat)))).filter (fun l => !(l.2.2 = 0)) |>.dedup

/-- A whole aligned 8-byte store to word 0 to 3 of an aperture line starts a copy on that channel (15 R368). `hit` says which lines the
store falls in; `off` is its place in the line. -/
def apertureStarts (s : State) (hit : Nat → Bool) (off : Nat) (bs : List Byte) : State :=
  if bs.length = 8 ∧ off % 8 = 0 ∧ off < 32 then
    soon s (((apertureLines s).filter (fun l => hit l.2.2)).map (fun l =>
      .drayApertureStart (l.1, l.2.1) ⟨off / 8 % 4, Nat.mod_lt _ (by decide)⟩ (BitVec.ofNat 64 (ofBytes bs))))
  else s

/-- The same for a store to a virtual address. -/
def apertureStart (s : State) (va : Nat) (bs : List Byte) : State := apertureStarts s (fun l => l == va / 64 * 64) (va % 64) bs

/-- The byte mask of `n` bytes at an offset of a granule. -/
def maskAt (off n : Nat) : Nat := (2 ^ n - 1) * 2 ^ off

/-- A store's bytes within a 64-byte granule image. -/
def granuleImage (off : Nat) (bs : List Byte) : Vec := vecOfBytes (List.replicate off 0 ++ bs)

/-- A store whose depot refuses it completes, and its fault waits for the next boundary (06 R174). -/
def deferStore (kind code sub : Nat) (va : Word) (entry : Nat) : Exec Unit :=
  setSelf (fun t => { t with deferred := some (faultInfo code sub (kind + 128) va entry) })

/-- A store to a granule of another device leaves as a WR packet and counts on the acknowledgement counter (07 R198). -/
def storeRemote (kind : Nat) (a : Agent) (dev pa : Nat) (key : BitVec 8) (va : Word) (bs : List Byte) (rel : Bool) (s : State) : State :=
  let off := va.toNat % 64
  let body := requestWord s dev (pa / 64 * 64) (agentCtx s a) key 6 rel false ++ leBytes 8 (maskAt off bs.length) ++ vecBytes (granuleImage off bs)
  let (s1, _) := sendRequest (forgetFar s dev pa 1) dev (some a) (.store kind) va (agentCtx s a) 0x03 body
  modAgent s1 a (fun t => { t with acks := t.acks + 1 })

/-- Writes the bytes of a checked store where they go. `rel` marks a release in the request word. -/
def writeTarget (k : Kind) (va : Word) (bs : List Byte) (rel : Bool) (t : Target) : Exec Unit := do
  let a ← theAgent
  let s ← theState
  let tag := match (me s).act with
    | .free => 0
    | act => actRun act
  match t with
  | .pool off =>
    if wordsTorn (getTile s (agentTile a)).poolBad off bs.length then raise 0x08 0x03 k.kind va
    else update (fun s => poolWrite s (agentTile a) off bs)
  | .ostler off => update (fun s => soon s (ostlerEvents off (BitVec.ofNat 64 (ofBytes bs))))
  | .direct pa => directWrite pa
  | .peer bus => update (fun s => { s with busOut := s.busOut ++ [.write (BitVec.ofNat 64 bus) bs] })
  | .global rights =>
    match ← depotPlace k.kind va with
    | some (dev, off) =>
      if !(rights.testBit 4) then raise 0x04 0x01 k.kind va
      else do
        windowForm k va bs.length
        let s ← theState
        if dev = devnum s then update (fun s => depotPut s off (BitVec.ofNat 64 (ofBytes bs)))
        else storeHome a tag (agentCluster a) (va.toNat / 64) dev (depotWindow + off) 0
    | none =>
      stashTouch va
      let c := agentCluster a
      let vline := va.toNat / 64
      update (fun s => l2Scrub s c vline)
      let s ← theState
      match l2Find s c vline with
      | some l =>
        if l.owned then update (fun s => apertureStart (l2Write s c vline (va.toNat % 64) bs tag) va.toNat bs)
        else storeHome a tag c vline l.dev l.pa l.key
      | none =>
        let (dev, pa, key) ← translate k.kind va
        storeHome a tag c vline dev pa key
where
  directWrite (pa : Nat) : Exec Unit := do
    let s ← theState
    match depotWrite s (pa / 64) 0 (granuleImage (pa % 64) bs) (maskAt (pa % 64) bs.length) 0 with
    | .ok _ s1 => update (fun _ => s1)
    | .bad code sub s1 => do
      update (fun _ => s1)
      deferStore k.kind code sub va 0
    | .busy s1 => waitIn s1
  storeHome (a : Agent) (tag : BitVec 32) (c vline dev pa : Nat) (key : BitVec 8) : Exec Unit := do
    let s ← theState
    if dev = devnum s then
      match clusterOwn s c vline (pa / 64) key (decide (bs.length = 64)) tag with
      | .ok _ s1 => update (fun _ => apertureStart (l2Write s1 c vline (va.toNat % 64) bs tag) va.toNat bs)
      | .bad code sub s1 => do
        update (fun _ => s1)
        deferStore k.kind code sub va 0
      | .busy s1 => waitIn s1
    else if dev ∈ s.ostler.gone then deferStore k.kind 0x0A 0x05 va dev
    else if !hasRoute s dev then deferStore k.kind 0x15 0x01 va 0
    else if !(k.kind = 6) && writeOut s dev pa then stall
    else update (fun s => apertureStart (storeRemote k.kind a dev pa key va bs rel s) va.toNat bs)

/-- A store of bytes with all its checks (14 R322, R324). -/
def storeBytes (k : Kind) (va : Word) (bs : List Byte) (rel : Bool := false) : Exec Unit := do
  let t ← check k va bs.length
  writeTarget k va bs rel t

/-! ## Read-modify-write (14 R329, R330) -/

/-- An atomic step at the point of a local address: the old bytes, and the new ones if the step stores. -/
def rmwLocal (k : Kind) (va : Word) (n : Nat) (t : Target) (f : Nat → Option Nat) (recorded : Bool := true) : Exec Nat := do
  let a ← theAgent
  let s ← theState
  let tag := actRun (me s).act
  match t with
  | .pool off =>
    poolSound k.kind va (agentTile a) off n
    let old := ofBytes (poolRead s (agentTile a) off n)
    (match f old with
      | some v => update (fun s => poolWrite s (agentTile a) off (leBytes n v))
      | none => pure ())
    pure old
  | .direct pa =>
    let old := ofBytes (← served k.kind va (fun s => tableRead s pa n))
    (match f old with
      | some v => served k.kind va (fun s => depotWrite s (pa / 64) 0 (granuleImage (pa % 64) (leBytes n v)) (maskAt (pa % 64) n) 0)
      | none => pure ())
    pure old
  | _ =>
    match ← depotPlace k.kind va with
    | some _ => raise 0x04 0x01 k.kind va
    | none =>
      stashTouch va
      let c := agentCluster a
      let vline := va.toNat / 64
      update (fun s => l2Scrub s c vline)
      let s ← theState
      let home ← (match l2Find s c vline with
        | some l => if l.poison then raise 0x07 0x02 k.kind va else pure (l.dev, l.pa, l.key)
        | none => translate k.kind va)
      let s ← theState
      if !(home.1 = devnum s) then raise 0x05 0x01 k.kind va
      served k.kind va (fun s => clusterOwn s c vline (home.2.1 / 64) home.2.2 false tag)
      let v ← granule k.kind va
      if recorded then noteRead va n
      let old := ofBytes (((vecBytes v).drop (va.toNat % 64)).take n)
      (match f old with
        | some x => update (fun s => l2Write s c vline (va.toNat % 64) (leBytes n x) tag)
        | none => pure ())
      pure old

/-- The home device of a global address: the L2's record of it, else its translation. -/
def homeOf (k : Kind) (va : Word) : Exec (Nat × Nat × BitVec 8) := do
  let a ← theAgent
  let s ← theState
  match l2Find s (agentCluster a) (va.toNat / 64) with
  | some l => pure (l.dev, l.pa + va.toNat % 64, l.key)
  | none => translate k.kind va

end Sys2Proof.Machine
end

