-- ==== Sys2Proof/Machine/Blocks.lean ====
section
/-!
DEFINITION. The life of a block: gears that follow from it, the end of an activation, the waybill entry, completion and arming of a run
(04 R108-R115, 05 R134-R147, 08 R213-R218, 02 R74).
-/
namespace Sys2Proof.Machine

/-! ## Gears (04 R108, R111, R115) -/

/-- The strands of a tile that hold a block or a handler. -/
def tileStrands (s : State) (tile : Nat) : List (Nat × Strand) :=
  s.strands.filter (fun e => decide (e.1 / 16 = tile) && !(decide (e.2.act = .free)))

/-- Whether every strand that holds a block on the tile is in the doze wait (04 R111). -/
def tileDozes (s : State) (tile : Nat) : Bool :=
  !(tileStrands s tile).isEmpty && (tileStrands s tile).all (fun e => e.2.dozing)

/-- Tolerated wake latency of a tile's partition, in ns (04 R114). -/
def tolerance (s : State) (tile : Nat) : Nat := (s.host.lattol.toList.getD (partOfDie s (tile / 128)) 0).toNat

/-- A trigger that a free strand of a core can take, the oldest whose slot has a handler: its run, slot, line and handler (05 R144). -/
def eligible (u : CoreUnit) : Option (BitVec 32 × Nat × Word × Word) :=
  u.triggers.findSome? (fun e => (u.handlers.find? (fun h => h.1 == e.1 && h.2.1 == e.2.1)).map (fun h => (e.1, e.2.1, e.2.2, h.2.2)))

/-- Whether block messages or eligible triggers wait on a tile. -/
def workWaits (s : State) (tile : Nat) : Bool :=
  (List.range 4).any (fun c =>
    let u := getCore s (4 * tile + c)
    (eligible u).isSome || u.inbox.any (fun e => match e with
      | .block _ _ _ _ => true
      | .courier _ => false))

/-- The gear a tile should run in: the doze override, the highest request of its strands, or the policy for a tile that holds no block; work
that waits to start leaves the gear to it. -/
def wantedGear (s : State) (tile : Nat) : Gear :=
  if tileDozes s tile then .walk
  else if (tileStrands s tile).isEmpty then
    if workWaits s tile then (getTile s tile).gear
    else if 240 ≤ tolerance s tile then .walk
    else .gallop
  else if (tileStrands s tile).any (fun e => e.2.gearReq) then .gallop else .walk

/-- Whether a tile that holds no block should park, where its partition tolerates the wake (04 R115). -/
def shouldPark (s : State) (tile : Nat) : Bool :=
  (tileStrands s tile).isEmpty && decide (4750 ≤ tolerance s tile) && !(decide ((getTile s tile).gear = .park)) && !ostlerTile s tile

/-- A tile that should park tries to. -/
def idleCheck (s : State) (tile : Nat) : State :=
  if shouldPark s tile && !s.agenda.contains (.park tile) then later s [.park tile] else s

/-- A change of gear begins. A tile that begins a change to GALLOP raises its cluster's L2 rail (04 R107, R109). -/
def beginChange (s : State) (tile : Nat) (want : Gear) : State :=
  let s1 := later (modTile s tile (fun t => { t with changing := some want })) [.gearRailSettled tile]
  if want = .gallop ∧ (getCluster s (tile / 8)).railLow then
    later (modCluster s1 (tile / 8) (fun c => { c with railLow := false })) [.l2RailRisen (tile / 8)]
  else s1

/-- A change of gear begins when the tile's gear should change and none is in progress (04 R109, R110). -/
def gearCheck (s : State) (tile : Nat) : State :=
  let t := getTile s tile
  let want := wantedGear s tile
  let s1 := modTile s tile (fun t => { t with doze := tileDozes s tile })
  if t.changing.isSome || decide (t.gear = .park) || decide (t.gear = want) then idleCheck s1 tile else beginChange s1 tile want

/-- A wake request, with the gear that its work requests, if it is work (04 R113). -/
def askWake (s : State) (tile : Nat) (gear : Option Gear) : State :=
  later (modTile s tile (fun t =>
    { t with
      wakeAsked := true
      wakeGear := if t.wakeGear = some .gallop then t.wakeGear else if gear.isSome then gear else t.wakeGear
      wakeTick := if t.wakeAsked then t.wakeTick else s.now })) [.wake tile]

/-- Tiles without a block follow a tolerance that has changed: they leave states that exceed it, and may enter lower ones (04 R115). -/
def followTolerance (s : State) (tiles : List Nat) : State :=
  (tiles.filter (fun t => (tileStrands s t).isEmpty)).foldl (fun s t =>
    if decide ((getTile s t).gear = .park) && decide (tolerance s t < 4750) then askWake s t none else gearCheck s t) s

/-! ## The waybill entry (08 R213, R217) -/

/-- Ranges in increasing start order. -/
def sortRanges (rs : List (Nat × Nat)) : List (Nat × Nat) := rs.mergeSort (fun a b => decide (a.1 ≤ b.1))

/-- Place of the smallest gap between neighbours, the lower pair on a tie. -/
def smallestGap (rs : List (Nat × Nat)) : Nat :=
  let gaps := (rs.zip (rs.drop 1)).map (fun p => p.2.1 - (p.1.1 + p.1.2))
  gaps.idxOf (gaps.foldl min (gaps.headD 0))

/-- Merges the neighbours at place `i`. -/
def mergeAt (rs : List (Nat × Nat)) (i : Nat) : List (Nat × Nat) :=
  match rs[i]?, rs[i + 1]? with
  | some a, some b => rs.take i ++ (a.1, b.1 + b.2 - a.1) :: rs.drop (i + 2)
  | _, _ => rs

/-- Merges until 14 remain; `none` when a merge would exceed 2^24 − 1 swatches. -/
def mergeTo14 (fuel : Nat) (rs : List (Nat × Nat)) : Option (List (Nat × Nat)) :=
  match fuel with
  | 0 => some rs
  | k + 1 =>
    if rs.length ≤ 14 then some rs
    else
      let m := mergeAt rs (smallestGap rs)
      if m.any (fun r => decide (2 ^ 24 - 1 < r.2)) then none else mergeTo14 k m

/-- The 128 bytes of an entry. -/
def entryBytes (block : Nat) (valid all replayed nolog : Bool) (round nsamp : Nat) (rs : List (Nat × Nat)) : List Byte :=
  leBytes 4 block ++ [BitVec.ofNat 8 (b2n valid + 2 * b2n all + 4 * b2n replayed + 8 * b2n nolog), BitVec.ofNat 8 rs.length,
    BitVec.ofNat 8 round, BitVec.ofNat 8 nsamp] ++ List.replicate 8 0
    ++ padTo 112 (rs.flatMap (fun r => leBytes 8 (r.1 * 2 ^ 24 + r.2)))

/-- Round of a run's relaunch, 0 outside one. -/
def relaunchRoundOf (r : Run) : Nat :=
  match r.relaunch with
  | some (_, round, _, _) => round
  | none => 0

/-- The entry that a block's end writes (08 R217, 16 R384). -/
def writeEntry (s : State) (run : BitVec 32) (block : Nat) (b : ReadBuffer) (valid : Bool) : State :=
  let r := getRun s run
  if !r.lr.record then s
  else
    let merged := if b.all then none else mergeTo14 32 (sortRanges b.ranges)
    let bytes := entryBytes block valid merged.isNone r.relaunch.isSome b.nolog (relaunchRoundOf r) b.log.length (merged.getD [])
    regionWrite s run (0x1000 + 128 * block) bytes

/-- Whether a block has engine commands under way whose reads or samples its entry will hold: panel loads and Felt samples (08 R217). -/
def recordsOpen (s : State) (run : BitVec 32) (block : Nat) : Bool :=
  s.tiles.any (fun e => (e.2.queue ++ e.2.running.toList.map (·.cmd)).any (fun c => c.run == run && c.block == some block && loads c.op))
  || s.felt.toList.any (fun f => (f.queue ++ f.converting.toList).any (fun c => c.run == run && c.block = block && samples c.op))
where
  loads (op : MatrixOp) : Bool := match op with
    | .pld _ _ _ => true
    | _ => false
  samples (op : FeltOp) : Bool := match op with
    | .sample _ _ => true
    | _ => false

/-- A block's end: its entry is written once every access of it has been recorded (08 R217). -/
def endEntry (s : State) (run : BitVec 32) (block : Nat) (b : ReadBuffer) (valid : Bool) : State :=
  if (getRun s run).lr.record && recordsOpen s run block then modRun s run (fun r => { r with ending := r.ending.set block (b, valid) })
  else writeEntry s run block b valid

/-- The entries of ended blocks whose engine commands are over are written. -/
def closeEntries (s : State) (run : BitVec 32) : State :=
  ((getRun s run).ending.filter (fun e => !recordsOpen s run e.1)).foldl (fun s e =>
    writeEntry (modRun s run (fun r => { r with ending := r.ending.del e.1 })) run e.1 e.2.1 e.2.2) s

/-- A change of the waybill status word: one 8-byte store (08 R212). -/
def setWbWord (s : State) (run : BitVec 32) (w : Nat) : State :=
  regionWrite (modRun s run (fun r => { r with wbWord := BitVec.ofNat 64 w })) run 0 (leBytes 8 w)

/-! ## Completion and arming (02 R74, 08 R218) -/

/-- Watched 64 KiB pages of a record, by virtual page number. -/
def watchedPages (lr : LaunchRecord) : List Nat :=
  (lr.watch.flatMap (fun w => numbersFrom (w.1 / 65536) ((w.1 + 4096 * w.2 + 65535) / 65536 - w.1 / 65536))).dedup

/-- The physical page of a watched page, `none` when its swatches are treated as set (assumption log 20). -/
def armPage (s : State) (vp : Nat) : Option Nat :=
  match walk s (vp * 65536) with
  | .ok dev pa _ _ _ => if dev = devnum s then some pa else none
  | _ => none

/-- What the arming of a run must still wait for: an entry with MIG set, up to 8,000 ticks, or a node that another device owns (08 R218). -/
def armWaits (s : State) (run : BitVec 32) : Served Unit :=
  let since := (getRun s run).arming.getD s.now
  (watchedPages (getRun s run).lr).foldl (fun r vp =>
    match r with
    | .ok _ s =>
      match walk s (vp * 65536) with
      | .mig _ _ => if since + 8000 ≤ s.now then .ok () s else .busy s
      | .busy g =>
        match settle s g none with
        | .ok _ s1 => .busy s1
        | .bad _ _ s1 => .ok () s1
        | .busy s1 => .busy s1
      | _ => .ok () s
    | r => r) (.ok () s)

/-- Lines of a physical page held owned by a local cluster are written back and left shared. -/
def cleanPage (s : State) (pa : Nat) : State :=
  (s.l2.filter (fun l => l.owned && l.dev == devnum s && decide (pa ≤ l.pa) && decide (l.pa < pa + 0x10000))).foldl
    (fun s l => match snoopLocal s (l.pa / 64) l.cluster with
      | .ok _ s1 => s1
      | .bad _ _ s1 => s1
      | .busy s1 => s1) s

/-- The owned granules of a run's watched pages are written back, so that a later write takes ownership anew and marks a map: before the
maps are swapped, and before a round map is read (08 R218, R220; assumption log 20). -/
def cleanWatched (s : State) (run : BitVec 32) : State :=
  (getRun s run).armed.foldl (fun s e => match e.2 with
    | some pa => cleanPage s pa
    | none => s) s

/-- Arming at completion (08 R218). -/
def armRun (s : State) (run : BitVec 32) : State :=
  let r := getRun s run
  if !r.lr.record then s
  else
    let pages := (watchedPages r.lr).map (fun vp => (vp, armPage s vp))
    let s1 := pages.foldl (fun s e => match e.2 with
      | some pa => cleanPage s pa
      | none => s) s
    let w := r.wbWord.toNat
    let w := if r.faultCode = 0 then setBits (setBits w 63 61 1) 39 32 0 else setBits (setBits w 63 61 4) 39 32 r.faultCode.toNat
    setWbWord (modRun s1 run (fun r => { r with armed := pages })) run w

/-- Whether an engine command, a copy, a Felt command or a handler of a run is still under way (05 R136, 02 R74). -/
def runBusy (s : State) (run : BitVec 32) : Bool :=
  s.tiles.any (fun e =>
    e.2.queue.any (fun c => c.run == run) || e.2.running.any (fun r => r.cmd.run == run)
      || e.2.dray.toList.any (fun q => q.any (fun c => c.run == run)))
  || s.felt.toList.any (fun f => f.queue.any (fun c => c.run == run) || f.converting.any (fun c => c.run == run) || f.runCmd.any (fun c => c.run == run))
  || s.strands.any (fun e => actRun e.2.act == run && !(decide (e.2.act = .free)))
  || s.requests.any (fun e => (isStore e.2.kind || e.2.kind == .amo) && e.2.ctx == (getRun s run).ctx)

/-- What a core holds for the runs that a test picks goes: held triggers, slot bindings, TRIGDROP, held SENDs (05 R147). -/
def dropOf (p : BitVec 32 → Bool) (u : CoreUnit) : CoreUnit :=
  { u with
    triggers := u.triggers.filter (fun e => !p e.1)
    handlers := u.handlers.filter (fun e => !p e.1)
    dropped := u.dropped.filter (fun e => !p e.1)
    held := u.held.filter (fun h => !p h.run) }

/-- Where a page of a save area lies, when it is memory of this device. -/
def savePlace (s : State) (ctx : BitVec 32) (slot : Nat) : Option (Nat × BitVec 8) :=
  match walk s ((getCtx s ctx).saveArea.toNat + 0x1000 * slot) with
  | .ok dev pa key _ _ => if dev = devnum s ∧ pa < hbmSize then some (pa, key) else none
  | _ => none

/-- The saved tile image of a number, with the context whose save area holds it. -/
def savedImage (s : State) (image : Nat) : Option (BitVec 32 × SavedImage) :=
  s.runs.findSome? (fun r => (r.2.images.find? (fun i => i.ids.any (fun x => x.2 == image))).map (fun i => (r.2.ctx, i)))

/-- What a change makes of a saved tile image, wherever it is kept. -/
def modSaved (s : State) (image : Nat) (f : SavedImage → SavedImage) : State :=
  { s with runs := s.runs.map (fun r => (r.1, { r.2 with images := r.2.images.map (fun i => if i.ids.any (fun x => x.2 == image) then f i else i) })) }

/-- `n` bytes at a pool offset of a saved tile image, in one page: those of its save area (03 R91, R92). -/
def savedRead (s : State) (image off n : Nat) : List Byte :=
  match savedImage s image with
  | none => []
  | some (ctx, i) =>
    match savePlace s ctx (i.page + off / 4096) with
    | some (pa, _) => physRead s (pa + off % 4096) n
    | none => memRead i.pool off n

/-- Bytes written at a pool offset of a saved tile image, in one page: into its save area too. -/
def savedWrite (s : State) (image off : Nat) (bs : List Byte) : State :=
  let s1 := modSaved s image (fun i => { i with pool := memWrite i.pool off bs })
  match (savedImage s image).bind (fun e => savePlace s e.1 (e.2.page + off / 4096)) with
  | some (pa, key) => physWriteKey s1 (pa + off % 4096) key bs
  | none => s1

/-- An update of a barrier in a saved tile image. -/
def savedBar (s : State) (image : Nat) (va : Word) (u : BarUpdate) : State :=
  let off := va.toNat - windowBase
  savedWrite s image off (leBytes 8 (barStep (ofBytes (savedRead s image off 8)) (ofBytes (savedRead s image (off + 8) 8)) u))

/-- An update of a barrier of a tile image, wherever the image is; none when it is gone. -/
def barAt (s : State) (image : Nat) (va : Word) (u : BarUpdate) : State :=
  match imageTile s image with
  | some tile => barUpdate s tile va u
  | none => if va = 0 then s else savedBar s image va u

/-- An arrival at a barrier of a tile image. One that names none and fails leaves a HW record of the tile where it was issued (01 R48). -/
def arriveAt (s : State) (tile image : Nat) (va : Word) (u : BarUpdate) (sub : Nat) : State :=
  if va = 0 then barOrRecord s tile va u sub else barAt s image va u

/-- The images of a run leave every tile: boots are discarded, held triggers too, its template tables, mappings and capability
(05 R138, R147). -/
def dropImage (s : State) (run : BitVec 32) (tile : Nat) : State :=
  let t := getTile s tile
  if t.images.any (fun i => i.1 == run) then
    let ctx := (getRun s run).ctx
    let left := t.images.filter (fun i => !(i.1 == run))
    let last := !left.any (fun i => i.2 == ctx)
    let s1 := modTile s tile (fun t =>
      { t with
        images := left
        ids := t.ids.del run.toNat
        tables := if last then t.tables.del ctx.toNat else t.tables
        mcap := if last then t.mcap.filter (fun e => !(e.1 == ctx)) else t.mcap })
    (List.range 4).foldl (fun s c => modCore s (4 * tile + c) (fun u => dropOf (· == run) u)) (if last then unmapEntries s1 tile (fun e => e.ctx == ctx) else s1)
  else s

def dropImages (s : State) (run : BitVec 32) : State := s.tiles.foldl (fun s e => dropImage s run e.1) s

/-- The status of a packet whose queue is destroyed: KILLED, else DISCARDED, else OK (02 R75 step 4). -/
def destroyedStatus (killed : Nat) (discarded : Bool) : Nat := if 0 < killed then 2 else if discarded then 3 else 0

/-- A run's completion is released to the packet or barrier that started it (02 R74, R75). -/
def releaseRun (s : State) (run : BitVec 32) : State :=
  let s1 := dropImages s run
  let r := getRun s1 run
  let s2 := modRun s1 run (fun r => { r with complete := true })
  match r.origin with
  | .queue q seq =>
    packetDone s2 q seq (fun p =>
      { p with
        exited := r.exited
        killed := r.killed
        code := if p.destroyed then 0 else r.faultCode
        status := if p.destroyed then destroyedStatus r.killed p.discarded else if !(r.faultCode = 0) then 1 else 0 })
  | .barrier tile image va => arriveAt s2 tile image va (if r.faultCode = 0 then .arrive else .arriveFail r.faultCode.toNat) 9
  | .none => s2

/-- A run's work is complete. One that keeps a waybill is armed first, and its completion is released when the words of the region that
arming changes have been written (08 R218); `regionsOut` goes on with it. -/
def completeRun (s : State) (run : BitVec 32) : State :=
  if !(getRun s run).lr.record then releaseRun s run
  else if (getRun s run).complete then s
  else modRun s run (fun r => { r with arming := some (r.arming.getD s.now) })

/-- A run whose arming is begun: armed when no page of it has to be waited for; complete when its region's writes are made. -/
def armStep (s : State) (run : BitVec 32) : State :=
  let r := getRun s run
  if r.arming.isNone || !r.parked.isEmpty || !r.ending.isEmpty then s
  else if wbState r.wbWord = 0 then
    match armWaits s run with
    | .ok _ s1 => armRun s1 run
    | .bad _ _ s1 => s1
    | .busy s1 => s1
  else releaseRun (modRun s run (fun r => { r with arming := none })) run

/-- A relaunch's completion goes to who asked for it (08 R220, R221; 16 R395). -/
def releaseRelaunch (s : State) (run : BitVec 32) (origin : Origin) (status code rounds : Nat) : State :=
  let s1 := dropImages s run
  let r := getRun s1 run
  let s2 := modRun s1 run (fun r => { r with finishing := none, complete := true, saved := [], images := [], floor := 0xffffffff })
  match origin with
  | .queue q seq =>
    packetDone s2 q seq (fun p =>
      { p with
        exited := r.exited
        killed := r.killed
        code := BitVec.ofNat 8 code
        status := status
        result := BitVec.ofNat 64 rounds })
  | .barrier tile image va => arriveAt s2 tile image va (if code = 0 then .arrive else .arriveFail code) 9
  | .none => s2

/-- A relaunch that has ended releases its completion when its region's writes are made. -/
def finishStep (s : State) (run : BitVec 32) : State :=
  match (getRun s run).finishing with
  | some (origin, status, code, rounds) => if (getRun s run).parked.isEmpty then releaseRelaunch s run origin status code rounds else s
  | none => s

/-- What hardware does for the waybills between two steps: the writes of their regions, the arming of runs whose work is complete, the
completions of relaunches. -/
def regionsOut (s : State) : State :=
  let s1 := regionsFlush s
  (s1.runs.filter (fun e => e.2.arming.isSome || e.2.finishing.isSome)).foldl (fun s e =>
    finishStep (armStep s (BitVec.ofNat 32 e.1)) (BitVec.ofNat 32 e.1)) s1

/-- A run all of whose blocks have finished, and whose engines and writes have, completes; one in a relaunch goes to its next round. -/
def checkRun (s : State) (run : BitVec 32) : State :=
  let s := if (getRun s run).ending.isEmpty then s else closeEntries s run
  let r := getRun s run
  if !(s.runs.has run.toNat) || !(r.remaining = 0) || runBusy s run then s
  else if r.relaunch.isSome then later s [.relaunchRound run]
  else if r.complete then s
  else completeRun s run

/-! ## The end of an activation (05 R136, R152) -/

/-- Names that a command of the matrix engine uses. -/
def namesUsed (op : MatrixOp) : List Nat :=
  match op with
  | .accZero n => [n]
  | .accWr n _ _ => [n]
  | .accSt n _ => [n]
  | .mma _ n _ _ _ _ => [n]
  | .mscale d p _ _ => [d, p]
  | .mout d _ _ _ => [d]
  | _ => []

/-- A command of a strand whose names go takes them with it: it completes on their banks (05 R136). -/
def ownNames (t : Strand) (n : Nat) (c : MatrixCmd) : MatrixCmd :=
  if c.strand = n && c.own.isEmpty then
    { c with own := (namesUsed c.op).filterMap (fun k =>
        (t.a.toList.getD k none).map (fun a => (k, { a with owner := 0, status := BitVec.ofNat 16 (setBits a.status.toNat 15 12 0) }))) }
  else c

/-- Banks that accepted commands hold without their strand's names. -/
def ownedBanks (t : Tile) : List Nat := (t.queue ++ (t.running.map (·.cmd)).toList).flatMap (fun c => c.own.flatMap (fun a => a.2.banks))

/-- A strand's names go: its accepted commands keep those they use until they end, and the other banks are free (05 R136, R152). -/
def freeBanks (s : State) (n : Nat) : State :=
  let mine := ((s.strands.get {} n).a.toList.filterMap id).flatMap (·.banks)
  modTile s (n / 16) (fun t =>
    let t1 := { t with
      queue := t.queue.map (ownNames (s.strands.get {} n) n)
      running := t.running.map (fun (r : MatrixRun) => { r with cmd := ownNames (s.strands.get {} n) n r.cmd }) }
    { t1 with banks := t.banks.filter (fun b => !(decide (b ∈ mine)) || decide (b ∈ ownedBanks t1)) })

/-- A strand keeps nothing but boots (05 R135): it leaves the map, and its core's yields no longer wait for it. -/
def freeStrand (s : State) (n : Nat) : State :=
  let s1 := { s with
    strands := s.strands.del n
    requests := s.requests.map (fun r => (r.1, if r.2.agent == some (.strand n) then { r.2 with agent := none } else r.2)) }
  let u := getCore s1 (n / 4)
  let s2 := if u.yields.isEmpty then s1
    else modCore s1 (n / 4) (fun u => { u with yields := (u.yields.filter (fun y => !(y.1 == n))).map (fun y => (y.1, without y.2 n)) })
  gearCheck (wakeCore s2 (n / 4)) (n / 16)

/-- What a fault leaves of a relaunch's round: its unstarted blocks are not run (08 R221). -/
def abandonRound (s : State) (run : BitVec 32) : State :=
  let s1 := { s with cores := s.cores.map (fun e => (e.1, { e.2 with inbox := e.2.inbox.filter (fun m => match m with
    | .block r _ _ _ => !(r == run)
    | .courier _ => true) })) }
  modRun s1 run (fun r => { r with remaining := (r.blocks.filter (fun b => match b.2 with
    | .resident _ => true
    | .preempted _ => true
    | _ => false)).length })

/-- A read of a relaunched run's region has failed: the relaunch ends with its code once the blocks of the round that have started have
finished (08 R221, R416). -/
def relaunchFails (s : State) (run : BitVec 32) (code : Nat) : State :=
  abandonRound (modRun s run (fun r => { r with faultCode := if r.faultCode = 0 then BitVec.ofNat 8 code else r.faultCode })) run

/-- A block finishes: counted, its run perhaps complete. `code` is the fault under an END reply, 0 for EXIT (16 R384). -/
def finishBlock (s : State) (n : Nat) (code : BitVec 8) : State :=
  let t := s.strands.get {} n
  match t.act with
  | .block run i =>
    let s1 := endEntry s run i t.buffer (code == 0)
    let s2 := modRun s1 run (fun r => { r with blocks := r.blocks.set i .exited, exited := r.exited + 1, remaining := r.remaining - 1,
                                               faultCode := if r.faultCode = 0 then code else r.faultCode })
    let s3 := if !(code == 0) && (getRun s2 run).relaunch.isSome then abandonRound s2 run else s2
    checkRun (freeStrand (freeBanks s3 n) n) run
  | .handler run _ _ => checkRun (freeStrand (freeBanks s n) n) run
  | _ => freeStrand (freeBanks s n) n

/-- A courier ends: one arrival at its sender's barrier, with an error code when it failed; none when the
sender's image is gone (05 R142, R143; 16 R391). -/
def endCourier (s : State) (core : Nat) (code : Nat) : State :=
  let t := s.couriers.get {} core
  let s1 := wakeCore { s with couriers := s.couriers.del core } core
  match t.senderTag with
  | some p =>
    let s2 := acknowledge s1 p [] (if code = 0 then 0 else 9) 0 code 0
    checkRun s2 (actRun t.act)
  | none =>
    let u := if code = 0 then BarUpdate.arrive else .arriveFail code
    checkRun (if t.barrier = 0 ∧ code = 0 then s1 else arriveAt s1 t.senderTile t.senderImage t.barrier u 9) (actRun t.act)

/-- An agent's activation ends: EXIT's own end, or END's. -/
def endActivation (s : State) (a : Agent) (code : BitVec 8) : State :=
  match a with
  | .strand n => finishBlock s n code
  | .courier c => endCourier s c code.toNat

end Sys2Proof.Machine
end

