-- ==== Sys2Proof/Machine/Ops.lean ====
section
/-!
DEFINITION. What all instructions share: which agent issues next, completing an instruction, taking a fault (the one operation by which
the SK7 takes an exception: 06 R172, 16 R383), acting on its reply (the return from it: 16 R384), the order of an instruction's checks
(11 R274), and fetching an instruction's bytes.
-/
namespace Sys2Proof.Machine

/-- The outcome of a step. -/
abbrev Out := Host.Outcome State Fault Refusal

/-! ## Who issues next (05 R140, 16 R382; assumption log 2) -/

/-- Whether a strand still owes other strands their turn after a YIELD. -/
def yieldsTo (s : State) (n : Nat) : Bool :=
  (getCore s (n / 4)).yields.any (fun y => y.1 == n && y.2.any (fun m =>
    !(decide ((s.strands.get {} m).act = .free)) && (decide ((s.strands.get {} m).status = .ready))))

/-- An agent that is to be removed goes on only to end an instruction that it has begun: a reply to it has come, or a store of it has failed
(03 R91 step 1). -/
def mayIssue (t : Strand) : Bool :=
  !t.stopping || t.replyValue.isSome || !t.peerBytes.isEmpty || t.replyFault.isSome || t.deferred.isSome || decide (t.status = .posting)

/-- An agent that can issue, or try its stalled instruction again. -/
def runnable (s : State) (a : Agent) : Bool :=
  let t := getAgent s a
  !(decide (t.act = .free)) && (decide (t.status = .ready) || decide (t.status = .stalled) || decide (t.status = .posting)) && mayIssue t
    && (getTile s (agentTile a)).changing.isNone && !clusterResetting s (agentCluster a)
    && (match a with
      | .strand n => !yieldsTo s n
      | .courier _ => true)

def allAgents (s : State) : List Agent := s.strands.map (fun e => .strand e.1) ++ s.couriers.map (fun e => .courier e.1)

/-- An agent's number in its core's rotation: its strand's, or 4 for the courier slot. -/
def turnOf (a : Agent) : Nat :=
  match a with
  | .strand n => n % 4
  | .courier _ => 4

/-- How far an agent stands behind the one that issued last on its core. -/
def turnsAway (s : State) (a : Agent) : Nat := (turnOf a + 4 - s.turns.get 4 (agentCore a)) % 5

/-- Whether an agent has the turn of its core: it can issue, and nobody who can stands before it in the rotation. An agent whose instruction
is stalled takes no turn: it may try again at any time (05 R140, R142). -/
def hasTurn (s : State) (ready : List Agent) (a : Agent) : Bool :=
  !(decide ((getAgent s a).status = .ready)) || ready.all (fun b => !(agentCore b = agentCore a) || decide (turnsAway s a ≤ turnsAway s b))

/-- The agent that issues next: of those that can and have their core's turn, any. -/
def pickAgent (s : State) : Agent :=
  let all := (allAgents s).filter (runnable s)
  let ready := all.filter (fun a => decide ((getAgent s a).status = .ready))
  let c := all.filter (hasTurn s ready)
  c.getD (Config.freePick s.free % c.length) s.cur

/-- The chosen agent takes its core's turn, if it is to issue. -/
def takeTurn (s : State) (a : Agent) : State :=
  { s with cur := a, turns := if (getAgent s a).status = .ready then s.turns.set (agentCore a) (turnOf a) else s.turns }

/-- Time passes and the next agent is chosen. -/
def tick (s : State) : State :=
  let s1 := { s with now := s.now + Config.freeElapsed s.free, free := s.free + 1 }
  takeTurn s1 (pickAgent s1)

/-- A strand has issued: strands that had yielded to it no longer wait for it. -/
def noteIssue (s : State) : State :=
  match s.cur with
  | .strand n =>
    if (getCore s (n / 4)).yields.isEmpty then s
    else modCore s (n / 4) (fun u => { u with yields := (u.yields.filter (fun y => !(y.1 == n))).map (fun y => (y.1, without y.2 n)) })
  | .courier _ => s

/-! ## Completing an instruction -/

/-- What every completed or skipped instruction does to its agent: both latches are consumed, what it waited for is forgotten, a
courier's budget falls by one. -/
def consume (t : Strand) (npc : Word) : Strand :=
  { t with
    pc := npc, xlCount := 0, xlBits := 0, frm := none, qsel := none
    status := .ready, sent := false, replyValue := none, peerBytes := [], migReads := none
    dozing := false, asked := false, sysValue := none, budget := t.budget - 1 }

/-- As `consume`, for words that leave the latches (XIMM, HINT, MOD). -/
def advance (t : Strand) : Strand :=
  { t with pc := t.pc + 4, status := .ready, budget := t.budget - 1 }

/-- An agent's tile returns from a doze that the agent took part in. -/
def leaveDoze (s : State) (dozed : Bool) (a : Agent) : State := if dozed then gearCheck s (agentTile a) else s

/-- The instruction of the issuing agent has completed. -/
def retire (s : State) (npc : Word) : State :=
  tick (noteIssue (leaveDoze (modMe s (fun t => consume t npc)) (me s).dozing s.cur))

/-! ## Fault messages: taking a fault (06 R172, 16 R383) -/

/-- The 64-byte message of a fault of an agent. -/
def faultMessage (s : State) (a : Agent) (f : FaultInfo) (seq : BitVec 32) : List Byte :=
  let t := getAgent s a
  let ctx := agentCtx s a
  let st := match a with
    | .strand n => n % 4
    | .courier _ => 0
  [f.code, f.kind] ++ leBytes 2 f.sub.toNat ++ leBytes 4 ctx.toNat ++ leBytes 4 (agentRun s a).toNat ++ leBytes 4 (agentBlock s a)
    ++ leBytes 8 f.addr.toNat ++ leBytes 8 t.pc.toNat
    ++ leBytes 2 (tileSource s (agentTile a) + agentCore a % 4 * 2 ^ 14 + st * 2 ^ 12) ++ leBytes 2 (getCtx s ctx).pdom.toNat
    ++ leBytes 2 (devnum s) ++ [BitVec.ofNat 8 (b2n (isCourier a)), 0] ++ leBytes 8 s.now ++ leBytes 8 f.entry.toNat
    ++ leBytes 4 seq.toNat ++ [0, 0, 0, 0]

/-- Outcome of a posting: done with a sequence number, under way to another device, to be tried again, or failed with the posting's own
fault. -/
inductive Posted where
  | done (s : State) (seq : BitVec 32)
  | sent (s : State) (id : Nat)
  | again (s : State)
  | failed (s : State) (code sub : Nat)

/-- Posting to a mailbox in local memory: the slot is written, then POSTED and its BUSY bit in one update (16 R383). -/
def postLocal (s : State) (pa : Nat) (key : BitVec 8) (msg : BitVec 32 → List Byte) : Posted :=
  match depotRead s (pa / 64) key with
  | .bad code sub s1 => .failed s1 code sub
  | .busy s1 => .again s1
  | .ok head s1 =>
    let n := fieldAt (vecBytes head) 0 4
    let busy := fieldAt (vecBytes head) 8 8
    if busy.testBit (n % 64) then .again s1
    else
      match depotWrite s1 ((pa + 128 + 64 * (n % 64)) / 64) key (vecOfBytes (msg (BitVec.ofNat 32 n))) (2 ^ 64 - 1) 0 with
      | .bad code sub s2 => .failed s2 code sub
      | .busy s2 => .again s2
      | .ok _ s2 =>
        let head' := patch (patch (vecBytes head) 0 (leBytes 4 (n + 1))) 8 (leBytes 8 (busy + 2 ^ (n % 64)))
        match depotWrite s2 (pa / 64) key (vecOfBytes head') 0xFFFF 0 with
        | .bad code sub s3 => .failed s3 code sub
        | .busy s3 => .again s3
        | .ok _ s3 => .done s3 (BitVec.ofNat 32 n)

/-- A change of a posting under way. -/
def modPost (s : State) (id : Nat) (f : OutPost → OutPost) : State := { s with outPosts := s.outPosts.map (fun p => if p.id = id then f p else p) }

/-- A packet of a posting, about the mailbox's place `off` bytes on: RDX, WR or WB (06 R181). Which packets a posting travels by is a DESIGN
CHOICE: these three make the update of step 3 one atomic step (16 R383, log 62). -/
def sendPost (s : State) (p : OutPost) (op off : Nat) (body : List Byte) : State :=
  (sendRequest s p.dev none (.post p.id) (p.mailbox + BitVec.ofNat 64 off) p.ctx op (requestWord s p.dev (p.pa + off) p.ctx p.key 6 (op = 5) false ++ body)).1

/-- A posting asks for its mailbox's first granule, unless an earlier one to that mailbox is under way. -/
def askPost (s : State) (p : OutPost) : State :=
  if s.outPosts.any (fun q => q.dev = p.dev && q.pa = p.pa && !(q.id = p.id) && !(q.stage = .queued)) then modPost s p.id (fun q => { q with stage := .queued })
  else sendPost (modPost s p.id (fun q => { q with stage := .asked })) p 0x02 0 []

/-- A posting has ended; the next one to its mailbox begins. -/
def dropPost (s : State) (p : OutPost) : State :=
  let s1 := { s with outPosts := s.outPosts.filter (fun q => !(q.id = p.id)) }
  match s1.outPosts.find? (fun q => q.dev = p.dev && q.pa = p.pa && q.stage = .queued) with
  | some q => askPost s1 q
  | none => s1

/-- The mailbox's first granule goes home with `head`, and a snoop that came in meanwhile is answered with it (06 R186). -/
def returnPost (s : State) (p : OutPost) (stage : PostStage) (head : List Byte) : State :=
  let s1 := sendPost (modPost s p.id (fun q => { q with stage := stage, head := head, snoop := none })) p 0x05 0 head
  match p.snoop with
  | some q => replyTo s1 q 0x07 (padTo 16 q.body ++ [1, 0, 0, 0, 0, 0, 0, 0] ++ head)
  | none => s1

/-- Posting to the mailbox MB of a context, wherever it lies; MB 0 is the ostler SVC role (05 R132, 16 R383). `unit` waits for the walk;
`agent` waits for a posting to another device. -/
def postMessage (s : State) (unit : Nat) (agent : Option Agent) (ctx : BitVec 32) (source : Nat) (f : FaultInfo) (mb : Word) (msg : BitVec 32 → List Byte) : Posted :=
  if mb = 0 then .done { s with svcInbox := s.svcInbox ++ [msg s.svcPosted], svcPosted := s.svcPosted + 1 } s.svcPosted
  else
    match unitWalk s unit mb.toNat with
    | .bad code sub s1 => .failed s1 code sub
    | .busy s1 => .again s1
    | .ok (pte, size) s1 =>
      let (dev, pa, key) := place s1 mb.toNat size pte
      if dev = devnum s then postLocal s1 pa key msg
      else if dev ∈ s.ostler.gone then .failed s1 0x0A 0x05
      else if !hasRoute s dev then .failed s1 0x15 0x01
      else
        let p : OutPost := { id := s1.nextTag, agent := agent, ctx := ctx, source := source, fault := f, mailbox := mb, dev := dev, pa := pa, key := key,
                             message := msg 0, stage := .queued }
        .sent (askPost { s1 with outPosts := s1.outPosts ++ [p], nextTag := s1.nextTag % 0xFFFFFFFF + 1 } p) p.id

/-- A failed posting: two FAULT records, and the context is killed (16 R383). -/
def postFailed (s : State) (ctx : BitVec 32) (source : Nat) (f : FaultInfo) (mb : Word) (code sub : Nat) (kill : Bool) : State :=
  let s1 := logRecord s { cls := .fault, code := f.code.toNat, sub := f.sub.toNat, source := source, ctx := ctx.toNat, addr := f.addr.toNat }
  let s2 := logRecord s1 { cls := .fault, code := code, sub := sub, source := source, ctx := ctx.toNat, addr := mb.toNat }
  if kill then later s2 [.kill ctx] else s2

/-- The number of a posting's message: POSTED as its granule gives it. -/
def postNumber (p : OutPost) : Nat := fieldAt p.head 0 4

/-- A step of a posting to another device has been answered: with the mailbox's granule in hand the message is written to its slot, then the
granule goes home with BUSY set and POSTED incremented; a slot that is still busy, or a failure, sends it home as it was (16 R383). -/
def postStep (s : State) (id code sub : Nat) (data : Option Vec) : State :=
  match s.outPosts.find? (fun p => p.id = id) with
  | none => s
  | some p =>
    if !(code = 0) && !(p.stage = .failed) then
      let s1 := postFailed (match p.agent with
        | some a => if (getAgent s a).status = .awaitPost id then modAgent s a (fun t => { t with status := .blocked }) else s
        | none => s) p.ctx p.source p.fault p.mailbox code sub p.agent.isSome
      if p.stage = .slot then returnPost s1 p .failed p.head else dropPost s1 p
    else
      match p.stage with
      | .queued => s
      | .asked =>
        let head := vecBytes (data.getD 0)
        let n := fieldAt head 0 4
        let q := { p with head := head }
        let s1 := modPost s id (fun q => { q with head := head, stage := .slot })
        if (fieldAt head 8 8).testBit (n % 64) then returnPost s1 q .again head
        else sendPost s1 q 0x03 (128 + 64 * (n % 64)) (leBytes 8 (2 ^ 64 - 1) ++ patch p.message 56 (leBytes 4 n))
      | .slot =>
        let n := postNumber p
        returnPost s p .update (patch (patch p.head 0 (leBytes 4 (n + 1))) 8 (leBytes 8 (fieldAt p.head 8 8 + 2 ^ (n % 64))))
      | .again =>
        let s1 := modPost s id (fun q => { q with stage := .queued })
        match s1.outPosts.find? (fun q => q.dev = p.dev && q.pa = p.pa) with
        | some q => askPost s1 q
        | none => s1
      | .update =>
        let s1 := dropPost s p
        match p.agent with
        | some a =>
          if (getAgent s1 a).status = .awaitPost id then
            modAgent s1 a (fun t => { t with status := .awaitReply p.mailbox (BitVec.ofNat 32 (postNumber p) - 1) })
          else s1
        | none => s1
      | .failed => dropPost s p

/-- The unit that waits for an agent's posting. -/
def agentUnit (a : Agent) : Nat :=
  match a with
  | .strand n => 2 ^ 22 + n
  | .courier c => 2 ^ 23 + c

/-- Posts an agent's pending fault, or leaves it posting. A posting is a release at DOMAIN scope, so it waits for the agent's
acknowledgements. -/
def postPending (s : State) (a : Agent) : State :=
  let t := getAgent s a
  match t.pending with
  | none => modAgent s a (fun t => { t with status := .ready })
  | some f =>
    if 0 < t.acks then modAgent s a (fun t => { t with status := .posting })
    else
      let ctx := agentCtx s a
      let mb := (getCtx s ctx).service
      match postMessage s (agentUnit a) (some a) ctx (tileSource s (agentTile a)) f mb (faultMessage s a f) with
      | .done s1 seq => modAgent s1 a (fun t => { t with status := .awaitReply mb seq })
      | .sent s1 id => modAgent s1 a (fun t => { t with status := .awaitPost id })
      | .again s1 => modAgent s1 a (fun t => { t with status := .posting })
      | .failed s1 code sub =>
        postFailed (modAgent s1 a (fun t => { t with status := .blocked })) ctx (tileSource s (agentTile a)) f mb code sub true

/-- The agent's state as a fault leaves it: what it waited for is forgotten; an ILLEGAL consumes both latches (00 R12, 11 R274). -/
def faulted (t : Strand) (f : FaultInfo) : Strand :=
  let u := { t with
    pending := some f, status := .posting, sent := false, replyValue := none, peerBytes := [], migReads := none
    dozing := false, asked := false, sysValue := none, replyFault := none, deferred := none }
  if f.code = 0x01 then { u with xlCount := 0, xlBits := 0, frm := none, qsel := none } else u

/-- THE FAULT: the agent's registers stand as before the instruction, its message goes to the context's mailbox, and it blocks until the
reply (06 R172, R174; 16 R383). -/
def takeFault (s : State) (f : FaultInfo) : State :=
  let a := s.cur
  tick (postPending (leaveDoze (modMe s (fun t => faulted t f)) (me s).dozing a) a)

/-! ## Replies: returning from a fault (16 R384) -/

/-- The disposition of a reply acts on the poster that waits for it: 0 RETRY, 1 NEXT, 2 END. After an ACCLEAK the banks are freed and EXIT,
executed again, completes (05 R152). -/
def actOnReply (s : State) (a : Agent) (disp : BitVec 8) (value : Word) : State :=
  let t := getAgent s a
  match t.pending with
  | none => s
  | some f =>
    let s1 := putAgent s a { t with pending := none, status := .ready }
    if f.code = 0x0B then
      match a with
      | .strand n => modAgent (freeBanks s1 n) a (fun t => { t with a := Vector.replicate 16 none })
      | .courier _ => s1
    else if disp = 2 then endActivation s1 a f.code
    else if f.kind.getLsbD 7 then s1
    else if disp = 1 then
      let t1 := { t with pending := none }
      putAgent s a (consume (if f.code = 0x0D then writeX t1 f.dest value else t1) (t.pc + 4))
    else s1

/-- Whether an agent waits for the reply to message `seq` of mailbox `mb`; the reply may come before the acknowledgement of the update that
posted the message on another device (16 R384). -/
def awaits (s : State) (a : Agent) (mb : Word) (seq : BitVec 32) : Bool :=
  match (getAgent s a).status with
  | .awaitReply m n => m == mb && n == seq
  | .awaitPost id => s.outPosts.any (fun p => p.id = id && p.stage = .update && p.mailbox == mb && BitVec.ofNat 32 (postNumber p) == seq + 1)
  | _ => false

/-- A reply reaches the agent that waits for message `seq` of mailbox `mb`; any other is discarded (16 R384). -/
def deliverReply (s : State) (a : Agent) (mb : Word) (seq : BitVec 32) (disp : BitVec 8) (value : Word) : State :=
  if awaits s a mb seq ∧ (getAgent s a).act ≠ .free then actOnReply s a disp value else s

/-- The strand or courier slot that bytes 32-33 and 38 of a message name on this device (06 R172). -/
def posterAgent (s : State) (poster : Nat) (courier : Bool) : Option Agent :=
  let src := bits poster 11 0
  (List.range 1024).findSome? (fun tile =>
    if tileSource s tile = src then
      some (if courier then .courier (4 * tile + bits poster 15 14) else .strand (16 * tile + 4 * bits poster 15 14 + bits poster 13 12))
    else none)

/-! ## The order of an instruction's checks (11 R274) -/

/-- What an instruction word asks of the checks made before its own operand faults. -/
structure Form where
  /-- It has an extendable immediate (11 R276). -/
  ext : Bool := false
  /-- It accepts an FRM, a QSEL modifier (11 R278). -/
  frm : Bool := false
  qsel : Bool := false
  /-- The sub-code of a latch check that a word filling a latch fails (11 R275, R278). -/
  latch : Option Nat := none
  /-- A field breaks R271. -/
  reserved : Bool := false
  /-- A QSEL mark breaks R279 or R308. -/
  badMark : Bool := false
  /-- A courier may execute it (05 R142). -/
  courier : Bool := true
  /-- The x, v and m registers it names. -/
  xs : List (BitVec 5) := []
  vs : List (BitVec 5) := []
  ms : List Nat := []
  /-- The target of a branch or jump. -/
  target : Option Word := none
  /-- It leaves the latches (11 R276, R278). -/
  light : Bool := false
  /-- It needs ostler mode, except in a courier, where its CSR is none of those R386 names. -/
  priv : Bool := false

/-- Checks of the latches and fields (11 R276, R278, R279, R271). -/
def latchFault (f : Form) (t : Strand) : Option FaultInfo :=
  if 0 < t.xlCount && !f.ext then some (faultInfo 0x01 0x02 0 0 0)
  else if (t.frm.isSome && !f.frm) || (t.qsel.isSome && (!f.qsel || f.badMark)) then some (faultInfo 0x01 0x04 0 0 0)
  else
    match f.latch with
    | some sub => some (faultInfo 0x01 sub 0 0 0)
    | none => if f.reserved then some (faultInfo 0x01 0x01 0 0 0) else none

/-- The rules a courier adds (05 R142); a marked field names a stream, which it may not (13 R309). A word that fills the latch names none. -/
def courierFault (f : Form) (t : Strand) : Option FaultInfo :=
  if t.budget = 0 then some (faultInfo 0x12 0 0 0 0)
  else if f.target.any (fun d => decide (d.toNat ≤ t.pc.toNat) || decide (4 * t.words.length ≤ d.toNat)) then some (faultInfo 0x12 0 0 0 0)
  else if !f.courier || (f.qsel && !f.light && t.qsel.any (fun q => !(q = 0))) || f.xs.any (fun r => decide (16 ≤ r.toNat)) || f.vs.any (fun r => decide (4 ≤ r.toNat)) || f.ms.any (fun m => decide (0 < m)) then
    some (faultInfo 0x01 0x07 0 0 0)
  else none

/-- The first failing check of R274 steps 2 to 4. -/
def formFault (f : Form) (t : Strand) (courier ostler : Bool) : Option FaultInfo :=
  match latchFault f t with
  | some e => some e
  | none =>
    match (if courier then courierFault f t else none) with
    | some e => some e
    | none => if f.priv && !ostler && !courier then some (faultInfo 0x02 0 0 0 0) else none

/-- An agent whose instruction waits: it keeps the status that the wait gave it, or stalls. -/
def waiting (s : State) : State :=
  tick (if (me s).status = .ready then modMe s (fun t => { t with status := .stalled }) else s)

/-- What precedes the instruction's own work: a deferred store fault, the checks of its form, the fault that a memory reply brought. -/
def before (form : Strand → Form) (s : State) : Option FaultInfo :=
  let t := me s
  match t.deferred with
  | some f => some f
  | none =>
    match formFault (form t) t (isCourier s.cur) (ostlerMode s s.cur) with
    | some f => some f
    | none => t.replyFault

/-- An instruction whose body says where the pc goes. -/
def issueTo (form : Strand → Form) (body : Exec Word) (s : State) : Out :=
  match before form s with
  | some f => .next (takeFault s f)
  | none =>
    match body (modMe s (fun t => { t with status := .ready })) with
    | .ok (npc, s1) => .next (retire s1 npc)
    | .error (.fault f) => .next (takeFault s f)
    | .error (.failed f s1) => .next (takeFault (rolledBack s s1) f)
    | .error (.wait s1) => .next (waiting s1)

/-- An instruction after which the strand goes on with the next word. -/
def issue (form : Strand → Form) (body : Exec Unit) (s : State) : Out :=
  issueTo form (do
    body
    let t ← self
    pure (t.pc + 4)) s

/-- An instruction that ends by giving the whole next state (EXIT, YIELD). -/
def issueState (form : Strand → Form) (body : Exec State) (s : State) : Out :=
  match before form s with
  | some f => .next (takeFault s f)
  | none =>
    match body (modMe s (fun t => { t with status := .ready })) with
    | .ok (s2, _) => .next (tick s2)
    | .error (.fault f) => .next (takeFault s f)
    | .error (.failed f s1) => .next (takeFault (rolledBack s s1) f)
    | .error (.wait s1) => .next (waiting s1)

/-- An event of the device: a new state. -/
def event (s : State) : Out := .next s

/-! ## Fetching (11 R274 step 1) -/

/-- What the issuing agent does in a step: it executes a word, or the step is made already. -/
inductive Fetched where
  | word (w : Word32) (s : State)
  | made (s : State)

/-- The access kind of a fetch. -/
def kFetch : Kind := { kind := 3, need := 4, plain := false }

/-- The checks and the read of a fetch at an address. -/
def fetchBody (va : Word) : Exec (List Byte) := do
  let a ← theAgent
  let s ← theState
  let v := va.toNat
  if !(bits v 63 57 = 0) then raise 0x05 0x02 3 va
  if !(v % 4 = 0) then raise 0x03 0 3 va
  if inWindow v then raise 0x04 0x03 3 va
  if inOstler v then raise 0x04 (if ostlerMode s a then 1 else 2) 3 va
  match deepRange s v with
  | some pa =>
    if !ostlerMode s a then raise 0x04 0x01 3 va
    else do
      let _ ← spanRights 3 4 va 4
      served 3 va (fun s => tableRead s pa 4)
  | none =>
    let _ ← spanRights 3 4 va 4
    let s ← theState
    if (peerOf s v).isSome then raise 0x04 0x01 3 va
    else
      match ← depotPlace 3 va with
      | some _ => raise 0x04 0x01 3 va
      | none =>
        let g ← granule 3 va
        pure (((vecBytes g).drop (v % 64)).take 4)

/-- The instruction word at an agent's pc; a courier's words come with it (05 R142). A fetch that faults is the instruction's fault, one
that waits is made again. -/
def fetch (s : State) : Fetched :=
  let t := me s
  if isCourier s.cur then .word (t.words.getD (t.pc.toNat / 4) 0) s
  else
    match fetchBody t.pc s with
    | .ok (bs, s1) => .word (BitVec.ofNat 32 (ofBytes bs)) s1
    | .error (.fault f) => .made (takeFault s f)
    | .error (.failed f s1) => .made (takeFault (rolledBack s s1) f)
    | .error (.wait s1) => .made (waiting s1)

/-- What the issuing agent does: nothing while it cannot issue; the rest of a posting; the end of a courier that has run past its words
(05 R142); a fault that waits for this boundary (06 R174) or that a reply brought; otherwise a word. -/
def nextWord (s : State) : Fetched :=
  let t := me s
  if !runnable s s.cur then .made (tick s)
  else if t.status = .posting then .made (tick (postPending s s.cur))
  else if isCourier s.cur && decide (t.words.length ≤ t.pc.toNat / 4) then .made (tick (endActivation s s.cur 0))
  else
    match t.deferred, t.replyFault with
    | some f, _ => .made (takeFault s f)
    | none, some f => .made (takeFault s f)
    | none, none => fetch s

/-- Majors whose words have an extendable immediate (11 R276). -/
def extendable (major : Nat) : Bool :=
  (3 ≤ major && major ≤ 0x0B) || major = 0x18 || major = 0x19 || major = 0x1A || major = 0x28 || major = 0x29 || major = 0x2C || major = 0x2D

/-- Majors with words that accept an FRM, a QSEL modifier (11 R278). -/
def takesFrm (major : Nat) : Bool :=
  major = 0x10 || major = 0x11 || major = 0x12 || major = 0x21 || major = 0x22 || major = 0x23 || major = 0x25 || major = 0x27
def takesQsel (major : Nat) : Bool := 0x20 ≤ major && major ≤ 0x27

/-- Whether QSEL marks a field of a vector word that may not be marked: one above 7, or vc where the major's format has none (11 R279). -/
def badMarks (q : BitVec 4) (w : Nat) (major : Nat) : Bool :=
  (q.getLsbD 0 && decide (8 ≤ bits w 25 21)) || (q.getLsbD 1 && decide (8 ≤ bits w 20 16)) || (q.getLsbD 2 && decide (8 ≤ bits w 15 11))
    || (q.getLsbD 3 && (!(major = 0x22 || major = 0x23) || decide (8 ≤ bits w 10 6)))

/-- A word that is no instruction raises ILLEGAL: first the latch checks of R276, R278 and R279 by its major, then R271 and R273; a MOD word
that breaks R278 has the sub-code MOD. -/
def undecodable (s : State) (w : Word32) : FaultInfo :=
  let t := me s
  let major := w.toNat / 2 ^ 26
  let light := major = 0x3F && !(bits w.toNat 25 24 = 3)
  if light && bits w.toNat 25 24 = 2 then faultInfo 0x01 0x04 0 0 0
  else if light then faultInfo 0x01 0x01 0 0 0
  else if 0 < t.xlCount && !extendable major then faultInfo 0x01 0x02 0 0 0
  else if (t.frm.isSome && !takesFrm major) || t.qsel.any (fun q => !takesQsel major || badMarks q w.toNat major) then faultInfo 0x01 0x04 0 0 0
  else faultInfo 0x01 0x01 0 0 0

end Sys2Proof.Machine
end

