-- ==== Sys2Proof/Machine/Flags.lean ====
section
/-!
DEFINITION. FCSR, its rounding mode and sticky flags, and the cluster's flag OR tree (09 R234-R238).
-/
namespace Sys2Proof.Machine

/-- RM of FCSR (09 R234). -/
def roundingMode (t : Strand) : Nat := bits t.fcsr.toNat 7 5

/-- The mode an instruction rounds by: the FRM modifier's, else RM (11 R278). -/
def modeOf (t : Strand) : Nat :=
  match t.frm with
  | some m => m.toNat
  | none => roundingMode t

/-- The bits of FLAGOR that flags of a strand or courier set: 4:0 as they stand, ISAT at bit 5 (09 R238). -/
def treeBits (fl : Nat) : BitVec 11 := BitVec.ofNat 11 (fl % 32 + (fl / 256 % 2) * 32)

/-- Bits of FLAGOR are raised; the tick is kept, since a clear at the same tick does not reach them (09 R238). -/
def raiseTree (c : Cluster) (now : Nat) (b : BitVec 11) : Cluster :=
  { c with flagOr := c.flagOr ||| b, raised := (now, if c.raised.1 = now then c.raised.2 ||| b else b) }

/-- A write of 1 to bits of FLAGOR: a bit raised at the same tick stays 1 (09 R238). -/
def clearTree (c : Cluster) (now : Nat) (b : BitVec 11) : Cluster :=
  { c with flagOr := c.flagOr &&& (~~~b ||| (if c.raised.1 = now then c.raised.2 else 0)) }

/-- Flags (bit 8 ISAT, 4:0 NV DZ OF UF NX) are ORed into FCSR and into the cluster's tree; no flag changes nothing. -/
def setFlags (s : State) (fl : Nat) : State :=
  if fl = 0 then s
  else modCluster (modMe s (fun t => { t with fcsr := t.fcsr ||| BitVec.ofNat 9 fl })) (agentCluster s.cur)
    (fun c => raiseTree c s.now (treeBits fl))

def orFlags (fl : Nat) : Exec Unit := update (fun s => setFlags s fl)

/-- Flags of a tile's matrix engine (NV 4, OF 2, NX 1) into the tree's ENV, EOF and ENX (09 R238). -/
def engineFlags (s : State) (tile fl : Nat) : State :=
  if fl % 8 = 0 then s else modCluster s (tile / 8) (fun c => raiseTree c s.now (BitVec.ofNat 11 (fl % 8 * 256)))

end Sys2Proof.Machine
end

