-- ==== Sys2Proof/Machine/Operands.lean ====
section
/-!
DEFINITION. Operand forms: immediates with the XIMM latch (11 R276), lanes and masks (13 R307), vector sources and destinations with
their streams (11 R279), and the scalar operations that several families share (12 R292, 09 R227, R228).
-/
namespace Sys2Proof.Machine

/-! ## Immediates (11 R276) -/

/-- The combined immediate of a field of width `n`, read as signed, scaled. -/
def immSigned (t : Strand) (n field scale : Nat) : Word :=
  let raw := t.xlBits.toNat * 2 ^ n + field
  let wd := min (n + 24 * t.xlCount) 64
  word (sext (raw % 2 ^ 64) wd * scale)

/-- The combined immediate of an unsigned field. -/
def immUnsigned (t : Strand) (n field : Nat) : Nat :=
  (t.xlBits.toNat * 2 ^ n + field) % 2 ^ 64 % 2 ^ min (n + 24 * t.xlCount) 64

/-! ## Scalar integer operations (12 R292, R293; 09 R227, R228) -/

/-- Leading zero bits of an `n`-bit value. -/
def clzN (n v : Nat) : Nat := n - bitLen (v % 2 ^ n)
/-- Trailing zero bits of an `n`-bit value, `n` for zero. -/
def ctzN (n v : Nat) : Nat := ((List.range n).find? (fun i => v.testBit i)).getD n
/-- One bits of an `n`-bit value. -/
def popN (n v : Nat) : Nat := ((List.range n).filter (fun i => v.testBit i)).length

/-- Signed quotient and remainder of R228, for n-bit operands. -/
def divS (n : Nat) (a b : Int) : Int × Int :=
  if b = 0 then (-1, a)
  else if a = -(2 ^ (n - 1)) ∧ b = -1 then (a, 0)
  else (a.tdiv b, a.tmod b)

/-- Unsigned quotient and remainder of R228. -/
def divU (n : Nat) (a b : Nat) : Nat × Nat := if b = 0 then (2 ^ n - 1, a) else (a / b, a % b)

/-- The width of a form: the 32-bit form for w = 1. -/
def formWidth (w : BitVec 1) : Nat := if w = 1 then 32 else 64

/-- A result of width `n` in a 64-bit register: the 32-bit form writes Sext(result, 32) (12 R292). -/
def formResult (w : BitVec 1) (v : Int) : Word := if w = 1 then word (sext (wrap 32 v) 32) else word v

/-- The shift amount of a form (09 R227). -/
def shiftAmount (w : BitVec 1) (b : Nat) : Nat := if w = 1 then b % 32 else b % 64

/-- A binary operation on operands read as the row says: `f` gets the two as unsigned and as signed. -/
def scalarOp (w : BitVec 1) (f : Nat → Nat → Int → Int → Int) (a b : Word) : Word :=
  let n := formWidth w
  let x := a.toNat % 2 ^ n
  let y := b.toNat % 2 ^ n
  formResult w (f x y (sext x n) (sext y n))

/-! ## Lanes and masks (13 R307) -/

/-- Lane width of an integer esz (11 R270). -/
def laneWidth (e : BitVec 2) : Nat := 8 * 2 ^ e.toNat
def laneCount (w : Nat) : Nat := 512 / w
/-- Lane `l` of width `w`. -/
def lane (v : Vec) (w l : Nat) : Nat := v.toNat / 2 ^ (w * l) % 2 ^ w

/-- A vector from its lanes, lane 0 first. -/
def ofLanes (w : Nat) (ls : List Nat) : Vec := BitVec.ofNat 512 (ls.foldr (fun x acc => x % 2 ^ w + 2 ^ w * acc) 0)

def lanes (v : Vec) (w : Nat) : List Nat := (List.range (laneCount w)).map (lane v w)

/-- Whether lane `l` is active. -/
def active (mask : Word) (l : Nat) : Bool := mask.toNat.testBit l

/-- Results of the active lanes over the old destination (13 R307). -/
def maskedLanes (w : Nat) (mask : Word) (old : Vec) (res : Nat → Nat) : Vec :=
  ofLanes w ((List.range (laneCount w)).map (fun l => if active mask l then res l else lane old w l))

/-- The OR of the flags of the active lanes. -/
def activeFlags (w : Nat) (mask : Word) (fl : Nat → Nat) : Nat :=
  (List.range (laneCount w)).foldl (fun acc l => if active mask l then acc ||| fl l else acc) 0

/-! ## Streams as operands (05 R153, 11 R279, 15 R371-R373) -/

/-- Byte offset from pool bank 0 of group `n` of a pattern, or `none` past its end: dimension 0 varies fastest (15 R371). -/
def patternOffset (base : Nat) (dims : List (Nat × Int)) (n : Nat) : Option Int :=
  match dims with
  | [] => if n = 0 then some base else none
  | (count, stride) :: rest => if count = 0 then none else (patternOffset base rest (n / count)).map (fun o => o + 64 * (stride * (n % count : Nat)))

/-- Groups of a pattern. -/
def patternLength (dims : List (Nat × Int)) : Nat := (dims.map (·.1)).foldl (· * ·) 1

/-- Whether a group's place is inside the scratchpad. -/
def groupInside (t : Tile) (off : Int) : Bool := decide (0 ≤ off) && inScratch t off.toNat 64

/-- Whether the stream unit can read a group: it is inside the scratchpad and has no uncorrectable error (05 R153, 06 R178). -/
def groupReadable (t : Tile) (off : Int) : Bool := groupInside t off && !wordsHit t.poolBad off.toNat 64

def raiseStream {α : Type} : Exec α := raise 0x11 0

/-- The stream registers that a vector word marks, in the order va, vb, vc, and whether vd is marked. -/
structure Marks where
  va : Bool := false
  vb : Bool := false
  vc : Bool := false
  vd : Bool := false

def marksOf (t : Strand) : Marks :=
  match t.qsel with
  | none => {}
  | some q => { vd := q.getLsbD 0, va := q.getLsbD 1, vb := q.getLsbD 2, vc := q.getLsbD 3 }

def streamOf (t : Strand) (q : Nat) : Stream := t.q.toList.getD q {}
def setStream (t : Strand) (q : Nat) (f : Stream → Stream) : Strand :=
  { t with q := t.q.mapIdx (fun i x => if i = q then f x else x) }

/-- One transfer of the stream unit becomes possible: a place in a buffer has freed, or a group is to be written (05 R153). -/
def streamWork (q : Nat) : Exec Unit := do
  let a ← theAgent
  match a with
  | .strand n => update (fun s => later s [.streamTransfer n ⟨q % 8, Nat.mod_lt _ (by decide)⟩])
  | .courier _ => pure ()

/-- A source that an input stream supplies: the next group, or a stall, or STREAM (05 R153). -/
def streamRead (q : Nat) : Exec Vec := do
  let t ← self
  let st := streamOf t q
  if !st.bound || st.out || decide (patternLength st.dims ≤ st.position) then raiseStream
  else
    let a ← theAgent
    let s ← theState
    match patternOffset st.base st.dims st.position with
    | none => raiseStream
    | some off =>
      if !groupInside (getTile s (agentTile a)) off then raiseStream
      else
        match st.buffer with
        | [] => if groupReadable (getTile s (agentTile a)) off then stall else raise 0x08 0x03 0 (BitVec.ofNat 64 (windowBase + off.toNat))
        | g :: rest => do
          setSelf (fun t => setStream t q (fun x => { x with buffer := rest, position := x.position + 1 }))
          streamWork q
          pure g

/-- A destination that an output stream takes: room for one group, or a stall, or STREAM. -/
def streamReady (q : Nat) : Exec Unit := do
  let t ← self
  let st := streamOf t q
  if !st.bound || !st.out || decide (patternLength st.dims ≤ st.position) then raiseStream
  else
    let a ← theAgent
    let s ← theState
    match patternOffset st.base st.dims st.position with
    | none => raiseStream
    | some off =>
      if !groupInside (getTile s (agentTile a)) off then raiseStream
      else if 4 ≤ st.buffer.length then stall
      else pure ()

def streamWrite (q : Nat) (v : Vec) : Exec Unit := do
  setSelf (fun t => setStream t q (fun x => { x with buffer := x.buffer ++ [v], position := x.position + 1 }))
  streamWork q

/-- A vector source: a register, or the next group of a marked stream. -/
def vsource (marked : Bool) (r : BitVec 5) : Exec Vec := if marked then streamRead (r.toNat % 8) else getV r

/-- A vector destination: the register, or one group of a marked stream whose inactive lanes are zero (13 R307). -/
def vdest (marked : Bool) (r : BitVec 5) (f : Vec → Vec) : Exec Unit :=
  if marked then do
    streamReady (r.toNat % 8)
    streamWrite (r.toNat % 8) (f 0)
  else setSelf (fun t => writeV t r (f (readV t r)))

/-- A marked field must hold 0 to 7 (11 R279). -/
def markBad (marked : Bool) (r : BitVec 5) : Bool := marked && decide (8 ≤ r.toNat)

/-- Registers that a vector word names as v registers: those not marked. -/
def vregs (l : List (Bool × BitVec 5)) : List (BitVec 5) := (l.filter (fun e => !e.1)).map (·.2)

/-- The form of a vector word: fields that name v registers (va, vb, vc, vd as given), x registers, a mask field. A mark on a field that
is no v register is an error (13 R308). -/
def vform (t : Strand) (frm : Bool) (reserved : Bool) (vd va vb vc : Option (BitVec 5)) (xs : List (BitVec 5)) (ms : List Nat) : Form :=
  let m := marksOf t
  let bad := fun (mark : Bool) (r : Option (BitVec 5)) => mark && (match r with
    | none => true
    | some x => decide (8 ≤ x.toNat))
  let used := fun (mark : Bool) (r : Option (BitVec 5)) => (match r with
    | none => []
    | some x => [(mark, x)])
  { qsel := true, frm := frm, reserved := reserved
    badMark := bad m.vd vd || bad m.va va || bad m.vb vb || bad m.vc vc
    vs := vregs (used m.vd vd ++ used m.va va ++ used m.vb vb ++ used m.vc vc), xs := xs, ms := ms }

end Sys2Proof.Machine
end

