-- ==== Sys2Proof/Machine/Scalar.lean ====
section
/-!
DEFINITION. Scalar integer instructions: OPI, MULDIV, immediates, shifts, LUI and AUIPC (12 R291-R296).
-/
namespace Sys2Proof.Machine

/-- The form of a scalar instruction that names the given x registers and has no extendable immediate. -/
def xForm (xs : List (BitVec 5)) : Strand → Form := fun _ => { xs := xs }

/-- The form of a scalar instruction with an extendable immediate. -/
def immForm (xs : List (BitVec 5)) : Strand → Form := fun _ => { ext := true, xs := xs }

/-- A two-source scalar operation: both sources are read, then X[d] is written (12 R291). -/
def binary (d a b : BitVec 5) (f : Word → Word → Word) (s : State) : Out :=
  issue (xForm [d, a, b]) (do
    let x ← getX a
    let y ← getX b
    setX d (f x y)) s

/-- A one-source scalar operation. -/
def unary (d a : BitVec 5) (f : Word → Word) (s : State) : Out :=
  issue (xForm [d, a]) (do
    let x ← getX a
    setX d (f x)) s

/-- An operation on a register and the extended signed imm16 (12 R294). -/
def immediate (d a : BitVec 5) (i : BitVec 16) (f : Word → Word → Word) (s : State) : Out :=
  issue (immForm [d, a]) (do
    let t ← self
    let x ← getX a
    setX d (f x (immSigned t 16 i.toNat 1))) s

/-- The form of SHIFTI: a combined immediate above 0xFFFF, or an amount of 32 or more in a .w kind, is reserved (12 R295). -/
def shiftForm (d a : BitVec 5) (w : BitVec 1) (sh : BitVec 6) : Strand → Form := fun t =>
  { ext := true, xs := [d, a], reserved := decide (0xFFFF < immUnsigned t 16 sh.toNat) || (w = 1 && sh.getLsbD 5) }

/-- A shift by a constant (12 R295). -/
def shiftImm (d a : BitVec 5) (w : BitVec 1) (sh : BitVec 6) (f : Word → Word → Word) (s : State) : Out :=
  issue (shiftForm d a w sh) (do
    let x ← getX a
    setX d (f x (BitVec.ofNat 64 sh.toNat))) s

def flag (b : Bool) : Int := if b then 1 else 0

/-! ## The operations of R292, R293 on registers -/

def opAdd (w : BitVec 1) : Word → Word → Word := scalarOp w (fun x y _ _ => x + y)
def opSub (w : BitVec 1) : Word → Word → Word := scalarOp w (fun x y _ _ => x - y)
def opAnd (w : BitVec 1) : Word → Word → Word := scalarOp w (fun x y _ _ => (x &&& y : Nat))
def opOr (w : BitVec 1) : Word → Word → Word := scalarOp w (fun x y _ _ => (x ||| y : Nat))
def opXor (w : BitVec 1) : Word → Word → Word := scalarOp w (fun x y _ _ => (x ^^^ y : Nat))
def opAndn (w : BitVec 1) : Word → Word → Word := scalarOp w (fun x y _ _ => (x - (x &&& y) : Nat))
def opSll (w : BitVec 1) : Word → Word → Word := scalarOp w (fun x y _ _ => x * 2 ^ shiftAmount w y)
def opSrl (w : BitVec 1) : Word → Word → Word := scalarOp w (fun x y _ _ => (x / 2 ^ shiftAmount w y : Nat))
def opSra (w : BitVec 1) : Word → Word → Word := scalarOp w (fun _ y sx _ => sx / 2 ^ shiftAmount w y)
def opSlt (w : BitVec 1) : Word → Word → Word := scalarOp w (fun _ _ sx sy => flag (decide (sx < sy)))
def opSltu (w : BitVec 1) : Word → Word → Word := scalarOp w (fun x y _ _ => flag (decide (x < y)))
def opMin (w : BitVec 1) : Word → Word → Word := scalarOp w (fun _ _ sx sy => min sx sy)
def opMax (w : BitVec 1) : Word → Word → Word := scalarOp w (fun _ _ sx sy => max sx sy)
def opMinu (w : BitVec 1) : Word → Word → Word := scalarOp w (fun x y _ _ => (min x y : Nat))
def opMaxu (w : BitVec 1) : Word → Word → Word := scalarOp w (fun x y _ _ => (max x y : Nat))
def opClz (w : BitVec 1) (x : Word) : Word := formResult w (clzN (formWidth w) x.toNat : Nat)
def opCtz (w : BitVec 1) (x : Word) : Word := formResult w (ctzN (formWidth w) x.toNat : Nat)
def opPopc (w : BitVec 1) (x : Word) : Word := formResult w (popN (formWidth w) x.toNat : Nat)
def opMul (w : BitVec 1) : Word → Word → Word := scalarOp w (fun x y _ _ => x * y)
def opMulh : Word → Word → Word := scalarOp 0 (fun _ _ sx sy => sx * sy / 2 ^ 64)
def opMulhu : Word → Word → Word := scalarOp 0 (fun x y _ _ => (x * y / 2 ^ 64 : Nat))
def opMulhsu : Word → Word → Word := scalarOp 0 (fun _ y sx _ => sx * y / 2 ^ 64)
def opDiv (w : BitVec 1) : Word → Word → Word := scalarOp w (fun _ _ sx sy => (divS (formWidth w) sx sy).1)
def opDivu (w : BitVec 1) : Word → Word → Word := scalarOp w (fun x y _ _ => ((divU (formWidth w) x y).1 : Nat))
def opRem (w : BitVec 1) : Word → Word → Word := scalarOp w (fun _ _ sx sy => (divS (formWidth w) sx sy).2)
def opRemu (w : BitVec 1) : Word → Word → Word := scalarOp w (fun x y _ _ => ((divU (formWidth w) x y).2 : Nat))

/-! ## The instructions -/

/-- add: a + b (12 R292). -/
def execAdd (d a b : BitVec 5) (w : BitVec 1) (s : State) : Out := binary d a b (opAdd w) s
/-- sub: a − b (12 R292). -/
def execSub (d a b : BitVec 5) (w : BitVec 1) (s : State) : Out := binary d a b (opSub w) s
/-- and: a AND b (12 R292). -/
def execAnd (d a b : BitVec 5) (w : BitVec 1) (s : State) : Out := binary d a b (opAnd w) s
/-- or: a OR b (12 R292). -/
def execOr (d a b : BitVec 5) (w : BitVec 1) (s : State) : Out := binary d a b (opOr w) s
/-- xor: a XOR b (12 R292). -/
def execXor (d a b : BitVec 5) (w : BitVec 1) (s : State) : Out := binary d a b (opXor w) s
/-- andn: a AND NOT b (12 R292). -/
def execAndn (d a b : BitVec 5) (w : BitVec 1) (s : State) : Out := binary d a b (opAndn w) s
/-- sll: shift left (12 R292). -/
def execSll (d a b : BitVec 5) (w : BitVec 1) (s : State) : Out := binary d a b (opSll w) s
/-- srl: shift right, zeros in (12 R292). -/
def execSrl (d a b : BitVec 5) (w : BitVec 1) (s : State) : Out := binary d a b (opSrl w) s
/-- sra: shift right, sign in (12 R292). -/
def execSra (d a b : BitVec 5) (w : BitVec 1) (s : State) : Out := binary d a b (opSra w) s
/-- slt: signed less than (12 R292). -/
def execSlt (d a b : BitVec 5) (w : BitVec 1) (s : State) : Out := binary d a b (opSlt w) s
/-- sltu: unsigned less than (12 R292). -/
def execSltu (d a b : BitVec 5) (w : BitVec 1) (s : State) : Out := binary d a b (opSltu w) s
/-- min: signed lesser (12 R292). -/
def execMin (d a b : BitVec 5) (w : BitVec 1) (s : State) : Out := binary d a b (opMin w) s
/-- max: signed greater (12 R292). -/
def execMax (d a b : BitVec 5) (w : BitVec 1) (s : State) : Out := binary d a b (opMax w) s
/-- minu: unsigned lesser (12 R292). -/
def execMinu (d a b : BitVec 5) (w : BitVec 1) (s : State) : Out := binary d a b (opMinu w) s
/-- maxu: unsigned greater (12 R292). -/
def execMaxu (d a b : BitVec 5) (w : BitVec 1) (s : State) : Out := binary d a b (opMaxu w) s
/-- clz: leading zero bits (12 R292). -/
def execClz (d a : BitVec 5) (w : BitVec 1) (s : State) : Out := unary d a (opClz w) s
/-- ctz: trailing zero bits (12 R292). -/
def execCtz (d a : BitVec 5) (w : BitVec 1) (s : State) : Out := unary d a (opCtz w) s
/-- popc: one bits (12 R292). -/
def execPopc (d a : BitVec 5) (w : BitVec 1) (s : State) : Out := unary d a (opPopc w) s
/-- mul (12 R293, 09 R228). -/
def execMul (d a b : BitVec 5) (w : BitVec 1) (s : State) : Out := binary d a b (opMul w) s
/-- div (12 R293, 09 R228). -/
def execDiv (d a b : BitVec 5) (w : BitVec 1) (s : State) : Out := binary d a b (opDiv w) s
/-- divu (12 R293, 09 R228). -/
def execDivu (d a b : BitVec 5) (w : BitVec 1) (s : State) : Out := binary d a b (opDivu w) s
/-- rem (12 R293, 09 R228). -/
def execRem (d a b : BitVec 5) (w : BitVec 1) (s : State) : Out := binary d a b (opRem w) s
/-- remu (12 R293, 09 R228). -/
def execRemu (d a b : BitVec 5) (w : BitVec 1) (s : State) : Out := binary d a b (opRemu w) s
/-- mulh: the high half of the product (12 R293). -/
def execMulh (d a b : BitVec 5) (s : State) : Out := binary d a b opMulh s
/-- mulhu: the high half of the product (12 R293). -/
def execMulhu (d a b : BitVec 5) (s : State) : Out := binary d a b opMulhu s
/-- mulhsu: the high half of the product (12 R293). -/
def execMulhsu (d a b : BitVec 5) (s : State) : Out := binary d a b opMulhsu s
/-- addi (12 R294). -/
def execAddi (d a : BitVec 5) (i : BitVec 16) (s : State) : Out := immediate d a i (· + ·) s
/-- andi (12 R294). -/
def execAndi (d a : BitVec 5) (i : BitVec 16) (s : State) : Out := immediate d a i (· &&& ·) s
/-- ori (12 R294). -/
def execOri (d a : BitVec 5) (i : BitVec 16) (s : State) : Out := immediate d a i (· ||| ·) s
/-- xori (12 R294). -/
def execXori (d a : BitVec 5) (i : BitVec 16) (s : State) : Out := immediate d a i (· ^^^ ·) s
/-- slti (12 R294). -/
def execSlti (d a : BitVec 5) (i : BitVec 16) (s : State) : Out := immediate d a i (fun x i => word (flag (decide (x.toInt < i.toInt)))) s
/-- sltiu (12 R294). -/
def execSltiu (d a : BitVec 5) (i : BitVec 16) (s : State) : Out := immediate d a i (fun x i => word (flag (decide (x.toNat < i.toNat)))) s
/-- slli (12 R295). -/
def execSlli (d a : BitVec 5) (w : BitVec 1) (sh : BitVec 6) (s : State) : Out := shiftImm d a w sh (opSll w) s
/-- srli (12 R295). -/
def execSrli (d a : BitVec 5) (w : BitVec 1) (sh : BitVec 6) (s : State) : Out := shiftImm d a w sh (opSrl w) s
/-- srai (12 R295). -/
def execSrai (d a : BitVec 5) (w : BitVec 1) (sh : BitVec 6) (s : State) : Out := shiftImm d a w sh (opSra w) s
/-- lui (12 R296). -/
def execLui (d : BitVec 5) (i : BitVec 21) (s : State) : Out :=
  issue (immForm [d]) (do
    let t ← self
    setX d (immSigned t 21 i.toNat 1 * 0x10000)) s
/-- auipc: PC is the address of the word itself (12 R296). -/
def execAuipc (d : BitVec 5) (i : BitVec 21) (s : State) : Out :=
  issue (immForm [d]) (do
    let t ← self
    setX d (t.pc + immSigned t 21 i.toNat 1 * 0x10000)) s

/-! ## Branches and jumps (12 R303-R306) -/

/-- The target of a branch or jump: its own address plus the scaled offset. -/
def relTarget (t : Strand) (n off : Nat) : Word := t.pc + immSigned t n off 4

/-- The checks of a jump's target that are the jump's own (R304-R306). -/
def jumpTo (target : Word) : Exec Unit :=
  if target = 0 then raise 0x05 0x01 3 target else if !(target.toNat % 4 = 0) then raise 0x03 0 3 target else pure ()

/-- The forms of the branches and jumps. -/
def branchForm (a b : BitVec 5) (o : BitVec 13) : Strand → Form := fun t =>
  { ext := true, xs := [a, b], target := some (relTarget t 13 o.toNat) }
def branchMaskForm (a : BitVec 5) (o : BitVec 13) : Strand → Form := fun t =>
  { ext := true, ms := [a.toNat], reserved := decide (8 ≤ a.toNat), target := some (relTarget t 13 o.toNat) }
def jalForm (d : BitVec 5) (i : BitVec 21) : Strand → Form := fun t => { ext := true, xs := [d], target := some (relTarget t 21 i.toNat) }
def jalrForm (d a : BitVec 5) : Strand → Form := fun _ => { ext := true, xs := [d, a], courier := false }

/-- A conditional branch on two registers (12 R303). -/
def branch (a b : BitVec 5) (o : BitVec 13) (taken : Word → Word → Bool) (s : State) : Out :=
  issueTo (branchForm a b o) (do
    let t ← self
    let x ← getX a
    let y ← getX b
    if taken x y then do
      jumpTo (relTarget t 13 o.toNat)
      pure (relTarget t 13 o.toNat)
    else pure (t.pc + 4)) s

/-- A branch on a mask; a mask number above 7 is reserved (12 R303, 11 R271). -/
def branchMask (a : BitVec 5) (o : BitVec 13) (any : Bool) (s : State) : Out :=
  issueTo (branchMaskForm a o) (do
    let t ← self
    let m ← getM (BitVec.ofNat 3 a.toNat)
    if (m == 0) != any then do
      jumpTo (relTarget t 13 o.toNat)
      pure (relTarget t 13 o.toNat)
    else pure (t.pc + 4)) s


/-- beq (12 R303). -/
def execBeq (a b : BitVec 5) (o : BitVec 13) (s : State) : Out := branch a b o (fun x y => x == y) s
/-- bne (12 R303). -/
def execBne (a b : BitVec 5) (o : BitVec 13) (s : State) : Out := branch a b o (fun x y => x != y) s
/-- blt (12 R303). -/
def execBlt (a b : BitVec 5) (o : BitVec 13) (s : State) : Out := branch a b o (fun x y => decide (x.toInt < y.toInt)) s
/-- bge (12 R303). -/
def execBge (a b : BitVec 5) (o : BitVec 13) (s : State) : Out := branch a b o (fun x y => decide (y.toInt ≤ x.toInt)) s
/-- bltu (12 R303). -/
def execBltu (a b : BitVec 5) (o : BitVec 13) (s : State) : Out := branch a b o (fun x y => decide (x.toNat < y.toNat)) s
/-- bgeu (12 R303). -/
def execBgeu (a b : BitVec 5) (o : BitVec 13) (s : State) : Out := branch a b o (fun x y => decide (y.toNat ≤ x.toNat)) s
/-- bmany: some bit of M[a] is 1 (12 R303). -/
def execBmany (a : BitVec 5) (o : BitVec 13) (s : State) : Out := branchMask a o true s
/-- bmnone: every bit of M[a] is 0 (12 R303). -/
def execBmnone (a : BitVec 5) (o : BitVec 13) (s : State) : Out := branchMask a o false s

/-- jal (12 R304). -/
def execJal (d : BitVec 5) (i : BitVec 21) (s : State) : Out :=
  issueTo (jalForm d i) (do
    let t ← self
    jumpTo (relTarget t 21 i.toNat)
    setX d (t.pc + 4)
    pure (relTarget t 21 i.toNat)) s

/-- jalr: X[a] is read before X[d] is written; no courier may execute it (12 R305, 05 R142). -/
def execJalr (d a : BitVec 5) (i : BitVec 16) (s : State) : Out :=
  issueTo (jalrForm d a) (do
    let t ← self
    let x ← getX a
    let target := x + immSigned t 16 i.toNat 1
    jumpTo target
    setX d (t.pc + 4)
    pure target) s

end Sys2Proof.Machine
end

