-- ==== Sys2Proof/Machine/FloatOps.lean ====
section
/-!
DEFINITION. Scalar floating-point instructions: FOP, FMA, conversions and classification (12 R298-R302).
-/
namespace Sys2Proof.Machine

/-- The precision of a scalar form (12 R298). -/
def precision (p : BitVec 1) : Fmt := if p = 1 then fp64 else fp32

/-- The datum of a format in the low bits of a register (09 R230). -/
def datum (f : Fmt) (x : Word) : Nat := x.toNat % 2 ^ f.width

/-- The form of a floating-point instruction; `frm` when it rounds by RM (11 R278). -/
def fForm (frm : Bool) (xs : List (BitVec 5)) : Strand → Form := fun _ => { frm := frm, xs := xs }

/-- A result and its flags into X[d], FCSR and the OR tree; the bits above the result are zero (09 R230, R238). -/
def putF (d : BitVec 5) (r : Nat × Nat) : Exec Unit := do
  setX d (BitVec.ofNat 64 r.1)
  orFlags r.2

/-- A two-source floating-point operation. -/
def fbinary (frm : Bool) (d a b : BitVec 5) (p : BitVec 1) (f : Fmt → Nat → Nat → Nat → Nat × Nat) (s : State) : Out :=
  issue (fForm frm [d, a, b]) (do
    let t ← self
    let x ← getX a
    let y ← getX b
    let k := precision p
    putF d (f k (modeOf t) (datum k x) (datum k y))) s

/-- A fused multiply-add (12 R299). -/
def fternary (d a b c : BitVec 5) (p : BitVec 1) (np nc : Bool) (s : State) : Out :=
  issue (fForm true [d, a, b, c]) (do
    let t ← self
    let x ← getX a
    let y ← getX b
    let z ← getX c
    let k := precision p
    putF d (ffma k (modeOf t) np nc (datum k x) (datum k y) (datum k z))) s

/-- A comparison as an integer with its flags. -/
def compareAs (how : Nat) (k : Fmt) (_mode x y : Nat) : Nat × Nat := (b2n (fcompare k how x y).1, (fcompare k how x y).2)

/-- fadd (12 R298, 09 R235). -/
def execFadd (d a b : BitVec 5) (p : BitVec 1) (s : State) : Out := fbinary true d a b p fadd s
/-- fsub (12 R298, 09 R235). -/
def execFsub (d a b : BitVec 5) (p : BitVec 1) (s : State) : Out := fbinary true d a b p fsub s
/-- fmul (12 R298, 09 R235). -/
def execFmul (d a b : BitVec 5) (p : BitVec 1) (s : State) : Out := fbinary true d a b p fmul s
/-- fdiv (12 R298, 09 R235). -/
def execFdiv (d a b : BitVec 5) (p : BitVec 1) (s : State) : Out := fbinary true d a b p fdiv s
/-- fmin (12 R298, 09 R235). -/
def execFmin (d a b : BitVec 5) (p : BitVec 1) (s : State) : Out := fbinary false d a b p (fun k _ x y => fminmax k false x y) s
/-- fmax (12 R298, 09 R235). -/
def execFmax (d a b : BitVec 5) (p : BitVec 1) (s : State) : Out := fbinary false d a b p (fun k _ x y => fminmax k true x y) s
/-- fsgnj (12 R298, 09 R235). -/
def execFsgnj (d a b : BitVec 5) (p : BitVec 1) (s : State) : Out := fbinary false d a b p (fun k _ x y => (fsign k 0 x y, 0)) s
/-- fsgnjn (12 R298, 09 R235). -/
def execFsgnjn (d a b : BitVec 5) (p : BitVec 1) (s : State) : Out := fbinary false d a b p (fun k _ x y => (fsign k 1 x y, 0)) s
/-- fsgnjx (12 R298, 09 R235). -/
def execFsgnjx (d a b : BitVec 5) (p : BitVec 1) (s : State) : Out := fbinary false d a b p (fun k _ x y => (fsign k 2 x y, 0)) s
/-- feq (12 R298, 09 R235). -/
def execFeq (d a b : BitVec 5) (p : BitVec 1) (s : State) : Out := fbinary false d a b p (compareAs 0) s
/-- flt (12 R298, 09 R235). -/
def execFlt (d a b : BitVec 5) (p : BitVec 1) (s : State) : Out := fbinary false d a b p (compareAs 1) s
/-- fle (12 R298, 09 R235). -/
def execFle (d a b : BitVec 5) (p : BitVec 1) (s : State) : Out := fbinary false d a b p (compareAs 2) s
/-- fsqrt (12 R298). -/
def execFsqrt (d a : BitVec 5) (p : BitVec 1) (s : State) : Out :=
  issue (fForm true [d, a]) (do
    let t ← self
    let x ← getX a
    putF d (fsqrt (precision p) (modeOf t) (datum (precision p) x))) s
/-- fmadd (12 R299). -/
def execFmadd (d a b c : BitVec 5) (p : BitVec 1) (s : State) : Out := fternary d a b c p false false s
/-- fmsub (12 R299). -/
def execFmsub (d a b c : BitVec 5) (p : BitVec 1) (s : State) : Out := fternary d a b c p false true s
/-- fnmadd (12 R299). -/
def execFnmadd (d a b c : BitVec 5) (p : BitVec 1) (s : State) : Out := fternary d a b c p true true s
/-- fnmsub (12 R299). -/
def execFnmsub (d a b c : BitVec 5) (p : BitVec 1) (s : State) : Out := fternary d a b c p true false s

/-! ## Conversions (12 R300, R301) -/

/-- A floating-point type code. -/
def codeFmt (c : BitVec 4) : Option Fmt :=
  if c = 0 then some fp16 else if c = 1 then some bf16 else if c = 2 then some fp32 else if c = 3 then some fp64 else none

/-- An integer type code: width and signedness. -/
def codeInt (c : BitVec 4) : Option (Nat × Bool) :=
  if c = 8 then some (32, true) else if c = 9 then some (32, false) else if c = 10 then some (64, true)
  else if c = 11 then some (64, false) else none

def codeValid (c : BitVec 4) : Bool := (codeFmt c).isSome || (codeInt c).isSome

/-- A widening that is exact: FP16 or BF16 to FP32 or FP64, FP32 to FP64. -/
def exactConversion (t s : BitVec 4) : Bool := (s.toNat ≤ 1 && (t = 2 || t = 3)) || (s = 2 && t = 3)

/-- Reserved: an unassigned code, DST = SRC, two integers. -/
def fcvtReserved (t s : BitVec 4) : Bool :=
  !codeValid t || !codeValid s || t = s || ((codeInt t).isSome && (codeInt s).isSome)

/-- An integer result of a conversion as X[d] holds it: a 32-bit one is sign-extended even when unsigned (12 R301). -/
def intResult (n : Nat) (v : Int) : Word := if n = 32 then word (sext (wrap 32 v) 32) else word v

/-- The value and flags of a conversion. -/
def convertValue (t s : BitVec 4) (mode : Nat) (x : Word) : Word × Nat :=
  match codeFmt s, codeInt s, codeFmt t, codeInt t with
  | some f, _, some g, _ => let r := fconvert f g mode (datum f x); (BitVec.ofNat 64 r.1, r.2)
  | some f, _, none, some (n, sg) => let r := ftoint f mode n sg (datum f x); (intResult n r.1, r.2)
  | none, some (n, sg), some g, _ =>
    let v : Int := if sg then sext x.toNat n else (x.toNat % 2 ^ n : Nat)
    let r := fofint g mode v
    (BitVec.ofNat 64 r.1, r.2)
  | _, _, _, _ => (0, 0)

def fcvtForm (d a : BitVec 5) (t s : BitVec 4) : Strand → Form := fun _ =>
  { frm := !exactConversion t s, xs := [d, a], reserved := fcvtReserved t s }

/-- fcvt (12 R301). -/
def execFcvt (d a : BitVec 5) (t s : BitVec 4) (st : State) : Out :=
  issue (fcvtForm d a t s) (do
    let u ← self
    let x ← getX a
    let r := convertValue t s (modeOf u) x
    setX d r.1
    orFlags r.2) st

def fclassForm (d a : BitVec 5) (s : BitVec 4) : Strand → Form := fun _ => { xs := [d, a], reserved := (codeFmt s).isNone }

/-- fclass (12 R302). -/
def execFclass (d a : BitVec 5) (s : BitVec 4) (st : State) : Out :=
  issue (fclassForm d a s) (do
    let x ← getX a
    match codeFmt s with
    | some f => setX d (BitVec.ofNat 64 (2 ^ fclassify f (datum f x)))
    | none => pure ()) st

end Sys2Proof.Machine
end

