-- ==== Sys2Proof/Machine/Vector.lean ====
section
/-!
DEFINITION. Vector instructions: lane operations, comparisons, reductions, permutes and conversions (13 R307-R320).
-/
namespace Sys2Proof.Machine

/-- A vector instruction that waits for a stream has moved none (13 R309). -/
def together {α : Type} (body : Exec α) : Exec α := fun s =>
  match body s with
  | .error (.wait _) => .error (.wait s)
  | r => r

/-- A lane's result with its flags: bit 8 ISAT, 4:0 as FCSR. -/
abbrev LaneOp := Nat → Nat × Nat

/-- Writes a vector destination under a mask and ORs in the flags of its active lanes (13 R307). -/
def putLanes (w : Nat) (marked : Bool) (d : BitVec 5) (mask : Word) (f : LaneOp) : Exec Unit := do
  vdest marked d (fun old => maskedLanes w mask old (fun l => (f l).1))
  orFlags (activeFlags w mask (fun l => (f l).2))

/-- Sat of R311 with ISAT as its flag. -/
def saturate (w : Nat) (signed : Bool) (v : Int) : Nat × Nat :=
  let lo : Int := if signed then -(2 ^ (w - 1)) else 0
  let hi : Int := if signed then 2 ^ (w - 1) - 1 else 2 ^ w - 1
  if hi < v then (wrap w hi, 256) else if v < lo then (wrap w lo, 256) else (wrap w v, 0)

/-! ## Two-source lane operations (13 R308, R310, R312) -/

/-- The second source of a VOP, VFOP or VCMP: a vector, or the scalar of the X form in every lane (13 R308). -/
def secondLanes (x : BitVec 1) (marked : Bool) (b : BitVec 5) (w : Nat) : Exec (Nat → Nat) :=
  if x = 1 then do
    let v ← getX b
    pure (fun _ => v.toNat % 2 ^ w)
  else do
    let v ← vsource marked b
    pure (lane v w)

/-- The form of a two-source vector word. -/
def vbinForm (frm : Bool) (d a b : BitVec 5) (m : BitVec 3) (x : BitVec 1) : Strand → Form := fun t =>
  if x = 1 then vform t frm false (some d) (some a) none none [b] [m.toNat]
  else vform t frm false (some d) (some a) (some b) none [] [m.toNat]

/-- A lane operation of lane width `w` on two sources. -/
def vlaneOp (frm : Bool) (w : Nat) (d a b : BitVec 5) (m : BitVec 3) (x : BitVec 1) (f : Nat → Nat → Nat → Nat × Nat) (s : State) : Out :=
  issue (vbinForm frm d a b m x) (together do
    let t ← self
    let mk := marksOf t
    let va ← vsource mk.va a
    let vb ← secondLanes x mk.vb b w
    let mask ← getM m
    putLanes w mk.vd d mask (fun l => f (modeOf t) (lane va w l) (vb l))) s

/-- An integer lane operation: `f` gets the lanes as unsigned and as signed and gives an integer taken modulo 2^w. -/
def vintOp (d a b : BitVec 5) (m : BitVec 3) (e : BitVec 2) (x : BitVec 1) (f : Nat → Nat → Nat → Int → Int → Int) (s : State) : Out :=
  let w := laneWidth e
  vlaneOp false w d a b m x (fun _ p q => (wrap w (f w p q (sext p w) (sext q w)), 0)) s

/-- A saturating lane operation (13 R311). -/
def vsatOp (d a b : BitVec 5) (m : BitVec 3) (e : BitVec 2) (x : BitVec 1) (signed : Bool) (f : Int → Int → Int) (s : State) : Out :=
  let w := laneWidth e
  vlaneOp false w d a b m x (fun _ p q => saturate w signed (if signed then f (sext p w) (sext q w) else f p q)) s

/-- A floating-point lane operation (13 R312). -/
def vfloatOp (frm : Bool) (d a b : BitVec 5) (m : BitVec 3) (e : BitVec 2) (x : BitVec 1) (f : Fmt → Nat → Nat → Nat → Nat × Nat) (s : State) : Out :=
  vlaneOp frm (fmtOf e).width d a b m x (f (fmtOf e)) s


/-- vadd (13 R310). -/
def execVadd (d a b : BitVec 5) (m : BitVec 3) (e : BitVec 2) (x : BitVec 1) (s : State) : Out := vintOp d a b m e x (fun _ p q _ _ => p + q) s
/-- vsub (13 R310). -/
def execVsub (d a b : BitVec 5) (m : BitVec 3) (e : BitVec 2) (x : BitVec 1) (s : State) : Out := vintOp d a b m e x (fun _ p q _ _ => p - q) s
/-- vand (13 R310). -/
def execVand (d a b : BitVec 5) (m : BitVec 3) (e : BitVec 2) (x : BitVec 1) (s : State) : Out := vintOp d a b m e x (fun _ p q _ _ => (p &&& q : Nat)) s
/-- vor (13 R310). -/
def execVor (d a b : BitVec 5) (m : BitVec 3) (e : BitVec 2) (x : BitVec 1) (s : State) : Out := vintOp d a b m e x (fun _ p q _ _ => (p ||| q : Nat)) s
/-- vxor (13 R310). -/
def execVxor (d a b : BitVec 5) (m : BitVec 3) (e : BitVec 2) (x : BitVec 1) (s : State) : Out := vintOp d a b m e x (fun _ p q _ _ => (p ^^^ q : Nat)) s
/-- vandn (13 R310). -/
def execVandn (d a b : BitVec 5) (m : BitVec 3) (e : BitVec 2) (x : BitVec 1) (s : State) : Out := vintOp d a b m e x (fun _ p q _ _ => (p - (p &&& q) : Nat)) s
/-- vsll (13 R310). -/
def execVsll (d a b : BitVec 5) (m : BitVec 3) (e : BitVec 2) (x : BitVec 1) (s : State) : Out := vintOp d a b m e x (fun w p q _ _ => p * 2 ^ (q % w)) s
/-- vsrl (13 R310). -/
def execVsrl (d a b : BitVec 5) (m : BitVec 3) (e : BitVec 2) (x : BitVec 1) (s : State) : Out := vintOp d a b m e x (fun w p q _ _ => (p / 2 ^ (q % w) : Nat)) s
/-- vsra (13 R310). -/
def execVsra (d a b : BitVec 5) (m : BitVec 3) (e : BitVec 2) (x : BitVec 1) (s : State) : Out := vintOp d a b m e x (fun w _ q sp _ => sp / 2 ^ (q % w)) s
/-- vmin (13 R310). -/
def execVmin (d a b : BitVec 5) (m : BitVec 3) (e : BitVec 2) (x : BitVec 1) (s : State) : Out := vintOp d a b m e x (fun _ _ _ sp sq => min sp sq) s
/-- vmax (13 R310). -/
def execVmax (d a b : BitVec 5) (m : BitVec 3) (e : BitVec 2) (x : BitVec 1) (s : State) : Out := vintOp d a b m e x (fun _ _ _ sp sq => max sp sq) s
/-- vminu (13 R310). -/
def execVminu (d a b : BitVec 5) (m : BitVec 3) (e : BitVec 2) (x : BitVec 1) (s : State) : Out := vintOp d a b m e x (fun _ p q _ _ => (min p q : Nat)) s
/-- vmaxu (13 R310). -/
def execVmaxu (d a b : BitVec 5) (m : BitVec 3) (e : BitVec 2) (x : BitVec 1) (s : State) : Out := vintOp d a b m e x (fun _ p q _ _ => (max p q : Nat)) s
/-- vmul (13 R310). -/
def execVmul (d a b : BitVec 5) (m : BitVec 3) (e : BitVec 2) (x : BitVec 1) (s : State) : Out := vintOp d a b m e x (fun _ p q _ _ => p * q) s
/-- vmulh (13 R310). -/
def execVmulh (d a b : BitVec 5) (m : BitVec 3) (e : BitVec 2) (x : BitVec 1) (s : State) : Out := vintOp d a b m e x (fun w _ _ sp sq => sp * sq / 2 ^ w) s
/-- vmulhu (13 R310). -/
def execVmulhu (d a b : BitVec 5) (m : BitVec 3) (e : BitVec 2) (x : BitVec 1) (s : State) : Out := vintOp d a b m e x (fun w p q _ _ => (p * q / 2 ^ w : Nat)) s
/-- vsadd (13 R310, R311). -/
def execVsadd (d a b : BitVec 5) (m : BitVec 3) (e : BitVec 2) (x : BitVec 1) (s : State) : Out := vsatOp d a b m e x true (· + ·) s
/-- vsaddu (13 R310, R311). -/
def execVsaddu (d a b : BitVec 5) (m : BitVec 3) (e : BitVec 2) (x : BitVec 1) (s : State) : Out := vsatOp d a b m e x false (· + ·) s
/-- vssub (13 R310, R311). -/
def execVssub (d a b : BitVec 5) (m : BitVec 3) (e : BitVec 2) (x : BitVec 1) (s : State) : Out := vsatOp d a b m e x true (· - ·) s
/-- vssubu (13 R310, R311). -/
def execVssubu (d a b : BitVec 5) (m : BitVec 3) (e : BitVec 2) (x : BitVec 1) (s : State) : Out := vsatOp d a b m e x false (· - ·) s
/-- vfadd (13 R312). -/
def execVfadd (d a b : BitVec 5) (m : BitVec 3) (e : BitVec 2) (x : BitVec 1) (s : State) : Out := vfloatOp true d a b m e x fadd s
/-- vfsub (13 R312). -/
def execVfsub (d a b : BitVec 5) (m : BitVec 3) (e : BitVec 2) (x : BitVec 1) (s : State) : Out := vfloatOp true d a b m e x fsub s
/-- vfmul (13 R312). -/
def execVfmul (d a b : BitVec 5) (m : BitVec 3) (e : BitVec 2) (x : BitVec 1) (s : State) : Out := vfloatOp true d a b m e x fmul s
/-- vfdiv (13 R312). -/
def execVfdiv (d a b : BitVec 5) (m : BitVec 3) (e : BitVec 2) (x : BitVec 1) (s : State) : Out := vfloatOp true d a b m e x fdiv s
/-- vfmin (13 R312). -/
def execVfmin (d a b : BitVec 5) (m : BitVec 3) (e : BitVec 2) (x : BitVec 1) (s : State) : Out := vfloatOp false d a b m e x (fun k _ p q => fminmax k false p q) s
/-- vfmax (13 R312). -/
def execVfmax (d a b : BitVec 5) (m : BitVec 3) (e : BitVec 2) (x : BitVec 1) (s : State) : Out := vfloatOp false d a b m e x (fun k _ p q => fminmax k true p q) s
/-- vfsgnj (13 R312). -/
def execVfsgnj (d a b : BitVec 5) (m : BitVec 3) (e : BitVec 2) (x : BitVec 1) (s : State) : Out := vfloatOp false d a b m e x (fun k _ p q => (fsign k 0 p q, 0)) s
/-- vfsgnjn (13 R312). -/
def execVfsgnjn (d a b : BitVec 5) (m : BitVec 3) (e : BitVec 2) (x : BitVec 1) (s : State) : Out := vfloatOp false d a b m e x (fun k _ p q => (fsign k 1 p q, 0)) s
/-- vfsgnjx (13 R312). -/
def execVfsgnjx (d a b : BitVec 5) (m : BitVec 3) (e : BitVec 2) (x : BitVec 1) (s : State) : Out := vfloatOp false d a b m e x (fun k _ p q => (fsign k 2 p q, 0)) s

/-- The forms of the other vector words, by the fields that name registers. -/
def vunaryForm (frm reserved : Bool) (d a : BitVec 5) (m : BitVec 3) : Strand → Form := fun t =>
  vform t frm reserved (some d) (some a) none none [] [m.toNat]
def vfmaForm (d a b c : BitVec 5) (m : BitVec 3) : Strand → Form := fun t =>
  vform t true false (some d) (some a) (some b) (some c) [] [m.toNat]
def vcmpForm (d a b : BitVec 5) (m : BitVec 3) (x : BitVec 1) : Strand → Form := fun t =>
  if x = 1 then vform t false (decide (8 ≤ d.toNat)) none (some a) none none [b] [m.toNat, d.toNat]
  else vform t false (decide (8 ≤ d.toNat)) none (some a) (some b) none [] [m.toNat, d.toNat]
def vredForm (frm : Bool) (d a b : BitVec 5) (m : BitVec 3) : Strand → Form := fun t =>
  vform t frm false none none (some b) none [d, a] [m.toNat]
def vscanForm (frm : Bool) (d a b : BitVec 5) (m : BitVec 3) : Strand → Form := fun t =>
  vform t frm false (some d) none (some b) none [a] [m.toNat]
def vbcastForm (d a : BitVec 5) (m : BitVec 3) : Strand → Form := fun t => vform t false false (some d) none none none [a] [m.toNat]
def vextractForm (d a b : BitVec 5) : Strand → Form := fun t => vform t false false none (some a) none none [d, b] []
def vinsertForm (d a b : BitVec 5) : Strand → Form := fun t => vform t false false (some d) none none none [a, b] []
def vslideForm (d a b : BitVec 5) (m : BitVec 3) : Strand → Form := fun t =>
  vform t false false (some d) (some a) none none [b] [m.toNat]
def vpairForm (frm reserved : Bool) (d a b : BitVec 5) (m : BitVec 3) : Strand → Form := fun t =>
  vform t frm reserved (some d) (some a) (some b) none [] [m.toNat]

/-- A lane operation of one vector source. `f` gets the rounding mode, the source and the lane. -/
def vunary (frm reserved : Bool) (w : Nat) (d a : BitVec 5) (m : BitVec 3) (f : Nat → Vec → LaneOp) (s : State) : Out :=
  issue (vunaryForm frm reserved d a m) (together do
    let t ← self
    let mk := marksOf t
    let va ← vsource mk.va a
    let mask ← getM m
    putLanes w mk.vd d mask (f (modeOf t) va)) s

/-- vfsqrt (13 R312). -/
def execVfsqrt (d a : BitVec 5) (m : BitVec 3) (e : BitVec 2) (s : State) : Out :=
  vunary true false (fmtOf e).width d a m (fun mode v l => fsqrt (fmtOf e) mode (lane v (fmtOf e).width l)) s

/-- A fused multiply-add of lanes (13 R313). -/
def vfma (d a b c : BitVec 5) (m : BitVec 3) (f : BitVec 2) (np nc : Bool) (s : State) : Out :=
  issue (vfmaForm d a b c m) (together do
    let t ← self
    let mk := marksOf t
    let va ← vsource mk.va a
    let vb ← vsource mk.vb b
    let vc ← vsource mk.vc c
    let mask ← getM m
    let k := fmtOf f
    let w := k.width
    putLanes w mk.vd d mask (fun l => ffma k (modeOf t) np nc (lane va w l) (lane vb w l) (lane vc w l))) s

/-- vfmadd (13 R313). -/
def execVfmadd (d a b c : BitVec 5) (m : BitVec 3) (f : BitVec 2) (s : State) : Out := vfma d a b c m f false false s
/-- vfmsub (13 R313). -/
def execVfmsub (d a b c : BitVec 5) (m : BitVec 3) (f : BitVec 2) (s : State) : Out := vfma d a b c m f false true s
/-- vfnmadd (13 R313). -/
def execVfnmadd (d a b c : BitVec 5) (m : BitVec 3) (f : BitVec 2) (s : State) : Out := vfma d a b c m f true true s
/-- vfnmsub (13 R313). -/
def execVfnmsub (d a b c : BitVec 5) (m : BitVec 3) (f : BitVec 2) (s : State) : Out := vfma d a b c m f true false s

/-! ## Compare to mask (13 R314) -/

/-- The new mask value: conditions of active lanes, old bits of the others, 0 from lane L on. -/
def maskResult (w : Nat) (mask old : Word) (cond : Nat → Bool) : Word :=
  BitVec.ofNat 64 ((List.range (laneCount w)).map (fun l => if (if active mask l then cond l else active old l) then 2 ^ l else 0)).sum

/-- A comparison of lanes into mask register d; a number above 7 is reserved. -/
def vcompare (w : Nat) (d a b : BitVec 5) (m : BitVec 3) (x : BitVec 1) (f : Nat → Nat → Bool × Nat) (s : State) : Out :=
  issue (vcmpForm d a b m x) (together do
    let t ← self
    let mk := marksOf t
    let va ← vsource mk.va a
    let vb ← secondLanes x mk.vb b w
    let mask ← getM m
    let md := BitVec.ofNat 3 d.toNat
    let old ← getM md
    setM md (maskResult w mask (if md = 0 then 0 else old) (fun l => (f (lane va w l) (vb l)).1))
    orFlags (activeFlags w mask (fun l => (f (lane va w l) (vb l)).2))) s

def vintCmp (d a b : BitVec 5) (m : BitVec 3) (e : BitVec 2) (x : BitVec 1) (f : Nat → Nat → Int → Int → Bool) (s : State) : Out :=
  let w := laneWidth e
  vcompare w d a b m x (fun p q => (f p q (sext p w) (sext q w), 0)) s

def vfloatCmp (d a b : BitVec 5) (m : BitVec 3) (e : BitVec 2) (x : BitVec 1) (f : Fmt → Nat → Nat → Bool × Nat) (s : State) : Out :=
  vcompare (fmtOf e).width d a b m x (f (fmtOf e)) s

/-- VcmpEq (13 R314). -/
def execVcmpEq (d a b : BitVec 5) (m : BitVec 3) (e : BitVec 2) (x : BitVec 1) (s : State) : Out := vintCmp d a b m e x (fun p q _ _ => p == q) s
/-- VcmpNe (13 R314). -/
def execVcmpNe (d a b : BitVec 5) (m : BitVec 3) (e : BitVec 2) (x : BitVec 1) (s : State) : Out := vintCmp d a b m e x (fun p q _ _ => p != q) s
/-- VcmpLt (13 R314). -/
def execVcmpLt (d a b : BitVec 5) (m : BitVec 3) (e : BitVec 2) (x : BitVec 1) (s : State) : Out := vintCmp d a b m e x (fun _ _ sp sq => decide (sp < sq)) s
/-- VcmpGe (13 R314). -/
def execVcmpGe (d a b : BitVec 5) (m : BitVec 3) (e : BitVec 2) (x : BitVec 1) (s : State) : Out := vintCmp d a b m e x (fun _ _ sp sq => decide (sq ≤ sp)) s
/-- VcmpLtu (13 R314). -/
def execVcmpLtu (d a b : BitVec 5) (m : BitVec 3) (e : BitVec 2) (x : BitVec 1) (s : State) : Out := vintCmp d a b m e x (fun p q _ _ => decide (p < q)) s
/-- VcmpGeu (13 R314). -/
def execVcmpGeu (d a b : BitVec 5) (m : BitVec 3) (e : BitVec 2) (x : BitVec 1) (s : State) : Out := vintCmp d a b m e x (fun p q _ _ => decide (q ≤ p)) s
/-- VfcmpEq (13 R314). -/
def execVfcmpEq (d a b : BitVec 5) (m : BitVec 3) (e : BitVec 2) (x : BitVec 1) (s : State) : Out := vfloatCmp d a b m e x (fun k p q => fcompare k 0 p q) s
/-- VfcmpNe (13 R314). -/
def execVfcmpNe (d a b : BitVec 5) (m : BitVec 3) (e : BitVec 2) (x : BitVec 1) (s : State) : Out := vfloatCmp d a b m e x (fun k p q => (!(fcompare k 0 p q).1, (fcompare k 0 p q).2)) s
/-- VfcmpLt (13 R314). -/
def execVfcmpLt (d a b : BitVec 5) (m : BitVec 3) (e : BitVec 2) (x : BitVec 1) (s : State) : Out := vfloatCmp d a b m e x (fun k p q => fcompare k 1 p q) s
/-- VfcmpLe (13 R314). -/
def execVfcmpLe (d a b : BitVec 5) (m : BitVec 3) (e : BitVec 2) (x : BitVec 1) (s : State) : Out := vfloatCmp d a b m e x (fun k p q => fcompare k 2 p q) s
/-- VfcmpUo (13 R314). -/
def execVfcmpUo (d a b : BitVec 5) (m : BitVec 3) (e : BitVec 2) (x : BitVec 1) (s : State) : Out := vfloatCmp d a b m e x (fun k p q => (isNan (fdecode k p) || isNan (fdecode k q), snanFlag [fdecode k p, fdecode k q])) s

/-! ## Reductions and scans (13 R315, 09 R245) -/

/-- The active lanes of a vector, lane 0 first. -/
def activeLanes (w : Nat) (mask : Word) (v : Vec) : List Nat := ((List.range (laneCount w)).filter (active mask)).map (lane v w)

/-- A reduction into X[d]: the start value and the vector give a value and flags. -/
def vreduce (frm : Bool) (w : Nat) (d a b : BitVec 5) (m : BitVec 3) (f : Nat → Word → Nat → Vec → Word × Nat) (s : State) : Out :=
  issue (vredForm frm d a b m) (together do
    let t ← self
    let x ← getX a
    let v ← vsource (marksOf t).vb b
    let mask ← getM m
    let r := f (modeOf t) mask (x.toNat % 2 ^ w) v
    setX d r.1
    orFlags r.2) s

/-- An integer reduction over numbers, the result sign- or zero-extended from `w` bits. -/
def vintRed (d a b : BitVec 5) (m : BitVec 3) (e : BitVec 2) (signed : Bool) (f : Nat → Nat → Nat → Nat) (s : State) : Out :=
  let w := laneWidth e
  vreduce false w d a b m (fun _ mask x v =>
    let r := (activeLanes w mask v).foldl (f w) x
    (if signed then word (sext r w) else BitVec.ofNat 64 (r % 2 ^ w), 0)) s

/-- vredsum (13 R315). -/
def execVredsum (d a b : BitVec 5) (m : BitVec 3) (e : BitVec 2) (s : State) : Out := vintRed d a b m e true (fun w p q => (p + q) % 2 ^ w) s
/-- vredmin (13 R315). -/
def execVredmin (d a b : BitVec 5) (m : BitVec 3) (e : BitVec 2) (s : State) : Out := vintRed d a b m e true (fun w p q => if sext q w < sext p w then q else p) s
/-- vredmax (13 R315). -/
def execVredmax (d a b : BitVec 5) (m : BitVec 3) (e : BitVec 2) (s : State) : Out := vintRed d a b m e true (fun w p q => if sext p w < sext q w then q else p) s
/-- vredminu (13 R315). -/
def execVredminu (d a b : BitVec 5) (m : BitVec 3) (e : BitVec 2) (s : State) : Out := vintRed d a b m e false (fun _ p q => min p q) s
/-- vredmaxu (13 R315). -/
def execVredmaxu (d a b : BitVec 5) (m : BitVec 3) (e : BitVec 2) (s : State) : Out := vintRed d a b m e false (fun _ p q => max p q) s
/-- vredand (13 R315). -/
def execVredand (d a b : BitVec 5) (m : BitVec 3) (e : BitVec 2) (s : State) : Out := vintRed d a b m e true (fun _ p q => p &&& q) s
/-- vredor (13 R315). -/
def execVredor (d a b : BitVec 5) (m : BitVec 3) (e : BitVec 2) (s : State) : Out := vintRed d a b m e true (fun _ p q => p ||| q) s
/-- vredxor (13 R315). -/
def execVredxor (d a b : BitVec 5) (m : BitVec 3) (e : BitVec 2) (s : State) : Out := vintRed d a b m e true (fun _ p q => p ^^^ q) s

/-- The lane order of R245 over values with flags. -/
def laneOrder (f : Nat → Nat → Nat × Nat) (x : Nat) (vs : List Nat) : Nat × Nat :=
  vs.foldl (fun acc v => ((f acc.1 v).1, acc.2 ||| (f acc.1 v).2)) (x, 0)

/-- One round of the pairwise order: neighbours combined, an absent one leaves the other. -/
def pairRound (f : Nat → Nat → Nat × Nat) (ts : List (Option Nat)) (fl : Nat) : List (Option Nat) × Nat :=
  match ts with
  | some p :: some q :: rest =>
    let r := pairRound f rest (fl ||| (f p q).2)
    (some (f p q).1 :: r.1, r.2)
  | p :: q :: rest =>
    let r := pairRound f rest fl
    ((if p.isSome then p else q) :: r.1, r.2)
  | ts => (ts, fl)

/-- Rounds until one value is left; `n` bounds them. -/
def pairRounds (f : Nat → Nat → Nat × Nat) (n : Nat) (ts : List (Option Nat)) (fl : Nat) : List (Option Nat) × Nat :=
  match n with
  | 0 => (ts, fl)
  | k + 1 =>
    let r := pairRound f ts fl
    pairRounds f k r.1 r.2

/-- The pairwise order of R245. -/
def pairOrder (f : Nat → Nat → Nat × Nat) (w : Nat) (mask : Word) (x : Nat) (v : Vec) : Nat × Nat :=
  let ts := (List.range (laneCount w)).map (fun l => if active mask l then some (lane v w l) else none)
  let r := pairRounds f (laneCount w).log2 ts 0
  match r.1 with
  | some t :: _ => ((f x t).1, r.2 ||| (f x t).2)
  | _ => (x, r.2)

def vfloatRed (frm pairwise : Bool) (d a b : BitVec 5) (m : BitVec 3) (e : BitVec 2) (f : Fmt → Nat → Nat → Nat → Nat × Nat) (s : State) : Out :=
  let k := fmtOf e
  vreduce frm k.width d a b m (fun mode mask x v =>
    let r := if pairwise then pairOrder (f k mode) k.width mask x v else laneOrder (f k mode) x (activeLanes k.width mask v)
    (BitVec.ofNat 64 r.1, r.2)) s

/-- vfredo (13 R315, 09 R245). -/
def execVfredo (d a b : BitVec 5) (m : BitVec 3) (e : BitVec 2) (s : State) : Out := vfloatRed true false d a b m e fadd s
/-- vfredp (13 R315, 09 R245). -/
def execVfredp (d a b : BitVec 5) (m : BitVec 3) (e : BitVec 2) (s : State) : Out := vfloatRed true true d a b m e fadd s
/-- vfredmino (13 R315, 09 R245). -/
def execVfredmino (d a b : BitVec 5) (m : BitVec 3) (e : BitVec 2) (s : State) : Out := vfloatRed false false d a b m e (fun k _ p q => fminmax k false p q) s
/-- vfredmaxo (13 R315, 09 R245). -/
def execVfredmaxo (d a b : BitVec 5) (m : BitVec 3) (e : BitVec 2) (s : State) : Out := vfloatRed false false d a b m e (fun k _ p q => fminmax k true p q) s
/-- vfredminp (13 R315, 09 R245). -/
def execVfredminp (d a b : BitVec 5) (m : BitVec 3) (e : BitVec 2) (s : State) : Out := vfloatRed false true d a b m e (fun k _ p q => fminmax k false p q) s
/-- vfredmaxp (13 R315, 09 R245). -/
def execVfredmaxp (d a b : BitVec 5) (m : BitVec 3) (e : BitVec 2) (s : State) : Out := vfloatRed false true d a b m e (fun k _ p q => fminmax k true p q) s

/-- The values of a running combination after each lane: a list of lane results, and the flags (13 R315). -/
def running (f : Nat → Nat → Nat × Nat) (w : Nat) (mask : Word) (v : Vec) (x : Nat) (fl : Nat) (ls : List Nat) : List Nat × Nat :=
  match ls with
  | [] => ([], fl)
  | l :: rest =>
    let r := if active mask l then f x (lane v w l) else (x, 0)
    let more := running f w mask v r.1 (fl ||| r.2) rest
    (r.1 :: more.1, more.2)

/-- A scan into a vector. -/
def vscanOp (frm : Bool) (w : Nat) (d a b : BitVec 5) (m : BitVec 3) (f : Nat → Nat → Nat → Nat × Nat) (s : State) : Out :=
  issue (vscanForm frm d a b m) (together do
    let t ← self
    let mk := marksOf t
    let x ← getX a
    let v ← vsource mk.vb b
    let mask ← getM m
    let r := running (f (modeOf t)) w mask v (x.toNat % 2 ^ w) 0 (List.range (laneCount w))
    vdest mk.vd d (fun old => maskedLanes w mask old (fun l => r.1.getD l 0))
    orFlags r.2) s

/-- vscan (13 R315). -/
def execVscan (d a b : BitVec 5) (m : BitVec 3) (e : BitVec 2) (s : State) : Out :=
  vscanOp false (laneWidth e) d a b m (fun _ p q => ((p + q) % 2 ^ laneWidth e, 0)) s
/-- vfscano (13 R315, 09 R245). -/
def execVfscano (d a b : BitVec 5) (m : BitVec 3) (e : BitVec 2) (s : State) : Out :=
  vscanOp true (fmtOf e).width d a b m (fadd (fmtOf e)) s

/-! ## Permutes, slides and selection (13 R317) -/

/-- vbcast. -/
def execVbcast (d a : BitVec 5) (m : BitVec 3) (e : BitVec 2) (s : State) : Out :=
  issue (vbcastForm d a m) (together do
    let t ← self
    let x ← getX a
    let mask ← getM m
    putLanes (laneWidth e) (marksOf t).vd d mask (fun _ => (x.toNat % 2 ^ laneWidth e, 0))) s

/-- vextract. -/
def execVextract (d a b : BitVec 5) (e : BitVec 2) (s : State) : Out :=
  issue (vextractForm d a b) (together do
    let t ← self
    let v ← vsource (marksOf t).va a
    let i ← getX b
    let w := laneWidth e
    setX d (if i.toNat < laneCount w then BitVec.ofNat 64 (lane v w i.toNat) else 0)) s

/-- vinsert: an insert into a stream writes the lane and zeros elsewhere. -/
def execVinsert (d a b : BitVec 5) (e : BitVec 2) (s : State) : Out :=
  issue (vinsertForm d a b) (together do
    let t ← self
    let x ← getX a
    let i ← getX b
    let w := laneWidth e
    vdest (marksOf t).vd d (fun old =>
      ofLanes w ((List.range (laneCount w)).map (fun l => if l = i.toNat then x.toNat % 2 ^ w else lane old w l)))) s

/-- vslideup: lanes below the amount are kept. -/
def execVslideup (d a b : BitVec 5) (m : BitVec 3) (e : BitVec 2) (s : State) : Out :=
  issue (vslideForm d a b m) (together do
    let t ← self
    let mk := marksOf t
    let v ← vsource mk.va a
    let n ← getX b
    let mask ← getM m
    let w := laneWidth e
    let reach := BitVec.ofNat 64 (((List.range (laneCount w)).map (fun l => if active mask l && decide (n.toNat ≤ l) then 2 ^ l else 0)).sum)
    putLanes w mk.vd d reach (fun l => (lane v w (l - n.toNat), 0))) s

/-- vslidedown. -/
def execVslidedown (d a b : BitVec 5) (m : BitVec 3) (e : BitVec 2) (s : State) : Out :=
  issue (vslideForm d a b m) (together do
    let t ← self
    let mk := marksOf t
    let v ← vsource mk.va a
    let n ← getX b
    let mask ← getM m
    let w := laneWidth e
    putLanes w mk.vd d mask (fun l => (if l + n.toNat < laneCount w then lane v w (l + n.toNat) else 0, 0))) s

/-- vperm. -/
def execVperm (d a b : BitVec 5) (m : BitVec 3) (e : BitVec 2) (s : State) : Out :=
  issue (vpairForm false false d a b m) (together do
    let t ← self
    let mk := marksOf t
    let v ← vsource mk.va a
    let ix ← vsource mk.vb b
    let mask ← getM m
    let w := laneWidth e
    putLanes w mk.vd d mask (fun l => (if lane ix w l < laneCount w then lane v w (lane ix w l) else 0, 0))) s

/-- vsel: the mask selects and every lane is written. -/
def execVsel (d a b : BitVec 5) (m : BitVec 3) (e : BitVec 2) (s : State) : Out :=
  issue (vpairForm false false d a b m) (together do
    let t ← self
    let mk := marksOf t
    let va ← vsource mk.va a
    let vb ← vsource mk.vb b
    let mask ← getM m
    let w := laneWidth e
    vdest mk.vd d (fun _ => ofLanes w ((List.range (laneCount w)).map (fun l => if active mask l then lane va w l else lane vb w l)))) s

/-! ## Conversions (13 R318-R320) -/

/-- Place of destination lane `l` in the source of a widening form: half `h` of it. -/
def halfLane (w : Nat) (h : BitVec 1) (l : Nat) : Nat := h.toNat * laneCount w + l

/-- vsext. -/
def execVsext (d a : BitVec 5) (m : BitVec 3) (e : BitVec 2) (h : BitVec 1) (s : State) : Out :=
  let w := laneWidth e
  vunary false (decide (e = 0)) w d a m (fun _ v l => (wrap w (sext (lane v (w / 2) (halfLane w h l)) (w / 2)), 0)) s
/-- vzext. -/
def execVzext (d a : BitVec 5) (m : BitVec 3) (e : BitVec 2) (h : BitVec 1) (s : State) : Out :=
  let w := laneWidth e
  vunary false (decide (e = 0)) w d a m (fun _ v l => (lane v (w / 2) (halfLane w h l), 0)) s

/-- Element `l` of the pair of sources of a narrowing form of destination width `w`. -/
def pairLane (w : Nat) (va vb : Vec) (l : Nat) : Nat :=
  if l < laneCount w / 2 then lane va (2 * w) l else lane vb (2 * w) (l - laneCount w / 2)

/-- A narrowing of two sources of width 2w. -/
def vnarrowOp (frm reserved : Bool) (w : Nat) (d a b : BitVec 5) (m : BitVec 3) (f : Nat → Nat → Nat × Nat) (s : State) : Out :=
  issue (vpairForm frm reserved d a b m) (together do
    let t ← self
    let mk := marksOf t
    let va ← vsource mk.va a
    let vb ← vsource mk.vb b
    let mask ← getM m
    putLanes w mk.vd d mask (fun l => f (modeOf t) (pairLane w va vb l))) s

/-- vnarrow. -/
def execVnarrow (d a b : BitVec 5) (m : BitVec 3) (e : BitVec 2) (s : State) : Out :=
  let w := laneWidth e
  vnarrowOp false (decide (e = 3)) w d a b m (fun _ x => saturate w true (sext x (2 * w))) s
/-- vnarrowsu. -/
def execVnarrowsu (d a b : BitVec 5) (m : BitVec 3) (e : BitVec 2) (s : State) : Out :=
  let w := laneWidth e
  vnarrowOp false (decide (e = 3)) w d a b m (fun _ x => saturate w false (sext x (2 * w))) s
/-- vnarrowu. -/
def execVnarrowu (d a b : BitVec 5) (m : BitVec 3) (e : BitVec 2) (s : State) : Out :=
  let w := laneWidth e
  vnarrowOp false (decide (e = 3)) w d a b m (fun _ x => saturate w false x) s
/-- vtrunc. -/
def execVtrunc (d a b : BitVec 5) (m : BitVec 3) (e : BitVec 2) (s : State) : Out :=
  let w := laneWidth e
  vnarrowOp false (decide (e = 3)) w d a b m (fun _ x => (x % 2 ^ w, 0)) s

/-- vfwiden: FP32 from FP16, FP64 from FP32. -/
def execVfwiden (d a : BitVec 5) (m : BitVec 3) (e : BitVec 2) (h : BitVec 1) (s : State) : Out :=
  let k := fmtOf e
  let src := if e = 3 then fp32 else fp16
  vunary false (decide (e.toNat < 2)) k.width d a m (fun mode v l => fconvert src k mode (lane v src.width (halfLane k.width h l))) s
/-- vfwiden from BF16, to FP32 only. -/
def execVfwidenBf (d a : BitVec 5) (m : BitVec 3) (e : BitVec 2) (h : BitVec 1) (s : State) : Out :=
  vunary false (!(decide (e = 2))) 32 d a m (fun mode v l => fconvert bf16 fp32 mode (lane v 16 (halfLane 32 h l))) s
/-- vfnarrow: FP16 or BF16 from FP32, FP32 from FP64. -/
def execVfnarrow (d a b : BitVec 5) (m : BitVec 3) (e : BitVec 2) (s : State) : Out :=
  let k := fmtOf e
  vnarrowOp true (decide (e = 3)) k.width d a b m (fun mode x => fconvert (if e = 2 then fp64 else fp32) k mode x) s

/-- A conversion of lanes to or from integers of their own width; field vb is unused and must be 0 (11 R271). -/
def vconvert (d a b : BitVec 5) (m : BitVec 3) (e : BitVec 2) (f : Fmt → Nat → Nat → Nat × Nat) (s : State) : Out :=
  let k := fmtOf e
  vunary true (!(decide (b = 0))) k.width d a m (fun mode v l => f k mode (lane v k.width l)) s

/-- vfcvt.F.x. -/
def execVfcvtFX (d a b : BitVec 5) (m : BitVec 3) (e : BitVec 2) (s : State) : Out :=
  vconvert d a b m e (fun k mode x => fofint k mode (sext x k.width)) s
/-- vfcvt.F.xu. -/
def execVfcvtFXu (d a b : BitVec 5) (m : BitVec 3) (e : BitVec 2) (s : State) : Out :=
  vconvert d a b m e (fun k mode x => fofint k mode x) s
/-- vfcvt.x.F. -/
def execVfcvtXF (d a b : BitVec 5) (m : BitVec 3) (e : BitVec 2) (s : State) : Out :=
  vconvert d a b m e (fun k mode x => (wrap k.width (ftoint k mode k.width true x).1, (ftoint k mode k.width true x).2)) s
/-- vfcvt.xu.F. -/
def execVfcvtXuF (d a b : BitVec 5) (m : BitVec 3) (e : BitVec 2) (s : State) : Out :=
  vconvert d a b m e (fun k mode x => (wrap k.width (ftoint k mode k.width false x).1, (ftoint k mode k.width false x).2)) s

/-- vps8: part `p` of the bytes; a part beyond the vector is reserved. -/
def execVps8 (d a : BitVec 5) (m : BitVec 3) (e : BitVec 2) (p : BitVec 3) (s : State) : Out :=
  let k := fmtOf e
  vunary false (decide (64 < (p.toNat + 1) * laneCount k.width)) k.width d a m
    (fun _ v l => (ps8To k (lane v 8 (p.toNat * laneCount k.width + l)), 0)) s

/-! ## Mask operations (13 R321) -/

/-- The form of a MASK word: m and x registers; m numbers above 7 are reserved. -/
def maskForm (ms : List (BitVec 5)) (xs : List (BitVec 5)) : Strand → Form := fun _ =>
  { ms := ms.map (·.toNat), xs := xs, reserved := ms.any (fun r => decide (8 ≤ r.toNat)) }

def mreg (r : BitVec 5) : BitVec 3 := BitVec.ofNat 3 r.toNat

def maskBinary (d a b : BitVec 5) (f : Word → Word → Word) (s : State) : Out :=
  issue (maskForm [d, a, b] []) (do
    let x ← getM (mreg a)
    let y ← getM (mreg b)
    setM (mreg d) (f x y)) s

/-- mand. -/
def execMand (d a b : BitVec 5) (s : State) : Out := maskBinary d a b (· &&& ·) s
/-- mor. -/
def execMor (d a b : BitVec 5) (s : State) : Out := maskBinary d a b (· ||| ·) s
/-- mxor. -/
def execMxor (d a b : BitVec 5) (s : State) : Out := maskBinary d a b (· ^^^ ·) s
/-- mandn. -/
def execMandn (d a b : BitVec 5) (s : State) : Out := maskBinary d a b (fun x y => x &&& ~~~y) s
/-- mnot. -/
def execMnot (d a : BitVec 5) (s : State) : Out :=
  issue (maskForm [d, a] []) (do
    let x ← getM (mreg a)
    setM (mreg d) (~~~x)) s
/-- mset mD, xA. -/
def execMset (d a : BitVec 5) (s : State) : Out :=
  issue (maskForm [d] [a]) (do
    let x ← getX a
    setM (mreg d) x) s
/-- mget xD, mA. -/
def execMget (d a : BitVec 5) (s : State) : Out :=
  issue (maskForm [a] [d]) (do
    let x ← getM (mreg a)
    setX d x) s
/-- mpopc xD, mA. -/
def execMpopc (d a : BitVec 5) (s : State) : Out :=
  issue (maskForm [a] [d]) (do
    let x ← getM (mreg a)
    setX d (BitVec.ofNat 64 (popN 64 x.toNat))) s
/-- mfirst xD, mA: 64 if there is no one bit. -/
def execMfirst (d a : BitVec 5) (s : State) : Out :=
  issue (maskForm [a] [d]) (do
    let x ← getM (mreg a)
    setX d (BitVec.ofNat 64 (ctzN 64 x.toNat))) s
/-- mfirstn mD, xA. -/
def execMfirstn (d a : BitVec 5) (s : State) : Out :=
  issue (maskForm [d] [a]) (do
    let x ← getX a
    setM (mreg d) (BitVec.ofNat 64 (2 ^ min x.toNat 64 - 1))) s

end Sys2Proof.Machine
end

