-- ==== Sys2Proof/Machine/LoadStore.lean ====
section
/-!
DEFINITION. Loads, stores, gathers, scatters, atomic operations and the SYNC major (12 R297, 14 R322-R336).
-/
namespace Sys2Proof.Machine

/-- Access size of a w code (14 R323). -/
def accessSize (w : BitVec 3) : Nat :=
  if w = 0 || w = 4 then 1 else if w = 1 || w = 5 then 2 else if w = 2 || w = 6 then 4 else 8

/-- Loaded bytes extended as the w code states: B, H and W by sign. -/
def extendLoad (w : BitVec 3) (bs : List Byte) : Word :=
  if w.toNat ≤ 2 then word (sext (ofBytes bs) (8 * accessSize w)) else BitVec.ofNat 64 (ofBytes bs)

/-- Loads by a w code at an address into X[d]. -/
def loadInto (k : Kind) (d : BitVec 5) (w : BitVec 3) (va : Word) : Exec Unit := do
  let bs ← loadBytes k va (accessSize w)
  setX d (extendLoad w bs)

/-- The forms of LDX and LD: w code 7 is reserved (14 R323). -/
def ldxForm (xs : List (BitVec 5)) (w : BitVec 3) : Strand → Form := fun _ => { xs := xs, reserved := decide (w = 7) }
def ldForm (xs : List (BitVec 5)) (w : BitVec 3) : Strand → Form := fun _ => { ext := true, xs := xs, reserved := decide (w = 7) }

/-- ldx (12 R297). -/
def execLdx (d a b : BitVec 5) (w : BitVec 3) (s : State) : Out :=
  issue (ldxForm [d, a, b] w) (do
    let x ← getX a
    let y ← getX b
    loadInto kLoad d w (x + y * BitVec.ofNat 64 (accessSize w))) s

/-- ld (14 R323). -/
def execLd (d a : BitVec 5) (w : BitVec 3) (o : BitVec 13) (s : State) : Out :=
  issue (ldForm [d, a] w) (do
    let t ← self
    let x ← getX a
    loadInto kLoad d w (x + immSigned t 13 o.toNat (accessSize w))) s

/-- st (14 R324). -/
def execSt (ds a : BitVec 5) (w : BitVec 2) (o : BitVec 13) (s : State) : Out :=
  issue (immForm [ds, a]) (do
    let t ← self
    let x ← getX a
    let v ← getX ds
    let n := 2 ^ w.toNat
    storeBytes kStore (x + immSigned t 13 o.toNat n) (leBytes n v.toNat)) s

/-- The form of VLD and VST: an extendable immediate, one vector, one address register. -/
def vmemForm (v : BitVec 5) (xs : List (BitVec 5)) (m : Option (BitVec 3)) (vb : Option (BitVec 5)) (ext : Bool) : Strand → Form := fun _ =>
  { ext := ext, vs := v :: vb.toList, xs := xs, ms := (m.map (·.toNat)).toList }

/-- vld (14 R325). -/
def execVld (d a : BitVec 5) (o : BitVec 13) (s : State) : Out :=
  issue (vmemForm d [a] none none true) (do
    let t ← self
    let x ← getX a
    let bs ← loadBytes kVload (x + immSigned t 13 o.toNat 64) 64
    setV d (vecOfBytes bs)) s

/-- vst (14 R325). -/
def execVst (ds a : BitVec 5) (o : BitVec 13) (s : State) : Out :=
  issue (vmemForm ds [a] none none true) (do
    let t ← self
    let x ← getX a
    let v ← getV ds
    storeBytes kVstore (x + immSigned t 13 o.toNat 64) (vecBytes v)) s

/-! ## Gathers and scatters (14 R326, R327) -/

/-- The lanes that a mask makes active, in increasing order. -/
def lanesOf (w : Nat) (mask : Word) : List Nat := (List.range (laneCount w)).filter (active mask)

/-- The checks of a lane before any lane is performed: those of its access, and that it leads to no control window (14 R322, R327; 06 R414). -/
def laneCheck (k : Kind) (n : Nat) (va : Word) : Exec Target := do
  let t ← check k va n
  match t with
  | .global _ =>
    match ← depotPlace k.kind va with
    | some _ => raise 0x04 0x01 k.kind va
    | none => pure t
  | _ => pure t

/-- Loads the lanes of a gather in order. -/
def gatherLanes (n : Nat) (addr : Nat → Word) (ls : List Nat) : Exec (List (Nat × Nat)) :=
  match ls with
  | [] => pure []
  | l :: rest => do
    let bs ← loadBytes kGather (addr l) n
    let more ← gatherLanes n addr rest
    pure ((l, ofBytes bs) :: more)

/-- Checks a scatter's lane before any lane is performed; its granule of local memory is taken exclusive, so that no lane waits later. -/
def prepareLane (n : Nat) (va : Word) : Exec Unit := do
  let a ← theAgent
  let t ← laneCheck kScatter n va
  match t with
  | .global _ =>
    stashTouch va
    let (dev, pa, key) ← homeOf kScatter va
    let s ← theState
    if dev = devnum s && decide (pa < hbmSize) then
      match clusterOwn s (agentCluster a) (va.toNat / 64) (pa / 64) key false (actRun (me s).act) with
      | .ok _ s1 => update (fun _ => s1)
      | .bad _ _ _ => pure ()
      | .busy s1 => waitIn s1
    else if writeOut s dev pa then stall
    else pure ()
  | _ => pure ()

/-- Whether a later lane of a scatter stores to the address of lane `l`. -/
def storedAgain (addr : Nat → Word) (ls : List Nat) (l : Nat) : Bool := ls.any (fun k => decide (l < k) && addr k == addr l)

/-- Whether a checked address is memory of another device, whose writes keep no order (01 R27). -/
def farAway (n : Nat) (va : Word) : Exec Bool := do
  match ← check kScatter va n with
  | .global _ =>
    let (dev, _, _) ← homeOf kScatter va
    let s ← theState
    pure (!decide (dev = devnum s))
  | _ => pure false

/-- Performs a lane of a scatter; on another device, a lane that a later one stores over leaves no packet that could overtake it. -/
def scatterLane (v : Vec) (w : Nat) (addr : Nat → Word) (ls : List Nat) (l : Nat) : Exec Unit := do
  let store := storeBytes kScatter (addr l) (leBytes (w / 8) (lane v w l))
  if storedAgain addr ls l then do
    let far ← farAway (w / 8) (addr l)
    if far then pure () else store
  else store

/-- Runs an action for each lane in order. -/
def eachLane (f : Nat → Exec Unit) (ls : List Nat) : Exec Unit :=
  match ls with
  | [] => pure ()
  | l :: rest => do
    f l
    eachLane f rest

/-- A gather by lane addresses: all lanes are checked, then loaded in increasing order. -/
def gather (d : BitVec 5) (w : Nat) (mask : Word) (addr : Nat → Word) : Exec Unit := do
  eachLane (fun l => do let _ ← laneCheck kGather (w / 8) (addr l)) (lanesOf w mask)
  let got ← gatherLanes (w / 8) addr (lanesOf w mask)
  setSelf (fun t => writeV t d (maskedLanes w mask (readV t d) (fun l => ((got.find? (fun e => e.1 == l)).map (·.2)).getD 0)))

/-- A scatter by lane addresses: all lanes are checked, then performed in increasing order. -/
def scatter (v : Vec) (w : Nat) (mask : Word) (addr : Nat → Word) : Exec Unit := do
  eachLane (fun l => prepareLane (w / 8) (addr l)) (lanesOf w mask)
  eachLane (scatterLane v w addr (lanesOf w mask)) (lanesOf w mask)

/-- Lane addresses: unit stride, a register stride, an index vector. -/
def unitAddr (x : Word) (w l : Nat) : Word := x + BitVec.ofNat 64 (l * (w / 8))
def strideAddr (x y : Word) (l : Nat) : Word := x + BitVec.ofNat 64 l * y
def indexAddr (x : Word) (ix : Vec) (w l : Nat) : Word := x + BitVec.ofNat 64 (lane ix w l * (w / 8))

/-- vldm. -/
def execVldm (d a : BitVec 5) (m : BitVec 3) (e : BitVec 2) (s : State) : Out :=
  issue (vmemForm d [a] (some m) none false) (do
    let x ← getX a
    let mask ← getM m
    gather d (laneWidth e) mask (unitAddr x (laneWidth e))) s
/-- vlds. -/
def execVlds (d a b : BitVec 5) (m : BitVec 3) (e : BitVec 2) (s : State) : Out :=
  issue (vmemForm d [a, b] (some m) none false) (do
    let x ← getX a
    let y ← getX b
    let mask ← getM m
    gather d (laneWidth e) mask (strideAddr x y)) s
/-- vgath. -/
def execVgath (d a b : BitVec 5) (m : BitVec 3) (e : BitVec 2) (s : State) : Out :=
  issue (vmemForm d [a] (some m) (some b) false) (do
    let x ← getX a
    let ix ← getV b
    let mask ← getM m
    gather d (laneWidth e) mask (indexAddr x ix (laneWidth e))) s
/-- vstm. -/
def execVstm (ds a : BitVec 5) (m : BitVec 3) (e : BitVec 2) (s : State) : Out :=
  issue (vmemForm ds [a] (some m) none false) (do
    let x ← getX a
    let v ← getV ds
    let mask ← getM m
    scatter v (laneWidth e) mask (unitAddr x (laneWidth e))) s
/-- vsts. -/
def execVsts (ds a b : BitVec 5) (m : BitVec 3) (e : BitVec 2) (s : State) : Out :=
  issue (vmemForm ds [a, b] (some m) none false) (do
    let x ← getX a
    let y ← getX b
    let v ← getV ds
    let mask ← getM m
    scatter v (laneWidth e) mask (strideAddr x y)) s
/-- vscat. -/
def execVscat (ds a b : BitVec 5) (m : BitVec 3) (e : BitVec 2) (s : State) : Out :=
  issue (vmemForm ds [a] (some m) (some b) false) (do
    let x ← getX a
    let ix ← getV b
    let v ← getV ds
    let mask ← getM m
    scatter v (laneWidth e) mask (indexAddr x ix (laneWidth e))) s

/-! ## Acknowledgements (07 R198) -/

/-- Scopes that wait on the acknowledgement counter: DOMAIN and SYSTEM. -/
def wideScope (sc : BitVec 3) : Bool := decide (4 ≤ sc.toNat)

/-- Waits until the counter of the issuing agent is zero. -/
def waitAcks : Exec Unit := do
  let t ← self
  if 0 < t.acks then stall else pure ()

/-! ## Atomic memory operations (14 R328-R330) -/

/-- What an AMO stores, from the old bytes, the operand and the comparand, all of `n` bytes; `none` when it stores nothing. -/
def amoNew (op n old b c : Nat) : Option Nat :=
  if op = 0 then some ((old + b) % 2 ^ (8 * n))
  else if op = 1 then some (old &&& b)
  else if op = 2 then some (old ||| b)
  else if op = 3 then some (old ^^^ b)
  else if op = 4 then some (if sext b (8 * n) < sext old (8 * n) then b else old)
  else if op = 5 then some (if sext old (8 * n) < sext b (8 * n) then b else old)
  else if op = 6 then some (min old b)
  else if op = 7 then some (max old b)
  else if op = 8 then some b
  else if old = c then some b else none

/-- Body of an AMO packet after its request word: operation, size, operand, comparand (assumption log 7). -/
def amoBody (op n b c : Nat) : List Byte := leBytes 1 op ++ leBytes 1 n ++ List.replicate 6 0 ++ leBytes 8 b ++ leBytes 8 c

/-- An AMO on memory of another device: its packet leaves, the cluster's own copy goes, the agent waits for the old value (14 R330). -/
def amoRemote (dev pa : Nat) (key : BitVec 8) (va : Word) (op n b c : Nat) (rel acq : Bool) : Exec Nat := do
  let a ← theAgent
  let t ← self
  let s ← theState
  match t.replyValue with
  | some v => do
    noteRead va n
    pure (v.toNat % 2 ^ (8 * n))
  | none =>
    if !hasRoute s dev then raise 0x15 0x01 2 va
    else if writeOut s dev pa then stall
    else
      let body := requestWord s dev pa (agentCtx s a) key (n.log2) rel acq ++ amoBody op n b c
      waitIn (modAgent (awaitRemote (forgetFar s dev pa 1) a dev .amo va 0x04 body) a (fun t => { t with acks := t.acks + 1, sent := true }))

/-- The form of an AMO: scopes 6 and 7, and a scope without r or q, are reserved (14 R328). -/
def amoForm (d a b : BitVec 5) (sc : BitVec 3) (r q : BitVec 1) : Strand → Form := fun _ =>
  { xs := [d, a, b], reserved := decide (6 ≤ sc.toNat) || (!(sc = 0) && r = 0 && q = 0) }

/-- An AMO (14 R329). -/
def amo (op : Nat) (d a b : BitVec 5) (sc : BitVec 3) (r q z : BitVec 1) (s : State) : Out :=
  issue (amoForm d a b sc r q) (do
    let t ← self
    if r = 1 && wideScope sc && !t.sent then waitAcks
    let va ← getX a
    let n := if z = 1 then 8 else 4
    let y ← getX b
    let c ← getX d
    let yb := y.toNat % 2 ^ (8 * n)
    let cb := c.toNat % 2 ^ (8 * n)
    let target ← check kAmo va n
    let old ← (match target with
      | .global _ => do
        match ← depotPlace 2 va with
        | some _ => raise 0x04 0x01 2 va
        | none =>
          let (dev, pa, key) ← homeOf kAmo va
          let s ← theState
          if dev = devnum s then rmwLocal kAmo va n target (fun o => amoNew op n o yb cb)
          else amoRemote dev pa key va op n yb cb (r = 1) (q = 1)
      | _ => rmwLocal kAmo va n target (fun o => amoNew op n o yb cb))
    setX d (word (sext old (8 * n)))) s

/-- amoadd (14 R329). -/
def execAmoadd (d a b : BitVec 5) (sc : BitVec 3) (r q z : BitVec 1) (s : State) : Out := amo 0 d a b sc r q z s
/-- amoand (14 R329). -/
def execAmoand (d a b : BitVec 5) (sc : BitVec 3) (r q z : BitVec 1) (s : State) : Out := amo 1 d a b sc r q z s
/-- amoor (14 R329). -/
def execAmoor (d a b : BitVec 5) (sc : BitVec 3) (r q z : BitVec 1) (s : State) : Out := amo 2 d a b sc r q z s
/-- amoxor (14 R329). -/
def execAmoxor (d a b : BitVec 5) (sc : BitVec 3) (r q z : BitVec 1) (s : State) : Out := amo 3 d a b sc r q z s
/-- amomin (14 R329). -/
def execAmomin (d a b : BitVec 5) (sc : BitVec 3) (r q z : BitVec 1) (s : State) : Out := amo 4 d a b sc r q z s
/-- amomax (14 R329). -/
def execAmomax (d a b : BitVec 5) (sc : BitVec 3) (r q z : BitVec 1) (s : State) : Out := amo 5 d a b sc r q z s
/-- amominu (14 R329). -/
def execAmominu (d a b : BitVec 5) (sc : BitVec 3) (r q z : BitVec 1) (s : State) : Out := amo 6 d a b sc r q z s
/-- amomaxu (14 R329). -/
def execAmomaxu (d a b : BitVec 5) (sc : BitVec 3) (r q z : BitVec 1) (s : State) : Out := amo 7 d a b sc r q z s
/-- amoswap (14 R329). -/
def execAmoswap (d a b : BitVec 5) (sc : BitVec 3) (r q z : BitVec 1) (s : State) : Out := amo 8 d a b sc r q z s
/-- amocas (14 R329). -/
def execAmocas (d a b : BitVec 5) (sc : BitVec 3) (r q z : BitVec 1) (s : State) : Out := amo 9 d a b sc r q z s

/-! ## The SYNC major (14 R331-R336) -/

/-- The form of a SYNC word. -/
def syncForm (xs : List (BitVec 5)) (bad courier : Bool) : Strand → Form := fun _ => { xs := xs, reserved := bad, courier := courier }

def badScope (sc : BitVec 3) : Bool := decide (6 ≤ sc.toNat)

/-- fence: kinds rr 1, rw 2, wr 4, ww 8 (14 R333). -/
def execFence (sc : BitVec 3) (k : BitVec 4) (s : State) : Out :=
  issue (syncForm [] (badScope sc || decide (k = 0)) true) (if wideScope sc && decide (4 ≤ k.toNat) then waitAcks else pure ()) s

/-- An address that has no full/empty bit raises PROT, once it translates: in the depot control window RIGHTS (06 R414), elsewhere NOFE (14
R322, R334, R335). -/
def noFullBit {α : Type} (kind : Nat) (va : Word) : Exec α := do
  let place ← depotPlace kind va
  raise 0x04 (if place.isSome then 0x01 else 0x05) kind va

/-- ldsync (14 R334). -/
def execLdsync (d a : BitVec 5) (w : BitVec 3) (s : State) : Out :=
  issue (syncForm [d, a] (decide (w = 7)) false) (do
    let ag ← theAgent
    let va ← getX a
    let n := accessSize w
    let target ← check kWait va n
    let s ← theState
    let tile := agentTile ag
    match target with
    | .pool off =>
      if !inScratch (getTile s tile) off n then raise 0x04 0x05 0 va
      else if !isFull s tile (off / 128) then stall
      else do
        poolSound 0 va tile off n
        setX d (extendLoad w (poolRead s tile off n))
    | .global _ =>
      match stashOf s tile (agentCtx s ag) va.toNat with
      | none => noFullBit 0 va
      | some (line, _) =>
        stashTouch va
        let s ← theState
        if !isFull s tile line then stall
        else loadInto kWait d w va
    | _ => raise 0x04 0x05 0 va) s

/-- The pool line whose full/empty bit STFE and FECLR change (14 R335). -/
def flagLine (va : Word) : Exec Nat := do
  let ag ← theAgent
  let s ← theState
  let v := va.toNat
  let tile := agentTile ag
  canonical 1 va
  if isCourier ag && !courierMay s ag v 1 then raise 0x04 0x01 1 va
  if inWindow v then
    if inScratch (getTile s tile) (v - windowBase) 1 then pure ((v - windowBase) / 128)
    else raise 0x04 (if inSpillOrScratch (getTile s tile) (v - windowBase) 1 then 0x05 else 0x03) 1 va
  else if inOstler v then raise 0x04 (if ostlerMode s ag then 1 else 2) 1 va
  else
    match stashOf s tile (agentCtx s ag) v with
    | some (line, _) => pure line
    | none => noFullBit 1 va

/-- stfe (14 R335). -/
def execStfe (a : BitVec 5) (s : State) : Out :=
  issue (syncForm [a] false true) (do
    let ag ← theAgent
    let va ← getX a
    let line ← flagLine va
    update (fun s => setFull s (agentTile ag) line)) s
/-- feclr (14 R335). -/
def execFeclr (a : BitVec 5) (s : State) : Out :=
  issue (syncForm [a] false true) (do
    let ag ← theAgent
    let va ← getX a
    let line ← flagLine va
    update (fun s => clearFull s (agentTile ag) line)) s

/-- waitv: while the condition fails nothing is recorded and the strand stalls (14 R336). -/
def execWaitv (d a b : BitVec 5) (sc : BitVec 3) (c : BitVec 1) (w : BitVec 3) (s : State) : Out :=
  issue (syncForm [d, a, b] (badScope sc || decide (w = 7)) false) (do
    let s0 ← theState
    let va ← getX a
    let y ← getX b
    let n := accessSize w
    let bs ← loadBytes kWait va n
    if decide (ofBytes bs = y.toNat % 2 ^ (8 * n)) = decide (c = 1) then setX d (extendLoad w bs) else waitIn s0) s

/-- ld.acq (14 R332). -/
def execLdAcq (d a : BitVec 5) (sc : BitVec 3) (w : BitVec 3) (s : State) : Out :=
  issue (syncForm [d, a] (badScope sc || decide (w = 7)) true) (do
    let va ← getX a
    loadInto { kLoad with acq := true } d w va) s

/-- st.rel: at DOMAIN or SYSTEM scope it waits for the counter first (14 R332). -/
def execStRel (ds a : BitVec 5) (sc : BitVec 3) (w : BitVec 2) (s : State) : Out :=
  issue (syncForm [ds, a] (badScope sc) true) (do
    if wideScope sc then waitAcks
    let va ← getX a
    let v ← getX ds
    storeBytes kStore va (leBytes (2 ^ w.toNat) v.toNat) true) s

end Sys2Proof.Machine
end

