-- ==== Sys2Proof/Machine/SyncOps.lean ====
section
/-!
DEFINITION. Barrier objects, stash and cache control, carriages (14 R337-R348, R415).
-/
namespace Sys2Proof.Machine

/-! ## Barrier objects (14 R337-R340) -/

/-- The checks of a barrier address (14 R338, R415); the fault has kind 2. -/
def barCheck (va : Word) : Exec Unit := do
  let a ← theAgent
  let s ← theState
  let v := va.toNat
  canonical 2 va
  if !(v % 16 = 0) then raise 0x03 0 2 va
  if inWindow v && inScratch (getTile s (agentTile a)) (v - windowBase) 16 then pure () else raise 0x04 0x03 2 va

/-- The barrier an engine command names: 0 names none (14 R415). -/
def namedBarrier (va : Word) : Exec Unit := if va = 0 then pure () else barCheck va

/-- The words of a barrier object are read, and so free of uncorrectable errors, or MEM_UE, sub-code POOL (06 R178). -/
def barSound (va : Word) (tile : Nat) : Exec Unit := poolSound 2 va tile (va.toNat - windowBase) 16

/-- The form of a BAR, CARRIAGE or STASH word: no courier executes it. -/
def noCourier (xs : List (BitVec 5)) : Strand → Form := fun _ => { xs := xs, courier := false }

/-- An operand outside its limit. -/
def illegalOperand {α : Type} : Exec α := raise 0x01 0x01

/-- An update of a barrier of the issuing tile. -/
def barHere (va : Word) (u : BarUpdate) : Exec Unit := do
  let a ← theAgent
  update (fun s => barUpdate s (agentTile a) va u)

/-- bar.init. -/
def execBarInit (a b : BitVec 5) (s : State) : Out :=
  issue (noCourier [a, b]) (do
    let ag ← theAgent
    let va ← getX a
    let n ← getX b
    barCheck va
    if n.toNat = 0 || decide (2 ^ 24 ≤ n.toNat) then illegalOperand
    update (fun s => poolWrite s (agentTile ag) (va.toNat - windowBase) (leBytes 8 (n.toNat * 2 ^ 32) ++ leBytes 8 n.toNat))) s
/-- bar.expect. -/
def execBarExpect (a b : BitVec 5) (s : State) : Out :=
  issue (noCourier [a, b]) (do
    let va ← getX a
    let n ← getX b
    barCheck va
    if 2 ^ 31 ≤ n.toNat then illegalOperand
    barSound va (agentTile (← theAgent))
    barHere va (.expect n.toNat)) s
/-- bar.arrive: X[d] gets the word before the update. -/
def execBarArrive (d a : BitVec 5) (s : State) : Out :=
  issue (noCourier [d, a]) (do
    let ag ← theAgent
    let va ← getX a
    barCheck va
    barSound va (agentTile ag)
    let s ← theState
    let old := barRead s (agentTile ag) va
    barHere va .arrive
    setX d (BitVec.ofNat 64 old)) s
/-- bar.arrive.c: the arrival is applied in the target's image of the issuing run, or refused (14 R340). -/
def execBarArriveC (a b : BitVec 5) (s : State) : Out :=
  issue (noCourier [a, b]) (do
    let ag ← theAgent
    let va ← getX a
    let y ← getX b
    barCheck va
    let s ← theState
    let target := agentTile ag / 8 * 8 + bits y.toNat 2 0
    if ostlerTile s target && !ostlerMode s ag then raise 0x04 0x02 2 va
    else if !hasImage s target (agentRun s ag) then raise 0x0A 0x05 2 va (devnum s)
    else do
      barSound va target
      update (fun s => barUpdate s target va .arrive)) s

/-- Whether the phase differs from bit 63 of the value passed. -/
def phaseChanged (w : Nat) (y : Word) : Bool := !(w.testBit 63 = y.toNat.testBit 63)

/-- bar.wait. -/
def execBarWait (d a b : BitVec 5) (s : State) : Out :=
  issue (noCourier [d, a, b]) (do
    let ag ← theAgent
    let va ← getX a
    let y ← getX b
    barCheck va
    barSound va (agentTile ag)
    let s ← theState
    let w := barRead s (agentTile ag) va
    if phaseChanged w y then setX d (BitVec.ofNat 64 w) else stall) s
/-- bar.wait.doze: the stalled strand counts towards its tile's doze; released, it stays in the wait until its tile is back in its gear (04
R111). -/
def execBarWaitDoze (d a b : BitVec 5) (s : State) : Out :=
  issue (noCourier [d, a, b]) (do
    let ag ← theAgent
    let va ← getX a
    let y ← getX b
    barCheck va
    barSound va (agentTile ag)
    let s ← theState
    let w := barRead s (agentTile ag) va
    match (me s).sysValue with
    | some v => setX d v
    | none =>
      if !phaseChanged w y then waitIn (gearCheck (modMe s (fun t => { t with dozing := true, status := .stalled })) (agentTile ag))
      else if !(getTile s (agentTile ag)).doze then setX d (BitVec.ofNat 64 w)
      else
        waitIn (gearCheck (modMe s (fun t =>
          { t with
            dozing := false
            sysValue := some (BitVec.ofNat 64 w)
            status := .stalled })) (agentTile ag))) s
/-- bar.test. -/
def execBarTest (d a b : BitVec 5) (s : State) : Out :=
  issue (noCourier [d, a, b]) (do
    let ag ← theAgent
    let va ← getX a
    barCheck va
    barSound va (agentTile ag)
    let s ← theState
    setX d (BitVec.ofNat 64 (barRead s (agentTile ag) va))) s

/-! ## Stash and cache control (14 R341-R345) -/

/-- Entries of a context on a tile. -/
def stashEntries (t : Tile) (ctx : BitVec 32) : List StashEntry := t.stash.filter (fun e => e.ctx == ctx)

/-- Lines of the stash region that an entry of the tile uses. -/
def lineTaken (t : Tile) (line : Nat) : Bool :=
  t.stash.any (fun e => decide (e.firstLine ≤ line) && decide (line < e.firstLine + e.length / 128))

/-- The lowest run of `n` contiguous free lines of the stash region. -/
def freeLines (t : Tile) (n : Nat) : Option Nat :=
  (numbersFrom (32 * t.pbMid) (32 * t.pbHi - 32 * t.pbMid)).find? (fun l =>
    decide (l + n ≤ 32 * t.pbHi) && (numbersFrom l n).all (fun k => !lineTaken t k))

/-- Dirty lines of a range in a cluster's caches are written back and left shared. -/
def flushRange (s : State) (c base len : Nat) : State :=
  (s.l2.filter (fun l => l.cluster == c && l.owned && l.dev == devnum s && decide (base ≤ 64 * l.vline) && decide (64 * l.vline < base + len))).foldl
    (fun s l => match snoopLocal s (l.pa / 64) l.cluster with
      | .ok _ s1 => s1
      | .bad _ _ s1 => s1
      | .busy s1 => s1) s

/-- Whether a fill of the entry's lines is on its way for a strand of the tile (14 R343). -/
def fillsOut (s : State) (tile : Nat) (e : StashEntry) : Bool :=
  s.requests.any (fun r => (match r.2.kind with
    | .load c vline _ 7 => c == tile / 8 && decide (e.base ≤ 64 * vline) && decide (64 * vline < e.base + e.length)
    | _ => false) && r.2.agent.any (fun a => agentTile a == tile))

/-- An entry leaves a tile's map (14 R343). -/
def unmapEntry (s : State) (tile : Nat) (e : StashEntry) : State := unmapEntries s tile (· == e)

/-- The checks of a STASH.MAP's range before its rights (14 R322, R342, R414). -/
def stashRange (va len : Word) : Exec Unit := do
  let a ← theAgent
  let s ← theState
  let v := va.toNat
  canonical 0 va
  if !(v % 128 = 0) || !(len.toNat % 128 = 0) || len.toNat = 0 then raise 0x03 0 0 va
  canonical 0 (va + (len - 1))
  if spanHits windowBase 0x10000000 v len.toNat then raise 0x04 0x03 0 va
  if spanHits ostlerBase (windowBase - ostlerBase) v len.toNat then raise 0x04 (if ostlerMode s a then 1 else 2) 0 va
  if deepSpan s v len.toNat || peerSpan s v len.toNat then raise 0x04 0x01 0 va
  let _ ← spanRights 0 1 va len.toNat
  if ← served 0 va (fun s => depotInSpan s (agentCluster a) (agentUnit a) v len.toNat) then raise 0x04 0x01 0 va

/-- stash.map (14 R342). -/
def execStashMap (d a b : BitVec 5) (s : State) : Out :=
  issue (noCourier [d, a, b]) (do
    let ag ← theAgent
    let va ← getX a
    let len ← getX b
    stashRange va len
    let s ← theState
    let tile := agentTile ag
    let t := getTile s tile
    let ctx := agentCtx s ag
    let mine := stashEntries t ctx
    if mine.any (fun e => decide (e.base < va.toNat + len.toNat) && decide (va.toNat < e.base + e.length)) then setX d 0xFFFFFFFFFFFFFFFE
    else
      match (List.range 32).find? (fun k => !mine.any (fun e => e.number == k)), freeLines t (len.toNat / 128) with
      | some k, some line => do
        let gone := fun (l : Nat) => decide (line ≤ l) && decide (l < line + len.toNat / 128)
        update (fun s => modTile s tile (fun t =>
          { t with
            stash := t.stash ++ [{ ctx := ctx, number := k, base := va.toNat, length := len.toNat, firstLine := line }]
            full := t.full.filter (fun l => !gone l)
            stashFilled := t.stashFilled.filter (fun l => !gone l) }))
        setX d (BitVec.ofNat 64 k)
      | _, _ => setX d 0xFFFFFFFFFFFFFFFF) s

/-- The entry of the issuing context that a number names. -/
def entryNumber (s : State) (a : Agent) (n : Word) : Option StashEntry :=
  (stashEntries (getTile s (agentTile a)) (agentCtx s a)).find? (fun e => e.number == n.toNat)

/-- stash.unmap (14 R343). -/
def execStashUnmap (a : BitVec 5) (s : State) : Out :=
  issue (noCourier [a]) (do
    let ag ← theAgent
    let n ← getX a
    let s ← theState
    match entryNumber s ag n with
    | some e => if fillsOut s (agentTile ag) e then stall else update (fun s => unmapEntry s (agentTile ag) e)
    | none => pure ()) s
/-- stash.flush (14 R343). -/
def execStashFlush (a : BitVec 5) (s : State) : Out :=
  issue (noCourier [a]) (do
    let ag ← theAgent
    let n ← getX a
    let s ← theState
    match entryNumber s ag n with
    | some e => update (fun s => flushRange s (agentCluster ag) e.base e.length)
    | none => pure ()) s

/-- cache.resize (14 R344): mappings in banks that pass to the cache are flushed and unmapped first. -/
def execCacheResize (d a : BitVec 5) (s : State) : Out :=
  issue (noCourier [d, a]) (do
    let ag ← theAgent
    let k ← getX a
    let s ← theState
    let tile := agentTile ag
    let t := getTile s tile
    let new : Int := t.pbHi - 4 * k.toInt
    if new < t.pbMid || 192 < new then setX d (BitVec.ofNat 64 t.pbHi)
    else do
      let hi := new.toNat
      let lost := t.stash.filter (fun e => decide (32 * hi < e.firstLine + e.length / 128))
      if lost.any (fillsOut s tile) then stall
      update (fun s => modTile (lost.foldl (fun s e => unmapEntry s tile e) s) tile (fun t => { t with pbHi := hi }))
      setX d (BitVec.ofNat 64 hi)) s

/-- pref: advisory; it raises nothing and changes nothing that can be read (14 R345). -/
def execPref (a : BitVec 5) (s : State) : Out := issue (xForm [a]) (pure ()) s

/-- cflush: a line's copies in the cluster are written back and dropped (14 R345, R414). -/
def execCflush (a : BitVec 5) (s : State) : Out :=
  issue (noCourier [a]) (do
    let ag ← theAgent
    let va ← getX a
    let s ← theState
    let v := va.toNat
    canonical 1 va
    if inWindow v || inOstler v || (peerOf s v).isSome || (stashOf s (agentTile ag) (agentCtx s ag) v).isSome then pure ()
    else do
      let _ ← spanRights 1 1 va 1
      update (fun s =>
        (s.l2.filter (fun l => l.cluster == agentCluster ag && l.vline / 2 == v / 128)).foldl evictLine s)) s

/-! ## Carriages (14 R346-R348, 03 R96-R98) -/

/-- The carriage of a coach of the running context whose flag word is at an address: places in the two lists. -/
def carriageAt (s : State) (ctx : BitVec 32) (va : Nat) : Option (Nat × Nat) :=
  (List.range s.coaches.length).findSome? (fun i =>
    match s.coaches[i]? with
    | none => none
    | some c => if c.ctx == ctx then (c.carriages.findIdx? (fun k => k.flag == va)).map (fun j => (i, j)) else none)

def modCarriage (s : State) (i j : Nat) (f : Carriage → Carriage) : State :=
  { s with coaches := s.coaches.mapIdx (fun p c => if p = i then { c with carriages := c.carriages.mapIdx (fun q k => if q = j then f k else k) } else c) }

/-- STATE, ERR, RIDERS and ARRIVED of a flag word (03 R96). -/
def flagState (w : Nat) : Nat := bits w 63 61
def flagErr (w : Nat) : Nat := bits w 60 54
def flagRiders (w : Nat) : Nat := bits w 53 40

/-- The checks of a CARRIAGE form, and the carriage named. -/
def carriageCheck (va : Word) : Exec (Target × Nat × Nat) := do
  let ag ← theAgent
  let target ← check kFlag va 8
  let s ← theState
  match target with
  | .global _ =>
    match ← depotPlace 2 va with
    | some _ => raise 0x04 0x01 2 va
    | none =>
      match carriageAt s (agentCtx s ag) va.toNat with
      | some (i, j) => pure (target, i, j)
      | none => raise 0x13 0 2 va
  | _ => raise 0x13 0 2 va

/-- A flag word's value: a load, which takes nothing exclusive and is not recorded. -/
def flagLoad (va : Word) : Exec Nat := do
  let (dev, _, _) ← homeOf kFlag va
  let s ← theState
  if !(dev = devnum s) then raise 0x05 0x01 2 va
  stashTouch va
  let v ← granule 2 va true
  pure (ofBytes (vecField v (va.toNat % 64) 8))

/-- One atomic step at a flag word: a load where it stores nothing, else an update; the old word (14 R347, R348). -/
def flagUpdate (va : Word) (target : Target) (f : Nat → Option Nat) : Exec Nat := do
  let w ← flagLoad va
  match f w with
  | none => pure w
  | some _ => rmwLocal kFlag va 8 target f false

/-- cwait (14 R347). The fetch that it asks for goes on by CARRIAGE_PIECE with no bytes. -/
def execCwait (d a : BitVec 5) (s : State) : Out :=
  issue (noCourier [d, a]) (do
    let va ← getX a
    let (target, i, j) ← carriageCheck va
    let t ← self
    let s ← theState
    let auto := ((s.coaches[i]?).map (·.autoFetch)).getD false
    let w ← flagUpdate va target (fun w =>
      if flagState w = 2 && decide (flagRiders w < 2 ^ 14 - 1) then some (w + 2 ^ 40)
      else if flagState w = 0 && auto && !t.asked then some (setBits w 63 61 1)
      else none)
    if flagState w = 2 && decide (flagRiders w < 2 ^ 14 - 1) then do
      let s ← theState
      match ((s.coaches[i]?).map (fun c => c.carriages)).bind (fun cs => cs[j]?) with
      | some k => noteRead (BitVec.ofNat 64 k.devAddr) k.length
      | none => pure ()
      update (fun s => modCarriage s i j (fun k => { k with lastWait := s.now }))
      setX d 0
    else if flagState w = 4 then setX d (BitVec.ofNat 64 (flagErr w))
    else if flagState w = 0 && auto && !t.asked then do
      let s ← theState
      waitIn (later (modMe s (fun t => { t with asked := true })) [.carriagePiece i j 0 []])
    else stall) s

/-- crel (14 R348). -/
def execCrel (a : BitVec 5) (s : State) : Out :=
  issue (noCourier [a]) (do
    let va ← getX a
    let (target, _, _) ← carriageCheck va
    let w ← flagUpdate va target (fun w => if flagState w = 2 && decide (0 < flagRiders w) then some (w - 2 ^ 40) else none)
    if flagState w = 2 && decide (0 < flagRiders w) then pure () else raise 0x13 0 2 va) s

/-- ctest (14 R348). -/
def execCtest (d a : BitVec 5) (s : State) : Out :=
  issue (noCourier [d, a]) (do
    let va ← getX a
    let (target, _, _) ← carriageCheck va
    let w ← flagUpdate va target (fun _ => none)
    setX d (BitVec.ofNat 64 w)) s

end Sys2Proof.Machine
end

