-- ==== Sys2Proof/Machine/Engine.lean ====
section
/-!
DEFINITION. What the engines of a tile share: their reads and writes of the pool, of memory here and on other devices, and of peer
windows, their full/empty bits, and the checks of their operands at issue (06 R175, R181-R184; 07 R200, R201; 14 R415; 15 R365).
-/
namespace Sys2Proof.Machine

/-- Who works: a unit (four dray channels and a matrix engine for each tile, the Felt arrays after them), its tile, context and run. -/
structure Engine where
  unit : Nat
  tile : Nat
  ctx : BitVec 32
  run : BitVec 32
  /-- The block whose waybill entry records its reads as they are made (08 R214). -/
  block : Option Nat := none

def drayUnit (tile ch : Nat) : Nat := 8 * tile + ch
def matrixUnit (tile : Nat) : Nat := 8 * tile + 4
def feltUnit (array : Nat) : Nat := 8192 + array

/-- The translation of an engine's address (06 R164, R166, R192). -/
def engineTranslate (s : State) (c unit va : Nat) : Served (Nat × Nat × BitVec 8) :=
  match unitLeaf s c unit va with
  | .bad code sub s1 => .bad code sub s1
  | .busy s1 => .busy s1
  | .ok (pte, size) s1 =>
    let p := place s1 va size pte
    if unpopulated s1 p then .bad 0x06 0x04 s1
    else if p.1 = devnum s1 then (if p.2.1 < hbmSize then .ok p s1 else .bad 0x04 0x01 s1)
    else if p.1 ∈ s1.ostler.gone then .bad 0x0A 0x05 s1
    else if !hasRoute s1 p.1 then .bad 0x15 0x01 s1
    else .ok p s1

/-- What became of a piece of a unit: none so far, or the code and sub-code it ended with (0 for success). -/
def pieceDone (s : State) (unit piece : Nat) : Option (Nat × Nat) :=
  (s.engineDone.find? (fun e => e.1 == unit && e.2.1 == piece)).map (fun e => e.2.2)

def notePiece (s : State) (unit piece code sub : Nat) : State := { s with engineDone := s.engineDone ++ [(unit, piece, code, sub)] }

/-- A unit's segment or command is over: its pieces are forgotten. -/
def clearPieces (s : State) (unit : Nat) : State := { s with engineDone := s.engineDone.filter (fun e => !(e.1 == unit)), migWaits := s.migWaits.del unit }

def pieceOut (s : State) (unit piece : Nat) : Bool := s.requests.any (fun e => e.2.kind == .engine unit piece)

/-- The number under which a failed read of a granule is noted. -/
def readPiece (va : Nat) : Nat := 2 ^ 60 + va / 64

/-- An engine's read of a peer window (02 R57). -/
def peerLoad (s : State) (a : Agent) (bus n : Nat) : Served (List Byte) :=
  match s.peerData.find? (fun e => e.1 == bus) with
  | some (_, some bs) => .ok (padTo n bs) { s with peerData := s.peerData.del bus }
  | some (_, none) => .bad 0x0A 0x04 { s with peerData := s.peerData.del bus }
  | none =>
    if s.peerReads.any (fun r => r.2.1 == bus) then .busy s
    else .busy { s with peerReads := s.peerReads ++ [(a, bus, n)], busOut := s.busOut ++ [.read (BitVec.ofNat 64 bus) n a] }

/-- Where an engine's address leads, by the checks of an access in their order (06 R157, R163, R169): the pool, with the offset; the deep
TLB's own memory; a peer window; translated memory; or the refusal. -/
inductive EnginePlace where
  | pool (off : Nat)
  | direct (pa : Nat)
  | peer (bus : Nat)
  | memory
  | refused (code sub : Nat)

def enginePlace (s : State) (e : Engine) (va n : Nat) : EnginePlace :=
  if !(bits va 63 57 = 0) then .refused 0x05 0x02
  else if inWindow va then (if inSpillOrScratch (getTile s e.tile) (va - windowBase) n then .pool (va - windowBase) else .refused 0x04 0x03)
  else if inOstler va then .refused 0x04 0x01
  else
    match deepRange s va with
    | some pa => if ostlerTile s e.tile then .direct pa else .refused 0x04 0x01
    | none =>
      match peerOf s va with
      | some bus => .peer bus
      | none => .memory

/-- An engine's read of `n` bytes that lie in one 64-byte granule. -/
def engineLoad (s : State) (e : Engine) (va n : Nat) : Served (List Byte) :=
  match enginePlace s e va n with
  | .refused code sub => .bad code sub s
  | .pool off => if wordsHit (getTile s e.tile).poolBad off n then .bad 0x08 0x03 s else .ok (poolRead s e.tile off n) s
  | .direct pa => tableRead s pa n
  | .peer bus => peerLoad s (.courier (4 * e.tile)) bus n
  | .memory =>
    match pieceDone s e.unit (readPiece va) with
    | some (code, sub) => .bad code sub s
    | none =>
      let c := e.tile / 8
      let s := l2Scrub s c (va / 64)
      match l2Find s c (va / 64) with
      | some l =>
        if l.poison then .bad 0x07 0x02 s else .ok (vecField l.data (va % 64) n) s
      | none =>
        match engineTranslate s c e.unit va with
        | .bad code sub s1 => .bad code sub s1
        | .busy s1 => .busy s1
        | .ok (dev, pa, key) s1 =>
          if dev = devnum s then
            match depotRead s1 (pa / 64) key with
            | .ok v s2 => .ok (vecField v (va % 64) n) s2
            | .bad code sub s2 => .bad code sub s2
            | .busy s2 => .busy s2
          else if writeOut s1 dev pa || s1.requests.any (fun r => match r.2.kind with
              | .engineLoad u _ vl _ => u == e.unit && vl == va / 64
              | _ => false) then .busy s1
          else
            .busy (sendRequest s1 dev none (.engineLoad e.unit c (va / 64) key.toNat) (BitVec.ofNat 64 va) e.ctx 0x01
              (requestWord s1 dev (pa / 64 * 64) e.ctx key 6 false false)).1

/-- A write to this device's memory that a depot serves, as a piece of a unit. -/
def pieceServed (e : Engine) (piece : Nat) (after : State → State) (r : Served Unit) : Served Unit :=
  match r with
  | .ok _ s1 => .ok () (notePiece (after s1) e.unit piece 0 0)
  | .bad code sub s1 => .bad code sub (notePiece s1 e.unit piece code sub)
  | .busy s1 => .busy s1

/-- An engine's write to memory of another device: whole granules in one DRAYWR, other bytes in a WR (06 R184). -/
def engineFar (s : State) (e : Engine) (piece va dev pa : Nat) (key : BitVec 8) (bs : List Byte) : State :=
  let s1 := forgetFar s dev pa (max 1 (bs.length / 64))
  if bs.length % 64 = 0 then
    (sendRequest s1 dev none (.engine e.unit piece) (BitVec.ofNat 64 va) e.ctx 0x13
      (requestWord s1 dev pa e.ctx key 6 false false ++ leBytes 2 bs.length ++ List.replicate 6 0 ++ bs)).1
  else
    (sendRequest s1 dev none (.engine e.unit piece) (BitVec.ofNat 64 va) e.ctx 0x03
      (requestWord s1 dev (pa / 64 * 64) e.ctx key 6 false false ++ leBytes 8 (maskAt (va % 64) bs.length) ++ vecBytes (granuleImage (va % 64) bs))).1

/-- An engine's write of bytes that lie in one granule, or of whole granules of one page. It is made once, whatever the number of times
the unit asks: afterwards the unit gets its result. -/
def engineStore (s : State) (e : Engine) (piece va : Nat) (bs : List Byte) : Served Unit :=
  match pieceDone s e.unit piece with
  | some (0, _) => .ok () s
  | some (code, sub) => .bad code sub s
  | none =>
    if pieceOut s e.unit piece then .busy s
    else
      match enginePlace s e va bs.length with
      | .refused code sub => .bad code sub (notePiece s e.unit piece code sub)
      | .pool off =>
        if wordsTorn (getTile s e.tile).poolBad off bs.length then .bad 0x08 0x03 (notePiece s e.unit piece 0x08 0x03)
        else .ok () (notePiece (poolWrite s e.tile off bs) e.unit piece 0 0)
      | .direct pa => pieceServed e piece id (depotWrite s (pa / 64) 0 (granuleImage (pa % 64) bs) (maskAt (pa % 64) bs.length) 0)
      | .peer bus => .ok () (notePiece { s with busOut := s.busOut ++ [.write (BitVec.ofNat 64 bus) bs] } e.unit piece 0 0)
      | .memory =>
        match engineTranslate s (e.tile / 8) e.unit va with
        | .bad code sub s1 => .bad code sub (notePiece s1 e.unit piece code sub)
        | .busy s1 => .busy s1
        | .ok (dev, pa, key) s1 =>
          if dev = devnum s then
            pieceServed e piece (fun s => apertureStart s va bs)
              (depotWrite s1 (pa / 64) key (granuleImage (va % 64) bs) (maskAt (va % 64) bs.length) e.run)
          else if (numbersFrom (pa / 64) (max 1 (bs.length / 64))).any (fun g => writeOut s1 dev (64 * g)) then .busy s1
          else .busy (engineFar s1 e piece va dev pa key bs)

/-- Device a write to an address goes to: `none` for the pool, a peer or an address that does not translate. -/
def engineDevice (s : State) (e : Engine) (va : Nat) : Option Nat :=
  match enginePlace s e va 1 with
  | .memory =>
    match engineTranslate s (e.tile / 8) e.unit va with
    | .ok p _ => some p.1
    | _ => none
  | _ => none

/-- Cuts a write at granule boundaries; `fuel` bounds the parts. -/
def granuleParts (fuel va : Nat) (bs : List Byte) : List (Nat × List Byte) :=
  match fuel with
  | 0 => []
  | k + 1 =>
    if bs.isEmpty then []
    else
      let n := 64 - va % 64
      (va, bs.take n) :: granuleParts k (va + n) (bs.drop n)

/-- Cuts whole granules for another device into pieces of 2,048 bytes from the start, none of them across a page of 64 KiB, which may lie
elsewhere (06 R184). -/
def bulkParts (fuel va : Nat) (bs : List Byte) : List (Nat × List Byte) :=
  match fuel with
  | 0 => []
  | k + 1 =>
    if bs.isEmpty then []
    else
      let n := min 2048 (65536 - va % 65536)
      (va, bs.take n) :: bulkParts k (va + n) (bs.drop n)

/-- The parts in which a contiguous write travels. -/
def writeParts (s : State) (e : Engine) (va : Nat) (bs : List Byte) : List (Nat × List Byte) :=
  let remote := match engineDevice s e va with
    | some d => !(d = devnum s)
    | none => false
  if remote && va % 64 = 0 && bs.length % 64 = 0 then bulkParts (bs.length / 64 + 1) va bs else granuleParts (bs.length / 64 + 2) va bs

/-- All the writes of a unit's segment that `pick` takes, each under its own piece number from `piece` on: busy while one is out, then the
first failure, or done. -/
def storePieces (s : State) (e : Engine) (pick : Nat → Bool) (piece : Nat) (ws : List (Nat × List Byte)) : Served Unit :=
  match ws with
  | [] => .ok () s
  | (va, bs) :: rest =>
    match (if pick piece then engineStore s e piece va bs else .ok () s) with
    | .ok _ s1 => storePieces s1 e pick (piece + 1) rest
    | .bad code sub s1 =>
      match storePieces s1 e pick (piece + 1) rest with
      | .busy s2 => .busy s2
      | .ok _ s2 => .bad code sub s2
      | .bad _ _ s2 => .bad code sub s2
    | .busy s1 =>
      match storePieces s1 e pick (piece + 1) rest with
      | .ok _ s2 => .busy s2
      | .bad _ _ s2 => .busy s2
      | .busy s2 => .busy s2

/-- What a served step leaves. -/
def servedState {α : Type} (r : Served α) : State :=
  match r with
  | .ok _ s1 => s1
  | .bad _ _ s1 => s1
  | .busy s1 => s1

/-- The writes of a unit's segment. Where one fails, any of the others that have not been made before are made, a free value each (15 R365). -/
def engineStores (s : State) (e : Engine) (piece : Nat) (ws : List (Nat × List Byte)) : Served Unit :=
  match storePieces s e (fun _ => true) piece ws with
  | .bad code sub _ => .bad code sub (servedState (storePieces { s with free := s.free + 1 } e (Config.freeGranule s.free) piece ws))
  | r => r

/-- Reads places in order; all of them before any is used. A failure of one comes after those before it. -/
def engineLoads (s : State) (e : Engine) (rs : List (Nat × Nat)) : Served (List (List Byte)) :=
  match rs with
  | [] => .ok [] s
  | (va, n) :: rest =>
    match engineLoad s e va n with
    | .bad code sub s1 => .bad code sub s1
    | .busy s1 => .busy s1
    | .ok bs s1 =>
      match engineLoads s1 e rest with
      | .ok more s2 => .ok (bs :: more) s2
      | .bad code sub s2 => .bad code sub s2
      | .busy s2 => .busy s2

/-- The scratchpad or stash line of the tile that an engine's write to an address falls in, as a pool line (07 R200). -/
def fullLine (s : State) (e : Engine) (va : Nat) : Option Nat :=
  if inWindow va then (if inScratch (getTile s e.tile) (va - windowBase) 1 then some ((va - windowBase) / 128) else none)
  else (stashOf s e.tile e.ctx va).map (·.1)

def fillLines (s : State) (tile : Nat) (ls : List Nat) : State := ls.foldl (fun s l => setFull s tile l) s

/-- The lines that `n` bytes at an address touch. -/
def linesOfSpan (s : State) (e : Engine) (va n : Nat) : List Nat :=
  (numbersFrom (va / 128) ((va + n + 127) / 128 - va / 128)).filterMap (fun l => fullLine s e (max va (128 * l)))

/-- Carriage fills set the full/empty bits of the lines that a tile has mapped in its stash (07 R200). -/
def fillStashes (s : State) (va n : Nat) : State :=
  (s.tiles.filter (fun e => !e.2.stash.isEmpty)).foldl (fun s e =>
    e.2.stash.foldl (fun s x =>
      fillLines s e.1 (((numbersFrom (va / 128) ((va + n + 127) / 128 - va / 128)).filter (fun l => decide (x.base ≤ 128 * l) && decide (128 * l < x.base + x.length))).map
        (fun l => x.firstLine + (128 * l - x.base) / 128))) s) s

/-- A failure of an engine's command after issue: into its barrier, or a HW record when it names none (06 R175, 15 R365): sub-code 9
NO_BARRIER, 7 DRAY_FAIL (01 R48). -/
def engineFail (s : State) (tile : Nat) (bar : Word) (code left sub : Nat) : State :=
  barOrRecord s tile bar (.fail code left) sub

/-! ## Operand checks at issue -/

/-- Checks a span of an engine command for a context on a core: in the pool it lies in the scratchpad (or, `spill`, the vector-spill
region too); outside, no control window, and the right it needs (06 R161, R414; 15 R351, R364). -/
def spanFor (core : Nat) (ctx : BitVec 32) (ostler : Bool) (kind need : Nat) (spill : Bool) (va n : Nat) : Exec Unit := do
  let s ← theState
  let w := BitVec.ofNat 64 va
  if !(bits va 63 57 = 0) || !(bits (va + n - 1) 63 57 = 0) then raise 0x05 0x02 kind w
  if spanHits windowBase 0x10000000 va n then
    let t := getTile s (core / 4)
    if inWindow va && (if spill then inSpillOrScratch t (va - windowBase) n else inScratch t (va - windowBase) n) then pure () else raise 0x04 0x03 kind w
  else if spanHits ostlerBase (windowBase - ostlerBase) va n then raise 0x04 (if ostler then 1 else 2) kind w
  else if deepSpan s va n && !ostler then raise 0x04 0x01 kind w
  else
    match ← served kind w (fun s => plbLookup s core ctx va n) with
    | some g =>
      if !(g.rights.toNat &&& need = need) then raise 0x04 0x01 kind w
      else if ← served kind w (fun s => depotInSpan s (core / 32) (agentUnit (.courier core)) va n) then raise 0x04 0x01 kind w else pure ()
    | none => raise 0x04 0x01 kind w

/-- The same for the issuing strand; a translated span makes the command wait for the strand's acknowledgements (07 R201). -/
def engineSpan (kind need : Nat) (spill : Bool) (va : Word) (n : Nat) : Exec Unit := do
  let a ← theAgent
  let s ← theState
  spanFor (agentCore a) (agentCtx s a) (ostlerMode s a) kind need spill va.toNat n
  if inWindow va.toNat then pure () else waitAcks

end Sys2Proof.Machine
end

