-- ==== Sys2Proof/Machine/Matrix.lean ====
section
/-!
DEFINITION. The matrix engine: panels, accumulators, its command queue, the arithmetic of its steps, and MSEND (15 R349-R361,
09 R239-R244, 04 R117, R118).
-/
namespace Sys2Proof.Machine

/-! ## Panels and accumulator names -/

def panelIn (t : Tile) (p : Nat) : Bool := decide (t.panBase ≤ p) && decide (p < t.panBase + t.panCnt)

/-- Pool offset of byte `b` of row `r` of a panel (05 R150). -/
def panelAt (t : Tile) (p r b : Nat) : Nat := (p - t.panBase) * 32768 + 512 * r + b

/-- A strand's accumulator name. -/
def nameOf (s : State) (strand n : Nat) : Option AccName := (s.strands.get {} strand).a.toList.getD n none

def setName (s : State) (strand n : Nat) (x : Option AccName) : State :=
  if s.strands.has strand then modAgent s (.strand strand) (fun t => { t with a := t.a.mapIdx (fun i y => if i = n then x else y) }) else s

/-- The name that a command uses: its own where its strand's activation has ended, else its strand's (05 R136). -/
def nameFor (s : State) (cmd : MatrixCmd) (n : Nat) : Option AccName :=
  match cmd.own.find? (fun a => a.1 == n) with
  | some a => some a.2
  | none => nameOf s cmd.strand n

/-- A command's name changes its status. One of its own is read by nobody any more. -/
def setNameFor (s : State) (cmd : MatrixCmd) (n : Nat) (x : AccName) : State :=
  if cmd.own.any (fun a => a.1 == n) then s else setName s cmd.strand n (some x)

/-- Place in accumulator memory of a byte of a name (05 R151). -/
def accAt (n : AccName) (off : Nat) : Nat := 2048 * n.banks.getD (off / 2048) 0 + off % 2048

def accSize (n : AccName) : Nat := if n.fp64 then 32768 else 16384
def accFmt (n : AccName) : Fmt := if n.fp64 then fp64 else fp32
def accWidth (n : AccName) : Nat := if n.fp64 then 8 else 4

/-- One element of a name: a datum of its format. -/
def accGet (t : Tile) (n : AccName) (i j : Nat) : Nat := ofBytes (memRead t.acc (accAt n ((64 * i + j) * accWidth n)) (accWidth n))

/-- Elements of a name written, row by row. -/
def accPut (t : Tile) (n : AccName) (vs : List (Nat × Nat × Nat)) : Tile :=
  { t with acc := vs.foldl (fun m e => memWrite m (accAt n ((64 * e.1 + e.2.1) * accWidth n)) (leBytes (accWidth n) e.2.2)) t.acc }

/-- Every element +0. -/
def accClear (t : Tile) (n : AccName) : Tile :=
  { t with
    acc := n.banks.foldl (fun m b => memClear m (2048 * b) 2048) t.acc
    accBad := n.banks.foldl (fun l b => wordsLeft l (2048 * b) 2048) t.accBad }

/-- No word of a name's banks has an uncorrectable error. -/
def accSound (t : Tile) (n : AccName) : Bool := n.banks.all (fun b => !wordsHit t.accBad (2048 * b) 2048)

def kstepOf (n : AccName) : Nat := bits n.status.toNat 15 12
def withKstep (n : AccName) (k : Nat) : AccName := { n with status := BitVec.ofNat 16 (setBits n.status.toNat 15 12 k) }
def orStatus (n : AccName) (fl : Nat) : AccName := { n with status := n.status ||| BitVec.ofNat 16 fl }

/-! ## Exact arithmetic of the engine (09 R239-R244) -/

/-- Exponent of the unit in which every finite datum of a format is an integer. -/
def exactUnit (f : Fmt) : Int := f.emin - f.fbits

/-- A finite datum in that unit; `none` for a NaN or an infinity. -/
def exactInt (f : Fmt) (b : Nat) : Option Int :=
  match fdecode f b with
  | .fin n m e => some (scaled n m e (exactUnit f))
  | _ => none

/-- The format of A in each form: BF16, or FP16, or FP64 (09 R239). -/
def formA (form : Nat) : Fmt := if form = 1 then fp16 else if form = 5 then fp64 else bf16
/-- Panels that A spans. -/
def formPanels (form : Nat) : Nat := if form = 2 then 2 else if form = 3 then 4 else if form = 4 then 8 else 1
/-- Elements per K step. -/
def formStep (form : Nat) : Nat := if form = 2 then 64 else if form = 3 then 128 else if form = 4 then 256 else if form = 5 then 8 else 32
/-- Exponent of the unit of B's elements. -/
def formUnitB (form : Nat) : Int := if form = 2 ∨ form = 3 then -6 else if form = 4 then 0 else exactUnit (formA form)

/-- A[i][k]. -/
def elemA (t : Tile) (form pa i k : Nat) : Nat :=
  let w := (formA form).width / 8
  let per := 512 / w
  ofBytes (memRead t.pool (panelAt t (pa + k / per) i (k % per * w)) w)

/-- The bits of B[k][j], in row j of its panel (09 R233). -/
def elemB (t : Tile) (form pb j k : Nat) : Nat :=
  if form = 2 then (memGet t.pool (panelAt t pb j k)).toNat
  else if form = 3 then (memGet t.pool (panelAt t pb j (k / 2))).toNat / 16 ^ (k % 2) % 16
  else if form = 4 then (memGet t.pool (panelAt t pb j (k / 4))).toNat / 4 ^ (k % 4) % 4
  else
    let w := (formA form).width / 8
    ofBytes (memRead t.pool (panelAt t pb j (k * w)) w)

/-- B's element in its unit; `none` when it is special. -/
def exactB (form b : Nat) : Option Int :=
  if form = 2 then some (ps8 b) else if form = 3 then some (ps4 b) else if form = 4 then some (tern b) else exactInt (formA form) b

/-- The status bits of a result: SP 16, TR 8, NV 4, OF 2, NX 1 (09 R242), from the flags of a rounding. -/
def statusOf (fl : Nat) : Nat := (if fl.testBit 4 then 4 else 0) + (if fl.testBit 2 then 2 else 0) + (if fl.testBit 0 then 1 else 0)

/-- −0 becomes +0 (09 R240). -/
def plusZero (f : Fmt) (b : Nat) : Nat := if b = zeroBits f true then 0 else b

/-- C + S rounded once: the new element and status bits (09 R240). `unit` is the exponent of S. -/
def addExact (f : Fmt) (c : Nat) (sum unit : Int) : Nat × Nat :=
  match fdecode f c with
  | .nan _ => (canonNan f, 0)
  | .inf _ => (c, 0)
  | .fin n m e =>
    let e0 := min e unit
    let r := froundInt f 0 (scaled n m e e0 + sum * 2 ^ (unit - e0).toNat) e0 false
    (plusZero f r.1, statusOf r.2)

/-- An element that the detector flagged (09 R241). -/
def flaggedElement (f : Fmt) : Nat × Nat := (canonNan f, 20)

def allRows : List Nat := List.range 64

/-- Rows, or columns, flagged by the detector in step `st`. -/
def flagRows (get : Nat → Nat → Option Int) (st e : Nat) (old : List Nat) : List Nat :=
  allRows.filter (fun i => decide (i ∈ old) || (numbersFrom (st * e) e).any (fun k => (get i k).isNone))

/-- One K step of an MMA: the tile's accumulator after its drain, the rows and columns flagged, and the status bits raised. -/
def mmaStep (t : Tile) (n : AccName) (form pa pb st : Nat) (fa fb : List Nat) : Tile × List Nat × List Nat × Nat :=
  let e := formStep form
  let f := accFmt n
  let a := fun i k => exactInt (formA form) (elemA t form pa i k)
  let b := fun j k => exactB form (elemB t form pb j k)
  let fa := flagRows a st e fa
  let fb := flagRows b st e fb
  let unit := exactUnit (formA form) + formUnitB form
  let cells := allRows.flatMap (fun i => allRows.map (fun j =>
    let sum := ((numbersFrom (st * e) e).map (fun k => (a i k).getD 0 * (b j k).getD 0)).sum
    let r := if i ∈ fa ∨ j ∈ fb then flaggedElement f else addExact f (accGet t n i j) sum unit
    (i, j, r)))
  let tr := form = 4 && allRows.any (fun j => (numbersFrom (st * e) e).any (fun k => elemB t form pb j k = 2))
  let fl := cells.foldl (fun acc c => acc ||| c.2.2.2) (if tr then 8 else 0)
  (accPut t n (cells.map (fun c => (c.1, c.2.1, c.2.2.1))), fa, fb, fl)

/-- Whether what a K step reads has no uncorrectable error: its elements of A and of B, and the accumulator (06 R178). -/
def mmaSound (t : Tile) (n : AccName) (form pa pb st : Nat) : Bool :=
  let bytes := formStep form * ((formA form).width / 8)
  accSound t n && allRows.all (fun i =>
    !wordsHit t.poolBad (panelAt t (pa + st * bytes / 512) i (st * bytes % 512)) bytes && !wordsHit t.poolBad (panelAt t pb i (64 * st)) 64)

/-- D + P × sA × sB of MSCALE, rounded once (09 R243). -/
def scaleElement (d p sa sb : Nat) : Nat × Nat :=
  let x := fdecode fp32 p
  let y := fdecode fp32 sa
  let z := fdecode fp32 sb
  let c := fdecode fp32 d
  if isNan x || isNan y || isNan z || isNan c then (canonNan fp32, 4)
  else
    match (mulV x y).bind (fun q => mulV q z) with
    | none => (canonNan fp32, 4)
    | some q =>
      let r := faddV fp32 0 c q
      let toInf := r.1 = infBits fp32 false || r.1 = infBits fp32 true
      (plusZero fp32 r.1, statusOf r.2 ||| (if toInf && (exactInt fp32 d).isSome then 2 else 0))

/-- FP32 element `i` of a panel row, from byte `off`. -/
def rowScale (t : Tile) (p row off i : Nat) : Nat := ofBytes (memRead t.pool (panelAt t p row (off + 4 * i)) 4)

def mscaleStep (t : Tile) (d p : AccName) (panel row : Nat) : Tile × Nat :=
  let cells := allRows.flatMap (fun i => allRows.map (fun j =>
    (i, j, scaleElement (accGet t d i j) (accGet t p i j) (rowScale t panel row 0 i) (rowScale t panel row 256 j))))
  (accPut t d (cells.map (fun c => (c.1, c.2.1, c.2.2.1))), cells.foldl (fun acc c => acc ||| c.2.2.2) 0)

/-- Whether what MSCALE reads has no uncorrectable error: both accumulators and the row of scales (06 R178). -/
def mscaleSound (t : Tile) (d p : AccName) (panel row : Nat) : Bool :=
  accSound t d && accSound t p && !wordsHit t.poolBad (panelAt t panel row 0) 512

/-- A[i][c] of an outlier channel: a NaN when the index or its panel is out of range (15 R359). -/
def outlierA (t : Tile) (pa c i : Nat) : Option Int :=
  if 2048 ≤ c || !panelIn t (pa + c / 256) then none else exactInt bf16 (elemA t 0 (pa + c / 256) i (c % 256))

/-- MOUT: the exact sum over the channels, rounded once (09 R244). -/
def moutStep (t : Tile) (d : AccName) (pa panel n : Nat) : Tile × Nat :=
  if n = 0 then (t, 0)
  else
    let idx := fun k => ofBytes (memRead t.pool (panelAt t panel 0 (2 * k)) 2)
    let a := fun i k => outlierA t pa (idx k) i
    let o := fun j k => exactInt bf16 (ofBytes (memRead t.pool (panelAt t panel (1 + k) (2 * j)) 2))
    let fa := flagRows a 0 n []
    let fb := flagRows o 0 n []
    let cells := allRows.flatMap (fun i => allRows.map (fun j =>
      let sum := ((List.range n).map (fun k => (a i k).getD 0 * (o j k).getD 0)).sum
      let r := if i ∈ fa ∨ j ∈ fb then flaggedElement fp32 else addExact fp32 (accGet t d i j) sum (2 * exactUnit bf16)
      (i, j, r)))
    (accPut t d (cells.map (fun c => (c.1, c.2.1, c.2.2.1))), cells.foldl (fun acc c => acc ||| c.2.2.2) 0)

/-- Whether what MOUT reads has no uncorrectable error: the accumulator, the indices, the weights and the channels of A (06 R178). -/
def moutSound (t : Tile) (d : AccName) (pa panel n : Nat) : Bool :=
  n = 0 || (accSound t d && !wordsHit t.poolBad (panelAt t panel 0 0) (2 * n) && (List.range n).all (fun k =>
    let c := ofBytes (memRead t.pool (panelAt t panel 0 (2 * k)) 2)
    !wordsHit t.poolBad (panelAt t panel (1 + k) 0) 128
      && (decide (2048 ≤ c) || !panelIn t (pa + c / 256) || allRows.all (fun i => !wordsHit t.poolBad (panelAt t (pa + c / 256) i (2 * (c % 256))) 2))))

/-! ## The queue (15 R349, R357; 04 R117) -/

/-- MMA-family commands: those that compute on the column groups. -/
def family (op : MatrixOp) : Bool :=
  match op with
  | .mma .. => true
  | .mscale .. => true
  | .mout .. => true
  | _ => false

def queueLength (t : Tile) : Nat := t.queue.length + (if t.running.isSome then 1 else 0)

def unitsHeld (s : State) (tile : Nat) : Nat := (getCluster s (tile / 8)).units.get 0 tile

/-- A tile requests the groups it neither holds nor has asked for; it takes over groups that were being released. The context of the command
pays for the wadding of those that it is granted (04 R117, R118). -/
def requestUnits (s : State) (tile : Nat) (ctx : BitVec 32) : State :=
  later (modCluster s (tile / 8) (fun c =>
    let asked := ((c.requests.filter (fun r => r.1 == tile)).map (fun r => r.2.2)).sum
    let need := 8 - (c.units.get 0 tile + asked)
    { c with payers := c.payers.set tile ctx
             finished := without c.finished tile
             requests := if need = 0 then c.requests else c.requests ++ [(tile, c.dragStep, need)] })) [.dragStep (tile / 8)]

/-- Whether a tile's engine runs, or has queued, a command that computes on the column groups. -/
def familyLeft (t : Tile) : Bool := t.queue.any (fun c => family c.op) || t.running.any (fun r => family r.cmd.op)

/-- A tile gives up its groups by and by; until released they run wadding, which the departing context pays (04 R118). -/
def giveUpUnits (s : State) (tile : Nat) (ctx : BitVec 32) : State :=
  if unitsHeld s tile = 0 then s
  else later (modCluster s (tile / 8) (fun c => { c with finished := with1 c.finished tile, payers := c.payers.set tile ctx })) [.dragStep (tile / 8)]

/-- An engine without a family command withdraws its requests, and gives up its groups (04 R118, R127). -/
def settleUnits (s : State) (tile : Nat) (ctx : BitVec 32) : State :=
  if familyLeft (getTile s tile) then s
  else giveUpUnits (modCluster s (tile / 8) (fun c => { c with requests := c.requests.filter (fun r => !(r.1 == tile)) })) tile ctx

/-- A family command has ended: its groups stay with the tile only if the next command is of the family too (15 R357, 04 R118). -/
def departUnits (s : State) (tile : Nat) (ctx : BitVec 32) : State :=
  match (getTile s tile).queue with
  | [] => settleUnits s tile ctx
  | c :: _ => if family c.op then s else giveUpUnits (settleUnits s tile ctx) tile ctx

/-- A command joins the queue. -/
def joinQueue (s : State) (tile : Nat) (cmd : MatrixCmd) : State :=
  let s1 := modTile s tile (fun t => { t with queue := t.queue ++ [cmd] })
  later (if family cmd.op then requestUnits s1 tile (getRun s cmd.run).ctx else s1) [.matrixCommandStart tile]

/-- A checked command of the issuing strand joins its tile's queue, or the strand stalls while the queue is full. -/
def enqueue (op : MatrixOp) (bar : Word) : Exec Unit := do
  let a ← theAgent
  let s ← theState
  let tile := agentTile a
  match a with
  | .courier _ => illegalOperand
  | .strand n =>
    if 16 ≤ queueLength (getTile s tile) then stall
    else update (fun s => joinQueue s tile { strand := n, run := agentRun s a, op := op, barrier := bar, block := blockOf (me s).act })
where
  blockOf (act : Activation) : Option Nat := match act with
    | .block _ i => some i
    | _ => none

/-! ## Panel instructions (15 R350, R351) -/

/-- R, G and S of a PSHAPE value. -/
def shapeRows (w : Word) : Nat := if bits w.toNat 14 8 = 0 then 64 else bits w.toNat 14 8
def shapeGroups (w : Word) : Nat := if bits w.toNat 3 0 = 0 then 8 else bits w.toNat 3 0
def shapeStride (w : Word) : Nat := if bits w.toNat 63 32 = 0 then 512 else bits w.toNat 63 32

/-- The form of a command that names a number in a 5-bit field: 16 and above are reserved. -/
def numberForm (lim : Nat) (n : BitVec 5) (xs vs : List (BitVec 5)) : Strand → Form := fun _ =>
  { xs := xs, vs := vs, courier := false, reserved := decide (lim ≤ n.toNat) }

/-- A panel outside the window raises PROT, sub-code PANEL. -/
def panelCheck (p : Nat) : Exec Unit := do
  let a ← theAgent
  let s ← theState
  if panelIn (getTile s (agentTile a)) p then pure () else raise 0x04 0x04

/-- PLD and PST: the checks of R351, then the queue. -/
def panelMove (d a b : BitVec 5) (load : Bool) (s : State) : Out :=
  issue (numberForm 16 d [a, b] []) (do
    let t ← self
    let base ← getX a
    let bar ← getX b
    let shape := t.pshape.toList.getD d.toNat 0
    let kind := if load then 0 else 1
    panelCheck d.toNat
    if !(bits base.toNat 63 57 = 0) then raise 0x05 0x02 kind base
    if !(base.toNat % 64 = 0) then raise 0x03 0 kind base
    if !(shapeStride shape % 64 = 0) then illegalOperand
    engineSpan kind (if load then 1 else 2) true base ((shapeRows shape - 1) * shapeStride shape + 64 * shapeGroups shape)
    if !inWindow base.toNat && bar = 0 then illegalOperand
    namedBarrier bar
    enqueue (if load then .pld d.toNat base shape else .pst d.toNat base shape) bar) s

/-- pld. -/
def execPld (d a b : BitVec 5) (s : State) : Out := panelMove d a b true s
/-- pst. -/
def execPst (d a b : BitVec 5) (s : State) : Out := panelMove d a b false s
/-- pzero. -/
def execPzero (d : BitVec 5) (s : State) : Out :=
  issue (numberForm 16 d [] []) (do
    panelCheck d.toNat
    enqueue (.pzero d.toNat) 0) s

/-! ## Accumulator instructions (15 R352-R355) -/

/-- The bound name, or ILLEGAL, sub-code ACC; `kind` is the KIND it must have, if any. -/
def boundName (n : Nat) (kind : Option Bool) : Exec AccName := do
  let t ← self
  match t.a.toList.getD n none with
  | none => raise 0x01 0x06
  | some x => if kind.all (fun k => k == x.fp64) then pure x else raise 0x01 0x06

/-- acc.alloc. -/
def execAccAlloc (d a : BitVec 5) (k : BitVec 1) (s : State) : Out :=
  issue (numberForm 16 a [d] []) (do
    let ag ← theAgent
    let t ← self
    let s ← theState
    let tile := agentTile ag
    if ((t.a.toList.getD a.toNat none).isSome) then raise 0x01 0x06
    let need := if k = 1 then 16 else 8
    let free := ((List.range 128).filter (fun b => !(decide (b ∈ (getTile s tile).banks)))).take need
    if free.length < need then setX d 0
    else do
      let name : AccName := { banks := free, fp64 := k = 1, status := 0, owner := 0 }
      update (fun s => modTile s tile (fun t => accClear { t with banks := t.banks ++ free } name))
      setSelf (fun t => { t with a := t.a.mapIdx (fun i x => if i = a.toNat then some name else x) })
      setX d 1) s

/-- Accepted commands of a strand that name an accumulator. -/
def commandsNaming (t : Tile) (strand n : Nat) : Bool :=
  t.queue.any (fun c => c.strand == strand && decide (n ∈ namesUsed c.op))
    || t.running.any (fun r => r.cmd.strand == strand && decide (n ∈ namesUsed r.cmd.op))

/-- acc.free: it waits for the commands that name the accumulator. -/
def execAccFree (a : BitVec 5) (s : State) : Out :=
  issue (numberForm 16 a [] []) (do
    let ag ← theAgent
    let t ← self
    let s ← theState
    let tile := agentTile ag
    let strand := match ag with
      | .strand n => n
      | .courier _ => 0
    match t.a.toList.getD a.toNat none with
    | none => pure ()
    | some name =>
      if commandsNaming (getTile s tile) strand a.toNat then stall
      else do
        update (fun s => modTile s tile (fun t => { t with banks := t.banks.filter (fun b => !(decide (b ∈ name.banks))) }))
        setSelf (fun t => { t with a := t.a.mapIdx (fun i x => if i = a.toNat then none else x) })) s

/-- acc.zero. -/
def execAccZero (a : BitVec 5) (s : State) : Out :=
  issue (numberForm 16 a [] []) (do
    let _ ← boundName a.toNat none
    enqueue (.accZero a.toNat) 0) s

/-- A group index within the name's groups, or ILLEGAL (15 R354). -/
def groupCheck (n : AccName) (g : Word) : Exec Unit := if g.toNat < accSize n / 64 then pure () else illegalOperand

/-- acc.rd: one group and the status word, in one moment between drains. -/
def execAccRd (d a b e : BitVec 5) (s : State) : Out :=
  issue (numberForm 16 a [b, e] [d]) (do
    let ag ← theAgent
    let n ← boundName a.toNat none
    let g ← getX b
    groupCheck n g
    let s ← theState
    if wordsHit (getTile s (agentTile ag)).accBad (accAt n (64 * g.toNat)) 64 then raise 0x08 0x03
    setV d (vecOfBytes (memRead (getTile s (agentTile ag)).acc (accAt n (64 * g.toNat)) 64))
    setX e (BitVec.ofNat 64 n.status.toNat)) s

/-- acc.wr. -/
def execAccWr (vs a b : BitVec 5) (s : State) : Out :=
  issue (numberForm 16 a [b] [vs]) (do
    let n ← boundName a.toNat none
    let g ← getX b
    groupCheck n g
    let v ← getV vs
    enqueue (.accWr a.toNat g.toNat v) 0) s

/-- acc.st (15 R355). -/
def execAccSt (d a b : BitVec 5) (s : State) : Out :=
  issue (numberForm 16 a [d, b] []) (do
    let n ← boundName a.toNat none
    let base ← getX d
    let bar ← getX b
    if !(bits base.toNat 63 57 = 0) then raise 0x05 0x02 1 base
    if !(base.toNat % 128 = 0) then raise 0x03 0 1 base
    engineSpan 1 2 false base (accSize n)
    if !inWindow base.toNat && bar = 0 then illegalOperand
    namedBarrier bar
    enqueue (.accSt a.toNat base) bar) s

/-! ## MMA, MSCALE and MOUT (15 R356, R359) -/

/-- The word of an MMA (11 R269 format X). -/
def mmaWord (form c pa pb z : Nat) : BitVec 32 := BitVec.ofNat 32 (0x36 * 2 ^ 26 + c * 2 ^ 22 + pa * 2 ^ 18 + pb * 2 ^ 14 + form * 2 ^ 11 + z * 2 ^ 10)

/-- The form of a matrix word; `bad` breaks a field limit. -/
def matrixForm (bad : Bool) : Strand → Form := fun _ => { courier := false, reserved := bad }

/-- An MMA: field limits, then the name, then the panels. -/
def mma (form : Nat) (c pa pb : BitVec 4) (z : BitVec 1) (s : State) : Out :=
  issue (matrixForm (decide (16 < pa.toNat + formPanels form))) (do
    let _ ← boundName c.toNat (some (form = 5))
    eachLane (fun k => panelCheck (pa.toNat + k)) (List.range (formPanels form))
    panelCheck pb.toNat
    enqueue (.mma form c.toNat pa.toNat pb.toNat (z = 1) (mmaWord form c.toNat pa.toNat pb.toNat z.toNat)) 0) s

/-- mma.bf16. -/
def execMmaBf16 (c pa pb : BitVec 4) (z : BitVec 1) (s : State) : Out := mma 0 c pa pb z s
/-- mma.fp16. -/
def execMmaFp16 (c pa pb : BitVec 4) (z : BitVec 1) (s : State) : Out := mma 1 c pa pb z s
/-- mma.ps8. -/
def execMmaPs8 (c pa pb : BitVec 4) (z : BitVec 1) (s : State) : Out := mma 2 c pa pb z s
/-- mma.ps4. -/
def execMmaPs4 (c pa pb : BitVec 4) (z : BitVec 1) (s : State) : Out := mma 3 c pa pb z s
/-- mma.tern. -/
def execMmaTern (c pa pb : BitVec 4) (z : BitVec 1) (s : State) : Out := mma 4 c pa pb z s
/-- mma.fp64. -/
def execMmaFp64 (c pa pb : BitVec 4) (z : BitVec 1) (s : State) : Out := mma 5 c pa pb z s

/-- mscale aD, aP, pS, row. -/
def execMscale (d a : BitVec 4) (r : BitVec 6) (p : BitVec 4) (s : State) : Out :=
  issue (matrixForm false) (do
    let _ ← boundName d.toNat (some false)
    let _ ← boundName p.toNat (some false)
    panelCheck a.toNat
    enqueue (.mscale d.toNat p.toNat a.toNat r.toNat) 0) s

/-- mout aD, pA, pO, n. -/
def execMout (d a o n : BitVec 4) (s : State) : Out :=
  issue (matrixForm (decide (8 < n.toNat))) (do
    let _ ← boundName d.toNat (some false)
    panelCheck a.toNat
    panelCheck o.toNat
    enqueue (.mout d.toNat a.toNat o.toNat n.toNat) 0) s

/-! ## MSEND and MWAIT (15 R360, R361; 05 R156) -/

/-- The command of a descriptor's word: MMA, MSCALE, MOUT or ACC.ZERO with legal fields. -/
def wordOp (w : Nat) : Option MatrixOp :=
  let major := bits w 31 26
  let c := bits w 25 22
  let pa := bits w 21 18
  let pb := bits w 17 14
  let form := bits w 13 11
  if major = 0x36 then
    if form ≤ 5 && bits w 9 0 = 0 && decide (pa + formPanels form ≤ 16) then some (.mma form c pa pb (w.testBit 10) (BitVec.ofNat 32 w)) else none
  else if major = 0x37 then
    if form = 0 && pb = 0 && !w.testBit 10 then some (.mscale c (bits w 3 0) pa (bits w 9 4))
    else if form = 1 && bits w 10 7 ≤ 8 && bits w 6 0 = 0 then some (.mout c pa pb (bits w 10 7))
    else none
  else if major = 0x34 && bits w 25 21 = 0 && bits w 15 11 = 0 && bits w 10 0 = 2 && bits w 20 16 < 16 then some (.accZero (bits w 20 16))
  else none

/-- Panels that a command's word names. -/
def panelsUsed (op : MatrixOp) : List Nat :=
  match op with
  | .mma form _ pa pb _ _ => (numbersFrom pa (formPanels form)) ++ [pb]
  | .mscale _ _ p _ => [p]
  | .mout _ pa po _ => [pa, po]
  | _ => []

/-- The KIND that a command asks of its names: FP64 or not, or either. -/
def kindUsed (op : MatrixOp) : Option Bool :=
  match op with
  | .mma form .. => some (form = 5)
  | .accZero _ => none
  | _ => some false

/-- Target strand and tile of a descriptor. -/
def msendStrand (desc : List Byte) : Nat := fieldAt desc 8 2 % 2 ^ 14
def msendTile (desc : List Byte) : Nat := msendStrand desc / 16

/-- The arrival that an MSEND makes at its sender's barrier, with a code when it was rejected or abandoned; none when the sender's tile
image is gone (15 R361). -/
def msendArrive (s : State) (fromTile image : Nat) (tag : Option Packet) (bar : Word) (code : Nat) : State :=
  match tag with
  | some p => acknowledge s p [] (if code = 0 then 0 else 9) 0 code 0
  | none =>
    if bar = 0 ∧ code = 0 then s
    else arriveAt s fromTile image bar (if code = 0 then .arrive else .arriveFail code) 9

/-- Whether a strand holds a block of a context. -/
def holdsBlock (s : State) (n : Nat) (ctx : BitVec 32) : Bool :=
  match (s.strands.get {} n).act with
  | .block r _ => (getRun s r).ctx == ctx
  | _ => false

/-- The reject code of a message, 0 when it is accepted, with the context it names (15 R361). -/
def msendReject (s : State) (desc : List Byte) : Nat :=
  let tile := msendTile desc
  let n := msendStrand desc
  let t := getTile s tile
  match t.mcap.find? (fun e => e.2.toNat == fieldAt desc 0 8) with
  | none => 0x0F
  | some (ctx, _) =>
    if !holdsBlock s n ctx then 0x0A
    else
      match wordOp (fieldAt desc 12 4) with
      | none => 0x01
      | some op =>
        if (namesUsed op).any (fun k => match nameOf s n k with
            | none => true
            | some x => !((kindUsed op).all (fun f => f == x.fp64))) then 0x01
        else if (panelsUsed op).any (fun p => !panelIn t p) then 0x04
        else 0

/-- A message at the target engine: held while the queue is full, else accepted or rejected. -/
def msendArrives (s : State) (fromTile image : Nat) (tag : Option Packet) (desc : List Byte) : State :=
  let tile := msendTile desc
  let t := getTile s tile
  let bar : Word := BitVec.ofNat 64 (fieldAt desc 16 8)
  if 16 ≤ queueLength t then modTile s tile (fun t => { t with heldMsends := t.heldMsends ++ [(fromTile, image, tag, desc)] })
  else
    let code := msendReject s desc
    if !(code = 0) then msendArrive s fromTile image tag bar code
    else
      match wordOp (fieldAt desc 12 4) with
      | none => msendArrive s fromTile image tag bar 0x01
      | some op =>
        let n := msendStrand desc
        joinQueue s tile { strand := n, run := agentRun s (.strand n), op := op, barrier := bar, remote := some (fromTile, image, tag) }

/-- Held messages of a tile are decided, oldest first, while its queue has space; `fuel` bounds them. -/
def admitSome (s : State) (tile fuel : Nat) : State :=
  match fuel with
  | 0 => s
  | k + 1 =>
    match (getTile s tile).heldMsends with
    | [] => s
    | (fromTile, image, tag, desc) :: rest =>
      if 16 ≤ queueLength (getTile s tile) then s
      else admitSome (msendArrives (modTile s tile (fun t => { t with heldMsends := rest })) fromTile image tag desc) tile k

/-- Space freed in a queue: the held messages that find room are decided (05 R156). -/
def admitHeld (s : State) (tile : Nat) : State := admitSome s tile (getTile s tile).heldMsends.length

/-- msend: the descriptor is checked and copied at issue. -/
def execMsend (a : BitVec 5) (s : State) : Out :=
  issue (noCourier [a]) (do
    let ag ← theAgent
    let va ← getX a
    let s ← theState
    let tile := agentTile ag
    if !(bits va.toNat 63 57 = 0) then raise 0x05 0x02 0 va
    if !(va.toNat % 64 = 0) then raise 0x03 0 0 va
    if !(inWindow va.toNat && inScratch (getTile s tile) (va.toNat - windowBase) 64) then raise 0x04 0x03 0 va
    poolSound 0 va tile (va.toNat - windowBase) 64
    let desc := poolRead s tile (va.toNat - windowBase) 64
    if (wordOp (fieldAt desc 12 4)).isNone || !zeroAt desc 10 2 || !zeroAt desc 24 40 || decide (2 ^ 14 ≤ fieldAt desc 8 2) then illegalOperand
    if ostlerTile s (msendTile desc) && !ostlerMode s ag then raise 0x04 0x02 0 va
    namedBarrier (BitVec.ofNat 64 (fieldAt desc 16 8))
    update (fun s => msendArrives s tile (imageId s tile (agentRun s ag)) none desc)) s

/-- mwait: stalls until the strand's own commands have ended. -/
def execMwait (d : BitVec 5) (s : State) : Out :=
  issue (noCourier [d]) (do
    let ag ← theAgent
    let s ← theState
    let t := getTile s (agentTile ag)
    let strand := match ag with
      | .strand n => n
      | .courier _ => 0
    if t.queue.any (fun c => c.strand == strand && c.remote.isNone) || t.running.any (fun r => r.cmd.strand == strand && r.cmd.remote.isNone) then stall
    else setX d 0) s

/-! ## The engine's steps (15 R357, 09 R240) -/

/-- An engine works while its tile's supply is up and stable and its partition is not under reset (04 R109). -/
def engineRuns (s : State) (tile : Nat) : Bool :=
  (getTile s tile).changing.isNone && !(decide ((getTile s tile).gear = .park)) && !clusterResetting s (tile / 8)

/-- The commands that a tile's engine has accepted of a strand and not ended, in order; what an MMA has flagged so far goes with it. -/
def acceptedOf (t : Tile) (n : Nat) : List MatrixCmd :=
  ((t.running.map (fun (r : MatrixRun) => { r.cmd with flagA := r.flagA, flagB := r.flagB })).toList ++ t.queue).filter (fun c => c.strand == n && c.own.isEmpty)

def isMma (op : MatrixOp) : Bool :=
  match op with
  | .mma _ _ _ _ _ _ => true
  | _ => false

/-- An MMA that is the last accepted command of a strand that is to be removed: it makes no further K step (03 R91 step 2, 15 R349). -/
def mmaHeld (s : State) (tile : Nat) (c : MatrixCmd) : Bool :=
  isMma c.op && c.own.isEmpty && (s.strands.get {} c.strand).stopping && decide ((acceptedOf (getTile s tile) c.strand).length = 1)

/-- The banks that a command kept without its strand's names are free when no other command keeps them. -/
def ownBanksFree (t : Tile) (cmd : MatrixCmd) : Tile :=
  { t with banks := t.banks.filter (fun b => !(cmd.own.any (fun a => decide (b ∈ a.2.banks))) || decide (b ∈ ownedBanks t)) }

/-- The running command is over: its arrival if it came by MSEND, the release of the groups, the next command. -/
def matrixDone (s : State) (tile : Nat) (cmd : MatrixCmd) : State :=
  let s1 := modTile (clearPieces s (matrixUnit tile)) tile (fun t => ownBanksFree { t with running := none } cmd)
  let s2 := if family cmd.op then departUnits s1 tile (getRun s cmd.run).ctx else s1
  let s3 := match cmd.remote with
    | some (fromTile, image, tag) => msendArrive s2 fromTile image tag cmd.barrier 0
    | none => s2
  idleCheck (checkRun (later (admitHeld s3 tile) [.matrixCommandStart tile]) cmd.run) tile

/-- MATRIX_COMMAND_START (15 R357): the head of the queue starts when the engine is idle and, for the family, holds its 8 groups. An MMA that
awaits its strand's removal is passed over. -/
def execMatrixCommandStart (tile : Nat) (s : State) : Out :=
  event (
    let t := getTile s tile
    match t.queue.find? (fun c => !mmaHeld s tile c) with
    | none => s
    | some cmd =>
      if t.running.isSome || !engineRuns s tile then s
      else if family cmd.op && !(unitsHeld s tile = 8) then
        (if (getCluster s (tile / 8)).requests.any (fun r => r.1 == tile) then s else requestUnits s tile (getRun s cmd.run).ctx)
      else
        let s1 := modTile s tile (fun t => { t with queue := t.queue.erase cmd, running := some { cmd := cmd, started := true } })
        match cmd.op with
        | .mma _ n _ _ _ word =>
          match nameFor s cmd n with
          | none => matrixDone s1 tile cmd
          | some x =>
            if x.owner = word then
              later (modTile s1 tile (fun t =>
                { t with running := some { cmd := cmd, started := true, step := kstepOf x, flagA := cmd.flagA, flagB := cmd.flagB } })) [.kStep tile]
            else later (setNameFor s1 cmd n { (withKstep x 0) with owner := word }) [.kStep tile]
        | _ => later s1 [.matrixCommandEnd tile])

/-- A running MMA that awaits its strand's removal goes back to the queue after its step, and other strands' commands go on. -/
def setMmaAside (s : State) (tile : Nat) (r : MatrixRun) : State :=
  later (modTile s tile (fun t =>
    { t with running := none, queue := { r.cmd with flagA := r.flagA, flagB := r.flagB } :: t.queue })) [.matrixCommandStart tile]

/-- Before step 0 an MMA with Z has +0 for the accumulator and a cleared status word (15 R356). -/
def mmaOperand (t : Tile) (x : AccName) (z : Bool) (step : Nat) : Tile × AccName :=
  if z && step = 0 then (accClear t x, { x with status := 0 }) else (t, x)

/-- A command of the MMA family whose operands have an uncorrectable error ends with MEM_UE, as an engine access that faults does (06 R175,
R178; DEDUCED, log 59); an MMA owns its name no longer (09 R242). -/
def matrixFails (s : State) (tile : Nat) (cmd : MatrixCmd) : State :=
  let s1 := match cmd.op with
    | .mma _ n _ _ _ _ =>
      match nameFor s cmd n with
      | some x => setNameFor s cmd n { (withKstep x 0) with owner := 0 }
      | none => s
    | _ => s
  matrixDone (engineFail s1 tile cmd.barrier 0x08 0 9) tile cmd

/-- K_STEP (09 R240). -/
def execKStep (tile : Nat) (s : State) : Out :=
  event (
    let t := getTile s tile
    match t.running with
    | none => s
    | some r =>
      if !engineRuns s tile then s
      else if mmaHeld s tile r.cmd then setMmaAside s tile r
      else
        match r.cmd.op with
        | .mma form n pa pb z _ =>
          match nameFor s r.cmd n with
          | none => matrixDone s tile r.cmd
          | some x0 =>
            let (t0, x) := mmaOperand t x0 z r.step
            if !mmaSound t0 x form pa pb r.step then matrixFails s tile r.cmd
            else
              let (t1, fa, fb, fl) := mmaStep t0 x form pa pb r.step r.flagA r.flagB
              let y := withKstep (orStatus x fl) (r.step + 1)
              let s1 := engineFlags (modTile s tile (fun _ => { t1 with running := some { r with step := r.step + 1, flagA := fa, flagB := fb } })) tile fl
              if r.step + 1 < 8 then later (setNameFor s1 r.cmd n y) [.kStep tile]
              else matrixDone (setNameFor s1 r.cmd n { (withKstep y 0) with owner := 0 }) tile r.cmd
        | _ => s)

/-- The engine of a tile working for a command. -/
def matrixEngine (s : State) (tile : Nat) (cmd : MatrixCmd) : Engine :=
  { unit := matrixUnit tile, tile := tile, ctx := (getRun s cmd.run).ctx, run := cmd.run, block := cmd.block }

def setMoved (s : State) (tile n : Nat) : State := modTile s tile (fun t => { t with running := t.running.map (fun r => { r with moved := n }) })

/-- The groups of a panel in their order, with the address of those that memory holds. -/
def panelGroups (base shape : Word) : List (Nat × Nat × Option Nat) :=
  (List.range 64).flatMap (fun r => (List.range 8).map (fun g =>
    (r, g, if r < shapeRows shape ∧ g < shapeGroups shape then some (base.toNat + r * shapeStride shape + 64 * g) else none)))

/-- A PLD over the groups that remain: busy with the state reached, or done, or failed. -/
def pldGroups (s : State) (e : Engine) (panel : Nat) (gs : List (Nat × Nat × Option Nat)) (moved : Nat) : Served Unit :=
  match gs with
  | [] => .ok () s
  | (r, g, none) :: rest =>
    pldGroups (modTile s e.tile (fun t => poolClear t (panelAt t panel r (64 * g)) 64)) e panel rest (moved + 1)
  | (r, g, some va) :: rest =>
    match engineLoad s e va 64 with
    | .ok bs s1 =>
      let s2 := match e.block with
        | some i => if inWindow va then s1 else recordEngineRead s1 e.run i va 64
        | none => s1
      pldGroups (poolWrite s2 e.tile (panelAt (getTile s2 e.tile) panel r (64 * g)) bs) e panel rest (moved + 1)
    | .bad code sub s1 => .bad code sub s1
    | .busy s1 => .busy (setMoved s1 e.tile moved)

/-- A PST over the groups that remain; a line is full after its last group. -/
def pstGroups (s : State) (e : Engine) (panel : Nat) (gs : List (Nat × Nat × Nat)) (moved : Nat) : Served Unit :=
  match gs with
  | [] => .ok () s
  | (r, g, va) :: rest =>
    let off := panelAt (getTile s e.tile) panel r (64 * g)
    match (if wordsHit (getTile s e.tile).poolBad off 64 then .bad 0x08 0x03 s else engineStore s e moved va (poolRead s e.tile off 64)) with
    | .ok _ s1 =>
      let s2 := if rest.any (fun x => x.2.2 / 128 == va / 128) then s1 else fillLines s1 e.tile (linesOfSpan s1 e va 64)
      pstGroups s2 e panel rest (moved + 1)
    | .bad code sub s1 => .bad code sub s1
    | .busy s1 => .busy (setMoved s1 e.tile moved)

/-- An ACC.ST over the rows that remain: each lands, fills its lines and makes its landing update. -/
def drainRows (s : State) (e : Engine) (n : AccName) (base : Nat) (bar : Word) (rows : List Nat) : Served Unit :=
  match rows with
  | [] => .ok () s
  | r :: rest =>
    let len := accSize n / 64
    let bytes := memRead (getTile s e.tile).acc (accAt n (r * len)) len
    match (if wordsHit (getTile s e.tile).accBad (accAt n (r * len)) len then .bad 0x08 0x03 s
      else engineStores s e (64 * r) (writeParts s e (base + r * len) bytes)) with
    | .ok _ s1 =>
      let s2 := barUpdate (fillLines s1 e.tile (linesOfSpan s1 e (base + r * len) len)) e.tile bar (.land len)
      drainRows (setMoved s2 e.tile (r + 1)) e n base bar rest
    | .bad code sub s1 => .bad code sub s1
    | .busy s1 => .busy s1

/-- A command that ended, failed or goes on. -/
def matrixServed (s : State) (tile : Nat) (cmd : MatrixCmd) (left : Nat) (r : Served Unit) (done : State → State) : State :=
  match r with
  | .ok _ s1 => matrixDone (done s1) tile cmd
  | .busy s1 => later s1 [.matrixCommandEnd tile]
  | .bad code _ s1 =>
    let moved := ((getTile s1 tile).running.map (·.moved)).getD 0
    matrixDone (engineFail s1 tile cmd.barrier code (left - (match cmd.op with
      | .accSt n _ => moved * (match nameFor s cmd n with
        | some x => accSize x / 64
        | none => 0)
      | _ => 0)) 9) tile cmd

/-- MATRIX_COMMAND_END (15 R351-R359): the work of every command but an MMA. -/
def execMatrixCommandEnd (tile : Nat) (s : State) : Out :=
  event (
    match (getTile s tile).running with
    | none => s
    | some r =>
      let cmd := r.cmd
      let e := matrixEngine s tile cmd
      if !engineRuns s tile then s
      else
        match cmd.op with
        | .pld panel base shape =>
          let bytes := 64 * shapeRows shape * shapeGroups shape
          matrixServed s tile cmd bytes (pldGroups s e panel ((panelGroups base shape).drop r.moved) r.moved)
            (fun s => barUpdate s tile cmd.barrier (.land bytes))
        | .pst panel base shape =>
          let bytes := 64 * shapeRows shape * shapeGroups shape
          let gs := (panelGroups base shape).filterMap (fun x => x.2.2.map (fun va => (x.1, x.2.1, va)))
          matrixServed s tile cmd bytes (pstGroups s e panel (gs.drop r.moved) r.moved) (fun s => barUpdate s tile cmd.barrier (.land bytes))
        | .pzero panel => matrixDone (modTile s tile (fun t => poolClear t (panelAt t panel 0 0) 32768)) tile cmd
        | .accZero n =>
          match nameFor s cmd n with
          | none => matrixDone s tile cmd
          | some x => matrixDone (setNameFor (modTile s tile (fun t => accClear t x)) cmd n { x with status := 0 }) tile cmd
        | .accWr n g v =>
          match nameFor s cmd n with
          | none => matrixDone s tile cmd
          | some x => matrixDone (modTile s tile (fun t => { t with
              acc := memWrite t.acc (accAt x (64 * g)) (vecBytes v), accBad := wordsLeft t.accBad (accAt x (64 * g)) 64 })) tile cmd
        | .accSt n base =>
          match nameFor s cmd n with
          | none => matrixDone s tile cmd
          | some x =>
            matrixServed s tile cmd (accSize x) (drainRows s e x base.toNat cmd.barrier ((List.range 64).drop r.moved)) id
        | .mscale d p panel row =>
          match nameFor s cmd d, nameFor s cmd p with
          | some x, some y =>
            if !mscaleSound (getTile s tile) x y panel row then matrixFails s tile cmd
            else
              let (t1, fl) := mscaleStep (getTile s tile) x y panel row
              matrixDone (engineFlags (setNameFor (modTile s tile (fun _ => t1)) cmd d (orStatus x fl)) tile fl) tile cmd
          | _, _ => matrixDone s tile cmd
        | .mout d pa panel n =>
          match nameFor s cmd d with
          | some x =>
            if !moutSound (getTile s tile) x pa panel n then matrixFails s tile cmd
            else
              let (t1, fl) := moutStep (getTile s tile) x pa panel n
              matrixDone (engineFlags (setNameFor (modTile s tile (fun _ => t1)) cmd d (orStatus x fl)) tile fl) tile cmd
          | none => matrixDone s tile cmd
        | .mma .. => s)

end Sys2Proof.Machine
end

