-- ==== Sys2Proof/Machine/Dray.lean ====
section
/-!
DEFINITION. The dray: templates, copies by segments, the aperture, STORAGE copies (15 R362-R370, 05 R154).
-/
namespace Sys2Proof.Machine

/-! ## Templates (15 R363) -/

/-- Dimensions of a record: count, source stride, destination stride. -/
def templateDims (b : List Byte) (n : Nat) : List (Nat × Int × Int) :=
  (List.range n).map (fun k => (fieldAt b (40 + 10 * k) 2, sext (fieldAt b (42 + 10 * k) 4) 32, sext (fieldAt b (46 + 10 * k) 4) 32))

/-- A record within the limits of R363, R366 and R369; `none` when it breaks one. -/
def templateOf (b : List Byte) : Option Template :=
  let kind := fieldAt b 0 1
  let ndim := fieldAt b 1 1
  let esz := fieldAt b 2 1
  let slices := fieldAt b 4 4
  let t : Template := { kind := kind, esz := esz, slices := slices, src := BitVec.ofNat 64 (fieldAt b 8 8), dst := BitVec.ofNat 64 (fieldAt b 16 8),
                        bar := BitVec.ofNat 64 (fieldAt b 24 8), sstride := sext (fieldAt b 32 4) 32, dims := templateDims b ndim }
  let shape := decide (kind ≤ 2) && decide (1 ≤ ndim) && decide (ndim ≤ 8) && decide (esz ≤ 3) && zeroAt b 36 4 && zeroAt b 120 8
    && zeroAt b (40 + 10 * ndim) (80 - 10 * ndim) && t.dims.all (fun d => decide (1 ≤ d.1))
  let kindOk := if kind = 0 then decide (slices = 0) && decide (t.sstride = 0)
    else if kind = 1 then decide (1 ≤ slices) && decide (slices ≤ 65535) && decide (2 ≤ esz)
    else decide (1 ≤ slices) && decide (slices ≤ 0xFFFFFFFE) && decide (ndim = 1) && decide (esz = 0) && decide (t.sstride = 0)
      && t.dims.all (fun d => decide (d.2.1 = 0) && decide (d.2.2 = 0))
  if shape && kindOk then some t else none

def copySlack (b : List Byte) : Nat := fieldAt b 3 1

/-- Elements of a copy. -/
def elementCount (t : Template) : Nat := (t.dims.map (·.1)).foldl (· * ·) 1

/-- Source and destination offsets of an element, dimension 0 fastest. -/
def elementOffset (dims : List (Nat × Int × Int)) (i : Nat) : Int × Int :=
  match dims with
  | [] => (0, 0)
  | (c, src, dst) :: rest =>
    let r := elementOffset rest (i / c)
    (src * (i % c : Nat) + r.1, dst * (i % c : Nat) + r.2)

/-- Lowest and highest offset over a template's elements, by source or by destination stride. -/
def spanOf (dims : List (Nat × Int × Int)) (dest : Bool) : Int × Int :=
  dims.foldl (fun acc d =>
    let far : Int := (if dest then d.2.2 else d.2.1) * ((d.1 - 1 : Nat) : Int)
    (acc.1 + min 0 far, acc.2 + max 0 far)) (0, 0)

/-! ## The storage block (02 R72) -/

def storageBlock (s : State) (part : Nat) : List Nat := ((s.host.storage.get (Vector.replicate 8 0) part).toList).map (·.toNat)
def storageField (s : State) (part k : Nat) : Nat := (storageBlock s part).getD k 0
def storageQlog (s : State) (part : Nat) : Nat := bits (storageField s part 5) 7 0
def storageLbas (s : State) (part : Nat) : Nat := bits (storageField s part 5) 15 8
def storageV (s : State) (part : Nat) : Bool := (storageField s part 5).testBit 16

/-- V is 1 and every field lies in its range. -/
def storageValid (s : State) (part : Nat) : Bool :=
  storageV s part && storageField s part 0 % 4096 = 0 && storageField s part 1 % 4096 = 0 && decide (2 ≤ storageQlog s part)
    && decide (storageQlog s part ≤ 12) && decide (9 ≤ storageLbas s part) && decide (storageLbas s part ≤ 12)
    && bits (storageField s part 5) 63 17 = 0 && storageField s part 6 = 0 && storageField s part 7 = 0

/-- Destination bytes of a copy. -/
def copyTotal (s : State) (t : Template) (part : Nat) : Nat :=
  if t.kind = 2 then elementCount t * 2 ^ storageLbas s part else elementCount t * 2 ^ t.esz

/-! ## DRAY.GO (15 R364) -/

/-- A window address of a span must lie in the scratchpad. -/
def spanWindow (core : Nat) (kind va n : Nat) : Exec Unit := do
  let s ← theState
  if (inWindow va || inWindow (va + n - 1)) && !(inWindow va && inScratch (getTile s (core / 4)) (va - windowBase) n) then
    raise 0x04 0x03 kind (BitVec.ofNat 64 va)

/-- The canonical check of both ends of a span, before any other check of its access (06 R157). -/
def spanCanonical (kind va n : Nat) : Exec Unit := do
  canonical kind (BitVec.ofNat 64 va)
  canonical kind (BitVec.ofNat 64 (va + n - 1))

/-- Start and bytes of a span from a base. -/
def spanAt (base : Word) (span : Int × Int) (esz : Nat) (shift : Int) : Nat × Nat :=
  (wrap 64 ((base.toNat : Int) + shift + span.1), (span.2 - span.1).toNat + 2 ^ esz)

/-- The source spans of each slice, and the destination's. -/
def sourceSpans (t : Template) (base : Word) : List (Nat × Nat) :=
  (List.range (if t.kind = 1 then t.slices else 1)).map (fun k => spanAt base (spanOf t.dims false) t.esz (t.sstride * k))

/-- A barrier address of a template (14 R415), for a core's tile. -/
def barrierFor (core : Nat) (va : Word) : Exec Unit := do
  let s ← theState
  if va = 0 then pure ()
  else if !(bits va.toNat 63 57 = 0) then raise 0x05 0x02 2 va
  else if !(va.toNat % 16 = 0) then raise 0x03 0 2 va
  else if inWindow va.toNat && inScratch (getTile s (core / 4)) (va.toNat - windowBase) 16 then pure ()
  else raise 0x04 0x03 2 va

/-- A context's template table and aperture line on a tile (15 R362). -/
def tableOf (s : State) (tile : Nat) (ctx : BitVec 32) : DrayTable := (getTile s tile).tables.get {} ctx.toNat
def setTable (s : State) (tile : Nat) (ctx : BitVec 32) (f : DrayTable → DrayTable) : State :=
  modTile s tile (fun t => { t with tables := t.tables.set ctx.toNat (f (t.tables.get {} ctx.toNat)) })

/-- The bytes of a slot of a context's table. -/
def templateBytes (s : State) (tile : Nat) (ctx : BitVec 32) (slot : Nat) : Option (List Byte) :=
  let t := tableOf s tile ctx
  if t.count ≤ slot then none else some (poolRead s tile (t.base.toNat - windowBase + 128 * slot) 128)

/-- The record of a slot, within its limits, with its slack. -/
def recordAt (s : State) (tile : Nat) (ctx : BitVec 32) (slot : Nat) : Option (Template × Nat) :=
  (templateBytes s tile ctx slot).bind (fun b => (templateOf b).map (fun x => (x, copySlack b)))

/-- The checks of R364, in order, and the copy they admit. -/
def goCopy (core : Nat) (strand : Option Nat) (run ctx : BitVec 32) (ostler : Bool) (slot : Nat) (xa xb : Word) : Exec Copy := do
  let s ← theState
  let tile := core / 4
  let part := partOfDie s (tile / 128)
  let record := (tableOf s tile ctx).base + BitVec.ofNat 64 (128 * slot)
  if slot < (tableOf s tile ctx).count then poolSound 0 record tile (record.toNat - windowBase) 128
  match recordAt s tile ctx slot with
  | none => illegalOperand
  | some (t, slack) =>
    if t.kind = 2 && !ostler then illegalOperand
    let src := t.src + xa
    let dst := t.dst + xb
    if t.kind = 2 && (!storageValid s part || !(dst.toNat % 4096 = 0)) then illegalOperand
    let total := copyTotal s t part
    if 2 ^ 31 ≤ total then illegalOperand
    let unit : Int := 2 ^ t.esz
    let dest := if t.kind = 2 then (dst.toNat, total) else spanAt dst (spanOf t.dims true) t.esz 0
    let sources := if t.kind = 2 then [] else sourceSpans t src
    eachLane (fun k => let p := sources.getD k (0, 1); spanCanonical 0 p.1 p.2) (List.range sources.length)
    spanCanonical 1 dest.1 dest.2
    if !(t.kind = 2) && (!((src.toNat : Int) % unit = 0) || !((dst.toNat : Int) % unit = 0) || !(t.sstride % unit = 0)
        || t.dims.any (fun d => !(d.2.1 % unit = 0) || !(d.2.2 % unit = 0))) then raise 0x03 0 0 src
    if t.kind = 2 && inWindow dst.toNat then raise 0x04 0x03 1 dst
    eachLane (fun k => let p := sources.getD k (0, 1); spanWindow core 0 p.1 p.2) (List.range sources.length)
    spanWindow core 1 dest.1 dest.2
    eachLane (fun k => let p := sources.getD k (0, 1); spanFor core ctx ostler 0 1 false p.1 p.2) (List.range sources.length)
    spanFor core ctx ostler 1 2 false dest.1 dest.2
    barrierFor core t.bar
    pure { tag := 0, core := core, strand := strand, run := run, ctx := ctx, tpl := t, srcBase := src, dstBase := dst, slack := slack, waitSince := s.now }

/-- Copies of a core in flight on its tile. -/
def copiesOf (s : State) (core : Nat) : List Copy := ((getTile s (core / 4)).dray.toList.flatMap id).filter (fun c => c.core == core)

def modChannel (s : State) (tile : Nat) (ch : Nat) (f : List Copy → List Copy) : State :=
  modTile s tile (fun t => { t with dray := t.dray.mapIdx (fun i q => if i = ch then f q else q) })

/-- A copy joins its channel under a fresh tag. -/
def startCopy (s : State) (tile : Nat) (ch : Fin 4) (c : Copy) : State × BitVec 32 :=
  let n := (getCore s c.core).draySeq
  let tag := BitVec.ofNat 32 (ch.val * 65536 + n.toNat)
  let s1 := modCore s c.core (fun u => { u with draySeq := u.draySeq + 1 })
  (later (modChannel s1 tile ch.val (fun q => q ++ [{ c with tag := tag }])) [.draySegment tile ch], tag)

/-- Source ranges that a GO records: every run of dimension 0, or every element where its stride leaves swatches out (08 R214). -/
def recordedRanges (t : Template) (base : Word) : List (Nat × Nat) :=
  (List.range (if t.kind = 1 then t.slices else 1)).flatMap (fun k =>
    match t.dims with
    | [] => []
    | (c0, st0, _) :: _ =>
      if st0.natAbs ≤ 4096 then
        (List.range (elementCount t / c0)).map (fun i =>
          spanAt base (spanOf (t.dims.take 1) false) t.esz (t.sstride * k + (elementOffset t.dims (i * c0)).1))
      else (List.range (elementCount t)).map (fun i => spanAt base (0, 0) t.esz (t.sstride * k + (elementOffset t.dims i).1)))

/-- dray.go. -/
def execDrayGo (d a b : BitVec 5) (c : BitVec 2) (sl : BitVec 6) (s : State) : Out :=
  issue (noCourier [d, a, b]) (do
    let ag ← theAgent
    let xa ← getX a
    let xb ← getX b
    let s ← theState
    let core := agentCore ag
    let strand := match ag with
      | .strand n => some n
      | .courier _ => none
    let copy ← goCopy core strand (agentRun s ag) (agentCtx s ag) (ostlerMode s ag) sl.toNat xa xb
    let sources := if copy.tpl.kind = 2 then [] else sourceSpans copy.tpl copy.srcBase
    if sources.any (fun p => !inWindow p.1) || !inWindow copy.dstBase.toNat then waitAcks
    let s ← theState
    if 128 ≤ (copiesOf s core).length then stall
    let ranges := if copy.tpl.kind = 2 then [] else recordedRanges copy.tpl copy.srcBase
    eachLane (fun k => let p := ranges.getD k (0, 1); if inWindow p.1 then pure () else noteRead (BitVec.ofNat 64 p.1) p.2) (List.range ranges.length)
    let s ← theState
    let (s1, tag) := startCopy s (core / 4) c.toFin copy
    update (fun _ => s1)
    setX d (BitVec.ofNat 64 tag.toNat)) s

/-- dray.tpl. -/
def execDrayTpl (a : BitVec 5) (sl : BitVec 6) (s : State) : Out :=
  issue (noCourier [a]) (do
    let ag ← theAgent
    let va ← getX a
    let s ← theState
    let n := sl.toNat + 1
    canonical 0 va
    if !(va.toNat % 128 = 0) then raise 0x03 0 0 va
    if !(inWindow va.toNat && inScratch (getTile s (agentTile ag)) (va.toNat - windowBase) (128 * n)) then raise 0x04 0x03 0 va
    update (fun s => setTable s (agentTile ag) (agentCtx s ag) (fun t => { t with base := va, count := n }))) s

/-- The copy of the issuing core that a tag names: channel and copy. -/
def copyNamed (s : State) (core : Nat) (tag : Word) : Option (Nat × Copy) :=
  (List.range 4).findSome? (fun ch =>
    (((getTile s (core / 4)).dray.toList.getD ch []).find? (fun c => c.core == core && c.tag.toNat == tag.toNat)).map (fun c => (ch, c)))

def modCopy (s : State) (tile ch : Nat) (c : Copy) (f : Copy → Copy) : State :=
  modChannel s tile ch (fun q => q.map (fun x => if x.core == c.core && x.tag == c.tag then f x else x))
def dropCopy (s : State) (tile ch : Nat) (c : Copy) : State :=
  modChannel s tile ch (fun q => q.filter (fun x => !(x.core == c.core && x.tag == c.tag)))

/-- A copy ends: out of its queue, its run perhaps complete. -/
def endCopy (s : State) (tile ch : Nat) (c : Copy) : State := checkRun (dropCopy s tile ch c) c.run

/-- Destination bytes of a copy that have not landed; of them, those of no segment outstanding. -/
def copyLeft (s : State) (tile : Nat) (c : Copy) : Nat := copyTotal s c.tpl (partOfDie s (tile / 128)) - c.done
def copyUnissued (s : State) (tile : Nat) (c : Copy) : Nat := copyLeft s tile c - (c.outstanding.map (·.2)).sum

/-- A copy stops issuing: what it has not issued is subtracted from BYTES, once, and the segments outstanding still land; without any it
ends (15 R365, R367, R369). -/
def settleCopy (s : State) (tile ch : Nat) (c : Copy) : State :=
  let s1 := if c.settled then s else barUpdate s tile c.tpl.bar (.land (copyUnissued s tile c))
  if c.outstanding.isEmpty then endCopy s1 tile ch c
  else modCopy s1 tile ch c (fun x =>
    { x with
      cancelled := true
      settled := true
      active := false })

/-- dray.slack. -/
def execDraySlack (a b : BitVec 5) (s : State) : Out :=
  issue (noCourier [a, b]) (do
    let ag ← theAgent
    let tag ← getX a
    let v ← getX b
    let s ← theState
    match copyNamed s (agentCore ag) tag with
    | some (ch, c) => update (fun s => modCopy s (agentTile ag) ch c (fun x => { x with slack := min v.toNat 255 }))
    | none => pure ()) s
/-- dray.cancel: a copy between segments ends now, one with a segment in flight after it; ERR stays. -/
def execDrayCancel (a : BitVec 5) (s : State) : Out :=
  issue (noCourier [a]) (do
    let ag ← theAgent
    let tag ← getX a
    let s ← theState
    let tile := agentTile ag
    match copyNamed s (agentCore ag) tag with
    | some (ch, c) =>
      if c.active then update (fun s => modCopy s tile ch c (fun x => { x with cancelled := true }))
      else update (fun s => settleCopy s tile ch c)
    | none => pure ()) s
/-- dray.stat. -/
def execDrayStat (d a : BitVec 5) (s : State) : Out :=
  issue (noCourier [d, a]) (do
    let ag ← theAgent
    let tag ← getX a
    let s ← theState
    match copyNamed s (agentCore ag) tag with
    | some (_, c) =>
      let st := if c.paused then 3 else if c.started then 2 else 1
      setX d (BitVec.ofNat 64 (st * 2 ^ 62 + c.slack * 2 ^ 40 + c.done))
    | none => setX d 0) s
/-- dray.aper. -/
def execDrayAper (a : BitVec 5) (s : State) : Out :=
  issue (noCourier [a]) (do
    let ag ← theAgent
    let va ← getX a
    if va = 0 then update (fun s => setTable s (agentTile ag) (agentCtx s ag) (fun t => { t with aperture := 0 }))
    else do
      canonical 1 va
      if !(va.toNat % 64 = 0) then raise 0x03 0 1 va
      if inWindow va.toNat then raise 0x04 0x03 1 va
      engineSpan 1 3 false va 64
      update (fun s => setTable s (agentTile ag) (agentCtx s ag) (fun t => { t with aperture := va }))) s

/-- DRAY_APERTURE_START (15 R368): a GO with X[a] = X[b] = 0 for the context whose line it is, or a HW record. -/
def execDrayApertureStart (line : Nat × BitVec 32) (ch : Fin 4) (data : Word) (s : State) : Out :=
  event (
    let tile := line.1
    let ctx := line.2
    let core := 4 * tile
    match (getTile s tile).images.reverse.find? (fun i => i.2 == ctx) with
    | none => dropped s
    | some (run, _) =>
      if !(bits data.toNat 63 6 = 0) then dropped s
      else
        match goCopy core none run ctx (ostlerTile s tile) (data.toNat % 64) 0 0 s with
        | .ok (c, s1) =>
          if 128 ≤ (copiesOf s1 core).length then later s1 [.drayApertureStart line ch data] else (startCopy s1 tile ch c).1
        | .error (.wait s1) => later s1 [.drayApertureStart line ch data]
        | .error (.failed f s1) => refused s1 f
        | .error (.fault f) => refused s f)
where
  dropped (s : State) : State := logRecord s { cls := .hw, sub := 8, source := tileSource s line.1 }
  refused (s : State) (f : FaultInfo) : State :=
          match (templateBytes s line.1 line.2 (data.toNat % 64)).map (fun b => BitVec.ofNat 64 (fieldAt b 24 8)) with
          | some bar =>
            match (if bar = 0 then (raise 0 0 : Exec Unit) else barrierFor (4 * line.1) bar) s with
            | .ok _ => barUpdate (dropped s) line.1 bar (.fail f.code.toNat 0)
            | .error _ => dropped s
          | none => dropped s

/-! ## Segments (15 R365, R366) -/

/-- The next copy of a channel: one whose segment is in flight; one that waited more than 65,536 ticks; the least slack. -/
def nextCopy (now : Nat) (q : List Copy) : Option Copy :=
  match q.find? (fun c => c.active) with
  | some c => some c
  | none =>
    let ready := q.filter (fun c => !c.paused && !c.cancelled && !(c.tpl.kind = 2 && c.element = elementCount c.tpl))
    match ready.find? (fun c => decide (c.waitSince + 65536 < now)) with
    | some c => some c
    | none => ready.foldl (fun best c => match best with
      | none => some c
      | some b => if c.slack < b.slack then some c else some b) none

/-- Elements of the segment that starts at an element. -/
def segmentLength (t : Template) (element : Nat) : Nat :=
  match t.dims with
  | [] => 1
  | (c0, _, _) :: _ => min (max 1 (4096 / 2 ^ t.esz)) (c0 - element % c0)

def srcAt (c : Copy) (i slice : Nat) : Nat := wrap 64 ((c.srcBase.toNat : Int) + (elementOffset c.tpl.dims i).1 + c.tpl.sstride * slice)
def dstAt (c : Copy) (i : Nat) : Nat := wrap 64 ((c.dstBase.toNat : Int) + (elementOffset c.tpl.dims i).2)

/-- A merge of the slices' parts into an element, one rounding for each (15 R366). -/
def reduceElement (f : Fmt) (out : Nat) (parts : List Nat) : Nat := parts.foldl (fun acc p => (fadd f 0 acc p).1) out

/-- Elements of a REDUCE segment in order, each with its destination, the value read there and its parts: an element whose destination an
earlier one has stored to takes that value (15 R366). -/
def reduceElements (f : Fmt) (stored : List (Nat × Nat)) (es : List (Nat × Nat × List Nat)) : List Nat :=
  match es with
  | [] => []
  | (va, out, parts) :: rest =>
    let v := reduceElement f (((stored.find? (fun e => e.1 = va)).map (·.2)).getD out) parts
    v :: reduceElements f ((va, v) :: stored) rest

/-- `n` consecutive items of a list at a time; `fuel` bounds the groups. -/
def chunks {α : Type} (fuel n : Nat) (l : List α) : List (List α) :=
  match fuel with
  | 0 => []
  | k + 1 => l.take n :: chunks k n (l.drop n)

/-- A failure on the source side: translation and rights become DRAY_SOURCE. -/
def sourceCode (code : Nat) : Nat := if code = 4 || code = 5 || code = 6 then 0x14 else code

/-- What the elements of a segment become: read from the sources, and merged for REDUCE. -/
def segmentData (s : State) (e : Engine) (c : Copy) (is : List Nat) : Served (List (List Byte)) :=
  let w := 2 ^ c.tpl.esz
  if c.tpl.kind = 1 then
    let n := c.tpl.slices
    match engineLoads s e (is.flatMap (fun i => (List.range n).map (fun k => (srcAt c i k, w)))) with
    | .bad code sub s1 => .bad (sourceCode code) sub s1
    | .busy s1 => .busy s1
    | .ok parts s1 =>
      match engineLoads s1 e (is.map (fun i => (dstAt c i, w))) with
      | .bad code sub s2 => .bad code sub s2
      | .busy s2 => .busy s2
      | .ok outs s2 =>
        let f := if c.tpl.esz = 3 then fp64 else fp32
        .ok ((reduceElements f [] ((is.map (dstAt c)).zip ((outs.map ofBytes).zip ((chunks is.length n parts).map (fun p => p.map ofBytes))))).map (leBytes w)) s2
  else
    match engineLoads s e (is.map (fun i => (srcAt c i 0, w))) with
    | .bad code sub s1 => .bad (sourceCode code) sub s1
    | .busy s1 => .busy s1
    | .ok bs s1 => .ok bs s1

/-- The writes of a segment: one run where the destination is contiguous, else one for each element. -/
def segmentWrites (s : State) (e : Engine) (c : Copy) (is : List Nat) (data : List (List Byte)) : List (Nat × List Byte) :=
  match c.tpl.dims with
  | (_, _, d0) :: _ => if d0 = 2 ^ c.tpl.esz then writeParts s e (dstAt c (is.headD 0)) data.flatten else (is.map (dstAt c)).zip data
  | [] => (is.map (dstAt c)).zip data

/-- Lines that a segment wrote and that no later element of the copy writes. -/
def segmentLines (s : State) (e : Engine) (c : Copy) (is : List Nat) : List Nat :=
  let from' := c.element + is.length
  let later' := (numbersFrom from' (elementCount c.tpl - from')).map (fun i => dstAt c i / 128)
  ((is.map (dstAt c)).filter (fun va => !(decide (va / 128 ∈ later')))).filterMap (fullLine s e) |>.dedup

/-- A failing copy of the COACH role makes its fetch fail with its code (03 R95). -/
def tellCoach (s : State) (c : Copy) (code : Nat) : State :=
  match c.carriage with
  | some (i, j) => soon s [.carriageFetchFail i j (BitVec.ofNat 7 code)]
  | none => s

/-- A copy fails: its code and its undelivered bytes into its barrier (15 R365). -/
def failCopy (s : State) (tile ch : Nat) (c : Copy) (code : Nat) : State :=
  tellCoach (endCopy (engineFail (clearPieces s (drayUnit tile ch)) tile c.tpl.bar code (copyLeft s tile c) 7) tile ch c) c code

/-- The segment of a COPY or REDUCE. -/
def runSegment (s : State) (tile : Nat) (ch : Fin 4) (c : Copy) : State :=
  let e : Engine := { unit := drayUnit tile ch.val, tile := tile, ctx := c.ctx, run := c.run }
  let is := numbersFrom c.element (segmentLength c.tpl c.element)
  let again := fun (s : State) => later (modCopy s tile ch.val c (fun x => { x with started := true, active := true })) [.draySegment tile ch]
  match segmentData s e c is with
  | .bad code _ s1 => failCopy s1 tile ch.val c code
  | .busy s1 => again s1
  | .ok data s1 =>
    match engineStores s1 e 0 (segmentWrites s1 e c is data) with
    | .bad code _ s2 => failCopy s2 tile ch.val c code
    | .busy s2 => again s2
    | .ok _ s2 =>
      let n := is.length * 2 ^ c.tpl.esz
      let s3 := barUpdate (fillLines (clearPieces s2 e.unit) tile (segmentLines s2 e c is)) tile c.tpl.bar (.land n)
      let c1 := { c with started := true, active := false, element := c.element + is.length, done := c.done + n, waitSince := s.now }
      let s4 := later s3 [.draySegment tile ch]
      if c1.element = elementCount c.tpl then endCopy s4 tile ch.val c
      else if c.cancelled then endCopy (barUpdate s4 tile c.tpl.bar (.land (copyLeft s4 tile c1))) tile ch.val c
      else modCopy s4 tile ch.val c (fun x => { c1 with slack := x.slack, paused := x.paused })

/-! ## STORAGE segments (15 R369) -/

/-- A STORAGE copy can issue no further segment: its code and the bytes of those not issued into its barrier; the others still land. -/
def storageStops (s : State) (tile : Nat) (ch : Fin 4) (c : Copy) (code : Nat) : State :=
  let s1 := tellCoach (engineFail (clearPieces s (drayUnit tile ch.val)) tile c.tpl.bar code (if c.settled then 0 else copyUnissued s tile c) 7) c code
  settleCopy s1 tile ch.val { c with settled := true }

/-- Commands outstanding on a partition's queue pair. -/
def storageOut (s : State) (part : Nat) : Nat :=
  (s.tiles.map (fun e => if partOfDie s (e.1 / 128) = part then ((e.2.dray.toList.flatMap id).map (fun c => c.outstanding.length)).sum else 0)).sum

/-- The 64-byte submission entry of a Read. -/
def submission (cid nsid prp1 lba blocks : Nat) : List Byte :=
  [2, 0] ++ leBytes 2 cid ++ leBytes 4 nsid ++ List.replicate 16 0 ++ leBytes 8 prp1 ++ List.replicate 8 0 ++ leBytes 8 lba ++ leBytes 4 (blocks - 1)
    ++ List.replicate 12 0

/-- The next Read command of a STORAGE copy, if the submission queue has room. -/
def storageSegment (s : State) (tile : Nat) (ch : Fin 4) (c : Copy) : State :=
  let part := partOfDie s (tile / 128)
  let e : Engine := { unit := drayUnit tile ch.val, tile := tile, ctx := c.ctx, run := c.run }
  let n := 2 ^ storageQlog s part
  let (tail, head, phase) := s.host.storageRun.get (0, 0, true) part
  if !storageValid s part then storageStops s tile ch c 0x0A
  else if n ≤ storageOut s part + 1 then later s [.draySegment tile ch]
  else
    let lbas := storageLbas s part
    let blocks := min (2 ^ (12 - lbas)) (elementCount c.tpl - c.element)
    let cid := ch.val * 2 ^ 14 + c.issued % 2 ^ 14
    let dst := (c.dstBase.toNat + c.element * 2 ^ lbas + storageField s part 4) % 2 ^ 64
    let entry := submission cid c.tpl.slices dst (c.srcBase.toNat + c.element) blocks
    match engineStores s e 0 (writeParts s e (storageField s part 0 + 64 * tail) entry) with
    | .bad code _ s1 => storageStops s1 tile ch c code
    | .busy s1 => later (modCopy s1 tile ch.val c (fun x => { x with started := true, active := true })) [.draySegment tile ch]
    | .ok _ s1 =>
      let tail' := (tail + 1) % n
      let s2 := clearPieces s1 e.unit
      let s3 := { s2 with
        host := { s2.host with storageRun := s2.host.storageRun.set part (tail', head, phase) }
        busOut := s2.busOut ++ [.write (BitVec.ofNat 64 (storageField s part 2)) (leBytes 4 tail')] }
      let c1 : Copy :=
        { c with
          started := true
          active := false
          element := c.element + blocks
          issued := c.issued + 1
          waitSince := s.now
          outstanding := c.outstanding ++ [(cid, blocks * 2 ^ lbas)] }
      let s4 := modCopy s3 tile ch.val c (fun _ => c1)
      later (if c.cancelled then settleCopy s4 tile ch.val c1 else s4) [.draySegment tile ch]

/-- DRAY_SEGMENT. -/
def execDraySegment (tile : Nat) (ch : Fin 4) (s : State) : Out :=
  event (
    let ending := ((getTile s tile).dray.toList.getD ch.val []).any (fun c => c.active && c.cancelled)
    if (getTile s tile).changing.isSome || (!engineRuns s tile && !ending) then s
    else
      match nextCopy s.now ((getTile s tile).dray.toList.getD ch.val []) with
      | none => s
      | some c => if c.tpl.kind = 2 then storageSegment s tile ch c else runSegment s tile ch c)

/-- The copy and the segment bytes that a command identifier of a channel names. -/
def storageCopy (s : State) (tile : Nat) (ch : Fin 4) (cid : Nat) : Option (Copy × Nat) :=
  ((getTile s tile).dray.toList.getD ch.val []).findSome? (fun c => (c.outstanding.find? (fun o => o.1 == cid)).map (fun o => (c, o.2)))

/-- A failing segment ends its copy; segments issued before it still land. -/
def storageFail (s : State) (tile : Nat) (ch : Fin 4) (c : Copy) (cid code : Nat) : State :=
  let before := c.outstanding.takeWhile (fun o => !(o.1 == cid))
  let coming := (before.map (·.2)).sum
  let left := if c.settled then (c.outstanding.map (·.2)).sum - coming else copyLeft s tile c - coming
  let s1 := tellCoach (engineFail s tile c.tpl.bar code left 7) c code
  if before.isEmpty then endCopy s1 tile ch.val c
  else modCopy s1 tile ch.val c (fun x =>
    { x with
      outstanding := before
      cancelled := true
      settled := true
      active := false })

/-- The number of the segment that a command identifier names: the latest one issued that has it. -/
def segmentNumber (c : Copy) (cid : Nat) : Nat := c.issued - 1 - (c.issued + 2 ^ 14 - 1 - cid % 2 ^ 14) % 2 ^ 14

/-- A segment of a carriage has landed: the bits of its stash lines are set, its piece counts, and the fetch goes on (03 R95, 07 R200). -/
def carriageLands (s : State) (c : Copy) (cid bytes : Nat) : State :=
  match c.carriage with
  | some (i, j) =>
    let segment := segmentNumber c cid
    let at_ := c.dstBase.toNat - ((((s.coaches[i]?).bind (fun k => k.carriages[j]?)).map (·.devAddr)).getD 0) + 4096 * segment
    soon (modCarriage (fillStashes s (c.dstBase.toNat + 4096 * segment) bytes) i j (fun k => { k with landed := k.landed ++ [at_] })) [.carriagePiece i j at_ []]
  | none => s

/-- STORAGE_COMPLETION: the head moves past the entry, and the segment lands or fails. -/
def execStorageCompletion (tile : Nat) (ch : Fin 4) (cid : Nat) (statusOk : Bool) (s : State) : Out :=
  event (
    let part := partOfDie s (tile / 128)
    let n := 2 ^ storageQlog s part
    let (tail, head, phase) := s.host.storageRun.get (0, 0, true) part
    let head' := (head + 1) % n
    match storageCopy s tile ch cid with
    | none => s
    | some (c, bytes) =>
      let s1 := { s with
        host := { s.host with storageRun := s.host.storageRun.set part (tail, head', if head' = 0 then !phase else phase) }
        busOut := s.busOut ++ [.write (BitVec.ofNat 64 (storageField s part 3)) (leBytes 4 head')] }
      if !statusOk then storageFail s1 tile ch c cid 0x14
      else
        let e : Engine := { unit := drayUnit tile ch.val, tile := tile, ctx := c.ctx, run := c.run }
        let s2 := carriageLands (barUpdate (fillLines s1 tile (linesOfSpan s1 e (c.dstBase.toNat + 4096 * segmentNumber c cid) bytes)) tile c.tpl.bar (.land bytes)) c cid bytes
        let c1 := { c with outstanding := c.outstanding.filter (fun o => !(o.1 == cid)), done := c.done + bytes }
        if c1.outstanding.isEmpty && !c.active && (c.cancelled || decide (c.element = elementCount c.tpl)) then endCopy s2 tile ch.val c
        else modCopy s2 tile ch.val c (fun _ => c1))

/-- STORAGE_TIMEOUT: REMOTE_GONE, and the block's V is cleared. -/
def execStorageTimeout (tile : Nat) (ch : Fin 4) (cid : Nat) (s : State) : Out :=
  event (
    let part := partOfDie s (tile / 128)
    match storageCopy s tile ch cid with
    | none => s
    | some (c, _) =>
      let blk := s.host.storage.get (Vector.replicate 8 0) part
      let off := blk.mapIdx (fun i w => if i = 5 then w &&& ~~~(0x10000 : Word) else w)
      storageFail { s with host := { s.host with storage := s.host.storage.set part off } } tile ch c cid 0x0A)

end Sys2Proof.Machine
end

