-- ==== Sys2Proof/Machine/Streams.lean ====
section
/-!
DEFINITION. Streams: binding, unbinding, position, and the transfers of the tile's stream unit (05 R153, 15 R371-R373).
-/
namespace Sys2Proof.Machine

/-- A pattern record (15 R371): base, output mark, dimensions; `none` when it breaks a limit. -/
def patternRecord (b : List Byte) : Option (Nat × Bool × List (Nat × Int)) :=
  let base := fieldAt b 0 4
  let f := fieldAt b 4 1
  let nd := bits f 2 1 + 1
  let dims := (List.range nd).map (fun k => (fieldAt b (8 + 4 * k) 2, sext (fieldAt b (10 + 4 * k) 2) 16))
  if base % 64 = 0 && decide (f < 8) && zeroAt b 5 3 && dims.all (fun d => decide (1 ≤ d.1)) && zeroAt b (8 + 4 * nd) (24 - 4 * nd) then
    some (base, f.testBit 0, dims)
  else none

/-- The pool line of the last group that an output stream has written, if it has written any. -/
def lastLine (st : Stream) : Option Nat :=
  if st.moved = 0 then none else (patternOffset st.base st.dims (st.moved - 1)).map (fun o => o.toNat / 128)

/-- Whether the last line of an output stream still awaits its full/empty bit: its pattern has not ended (15 R373). -/
def lineOpen (st : Stream) : Bool := st.bound && st.out && decide (0 < st.moved) && decide (st.moved < patternLength st.dims)

/-- The end of a stream's binding; an output stream's buffer is empty by then. -/
def unbound (s : State) (a : Agent) (q : Nat) : State :=
  let st := streamOf (getAgent s a) q
  let s1 := if lineOpen st then (match lastLine st with
    | some l => setFull s (agentTile a) l
    | none => s) else s
  modAgent s1 a (fun t => setStream t q (fun _ => {}))

/-- UNBIND: an output stream stalls until its buffer is empty. -/
def unbindStream (q : Nat) : Exec Unit := do
  let a ← theAgent
  let t ← self
  let st := streamOf t q
  if !st.bound then pure ()
  else if st.out && !st.buffer.isEmpty then stall
  else update (fun s => unbound s a q)

/-- The form of a STRM word: N above 7 is reserved; no courier executes it. -/
def strmForm (xs : List (BitVec 5)) (n : BitVec 5) : Strand → Form :=
  fun _ => { xs := xs, courier := false, reserved := decide (8 ≤ n.toNat) }

/-- strm.bind: record checked first, then a bound qN is unbound, then the binding with position 0. -/
def execStrmBind (d a : BitVec 5) (s : State) : Out :=
  issue (strmForm [a] d) (do
    let ag ← theAgent
    let va ← getX a
    let s ← theState
    let q := d.toNat % 8
    if !(bits va.toNat 63 57 = 0) then raise 0x05 0x02 0 va
    if !(va.toNat % 32 = 0) then raise 0x03 0 0 va
    if !(inWindow va.toNat && inScratch (getTile s (agentTile ag)) (va.toNat - windowBase) 32) then raise 0x04 0x03 0 va
    let off := va.toNat - windowBase
    poolSound 0 va (agentTile ag) off 32
    match patternRecord (poolRead s (agentTile ag) off 32) with
    | none => illegalOperand
    | some (base, out, dims) =>
      unbindStream q
      setSelf (fun t => setStream t q (fun _ => { bound := true, out := out, recOffset := off, base := base, dims := dims }))
      if out then pure () else eachLane (fun _ => streamWork q) (List.range (min 4 (patternLength dims)))) s

/-- strm.unbind. -/
def execStrmUnbind (d : BitVec 5) (s : State) : Out := issue (strmForm [] d) (unbindStream (d.toNat % 8)) s

/-- strm.pos. -/
def execStrmPos (d b : BitVec 5) (s : State) : Out :=
  issue (strmForm [d] b) (do
    let t ← self
    let st := streamOf t (b.toNat % 8)
    setX d (if st.bound then BitVec.ofNat 64 st.position else BitVec.allOnes 64)) s

/-- An input group read ahead: never while the buffer is full, nor from outside the scratchpad. -/
def inputTransfer (s : State) (n q : Nat) (st : Stream) : State :=
  match patternOffset st.base st.dims st.moved with
  | none => s
  | some off =>
    if 4 ≤ st.buffer.length || decide (patternLength st.dims ≤ st.moved) || !groupReadable (getTile s (n / 16)) off then s
    else
      let g := vecOfBytes (poolRead s (n / 16) off.toNat 64)
      modAgent s (.strand n) (fun t => setStream t q (fun x => { x with buffer := x.buffer ++ [g], moved := x.moved + 1 }))

/-- An output group written: the line it leaves, or ends in, is set full (15 R373). -/
def outputTransfer (s : State) (n q : Nat) (st : Stream) : State :=
  match st.buffer, patternOffset st.base st.dims st.moved with
  | g :: rest, some off =>
    let tile := n / 16
    let line := off.toNat / 128
    let s1 := match lastLine st with
      | some l => if l = line then s else setFull s tile l
      | none => s
    let s2 := poolWrite s1 tile off.toNat (vecBytes g)
    let s3 := modAgent s2 (.strand n) (fun t => setStream t q (fun x => { x with buffer := rest, moved := x.moved + 1 }))
    if st.moved + 1 = patternLength st.dims then setFull s3 tile line else s3
  | _, _ => s

/-- Whether a stream has work for the stream unit; nothing is read ahead for a strand that is to be removed (05 R153, 03 R91). -/
def streamHasWork (s : State) (n : Nat) (st : Stream) : Bool :=
  st.bound && if st.out then !st.buffer.isEmpty
    else !(getAgent s (.strand n)).stopping && decide (st.buffer.length < 4) && decide (st.moved < patternLength st.dims)
      && (patternOffset st.base st.dims st.moved).any (fun off => groupReadable (getTile s (n / 16)) off)

/-- The stream that the unit of a tile serves next: in rotation by strand and then by stream number, after the last one served; its number is
8 x strand + stream (05 R153). -/
def nextStream (s : State) (tile : Nat) : Option Nat :=
  let last := (getTile s tile).lastStream
  ((List.range 128).map (fun i => (last + 1 + i) % 128)).find? (fun k =>
    let n := 16 * tile + k / 8
    s.strands.has n && streamHasWork s n (streamOf (getAgent s (.strand n)) (k % 8)))

/-- STREAM_TRANSFER: the stream unit of the strand's tile moves one group, of the stream whose turn it is, once the tile is not in a change of
gear. -/
def execStreamTransfer (n : Nat) (q : Fin 8) (s : State) : Out :=
  event (
    let tile := n / 16
    if (getTile s tile).changing.isSome then later s [.streamTransfer n q]
    else
      match nextStream s tile with
      | none => s
      | some k =>
        let m := 16 * tile + k / 8
        let st := streamOf (getAgent s (.strand m)) (k % 8)
        let s1 := modTile s tile (fun t => { t with lastStream := k })
        if st.out then outputTransfer s1 m (k % 8) st else inputTransfer s1 m (k % 8) st)

end Sys2Proof.Machine
end

