-- ==== Sys2Proof/Machine/Runs.lean ====
section
/-!
DEFINITION. Starting a run from its launch record, and relaunch (05 R128-R138, 08 R209-R223, R416).
-/
namespace Sys2Proof.Machine

/-! ## The launch record (05 R128-R130, R137; 08 R209, R210) -/

def levelOf (b : List Byte) (k : Nat) : Level :=
  { count := fieldAt b (64 + 16 * k) 4, domain := BitVec.ofNat 3 (fieldAt b (68 + 16 * k) 1), scope := BitVec.ofNat 3 (fieldAt b (69 + 16 * k) 1) }

def bootEntryOf (b : List Byte) (n : Nat) : BootEntry :=
  { size := fieldAt b (200 + 16 * n) 4, share := fieldAt b (204 + 16 * n) 1, trig := fieldAt b (205 + 16 * n) 1 }

/-- A launch record from its 1,024 bytes. -/
def recordOf (b : List Byte) : LaunchRecord :=
  let f := fieldAt b 6 1
  { levels := (List.range (fieldAt b 5 1)).map (levelOf b)
    record := f.testBit 0
    replay := f.testBit 1
    boots := (List.range (fieldAt b 7 1)).map (bootEntryOf b)
    entry := BitVec.ofNat 64 (fieldAt b 8 8)
    stack := fieldAt b 16 4
    args := (List.range 5).map (fun k => BitVec.ofNat 64 (fieldAt b (24 + 8 * k) 8))
    wbBase := fieldAt b 448 8
    wbSize := fieldAt b 456 8
    rlimit := fieldAt b 464 1
    slper := fieldAt b 466 2
    watch := (List.range (fieldAt b 465 1)).map (fun w => (fieldAt b (512 + 16 * w) 8, fieldAt b (520 + 16 * w) 4)) }

/-- Least SCOPE code that a DOMAIN code requires (05 R130). -/
def leastScope (domain : Nat) : Nat := if domain = 5 then 0 else if domain = 4 || domain = 3 then 1 else if domain = 2 then 2 else 3

/-- The limits of a level, given the level above (05 R129, R130). -/
def levelValid (b : List Byte) (nlvl k : Nat) : Bool :=
  let count := fieldAt b (64 + 16 * k) 4
  let domain := fieldAt b (68 + 16 * k) 1
  let scope := fieldAt b (69 + 16 * k) 1
  decide (1 ≤ count) && decide (count ≤ 65535) && decide (domain ≤ 5) && decide (scope ≤ 5) && (decide (k + 1 = nlvl) == decide (domain = 5))
    && (decide (k = 0) || decide (fieldAt b (68 + 16 * (k - 1)) 1 ≤ domain)) && (!(domain = 0) || decide (count = 1))
    && decide (leastScope domain ≤ scope) && zeroAt b (70 + 16 * k) 10

/-- The limits of a boot entry: an ASCII name, zero-padded (05 R137). -/
def bootValid (b : List Byte) (nboot n : Nat) : Bool :=
  let name := (b.drop (192 + 16 * n)).take 8
  let e := bootEntryOf b n
  !(name.headD 0 == 0) && name.all (fun c => decide (c.toNat < 128)) && (name.dropWhile (fun c => !(c == 0))).all (· == 0)
    && e.size % 128 = 0 && decide (128 ≤ e.size) && decide (e.size ≤ 262144) && decide (e.share ≤ 2) && decide (e.trig ≤ 4)
    && (e.trig = 0 || (e.share = 1 && (List.range nboot).all (fun m => m = n || !((bootEntryOf b m).trig = e.trig)))) && zeroAt b (206 + 16 * n) 2

/-- A watched range: aligned, below 2^52, 1 to 2^24 swatches. All of it lies below 2^52, since `Watched ranges lie below 2^52` (08 R209;
DEDUCED, log 49). -/
def watchValid (b : List Byte) (w : Nat) : Bool :=
  let base := fieldAt b (512 + 16 * w) 8
  let len := fieldAt b (520 + 16 * w) 4
  base % 4096 = 0 && decide (base + 4096 * len ≤ 2 ^ 52) && decide (1 ≤ len) && decide (len ≤ 2 ^ 24) && zeroAt b (524 + 16 * w) 4

/-- Whether no two watched ranges overlap. -/
def watchApart (ws : List (Nat × Nat)) : Bool :=
  match ws with
  | [] => true
  | (a, n) :: rest => rest.all (fun r => decide (a + 4096 * n ≤ r.1) || decide (r.1 + 4096 * r.2 ≤ a)) && watchApart rest

/-- Bytes of the waybill region (08 R211). -/
def regionSize (lr : LaunchRecord) : Nat := mapOffset lr 4 + 128 * lr.slper * blockCount lr

/-- The waybill section (08 R209, R210), but for its region's translation. -/
def waybillValid (b : List Byte) : Bool :=
  let lr := recordOf b
  let n := lr.watch.length
  if lr.record then
    decide (1 ≤ n) && decide (n ≤ 16) && (List.range n).all (watchValid b) && zeroAt b (512 + 16 * n) (256 - 16 * n) && zeroAt b 468 44
      && watchApart lr.watch && decide (watchCount lr ≤ 2 ^ 26) && !(lr.replay && decide (lr.slper = 0)) && decide (lr.slper ≤ 1024)
      && lr.wbBase % 4096 = 0 && decide (regionSize lr ≤ lr.wbSize)
  else !lr.replay && zeroAt b 448 320

/-- R130, but for the region's translation. -/
def recordValid (b : List Byte) : Bool :=
  let nlvl := fieldAt b 5 1
  let nboot := fieldAt b 7 1
  let lr := recordOf b
  fieldAt b 0 4 = 0x56434C44 && fieldAt b 4 1 = 1 && decide (1 ≤ nlvl) && decide (nlvl ≤ 8) && decide (fieldAt b 6 1 < 4) && decide (nboot ≤ 16)
    && lr.entry.toNat % 4 = 0 && lr.stack % 128 = 0 && decide (lr.stack ≤ 16384) && zeroAt b 20 4
    && (List.range nlvl).all (levelValid b nlvl) && zeroAt b (64 + 16 * nlvl) (128 - 16 * nlvl) && decide (blockCount lr ≤ 2 ^ 32 - 2)
    && (List.range nboot).all (bootValid b nboot) && zeroAt b (192 + 16 * nboot) (256 - 16 * nboot) && waybillValid b && zeroAt b 768 256

/-- Whether each page of a span translates to memory of this device on which a context holds RD and W (08 R210, R416). -/
def spanHeld (s : State) (ctx : BitVec 32) (va : Nat) (pages : Nat) : Served Bool :=
  match pages with
  | 0 => .ok true s
  | k + 1 =>
    match unitWalk s (2 ^ 25) va with
    | .ok (pte, size) s =>
      let p := place s va size pte
      if p.1 = devnum s && decide (p.2.1 < hbmSize) then
        let (base, count) := grantList s ctx
        match searchGrants s (getCtx s ctx).pdom base 0 count va 4096 with
        | .ok (some e) s1 => if e.rights.toNat &&& 3 = 3 then spanHeld s1 ctx (va + 4096) k else .ok false s1
        | .ok none s1 => .ok false s1
        | .bad _ _ s1 => .ok false s1
        | .busy s1 => .busy s1
      else .ok false s
    | .bad _ _ s => .ok false s
    | .busy s => .busy s

/-- The region of a record that asks for one. -/
def regionHeld (s : State) (ctx : BitVec 32) (lr : LaunchRecord) : Served Bool :=
  if lr.record then spanHeld s ctx lr.wbBase ((regionSize lr + 4095) / 4096) else .ok true s

/-! ## A new run (05 R128, 16 R394) -/

/-- A run identifier that is not in use, from a candidate on; `fuel` bounds the search. -/
def unusedRun (s : State) (fuel cand : Nat) : BitVec 32 :=
  match fuel with
  | 0 => BitVec.ofNat 32 cand
  | k + 1 => if cand % 2 ^ 32 = 0 || s.runs.has (cand % 2 ^ 32) then unusedRun s k (cand + 1) else BitVec.ofNat 32 cand

/-- Zeroes `n` bytes of a run's region from an offset on, 4 KiB at a time. -/
def regionZero (s : State) (run : BitVec 32) (off n : Nat) : State :=
  (List.range ((n + 4095) / 4096)).foldl (fun s k => regionWrite s run (off + 4096 * k) (List.replicate (min 4096 (n - 4096 * k)) 0)) s

/-- The launch's own writes of the region: zero but for W and B, from the status word to the last map (08 R211). -/
def regionInit (s : State) (run : BitVec 32) (lr : LaunchRecord) : State :=
  if !lr.record then s
  else
    let s1 := regionZero s run 0 (mapOffset lr 4)
    setWbWord (regionWrite s1 run 8 (leBytes 8 (watchCount lr) ++ leBytes 8 (blockCount lr))) run 0

/-- A run of `count` blocks from `first` on is started for a context. -/
def startRun (s : State) (ctx : BitVec 32) (lr : LaunchRecord) (first count : Nat) (origin : Origin) : State × BitVec 32 :=
  let run := unusedRun s (s.runs.length + 2) (Config.freeRunId s.free).toNat
  let r : Run := { ctx := ctx, lr := lr, first := first, last := first + count - 1, remaining := count, origin := origin }
  let s1 := { s with free := s.free + 1, runs := s.runs.set run.toNat r }
  (regionInit s1 run lr, run)

/-- The bind records that the SCHED role writes for a run, into FREE slots of the context's partition: PDOM, GEARREQ, FAREACCT, FELTGRANT,
SERVICE and SAVEAREA as the context's descriptor gave them, PRIO, and STATE last (02 R62; 03 R84, R85). Which slots, and the fields that
no rule fixes, are firmware's choice: free values (log 54). -/
def bindRun (s : State) (run : BitVec 32) (prio : BitVec 3) : State :=
  let ctx := (getRun s run).ctx
  let c := getCtx s ctx
  let free := fun (e : Nat × Nat × List Byte) =>
    let st := ((getCluster s e.1).slots.get {} e.2.1).state
    decide (e.1 < 128) && decide (e.2.1 < 128) && partOfCluster s e.1 = c.part && !(st == 1) && !(st == 2)
  let record := fun (b : List Byte) => bindBytes { bindOfBytes (padTo 64 b) with
    ctx := ctx, run := run, pdom := c.pdom, gearReq := BitVec.ofNat 8 (b2n c.gearReq), prio := BitVec.ofNat 8 (prio.toNat + 128 * b2n c.coach),
    fareAcct := c.fareAcct, feltGrant := c.feltGrant, state := 0, reserved := 0, service := BitVec.ofNat 48 (c.service.toNat / 8192),
    saveArea := BitVec.ofNat 48 (c.saveArea.toNat / 4096) }
  soon { s with free := s.free + 1 } (((Config.freeBinding s.free).filter free).flatMap (fun e =>
    [.bindRecordWrite e.1 e.2.1 0 (record e.2.2), .bindRecordWrite e.1 e.2.1 50 [1]]))

/-! ## Relaunch (08 R219-R221) -/

/-- Swatch number of watched swatch `j`. -/
def watchSwatch (watch : List (Nat × Nat)) (j : Nat) : Nat :=
  match watch with
  | [] => 0
  | (base, len) :: rest => if j < len then base / 4096 + j else watchSwatch rest (j - len)

/-- Watched swatches that every dirty map counts as set: those of pages that arming found unmapped, elsewhere or failing (08 R218). -/
def alwaysSet (r : Run) : List Nat :=
  ((r.armed.filter (fun e => e.2.isNone)).flatMap (fun e => numbersFrom (16 * e.1) 16)).filter (fun sw => (watchIndex r.lr.watch sw).isSome)

/-- Swatches whose bits are set in map `k`; in a dirty map, also those that count as set. -/
def mapSwatches (s : State) (run : BitVec 32) (k : Nat) : Served (List Nat) :=
  let lr := (getRun s run).lr
  let w := watchCount lr
  (regionBytes s run (mapOffset lr k) ((w + 7) / 8)).andThen (fun b s1 =>
    .ok (((List.range w).filter (fun j => (b.getD (j / 8) 0).getLsbD (j % 8))).map (watchSwatch lr.watch)
      ++ (if k < 2 then alwaysSet (getRun s run) else [])) s1)

/-- Whether an entry meets a map whose set swatches are given (08 R213). -/
def meets (entry : List Byte) (marked : List Nat) : Bool :=
  if (fieldAt entry 4 1).testBit 1 then !marked.isEmpty
  else
    (List.range (min 14 (fieldAt entry 5 1))).any (fun k =>
      let r := fieldAt entry (16 + 8 * k) 8
      marked.any (fun sw => decide (r / 2 ^ 24 ≤ sw) && decide (sw < r / 2 ^ 24 + r % 2 ^ 24)))

/-- Blocks of a run whose entries pass a test, in increasing index; `n` counts blocks down. -/
def blocksWhere (s : State) (run : BitVec 32) (p : List Byte → Bool) (n : Nat) : Served (List Nat) :=
  match n with
  | 0 => .ok [] s
  | k + 1 =>
    (blocksWhere s run p k).andThen (fun rest s1 =>
      (regionBytes s1 run (0x1000 + 128 * k) 128).andThen (fun e s2 => .ok (if p e then rest ++ [k] else rest) s2))

/-- A relaunch has ended; its completion is released when the region's words are written (08 R212, R220, R221; `regionsOut`). -/
def endRelaunch (s : State) (run : BitVec 32) (origin : Origin) (status code rounds : Nat) : State :=
  modRun s run (fun r => { r with relaunch := none, finishing := some (origin, status, code, rounds) })

/-- The status word with STATE, CODE and ROUNDS. -/
def wbWith (w : Word) (state code rounds : Nat) : Nat := setBits (setBits (setBits w.toNat 63 61 state) 39 32 code) 59 52 rounds

/-- The bytes of map `k`; none when they cannot be read. -/
def mapBytes (s : State) (run : BitVec 32) (k : Nat) : Served (Option (List Byte)) :=
  match regionBytes s run (mapOffset (getRun s run).lr k) ((watchCount (getRun s run).lr + 7) / 8) with
  | .ok b s1 => .ok (some b) s1
  | .bad _ _ s1 => .ok none s1
  | .busy s1 => .busy s1

/-- Bytes ORed into map `k`. -/
def orInto (s : State) (run : BitVec 32) (k : Nat) (bs : List Byte) : State :=
  (List.range ((bs.length + 4095) / 4096)).foldl (fun s i =>
    regionOr s run (mapOffset (getRun s run).lr k + 4096 * i) ((bs.drop (4096 * i)).take 4096)) s

/-- RELAUNCH_ROUND comes again: a read of the region must wait. -/
def relaunchWaits (s : State) (run : BitVec 32) : State := later s [.relaunchRound run]

/-- A relaunch ends on a fault (08 R221): D and the current round map are ORed into the live map. A map that cannot be read makes the next
relaunch re-run every block, as a lost write does (R416; log 20). -/
def faultRelaunch (s : State) (run : BitVec 32) (origin : Origin) (round code : Nat) : State :=
  let live := bits (getRun s run).wbWord.toNat 60 60
  let maps : Served (Option (List Byte) × Option (List Byte)) :=
    (mapBytes s run (1 - live)).andThen (fun d s1 =>
      (if round = 0 then .ok (some []) s1 else mapBytes s1 run (2 + round % 2)).andThen (fun m s2 => .ok (d, m) s2))
  match maps with
  | .ok p s1 =>
    let s2 := orInto (orInto s1 run live (p.1.getD [])) run live (p.2.getD [])
    let s3 := if p.1.isNone || p.2.isNone then modRun s2 run (fun r => { r with wbLost := true }) else s2
    endRelaunch (setWbWord s3 run (wbWith (getRun s3 run).wbWord 4 code round)) run origin 1 code round
  | .bad _ _ s1 => s1
  | .busy s1 => relaunchWaits s1 run

/-- The next round of a relaunch whose `round` rounds are done, over a set (08 R220). -/
def nextRound (s : State) (run : BitVec 32) (origin : Origin) (lim round : Nat) (set : List Nat) : State :=
  let w := (getRun s run).wbWord
  if set.isEmpty then endRelaunch (setWbWord s run (wbWith w 1 0 round)) run origin 0 0 round
  else if lim < round + 1 then endRelaunch (setWbWord s run (wbWith w 3 0x10 round)) run origin 4 0x10 round
  else
    let lr := (getRun s run).lr
    let s1 := regionZero s run (mapOffset lr (2 + (round + 1) % 2)) (up4k ((watchCount lr + 7) / 8))
    let s2 := modRun s1 run (fun r =>
      { r with
        blocks := []
        remaining := set.length
        floor := 0xffffffff
        relaunch := some (set, round + 1, lim, origin) })
    later s2 (boundTokens s2 (fun b => b.run == run))

/-- Whether R219 refuses a relaunch: also while the word that ends RECORDING or RELAUNCHING is still to be written. -/
def relaunchRefused (s : State) (run : BitVec 32) : Bool :=
  let r := getRun s run
  !r.lr.record || wbState r.wbWord = 0 || wbState r.wbWord = 2 || r.arming.isSome || r.finishing.isSome

/-- A relaunch begins: the maps are swapped, and RELAUNCH_ROUND forms the first set (08 R219, R220). The set of a STALE run, and of one that
lost writes of its region, is every block (R220, R416). -/
def beginRelaunch (s : State) (run : BitVec 32) (lim : Nat) (origin : Origin) : State :=
  let s := cleanWatched s run
  let r := getRun s run
  let live := bits r.wbWord.toNat 60 60
  let stale := decide (wbState r.wbWord = 3) || r.wbLost
  let s1 := regionZero (modRun s run (fun r => { r with wbLost := false })) run (mapOffset r.lr (1 - live)) (up4k ((watchCount r.lr + 7) / 8))
  let w := setBits (setBits r.wbWord.toNat 60 60 (1 - live)) 31 0 (bits r.wbWord.toNat 31 0 + 1)
  let limit := if lim = 0 then (if r.lr.rlimit = 0 then 8 else r.lr.rlimit) else lim
  let s2 := modRun s1 run (fun r =>
    { r with
      complete := false
      exited := 0
      killed := 0
      faultCode := 0
      remaining := 0
      relaunch := some (if stale then List.range (blockCount r.lr) else [], 0, limit, origin) })
  relaunchWaits (setWbWord s2 run (setBits w 63 61 2)) run

/-- The set of the round after `round` rounds: every block of a STALE run, else the blocks that D makes run, else those whose entries meet
the round's map (08 R220). -/
def nextSet (s : State) (run : BitVec 32) (round : Nat) (all : List Nat) : Served (List Nat) :=
  let r := getRun s run
  let n := blockCount r.lr
  if round = 0 then
    if !all.isEmpty then .ok all s
    else (mapSwatches s run (1 - bits r.wbWord.toNat 60 60)).andThen (fun marked s1 =>
      blocksWhere s1 run (fun e => !(fieldAt e 4 1).testBit 0 || (fieldAt e 4 1).testBit 1 || meets e marked) n)
  else (mapSwatches s run (2 + round % 2)).andThen (fun marked s1 => blocksWhere s1 run (fun e => meets e marked) n)

/-- RELAUNCH_ROUND: the round's blocks have finished and its writes are acknowledged; or a relaunch begins. -/
def execRelaunchRound (run : BitVec 32) (s : State) : Out :=
  event (
    let r := getRun s run
    match r.relaunch with
    | none => s
    | some (set, round, lim, origin) =>
      if !(r.remaining = 0) || runBusy s run then s
      else
        let s := cleanWatched s run
        if !(getRun s run).parked.isEmpty || !(getRun s run).ending.isEmpty then relaunchWaits s run
        else if !(r.faultCode = 0) then faultRelaunch s run origin round r.faultCode.toNat
        else
          match nextSet s run round set with
          | .busy s1 => relaunchWaits s1 run
          | .bad code _ s1 => faultRelaunch s1 run origin round code
          | .ok set s1 => nextRound s1 run origin lim round set)

end Sys2Proof.Machine
end

