-- ==== Sys2Proof/Machine/System.lean ====
section
/-!
DEFINITION. SYS, CSR, GEAR, MSG and WORK (16 R379-R396).
-/
namespace Sys2Proof.Machine

/-! ## SYS (16 R379-R382) -/

/-- sysc: the call's argument and destination go with the fault. -/
def execSysc (d a : BitVec 5) (c : BitVec 12) (s : State) : Out :=
  issue (noCourier [d, a]) (do
    let x ← getX a
    fun _ => .error (.fault { faultInfo 0x0D c.toNat 0 x 0 with dest := d })) s
/-- brk. -/
def execBrk (c : BitVec 12) (s : State) : Out := issue (noCourier []) (raise 0x0E c.toNat) s

/-- The bound-name map of an ACCLEAK (05 R152). -/
def boundNames (t : Strand) : Nat :=
  ((List.range 16).map (fun n => match t.a.toList.getD n none with
    | some x => x.banks.length / 8 * 16 ^ n
    | none => 0)).sum

/-- The form of a word that names no register and that any agent may execute. -/
def plainForm : Strand → Form := fun _ => {}

/-- exit: a leak of accumulator names first, then the streams, then the end (05 R136, R152). -/
def execExit (s : State) : Out :=
  issueState plainForm (do
    let a ← theAgent
    let t ← self
    if t.a.toList.any Option.isSome then raise 0x0B 0 0 0 (boundNames t)
    eachLane unbindStream (List.range 8)
    let s ← theState
    pure (endActivation s a 0)) s

/-- The issuing agent's state as a completed instruction leaves it, before time passes. -/
def completed (s : State) : State := noteIssue (leaveDoze (modMe s (fun t => consume t (t.pc + 4))) (me s).dozing s.cur)

/-- yield: the strand issues nothing until each other strand of its core that can issue has issued once. -/
def execYield (s : State) : Out :=
  issueState (noCourier []) (do
    let a ← theAgent
    let s ← theState
    let s1 := completed s
    match a with
    | .strand n =>
      let others := (List.range 4).filterMap (fun k =>
        let m := 4 * (n / 4) + k
        let t := s.strands.get {} m
        if m = n || decide (t.act = .free) || !(decide (t.status = .ready)) then none else some m)
      pure (if others.isEmpty then s1 else modCore s1 (n / 4) (fun u => { u with yields := u.yields ++ [(n, others)] }))
    | .courier _ => pure s1) s

/-! ## The mailbox (16 R383, R384) -/

/-- The checks of a mailbox address: RD, W and A over its header, in translated memory. -/
def mailboxCheck (va : Word) : Exec Target := do
  if inWindow va.toNat then raise 0x04 0x03 2 va
  let t ← check kAmo va 8
  match t with
  | .global _ =>
    match ← depotPlace 2 va with
    | some _ => raise 0x04 0x01 2 va
    | none => pure t
  | _ => raise 0x04 0x01 2 va

/-- The 8 bytes of a mailbox word as the cluster sees them. -/
def mailboxWord (va : Word) : Exec Nat := do
  let v ← granule 2 va
  pure (ofBytes (((vecBytes v).drop (va.toNat % 64)).take 8))

/-- One atomic step that replaces a mailbox word by another; whether it took place. A remote mailbox takes a compare-and-swap packet,
whose comparand the agent keeps. -/
def mailboxSwap (va : Word) (t : Target) (old new : Nat) : Exec Bool := do
  let (dev, pa, key) ← homeOf kAmo va
  let s ← theState
  if dev = devnum s then do
    let w ← rmwLocal kAmo va 8 t (fun w => if w = old then some new else none) false
    pure (decide (w = old))
  else do
    let u ← self
    if u.replyValue.isNone then setSelf (fun t => { t with sysValue := some (BitVec.ofNat 64 old) })
    let w ← amoRemote dev pa key va 9 8 new old false true
    pure (decide (u.sysValue = some (BitVec.ofNat 64 w)))

/-- A mailbox word after one more claim. -/
def claimNext (w : Nat) : Nat := setBits w 63 32 (bits w 63 32 + 1)

/-- svc.recv. -/
def execSvcRecv (d a : BitVec 5) (s : State) : Out :=
  issue (noCourier [d, a]) (do
    let va ← getX a
    canonical 2 va
    if !(va.toNat % 8192 = 0) then raise 0x03 0 2 va
    let t ← mailboxCheck va
    let u ← self
    let old ← (match u.replyValue, u.sysValue with
      | some _, some x => pure x.toNat
      | _, _ => mailboxWord va)
    if bits old 31 0 = bits old 63 32 then stall
    let won ← mailboxSwap va t old (claimNext old)
    if won then setX d (va + 128 + BitVec.ofNat 64 (64 * (bits old 63 32 % 64)))
    else do
      setSelf (fun t => { t with replyValue := none, sent := false })
      stall) s

/-- The mailbox and slot of a message address whose BUSY bit is set, and the message. -/
def busySlot (va : Word) : Exec (Word × Nat × List Byte) := do
  let off := va.toNat % 8192
  let mb : Word := BitVec.ofNat 64 (va.toNat - off)
  canonical 2 va
  if off < 128 || decide (128 + 64 * 64 ≤ off) || !(off % 64 = 0) then illegalOperand
  let _ ← mailboxCheck mb
  let busy ← mailboxWord (mb + 8)
  if !(busy.testBit ((off - 128) / 64)) then illegalOperand
  let m ← granule 2 va
  pure (mb, (off - 128) / 64, vecBytes m)

/-- The reply that a message's poster gets, as an event inside the package. -/
def replyFor (mb : Word) (msg : List Byte) (disp : Nat) (v : Word) : FaultReply :=
  { mailbox := mb, seq := BitVec.ofNat 32 (fieldAt msg 56 4), disp := BitVec.ofNat 8 disp, poster := BitVec.ofNat 16 (fieldAt msg 32 2),
    posterFlags := BitVec.ofNat 8 (fieldAt msg 38 1), value := v, from? := none }

/-- Clears a slot's BUSY bit at the mailbox's home: at its depot, or by an AMO packet whose answer nothing waits for. -/
def clearBusy (s : State) (mb : Word) (slot : Nat) : Served Unit :=
  match walk s mb.toNat with
  | .fault code sub _ => .bad code sub s
  | .mig _ _ => .busy s
  | .bad g =>
    let r := nodeFault s g
    .bad r.1 r.2.1 r.2.2
  | .busy g =>
    match settle s g none with
    | .ok _ s1 => .busy s1
    | .bad code sub s1 => .bad code sub s1
    | .busy s1 => .busy s1
  | .ok dev pa key _ _ =>
    if dev = devnum s then
      match depotRead s (pa / 64) key with
      | .bad code sub s1 => .bad code sub s1
      | .busy s1 => .busy s1
      | .ok head s1 =>
        let busy := fieldAt (vecBytes head) 8 8
        depotWrite s1 (pa / 64) key (vecOfBytes (patch (vecBytes head) 8 (leBytes 8 (busy - bits busy slot slot * 2 ^ slot)))) 0xFF00 0
    else
      .ok () (sendRequest s dev none .message (mb + 8) 0 0x04
        (requestWord s dev (pa + 8) 0 key 3 false false ++ amoBody 1 8 (2 ^ 64 - 1 - 2 ^ slot) 0)).1

/-- The body of a REPLY packet (06 R184). -/
def replyPacketBody (r : FaultReply) : List Byte :=
  leBytes 8 r.mailbox.toNat ++ leBytes 4 r.seq.toNat ++ [r.disp, 0] ++ leBytes 2 r.poster.toNat ++ [r.posterFlags] ++ List.replicate 7 0 ++ leBytes 8 r.value.toNat

/-- The form of SVC.RESUME: dispositions above 2 are reserved (16 R384). -/
def resumeForm (d a : BitVec 5) (c : BitVec 12) : Strand → Form := fun _ => { xs := [d, a], courier := false, reserved := decide (3 ≤ c.toNat) }

/-- svc.resume: a release at DOMAIN scope; the BUSY bit is cleared when the reply has been delivered. -/
def execSvcResume (d a : BitVec 5) (c : BitVec 12) (s : State) : Out :=
  issue (resumeForm d a c) (do
    waitAcks
    let va ← getX a
    let v ← getX d
    let ag ← theAgent
    let (mb, slot, msg) ← busySlot va
    let r := replyFor mb msg c.toNat v
    let dev := fieldAt msg 36 2
    update (fun s =>
      if dev = devnum s then later s [.reply r]
      else if dev ∈ s.ostler.gone || !hasRoute s dev || decide (fieldAt msg 0 1 = 0x0C) then
        match clearBusy s mb slot with
        | .ok _ s1 => s1
        | .bad _ _ s1 => s1
        | .busy s1 => later s1 [.reply r]
      else (sendRequest s dev none (.replyMsg mb slot) mb (agentCtx s ag) 0x15 (replyPacketBody r)).1)) s

/-- svc.kill: the kill starts here or on the message's device, the BUSY bit is cleared. -/
def execSvcKill (a : BitVec 5) (s : State) : Out :=
  issue (noCourier [a]) (do
    let va ← getX a
    let ag ← theAgent
    let (mb, slot, msg) ← busySlot va
    let dev := fieldAt msg 36 2
    let ctx : BitVec 32 := BitVec.ofNat 32 (fieldAt msg 4 4)
    served 2 va (fun s => clearBusy s mb slot)
    update (fun s =>
      if dev = devnum s then later s [.kill ctx]
      else (sendRequest s dev none .killReq 0 (agentCtx s ag) 0x14 (leBytes 4 ctx.toNat ++ List.replicate 4 0)).1)) s

/-- REPLY: the poster that waits for the message acts on it; the BUSY bit of a message of this device is cleared, a packet is
acknowledged (16 R384, 06 R184). -/
def execReply (r : FaultReply) (s : State) : Out :=
  event (
    let deliver := fun (s : State) => match posterAgent s r.poster.toNat (r.posterFlags.getLsbD 0) with
      | some a => deliverReply s a r.mailbox r.seq r.disp r.value
      | none => s
    match r.from? with
    | some p => acknowledge (deliver s) p [] 0 0 0 0
    | none =>
      if r.mailbox = 0 then deliver s
      else
        match clearBusy s r.mailbox (r.seq.toNat % 64) with
        | .ok _ s1 => deliver s1
        | .bad _ _ s1 => deliver s1
        | .busy s1 => later s1 [.reply r])

/-! ## CSR (16 R385, R386; 11 R267) -/

/-- LVLk of an agent (05 R132). -/
def lvlWord (lr : LaunchRecord) (block k : Nat) : Nat :=
  match lr.levels[k]? with
  | none => 0
  | some l =>
    let below := ((lr.levels.drop (k + 1)).map (·.count)).foldl (· * ·) 1
    l.domain.toNat * 2 ^ 36 + l.scope.toNat * 2 ^ 32 + l.count * 2 ^ 16 + block / below % l.count

/-- The strand number within its core whose copies an agent sees. -/
def agentStrand (a : Agent) : Nat :=
  match a with
  | .strand n => n % 4
  | .courier _ => 0

/-- The run CSRs 0x200 to 0x2FF; `none` for one that R132 does not name. -/
def runCsr (s : State) (a : Agent) (n : Nat) : Option Nat :=
  let lr := (getRun s (agentRun s a)).lr
  let ctx := agentCtx s a
  let t := getTile s (agentTile a)
  if n < 0x208 then some (lvlWord lr (agentBlock s a) (n - 0x200))
  else if n = 0x208 then some (agentBlock s a)
  else if n = 0x209 then some (agentRun s a).toNat
  else if n = 0x20A then some (getCtx s ctx).service.toNat
  else if 0x210 ≤ n ∧ n < 0x220 then
    some (match bootAt t lr (n - 0x210) (agentCore a % 4) (agentStrand a) with
      | some (off, _) => windowBase + off
      | none => 0)
  else if n = 0x220 then some (windowBase + scratchAt t lr)
  else if n = 0x221 then some (match t.mcap.find? (fun e => e.1 == ctx) with
    | some (_, c) => c.toNat
    | none => 0)
  else if n = 0x222 then some ((((getCore s (agentCore a)).dropped.find? (fun d => d.1 == agentRun s a)).map (fun d => d.2.toNat)).getD 0)
  else none

/-- STRMCFG (15 R372). -/
def strmCfg (st : Stream) : Nat :=
  if st.bound then 2 ^ 63 + b2n st.out * 2 ^ 62 + (st.dims.length - 1) * 2 ^ 60 + st.recOffset / 32 else 0

/-- GEARSTAT (04 R124). -/
def gearStat (s : State) (a : Agent) (t : Strand) : Nat :=
  let tile := agentTile a
  let r := (getDie s (tile / 128)).replays.get (0, 0) (physTile s tile)
  (r.1 + r.2).toNat * 2 ^ 32 + b2n (getTile s tile).doze * 4 + b2n (decide ((getTile s tile).gear = .gallop)) * 2 + b2n t.gearReq

/-- DOMAIN (06 R160). -/
def domainWord (c : Context) : Nat := c.pdom.toNat * 2 ^ 48 + c.glBase % 2 ^ 32 * 2 ^ 12 + c.glCount % 2 ^ 12

/-- A CSR's value; `none` where the access raises ILLEGAL, sub-code CSR. -/
def csrValue (s : State) (a : Agent) (n : Nat) : Option Nat :=
  let t := getAgent s a
  let tile := getTile s (agentTile a)
  if isCourier a && !(n = 1) && !(decide (0x200 ≤ n) && decide (n < 0x300)) then none
  else if n = 0x001 then some t.fcsr.toNat
  else if n = 0x002 then some (t.xlCount * 2 ^ 62 + t.xlBits.toNat)
  else if n = 0x010 then some (s.now % 2 ^ 64)
  else if n = 0x011 then some t.fare.toNat
  else if n = 0x020 then some (gearStat s a t)
  else if 0x100 ≤ n ∧ n < 0x110 then some (t.pshape.toList.getD (n - 0x100) 0).toNat
  else if 0x120 ≤ n ∧ n < 0x128 then some (strmCfg (streamOf t (n - 0x120)))
  else if 0x200 ≤ n ∧ n < 0x300 then runCsr s a n
  else if n = 0x300 then some tile.pbLo
  else if n = 0x301 then some tile.pbMid
  else if n = 0x302 then some tile.pbHi
  else if n = 0x303 then some (domainWord (getCtx s (agentCtx s a)))
  else none

/-- A PSHAPE as it is stored (15 R350). -/
def shapeStored (v : Nat) : Word := BitVec.ofNat 64 (bits v 63 32 * 2 ^ 32 + min (bits v 14 8) 64 * 2 ^ 8 + min (bits v 3 0) 8)

/-- Privilege of a CSR access (03 R81, 16 R386). -/
def csrPriv (ostler write : Bool) (n : Nat) : Bool :=
  !ostler && ((decide (0x300 ≤ n) && decide (n < 0x400) && (write || decide (0x304 ≤ n))) || (write && decide (n = 2)))

/-- A write of a CSR (11 R267, 16 R386). -/
def csrStore (n v : Nat) : Exec Unit := do
  let a ← theAgent
  let s ← theState
  let tile := agentTile a
  if isCourier a && !(n = 1) then raise 0x01 0x05
  else if n = 1 then
    if 5 ≤ bits v 7 5 then raise 0x01 0x05 else setSelf (fun t => { t with fcsr := BitVec.ofNat 9 v })
  else if n = 2 then
    if bits v 63 62 = 3 then illegalOperand
    else setSelf (fun t => { t with xlCount := bits v 63 62, xlBits := BitVec.ofNat 48 v })
  else if 0x100 ≤ n ∧ n < 0x110 then
    setSelf (fun t => { t with pshape := t.pshape.mapIdx (fun i x => if i = n - 0x100 then shapeStored v else x) })
  else if n = 0x300 then update (fun s => modTile s tile (fun t => { t with pbLo := v % 2 ^ 16 }))
  else if n = 0x301 then update (fun s => modTile s tile (fun t => { t with pbMid := v % 2 ^ 16 }))
  else if n = 0x302 then update (fun s => modTile s tile (fun t => { t with pbHi := v % 2 ^ 16 }))
  else if n = 0x303 then
    update (fun s' => modCtx s' (agentCtx s a) (fun c => { c with pdom := BitVec.ofNat 16 (bits v 63 48), glBase := bits v 43 12, glCount := bits v 11 0 }))
  else raise 0x01 0x05

/-- The form of a CSR instruction. -/
def csrAccess (n : BitVec 12) (xs : List (BitVec 5)) (write : Bool) : Strand → Form := fun _ => { xs := xs, priv := csrPriv false write n.toNat }

/-- A CSR instruction: the old value, the check of a write, and the write; what it leaves is the state of a completed instruction, in
which XL stands as the write loaded it. -/
def csrForm (n : BitVec 12) (xs : List (BitVec 5)) (write : Bool) (d : BitVec 5) (new : Nat → Exec Nat) (s : State) : Out :=
  issueState (csrAccess n xs write) (do
    let a ← theAgent
    let s ← theState
    match csrValue s a n.toNat with
    | none => raise 0x01 0x05
    | some old => do
      let v ← new old
      if write then csrStore n.toNat (v % 2 ^ 64)
      let t ← self
      setX d (BitVec.ofNat 64 old)
      let s1 ← theState
      let s2 := completed s1
      pure (if write && decide (n = 2) then modMe s2 (fun u => { u with xlCount := t.xlCount, xlBits := t.xlBits }) else s2)) s

/-- csrr. -/
def execCsrr (d : BitVec 5) (n : BitVec 12) (s : State) : Out := csrForm n [d] false d (fun old => pure old) s
/-- csrw. -/
def execCsrw (d a : BitVec 5) (n : BitVec 12) (s : State) : Out :=
  csrForm n [d, a] true d (fun _ => do
    let x ← getX a
    pure x.toNat) s
/-- csrs: with a = 0 a read. -/
def execCsrs (d a : BitVec 5) (n : BitVec 12) (s : State) : Out :=
  csrForm n [d, a] (!(a = 0)) d (fun old => do
    let x ← getX a
    pure (old ||| x.toNat)) s
/-- csrc: with a = 0 a read. -/
def execCsrc (d a : BitVec 5) (n : BitVec 12) (s : State) : Out :=
  csrForm n [d, a] (!(a = 0)) d (fun old => do
    let x ← getX a
    pure (old &&& (2 ^ 64 - 1 - x.toNat))) s

/-! ## GEAR (16 R387) -/

/-- gear. -/
def execGear (d : BitVec 5) (g : BitVec 1) (s : State) : Out :=
  issue (noCourier [d]) (do
    let a ← theAgent
    let t ← self
    setX d (BitVec.ofNat 64 (b2n t.gearReq))
    setSelf (fun t => { t with gearReq := decide (g = 1) })
    update (fun s => gearCheck s (agentTile a))) s

/-! ## MSG (16 R388-R392) -/

/-- Fields of a target word (16 R389): device, line, slot, core. -/
structure MsgTarget where
  dev : Nat
  line : Nat
  slot : Nat
  core : Nat

def targetOf (w : Nat) : MsgTarget := { dev := bits w 44 32, line := bits w 31 18, slot := bits w 17 16, core := bits w 13 2 }

/-- Reserved bits of a target word; SLOT and LINE are zero outside SEND. -/
def targetBad (w : Nat) (send : Bool) : Bool :=
  !(bits w 63 45 = 0) || !(bits w 15 14 = 0) || !(bits w 1 0 = 0) || (!send && !(bits w 31 16 = 0))

/-- Messages in a core's inbox (05 R134). -/
def inboxUsed (u : CoreUnit) : Nat := u.inbox.length + u.held.length

/-- What a target core does with a SEND: it holds it, refuses it with a code and a sub-code, or has no room yet. -/
inductive SendRes where
  | held (s : State)
  | refused (code sub : Nat)
  | full

/-- A SEND at its target core (16 R390); `ctx` is the sender's context when it is of this device. -/
def sendArrives (s : State) (m : MsgTarget) (run : BitVec 32) (ctx : Option (BitVec 32)) (payload : Vec) : SendRes :=
  let tile := m.core / 4
  let t := getTile s tile
  let lr := (getRun s run).lr
  if !hasImage s tile run || ctx.any (fun c => !(c == (getRun s run).ctx)) then .refused 0x0A 0x05
  else
    match (bootOfSlot lr m.slot).bind (fun n => bootAt t lr n (m.core % 4) 0) with
    | none => .refused 0x04 0x03
    | some (off, size) =>
      if size / 128 ≤ m.line then .refused 0x04 0x03
      else if 8 ≤ (getCore s m.core).held.length || decide (32 ≤ inboxUsed (getCore s m.core)) then .full
      else
        let line := off / 128 + m.line
        let addr : Word := BitVec.ofNat 64 (windowBase + 128 * line)
        let s1 := modCore s m.core (fun u => { u with held := u.held ++ [{ run := run, line := addr, payload := payload }] })
        .held (if isFull s1 tile line then s1 else landHeld s1 tile line)

/-- The form of SEND. -/
def sendForm (d a b : BitVec 5) : Strand → Form := fun _ => { xs := [a, b], vs := [d] }

/-- send. -/
def execSend (d a b : BitVec 5) (s : State) : Out :=
  issue (sendForm d a b) (do
    let ag ← theAgent
    let w ← getX a
    let r ← getX b
    let v ← getV d
    let t ← self
    let s ← theState
    let m := targetOf w.toNat
    if targetBad w.toNat true then illegalOperand
    let own := agentRun s ag
    let run := if r = 0 then own else BitVec.ofNat 32 r.toNat
    if m.dev = devnum s then
      if ostlerTile s (m.core / 4) && !ostlerMode s ag then raise 0x04 0x02 1 w
      else if 2 ^ 32 ≤ r.toNat then raise 0x0A 0x05 1 w m.dev
      else
        match sendArrives s m run (some (agentCtx s ag)) v with
        | .held s1 => update (fun _ => s1)
        | .refused code sub => raise code sub 1 w (if code = 0x0A then m.dev else 0)
        | .full => stall
    else
      match t.replyValue with
      | some _ => pure ()
      | none =>
        if m.dev ∈ s.ostler.gone then raise 0x0A 0x05 1 w m.dev
        else if !hasRoute s m.dev then raise 0x15 0x01 1 w
        else if 0 < t.acks then stall
        else waitIn (awaitRemote s ag m.dev .send w 0x10 (leBytes 8 w.toNat ++ leBytes 4 run.toNat ++ List.replicate 4 0 ++ vecBytes v))) s

/-- A courier message from its 128-byte entry (05 R141), with the tile and tile image of its sender. -/
def courierOf (b : List Byte) (budget tile image : Nat) (tag : Option Packet) : CourierMsg :=
  { budget := budget, nword := fieldAt b 2 1, run := BitVec.ofNat 32 (fieldAt b 4 4), barrier := BitVec.ofNat 64 (fieldAt b 8 8),
    args := (List.range 5).map (fun k => BitVec.ofNat 64 (fieldAt b (16 + 8 * k) 8)),
    words := (List.range (min 16 (fieldAt b 2 1))).map (fun k => BitVec.ofNat 32 (fieldAt b (64 + 4 * k) 4)), senderTile := tile, senderImage := image, senderTag := tag }

/-- A courier message into an inbox. -/
def inboxCourier (s : State) (core : Nat) (m : CourierMsg) : State :=
  later (modCore s core (fun u => { u with inbox := u.inbox ++ [.courier m] })) [.courierStart core]

/-- courier. A packet to another device is answered when the courier ends, so the strand goes on when it has left (DEDUCED, log 37). -/
def execCourier (a b : BitVec 5) (s : State) : Out :=
  issue (xForm [a, b]) (do
    let ag ← theAgent
    let w ← getX a
    let va ← getX b
    let t ← self
    let s ← theState
    let m := targetOf w.toNat
    canonical 0 va
    if isCourier ag && !courierMay s ag va.toNat 128 then raise 0x04 0x01 0 va
    if targetBad w.toNat false then illegalOperand
    if !(va.toNat % 128 = 0) then raise 0x03 0 0 va
    if !(inWindow va.toNat && inScratch (getTile s (agentTile ag)) (va.toNat - windowBase) 128) then raise 0x04 0x03 0 va
    poolSound 0 va (agentTile ag) (va.toNat - windowBase) 128
    let desc := poolRead s (agentTile ag) (va.toNat - windowBase) 128
    let n := fieldAt desc 2 1
    if n = 0 || decide (16 < n) || !zeroAt desc 3 1 || !zeroAt desc 56 8 then illegalOperand
    namedBarrier (BitVec.ofNat 64 (fieldAt desc 8 8))
    let budget := if isCourier ag then t.budget - 1 else 64
    let sent := patch desc 0 [2, BitVec.ofNat 8 budget]
    if m.dev = devnum s then
      if ostlerTile s (m.core / 4) && !ostlerMode s ag then raise 0x04 0x02 0 w
      else if 32 ≤ inboxUsed (getCore s m.core) then stall
      else update (fun s => inboxCourier s m.core (courierOf sent budget (agentTile ag) (imageId s (agentTile ag) (agentRun s ag)) none))
    else if m.dev ∈ s.ostler.gone then raise 0x0A 0x05 0 w m.dev
    else if !hasRoute s m.dev then raise 0x15 0x01 0 w
    else update (fun s =>
      (sendRequest s m.dev none (.courier (agentTile ag) (imageId s (agentTile ag) (agentRun s ag)) (BitVec.ofNat 64 (fieldAt desc 8 8))) w (agentCtx s ag) 0x11
        (leBytes 8 w.toNat ++ sent)).1)) s

/-- Whether a slot belongs to a boot with TRIG set in the issuing run's record. -/
def slotChecked (v : Word) : Exec Unit := do
  let a ← theAgent
  let s ← theState
  if 4 ≤ v.toNat || (bootOfSlot (getRun s (agentRun s a)).lr v.toNat).isNone then illegalOperand

/-- A run's slot on a core gets a handler, or loses it. -/
def setHandler (u : CoreUnit) (run : BitVec 32) (slot : Nat) (h : Option Word) : CoreUnit :=
  { u with handlers := u.handlers.filter (fun e => !(e.1 == run && e.2.1 == slot)) ++ (h.map (fun h => (run, slot, h))).toList }

/-- bind. -/
def execBind (a b : BitVec 5) (s : State) : Out :=
  issue (noCourier [a, b]) (do
    let ag ← theAgent
    let h ← getX a
    let v ← getX b
    if 4 ≤ v.toNat then illegalOperand
    if h = 0 || !(h.toNat % 4 = 0) then raise 0x03 0 0 h
    slotChecked v
    update (fun s => wakeCore (modCore s (agentCore ag) (fun u => setHandler u (agentRun s ag) v.toNat (some h))) (agentCore ag))) s
/-- unbind. -/
def execUnbind (b : BitVec 5) (s : State) : Out :=
  issue (noCourier [b]) (do
    let ag ← theAgent
    let v ← getX b
    slotChecked v
    update (fun s => modCore s (agentCore ag) (fun u => setHandler u (agentRun s ag) v.toNat none))) s

/-! ## WORK (16 R393-R396) -/

/-- The 1,024 bytes of a launch record, read by a strand with RD over all of them. -/
def readRecord (va : Word) : Exec (List Byte) := do
  let a ← theAgent
  let s ← theState
  let v := va.toNat
  if !(bits v 63 57 = 0) then raise 0x05 0x02 0 va
  if !(v % 64 = 0) then raise 0x03 0 0 va
  if inWindow v then raise 0x04 0x03 0 va
  if inOstler v then raise 0x04 (if ostlerMode s a then 1 else 2) 0 va
  if (deepRange s v).isSome || (peerOf s v).isSome then raise 0x04 0x01 0 va
  let _ ← spanRights 0 1 va 1024
  if (← depotPlace 0 va).isSome then raise 0x04 0x01 0 va
  waitAcks
  (List.range 16).foldlM (fun acc k => do
    let g ← granule 0 (va + BitVec.ofNat 64 (64 * k))
    pure (acc ++ vecBytes g)) []

/-- Who takes the completion that an agent's LAUNCH or RELAUNCH names: a barrier of its tile image, or nobody (16 R394, R395). -/
def completionAt (s : State) (a : Agent) (bar : Word) : Origin :=
  if bar = 0 then .none else .barrier (agentTile a) (imageId s (agentTile a) (agentRun s a)) bar

/-- launch. -/
def execLaunch (d a b : BitVec 5) (s : State) : Out :=
  issue (noCourier [d, a, b]) (do
    let ag ← theAgent
    let va ← getX a
    let bar ← getX b
    namedBarrier bar
    let bytes ← readRecord va
    let s ← theState
    let ctx := agentCtx s ag
    let lr := recordOf bytes
    if !recordValid bytes then setX d 0
    else do
      let held ← served 0 va (fun s => regionHeld s ctx lr)
      if !held then setX d 0
      else do
        let s ← theState
        let (s1, run) := startRun s ctx lr 0 (blockCount lr) (completionAt s ag bar)
        update (fun _ => bindRun s1 run (getCtx s1 ctx).prio)
        setX d (BitVec.ofNat 64 run.toNat)) s

/-- relaunch. -/
def execRelaunch (d a b : BitVec 5) (l : BitVec 8) (s : State) : Out :=
  issue (noCourier [d, a, b]) (do
    let ag ← theAgent
    let r ← getX a
    let bar ← getX b
    namedBarrier bar
    let s ← theState
    let run : BitVec 32 := BitVec.ofNat 32 r.toNat
    if decide (2 ^ 32 ≤ r.toNat) || !(s.runs.has run.toNat) || !((getRun s run).ctx == agentCtx s ag) || relaunchRefused s run then setX d 1
    else do
      update (fun s => beginRelaunch s run l.toNat (completionAt s ag bar))
      setX d 0) s

/-- Whether the issuing block's run records. -/
def recording (s : State) (a : Agent) : Bool := (getRun s (agentRun s a)).lr.record

/-- wb.skip: the part of the span at or above swatch 2^40 is dropped. -/
def execWbSkip (a b : BitVec 5) (s : State) : Out :=
  issue (noCourier [a, b]) (do
    let ag ← theAgent
    let x ← getX a
    let n ← getX b
    let s ← theState
    if !recording s ag then pure ()
    else
      let lo := bits x.toNat 56 12
      let hi := min (bits (x + n - 1).toNat 56 12) (2 ^ 40 - 1)
      let len := if n = 0 || decide (hi < lo) then 0 else hi + 1 - lo
      if 2 ^ 24 ≤ len then illegalOperand
      else setSelf (fun t => { t with buffer := { t.buffer with skipStart := if len = 0 then 0 else lo, skipLen := len } })) s

/-- wb.all. -/
def execWbAll (s : State) : Out :=
  issue (noCourier []) (do
    let ag ← theAgent
    let s ← theState
    if recording s ag then setSelf (fun t => { t with buffer := { t.buffer with all := true } }) else pure ()) s

/-! ## Hint, XIMM and MOD words (11 R273, R275-R278) -/

/-- The form of a word that leaves both latches. -/
def lightForm : Strand → Form := fun _ => { ext := true, frm := true, qsel := true, light := true }
/-- The forms of words that fill a latch: a third XIMM, a MOD of a full place or outside its limits fail the latch checks (11 R275, R278). -/
def ximmForm : Strand → Form := fun t => { lightForm t with latch := if 2 ≤ t.xlCount then some 3 else none }
def modFrmForm (r : BitVec 3) : Strand → Form := fun t => { lightForm t with latch := if t.frm.isSome || decide (5 ≤ r.toNat) then some 4 else none }
def modQselForm : Strand → Form := fun t => { lightForm t with latch := if t.qsel.isSome then some 4 else none }

/-- A word that leaves the latches but for what `body` does to them. -/
def lightWord (form : Strand → Form) (body : Exec Unit) (s : State) : Out :=
  issueState form (do
    body
    let s ← theState
    pure (noteIssue (modMe s advance))) s

/-- The form of ILL, whose encoding is reserved for ever (11 R273). -/
def illForm : Strand → Form := fun _ => { reserved := true }

/-- ill. -/
def execIll (_x : BitVec 26) (s : State) : Out := issue illForm (pure ()) s
/-- ximm. -/
def execXimm (p : BitVec 24) (s : State) : Out :=
  lightWord ximmForm (
    setSelf (fun t => { t with xlCount := t.xlCount + 1, xlBits := BitVec.ofNat 48 (t.xlBits.toNat * 2 ^ 24 + p.toNat) })) s
/-- hint nop. -/
def execHintNop (s : State) : Out := lightWord lightForm (pure ()) s
/-- hint taken, hint nottaken. -/
def execHintTaken (_t : BitVec 1) (s : State) : Out := lightWord lightForm (pure ()) s
/-- hint spin. -/
def execHintSpin (_n : BitVec 8) (s : State) : Out := lightWord lightForm (pure ()) s
/-- hint keep. -/
def execHintKeep (s : State) : Out := lightWord lightForm (pure ()) s
/-- mod frm. -/
def execModFrm (r : BitVec 3) (s : State) : Out :=
  lightWord (modFrmForm r) (
    setSelf (fun t => { t with frm := some r })) s
/-- mod qsel. -/
def execModQsel (q : BitVec 4) (s : State) : Out :=
  lightWord modQselForm (
    setSelf (fun t => { t with qsel := some q })) s

end Sys2Proof.Machine
end

