-- ==== Sys2Proof/Machine/FeltOps.lean ====
section
/-!
DEFINITION. The Felt: its instructions, its arrays' command queues, run phases, conversions, saturation (10 R247-R265, 16 R375-R378, 08 R224,
R225).
-/
namespace Sys2Proof.Machine

/-! ## Arrays -/

def getArray (s : State) (k : Nat) : FeltArray := s.felt.toList.getD k {}
def modArray (s : State) (k : Nat) (f : FeltArray → FeltArray) : State := { s with felt := s.felt.mapIdx (fun i x => if i = k then f x else x) }

def toArray (k : Nat) : Fin 8 := ⟨k % 8, Nat.mod_lt _ (by decide)⟩

/-- Arrays of a partition, and the array of its index `k` (02 R76). -/
def arraysPerPart (s : State) : Nat := 8 / partCount s
def arrayOf (s : State) (part k : Nat) : Option Nat := if k < arraysPerPart s then some (part * arraysPerPart s + k) else none

/-- Partition index of an array, as a sample record and a SAT message name it. -/
def arrayIndex (s : State) (g : Nat) : Nat := g % arraysPerPart s

/-- The array that a context names by its partition index, if a bind record grants it (10 R247). -/
def grantedArray (s : State) (ctx : BitVec 32) (k : Nat) : Option Nat :=
  (arrayOf s (getCtx s ctx).part k).filter (fun g => !(getArray s g).withdrawn && (getArray s g).ctx == some ctx)

def slotOf (f : FeltArray) (i : Nat) : Option FeltSlot := f.slots.toList.getD i none
def setSlot (f : FeltArray) (i : Nat) (x : Option FeltSlot) : FeltArray := { f with slots := f.slots.mapIdx (fun j y => if j = i then x else y) }

/-- Bits of the slots for which a test holds. -/
def slotBits (f : FeltArray) (p : FeltSlot → Bool) : Nat :=
  ((List.range 8).map (fun i => if (slotOf f i).any p then 2 ^ i else 0)).sum

/-- The arrays of a Felt die, first of them `k / 4 * 4` (10 R263). -/
def gangOf (k : Nat) : List Nat := numbersFrom (k / 4 * 4) 4

/-- The array that holds the state of an array's run phases: the first of its die's four while both have the same ganged slot active, for a
gang has one state, one status word and one RESULT (10 R263). -/
def gangHead (s : State) (k : Nat) : Nat :=
  let f := getArray s k
  if (slotOf f f.aslot).any (·.gang) && decide ((getArray s (k / 4 * 4)).aslot = f.aslot) then k / 4 * 4 else k

/-- The status word (10 R254), with a RESULT. -/
def feltStatus (f : FeltArray) (result : Nat) : Word :=
  BitVec.ofNat 64 (f.state * 2 ^ 61 + result * 2 ^ 59 + b2n f.haltp * 2 ^ 58 + b2n ((slotOf f f.aslot).any (·.gang)) * 2 ^ 57
    + f.aslot * 2 ^ 54 + slotBits f (fun _ => true) * 2 ^ 46 + slotBits f (·.admissible) * 2 ^ 38 + f.runUs.toNat)

def inPhase (f : FeltArray) : Bool := f.state = 1 || f.state = 2

/-- Whether an array is in a run phase, its gang's or its own. -/
def phaseAt (s : State) (k : Nat) : Bool := inPhase (getArray s (gangHead s k))

/-! ## Images (10 R248-R252) -/

def imageNodes (b : List Byte) : Nat := fieldAt b 6 2
def imageCoefs (b : List Byte) : Nat := fieldAt b 8 4
def imageMuls (b : List Byte) : Nat := fieldAt b 12 2
def imageLength (b : List Byte) : Nat := 64 + 8 * (imageNodes b + imageCoefs b + imageMuls b)
def imageGang (b : List Byte) : Bool := (fieldAt b 5 1).testBit 0

def codeAt (b : List Byte) (off : Nat) : Int := sext (fieldAt b off 2) 16
def nodeAt (i : Nat) : Nat := 64 + 8 * i
def coefAt (b : List Byte) (e : Nat) : Nat := 64 + 8 * (imageNodes b + e)
def mulAt (b : List Byte) (m : Nat) : Nat := 64 + 8 * (imageNodes b + imageCoefs b + m)

def feltCode (c : Int) : Bool := decide (-2048 ≤ c) && decide (c ≤ 2047)

/-- The header's limits (10 R250). -/
def imageHeader (b : List Byte) : Bool :=
  let gang := imageGang b
  let n := imageNodes b
  fieldAt b 0 4 = 0x56434654 && fieldAt b 4 1 = 1 && decide (fieldAt b 5 1 < 2) && decide (1 ≤ n) && decide (n ≤ if gang then 512 else 256)
    && decide (imageCoefs b ≤ n * n) && decide (imageMuls b ≤ if gang then 2048 else 1024) && decide (64 ≤ fieldAt b 14 2)
    && decide (1 ≤ fieldAt b 16 4) && decide (fieldAt b 16 4 ≤ 65535) && zeroAt b 20 44

/-- The tables' limits (10 R251, R252). -/
def imageTables (b : List Byte) : Bool :=
  let n := imageNodes b
  (List.range n).all (fun i =>
    let s := sext (fieldAt b (nodeAt i + 1) 1) 8
    decide (-8 ≤ s) && decide (s ≤ 7) && feltCode (codeAt b (nodeAt i + 2)) && feltCode (codeAt b (nodeAt i + 4)) && zeroAt b (nodeAt i + 6) 2)
  && (List.range (imageCoefs b)).all (fun e =>
    let c := codeAt b (coefAt b e + 4)
    decide (fieldAt b (coefAt b e) 2 < n) && decide (fieldAt b (coefAt b e + 2) 2 < n) && feltCode c && !(c = 0) && zeroAt b (coefAt b e + 6) 2)
  && ((List.range (imageCoefs b)).map (fun e => fieldAt b (coefAt b e) 4)).Nodup
  && (List.range (imageMuls b)).all (fun m =>
    decide (fieldAt b (mulAt b m) 2 < n) && decide (fieldAt b (mulAt b m + 2) 2 < n) && decide (fieldAt b (mulAt b m + 4) 2 < n)
      && feltCode (codeAt b (mulAt b m + 6)))

def gainOf (b : List Byte) (i : Nat) : Nat := fieldAt b (nodeAt i) 1

/-- The margin μ_i in units of 2^-11 (10 R249). -/
def margin (b : List Byte) (i : Nat) : Int :=
  let coefs := (List.range (imageCoefs b)).map (fun e =>
    let row := fieldAt b (coefAt b e) 2
    let col := fieldAt b (coefAt b e + 2) 2
    let c := codeAt b (coefAt b e + 4)
    if !(row = i) then 0 else if col = i then -c else if gainOf b col = 0 then 0 else -(c.natAbs : Int))
  let muls := (List.range (imageMuls b)).map (fun m => if fieldAt b (mulAt b m + 4) 2 = i then -2 * ((codeAt b (mulAt b m + 6)).natAbs : Int) else 0)
  coefs.sum + muls.sum

/-- Every free node has a margin of at least 2^-4. -/
def imageAdmissible (b : List Byte) : Bool := (List.range (imageNodes b)).all (fun i => gainOf b i = 0 || decide (128 ≤ margin b i))

/-- An image with scale exponents and initial values in it (10 R252). -/
def imageWith (image : List Byte) (sigma ic : List Int) : List Byte :=
  (List.range (imageNodes image)).foldl (fun b i =>
    patch (patch b (nodeAt i + 1) (leBytes 1 (wrap 8 (sigma.getD i 0)))) (nodeAt i + 2) (leBytes 2 (wrap 16 (ic.getD i 0)))) image

/-- The image with its current ones. -/
def currentImage (x : FeltSlot) : List Byte := imageWith x.image x.sigma x.ic

/-- The fingerprint: the first 64 bits of the digest, its first byte the most significant (08 R224; DESIGN CHOICE, log 8). -/
def withFingerprint (x : FeltSlot) : FeltSlot := { x with fingerprint := BitVec.ofNat 64 (ofBytesBE ((sha512 (currentImage x)).take 8)) }

/-- The slot that an image makes. -/
def slotFrom (b : List Byte) : FeltSlot :=
  withFingerprint {
    image := b
    sigma := (List.range (imageNodes b)).map (fun i => sext (fieldAt b (nodeAt i + 1) 1) 8)
    ic := (List.range (imageNodes b)).map (fun i => codeAt b (nodeAt i + 2))
    fingerprint := 0
    admissible := imageAdmissible b
    gang := imageGang b }

/-! ## Ends of commands and of run phases -/

/-- One arrival at a command's barrier, with a code when it was refused or failed; with no barrier a refusal is a HW record (16 R376). -/
def feltArrive (s : State) (c : FeltCmd) (code : Nat) : State :=
  if c.barrier = 0 ∧ code = 0 then s
  else arriveAt s (cmdTile s c) c.image c.barrier (if code = 0 then .arrive else .arriveFail code) 9

/-- A refused command that names no barrier writes a record of its array (01 R48; 10 R247; 16 R376). -/
def feltRefused (s : State) (k : Nat) : State := logRecord s { cls := .hw, sub := 9, source := feltSource k }

/-- The strand of a STAT or SETTLE still waits at it. -/
def feltWaits (s : State) (c : FeltCmd) : Bool :=
  let t := s.strands.get {} c.strand
  t.sent && t.pc == c.pc && actRun t.act == c.run

def feltAnswer (s : State) (strand : Nat) (w : Word) : State := modAgent s (.strand strand) (fun t => { t with replyValue := some w })

/-- The array goes on with its queue. -/
def feltNext (s : State) (k : Nat) : State := later s [.feltCommandExecute (toArray k)]

/-- RUNMAX of the active slot in ticks. -/
def runMax (f : FeltArray) : Nat :=
  match slotOf f f.aslot with
  | some x => fieldAt x.image 16 4 * 1000
  | none => 0

/-- A calibration of an array begins (10 R264). -/
def calibrate (s : State) (k : Nat) : State :=
  later (modArray s k (fun f => { f with calibrating := true, startTick := s.now })) [.calibration (toArray k)]

/-- An array that enters IDLE, with those of its gang, after more than 10 ms without calibration recalibrates (10 R264). -/
def idleCalibration (s : State) (k : Nat) : State :=
  (gangOf k).foldl (fun s g =>
    if gangHead s g = k && decide ((getArray s g).lastCal + 10000000 < s.now) && !(getArray s g).calibrating then calibrate s g else s) s

/-- A run phase ends with a RESULT: HOLD, or IDLE where a halt is pending, HOLD is skipped, the context is held for its fares or the array
saturated (10 R253, R265). -/
def endPhase (s : State) (k result : Nat) : State :=
  let f := getArray s k
  let hold := !(result = 3) && !f.haltp && !f.skipHold && !f.ctx.any (fun c => (getCtx s c).held)
  let us := if f.state = 2 then min (s.now - f.startTick) (runMax f) / 1000 else 0
  let f1 := { f with state := if hold then 3 else 0, result := result, haltp := false, skipHold := false, runUs := BitVec.ofNat 16 us,
                     startTick := s.now, runCmd := none, settlers := [] }
  let s1 := modArray s k (fun _ => f1)
  let s2 := f.settlers.foldl (fun s e => feltAnswer s e.1 (feltStatus f1 result)) s1
  let s3 := match f.runCmd with
    | some c => checkRun (feltArrive s2 c 0) c.run
    | none => s2
  feltNext (if hold then later s3 [.holdTimeout (toArray k)] else idleCalibration s3 k) k

/-- HOLD ends. -/
def endHold (s : State) (k : Nat) : State :=
  if (getArray s k).state = 3 then idleCalibration (modArray s k (fun f => { f with state := 0, startTick := s.now })) k else s

/-! ## Commands (10 R252, R255, R263; 16 R376) -/

def feltEngine (s : State) (k : Nat) (c : FeltCmd) : Engine := { unit := feltUnit k, tile := cmdTile s c, ctx := c.ctx, run := c.run }

/-- The RD check of a table read (06 R161), on the issuing core. -/
def feltRights (s : State) (c : FeltCmd) (va n : Nat) : Served Unit :=
  if inWindow va then .ok () s
  else
    match plbLookup s (c.strand / 4) c.ctx va n with
    | .ok (some e) s1 => if e.rights.toNat &&& 1 = 1 then .ok () s1 else .bad 0x04 0x01 s1
    | .ok none s1 => .bad 0x04 0x01 s1
    | .bad code sub s1 => .bad code sub s1
    | .busy s1 => .busy s1

/-- `n` bytes read by an array from an address on. -/
def feltRead (s : State) (k : Nat) (c : FeltCmd) (va n : Nat) : Served (List Byte) :=
  match feltRights s c va n with
  | .bad code sub s1 => .bad code sub s1
  | .busy s1 => .busy s1
  | .ok _ s1 =>
    match engineLoads s1 (feltEngine s1 k c) ((granuleParts (n / 64 + 2) va (List.replicate n 0)).map (fun p => (p.1, p.2.length))) with
    | .ok parts s2 => .ok parts.flatten s2
    | .bad code sub s2 => .bad code sub s2
    | .busy s2 => .busy s2

/-- The command at the head of an array's queue has been taken. -/
def popCmd (s : State) (k : Nat) : State :=
  feltNext (modArray (clearPieces s (feltUnit k)) k (fun f => { f with queue := f.queue.drop 1 })) k

/-- It ends with an arrival. -/
def cmdDone (s : State) (k : Nat) (c : FeltCmd) (code : Nat) : State :=
  checkRun (if c.barrier = 0 ∧ !(code = 0) then feltRefused (popCmd s k) k else feltArrive (popCmd s k) c code) c.run

/-- A ganged image leaves all four arrays when a single image goes into its slot of one of them (10 R263). -/
def dropGang (s : State) (k slot : Nat) : State :=
  if (slotOf (getArray s k) slot).any (·.gang) then (gangOf k).foldl (fun s g => modArray s g (fun f => setSlot f slot none)) s else s

/-- The run phases that a command meets end in IDLE, and it waits for them (10 R255). -/
def awaitPhases (s : State) (heads : List Nat) : State := heads.foldl (fun s g => modArray s g (fun f => { f with skipHold := true })) s

/-- FELT.CFG with its image read. -/
def feltLoad (s : State) (k : Nat) (c : FeltCmd) (slot : Nat) (b : List Byte) : State :=
  let gang := imageGang b
  let granted := (gangOf k).all (fun g => grantedArray s c.ctx (arrayIndex s g) == some g)
  if gang && (!(k % 4 = 0) || !granted) then cmdDone s k c 0x01
  else
    let targets := if gang then gangOf k else [k]
    let meets := (targets.filter (fun g => phaseAt s g && decide ((getArray s g).aslot = slot))).map (gangHead s)
    if !meets.isEmpty then feltNext (awaitPhases s meets) k
    else
      let s1 := targets.foldl (fun s g => if (getArray s g).aslot = slot then endHold s (gangHead s g) else s) s
      let s2 := targets.foldl (fun s g => dropGang s g slot) s1
      let s3 := modArray s2 k (fun f => { f with loaded := f.loaded + b.length })
      cmdDone (targets.foldl (fun s g => modArray s g (fun f => setSlot f slot (some (slotFrom b)))) s3) k c 0

/-- FELT.CFG. -/
def feltCfg (s : State) (k : Nat) (c : FeltCmd) (slot : Nat) (addr : Word) : State :=
  match feltRead s k c addr.toNat 64 with
  | .bad code _ s1 => cmdDone s1 k c code
  | .busy s1 => feltNext s1 k
  | .ok head s1 =>
    if !imageHeader head then cmdDone s1 k c 0x01
    else
      match feltRead s1 k c addr.toNat (imageLength head) with
      | .bad code _ s2 => cmdDone s2 k c code
      | .busy s2 => feltNext s2 k
      | .ok b s2 => if imageTables b then feltLoad s2 k c slot b else cmdDone s2 k c 0x01

/-- FELT.SCALE and FELT.IC: a whole table replaces the values, or nothing. -/
def feltTable (s : State) (k : Nat) (c : FeltCmd) (slot : Nat) (addr : Word) (width : Nat) (lo hi : Int) (put : FeltSlot → List Int → FeltSlot) : State :=
  match slotOf (getArray s k) slot with
  | none => cmdDone s k c 0x01
  | some x =>
    let n := imageNodes x.image
    match feltRead s k c addr.toNat (width * n) with
    | .bad code _ s1 => cmdDone s1 k c code
    | .busy s1 => feltNext s1 k
    | .ok b s1 =>
      let vs := (List.range n).map (fun i => sext (fieldAt b (width * i) width) (8 * width))
      if vs.any (fun v => decide (v < lo) || decide (hi < v)) then cmdDone s1 k c 0x01
      else
        let y := withFingerprint (put x vs)
        cmdDone ((if x.gang then gangOf k else [k]).foldl (fun s g => modArray s g (fun f => setSlot f slot (some y))) s1) k c 0

/-- Whether a command names one of a gang's other three arrays (10 R263). -/
def gangMember (s : State) (k : Nat) : Bool := !(k % 4 = 0) && (slotOf (getArray s k) (getArray s k).aslot).any (·.gang)

/-- FELT.RUN: it waits for run phases that it meets, ends a HOLD, and waits for a calibration (10 R253, R255, R264). -/
def feltRunCmd (s : State) (k : Nat) (c : FeltCmd) (slot : Nat) : State :=
  match slotOf (getArray s k) slot with
  | none => cmdDone s k c 0x01
  | some x =>
    if gangMember s k || (x.gang && !(k % 4 = 0)) then cmdDone s k c 0x01
    else
      let all := if x.gang then gangOf k else [k]
      let meets := all.filter (fun g => inPhase (getArray s g))
      let s1 := all.foldl endHold s
      if !meets.isEmpty then feltNext (awaitPhases s meets) k
      else if all.any (fun g => (getArray s1 g).calibrating) then feltNext s1 k
      else
        let s2 := all.foldl (fun s g => modArray s g (fun f => { f with aslot := slot })) s1
        let s3 := modArray s2 k (fun f => { f with state := 1, result := 0, haltp := false, skipHold := false, runCmd := some c, lastRun := some c, used := (x.sigma, x.ic), startTick := s.now })
        later (popCmd s3 k) [.feltLoadEnd (toArray k)]

/-- FELT.HALT. -/
def feltHalt (s : State) (k : Nat) : State :=
  if inPhase (getArray s k) then modArray s k (fun f => { f with haltp := true }) else endHold s k

/-! ## The sample log (08 R224, R225) -/

def logBase (lr : LaunchRecord) (block : Nat) : Nat := mapOffset lr 4 + 128 * lr.slper * block

/-- Bytes of a log record: its header, and the sample's bytes padded to a multiple of 128 (08 R224; log 53). -/
def logLength (n : Nat) : Nat := 16 + (n + 127) / 128 * 128

/-- Where the next record of a log goes. -/
def logEnd (log : List (Nat × Nat × Nat)) : Nat :=
  match log.getLast? with
  | some (_, off, n) => off + logLength n
  | none => 0

/-- A measured sample becomes record `k`; the records after it are discarded; one that does not fit is not logged and sets NOLOG. -/
def placeSample (s : State) (run : BitVec 32) (block k : Nat) (fp : Word) (bytes : List Byte) : State :=
  match bufferAt s run block with
  | none => s
  | some b =>
    let log := b.log.filter (fun r => decide (r.1 < k))
    let off := logEnd log
    let lr := (getRun s run).lr
    if 128 * lr.slper < off + logLength bytes.length ∨ 255 ≤ log.length then modBuffer s run block (fun b => { b with log := log, nolog := true })
    else
      let record := padTo (logLength bytes.length) (leBytes 8 fp.toNat ++ leBytes 2 k ++ leBytes 2 bytes.length ++ leBytes 4 0 ++ bytes)
      modBuffer (regionWrite s run (logBase lr block + off) record) run block (fun b => { b with log := log ++ [(k, off, bytes.length)] })

/-- Samples that waited for the next one in order are settled; `fuel` bounds them. -/
def settleSamples (s : State) (run : BitVec 32) (block fuel : Nat) : State :=
  match fuel with
  | 0 => s
  | j + 1 =>
    match bufferAt s run block with
    | none => s
    | some b =>
      match b.waiting.find? (fun w => w.1 = b.next) with
      | none => s
      | some (k, m) =>
        let s1 := modBuffer s run block (fun b => { b with next := k + 1, waiting := b.waiting.filter (fun w => !(w.1 = k)) })
        settleSamples (match m with
          | some (fp, bytes) => placeSample s1 run block k fp bytes
          | none => s1) run block j

/-- A FELT.SAMPLE of a block is over: measured, or (none) failed or replayed. The log takes records in the order of the instructions. -/
def sampleOver (s : State) (c : FeltCmd) (m : Option (Word × List Byte)) : State :=
  if !(getRun s c.run).lr.replay then s
  else settleSamples (modBuffer s c.run c.block (fun b => { b with waiting := b.waiting ++ [(c.index, m)] })) c.run c.block (c.index + 1)

/-- The logged bytes that a re-run's sample writes instead of measuring: those of record k, when its fingerprint is the slot's (08 R225). A read
of the log that fails ends the relaunch (R416), and the sample measures. -/
def replayed (s : State) (c : FeltCmd) (fp : Word) : Served (Option (List Byte)) :=
  let r := getRun s c.run
  match (bufferAt s c.run c.block).bind (fun b => b.log.find? (fun e => e.1 = c.index)) with
  | none => .ok none s
  | some (_, off, n) =>
    if !(r.lr.replay && r.relaunch.isSome) then .ok none s
    else
      match regionBytes s c.run (logBase r.lr c.block + off) (16 + n) with
      | .ok b s1 => .ok (if fieldAt b 0 8 = fp.toNat then some ((b.drop 16).take n) else none) s1
      | .bad code _ s1 => .ok none (relaunchFails s1 c.run code)
      | .busy s1 => .busy s1

/-! ## Samples (10 R258-R262) -/

/-! The equilibrium x* is an exact object of the codes (10 R249). Where no product of two free nodes enters a summer, x* is the solution of
linear equations, found exactly; a free node's margin lets elimination go through without exchanging rows. Otherwise x* is held between two
rational numbers: the nodes with G = 0 at their IC, the others first anywhere in [-1, 1]; then s_i = 0, solved for x_i over the intervals of
the other nodes, again and again. Each round keeps every equilibrium in (-1, 1)^n, and the margin of an admissible image shrinks the intervals
by 1/16 or more. -/

/-- The factors of a product that are free, and the value of the fixed ones, for a table entry with its code. -/
def fixedAt (b : List Byte) (i : Nat) : Option Rat := if gainOf b i = 0 then some (codeAt b (nodeAt i + 2) / 2048) else none

/-- Coefficient of node j in summer i where it is linear, fixed nodes taken at their IC (10 R248). -/
def linearCoef (b : List Byte) (i j : Nat) : Rat :=
  let coefs := (List.range (imageCoefs b)).map (fun e =>
    if fieldAt b (coefAt b e) 2 = i ∧ fieldAt b (coefAt b e + 2) 2 = j then (codeAt b (coefAt b e + 4) : Rat) else 0)
  let muls := (List.range (imageMuls b)).map (fun m =>
    let p := fieldAt b (mulAt b m) 2
    let q := fieldAt b (mulAt b m + 2) 2
    if !(fieldAt b (mulAt b m + 4) 2 = i) then (0 : Rat)
    else
      match fixedAt b p, fixedAt b q with
      | some x, none => if q = j then codeAt b (mulAt b m + 6) * x else 0
      | none, some y => if p = j then codeAt b (mulAt b m + 6) * y else 0
      | _, _ => 0)
  (coefs ++ muls).sum

/-- The part of summer i that its free nodes do not change: its bias, and fixed nodes. -/
def linearRest (b : List Byte) (i : Nat) : Rat :=
  let coefs := (List.range (imageCoefs b)).map (fun e =>
    if fieldAt b (coefAt b e) 2 = i then codeAt b (coefAt b e + 4) * (fixedAt b (fieldAt b (coefAt b e + 2) 2)).getD 0 else 0)
  let muls := (List.range (imageMuls b)).map (fun m =>
    if !(fieldAt b (mulAt b m + 4) 2 = i) then (0 : Rat)
    else
      match fixedAt b (fieldAt b (mulAt b m) 2), fixedAt b (fieldAt b (mulAt b m + 2) 2) with
      | some x, some y => codeAt b (mulAt b m + 6) * x * y
      | _, _ => 0)
  codeAt b (nodeAt i + 4) + (coefs ++ muls).sum

/-- Whether every summer of a free node is linear in the free nodes. -/
def imageLinear (b : List Byte) : Bool :=
  (List.range (imageMuls b)).all (fun m =>
    gainOf b (fieldAt b (mulAt b m + 4) 2) = 0 || codeAt b (mulAt b m + 6) = 0
      || (fixedAt b (fieldAt b (mulAt b m) 2)).isSome || (fixedAt b (fieldAt b (mulAt b m + 2) 2)).isSome)

/-- The solution of linear equations, each row its coefficients and then its right side; the pivots are the first coefficients. -/
def solveRows (fuel : Nat) (rows : List (List Rat)) : List Rat :=
  match fuel, rows with
  | j + 1, (p :: tail) :: rest =>
    let below := rest.map (fun r => match r with
      | [] => []
      | a :: t => List.zipWith (fun x y => x - a / p * y) t tail)
    let xs := solveRows j below
    (tail.getLast?.getD 0 - (List.zipWith (· * ·) tail xs).sum) / p :: xs
  | _, _ => []

/-- x* of a linear image, exactly. -/
def linearEquilibrium (b : List Byte) : List Rat :=
  let free := (List.range (imageNodes b)).filter (fun i => (fixedAt b i).isNone)
  let xs := solveRows free.length (free.map (fun i => free.map (linearCoef b i) ++ [-(linearRest b i)]))
  (List.range (imageNodes b)).map (fun i => (fixedAt b i).getD (xs.getD (free.idxOf i) 0))

/-- Scale of the intervals: units of 2^-60. -/
def unit60 : Int := 2 ^ 60

/-- A product of two intervals, in units of 2^-60, rounded outward. -/
def mulIval (p q : Int × Int) : Int × Int :=
  let c := [p.1 * q.1, p.1 * q.2, p.2 * q.1, p.2 * q.2]
  let lo := c.foldl min (p.1 * q.1)
  let hi := c.foldl max (p.1 * q.1)
  (lo / unit60, -((-hi) / unit60))

/-- An interval times a code, in units of 2^-71. -/
def codeIval (c : Int) (p : Int × Int) : Int × Int := if 0 ≤ c then (c * p.1, c * p.2) else (c * p.2, c * p.1)

def addIval (p q : Int × Int) : Int × Int := (p.1 + q.1, p.2 + q.2)

/-- Summer i without its own coefficient, β_i + Σ_{j≠i} c_ij x_j + Σ w_m x_a x_b, over the nodes' intervals (10 R248), in units of 2^-71. -/
def summerRest (b : List Byte) (xs : List (Int × Int)) (i : Nat) : Int × Int :=
  let x := fun (j : Nat) => xs.getD j (0, 0)
  let bias := codeAt b (nodeAt i + 4) * unit60
  let coefs := (List.range (imageCoefs b)).map (fun e =>
    if fieldAt b (coefAt b e) 2 = i ∧ ¬ (fieldAt b (coefAt b e + 2) 2 = i) then codeIval (codeAt b (coefAt b e + 4)) (x (fieldAt b (coefAt b e + 2) 2)) else (0, 0))
  let muls := (List.range (imageMuls b)).map (fun m =>
    if fieldAt b (mulAt b m + 4) 2 = i then codeIval (codeAt b (mulAt b m + 6)) (mulIval (x (fieldAt b (mulAt b m) 2)) (x (fieldAt b (mulAt b m + 2) 2)))
    else (0, 0))
  (coefs ++ muls).foldl addIval (bias, bias)

/-- The coefficient c_ii of a node. -/
def selfCoef (b : List Byte) (i : Nat) : Int :=
  ((List.range (imageCoefs b)).map (fun e => if fieldAt b (coefAt b e) 2 = i ∧ fieldAt b (coefAt b e + 2) 2 = i then codeAt b (coefAt b e + 4) else 0)).sum

/-- One round: s_i = 0 solved for every free node; an empty interval stays empty. -/
def narrow (b : List Byte) (xs : List (Int × Int)) : List (Int × Int) :=
  xs.mapIdx (fun i p =>
    let d := -(selfCoef b i)
    if gainOf b i = 0 || decide (d ≤ 0) then p
    else
      let r := summerRest b xs i
      (max p.1 (r.1 / d), min p.2 (-((-r.2) / d))))

/-- The intervals that hold the equilibrium, after a number of rounds. -/
def narrowed (b : List Byte) (rounds : Nat) (xs : List (Int × Int)) : List (Int × Int) :=
  match rounds with
  | 0 => xs
  | k + 1 => narrowed b k (narrow b xs)

/-- Bounds of x* for every node of an admissible image: x* itself for a linear one, else what 640 rounds of 60-bit intervals leave. -/
def equilibriumBounds (b : List Byte) : List (Rat × Rat) :=
  if imageLinear b then (linearEquilibrium b).map (fun x => (x, x))
  else
    let start := (List.range (imageNodes b)).map (fun i =>
      if gainOf b i = 0 then (codeAt b (nodeAt i + 2) * 2 ^ 49, codeAt b (nodeAt i + 2) * 2 ^ 49) else (-unit60, unit60))
    (narrowed b 640 start).map (fun p => ((p.1 : Rat) / 2 ^ 60, (p.2 : Rat) / 2 ^ 60))

/-- The boundary b of a grid, in units of 2^-11, with b - 2e ≤ x < b + 2e, where 2e is half a unit (10 R258, R260). -/
def boundaryAt (grid : Bool) (x : Rat) : Option Int :=
  let r := (2048 * x + 1 / 2).floor
  if (if grid then decide (r % 2 = 1) && decide (-2047 ≤ r) && decide (r ≤ 2047) else decide (r % 2 = 0) && decide (-2046 ≤ r) && decide (r ≤ 2046)) then some r
  else none

/-- Q_g(x): the code of the cell of a grid that contains x; the outermost cells extend without limit (10 R258). -/
def cellCode (grid : Bool) (x : Rat) : Int :=
  if grid then 2 * max (-1024) (min 1024 ((2048 * x + 1) / 2).floor) else 2 * max (-1024) (min 1023 (1024 * x).floor) + 1

/-- The members of A_g(x*) (10 R260), for an x* between two bounds: exactly they when the bounds are equal; else those that are members
whatever x* is between them (log 3). A measurement m with |m - x*| ≤ e gives one of them, and each is some measurement's (R259). -/
def members (grid : Bool) (x : Rat × Rat) : List (Int × Bool) :=
  (if cellCode grid x.1 = cellCode grid x.2 then [(cellCode grid x.1, false)] else [])
    ++ (match boundaryAt grid x.1 with
      | some b => if boundaryAt grid x.2 = some b then [(b - 1, true)] else []
      | none => [])

/-- Any code of a grid with either straddle bit. -/
def anyCode (grid : Bool) (v : Nat) : Int × Bool :=
  (if grid then 2 * ((v / 2 % 2049 : Nat) - 1024 : Int) else 2 * ((v / 2 % 2048 : Nat) - 1024 : Int) + 1, decide (v % 2 = 1))

/-- Code and straddle bit of a certified node: a member of A_g(x*), which one a free value. Codes that have no equilibrium in (-1, 1)^n leave
every code of the grid (log 3). -/
def certCode (grid : Bool) (x : Rat × Rat) (v : Nat) : Int × Bool :=
  let ms := if x.1 ≤ x.2 then members grid x else []
  if ms.isEmpty then anyCode grid v else ms.getD (v % ms.length) (0, false)

/-- STATUS of a conversion (10 R262): 0 CERT, 1 UNCERT, 2 UNSETTLED, 3 NONE. -/
def sampleStatus (f : FeltArray) : Nat :=
  if f.state = 3 && f.result = 1 then (if (slotOf f f.aslot).any (·.admissible) then 0 else 1)
  else if f.state = 3 && f.result = 2 then 2
  else 3

/-- Bytes of a record for n nodes. -/
def sampleLength (n : Nat) : Nat := (32 + 8 * ((n + 63) / 64) + 8 * ((n + 7) / 8) + 2 * n + 127) / 128 * 128

/-- The exponents and the image behind a conversion: in HOLD those of the run phase, for new ones are used from the next on (10 R252). -/
def conversionOf (f : FeltArray) (x : FeltSlot) : List Int × List Byte :=
  if f.state = 3 then (f.used.1, imageWith x.image f.used.1 f.used.2) else (x.sigma, currentImage x)

/-- The sample record of an array on a grid. -/
def sampleRecord (s : State) (k : Nat) (grid : Bool) : List Byte :=
  let f := getArray s k
  let status := sampleStatus f
  let (n, sigma, fp, image) := match slotOf f f.aslot with
    | some x => (imageNodes x.image, (conversionOf f x).1, x.fingerprint, (conversionOf f x).2)
    | none => (0, [], 0, [])
  let bounds := if status = 0 then equilibriumBounds image else []
  let codes := (List.range n).map (fun i =>
    if status = 0 then certCode grid (bounds.getD i (0, 0)) (Config.freeSample s.free i)
    else if status = 3 then (0, false)
    else anyCode grid (Config.freeSample s.free i))
  let bitmap := ((List.range n).map (fun i => if (codes.getD i (0, false)).2 then 2 ^ i else 0)).sum
  padTo (sampleLength n)
    ([if grid then 1 else 0, BitVec.ofNat 8 status] ++ leBytes 2 n ++ [BitVec.ofNat 8 (arrayIndex s k), 0]
      ++ leBytes 2 ((codes.filter (·.2)).length) ++ leBytes 8 fp.toNat ++ leBytes 8 s.now ++ List.replicate 8 0
      ++ leBytes (8 * ((n + 63) / 64)) bitmap ++ padTo (8 * ((n + 7) / 8)) (sigma.map (fun x => BitVec.ofNat 8 (wrap 8 x)))
      ++ codes.flatMap (fun c => leBytes 2 (wrap 16 c.1)))

/-- A conversion begins when the array takes the command: what it measures, its STATUS and its stamp are fixed then (10 R262). -/
def beginConversion (s : State) (k : Nat) (c : FeltCmd) : State :=
  let f := getArray s k
  let grid := match c.op with
    | .sample g _ => g
    | _ => false
  let fp := match slotOf f f.aslot with
    | some x => x.fingerprint
    | none => 0
  modArray { s with free := s.free + 1 } k (fun f => { f with converting := some c, record := { bytes := sampleRecord s k grid, fp := fp } })

/-! ## Commands in their order (10 R255) -/

/-- The SAT message (10 R257), for its place in the mailbox. -/
def satMessage (s : State) (k : Nat) (c : FeltCmd) (summer : Bool) (element : Nat) (stamp : Nat) (seq : BitVec 32) : List Byte :=
  let strand := c.strand
  [0x0C, 0x80] ++ leBytes 2 (if summer then 2 else 1) ++ leBytes 4 c.ctx.toNat ++ leBytes 4 c.run.toNat ++ leBytes 4 c.block
    ++ leBytes 8 (arrayIndex s k * 2 ^ 16 + element % 512) ++ leBytes 8 c.pc.toNat
    ++ leBytes 2 (tileSource s (strand / 16) + strand / 4 % 4 * 2 ^ 14 + strand % 4 * 2 ^ 12) ++ leBytes 2 (getCtx s c.ctx).pdom.toNat
    ++ leBytes 2 (devnum s) ++ [0, 0] ++ leBytes 8 stamp ++ leBytes 8 0 ++ leBytes 4 seq.toNat ++ [0, 0, 0, 0]

/-- The oldest SAT message that an array owes is posted; while its mailbox must be waited for, the array tries again. It holds up nothing
else: the array has clamped already (10 R257). -/
def postSat (s : State) (k : Nat) : State :=
  match (getArray s k).sats with
  | [] => s
  | (c, summer, element, stamp) :: rest =>
    let mb := (getCtx s c.ctx).service
    let posted := fun (s : State) => modArray s k (fun f => { f with sats := rest })
    let info := faultInfo 0x0C (if summer then 2 else 1) 0x80 (BitVec.ofNat 64 (arrayIndex s k * 2 ^ 16 + element % 512)) 0
    match postMessage s (2 ^ 24 + k) none c.ctx (feltSource k) info mb (satMessage s k c summer element stamp) with
    | .done s1 _ => posted s1
    | .sent s1 _ => posted s1
    | .again s1 => feltNext s1 k
    | .failed s1 code sub =>
      postFailed (posted s1) c.ctx (feltSource k) info mb code sub false

/-- FELT_COMMAND_EXECUTE: the array posts the SAT message that it owes, if any, and takes the next command of its queue (10 R255, R257). A
STAT or SETTLE that names one of a gang's other arrays returns the gang's status word (DEDUCED from R263, log 13). -/
def execFeltCommandExecute (k : Fin 8) (s : State) : Out :=
  event (
    let s := postSat s k.val
    let f := getArray s k.val
    match f.queue with
    | [] => s
    | c :: _ =>
      if f.converting.isSome then s
      else
        match c.op with
        | .cfg slot addr =>
          if decide (f.aslot = slot) && phaseAt s k.val then feltNext (awaitPhases s [gangHead s k.val]) k.val
          else feltCfg (if f.aslot = slot then endHold s (gangHead s k.val) else s) k.val c slot addr
        | .scale slot addr => feltTable s k.val c slot addr 1 (-8) 7 (fun x vs => { x with sigma := vs })
        | .ic slot addr => feltTable s k.val c slot addr 2 (-2048) 2047 (fun x vs => { x with ic := vs })
        | .run slot => feltRunCmd s k.val c slot
        | .halt => if gangMember s k.val then cmdDone s k.val c 0x01 else cmdDone (feltHalt s k.val) k.val c 0
        | .sample _ _ =>
          if gangMember s k.val then cmdDone (sampleOver s c none) k.val c 0x01
          else if inPhase f then s
          else later (beginConversion (popCmd s k.val) k.val c) [.feltConversion k]
        | .stat =>
          let g := getArray s (gangHead s k.val)
          if feltWaits s c then feltAnswer (popCmd s k.val) c.strand (feltStatus g g.result) else popCmd s k.val
        | .settle ticks =>
          let s1 := popCmd (if gangMember s k.val then feltRefused s k.val else s) k.val
          if !feltWaits s c then s1
          else if inPhase f && !gangMember s k.val then
            let s2 := modArray s1 k.val (fun f => { f with settlers := f.settlers ++ [(c.strand, if ticks = 0 then 0 else s.now + ticks)] })
            if ticks = 0 then s2 else later s2 [.settleTimeout (.strand c.strand)]
          else
            let g := getArray s (gangHead s k.val)
            feltAnswer s1 c.strand (feltStatus g g.result))

/-- FELT_LOAD_END: charging ends; the array enters RUN, whose RUNMAX begins to count. -/
def execFeltLoadEnd (k : Fin 8) (s : State) : Out :=
  event (
    if (getArray s k.val).state = 1 then later (modArray s k.val (fun f => { f with state := 2, startTick := s.now })) [.feltRunmax k] else s)

/-- DWELL of the active slot in ticks (10 R250, R256). -/
def dwell (f : FeltArray) : Nat :=
  match slotOf f f.aslot with
  | some x => fieldAt x.image 14 2
  | none => 0

/-- SETTLE_DETECT: the summers have stayed small for DWELL; not before RUN has lasted so long (10 R256). -/
def execSettleDetect (k : Fin 8) (s : State) : Out :=
  event (
    let f := getArray s k.val
    if f.state = 2 && decide (f.startTick + dwell f ≤ s.now) then endPhase s k.val 1 else s)

/-- FELT_RUNMAX: RUN has lasted RUNMAX. -/
def execFeltRunmax (k : Fin 8) (s : State) : Out :=
  event (
    let f := getArray s k.val
    if !(f.state = 2) then s
    else if s.now < f.startTick + runMax f then later s [.feltRunmax k]
    else endPhase s k.val 2)

/-- SETTLE_TIMEOUT: the time-out of a waiting FELT.SETTLE passes; the run phase continues. -/
def execSettleTimeout (a : Agent) (s : State) : Out :=
  event (
    match a with
    | .courier _ => s
    | .strand n =>
      match (List.range 8).findSome? (fun k => ((getArray s k).settlers.find? (fun e => e.1 == n && !(e.2 = 0))).map (fun e => (k, e.2))) with
      | none => s
      | some (k, deadline) =>
        if s.now < deadline then later s [.settleTimeout a]
        else
          let s1 := modArray s k (fun f => { f with settlers := f.settlers.filter (fun e => !(e.1 == n)) })
          feltAnswer s1 n (feltStatus (getArray s1 k) 2))

/-- HOLD_TIMEOUT: after 1 s in HOLD the array goes to IDLE. -/
def execHoldTimeout (k : Fin 8) (s : State) : Out :=
  event (
    if !((getArray s k.val).state = 3) then s
    else if s.now < (getArray s k.val).startTick + 1000000000 then later s [.holdTimeout k]
    else feltNext (endHold s k.val) k.val)

/-- CALIBRATION: an array in IDLE recalibrates, at most once in 10 ms; the same event, 20 µs later, ends it (10 R264). -/
def execCalibration (k : Fin 8) (s : State) : Out :=
  event (
    let f := getArray s k.val
    if f.calibrating then
      if s.now < f.startTick + 20000 then later s [.calibration k]
      else feltNext (modArray s k.val (fun f => { f with calibrating := false, lastCal := s.now })) k.val
    else if f.state = 0 && (getArray s (gangHead s k.val)).state = 0 && decide (f.lastCal + 10000000 ≤ s.now) then calibrate s k.val
    else s)

/-- Whether an element can saturate: a node below n, or the summer of a free node (10 R257). -/
def canSaturate (f : FeltArray) (summer : Bool) (element : Nat) : Bool :=
  match slotOf f f.aslot with
  | some x => decide (element < imageNodes x.image) && (!summer || !(gainOf x.image element = 0))
  | none => false

/-- FELT_SATURATION: the array clamps and goes to IDLE with RESULT SAT, and posts its message. -/
def execFeltSaturation (k : Fin 8) (summer : Bool) (element : Nat) (s : State) : Out :=
  event (
    let f := getArray s k.val
    if !(f.state = 2 || f.state = 3) || !canSaturate f summer element then s
    else
      let s1 := if f.state = 2 then endPhase s k.val 3
        else feltNext (idleCalibration (modArray s k.val (fun f => { f with state := 0, result := 3, startTick := s.now })) k.val) k.val
      match f.lastRun with
      | none => s1
      | some c => postSat (modArray s1 k.val (fun f => { f with sats := f.sats ++ [(c, summer, element, s.now)] })) k.val)

/-! ## Conversions (10 R262) -/

/-- The saved tile image that holds a command's destination, when its image has left the tile (03 R91; 16 R378). -/
def savedHome (s : State) (c : FeltCmd) : Option SavedImage :=
  match imageTile s c.image with
  | some _ => none
  | none => (savedImage s c.image).map (·.2)

/-- Whether a record of a length fits behind its destination. -/
def sampleFits (s : State) (c : FeltCmd) (dst : Word) (n : Nat) : Bool :=
  let off := dst.toNat - windowBase
  let within := fun (e : StashEntry) => decide (dst.toNat + n ≤ e.base + e.length)
  match savedHome s c with
  | some i => if inWindow dst.toNat then decide (4096 * i.pbLo ≤ off) && decide (off + n ≤ 4096 * i.pbMid)
    else i.stash.any (fun e => e.ctx == c.ctx && decide (e.base ≤ dst.toNat) && within e)
  | none =>
    if inWindow dst.toNat then inScratch (getTile s (cmdTile s c)) off n
    else (stashOf s (cmdTile s c) c.ctx dst.toNat).any (fun e => within e.2)

/-- The record is written: into the tile's pool or memory, or into the saved image. -/
def sampleStore (s : State) (k : Nat) (c : FeltCmd) (dst : Word) (bytes : List Byte) : Served Unit :=
  let e := feltEngine s k c
  if (savedHome s c).isSome && inWindow dst.toNat then
    .ok () ((List.range (bytes.length / 128)).foldl (fun s j =>
      savedWrite s c.image (dst.toNat - windowBase + 128 * j) ((bytes.drop (128 * j)).take 128)) s)
  else engineStores s e 0 (writeParts s e dst.toNat bytes)

/-- Its lines' full/empty bits, then its landing update (07 R200). -/
def sampleLands (s : State) (k : Nat) (c : FeltCmd) (dst : Word) (n : Nat) : State :=
  let lines := numbersFrom ((dst.toNat - windowBase) / 128) (n / 128)
  let s1 := if (savedHome s c).isNone then fillLines s (cmdTile s c) (linesOfSpan s (feltEngine s k c) dst.toNat n)
    else if inWindow dst.toNat then modSaved s c.image (fun i => { i with full := i.full ++ lines.filter (fun l => !(decide (l ∈ i.full))) })
    else s
  if c.barrier = 0 then s1 else arriveAt s1 (cmdTile s c) c.image c.barrier (.land n) 9

/-- A record that does not land fails its command (16 R377). -/
def sampleFails (s : State) (c : FeltCmd) (code n : Nat) : State := arriveAt s (cmdTile s c) c.image c.barrier (.fail code n) 9

/-- FELT_CONVERSION: first it is decided whether a logged record replaces the measured one; then the record lands, full/empty bits and the
landing update follow, or its failure (08 R225; 10 R262; 16 R377). -/
def execFeltConversion (k : Fin 8) (s : State) : Out :=
  event (
    let f := getArray s k.val
    match f.converting with
    | none => s
    | some c =>
      match c.op with
      | .sample _ dst =>
        let r := f.record
        let bytes := r.bytes
        let finish := fun (s : State) => checkRun (feltNext (modArray (clearPieces s (feltUnit k.val)) k.val (fun f => { f with converting := none })) k.val) c.run
        match r.logged with
        | none =>
          later (match replayed s c r.fp with
            | .busy s1 => s1
            | .bad _ _ s1 => s1
            | .ok old s1 => modArray s1 k.val (fun f => { f with record := { r with bytes := old.getD bytes, logged := some old.isSome } })) [.feltConversion k]
        | some logged =>
          if !sampleFits s c dst bytes.length then finish (sampleOver (sampleFails s c 0x04 bytes.length) c none)
          else
            match sampleStore s k.val c dst bytes with
            | .busy s1 => later s1 [.feltConversion k]
            | .bad code _ s1 => finish (sampleOver (sampleFails s1 c code bytes.length) c none)
            | .ok _ s1 => finish (sampleOver (sampleLands s1 k.val c dst bytes.length) c (if logged then none else some (r.fp, bytes)))
      | _ => modArray s k.val (fun f => { f with converting := none }))

/-! ## The FELT major (16 R375-R378) -/

/-- The array that a word names, granted to the issuing context. -/
def feltNamed (k : BitVec 3) : Exec Nat := do
  let a ← theAgent
  let s ← theState
  match grantedArray s (agentCtx s a) k.toNat with
  | some g => pure g
  | none => raise 0x04 0x01

/-- A command joins an array's queue; a full queue stalls. One with an operand in translated memory first waits for the strand's counter to
reach zero; a barrier operand lies in the scratchpad (07 R201). -/
def feltIssue (g : Nat) (op : FeltOp) (bar : Word) : Exec Unit := do
  let a ← theAgent
  let t ← self
  if feltOperand op then waitAcks
  let s ← theState
  if 8 ≤ (getArray s g).queue.length then stall
  let c : FeltCmd := { op := op, strand := 4 * agentCore a + agentStrand a, run := agentRun s a, ctx := agentCtx s a, pc := t.pc, barrier := bar,
                       image := imageId s (agentTile a) (agentRun s a), block := agentBlock s a, index := t.buffer.issued }
  update (fun s => feltNext (modArray s g (fun f => { f with queue := f.queue ++ [c] })) g)

where
  /-- Whether a form's table, image or record lies in translated memory. -/
  feltOperand (op : FeltOp) : Bool := match op with
    | .cfg _ addr => !inWindow addr.toNat
    | .scale _ addr => !inWindow addr.toNat
    | .ic _ addr => !inWindow addr.toNat
    | .sample _ dst => !inWindow dst.toNat
    | .run _ => false
    | .settle _ => false
    | .halt => false
    | .stat => false

/-- The checks of a table or image at issue: canonical, and outside both control windows (06 R82, R157, R414). What can be known of its
length then is checked: an image's header, a table of the slot's nodes. The RD check is the array's (06 R161). -/
def feltTableAt (va : Word) (n : Nat) : Exec Unit := do
  let a ← theAgent
  let s ← theState
  canonical 0 va
  canonical 0 (va + BitVec.ofNat 64 (n - 1))
  if spanHits ostlerBase (windowBase - ostlerBase) va.toNat n then raise 0x04 (if ostlerMode s a then 1 else 2) 0 va
  else if inWindow va.toNat then pure ()
  else if ← served 0 va (fun s => depotInSpan s (agentCore a / 32) (agentUnit a) va.toNat n) then raise 0x04 0x01 0 va else pure ()

/-- Nodes of a slot as it stands, at least one. -/
def slotNodes (s : State) (g slot : Nat) : Nat :=
  match slotOf (getArray s g) slot with
  | some x => max 1 (imageNodes x.image)
  | none => 1

/-- felt.cfg. -/
def execFeltCfg (a b : BitVec 5) (k : BitVec 3) (sl : BitVec 3) (s : State) : Out :=
  issue (noCourier [a, b]) (do
    let g ← feltNamed k
    let va ← getX a
    let bar ← getX b
    canonical 0 va
    if !(va.toNat % 64 = 0) then raise 0x03 0 0 va
    feltTableAt va 64
    namedBarrier bar
    feltIssue g (.cfg sl.toNat va) bar) s
/-- felt.scale. -/
def execFeltScale (a b : BitVec 5) (k : BitVec 3) (sl : BitVec 3) (s : State) : Out :=
  issue (noCourier [a, b]) (do
    let g ← feltNamed k
    let va ← getX a
    let bar ← getX b
    let s ← theState
    feltTableAt va (slotNodes s g sl.toNat)
    namedBarrier bar
    feltIssue g (.scale sl.toNat va) bar) s
/-- felt.ic. -/
def execFeltIc (a b : BitVec 5) (k : BitVec 3) (sl : BitVec 3) (s : State) : Out :=
  issue (noCourier [a, b]) (do
    let g ← feltNamed k
    let va ← getX a
    let bar ← getX b
    let s ← theState
    feltTableAt va (2 * slotNodes s g sl.toNat)
    namedBarrier bar
    feltIssue g (.ic sl.toNat va) bar) s
/-- felt.run. -/
def execFeltRun (b : BitVec 5) (k : BitVec 3) (sl : BitVec 3) (s : State) : Out :=
  issue (noCourier [b]) (do
    let g ← feltNamed k
    let bar ← getX b
    namedBarrier bar
    feltIssue g (.run sl.toNat) bar) s
/-- felt.settle: received in queue order; it waits for the word that the array answers with. -/
def execFeltSettle (d a : BitVec 5) (k : BitVec 3) (s : State) : Out :=
  issue (noCourier [d, a]) (do
    let g ← feltNamed k
    let n ← getX a
    let t ← self
    match t.replyValue with
    | some w => setX d w
    | none => do
      if t.sent then stall
      feltIssue g (.settle n.toNat) 0
      setSelf (fun t => { t with sent := true })
      stall) s
/-- felt.sample. -/
def execFeltSample (a b : BitVec 5) (k : BitVec 3) (g : BitVec 1) (s : State) : Out :=
  issue (noCourier [a, b]) (do
    let ag ← theAgent
    let f ← feltNamed k
    let va ← getX a
    let bar ← getX b
    let s ← theState
    canonical 1 va
    if !(va.toNat % 128 = 0) then raise 0x03 0 1 va
    if inWindow va.toNat then
      if !inScratch (getTile s (agentTile ag)) (va.toNat - windowBase) 128 then raise 0x04 0x05 1 va
    else if (stashOf s (agentTile ag) (agentCtx s ag) va.toNat).isNone then raise 0x04 0x05 1 va
    else do
      let _ ← spanRights 1 2 va 128
    namedBarrier bar
    feltIssue f (.sample (g = 1) va) bar
    setSelf (fun t => { t with buffer := { t.buffer with issued := t.buffer.issued + 1 } })) s
/-- felt.halt. -/
def execFeltHalt (k : BitVec 3) (s : State) : Out :=
  issue (noCourier []) (do
    let g ← feltNamed k
    feltIssue g .halt 0) s
/-- felt.stat: received in queue order. -/
def execFeltStat (d : BitVec 5) (k : BitVec 3) (s : State) : Out :=
  issue (noCourier [d]) (do
    let g ← feltNamed k
    let t ← self
    match t.replyValue with
    | some w => setX d w
    | none => do
      if t.sent then stall
      feltIssue g .stat 0
      setSelf (fun t => { t with sent := true })
      stall) s

end Sys2Proof.Machine
end

