-- ==== Sys2Proof/Machine/Queues.lean ====
section
/-!
DEFINITION. Queues and command packets: the queue table, doorbells and queue commands, fetching and dispatching packets, their completion,
destroying a queue, and the control registers beside them (02 R58-R77).
-/
namespace Sys2Proof.Machine

/-! ## The queue table (02 R61, R63) -/

/-- Physical place of an address of device memory that the device itself reads and writes, on this device. -/
def devPlace (s : State) (va : Nat) : Option (Nat × BitVec 8) :=
  match walk s va with
  | .ok dev pa key _ _ => if dev = devnum s && decide (pa < hbmSize) then some (pa, key) else none
  | _ => none

/-- The 64 bytes of a slot of the queue table; a table that does not translate reads as EMPTY. -/
def qcb (s : State) (slot : Nat) : List Byte :=
  match devPlace s (s.host.qhBase.toNat + 64 * slot) with
  | some (pa, _) => physRead s pa 64
  | none => List.replicate 64 0

def qcbWrite (s : State) (slot : Nat) (b : List Byte) : State :=
  match devPlace s (s.host.qhBase.toNat + 64 * slot) with
  | some (pa, key) => physWriteKey s pa key b
  | none => s

def qcbKey (b : List Byte) : Nat := fieldAt b 0 4
def qcbState (b : List Byte) : Nat := fieldAt b 4 1
def qcbRmem (b : List Byte) : Bool := (fieldAt b 5 1).testBit 7
def qcbSlots (b : List Byte) : Nat := 2 ^ bits (fieldAt b 5 1) 4 0
def qcbPart (b : List Byte) : Nat := fieldAt b 6 1
def qcbRing (b : List Byte) : Nat := fieldAt b 8 8
def qcbRecords (b : List Byte) : Nat := fieldAt b 16 8
def qcbCtx (b : List Byte) : BitVec 32 := BitVec.ofNat 32 (fieldAt b 24 4)
def qcbSlice (b : List Byte) : Nat := fieldAt b 28 4
def qcbHead (b : List Byte) : Nat := fieldAt b 32 4
def qcbTail (b : List Byte) : Nat := fieldAt b 36 4

def putState (b : List Byte) (st : Nat) : List Byte := patch b 4 (leBytes 1 st)
def putHead (b : List Byte) (v : Nat) : List Byte := patch b 32 (leBytes 4 v)
def putTail (b : List Byte) (v : Nat) : List Byte := patch b 36 (leBytes 4 v)
def putErr (b : List Byte) (v : Nat) : List Byte := patch b 40 (leBytes 1 v)

/-- ACTIVE, DRAINING or ERROR. -/
def qcbLive (b : List Byte) : Bool := decide (2 ≤ qcbState b) && decide (qcbState b ≤ 4)

def queueSlots (s : State) : Nat := 2 ^ s.host.qhLog.toNat

/-- The slots that R63 probes for a key, in order. -/
def probeSlots (s : State) (key : Nat) : List Nat :=
  let h := key * 0x9E3779B1 % 2 ^ 32 / 2 ^ (32 - s.host.qhLog.toNat)
  (List.range 8).map (fun i => (h + i) % queueSlots s)

/-- The lookup over the slots still to be probed. -/
def lookupIn (s : State) (key : Nat) (slots : List Nat) : Option Nat :=
  match slots with
  | [] => none
  | x :: rest =>
    let b := qcb s x
    if qcbState b = 0 then none else if qcbLive b && decide (qcbKey b = key) then some x else lookupIn s key rest

/-- The slot of a queue, if the table is enabled and holds it. -/
def lookupQueue (s : State) (key : Nat) : Option Nat := if s.host.qhEn then lookupIn s key (probeSlots s key) else none

/-- Whether a slot can be read now: an entry with MIG set is waited for, since `since`, up to 8,000 ticks, and so is a granule that another
device owns (02 R63; 06 R165, R166). -/
def slotReady (s : State) (since slot : Nat) : Served Unit :=
  let va := s.host.qhBase.toNat + 64 * slot
  let held := fun (g : Nat) => match settle s g none with
    | .ok _ s1 => Served.busy s1
    | .bad _ _ s1 => .ok () s1
    | .busy s1 => .busy s1
  match walk s va with
  | .ok dev pa _ _ _ => if dev = devnum s && decide (pa < hbmSize) && heldElsewhere s (pa / 64) then held (pa / 64) else .ok () s
  | .mig _ _ => if since + 8000 ≤ s.now then .ok () s else .busy s
  | .busy g => held g
  | _ => .ok () s

/-- Whether the slots that a lookup reads can be read now. -/
def probeReady (s : State) (since key : Nat) (slots : List Nat) : Served Unit :=
  match slots with
  | [] => .ok () s
  | x :: rest =>
    match slotReady s since x with
    | .ok _ s1 =>
      let b := qcb s1 x
      if qcbState b = 0 || (qcbLive b && decide (qcbKey b = key)) then .ok () s1 else probeReady s1 since key rest
    | r => r

/-- An operation `i` on slots of the table: when they can be read it goes on, else it comes again. -/
def whenTable (s : State) (i : Instr) (ready : Nat → Served Unit) (f : State → State) : State :=
  if !s.host.qhEn then f s
  else
    let since := ((s.host.tableWaits.find? (fun e => e.1 == i)).map (·.2)).getD s.now
    let left := s.host.tableWaits.filter (fun e => !(e.1 == i))
    match ready since with
    | .ok _ s1 => f { s1 with host := { s1.host with tableWaits := left } }
    | .bad _ _ s1 => f { s1 with host := { s1.host with tableWaits := left } }
    | .busy s1 => later { s1 with host := { s1.host with tableWaits := (i, since) :: left } } [i]

/-- A lookup of a key for an operation. -/
def whenReady (s : State) (i : Instr) (key : Nat) (f : State → State) : State :=
  whenTable s i (fun since => probeReady s since key (probeSlots s key)) f

/-- An operation on one slot. -/
def whenSlot (s : State) (i : Instr) (slot : Nat) (f : State → State) : State := whenTable s i (fun since => slotReady s since slot) f

/-- Whether any queue is ACTIVE, DRAINING or ERROR. -/
def anyLive (s : State) : Bool := s.host.qhEn && (List.range (queueSlots s)).any (fun i => qcbLive (qcb s i))

def getQueue (s : State) (slot : Nat) : QueueRun := s.queues.get {} slot
def modQueue (s : State) (slot : Nat) (f : QueueRun → QueueRun) : State := { s with queues := s.queues.set slot (f (getQueue s slot)) }
def modPacket (s : State) (slot seq : Nat) (f : PacketRun → PacketRun) : State :=
  modQueue s slot (fun q => { q with packets := q.packets.map (fun p => if p.seq = seq then f p else p) })

/-- The packet of a queue whose dispatch has not ended. -/
def currentPacket (s : State) (slot : Nat) : Option PacketRun := (getQueue s slot).packets.find? (fun p => !p.dispatched)

/-- A record of class QUEUE (01 R48). -/
def queueRecord (s : State) (sub ctx addr : Nat) : State := logRecord s { cls := .queue, sub := sub, source := hostSource, ctx := ctx, addr := addr }

/-- A time-slice timer while its queue is in ERROR: it does not run (02 R77). -/
def pauseSlice (s : State) (slot : Nat) : State :=
  modQueue s slot (fun q => { q with slice := q.slice.map (fun t => (t.1, t.2.1 - (s.now - t.2.2.getD s.now), none)) })

/-- A queue enters ERROR: its fetcher stops, its timer too. -/
def queueError (s : State) (slot sub : Nat) : State :=
  let b := qcb s slot
  let s := modQueue (pauseSlice s slot) slot (fun q => { q with fetch := .idle, rereads := 0 })
  queueRecord (qcbWrite s slot (putErr (putState b 4) sub)) sub (qcbCtx b).toNat (qcbRing b + 64 * (qcbHead b % qcbSlots b))

/-- A record of class FAULT that no strand takes (02 R55, R62, R71). -/
def faultRecord (s : State) (code sub ctx addr : Nat) : State :=
  logRecord s { cls := .fault, code := code, sub := sub, source := hostSource, ctx := ctx, addr := addr }

/-! ## Reads and writes of the device for a queue -/

/-- The unit that acts for a queue, on the first tile of its partition. -/
def queueEngine (s : State) (slot : Nat) (ctx : BitVec 32) (part : Nat) : Engine :=
  { unit := 16384 + slot, tile := 128 * (8 / partCount s * part), ctx := ctx, run := 0 }

def queueAgent (slot : Nat) : Agent := .courier (4096 + slot)

/-- `n` bytes of device memory, without a check of rights. -/
def devRead (s : State) (e : Engine) (va n : Nat) : Served (List Byte) :=
  if !(bits va 63 57 = 0) then .bad 0x05 0x02 s
  else if inWindow va || inOstler va then .bad 0x04 0x01 s
  else
    match engineLoads s e ((granuleParts (n / 64 + 2) va (List.replicate n 0)).map (fun p => (p.1, p.2.length))) with
    | .ok parts s1 => .ok parts.flatten s1
    | .bad code sub s1 => .bad code sub s1
    | .busy s1 => .busy s1

/-- The rights of a context over a span, from its grant list (06 R162). -/
def ctxRights (s : State) (ctx : BitVec 32) (need va n : Nat) : Served Unit :=
  let (base, count) := grantList s ctx
  match searchGrants s (getCtx s ctx).pdom base 0 count va n with
  | .ok (some e) s1 => if e.rights.toNat &&& need = need then .ok () s1 else .bad 0x04 0x01 s1
  | .ok none s1 => .bad 0x04 0x01 s1
  | .bad code sub s1 => .bad code sub s1
  | .busy s1 => .busy s1

/-- A read as a context's access, made by a queue (02 R71). -/
def ctxRead (s : State) (e : Engine) (va n : Nat) : Served (List Byte) :=
  if !(bits va 63 57 = 0) then .bad 0x05 0x02 s
  else if inWindow va then .bad 0x04 0x03 s
  else if inOstler va then .bad 0x04 0x02 s
  else if (deepRange s va).isSome then .bad 0x04 0x01 s
  else
    match ctxRights s e.ctx 1 va n with
    | .ok _ s1 => devRead s1 e va n
    | .bad code sub s1 => .bad code sub s1
    | .busy s1 => .busy s1

/-- A write of the device at a device virtual address, or at a bus address; one that has been made is not made again. -/
def devWrite (s : State) (e : Engine) (bus : Bool) (piece va : Nat) (bs : List Byte) : Served Unit :=
  if bus then
    if (pieceDone s e.unit piece).isSome then .ok () s
    else .ok () (notePiece { s with busOut := s.busOut ++ [.write (BitVec.ofNat 64 va) bs] } e.unit piece 0 0)
  else if !(bits va 63 57 = 0) then .bad 0x05 0x02 s
  else engineStores s e piece (granuleParts (bs.length / 64 + 2) va bs)

/-! ## Fetching (02 R65, R68, R73) -/

/-- The read of the slot at HEAD leaves for host memory. -/
def busSlot (s : State) (slot : Nat) : State :=
  let b := qcb s slot
  { s with busOut := s.busOut ++ [.read (BitVec.ofNat 64 (qcbRing b + 64 * (qcbHead b % qcbSlots b))) 64 (queueAgent slot)] }

/-- The first read of the slot at HEAD: from host memory over the bus, from device memory at once (R68). -/
def askSlot (s : State) (slot : Nat) : State :=
  let s1 := modQueue s slot (fun q => { q with fetch := .first, fetchTick := s.now, rereads := 0 })
  if qcbRmem (qcb s slot) then later s1 [.packetFetch slot []] else busSlot s1 slot

/-- A re-read follows the read before it by 250 ns (R68). -/
def askAgain (s : State) (slot : Nat) : State := later (modQueue s slot (fun q => { q with fetch := .pause })) [.fetchReread slot []]

/-- Whether a queue may fetch: ACTIVE, packets before TAIL, the last packet's dispatch ended and HEAD past it, no destroy, and no reset of its
partition (R68, R73, R75, R78). -/
def mayFetch (s : State) (slot : Nat) : Bool :=
  let b := qcb s slot
  s.host.qhEn && qcbState b = 2 && !(qcbHead b = qcbTail b) && (currentPacket s slot).isNone && (getQueue s slot).draining.isNone
    && (getQueue s slot).headDue.isNone && !s.host.resetting.getLsbD (qcbPart b)

/-- The fetcher starts, if it may and is not under way. -/
def fetchMore (s : State) (slot : Nat) : State := if mayFetch s slot && (getQueue s slot).fetch == .idle then askSlot s slot else s

/-- The table takes a queue's new HEAD, once its slot can be read. -/
def advanceHead (s : State) (slot : Nat) : State :=
  match (getQueue s slot).headDue with
  | none => s
  | some (head, since) =>
    match slotReady s since slot with
    | .busy s1 => later s1 [.packetFetch slot []]
    | .bad _ _ s1 => put s1 head
    | .ok _ s1 => put s1 head
where
  put (s : State) (head : Nat) : State :=
    let s1 := modQueue s slot (fun q => { q with headDue := none })
    qcbWrite s1 slot (putHead (qcb s1 slot) head)

/-- A packet's dispatch ends: HEAD advances past it. -/
def endDispatch (s : State) (slot seq : Nat) : State :=
  if (getQueue s slot).packets.any (fun p => p.seq = seq && !p.dispatched) then
    advanceHead (modQueue (modPacket s slot seq (fun p => { p with dispatched := true })) slot (fun q => { q with headDue := some (seq + 1, s.now) })) slot
  else s

/-- A packet's dispatch has ended, and the next packet is fetched (02 R73). -/
def dispatchEnded (s : State) (slot seq : Nat) : State := fetchMore (endDispatch s slot seq) slot

/-- A packet that completes at once with a status and a fault code. -/
def packetEnds (s : State) (slot seq status code : Nat) (result : Word := 0) : State :=
  packetDone (dispatchEnded s slot seq) slot seq (fun p => { p with status := status, code := BitVec.ofNat 8 code, result := result })

/-- All blocks of a launch have been placed: its packet's dispatch ends. -/
def launchPlaced (s : State) (run : BitVec 32) : State :=
  match (getRun s run).origin with
  | .queue slot seq =>
    if (getQueue s slot).packets.any (fun p => p.seq = seq && !p.dispatched && p.run == some run) then dispatchEnded s slot seq else s
  | _ => s

/-- The context descriptor's limits (02 R62). -/
def descriptorValid (s : State) (ctx : BitVec 32) (part : Nat) (d : List Byte) : Bool :=
  let svc := fieldAt d 16 8
  let save := fieldAt d 24 8
  let gl := fieldAt d 32 8
  fieldAt d 0 4 = ctx.toNat && fieldAt d 6 1 = part && (fieldAt d 7 1).testBit 1 && decide (fieldAt d 7 1 < 4) && zeroAt d 13 3 && zeroAt d 42 22
    && svc % 8192 = 0 && save % 4096 = 0 && gl % 4096 = 0 && decide (gl < 2 ^ 44) && decide (fieldAt d 40 2 ≤ 4095)
    && (List.range 8).all (fun k => !((fieldAt d 12 1).testBit k) || (match arrayOf s part k with
      | some g => (getArray s g).ctx.isNone || (getArray s g).ctx == some ctx
      | none => true))

/-- A context holds a bind record on the device. -/
def holdsRecord (s : State) (ctx : BitVec 32) : Bool :=
  s.clusters.any (fun c => c.2.slots.any (fun r => r.2.ctx == ctx && (r.2.state == 1 || r.2.state == 2)))

/-- Context state from the descriptor when the context holds no bind record; a refusal with its fault code, whose read failure is recorded.
While the context is being killed the packet waits for the kill fence (03 R102). -/
def ensureContext (s : State) (slot : Nat) (b : List Byte) : Served (Option Nat) :=
  let ctx := qcbCtx b
  if (getCtx s ctx).killing || (getCtx s ctx).killAsked then .busy s
  else if holdsRecord s ctx then .ok none s
  else if !s.host.ctxEn || decide (2 ^ s.host.ctxLog.toNat ≤ ctx.toNat) then .ok (some 0x01) s
  else
    let va := s.host.ctxBase.toNat + 64 * ctx.toNat
    let e := queueEngine s slot ctx (qcbPart b)
    match devRead s e va 64 with
    | .busy s1 => .busy s1
    | .bad code sub s1 => .ok (some code) (faultRecord s1 code sub ctx.toNat va)
    | .ok d s1 =>
      if !descriptorValid s1 ctx (qcbPart b) d then .ok (some 0x01) s1
      else
        .ok none (modCtx s1 ctx (fun c =>
          { c with
            pdom := BitVec.ofNat 16 (fieldAt d 4 2)
            part := fieldAt d 6 1
            gearReq := (fieldAt d 7 1).testBit 0
            fareAcct := BitVec.ofNat 32 (fieldAt d 8 4)
            feltGrant := BitVec.ofNat 8 (fieldAt d 12 1)
            service := BitVec.ofNat 64 (fieldAt d 16 8)
            saveArea := BitVec.ofNat 64 (fieldAt d 24 8)
            glBase := fieldAt d 32 8 / 4096
            glCount := fieldAt d 40 2
            prio := BitVec.ofNat 3 (fieldAt b 7 1) }))

/-- The step a packet's type is. -/
def packetStep (slot typ : Nat) : Option Instr :=
  if typ = 1 then some (.launchPacket slot)
  else if typ = 2 then some (.relaunchPacket slot)
  else if typ = 3 then some (.coach slot)
  else if typ = 4 then some (.destroyPacket slot)
  else if typ = 5 then some (.signal slot)
  else if typ = 6 then some (.waitmem slot)
  else if typ = 7 then some (.nopPacket slot)
  else none

def packetType (b : List Byte) : Nat := fieldAt b 0 1
def packetCr (b : List Byte) : Bool := (fieldAt b 6 1).testBit 0
def packetSig (b : List Byte) : Bool := (fieldAt b 6 1).testBit 1
def packetFence (b : List Byte) : Bool := (fieldAt b 6 1).testBit 2 || packetType b = 5

/-- PHASE, SEQ and CRC of a fetched slot (02 R65, R67, R68). -/
def packetWhole (q p : List Byte) : Bool :=
  let seq := qcbHead q
  let phase := 1 - seq / qcbSlots q % 2
  b2n ((fieldAt p 1 1).testBit 7) = phase && fieldAt p 2 4 = seq && crc32 ((p.drop 2).take 58) = fieldAt p 60 4

/-- A packet becomes current: the queue's time-slice timer is loaded for it (R68, R77). -/
def becomesCurrent (s : State) (slot : Nat) (b p : List Byte) : State :=
  let seq := qcbHead b
  let s1 := modQueue s slot (fun q =>
    { q with
      fetch := .idle
      rereads := 0
      packets := q.packets ++ [{ seq := seq, bytes := p }]
      slice := if qcbSlice b = 0 then q.slice else some (seq, 1000 * qcbSlice b, some s.now) })
  if qcbSlice b = 0 then s1 else later s1 [.timesliceExpiry [slot]]

/-- A slot that has been read: not yet valid (`torn` says what then), refused, or a packet that becomes current; with FENCE it waits for
the packets before it, whose completion fetches it again (R68, R73). -/
def slotRead (s : State) (slot : Nat) (p : List Byte) (torn : State → State) : State :=
  let b := qcb s slot
  if !packetWhole b p then torn s
  else if !(fieldAt p 7 1 = 0) || decide (8 ≤ fieldAt p 6 1) || !(bits (fieldAt p 1 1) 6 0 = 0) || (packetStep slot (packetType p)).isNone then
    queueError s slot 0x07
  else if packetFence p && !(getQueue s slot).packets.isEmpty then modQueue s slot (fun q => { q with fetch := .idle })
  else
    match ensureContext s slot b with
    | .busy s1 => later (modQueue s1 slot (fun q => { q with fetch := .first })) [.packetFetch slot p]
    | .bad _ _ s1 => s1
    | .ok refusal s1 =>
      let s2 := becomesCurrent s1 slot b p
      match refusal, packetStep slot (packetType p) with
      | some code, _ => packetEnds s2 slot (qcbHead b) 1 code
      | none, some i => soon s2 [i]
      | none, none => s2

/-- The bytes of the slot at HEAD: those that have been read, or device memory's. -/
def slotBytes (s : State) (slot : Nat) (hostBytes : List Byte) : Served (List Byte) :=
  let b := qcb s slot
  if qcbRmem b && hostBytes.isEmpty then
    devRead s (queueEngine s slot (qcbCtx b) (qcbPart b)) (qcbRing b + 64 * (qcbHead b % qcbSlots b)) 64
  else .ok (padTo 64 hostBytes) s

/-- A first read that cannot go on: the fetcher is idle again. -/
def fetchStops (s : State) (slot : Nat) : State := modQueue s slot (fun q => { q with fetch := .idle, rereads := 0 })

/-- PACKET_FETCH: the first read of a slot. A read that fails finds no valid packet. A HEAD that the table has still to take goes first. -/
def execPacketFetch (slot : Nat) (hostBytes : List Byte) (s : State) : Out :=
  event (
    if (getQueue s slot).headDue.isSome then fetchMore (advanceHead s slot) slot
    else if !((getQueue s slot).fetch == .first) then s
    else
      whenSlot s (.packetFetch slot hostBytes) slot (fun s =>
        if !mayFetch s slot then fetchStops s slot
        else
          match slotBytes s slot hostBytes with
          | .busy s1 => later s1 [.packetFetch slot hostBytes]
          | .bad _ _ s1 => askAgain s1 slot
          | .ok p s1 => slotRead s1 slot p (fun s => askAgain s slot)))

/-- A re-read has failed: the sixteenth puts the queue into ERROR. -/
def rereadFailed (s : State) (slot : Nat) : State :=
  let n := (getQueue s slot).rereads + 1
  if 16 ≤ n then queueError s slot 0x06 else askAgain (modQueue s slot (fun q => { q with rereads := n })) slot

/-- The bytes of a re-read: a valid packet, or one more failure. -/
def rereadDone (s : State) (slot : Nat) (hostBytes : List Byte) : State :=
  match slotBytes s slot hostBytes with
  | .busy s1 => later s1 [.fetchReread slot hostBytes]
  | .bad _ _ s1 => rereadFailed s1 slot
  | .ok p s1 => slotRead s1 slot p (fun s => rereadFailed s slot)

/-- FETCH_REREAD: the re-read is due at 250 ns for each read before it; its bytes come at once from device memory, over the bus from host
memory. -/
def execFetchReread (slot : Nat) (hostBytes : List Byte) (s : State) : Out :=
  event (
    let q := getQueue s slot
    if !(q.fetch == .pause) && !(q.fetch == .reread) then s
    else
      whenSlot s (.fetchReread slot hostBytes) slot (fun s =>
        if !mayFetch s slot then fetchStops s slot
        else if q.fetch == .pause then
          if s.now < q.fetchTick + 250 * (q.rereads + 1) then later s [.fetchReread slot []]
          else if qcbRmem (qcb s slot) then rereadDone s slot []
          else busSlot (modQueue s slot (fun q => { q with fetch := .reread })) slot
        else rereadDone s slot hostBytes))

/-! ## Doorbells and queue commands (02 R59, R60, R64, R66) -/

/-- A doorbell of a queue that the lookup has found (R66). -/
def ringQueue (s : State) (slot offset : Nat) (value : Word) : State :=
  let b := qcb s slot
  let tail := value.toNat % 2 ^ 32
  let ctx := (qcbCtx b).toNat
  if qcbState b = 3 then queueRecord s 0x04 ctx offset
  else if 2 ^ 31 ≤ (tail + 2 ^ 32 - qcbTail b) % 2 ^ 32 || decide (qcbSlots b < (tail + 2 ^ 32 - qcbHead b) % 2 ^ 32) then queueRecord s 0x05 ctx offset
  else fetchMore (qcbWrite s slot (putTail b tail)) slot

/-- DOORBELL. In RECOVERY the window does not respond (02 R54). -/
def execDoorbell (offset size : Nat) (pasid : Option (BitVec 20)) (value : Word) (s : State) : Out :=
  event (
    if s.mgmt.recovery then s
    else if !(size = 8) || !(offset % 8 = 0) then queueRecord s 0x01 0 offset
    else
      match pasid with
      | none => queueRecord s 0x02 0 offset
      | some p =>
        let key := p.toNat * 4096 + offset / 8 % 4096
        whenReady s (.doorbell offset size pasid value) key (fun s =>
          match lookupQueue s key with
          | none => queueRecord s 0x03 0 offset
          | some slot => ringQueue s slot offset value))

/-- QCTL's own fields, RESULT and BUSY after a command. -/
def qctlStore (s : State) (v : Word) (result : Nat) (busy : Bool) : State :=
  { s with host := { s.host with qctlQnum := BitVec.ofNat 12 (bits v.toNat 43 32), qctlPasid := BitVec.ofNat 20 (bits v.toNat 31 12),
                                 qctlResult := BitVec.ofNat 4 result, qctlBusy := busy } }

/-- A command while BUSY is ignored, but for RESULT. BUSY is 1 while the command `i` waits for its lookup (R60, R63). -/
def qctlCommand (s : State) (i : Instr) (v : Word) (f : State → State) : State :=
  let waits := s.host.tableWaits.any (fun e => e.1 == i)
  if s.host.qctlBusy && !waits then { s with host := { s.host with qctlResult := 6 } }
  else
    let key := bits v.toNat 31 12 * 4096 + bits v.toNat 43 32
    whenReady (qctlStore s v 0 true) i key (fun s => f (qctlStore s v 0 false))

def qctlResult (s : State) (r : Nat) : State := { s with host := { s.host with qctlResult := BitVec.ofNat 4 r } }
def qctlKey (s : State) : Nat := s.host.qctlPasid.toNat * 4096 + s.host.qctlQnum.toNat

def stageBytes (s : State) : List Byte := s.host.qStage.toList.flatMap (fun w => leBytes 8 w.toNat)

/-- QUEUE_CREATE. R64 gives no order among its results: an operand that it refuses answers BAD_STATE before FULL, a nonzero RING[6:5] counts
as a reserved byte, and a key that the table holds answers EXISTS first: DESIGN CHOICE (log 35). -/
def execQueueCreate (v : Word) (s : State) : Out :=
  event (qctlCommand s (.queueCreate v) v (fun s =>
    if !s.host.qhEn then qctlResult s 4
    else
      let key := qctlKey s
      let b := stageBytes s
      if (lookupQueue s key).isSome then qctlResult s 2
      else if bits (fieldAt b 5 1) 4 0 < 4 || decide (16 < bits (fieldAt b 5 1) 4 0) || !(bits (fieldAt b 5 1) 6 5 = 0)
          || decide (partCount s ≤ qcbPart b) || !zeroAt b 41 23 then qctlResult s 4
      else
        match (probeSlots s key).find? (fun x => !qcbLive (qcb s x)) with
        | none => qctlResult s 1
        | some slot =>
          let b1 := putErr (putTail (putState (patch b 0 (leBytes 4 key)) 2) (qcbHead b)) 0
          { qcbWrite s slot b1 with queues := s.queues.set slot {} }))

/-- The time-slice timer of a queue that leaves ERROR runs again (R77). -/
def resumeSlice (s : State) (slot : Nat) : State :=
  match (getQueue s slot).slice with
  | none => s
  | some _ => later (modQueue s slot (fun q => { q with slice := q.slice.map (fun t => (t.1, t.2.1, some s.now)) })) [.timesliceExpiry [slot]]

/-- QUEUE_RESUME. -/
def execQueueResume (v : Word) (s : State) : Out :=
  event (qctlCommand s (.queueResume v) v (fun s =>
    match lookupQueue s (qctlKey s) with
    | none => qctlResult s 3
    | some slot =>
      if qcbState (qcb s slot) = 4 then fetchMore (resumeSlice (qcbWrite s slot (putState (qcb s slot) 2)) slot) slot else qctlResult s 4))

/-! ## Destroying a queue (02 R75) -/

/-- Step 6: STATE := TOMB. -/
def tombQueue (s : State) (slot : Nat) : State :=
  let s1 := qcbWrite s slot (putState (qcb s slot) 1)
  { s1 with queues := s1.queues.del slot }

/-- Whether a queue's packets are complete, but for a DESTROY packet of its own that asked for its destroy. -/
def drained (q : QueueRun) (slot : Nat) : Bool := q.packets.all (fun p => q.destroyer == some (slot, p.seq))

/-- The destroy of a queue goes on when its packets are complete, and the kill fence of a DESTROY.KILL has ended: the DESTROY packet that
asked, if it still stands, completes (step 5), and TOMB follows its record (`afterRecord`); else TOMB at once, and BUSY of a command clears
(step 6). -/
def drainCheck (s : State) (slot : Nat) : State :=
  let q := getQueue s slot
  if q.draining.isNone || q.killWait.isSome || !drained q slot then s
  else
    match q.destroyer with
    | none =>
      whenSlot s (.packetCompletion slot) slot (fun s =>
        let s1 := tombQueue s slot
        { s1 with host := { s1.host with qctlBusy := false } })
    | some (d, seq) =>
      match (getQueue s d).packets.find? (fun p => p.seq = seq) with
      | some p => if p.workDone then s else packetDone s d seq (fun p => { p with status := 0 })
      | none => whenSlot s (.packetCompletion slot) slot (fun s => tombQueue s slot)

/-- The record of a DESTROY packet has been written: the queue that it destroyed is TOMB (R75 steps 5 and 6). -/
def afterRecord (s : State) (slot seq : Nat) : State :=
  (s.queues.filter (fun q => q.2.destroyer == some (slot, seq))).foldl (fun s q => drainCheck s q.1) s

/-- Blocks of a run that have been placed and have not finished. -/
def placedBlocks (r : Run) : Nat :=
  (r.blocks.filter (fun b => match b.2 with
    | .inbox => true
    | .resident _ => true
    | .preempted _ => true
    | _ => false)).length

/-- Blocks of the current packet that have not been dispatched are discarded (step 2). -/
def discardUndispatched (s : State) (slot : Nat) (p : PacketRun) : State :=
  let s1 := modPacket s slot p.seq (fun p => { p with dispatched := true, destroyed := true })
  match p.run with
  | none => packetDone s1 slot p.seq (fun q => { q with status := if packetType p.bytes = 1 then 3 else 0 })
  | some run =>
    let r := getRun s1 run
    if placedBlocks r = r.remaining then s1
    else
      checkRun (modRun (modPacket s1 slot p.seq (fun p => { p with discarded := true })) run (fun r => { r with closed := true, remaining := placedBlocks r })) run

/-- A destroy begins. -/
def startDestroy (s : State) (slot : Nat) (kill : Bool) (destroyer : Option (Nat × Nat)) : State :=
  let s1 := modQueue (qcbWrite s slot (putState (qcb s slot) 3)) slot (fun q =>
    { q with
      fetch := .idle
      rereads := 0
      draining := some kill
      destroyer := destroyer
      killWait := if kill then some (qcbCtx (qcb s slot)) else none })
  let own := match destroyer with
    | some (d, seq) => if d = slot then some seq else none
    | none => none
  let s2 := match currentPacket s1 slot with
    | some p => if own = some p.seq then s1 else discardUndispatched s1 slot p
    | none => s1
  let s3 := if kill then soon s2 [.kill (qcbCtx (qcb s slot))] else s2
  drainCheck s3 slot

/-- DESTROY and DESTROY.KILL from QCTL. R75 does not say what a destroy of a queue that is DRAINING already does: it answers BAD_STATE, a
DESIGN CHOICE (log 35). -/
def qctlDestroy (i : Instr) (v : Word) (kill : Bool) (s : State) : State :=
  qctlCommand s i v (fun s =>
    match lookupQueue s (qctlKey s) with
    | none => qctlResult s 3
    | some slot =>
      if (getQueue s slot).draining.isSome then qctlResult s 4
      else startDestroy { s with host := { s.host with qctlBusy := true } } slot kill none)

/-- DESTROY. -/
def execDestroy (v : Word) (s : State) : Out := event (qctlDestroy (.destroy v) v false s)
/-- DESTROY.KILL. -/
def execDestroyKill (v : Word) (s : State) : Out := event (qctlDestroy (.destroyKill v) v true s)

/-! ## Packets (02 R70, R71) -/

/-- What a packet's type does with the current packet, its queue control block and its body. -/
def withPacket (s : State) (slot : Nat) (f : PacketRun → List Byte → State) : State :=
  match currentPacket s slot with
  | none => s
  | some p => f p (qcb s slot)

/-- A LAUNCH packet whose context is ready. -/
def launchPacket (slot : Nat) (s : State) : State :=
  withPacket s slot (fun p b =>
    let ctx := qcbCtx b
    let va := fieldAt p.bytes 24 8
    let first := fieldAt p.bytes 32 4
    let count := fieldAt p.bytes 36 4
    if p.run.isSome then s
    else if !zeroAt p.bytes 40 20 || !(va % 64 = 0) then packetEnds s slot p.seq 1 0x01
    else
      match ctxRead s (queueEngine s slot ctx (qcbPart b)) va 1024 with
      | .busy s1 => later s1 [.launchPacket slot]
      | .bad code sub s1 => packetEnds (faultRecord s1 code sub ctx.toNat va) slot p.seq 1 code
      | .ok bytes s1 =>
        let lr := recordOf bytes
        let n := blockCount lr
        if !recordValid bytes || decide (n ≤ first) || (!(count = 0) && decide (n < first + count)) then packetEnds s1 slot p.seq 1 0x01
        else
          match regionHeld s1 ctx lr with
          | .busy s2 => later s2 [.launchPacket slot]
          | .bad _ _ s2 => packetEnds s2 slot p.seq 1 0x01
          | .ok held s2 =>
            if !held then packetEnds s2 slot p.seq 1 0x01
            else
              let (s3, run) := startRun s2 ctx lr first (if count = 0 then n - first else count) (.queue slot p.seq)
              bindRun (modPacket s3 slot p.seq (fun p => { p with run := some run })) run (BitVec.ofNat 3 (fieldAt b 7 1)))

/-- LAUNCH packet. A kill of its context that has come meanwhile ends first, and the context is read again (03 R102, 02 R62). -/
def execLaunchPacket (slot : Nat) (s : State) : Out :=
  event (whenSlot s (.launchPacket slot) slot (fun s =>
    match currentPacket s slot with
    | none => s
    | some p =>
      match ensureContext s slot (qcb s slot) with
      | .busy s1 => later s1 [.launchPacket slot]
      | .bad _ _ s1 => s1
      | .ok none s1 => launchPacket slot s1
      | .ok (some code) s1 => packetEnds s1 slot p.seq 1 code))

/-- RELAUNCH packet. -/
def execRelaunchPacket (slot : Nat) (s : State) : Out :=
  event (withPacket s slot (fun p b =>
    let run : BitVec 32 := BitVec.ofNat 32 (fieldAt p.bytes 24 4)
    if (getCtx s (qcbCtx b)).killing || (getCtx s (qcbCtx b)).killAsked then later s [.relaunchPacket slot]
    else if !zeroAt p.bytes 29 31 || !(s.runs.has run.toNat) || !((getRun s run).ctx == qcbCtx b) || relaunchRefused s run then packetEnds s slot p.seq 1 0x01
    else
      let s1 := modPacket s slot p.seq (fun p => { p with run := some run })
      beginRelaunch (dispatchEnded s1 slot p.seq) run (fieldAt p.bytes 28 1) (.queue slot p.seq)))

/-- DESTROY packet: a queue of the same PASID. One of a queue that is DRAINING already ends FAULTED with code 0, a DESIGN CHOICE (log 35). -/
def execDestroyPacket (slot : Nat) (s : State) : Out :=
  event (withPacket s slot (fun p b =>
    let q := fieldAt p.bytes 24 2
    if 4096 ≤ q || decide (2 ≤ fieldAt p.bytes 26 1) || !zeroAt p.bytes 27 33 then packetEnds s slot p.seq 1 0x01
    else
      let key := qcbKey b / 4096 * 4096 + q
      whenReady s (.destroyPacket slot) key (fun s =>
        match lookupQueue s key with
        | none => packetEnds s slot p.seq 1 0
        | some target =>
          if (getQueue s target).draining.isSome then packetEnds s slot p.seq 1 0
          else fetchMore (startDestroy (endDispatch s slot p.seq) target (fieldAt p.bytes 26 1 = 1) (some (slot, p.seq))) slot)))

/-- SIGNAL packet: its fence has been met when it became current. -/
def execSignal (slot : Nat) (s : State) : Out :=
  event (withPacket s slot (fun p _ => if zeroAt p.bytes 24 36 then packetEnds s slot p.seq 0 0 else packetEnds s slot p.seq 1 0x01))

/-- NOP packet. -/
def execNopPacket (slot : Nat) (s : State) : Out :=
  event (withPacket s slot (fun p _ => if zeroAt p.bytes 24 36 then packetEnds s slot p.seq 0 0 else packetEnds s slot p.seq 1 0x01))

/-- Whether a WAITMEM's condition holds: 0 EQ, 1 NE, 2 GEU, 3 LTU. -/
def waitmemHolds (c w v : Nat) : Bool := if c = 0 then w = v else if c = 1 then !(w = v) else if c = 2 then decide (v ≤ w) else decide (w < v)

/-- One read of a WAITMEM's word. -/
def waitmemRead (s : State) (slot : Nat) : State :=
  withPacket s slot (fun p b =>
    if !(packetType p.bytes = 6) || (getQueue s slot).draining.isSome then s
    else
      let ctx := qcbCtx b
      let va := fieldAt p.bytes 24 8
      let fail := fun (s : State) (code sub : Nat) => packetEnds (faultRecord s code sub ctx.toNat va) slot p.seq 1 code
      if !(va % 8 = 0) then fail s 0x03 0
      else if decide (3 < fieldAt p.bytes 48 1) || !zeroAt p.bytes 49 11 then fail s 0x01 0x01
      else
        match ctxRead s (queueEngine s slot ctx (qcbPart b)) va 8 with
        | .busy s1 => later s1 [.waitmemPoll slot]
        | .bad code sub s1 => fail s1 code sub
        | .ok w s1 =>
          if waitmemHolds (fieldAt p.bytes 48 1) (ofBytes w &&& fieldAt p.bytes 40 8) (fieldAt p.bytes 32 8) then packetEnds s1 slot p.seq 0 0
          else later s1 [.waitmemPoll slot])

/-- WAITMEM packet. -/
def execWaitmem (slot : Nat) (s : State) : Out := event (waitmemRead s slot)
/-- WAITMEM_POLL. -/
def execWaitmemPoll (slot : Nat) (s : State) : Out := event (waitmemRead s slot)

/-! ## Completion (02 R74) -/

/-- The 32 bytes of a completion record. -/
def completionRecord (s : State) (p : PacketRun) : List Byte :=
  leBytes 4 p.seq ++ [BitVec.ofNat 8 p.status, p.code, 0, 0] ++ leBytes 4 p.exited ++ leBytes 4 p.killed ++ leBytes 8 p.result.toNat ++ leBytes 8 s.now

/-- The completion record and the signal of a packet; busy while a write of them is on its way. A CADDR with bit 63 set names the bus
address of its other bits: DESIGN CHOICE, R67 does not say whether bit 63 is a part of the address (log 55). -/
def writeCompletion (s : State) (slot : Nat) (p : PacketRun) : Served Unit :=
  let b := qcb s slot
  let e := queueEngine s slot (qcbCtx b) (qcbPart b)
  let record := packetCr p.bytes || packetType p.bytes = 4
  match (if record then devWrite s e (!qcbRmem b) 0 (qcbRecords b + 32 * (p.seq % qcbSlots b)) (completionRecord s p) else .ok () s) with
  | .busy s1 => .busy s1
  | .bad code sub s1 => .bad code sub s1
  | .ok _ s1 =>
    if packetSig p.bytes then
      let a := fieldAt p.bytes 8 8
      devWrite s1 e (a.testBit 63) 100 (if a.testBit 63 then a - 2 ^ 63 else a) (leBytes 8 (fieldAt p.bytes 16 8))
    else .ok () s1

/-- The packet whose completion is written now: the one begun, else the oldest whose work is complete. -/
def completing (q : QueueRun) : Option PacketRun :=
  match q.packets.find? (fun p => p.workDone && q.writing == some p.seq) with
  | some p => some p
  | none => q.packets.find? (fun p => p.workDone)

/-- PACKET_COMPLETION. R74 does not say what follows when its write fails: a FAULT record names CRBASE, and a record that failed leaves no
signal (DESIGN CHOICE, log 35). -/
def execPacketCompletion (slot : Nat) (s : State) : Out :=
  event (
    match completing (getQueue s slot) with
    | none => drainCheck s slot
    | some p =>
      let gone := fun (s : State) =>
        let s1 := modQueue (clearPieces s (16384 + slot)) slot (fun q =>
          { q with packets := q.packets.filter (fun x => !(x.seq = p.seq)), writing := none })
        let s2 := if (getQueue s1 slot).packets.any (fun p => p.workDone) then later s1 [.packetCompletion slot] else s1
        drainCheck (afterRecord (fetchMore s2 slot) slot p.seq) slot
      whenSlot s (.packetCompletion slot) slot (fun s =>
        match writeCompletion s slot p with
        | .busy s1 => later (modQueue s1 slot (fun q => { q with writing := some p.seq })) [.packetCompletion slot]
        | .bad code sub s1 => gone (faultRecord s1 code sub (qcbCtx (qcb s slot)).toNat (qcbRecords (qcb s slot)))
        | .ok _ s1 => gone s1))

/-! ## Registers with rules of their own (02 R47, R59, R62, R72, R76) -/

/-- QHCTL_WRITE. -/
def execQhctlWrite (v : Word) (s : State) : Out :=
  event (
    let h := s.host
    let en := v.getLsbD 31
    let log := bits v.toNat 4 0
    if !en && h.qhEn && anyLive s then s
    else
      { s with host := { h with qhEn := en, qhLog := if h.qhEn then h.qhLog else if 6 ≤ log && decide (log ≤ 16) then BitVec.ofNat 5 log else 6 } })

/-- CTXCTL_WRITE. -/
def execCtxctlWrite (v : Word) (s : State) : Out :=
  event (
    let h := s.host
    let log := bits v.toNat 4 0
    { s with host := { h with ctxEn := v.getLsbD 31,
                              ctxLog := if anyLive s then h.ctxLog else if 4 ≤ log && decide (log ≤ 16) then BitVec.ofNat 5 log else 4 } })

/-- A power of two from 16 to 2^20. -/
def ringSizeValid (n : Nat) : Bool := (List.range 17).any (fun k => n = 2 ^ (k + 4))

/-- ERROR_RING_SETUP: a new ring; records pending in the old one are lost to the host. -/
def execErrorRingSetup (toSize : Bool) (v : Word) (s : State) : Out :=
  event (
    let h := s.host
    let pending := !(h.errHead = h.errTail)
    let h1 := if toSize then { h with errSize := if ringSizeValid v.toNat then v else 16 } else { h with errBase := v &&& ~~~(63 : Word) }
    { s with host := { h1 with errHead := 0, errTail := 0, lost := pending || h.lost } })

/-- Whether a STORAGE copy of a partition is in flight. -/
def storageBusy (s : State) (part : Nat) : Bool :=
  s.tiles.any (fun e => partOfDie s (e.1 / 128) = part && (e.2.dray.toList.any (fun q => q.any (fun c => c.tpl.kind = 2))))

/-- What word `i` of a storage block keeps of a write: bits 7:1 of CTL and bytes 43-63 are reserved (R72, 00 R9). -/
def storageKept (i : Nat) (v : Word) : Word := if i < 5 then v else if i = 5 then v &&& 0x01ffff else 0

/-- STORAGE_BLOCK_WRITE: ignored while V is 1 and a STORAGE copy is in flight; V from 0 to 1 resets tail, head and phase. -/
def execStorageBlockWrite (part : Fin 8) (offset : Nat) (v : Word) (s : State) : Out :=
  event (
    let h := s.host
    let old := storageV s part.val
    if old && storageBusy s part.val then s
    else
      let blk := (h.storage.get (Vector.replicate 8 0) part.val).mapIdx (fun i w => if i = offset / 8 then storageKept i v else w)
      let s1 := { s with host := { h with storage := h.storage.set part.val blk } }
      if !old && storageV s1 part.val then { s1 with host := { s1.host with storageRun := s1.host.storageRun.set part.val (0, 0, true) } } else s1)

/-- Whether a partition is idle: no context is resident in it (01 R16). -/
def partIdle (s : State) (part : Nat) : Bool :=
  !s.strands.any (fun e => partOfDie s (e.1 / 2048) = part) && !s.couriers.any (fun e => partOfDie s (e.1 / 512) = part)
    && !s.clusters.any (fun c => partOfCluster s c.1 = part && c.2.slots.any (fun r => r.2.state == 1 || r.2.state == 2))

/-- PARTCFG_WRITE: CFGERR is cleared by 1; a change of MODE needs every partition idle and no live queue. Tiles whose
tolerance it changes follow the new one (04 R115). -/
def execPartcfgWrite (v : Word) (s : State) : Out :=
  event (
    let h := s.host
    let mode := BitVec.ofNat 2 v.toNat
    let err := h.cfgErr && !(v.getLsbD 2)
    if mode = h.partMode then { s with host := { h with cfgErr := err } }
    else if (List.range (partCount s)).all (partIdle s) && !anyLive s then
      let s1 := { s with host := { h with cfgErr := err, partMode := mode } }
      followTolerance s1 ((List.range 1024).filter (fun t => !(tolerance s1 t = tolerance s t)))
    else { s with host := { h with cfgErr := true } })

end Sys2Proof.Machine
end

