-- ==== Sys2Proof/Machine/Sched.lean ====
section
/-!
DEFINITION. The ostler's dispatch: bind records, the placing and activation of blocks, trigger handlers and couriers (03 R83-R88; 05
R131-R148, R155).
-/
namespace Sys2Proof.Machine

/-! ## MFW (03 R83) -/

/-- MFW_WRITE: ignored once LOCK is set. -/
def execMfwWrite (cluster : Nat) (v : Word) (s : State) : Out :=
  event (if (getCluster s cluster).mfwLock then s
    else modCluster s cluster (fun c => { c with mfwLock := v.getLsbD 63, ostMask := BitVec.ofNat 8 v.toNat }))

/-! ## Bind records (03 R84, R85, R126; 05 R137, R148) -/

def recordLive (r : BindRecord) : Bool := r.state == 1 || r.state == 2

/-- The arrays of the partition go to the contexts whose BOUND and HELD records grant them; an array of a context that is being killed
stays with it until the kill fence ends (10 R265). -/
def regrant (s : State) : State :=
  (List.range 8).foldl (fun s g =>
    let part := g * partCount s / 8
    let k := g - part * arraysPerPart s
    let f := getArray s g
    if f.ctx.any (fun c => (getCtx s c).killing || (getCtx s c).killAsked) then s
    else
      let holder := s.clusters.findSome? (fun c =>
        if partOfCluster s c.1 = part then (c.2.slots.find? (fun r => recordLive r.2 && r.2.feltGrant.getLsbD k)).map (fun r => r.2.ctx) else none)
      modArray s g (fun f => { f with ctx := holder })) s

/-- Reserved bytes and bits of a record. -/
def recordReserved (r : BindRecord) : Bool :=
  !(r.reserved == 0) || !(bits r.gearReq.toNat 7 1 = 0) || !(bits r.prio.toNat 6 3 = 0) || !(bits r.service.toNat 47 44 = 0)
    || !(bits r.saveArea.toNat 47 45 = 0)

/-- What dispatch refuses a record for on reaching BOUND: sub-code 1 BADBIND, 2 BADBOOT (03 R85, 05 R137, R148). -/
def bindRefusal (s : State) (cluster : Nat) (r : BindRecord) : Option Nat :=
  let lo := r.pbLo.toNat
  let mid := r.pbMid.toNat
  let hi := r.pbHi.toNat
  let part := partOfCluster s cluster
  let grantBad := (List.range 8).any (fun k => r.feltGrant.getLsbD k && (match arrayOf s part k with
    | none => true
    | some g => (getArray s g).ctx.any (fun c => !(c == r.ctx))))
  if !(decide (lo ≤ mid) && decide (mid ≤ hi) && decide (hi ≤ 192)) || decide (16 < r.panBase.toNat + r.panCnt.toNat)
      || decide (r.blkLast.toNat < r.blkFirst.toNat) || !(r.tileMask &&& (getCluster s cluster).ostMask == 0) || grantBad || recordReserved r
      || decide (lo < 8 * r.panCnt.toNat) || !((192 - hi) % 4 = 0) then some 1
  else
    let lr := (getRun s r.run).lr
    if decide ((mid - lo) * 4096 < bootOffset lr.boots lr.boots.length + 16 * lr.stack) then some 2 else none

/-- A fare tag that no context has (04 R126). -/
def unusedTag (s : State) : BitVec 16 :=
  BitVec.ofNat 16 (((List.range (s.fareTags.length + 1)).find? (fun k => !(s.fareTags.has (k + 1)))).getD 0 + 1)

/-- What a context takes from a record that has become BOUND. -/
def bindContext (s : State) (cluster : Nat) (r : BindRecord) : State :=
  let c := getCtx s r.ctx
  let tag := if c.fareTag = 0 then unusedTag s else c.fareTag
  let s1 := modCtx s r.ctx (fun c =>
    { c with
      bound := true
      held := false
      pdom := r.pdom
      gearReq := r.gearReq.getLsbD 0
      prio := BitVec.ofNat 3 r.prio.toNat
      coach := c.coach || r.prio.getLsbD 7
      fareAcct := r.fareAcct
      feltGrant := r.feltGrant
      part := partOfCluster s cluster
      service := BitVec.ofNat 64 (r.service.toNat * 8192)
      saveArea := BitVec.ofNat 64 (r.saveArea.toNat * 4096)
      fareTag := tag })
  { s1 with fareTags := s1.fareTags.set tag.toNat r.fareAcct.toNat }

/-- A slot table's record replaced. -/
def setRecord (s : State) (cluster slot : Nat) (r : BindRecord) : State :=
  modCluster s cluster (fun c => { c with slots := c.slots.set slot r })

/-- BIND_RECORD_WRITE: bytes of a FREE record are stored; of a BOUND or HELD record STATE alone. A write of its other bytes is recorded: one
that would change them, or that does not write STATE (R85). On reaching BOUND dispatch accepts the record or makes it FREE. -/
def execBindRecordWrite (cluster slot offset : Nat) (bytes : List Byte) (s : State) : Out :=
  event (
    let old := (getCluster s cluster).slots.get {} slot
    let ob := bindBytes old
    let nb := patch ob offset bytes
    let b := if recordLive old then patch ob 50 ((nb.drop 50).take 1) else nb
    let writesState := decide (offset ≤ 50) && decide (50 < offset + bytes.length)
    let s1 := if b = nb && (writesState || !recordLive old) then s
      else logRecord s { cls := .hw, sub := 6, source := clusterSource cluster, ctx := old.ctx.toNat, addr := ostlerBase + 0x2000 * cluster + 64 * slot }
    let r := bindOfBytes b
    if r.state = 1 && !(old.state == 1) then
      match bindRefusal s1 cluster r with
      | some sub =>
        regrant (setRecord (logRecord s1 { cls := .hw, sub := sub, source := clusterSource cluster, ctx := r.ctx.toNat, addr := ostlerBase + 0x2000 * cluster + 64 * slot })
          cluster slot { r with state := 0 })
      | none =>
        let s2 := regrant (bindContext (setRecord s1 cluster slot r) cluster r)
        later s2 (boundTokens s2 (fun x => x == r))
    else regrant (setRecord s1 cluster slot r))

/-! ## Placing blocks (03 R86-R88; 05 R133, R134) -/

/-- The unit of a DOMAIN code that a strand lies in (05 R129): 0 PACKAGE, 1 DIE, 2 CLUSTER, 3 TILE, 4 CORE, 5 STRAND. -/
def domainUnit (domain core : Nat) : Nat :=
  if domain = 0 then 0 else if domain = 1 then core / 512 else if domain = 2 then core / 32 else if domain = 3 then core / 4 else core

/-- Where a placed block of a run is: the core of its strand, or the one whose inbox holds it; for a removed block whose tile image stands on
a tile, the core to which it will return. -/
def coreOfBlock (s : State) (run : BitVec 32) (i : Nat) : Option Nat :=
  match (getRun s run).blocks.get .waiting i with
  | .resident n => some (n / 4)
  | .inbox => (s.cores.find? (fun c => c.2.inbox.any (fun e => match e with
      | .block r k _ _ => r == run && k == i
      | .courier _ => false))).map (·.1)
  | .preempted _ => ((getRun s run).saved.find? (fun b => b.block == i)).bind (fun b => (imageTile s b.image).map (fun t => 4 * t + b.number / 4 % 4))
  | _ => none

/-- A block may run on a core as far as the domains of its levels go: the resident blocks of each instance stay in one unit (05 R133). -/
def domainOk (s : State) (run : BitVec 32) (i core : Nat) : Bool :=
  let r := getRun s run
  (List.range r.lr.levels.length).all (fun k =>
    match r.lr.levels[k]? with
    | none => true
    | some l =>
      let below := ((r.lr.levels.drop (k + 1)).map (·.count)).foldl (· * ·) 1
      l.domain.toNat = 5 || r.blocks.all (fun b =>
        !(b.1 / below = i / below) || (match coreOfBlock s run b.1 with
          | some c => domainUnit l.domain.toNat c = domainUnit l.domain.toNat core
          | none => true)))

/-- The lowest number from `lo` on that a rising list of keys does not hold. -/
def firstMissing (keys : List Nat) (lo : Nat) : Nat :=
  match keys with
  | [] => lo
  | k :: rest => if k < lo then firstMissing rest lo else if k = lo then firstMissing rest (lo + 1) else lo

/-- The next block of a run in a range of indices that has not been placed (03 R86). -/
def nextBlock (r : Run) (lo hi : Nat) : Option Nat :=
  let c := match r.relaunch with
    | some (set, _, _, _) => set.find? (fun i => decide (lo ≤ i) && !(r.blocks.has i))
    | none => some (firstMissing (r.blocks.map (·.1)) (max lo r.first))
  match c with
  | some i => if i ≤ hi ∧ (r.relaunch.isSome ∨ i ≤ r.last) then some i else none
  | none => none

/-- Strands of a tile that hold nothing. -/
def freeStrands (s : State) (tile : Nat) : List Nat := (numbersFrom (16 * tile) 16).filter (fun n => !(s.strands.has n))

/-- Whether a tile holds a block of a context other than `ctx`, on a strand or in an inbox. -/
def otherBlocks (s : State) (tile : Nat) (ctx : BitVec 32) : Bool :=
  (tileStrands s tile).any (fun e => !((getRun s (actRun e.2.act)).ctx == ctx))
    || (List.range 4).any (fun c => (getCore s (4 * tile + c)).inbox.any (fun e => match e with
      | .block r _ _ _ => !((getRun s r).ctx == ctx)
      | .courier _ => false))

/-- A tile's pool boundaries are the record's (03 R86). The panel window, PANBASE and PANCNT, is one per tile too and is asked to agree as
well, which R86 does not say: a DESIGN CHOICE (log 26). -/
def boundariesAgree (t : Tile) (r : BindRecord) : Bool :=
  t.pbLo = r.pbLo.toNat && t.pbMid = r.pbMid.toNat && t.pbHi = r.pbHi.toNat && t.panBase = r.panBase.toNat && t.panCnt = r.panCnt.toNat

/-- Whether a tile has not been handed on from a killed context: its kill fence has not ended (03 R102 step 4). -/
def fenced (s : State) (tile : Nat) : Bool :=
  (getTile s tile).images.any (fun i => (getCtx s i.2).killing) || s.contexts.any (fun c => c.2.killing && (decide (tile ∈ c.2.doomedTiles) || c.2.doomedBanks.any (fun b => b.1 = tile)))

/-- Whether a record may place its blocks on a tile at all. -/
def tileAllowed (s : State) (r : BindRecord) (tile : Nat) : Bool :=
  let c := getCluster s (tile / 8)
  !fenced s tile && r.tileMask.getLsbD (tile % 8) && c.tmask.getLsbD (tile % 8) && !ostlerTile s tile && !clusterResetting s (tile / 8)

/-- The block that a record places on a core, if it can place one. -/
def placeable (s : State) (cluster core : Nat) (r : BindRecord) : Option Nat :=
  let tile := core / 4
  let run := getRun s r.run
  if !(r.state == 1) || !(core / 32 = cluster) || !(s.runs.has r.run.toNat) || !(run.ctx == r.ctx) || (getCtx s r.ctx).killing || (getCtx s r.ctx).killAsked || (getCtx s r.ctx).held
      || run.complete || run.closed || (run.relaunch.isSome && !(run.faultCode == 0)) || !tileAllowed s r tile || (freeStrands s tile).isEmpty
      || (!boundariesAgree (getTile s tile) r && otherBlocks s tile r.ctx) || decide (32 ≤ inboxUsed (getCore s core)) then none
  else
    match nextBlock run r.blkFirst.toNat r.blkLast.toNat with
    | some i => if i < run.floor ∧ domainOk s r.run i core then some i else none
    | none => none

/-- Whether a record that is served before this one could place a block on some core (03 R86: PRIO, then slot order). -/
def betterRecord (s : State) (cluster slot : Nat) (r : BindRecord) : Bool :=
  (getCluster s cluster).slots.any (fun e =>
    (decide (r.prio.toNat % 8 < e.2.prio.toNat % 8) || (decide (e.2.prio.toNat % 8 = r.prio.toNat % 8) && decide (e.1 < slot)))
      && (numbersFrom (32 * cluster) 32).any (fun c => (placeable s cluster c e.2).isSome))

/-- A gear request as a gear. -/
def gearOf (gallop : Bool) : Gear := if gallop then .gallop else .walk

/-- Whether every block of a launch has been placed. -/
def allPlaced (r : Run) : Bool := r.relaunch.isNone && decide (r.blocks.length = r.last + 1 - r.first)

/-- A block's message goes into a core's inbox, its record's boundaries into the tile (03 R85, 05 R134). -/
def placeBlock (s : State) (core : Nat) (r : BindRecord) (i : Nat) : State :=
  let tile := core / 4
  let s1 := modTile s tile (fun t =>
    { t with
      pbLo := r.pbLo.toNat
      pbMid := r.pbMid.toNat
      pbHi := r.pbHi.toNat
      panBase := r.panBase.toNat
      panCnt := r.panCnt.toNat })
  let s2 := modCore s1 core (fun u => { u with inbox := u.inbox ++ [.block r.run i (getCtx s r.ctx).generation (getRun s r.run).lr.args] })
  let s3 := modRun s2 r.run (fun x => { x with blocks := x.blocks.set i .inbox })
  let s4 := if allPlaced (getRun s3 r.run) then launchPlaced s3 r.run else s3
  wakeCore (if (getTile s4 tile).gear = .park then askWake s4 tile (some (gearOf (r.gearReq.getLsbD 0))) else s4) core

/-- BLOCK_DISPATCH: not before the launch's own writes of a waybill region are made (08 R211). -/
def execBlockDispatch (cluster slot core : Nat) (s : State) : Out :=
  event (
    let r := (getCluster s cluster).slots.get {} slot
    match placeable s cluster core r with
    | none => s
    | some i =>
      if !(getRun s r.run).parked.isEmpty || betterRecord s cluster slot r then later s [.blockDispatch cluster slot core]
      else later (placeBlock s core r i) [.blockDispatch cluster slot core])

/-! ## Activation (05 R135, R137, R138, R144, R155) -/

/-- A context's capability on a tile, chosen afresh (05 R155). -/
def grantCapability (s : State) (tile : Nat) (ctx : BitVec 32) : State :=
  if (getTile s tile).mcap.any (fun e => e.1 == ctx) then s
  else
    let c := getCtx s ctx
    let w : Word := BitVec.ofNat 64 (c.generation.toNat * 2 ^ 48 + c.pdom.toNat * 2 ^ 32 + (Config.freeCapability s.free).toNat)
    modTile { s with free := s.free + 1 } tile (fun t => { t with mcap := t.mcap ++ [(ctx, w)] })

/-- The tile image of a run, made when its first block activates on the tile: boots zeroed and their lines empty (05 R138). -/
def makeImage (s : State) (tile : Nat) (run : BitVec 32) : State :=
  if hasImage s tile run then s
  else
    let lr := (getRun s run).lr
    let s1 := modTile s tile (fun t =>
      let lo := 4096 * t.pbLo
      let n := bootOffset lr.boots lr.boots.length
      { t with
        images := t.images ++ [(run, (getRun s run).ctx)]
        ids := t.ids.set run.toNat s.nextImage
        pool := memClear t.pool lo n
        poolBad := wordsLeft t.poolBad lo n
        full := t.full.filter (fun l => decide (128 * l < lo) || decide (lo + n ≤ 128 * l)) })
    (List.range 4).foldl (fun s c => modCore s (4 * tile + c) (fun u => { u with dropped := u.dropped.filter (fun d => !(d.1 == run)) ++ [(run, 0)] }))
      { s1 with nextImage := s1.nextImage + 1 }

/-- The bind record by which a block runs on a tile's cluster. -/
def recordOfBlock (s : State) (tile : Nat) (run : BitVec 32) (i : Nat) : Option BindRecord :=
  ((getCluster s (tile / 8)).slots.find? (fun e => recordLive e.2 && e.2.run == run && decide (e.2.blkFirst.toNat ≤ i) && decide (i ≤ e.2.blkLast.toNat))).map (·.2)

/-- A strand as activation leaves it (05 R135). -/
def freshStrand (s : State) (n : Nat) (run : BitVec 32) (pc : Word) (args : List Word) (gear : Bool) (act : Activation) : Strand :=
  let t := getTile s (n / 16)
  let sp := windowBase + stackTop t (getRun s run).lr (n / 4 % 4) (n % 4)
  { pc := pc, gearReq := gear, act := act
    x := Vector.ofFn (fun (r : Fin 32) =>
      if r.val = 2 then BitVec.ofNat 64 sp else if 10 ≤ r.val ∧ r.val < 15 then args.getD (r.val - 10) 0 else 0) }

/-- Whether a tile can start work: powered, its partition not under reset. -/
def tileReady (s : State) (tile : Nat) : Bool := !(decide ((getTile s tile).gear = .park)) && !clusterResetting s (tile / 8)

/-- The records of a block's sample log, from offset `off` on, `n` of them: number, offset and bytes of the sample (08 R224). -/
def logRecords (s : State) (run : BitVec 32) (i off n : Nat) : Served (List (Nat × Nat × Nat)) :=
  match n with
  | 0 => .ok [] s
  | k + 1 =>
    (regionBytes s run (logBase (getRun s run).lr i + off) 16).andThen (fun h s1 =>
      (logRecords s1 run i (off + logLength (fieldAt h 10 2)) k).andThen (fun rest s2 => .ok ((fieldAt h 8 2, off, fieldAt h 10 2) :: rest) s2))

/-- The sample log that a re-run block goes by: none outside a replay (08 R224, R225). -/
def replayLog (s : State) (run : BitVec 32) (i : Nat) : Served (List (Nat × Nat × Nat)) :=
  let r := getRun s run
  if !(r.relaunch.isSome && r.lr.replay) then .ok [] s
  else (regionBytes s run (0x1000 + 128 * i) 8).andThen (fun e s1 => logRecords s1 run i 0 (fieldAt e 7 1))

/-- A block starts on a strand (05 R135, R138, R155). -/
def startBlock (s : State) (n : Nat) (run : BitVec 32) (i : Nat) (args : List Word) (log : List (Nat × Nat × Nat)) : State :=
  let tile := n / 16
  let ctx := (getRun s run).ctx
  let s2 := grantCapability (makeImage s tile run) tile ctx
  let gear := match recordOfBlock s2 tile run i with
    | some r => r.gearReq.getLsbD 0
    | none => (getCtx s2 ctx).gearReq
  let t := { freshStrand s2 n run (getRun s2 run).lr.entry args gear (.block run i) with buffer := { log := log } }
  gearCheck (modRun { s2 with strands := s2.strands.set n t } run (fun r => { r with blocks := r.blocks.set i (.resident n) })) tile

/-- BLOCK_ACTIVATION: a free strand takes the oldest block message of its core; triggers go first, and one at or above FLOOR goes back to
dispatch instead (03 R88). A re-run block whose sample log cannot be
read ends its relaunch (08 R416). -/
def execBlockActivation (n : Nat) (s : State) : Out :=
  event (
    let core := n / 4
    let tile := n / 16
    let u := getCore s core
    if s.strands.has n || !tileReady s tile then s
    else if (eligible u).isSome then later s [.triggerLatch n, .blockActivation n]
    else
      match u.inbox.findSome? (fun e => match e with
          | .block r i g a => some (r, i, g, a)
          | .courier _ => none) with
      | none => s
      | some (run, i, g, args) =>
        let ctx := (getRun s run).ctx
        let taken := fun (s : State) => modCore s core (fun u => { u with inbox := u.inbox.erase (.block run i g args) })
        let age := ((getCtx s ctx).generation - g).toNat
        if 1 ≤ age ∧ age < 32768 then later (taken s) [.blockActivation n]
        else if (getRun s run).floor ≤ i then s
        else
          match replayLog s run i with
          | .busy s1 => later s1 [.blockActivation n]
          | .bad code _ s1 => later (checkRun (relaunchFails s1 run code) run) [.blockActivation n]
          | .ok log s1 => startBlock (taken s1) n run i args log)

/-- Whether a tile image of a context is to be saved: all its blocks on the tile are to be removed. Its triggers wait (03 R91 step 4). -/
def imageLeaves (s : State) (tile : Nat) (ctx : BitVec 32) : Bool :=
  let mine := (tileStrands s tile).filter (fun e => match e.2.act with
    | .block r _ => (getRun s r).ctx == ctx
    | _ => false)
  !mine.isEmpty && mine.all (fun e => e.2.stopping)

/-- TRIGGER_LATCH: a free strand takes the oldest eligible trigger and runs its slot's handler of that moment (05 R144, R146). -/
def execTriggerLatch (n : Nat) (s : State) : Out :=
  event (
    let core := n / 4
    let tile := n / 16
    match eligible (getCore s core) with
    | none => s
    | some (run, slot, line, h) =>
      let r := getRun s run
      if s.strands.has n then s
      else if (getTile s tile).gear = .park then askWake s tile (some (gearOf (getCtx s r.ctx).gearReq))
      else if clusterResetting s (tile / 8) || imageLeaves s tile r.ctx then s
      else
        let s1 := modCore s core (fun u => { u with triggers := u.triggers.erase (run, slot, line) })
        let t := freshStrand s1 n run h (line :: BitVec.ofNat 64 slot :: r.lr.args.drop 2) (getCtx s r.ctx).gearReq (.handler run line slot)
        gearCheck { s1 with strands := s1.strands.set n t } tile)

/-- The courier slot's registers for a message (05 R142). -/
def courierStrand (m : CourierMsg) : Strand :=
  { act := .courier m.run, words := m.words, budget := m.budget, barrier := m.barrier, senderTile := m.senderTile, senderImage := m.senderImage
    senderTag := m.senderTag
    x := Vector.ofFn (fun (r : Fin 32) => if 10 ≤ r.val ∧ r.val < 15 then m.args.getD (r.val - 10) 0 else 0) }

/-- COURIER_START: the slot takes the oldest courier of its inbox; without an image of the target run it does not run (05 R142). -/
def execCourierStart (core : Nat) (s : State) : Out :=
  event (
    if s.couriers.has core || !tileReady s (core / 4) then s
    else
      match (getCore s core).inbox.findSome? (fun e => match e with
          | .courier m => some m
          | .block _ _ _ _ => none) with
      | none => s
      | some m =>
        let s1 := modCore s core (fun u => { u with inbox := u.inbox.erase (.courier m) })
        let s2 := { s1 with couriers := s1.couriers.set core (courierStrand m) }
        if hasImage s (core / 4) m.run then s2 else endCourier s2 core 0x0A)

end Sys2Proof.Machine
end

