-- ==== Sys2Proof/Machine/Preempt.lean ====
section
/-!
DEFINITION. Pre-emption and resumption: CUT, RESUME, HOLD, RELEASE, fare holds and grants, save records and tile images (03 R90-R94,
R100; 04 R114, R125; 06 R176; 10 R265; 15 R349).
-/
namespace Sys2Proof.Machine

/-! ## When a strand can be removed (03 R91 steps 1 and 2) -/

/-- The engine has nothing of a strand but, perhaps, an MMA that is its last accepted command: that one stops between two K steps, or before
its first (03 R91 step 2, 15 R349). -/
def engineAllows (t : Tile) (n : Nat) : Bool :=
  match acceptedOf t n with
  | [] => true
  | [c] => isMma c.op
  | _ => false

/-- No segment of a copy that the predicate picks is in flight on a tile. -/
def copiesAllow (t : Tile) (p : Copy → Bool) : Bool := t.dray.toList.all (fun q => q.all (fun c => !p c || (!c.active && c.outstanding.isEmpty)))

/-- Every output stream has written its groups. -/
def streamsAllow (t : Strand) : Bool := t.q.toList.all (fun q => !(q.bound && q.out) || q.buffer.isEmpty)

/-- A strand stands at an instruction boundary, stalled, or awaiting a fault reply; nothing that it asked for is on its way, and its
engines are at their pre-emption points. -/
def strandStops (s : State) (n : Nat) : Bool :=
  let t := s.strands.get {} n
  let u := getTile s (n / 16)
  (decide (t.status = .ready) || decide (t.status = .stalled) || (match t.status with
      | .awaitReply _ _ => true
      | .awaitPost _ => true
      | _ => false))
    && t.acks = 0 && t.replyValue.isNone && t.peerBytes.isEmpty && t.deferred.isNone && t.replyFault.isNone
    && u.changing.isNone && engineAllows u n && copiesAllow u (fun c => c.strand == some n) && streamsAllow t
    && s.felt.toList.all (fun f => !(f.runCmd.any (fun c => cmdStrand s c = n)))

/-- Handlers of a context that run on a tile. -/
def tileHandlers (s : State) (tile : Nat) (ctx : BitVec 32) : List Nat :=
  ((tileStrands s tile).filter (fun e => match e.2.act with
    | .handler r _ _ => (getRun s r).ctx == ctx
    | _ => false)).map (·.1)

/-- Blocks of a context on a tile's strands. -/
def tileBlocks (s : State) (tile : Nat) (ctx : BitVec 32) : List Nat :=
  ((tileStrands s tile).filter (fun e => match e.2.act with
    | .block r _ => (getRun s r).ctx == ctx
    | _ => false)).map (·.1)

/-- The tile image of a context can be saved: its handlers stop, and no copy of the context has a segment in flight. -/
def imageStops (s : State) (tile : Nat) (ctx : BitVec 32) : Bool :=
  (tileHandlers s tile ctx).all (strandStops s) && copiesAllow (getTile s tile) (fun c => c.ctx == ctx)

/-- Copies of a strand pause, or go on. -/
def pauseCopies (s : State) (n : Nat) (on : Bool) : State :=
  modTile s (n / 16) (fun t => { t with dray := t.dray.map (fun q => q.map (fun c => if c.strand == some n then { c with paused := on } else c)) })

/-- A strand is to be removed: it stops at its next instruction boundary, and its engines at their next pre-emption points: copies pause
after their segments, a final MMA makes no further K step, its streams read nothing ahead (03 R91 steps 1 and 2, 15 R349, R370). -/
def stopUnits (s : State) (n : Nat) : State := pauseCopies (modAgent s (.strand n) (fun t => { t with stopping := true })) n true

/-- The engines of a strand go on. -/
def unitsGoOn (s : State) (n : Nat) : State :=
  later (pauseCopies s n false) ([.kStep (n / 16), .matrixCommandStart (n / 16)]
    ++ (List.range 4).filterMap (fun k => if h : k < 4 then some (.draySegment (n / 16) ⟨k, h⟩) else none)
    ++ (List.range 8).filterMap (fun k => if h : k < 8 then some (.streamTransfer n ⟨k, h⟩) else none))

/-- A strand that was to be removed goes on after all, with its engines. -/
def goUnits (s : State) (n : Nat) : State := wakeCore (unitsGoOn (modAgent s (.strand n) (fun t => { t with stopping := false })) n) (n / 4)

/-- A block's strand is to be removed, and with the context's last block on the tile the handlers there (03 R91 step 4, 05 R147). -/
def stopStrand (s : State) (n : Nat) : State :=
  let ctx := agentCtx s (.strand n)
  let also := if tileBlocks s (n / 16) ctx == [n] then tileHandlers s (n / 16) ctx else []
  (n :: also).foldl stopUnits s

/-- A block's strand can be removed now. -/
def blockStops (s : State) (n : Nat) : Bool :=
  let ctx := agentCtx s (.strand n)
  strandStops s n && (!(tileBlocks s (n / 16) ctx == [n]) || imageStops s (n / 16) ctx)

/-! ## Save records (03 R92) -/

/-- STOP (03 R92): the cause, and where the strand stopped. -/
def stopByte (t : Strand) (cause : Nat) : BitVec 8 :=
  let point := match t.status with
    | .awaitReply _ _ => 2
    | .awaitPost _ => 2
    | .stalled => 1
    | _ => 0
  BitVec.ofNat 8 (cause + 16 * point)

def placeWord (o : Option Nat) : List Byte :=
  match o with
  | some v => leBytes 2 (0x8000 + v)
  | none => [0, 0]

/-- An entry of the accumulator directory. -/
def directoryEntry (o : Option AccName) : List Byte :=
  match o with
  | none => List.replicate 16 0xFF ++ List.replicate 16 0
  | some n =>
    (n.banks.map (fun b => BitVec.ofNat 8 b) ++ List.replicate (16 - n.banks.length) 0xFF).take 16 ++ leBytes 2 n.status.toNat
      ++ [BitVec.ofNat 8 (1 + 2 * b2n n.fp64), 0] ++ leBytes 4 n.owner.toNat ++ List.replicate 8 0

/-- The read buffer: marks, ranges in use, samples issued, settled and logged, skip window, then 32 ranges (assumption log 24). -/
def bufferBytes (b : ReadBuffer) : List Byte :=
  [BitVec.ofNat 8 (b2n b.all + 2 * b2n b.nolog), BitVec.ofNat 8 b.ranges.length] ++ leBytes 2 b.issued ++ leBytes 2 b.next ++ leBytes 2 b.log.length
    ++ leBytes 8 (b.skipStart * 2 ^ 24 + b.skipLen) ++ padTo 256 (b.ranges.flatMap (fun r => leBytes 8 (r.1 * 2 ^ 24 + r.2)))

/-- The 4 KiB save record of a strand. -/
def saveRecord (s : State) (n : Nat) (block : Nat) (stop : BitVec 8) : List Byte :=
  let t := s.strands.get {} n
  let words := fun (l : List Word) => l.flatMap (fun w => leBytes 8 w.toNat)
  let xl := t.xlCount * 2 ^ 62 + t.xlBits.toNat
  let header := leBytes 4 block ++ leBytes 4 (actRun t.act).toNat ++ leBytes 8 t.pc.toNat ++ [stop, BitVec.ofNat 8 (b2n t.gearReq)]
    ++ leBytes 2 (tileSource s (n / 16)) ++ leBytes 4 0 ++ leBytes 8 xl ++ placeWord (t.frm.map (·.toNat)) ++ placeWord (t.qsel.map (·.toNat))
    ++ [BitVec.ofNat 8 (n / 4 % 4 + 4 * (n % 4))]
  padTo 0x40 header ++ words (t.x.toList.set 0 0) ++ words (t.m.toList.set 0 (BitVec.allOnes 64))
    ++ padTo 0x80 (leBytes 8 t.fcsr.toNat ++ leBytes 8 xl ++ leBytes 8 t.fare.toNat) ++ words t.pshape.toList
    ++ (t.q.toList.flatMap (fun q => leBytes 8 (strmCfg q))) ++ padTo 0x140 (t.q.toList.flatMap (fun q => leBytes 8 q.position))
    ++ t.v.toList.flatMap vecBytes ++ bufferBytes t.buffer ++ padTo 0x2F0 (t.a.toList.flatMap directoryEntry)

/-- Whether the fields of a save record that resumption checks have values that are written (03 R92). -/
def recordWritten (b : List Byte) : Bool :=
  let stop := fieldAt b 16 1
  let xl := fieldAt b 24 8
  let frm := fieldAt b 32 2
  let qsel := fieldAt b 34 2
  (bits stop 3 0 = 1 || bits stop 3 0 = 2) && decide (bits stop 7 4 ≤ 2) && decide (fieldAt b 17 1 ≤ 1) && bits xl 61 48 = 0 && decide (bits xl 63 62 ≤ 2)
    && (frm = 0 || (decide (0x8000 ≤ frm) && decide (frm ≤ 0x8004))) && (qsel = 0 || (decide (0x8000 ≤ qsel) && decide (qsel ≤ 0x800F)))
    && decide (fieldAt b 36 1 < 16)

/-- A stream as a save record gives it: bound as STRMCFG says, at its position, with an empty buffer (15 R372, R373). -/
def recordStream (b : List Byte) (i : Nat) (old : Stream) : Stream :=
  let cfg := fieldAt b (0x280 + 8 * i) 8
  let pos := fieldAt b (0x2C0 + 8 * i) 8
  if cfg.testBit 63 then { old with bound := true, out := cfg.testBit 62, recOffset := 32 * bits cfg 14 0, position := pos, moved := pos, buffer := [] } else {}

/-- An accumulator name as its directory entry gives it. -/
def recordName (b : List Byte) (i : Nat) : Option AccName :=
  let at_ := 0xD10 + 32 * i
  let flags := fieldAt b (at_ + 18) 1
  if !flags.testBit 0 then none
  else
    some { banks := ((b.drop at_).take (if flags.testBit 1 then 16 else 8)).map (·.toNat), fp64 := flags.testBit 1
           status := BitVec.ofNat 16 (fieldAt b (at_ + 16) 2), owner := BitVec.ofNat 32 (fieldAt b (at_ + 20) 4) }

/-- A strand as its save record gives it; what the record does not hold comes from the removal. -/
def recordStrand (b : List Byte) (old : Strand) : Strand :=
  let w := fun (at_ : Nat) => (BitVec.ofNat 64 (fieldAt b at_ 8) : Word)
  let nr := min 32 (fieldAt b 0xC01 1)
  { old with
    pc := w 8
    gearReq := decide (fieldAt b 17 1 = 1)
    x := Vector.ofFn (fun (i : Fin 32) => if i.val = 0 then 0 else w (0x40 + 8 * i.val))
    m := Vector.ofFn (fun (i : Fin 8) => if i.val = 0 then 0 else w (0x140 + 8 * i.val))
    fcsr := BitVec.ofNat 9 (fieldAt b 0x180 2)
    xlCount := bits (fieldAt b 24 8) 63 62
    xlBits := BitVec.ofNat 48 (fieldAt b 24 6)
    frm := if fieldAt b 32 2 = 0 then none else some (BitVec.ofNat 3 (fieldAt b 32 1))
    qsel := if fieldAt b 34 2 = 0 then none else some (BitVec.ofNat 4 (fieldAt b 34 1))
    fare := w 0x190
    pshape := Vector.ofFn (fun (i : Fin 16) => w (0x200 + 8 * i.val))
    q := old.q.mapIdx (fun i q => recordStream b i q)
    v := Vector.ofFn (fun (i : Fin 32) => vecOfBytes ((b.drop (0x400 + 64 * i.val)).take 64))
    buffer :=
      { old.buffer with
        all := (fieldAt b 0xC00 1).testBit 0
        nolog := (fieldAt b 0xC00 1).testBit 1
        issued := fieldAt b 0xC02 2
        next := fieldAt b 0xC04 2
        log := old.buffer.log.take (fieldAt b 0xC06 2)
        skipStart := fieldAt b 0xC08 8 / 2 ^ 24
        skipLen := fieldAt b 0xC08 8 % 2 ^ 24
        ranges := (List.range nr).map (fun k => (fieldAt b (0xC10 + 8 * k) 8 / 2 ^ 24, fieldAt b (0xC10 + 8 * k) 8 % 2 ^ 24)) }
    a := Vector.ofFn (fun (i : Fin 16) => recordName b i.val) }

/-- A removed strand goes on: it issues again, and forgets what it waited for. -/
def goesOn (t : Strand) : Strand :=
  { t with
    status := .ready, pending := none, replyFault := none, migReads := none, dozing := false, sent := false, asked := false, sysValue := none
    stopping := false }

/-- At resumption the stream unit reads the patterns of a strand's streams again, and the groups that had been read ahead (15 R372, R373). -/
def rereadStreams (s : State) (tile : Nat) (t : Strand) : Strand :=
  { t with q := t.q.map (fun q =>
      if !q.bound then q
      else
        let q1 : Stream := { q with buffer := [], moved := q.position }
        match patternRecord (poolRead s tile q.recOffset 32) with
        | some (base, out, dims) => { q1 with base := base, out := out, dims := dims }
        | none => q1) }

/-- Pages of a save area are ready: their translations are not in migration, up to the bound of R166, and their depots hold their granules. -/
def pagesReady (s : State) (ctx : BitVec 32) (write : Bool) (pages : List Nat) : Served Unit :=
  match pages with
  | [] => .ok () (modCtx s ctx (fun c => { c with saveSince := none }))
  | p :: rest =>
    match hardwareWalk s ((getCtx s ctx).saveArea.toNat + 0x1000 * p) (getCtx s ctx).saveSince with
    | .ok (dev, pa, _) s1 =>
      if dev = devnum s1 && decide (pa < hbmSize) then (depotTakes s1 write (numbersFrom (pa / 64) 64)).andThen (fun _ s2 => pagesReady s2 ctx write rest)
      else pagesReady s1 ctx write rest
    | .bad _ _ s1 => pagesReady s1 ctx write rest
    | .busy s1 => .busy (modCtx s1 ctx (fun c => { c with saveSince := some (c.saveSince.getD s.now) }))

/-- Pages that the banks of a removed strand take. -/
def bankPages (t : Strand) : Nat := (((t.a.toList.filterMap id).map (fun a => a.banks.length)).sum + 1) / 2

/-- Slots of a context's save map that hold strand records. -/
def recordSlots (s : State) (ctx : BitVec 32) : List Nat :=
  (s.runs.filter (fun r => r.2.ctx == ctx)).flatMap (fun r => r.2.blocks.filterMap (fun b => match b.2 with
    | .preempted k => some k
    | _ => none))

/-- The lowest slot of a context's save map that is not in use. -/
def saveSlot (s : State) (ctx : BitVec 32) : Nat :=
  let used := recordSlots s ctx
  ((List.range (used.length + 1)).find? (fun k => !(decide (k ∈ used)))).getD 0

/-- Slots of a save map: as many as the device has strands. Accumulator banks and tile images lie behind them (03 R92; log 24). -/
def saveSlots : Nat := 16384

/-- The first page of a save area past all banks and images in it. -/
def savePage (s : State) (ctx : BitVec 32) : Nat :=
  ((s.runs.filter (fun r => r.2.ctx == ctx)).flatMap (fun r =>
    r.2.saved.map (fun b => b.bankPage + bankPages b.strand) ++ r.2.images.map (fun i => i.page + i.pbMid))).foldl max saveSlots

/-- Bytes written to the pages of a save area, from a page on; a page that is not memory of this device takes none. -/
def writePages (s : State) (ctx : BitVec 32) (page : Nat) (bs : List Byte) : State :=
  (List.range ((bs.length + 4095) / 4096)).foldl (fun s k =>
    match savePlace s ctx (page + k) with
    | some (pa, key) => physWriteKey s pa key ((bs.drop (4096 * k)).take 4096)
    | none => s) s

/-- The bytes of `n` pages of a save area; none when one is not memory of this device. -/
def readPages (s : State) (ctx : BitVec 32) (page n : Nat) : Option (List Byte) :=
  ((List.range n).mapM (fun k => (savePlace s ctx (page + k)).map (fun p => physRead s p.1 4096))).map List.flatten

/-! ## Removal (03 R91 steps 3 to 5) -/

/-- The contents of a name's banks, in allocation order. -/
def bankCells (t : Tile) (n : AccName) : Memory :=
  memOver [] (((List.range n.banks.length).zip n.banks).flatMap (fun e =>
    (t.acc.filter (fun c => decide (2048 * e.2 ≤ c.1) && decide (c.1 < 2048 * e.2 + 2048))).map (fun c => (2048 * e.1 + c.1 - 2048 * e.2, c.2))))

/-- What a removal keeps of a strand. -/
def saved (s : State) (n : Nat) (block : Nat) (stop : BitVec 8) : SavedBlock :=
  let t := s.strands.get {} n
  let u := getTile s (n / 16)
  { block := block, strand := t, number := n, stop := stop, image := imageId s (n / 16) (actRun t.act)
    banks := ((List.range 16).zip t.a.toList).filterMap (fun e => e.2.map (fun a => (e.1, bankCells u a)))
    mma := (acceptedOf u n).head? }

/-- A strand leaves its tile: its MMA stops between two K steps, its copies pause, its banks are free. A FELT.SETTLE or FELT.STAT that it
waits in is issued again when it resumes. -/
def takeOff (s : State) (n : Nat) : State :=
  let tile := n / 16
  let mine := fun (c : MatrixCmd) => c.strand == n && c.own.isEmpty
  let s1 := if (acceptedOf (getTile s tile) n).isEmpty then s
    else
      let s1 := modTile s tile (fun t => { t with running := t.running.filter (fun r => !mine r.cmd), queue := t.queue.filter (fun c => !mine c) })
      later (admitHeld (settleUnits s1 tile (agentCtx s (.strand n))) tile) [.matrixCommandStart tile]
  let s2 := pauseCopies s1 n true
  let asks := fun (c : FeltCmd) => feltAsks c.op && cmdStrand s c = n
  let s3 := { s2 with felt := s2.felt.map (fun f => { f with settlers := f.settlers.filter (fun e => !(e.1 == n)), queue := f.queue.filter (fun c => !asks c) }) }
  freeStrand (freeBanks s3 n) n

/-- Blocks of a run from an index on whose messages wait in inboxes, with their tiles. -/
def inboxBlocks (s : State) (run : BitVec 32) (lo : Nat) : List (Nat × Nat) :=
  s.cores.flatMap (fun c => c.2.inbox.filterMap (fun e => match e with
    | .block r i _ _ => if r == run && decide (lo ≤ i) then some (i, c.1 / 4) else none
    | .courier _ => none))

/-- The messages of a run's blocks from an index on that wait in inboxes go back to dispatch (03 R88); those on a tile in a change of gear
follow when it is over (04 R110). -/
def recallInbox (s : State) (run : BitVec 32) (lo : Nat) : State :=
  let back := (inboxBlocks s run lo).filter (fun b => (getTile s b.2).changing.isNone)
  let mine := fun (e : InboxEntry) => match e with
    | .block r i _ _ => r == run && back.any (fun b => b.1 = i)
    | .courier _ => false
  if back.isEmpty then s
  else
    modRun { s with cores := s.cores.map (fun c => (c.1, { c.2 with inbox := c.2.inbox.filter (fun e => !mine e) })) } run (fun r =>
      { r with blocks := r.blocks.filter (fun b => !(decide (b.2 = .inbox)) || !back.any (fun k => k.1 = b.1)) })

/-- The tile image of a context is saved, in the save area and in a run, and leaves the tile; the cluster's dirty lines are written back
(03 R91 step 4; 05 R147, R155). Lines of boots become empty when no other image stays on the tile. -/
def saveImage (s : State) (tile : Nat) (ctx run : BitVec 32) (cause : Nat) : State :=
  let handlers := tileHandlers s tile ctx
  let active := handlers.map (fun n => saved s n 0 (stopByte (s.strands.get {} n) cause))
  let s1 := handlers.foldl takeOff s
  let s2 := flushRange s1 (tile / 8) 0 (2 ^ 57)
  let t := getTile s2 tile
  let below := 4096 * t.pbMid
  let cores := (List.range 4).map (fun c => (c, getCore s2 (4 * tile + c)))
  let mine := fun (r : BitVec 32) => (getRun s2 r).ctx == ctx
  let image : SavedImage :=
    { tile := tile, page := savePage s2 ctx, runs := t.images.filter (fun i => i.2 == ctx)
      ids := t.ids.filter (fun e => mine (BitVec.ofNat 32 e.1)), pbLo := t.pbLo, pbMid := t.pbMid, pbHi := t.pbHi, panBase := t.panBase
      panCnt := t.panCnt, held := cores.map (fun c => (c.1, c.2.held.filter (fun h => mine h.run))), dropped := cores.map (fun c => (c.1, c.2.dropped.filter (fun d => mine d.1)))
      active := active, pool := t.pool.filter (fun c => decide (c.1 < below))
      poolBad := t.poolBad.filter (fun w => decide (8 * w < below)), full := t.full.filter (fun l => decide (128 * l < below))
      stash := t.stash.filter (fun e => e.ctx == ctx)
      handlers := cores.map (fun c => (c.1, c.2.handlers.filter (fun h => mine h.1)))
      triggers := cores.map (fun c => (c.1, c.2.triggers.filter (fun e => mine e.1)))
      copies := t.dray.toList.map (fun q => q.filter (fun c => c.ctx == ctx))
      table := t.tables.get {} ctx.toNat }
  let s3 := modTile (unmapEntries s2 tile (fun e => e.ctx == ctx)) tile (fun t =>
    let left := t.images.filter (fun i => !(i.2 == ctx))
    { t with
      images := left
      ids := t.ids.filter (fun e => !mine (BitVec.ofNat 32 e.1))
      mcap := t.mcap.filter (fun e => !(e.1 == ctx))
      full := if left.isEmpty then t.full.filter (fun l => !(decide (128 * l < below))) else t.full
      dray := t.dray.map (fun q => q.filter (fun c => !(c.ctx == ctx)))
      tables := t.tables.del ctx.toNat })
  let s4 := (List.range 4).foldl (fun s c => modCore s (4 * tile + c) (dropOf mine)) s3
  modRun (writePages s4 ctx image.page (memRead t.pool 0 below)) run (fun r => { r with images := r.images ++ [image] })

/-- One removal: the record is written, the strand leaves, the image is saved after the context's last block, FLOOR falls. -/
def removeBlock (s : State) (n cause : Nat) : State :=
  match (s.strands.get {} n).act with
  | .block run i =>
    let ctx := (getRun s run).ctx
    let slot := saveSlot s ctx
    let stop := stopByte (s.strands.get {} n) cause
    let names := (s.strands.get {} n).a.toList.filterMap id
    let page := savePage s ctx
    let kept := { saved s n i stop with bankPage := page }
    let banks := names.flatMap (fun a => a.banks.flatMap (fun b => memRead (getTile s (n / 16)).acc (2048 * b) 2048))
    let s1 := writePages (writePages s ctx slot (saveRecord s n i stop)) ctx page banks
    let s2 := modRun (takeOff s1 n) run (fun r =>
      { r with
        blocks := r.blocks.set i (.preempted slot)
        saved := r.saved ++ [kept]
        floor := min r.floor i })
    let s3 := recallInbox s2 run (i + 1)
    if (tileBlocks s3 (n / 16) ctx).isEmpty then saveImage s3 (n / 16) ctx run cause else s3
  | _ => s

/-- Resident blocks of a run from an index on, with their strands. -/
def residentFrom (r : Run) (lo : Nat) : List (Nat × Nat) :=
  r.blocks.filterMap (fun b => match b.2 with
    | .resident n => if lo ≤ b.1 then some (b.1, n) else none
    | _ => none)

/-- Pages of the save area that the removal of a strand's block writes. -/
def removalPages (s : State) (n : Nat) : List Nat :=
  let ctx := agentCtx s (.strand n)
  let t := s.strands.get {} n
  let image := if tileBlocks s (n / 16) ctx == [n] then (getTile s (n / 16)).pbMid else 0
  saveSlot s ctx :: numbersFrom (savePage s ctx) (bankPages t + image)

/-- The highest of them stops, and is removed as soon as it can be; `none` when none is left. -/
def removeHighest (s : State) (run : BitVec 32) (lo cause : Nat) : Option State :=
  match (residentFrom (getRun s run) lo).getLast? with
  | none => none
  | some (_, n) =>
    let s1 := stopStrand s n
    if !blockStops s1 n then some s1
    else
      match pagesReady s1 (agentCtx s1 (.strand n)) true (removalPages s1 n) with
      | .ok _ s2 => some (removeBlock s2 n cause)
      | .bad _ _ s2 => some s2
      | .busy s2 => some s2

/-! ## Restoration (03 R93; 05 R147, R155) -/

/-- The saved tile image of a number, and the run that keeps it. -/
def imageOf (s : State) (id : Nat) : Option (BitVec 32 × SavedImage) :=
  s.runs.findSome? (fun r => (r.2.images.find? (fun i => i.ids.any (fun x => x.2 == id))).map (fun i => (BitVec.ofNat 32 r.1, i)))

/-- Banks that a strand's names take. -/
def banksOf (t : Strand) : Nat := ((t.a.toList.filterMap id).map (fun a => a.banks.length)).sum

/-- Whether a tile has enough free banks for a saved strand. -/
def banksFit (t : Tile) (b : Strand) : Bool := decide (banksOf b + t.banks.length ≤ 128)

/-- The contents of a saved strand's banks as its save area holds them, name by name; as the removal left them where it cannot be read. -/
def savedBanks (s : State) (ctx : BitVec 32) (b : SavedBlock) (t : Strand) : List (Nat × Memory) :=
  match readPages s ctx b.bankPage ((banksOf t + 1) / 2) with
  | none => b.banks
  | some bs =>
    (((List.range 16).zip t.a.toList).foldl (fun (acc : List (Nat × Memory) × List Byte) e =>
      match e.2 with
      | none => acc
      | some a => (acc.1 ++ [(e.1, memWrite [] 0 (acc.2.take (2048 * a.banks.length)))], acc.2.drop (2048 * a.banks.length))) ([], bs)).1

/-- Banks for a saved name: the lowest free ones, with the contents that were saved. -/
def restoreName (s : State) (n k : Nat) (cells : Memory) : State :=
  match nameOf s n k with
  | none => s
  | some a =>
    let free := ((List.range 128).filter (fun b => !(decide (b ∈ (getTile s (n / 16)).banks)))).take a.banks.length
    let name := { a with banks := free }
    let s1 := modTile s (n / 16) (fun t =>
      let t1 := accClear { t with banks := t.banks ++ free } name
      { t1 with acc := memOver t1.acc (cells.map (fun c => (2048 * free.getD (c.1 / 2048) 0 + c.1 % 2048, c.2))) })
    setName s1 n k (some name)

/-- A saved strand returns to strand `n`, its copies go on, its MMA is queued again. -/
def returnBlock (s : State) (n : Nat) (b : SavedBlock) (t : Strand) : State :=
  let tile := n / 16
  let s1 := b.banks.foldl (fun s e => restoreName s n e.1 e.2) { s with strands := s.strands.set n t }
  let s2 := match b.mma with
    | some c => joinQueue s1 tile { c with strand := n }
    | none => s1
  unitsGoOn (gearCheck s2 tile) n

/-- A saved tile image is restored on a tile, its handlers first; the context gets a new capability there. Its stash lines are empty until
they are touched (06 R179). -/
def restoreImage (s : State) (ctx run : BitVec 32) (i : SavedImage) (tile : Nat) : State :=
  let s1 := modRun s run (fun r => { r with images := r.images.erase i })
  let lines := stashLines i.stash
  let below := 4096 * i.pbMid
  let copy := fun (c : Copy) => { c with core := 4 * tile + c.core % 4, strand := c.strand.map (fun n => 16 * tile + n % 16) }
  let s2 := modTile s1 tile (fun t =>
    { t with
      images := i.runs
      ids := i.ids
      pbLo := i.pbLo
      pbMid := i.pbMid
      pbHi := i.pbHi
      panBase := i.panBase
      panCnt := i.panCnt
      pool :=
        let above := t.pool.filter (fun c => decide (below ≤ c.1))
        match readPages s ctx i.page i.pbMid with
        | some bs => memWrite above 0 bs
        | none => memOver above i.pool
      poolBad := i.poolBad ++ t.poolBad.filter (fun w => decide (below ≤ 8 * w))
      full := i.full ++ t.full.filter (fun l => decide (below ≤ 128 * l) && !(decide (l ∈ lines)))
      stashFilled := t.stashFilled.filter (fun l => !(decide (l ∈ lines)))
      stash := t.stash ++ i.stash
      dray := t.dray.mapIdx (fun k q => q ++ (i.copies.getD k []).map copy)
      tables := t.tables.set ctx.toNat i.table })
  let s3 := (List.range 4).foldl (fun s c => modCore s (4 * tile + c) (fun u =>
    { u with
      held := u.held ++ ((i.held.find? (fun e => e.1 == c)).map (·.2)).getD []
      dropped := u.dropped ++ ((i.dropped.find? (fun e => e.1 == c)).map (·.2)).getD []
      draySeq := (getCore s (4 * i.tile + c)).draySeq
      handlers := u.handlers ++ ((i.handlers.find? (fun e => e.1 == c)).map (·.2)).getD []
      triggers := u.triggers ++ ((i.triggers.find? (fun e => e.1 == c)).map (·.2)).getD [] })) s2
  let s4 := i.active.foldl (fun s b => returnBlock s (16 * tile + b.number % 16) b (rereadStreams s tile (goesOn b.strand))) s3
  (List.range 4).foldl (fun s c => wakeCore s (4 * tile + c)) (grantCapability s4 tile ctx)

/-- Tiles in the TILEMASK of a BOUND record that covers a block. -/
def coverTiles (s : State) (ctx run : BitVec 32) (block : Nat) : List Nat :=
  (s.clusters.flatMap (fun c => (c.2.slots.filter (fun e => e.2.state == 1 && e.2.ctx == ctx && e.2.run == run && decide (e.2.blkFirst.toNat ≤ block)
      && decide (block ≤ e.2.blkLast.toNat))).flatMap (fun e => (numbersFrom (8 * c.1) 8).filter (tileAllowed s e.2)))).dedup

/-- Whether the blocks that return with a tile image may all run on a tile, as far as the domains of their levels go (05 R133). -/
def imageFits (s : State) (i : SavedImage) (new : Nat) : Bool :=
  s.runs.all (fun r => (r.2.saved.filter (fun b => i.ids.any (fun x => x.2 == b.image))).all (fun b =>
    domainOk s (BitVec.ofNat 32 r.1) b.block (4 * new + b.number / 4 % 4)))

/-- Tiles on which a block's image may be restored: covered, without blocks or images, within the domains. -/
def imageTiles (s : State) (ctx run : BitVec 32) (block : Nat) (i : SavedImage) : List Nat :=
  (coverTiles s ctx run block).filter (fun t => (tileStrands s t).isEmpty && !otherBlocks s t ctx && (getTile s t).images.isEmpty
    && (getTile s t).changing.isNone && imageFits s i t)

/-- What a step of a resumption comes to: nothing is left or can be restored, it has to wait, or a block or an image came back. -/
inductive Resumed where
  | over
  | wait (s : State)
  | went (s : State)

/-- FLOOR after a resumption: the next pre-empted index (03 R88). -/
def nextFloor (r : Run) : Nat := (r.saved.map (·.block)).foldl min 0xffffffff

/-- The slot of a removed block in its context's save map. -/
def slotOfBlock (r : Run) (block : Nat) : Nat :=
  match r.blocks.get .waiting block with
  | .preempted k => k
  | _ => 0

/-- The block at FLOOR, whose image stands on a tile, returns to its strand there. -/
def resumeBlock (s : State) (run : BitVec 32) (b : SavedBlock) (tile : Nat) : Resumed :=
  let r := getRun s run
  let bytes := readPages s r.ctx (slotOfBlock r b.block) 1
  let k := match bytes with
    | some x => if fieldAt x 36 1 < 16 then 4 * (fieldAt x 36 1 % 4) + fieldAt x 36 1 / 4 else b.number % 16
    | none => b.number % 16
  let n := 16 * tile + k
  let t := match bytes with
    | some x =>
      let t := goesOn (recordStrand x b.strand)
      if recordWritten x then t else { t with replyFault := some (faultInfo 0x01 0x01 0 0 0) }
    | none => goesOn b.strand
  if (getTile s tile).gear = .park then .wait (askWake s tile (some (gearOf t.gearReq)))
  else if s.strands.has n || !banksFit (getTile s tile) t || (getTile s tile).changing.isSome then .wait s
  else
    let s1 := returnBlock s n { b with banks := savedBanks s r.ctx b t } (rereadStreams s tile { t with act := .block run b.block })
    let s2 := modRun s1 run (fun r => { r with blocks := r.blocks.set b.block (.resident n), saved := r.saved.erase b })
    let s3 := modRun s2 run (fun r => { r with floor := nextFloor r })
    .went (later s3 (boundTokens s3 (fun x => x.run == run)))

/-- One step of a resumption (03 R93). `pick` chooses among the tiles that an image may go to; where none stands ready it waits, while a
strand is free. -/
def resumeStep (s : State) (run : BitVec 32) (pick : Nat) : Resumed :=
  let r := getRun s run
  match r.saved.find? (fun b => b.block == r.floor) with
  | none => .over
  | some b =>
    if (getCtx s r.ctx).held || (getCtx s r.ctx).killing || (getCtx s r.ctx).killAsked then .over
    else
      let ready := fun (pages : List Nat) (f : State → Resumed) => match pagesReady s r.ctx false pages with
        | .ok _ s1 => f s1
        | .bad _ _ s1 => f s1
        | .busy s1 => .wait s1
      match imageTile s b.image with
      | some tile => ready (slotOfBlock r b.block :: numbersFrom b.bankPage (bankPages b.strand)) (fun s => resumeBlock s run b tile)
      | none =>
        match imageOf s b.image with
        | none => .over
        | some (keeper, i) =>
          let tiles := imageTiles s r.ctx run b.block i
          match tiles[pick % tiles.length]? with
          | none => if (coverTiles s r.ctx run b.block).any (fun t => !(freeStrands s t).isEmpty) then .wait s else .over
          | some t =>
            if (getTile s t).gear = .park then .wait (askWake s t (some (gearOf b.strand.gearReq)))
            else ready (numbersFrom i.page i.pbMid) (fun s => .went (restoreImage s r.ctx keeper i t))

/-! ## Commands (03 R90) -/

/-- A run of the device: launched, or relaunching, and not complete. -/
def liveRun (s : State) (run : BitVec 32) : Bool := s.runs.has run.toNat && !(getRun s run).complete

def dspRefuse (s : State) : State := { s with ostler := { s.ostler with dspErr := true } }
def setCut (s : State) (c : Option (BitVec 32 × Nat)) : State := { s with ostler := { s.ostler with dspCut := c } }

/-- Cut index that marks a RESUME in progress. -/
def resuming : Nat := 2 ^ 32

/-- CUT: begun for the run that DSPSTAT names, one removal a step until no started block at or above the cut index is left. -/
def execCut (arg : BitVec 32) (s : State) : Out :=
  event (
    match s.ostler.dspCut with
    | none => if liveRun s s.ostler.dspRun then soon (setCut (recallInbox s s.ostler.dspRun arg.toNat) (some (s.ostler.dspRun, arg.toNat))) [.cut arg] else dspRefuse s
    | some (run, c) =>
      if c = resuming then s
      else
        let s0 := recallInbox s run c
        match removeHighest s0 run c 1 with
        | none => if (inboxBlocks s0 run c).isEmpty then setCut s0 none else later s0 [.cut arg]
        | some s1 => later s1 [.cut arg])

/-- RESUME: the block at FLOOR, and again, until FLOOR is empty or no place is left. -/
def execDispatchResume (tile : Nat) (s : State) : Out :=
  event (
    match s.ostler.dspCut with
    | none => if liveRun s s.ostler.dspRun then soon (setCut s (some (s.ostler.dspRun, resuming))) [.dispatchResume tile] else dspRefuse s
    | some (run, c) =>
      if !(c = resuming) then s
      else
        match resumeStep s run tile with
        | .over => setCut s none
        | .wait s1 => later s1 [.dispatchResume tile]
        | .went s1 => later s1 [.dispatchResume tile])

/-- Every record of a context that passes a test is rewritten. -/
def modRecords (s : State) (ctx : BitVec 32) (f : BindRecord → BindRecord) : State :=
  { s with clusters := s.clusters.map (fun c => (c.1, { c.2 with slots := c.2.slots.map (fun e => (e.1, if e.2.ctx == ctx then f e.2 else e.2)) })) }

/-- BOUND records become HELD. -/
def holdRecords (s : State) (ctx : BitVec 32) : State := modRecords s ctx (fun r => if recordLive r then { r with state := 2 } else r)

/-- HELD records become BOUND, each as R85 has it. -/
def releaseRecords (s : State) (ctx : BitVec 32) : State :=
  let held := s.clusters.flatMap (fun c => (c.2.slots.filter (fun e => e.2.ctx == ctx && e.2.state == 2)).map (fun e => (c.1, e)))
  held.foldl (fun s e =>
    match bindRefusal s e.1 e.2.2 with
    | some sub => regrant (setRecord (logRecord s { cls := .hw, sub := sub, source := clusterSource e.1, ctx := ctx.toNat, addr := ostlerBase + 0x2000 * e.1 + 64 * e.2.1 }) e.1 e.2.1 { e.2.2 with state := 0 })
    | none =>
      let s1 := bindContext (setRecord s e.1 e.2.1 { e.2.2 with state := 1 }) e.1 e.2.2
      later s1 (boundTokens s1 (fun x => x == { e.2.2 with state := 1 }))) s

/-- HOLD: resident blocks keep running. -/
def execHold (ctx : BitVec 32) (s : State) : Out := event (holdRecords s ctx)
/-- RELEASE. -/
def execRelease (ctx : BitVec 32) (s : State) : Out := event (releaseRecords s ctx)

/-! ## Fares (03 R100; 04 R114, R125) -/

/-- A debit: the account's context, the strand whose block it is, if it is a block's, and the energy in nJ. -/
structure Debit where
  ctx : BitVec 32
  strand : Option Nat := none
  energy : Nat

/-- Whether a strand's block can be billed: it is on a tile that is not parked. -/
def billed (s : State) (n : Nat) : Bool := s.strands.has n && !(decide ((getTile s (n / 16)).gear = .park))

/-- Step 1: the events of the step, which the estimator has counted, by firmware's weights. The wadding of a tile's groups is billed to the
context that they started for, or that they depart from, even one that has been killed (04 R117, R118, R125). -/
def eventDebit (s : State) (e : FareEvent) : Option Debit :=
  match e with
  | .strand n kind count => if billed s n then some { ctx := agentCtx s (.strand n), strand := some n, energy := Config.fareWeight kind * count } else none
  | .wadding tile units => (((getCluster s (tile / 8)).payers.find? (fun p => p.1 == tile)).map (·.2)).map (fun c => { ctx := c, energy := Config.fareWeight 2 * units })

/-- Contexts that hold blocks on a tile. -/
def tileContexts (s : State) (tile : Nat) : List (BitVec 32) :=
  ((tileStrands s tile).filterMap (fun e => match e.2.act with
    | .block r _ => some (getRun s r).ctx
    | _ => none)).dedup

/-- Step 2: a tile's static power, split equally among the contexts that hold blocks on it; a parked tile bills none. -/
def staticDebits (s : State) : List Debit :=
  s.tiles.flatMap (fun e =>
    if e.2.gear = .park then []
    else
      let cs := tileContexts s e.1
      cs.map (fun c => { ctx := c, energy := Config.staticPower (decide (e.2.gear = .gallop)) / cs.length }))

/-- The arrays' debits: for 1 µs in LOAD, RUN or HOLD, and for the bytes of the images loaded since the last step (10 R265). -/
def arrayDebits (s : State) : List Debit :=
  (List.range 8).filterMap (fun k =>
    let f := getArray s k
    let idle := decide ((getArray s (gangHead s k)).state = 0)
    if idle && f.loaded = 0 then none
    else f.ctx.map (fun c => { ctx := c, energy := (if idle then 0 else Config.fareWeight 8) + Config.fareWeight 9 * f.loaded }))

/-- The debits of one step of 1 µs (04 R125). -/
def stepDebits (s : State) (events : List FareEvent) : List Debit := events.filterMap (eventDebit s) ++ staticDebits s ++ arrayDebits s

/-- Step 3: a debit goes to its context's account, and a block's to its FARE too. -/
def debit (s : State) (d : Debit) : State :=
  let acct := (getCtx s d.ctx).fareAcct.toNat
  let s1 := { s with balances := s.balances.set acct (s.balances.get 0 acct - (d.energy : Int)) }
  match d.strand with
  | some n => modAgent s1 (.strand n) (fun t => { t with fare := t.fare + BitVec.ofNat 64 d.energy })
  | none => s1

/-- Bound contexts, not yet held, whose account is one of these and has a balance at or below zero. -/
def overdrawn (s : State) (accts : List Nat) : List (BitVec 32) :=
  (s.contexts.filter (fun k => k.2.bound && !k.2.held && decide (k.2.fareAcct.toNat ∈ accts) && decide (s.balances.get 0 k.2.fareAcct.toNat ≤ 0))).map
    (fun k => BitVec.ofNat 32 k.1)

/-- The blocks of a context stop, with their engines, or go on after all (R100 steps 2, 3 and 5). -/
def stopBlocks (s : State) (ctx : BitVec 32) (stop : Bool) : State :=
  let mine := (s.strands.filter (fun e => match e.2.act with
    | .block r _ => (getRun s r).ctx == ctx
    | .handler r _ _ => !stop && (getRun s r).ctx == ctx
    | _ => false)).map (·.1)
  mine.foldl (if stop then stopUnits else goUnits) s

/-- A fare hold begins: records HELD, waiting messages recalled, arrays in HOLD to IDLE, run phases to end in IDLE (03 R100, 10 R265). -/
def beginHold (s : State) (ctx : BitVec 32) : State :=
  let s1 := modCtx (holdRecords s ctx) ctx (fun c => { c with held := true })
  let s2 := stopBlocks ((s1.runs.filter (fun r => r.2.ctx == ctx)).foldl (fun s r => recallInbox s (BitVec.ofNat 32 r.1) 0) s1) ctx true
  (List.range 8).foldl (fun s g =>
    if (getArray s g).ctx == some ctx then
      if (getArray s g).state = 3 then endHold s g else if (getArray s g).state = 0 then s else modArray s g (fun f => { f with skipHold := true })
    else s) s2

/-- Accounts that energy billed elsewhere has left without a balance hold their contexts (03 R100, 04 R126). -/
def holdAccounts (s : State) (accts : List Nat) : State :=
  let out := overdrawn s accts
  if out.isEmpty then s else later (out.foldl beginHold s) [.fareEstimate none]

/-- One removal for each run of the held contexts. -/
def removeHeld (s : State) : State :=
  (s.runs.filter (fun r => (getCtx s r.2.ctx).held)).foldl (fun s r =>
    let s1 := recallInbox s (BitVec.ofNat 32 r.1) 0
    (removeHighest s1 (BitVec.ofNat 32 r.1) 0 2).getD s1) s

/-- Whether a held context still has resident blocks, or messages of blocks in inboxes. -/
def heldLeft (s : State) : Bool :=
  s.runs.any (fun r => (getCtx s r.2.ctx).held && (!(residentFrom r.2 0).isEmpty || !(inboxBlocks s (BitVec.ofNat 32 r.1) 0).isEmpty))

/-- FARE_ESTIMATE: the debits of a step of 1 µs; accounts that they leave at or below zero hold their contexts, whose blocks go one by one. When
it is no step it goes on with these removals. The counts are inputs, for the estimator's counters are no state that the spec names (log 58). -/
def execFareEstimate (counted : Option (List FareEvent)) (s : State) : Out :=
  event (
    let ds := ((counted.map (stepDebits s)).getD [])
    let s1 := ds.foldl debit (if counted.isSome then { s with felt := s.felt.map (fun f => { f with loaded := 0 }) } else s)
    let accts := ds.map (fun d => (getCtx s d.ctx).fareAcct.toNat)
    let s3 := removeHeld ((overdrawn s1 accts).foldl beginHold s1)
    if heldLeft s3 then later s3 [.fareEstimate none] else s3)

/-- Runs of an account's contexts whose block at FLOOR a fare hold removed. -/
def refunded (s : State) (acct : BitVec 32) : List (BitVec 32) :=
  (s.runs.filter (fun r => (getCtx s r.2.ctx).fareAcct == acct && !(getCtx s r.2.ctx).held && r.2.saved.any (fun b => b.block == r.2.floor && bits b.stop.toNat 3 0 = 2))).map
    (fun r => BitVec.ofNat 32 r.1)

/-- One resumption for each of these runs; whether another may follow. -/
def resumeAll (s : State) (runs : List (BitVec 32)) : State × Bool :=
  runs.foldl (fun acc r => match resumeStep acc.1 r (Config.freePick acc.1.free) with
    | .over => acc
    | .wait s1 => (s1, true)
    | .went s1 => (s1, true)) ({ s with free := s.free + 1 }, false)

/-- FGRANT: energy for an account; held contexts whose balance is positive return to BOUND and their removed blocks resume. -/
def execFgrant (v : Word) (s : State) : Out :=
  event (
    let acct : BitVec 32 := BitVec.ofNat 32 (bits v.toNat 63 32)
    let s1 := { s with balances := s.balances.set acct.toNat (s.balances.get 0 acct.toNat + ((bits v.toNat 31 0 * 1000 : Nat) : Int)) }
    let back := if s1.balances.get 0 acct.toNat ≤ 0 then [] else (s1.contexts.filter (fun c => c.2.held && c.2.fareAcct == acct)).map (fun c => BitVec.ofNat 32 c.1)
    let s2 := back.foldl (fun s c => releaseRecords (stopBlocks (modCtx s c (fun k => { k with held := false })) c false) c) s1
    let (s3, more) := resumeAll s2 (refunded s2 acct)
    if more && !(refunded s3 acct).isEmpty then later s3 [.fgrant (BitVec.ofNat 64 (acct.toNat * 2 ^ 32))] else s3)

end Sys2Proof.Machine
end

