-- ==== Sys2Proof/Machine/Kill.lean ====
section
/-!
DEFINITION. Kills, the kill fence and partition resets (02 R75, R77, R78; 03 R101, R102; 10 R265; 15 R361; 16 R391).
-/
namespace Sys2Proof.Machine

/-! ## The kill (03 R102 steps 1 and 2) -/

/-- A courier that is abandoned makes its arrival with REMOTE_GONE (16 R391). -/
def courierGone (s : State) (m : CourierMsg) : State :=
  match m.senderTag with
  | some p => acknowledge s p [] 9 0 0x0A 0
  | none => arriveAt s m.senderTile m.senderImage m.barrier (.arriveFail 0x0A) 9

/-- Couriers of a context, running or waiting, are abandoned; its block messages and held SENDs are dropped. -/
def dropMessages (s : State) (ctx : BitVec 32) : State :=
  let mine := fun (r : BitVec 32) => (getRun s r).ctx == ctx
  let gone := s.cores.flatMap (fun c => c.2.inbox.filterMap (fun e => match e with
    | .courier m => if mine m.run then some m else none
    | .block _ _ _ _ => none))
  let s1 := { s with cores := s.cores.map (fun c => (c.1, { c.2 with
    held := c.2.held.filter (fun h => !mine h.run)
    inbox := c.2.inbox.filter (fun e => match e with
      | .courier m => !mine m.run
      | .block r _ _ _ => !mine r) })) }
  let s2 := (s.couriers.filter (fun c => mine (actRun c.2.act))).foldl (fun s c => endCourier s c.1 0x0A) s1
  gone.foldl courierGone s2

/-- The matrix commands of a context end at their smallest units; an MSEND among them makes its arrival with REMOTE_GONE. -/
def dropCommands (s : State) (ctx : BitVec 32) (tile : Nat) : State :=
  let t := getTile s tile
  let mine := fun (c : MatrixCmd) => (getRun s c.run).ctx == ctx
  let gone := (t.queue ++ (t.running.map (·.cmd)).toList).filter mine
  if gone.isEmpty then s
  else
    let run := t.running.any (fun r => mine r.cmd)
    let s1 := modTile (if run then clearPieces s (matrixUnit tile) else s) tile (fun t =>
      { t with queue := t.queue.filter (fun c => !mine c), running := t.running.filter (fun r => !mine r.cmd) })
    let s2 := gone.foldl (fun s c => match c.remote with
      | some (fromTile, image, tag) => msendArrive s fromTile image tag c.barrier 0x0A
      | none => s) s1
    admitHeld (later (settleUnits s2 tile ctx) [.matrixCommandStart tile]) tile

/-- Copies of a context: those with a segment in flight end with it, the others at once. -/
def dropCopies (s : State) (ctx : BitVec 32) : State :=
  { s with tiles := s.tiles.map (fun e => (e.1, { e.2 with dray := e.2.dray.map (fun q =>
    (q.filter (fun c => !(c.ctx == ctx) || c.active || !c.outstanding.isEmpty)).map (fun c => if c.ctx == ctx then { c with cancelled := true } else c)) })) }

/-- The arrays of a context: queued commands go, a HOLD ends, a run phase goes on to its end and then to IDLE (10 R265). -/
def dropFelt (s : State) (ctx : BitVec 32) : State :=
  (List.range 8).foldl (fun s k => if (getArray s k).ctx == some ctx then endHold s k else s)
    { s with felt := s.felt.map (fun f =>
      { f with
        queue := f.queue.filter (fun c => !(c.ctx == ctx))
        converting := f.converting.filter (fun c => !(c.ctx == ctx))
        skipHold := f.skipHold || (f.ctx == some ctx && inPhase f) }) }

/-- A run whose context is killed: its placed blocks count as killed, and nothing of it goes on. -/
def killRun (r : Run) : Run :=
  let n := placedBlocks r
  { r with
    blocks := r.blocks.map (fun b => (b.1, match b.2 with
      | .inbox => .killed
      | .resident _ => .killed
      | .preempted _ => .killed
      | x => x))
    killed := r.killed + n
    closed := r.closed || (!r.complete && r.relaunch.isNone && !allPlaced r)
    origin := match r.relaunch with
      | some (_, _, _, o) => o
      | none => if r.complete then .none else r.origin
    relaunch := none
    complete := true
    saved := []
    images := []
    floor := 0xffffffff }

/-- Triggers and handlers of a context on a tile. -/
def dropTriggers (s : State) (ctx : BitVec 32) (tile : Nat) : State :=
  (List.range 4).foldl (fun s c => modCore s (4 * tile + c) (dropOf (fun r => (getRun s r).ctx == ctx))) s

/-- The new generation goes to every device of the touched set (03 R102 step 2). -/
def sendGenerations (s : State) (ctx : BitVec 32) (devs : List Nat) : State :=
  devs.foldl (fun s dev =>
    (sendRequest s dev none (.generation ctx) 0 ctx 0x0C (leBytes 4 ctx.toNat ++ leBytes 2 (getCtx s ctx).generation.toNat ++ [0, 0])).1) s

/-- Strands that run blocks or handlers of a context. -/
def strandsOf (s : State) (ctx : BitVec 32) : List Nat :=
  (s.strands.filter (fun e => !(decide (e.2.act = .free)) && (getRun s (actRun e.2.act)).ctx == ctx)).map (·.1)

/-- Whether a context has anything on a tile: an image, strands, couriers, messages, or engine work. -/
def onTile (s : State) (ctx : BitVec 32) (tile : Nat) : Bool :=
  let t := getTile s tile
  let mine := fun (r : BitVec 32) => (getRun s r).ctx == ctx
  t.images.any (fun i => i.2 == ctx) || (strandsOf s ctx).any (fun n => n / 16 = tile)
    || (t.running.toList.map (·.cmd) ++ t.queue).any (fun c => mine c.run) || t.dray.toList.any (fun q => q.any (fun c => c.ctx == ctx))
    || (numbersFrom (4 * tile) 4).any (fun c => mine (actRun (s.couriers.get {} c).act) && s.couriers.has c
      || (getCore s c).held.any (fun h => mine h.run) || (getCore s c).inbox.any (fun e => match e with
        | .courier m => mine m.run
        | .block r _ _ _ => mine r))

/-- Whether a tile on which a context has anything is in a change of gear: a kill acts there after phase 3 (04 R110). -/
def killWaits (s : State) (ctx : BitVec 32) : Bool := s.tiles.any (fun e => e.2.changing.isSome && onTile s ctx e.1)

/-- A kill begins: its records FREE, its blocks stopped, its engines' work abandoned, its generation raised; the fence follows. While a tile
of it changes its gear its strands only stop, and the kill comes again. -/
def startKill (s : State) (ctx : BitVec 32) : State :=
  if (getCtx s ctx).killing then s
  else if killWaits s ctx then
    later ((strandsOf s ctx).foldl stopUnits
      (regrant (modRecords (modCtx s ctx (fun c => { c with killAsked := true })) ctx (fun r => { r with state := 0 })))) [.kill ctx]
  else
    let strands := strandsOf s ctx
    let tiles := (s.tiles.filter (fun e => e.2.images.any (fun i => i.2 == ctx))).map (·.1)
    let banks := strands.flatMap (fun n => ((s.strands.get {} n).a.toList.filterMap id).flatMap (fun a => a.banks.map (fun b => (n / 16, b))))
      ++ s.tiles.flatMap (fun e => ((e.2.queue ++ (e.2.running.map (·.cmd)).toList).filter (fun c => (getRun s c.run).ctx == ctx)).flatMap (fun c =>
        c.own.flatMap (fun a => a.2.banks.map (fun b => (e.1, b)))))
    let s1 := modCtx s ctx (fun c =>
      { c with
        killing := true
        killAsked := false
        held := false
        bound := false
        generation := c.generation + 1
        killAcks := c.touched
        doomedBanks := banks
        doomedTiles := tiles })
    let s2 := regrant (modRecords s1 ctx (fun r => { r with state := 0 }))
    let s3 := dropFelt (dropCopies (dropMessages s2 ctx) ctx) ctx
    let s4 := (s3.tiles.map (·.1)).foldl (fun s t => dropCommands s ctx t) s3
    let s5 := tiles.foldl (fun s t => dropTriggers s ctx t) s4
    let s6 := { s5 with
      requests := s5.requests.map (fun r => (r.1, if r.2.ctx == ctx then { r.2 with agent := none } else r.2))
      runs := s5.runs.map (fun r => (r.1, if r.2.ctx == ctx then killRun r.2 else r.2))
      felt := s5.felt.map (fun f => { f with settlers := f.settlers.filter (fun e => !(decide (e.1 ∈ strands))) }) }
    let s7 := strands.foldl freeStrand s6
    later (sendGenerations s7 ctx (getCtx s7 ctx).touched) [.killFenceEnd ctx]

/-- KILL. -/
def execKill (ctx : BitVec 32) (s : State) : Out := event (startKill s ctx)

/-! ## The end of the fence (03 R102 steps 3 and 4) -/

/-- What the fence still waits for: generations to be acknowledged, outstanding packets, segments, run phases. -/
def fenceWaits (s : State) (ctx : BitVec 32) : Bool :=
  !(getCtx s ctx).killAcks.isEmpty || s.requests.any (fun r => r.2.ctx == ctx)
    || s.tiles.any (fun e => e.2.dray.toList.any (fun q => q.any (fun c => c.ctx == ctx)))
    || s.felt.toList.any (fun f => f.ctx == some ctx && (f.state = 1 || f.state = 2))

/-- The status of a killed run's packet (02 R75): KILLED, else DISCARDED, else OK. -/
def killedStatus (r : Run) : Nat := if 0 < r.killed then 2 else if r.closed then 3 else 0

/-- The completion of a killed run goes to its packet. -/
def killedPacket (s : State) (r : Run) : State :=
  match r.origin with
  | .queue slot seq =>
    let s1 := if (getQueue s slot).packets.any (fun p => p.seq = seq && !p.dispatched) then dispatchEnded s slot seq else s
    packetDone s1 slot seq (fun p =>
      { p with
        status := killedStatus r
        exited := r.exited
        killed := r.killed })
  | _ => s

/-- Accumulator banks and panels of the context are cleared, its images and capabilities go. -/
def clearTiles (s : State) (ctx : BitVec 32) : State :=
  let c := getCtx s ctx
  let s1 := c.doomedBanks.foldl (fun s b => modTile s b.1 (fun t => { t with banks := without t.banks b.2, acc := memClear t.acc (2048 * b.2) 2048, accBad := wordsLeft t.accBad (2048 * b.2) 2048 })) s
  c.doomedTiles.foldl (fun s tile =>
    modTile (unmapEntries s tile (fun e => e.ctx == ctx)) tile (fun t =>
      { t with
        images := t.images.filter (fun i => !(i.2 == ctx))
        ids := t.ids.filter (fun e => !(t.images.any (fun i => i.2 == ctx && i.1.toNat == e.1)))
        mcap := t.mcap.filter (fun e => !(e.1 == ctx))
        pool := memClear t.pool 0 (4096 * 8 * t.panCnt)
        poolBad := wordsLeft t.poolBad 0 (4096 * 8 * t.panCnt)
        tables := t.tables.del ctx.toNat })) s1

/-- Dispatch looks again for places on the tiles that have been handed on. -/
def handOn (s : State) : State := later s (boundTokens s (fun _ => true))

/-- The destroys that awaited a context's kill fence go on (02 R75). -/
def destroysGoOn (ctx : BitVec 32) (s : State) : State :=
  (s.queues.filter (fun q => q.2.killWait == some ctx)).foldl (fun s q =>
    drainCheck (modQueue s q.1 (fun q => { q with killWait := none })) q.1) s

/-- KILL_FENCE_END: the context's memory and arrays are handed on. Its account stays, for the wadding of its groups (04 R118). -/
def execKillFenceEnd (ctx : BitVec 32) (s : State) : Out :=
  event (
    if !(getCtx s ctx).killing then s
    else if fenceWaits s ctx then later s [.killFenceEnd ctx]
    else
      let s1 := clearTiles s ctx
      let s2 := { s1 with felt := s1.felt.map (fun (f : FeltArray) => if f.ctx == some ctx then
        ({ state := 0, sparesUsed := f.sparesUsed, withdrawn := f.withdrawn, startTick := s.now, lastCal := f.lastCal } : FeltArray) else f) }
      let mine := s2.runs.filter (fun r => r.2.ctx == ctx)
      let s3 := mine.foldl (fun s r => killedPacket s r.2) s2
      let c := getCtx s3 ctx
      destroysGoOn ctx <| handOn <| regrant { s3 with
        runs := s3.runs.filter (fun r => !(r.2.ctx == ctx))
        coaches := s3.coaches.map (fun k => if k.ctx == ctx then { k with carriages := [] } else k)
        fareTags := s3.fareTags.del c.fareTag.toNat
        contexts := s3.contexts.set ctx.toNat { generation := c.generation, part := c.part, fareAcct := c.fareAcct } })

/-! ## Partition resets (02 R77, R78) -/

/-- A packet whose partition is reset: it goes no further, and its record will say RESET, with the blocks of its run that had exited and that
were lost; one whose work was complete keeps what its record says. -/
def resetPacket (s : State) (slot : Nat) (p : PacketRun) : State :=
  if p.workDone then s else modPacket s slot p.seq (fun p => { p with dispatched := true, reset := true })

/-- The packets of a reset that no kill fence has completed complete now, in queues whose partition is not under reset. -/
def resetRecords (s : State) : State :=
  s.queues.foldl (fun s q =>
    if s.host.resetting.getLsbD (qcbPart (qcb s q.1)) then s
    else (q.2.packets.filter (fun p => p.reset && !p.workDone)).foldl (fun s p => packetDone s q.1 p.seq id) s) s

/-- A queue of a partition under reset enters ERROR, and its packets end with RESET. A destroy of it that is under way ends there: BUSY of
its command clears, and the DESTROY packet of another queue that asked for it ends with RESET too (DESIGN CHOICE, log 56). -/
def resetQueue (s : State) (slot sub : Nat) : State :=
  let b := qcb s slot
  let q := getQueue s slot
  let s1 := qcbWrite s slot (putErr (putState b 4) sub)
  let s2 := if q.draining.isSome && q.destroyer.isNone then { s1 with host := { s1.host with qctlBusy := false } } else s1
  let s3 := q.packets.foldl (fun s p => resetPacket s slot p) s2
  let s4 := match q.destroyer with
    | some (d, seq) => ((getQueue s3 d).packets.filter (fun p => p.seq = seq)).foldl (fun s p => resetPacket s d p) s3
    | none => s3
  modQueue s4 slot (fun q => { q with fetch := .idle, rereads := 0, slice := none, draining := none, destroyer := none, killWait := none })

/-- The reset of a partition; one that is under way takes in another. `expired` are slots whose timer has expired. -/
def resetPartition (s : State) (part : Nat) (expired : List Nat) : State :=
  if s.host.resetting.getLsbD part then (expired.filter (fun i => qcbPart (qcb s i) = part)).foldl (fun s i => resetQueue s i 8) s
  else
    let s1 := { s with host := { s.host with resetting := s.host.resetting ||| BitVec.ofNat 8 (2 ^ part) } }
    let s2 := (s1.contexts.filter (fun c => c.2.part = part)).foldl (fun s c => startKill s (BitVec.ofNat 32 c.1)) s1
    let slots := if s.host.qhEn then (List.range (queueSlots s2)).filter (fun i => qcbLive (qcb s2 i) && qcbPart (qcb s2 i) = part) else []
    let s3 := slots.foldl (fun s i => resetQueue s i (if i ∈ expired then 8 else 9)) s2
    later s3 (if h : part < 8 then [.partitionResetEnd ⟨part, h⟩] else [])

/-- PARTITION_RESET: the partitions of the mask that exist. -/
def execPartitionReset (mask : BitVec 8) (s : State) : Out :=
  event (((List.range (partCount s)).filter (fun p => mask.getLsbD p)).foldl (fun s p => resetPartition s p []) s)

/-- The tick at which a queue's time-slice timer runs out, while it runs (02 R77). -/
def sliceEnd (q : QueueRun) : Option Nat :=
  match q.slice with
  | some (_, left, some since) => some (since + left)
  | _ => none

/-- The queues whose timers have run out, with the earliest tick of them. -/
def sliceHits (s : State) : List Nat :=
  let ends := s.queues.filterMap (fun q => (sliceEnd q.2).map (fun t => (q.1, t)))
  let late := ends.filter (fun e => decide (e.2 ≤ s.now))
  (late.filter (fun e => late.all (fun x => decide (e.2 ≤ x.2)))).map (·.1)

/-- Whether a queue's time-slice timer runs. -/
def sliceRuns (s : State) (slot : Nat) : Bool := (sliceEnd (getQueue s slot)).isSome

/-- TIMESLICE_EXPIRY: the timers that expire on one tick; a QUEUE record for each in key order, one reset for each partition. The timers of
the queues named that still run come again. -/
def execTimesliceExpiry (queues : List Nat) (s : State) : Out :=
  event (
    let hit := (sliceHits s).mergeSort (fun a b => decide (qcbKey (qcb s a) ≤ qcbKey (qcb s b)))
    let recs := fun (s : State) => hit.foldl (fun s i =>
      let b := qcb s i
      queueRecord s 8 (qcbCtx b).toNat (qcbRing b + 64 * (qcbHead b % qcbSlots b))) s
    let s1 := recs (((hit.map (fun i => qcbPart (qcb s i))).dedup).foldl (fun s p => resetPartition s p hit) s)
    let again := queues.dedup.filter (sliceRuns s1)
    if again.isEmpty then s1 else later s1 [.timesliceExpiry again])

/-- Directory entries that wait for a cluster of a partition: it answers MISS (06 R186). -/
def missWaiting (s : State) (part : Nat) : State :=
  (s.dir.filter (fun d => d.2.snooping && d.2.ownerDev.isNone && d.2.clusters.any (fun c => partOfCluster s c = part))).foldl (fun s d =>
    makeDerelict s d.1 (d.2.clusters.headD 0)) s

/-- PARTITION_RESET_END: the fences are over; the records of the packets it met are written, caches are invalid without writeback, MFW is
unlocked, the clusters answer, and the queues that have been resumed are fetched again. -/
def execPartitionResetEnd (part : Fin 8) (s : State) : Out :=
  event (
    let p := part.val
    if !s.host.resetting.getLsbD p then s
    else if s.contexts.any (fun c => c.2.part = p && (c.2.killing || c.2.killAsked)) then later s [.partitionResetEnd part]
    else
      let s1 := missWaiting s p
      let s2 := { s1 with
        l2 := s1.l2.filter (fun l => !(partOfCluster s l.cluster = p))
        dir := s1.dir.map (fun d => (d.1, if d.2.st = .shared then { d.2 with clusters := d.2.clusters.filter (fun c => !(partOfCluster s c = p)) } else d.2))
        clusters := s1.clusters.map (fun c => (c.1, if partOfCluster s c.1 = p then { c.2 with tlb := [], flagOr := 0, raised := (0, 0), mfwLock := false } else c.2))
        cores := s1.cores.map (fun c => (c.1, if partOfCluster s (c.1 / 32) = p then { c.2 with plb := [] } else c.2))
        host := { s1.host with resetting := s1.host.resetting &&& ~~~(BitVec.ofNat 8 (2 ^ p)) } }
      let s3 := resetRecords s2
      later (s3.queues.foldl (fun s q => if qcbPart (qcb s q.1) = p then fetchMore s q.1 else s) s3) (again s3 p))
where
  again (s : State) (p : Nat) : List Instr :=
    s.tiles.flatMap (fun t => if partOfDie s (t.1 / 128) = p then [.matrixCommandStart t.1] else []) ++ boundTokens s (fun _ => true)

end Sys2Proof.Machine
end

