-- ==== Sys2Proof/Machine/Fabric.lean ====
section
/-!
DEFINITION. The packets of the fabric: requests at their home, replies at their requester, gone devices, TRINV, the depots' commands,
peer reads (06 R166, R170, R181-R192; 02 R57; 03 R101; 04 R126).
-/
namespace Sys2Proof.Machine

/-! ## Dropped translations (06 R169, R170, R192) -/

/-- Addresses of the deep TLB's entries that memory or an owned line lists. -/
def deepEntries (s : State) : List Nat :=
  let base := bits s.ostler.dtPa.toNat 43 30 * 2 ^ 30
  let inside := fun (pa : Nat) => decide (base ≤ pa) && decide (pa < base + 2 ^ 30)
  if s.ostler.dtVa.toNat.testBit 63 then
    let listed := (s.hbm.filter (fun (c : Host.Cell) => inside c.1)).map (fun (c : Host.Cell) => c.1 / 16 * 16)
    let owned := (s.l2.filter (fun (l : L2Line) => l.owned && l.dev == devnum s && inside l.pa)).flatMap (fun (l : L2Line) => [l.pa, l.pa + 16, l.pa + 32, l.pa + 48])
    (listed ++ owned).dedup
  else []

/-- TLB and deep TLB entries whose page, size and leaf pass a test are dropped. -/
def dropTlb (s : State) (p : Nat → Nat → Nat → Bool) : State :=
  let s1 := { s with clusters := s.clusters.map (fun c => (c.1, { c.2 with tlb := c.2.tlb.filter (fun e => !p e.page e.size e.pte.toNat) })) }
  (deepEntries s1).foldl (fun s ea =>
    let tag := ofBytes (physRead s ea 8)
    if tag.testBit 63 && p (bits tag 56 16 * 65536) (pageSize (bits tag 62 61)) (ofBytes (physRead s (ea + 8) 8)) then
      physWrite s (ea + 7) (leBytes 1 (bits tag 62 56))
    else s) s1

/-! ## The end of a request (06 R183, R191) -/

/-- What a reply says: the fault code and sub-code, 0 for success, an AMO's old value, read data with its physical granule. -/
structure Answer where
  code : Nat := 0
  sub : Nat := 0
  value : Word := 0
  data : Option (Nat × Vec) := none

/-- An agent that waits for a reply goes on, with the value or the fault that it brings. -/
def wakeAgent (s : State) (a : Option Agent) (tag : Nat) (f : Strand → Strand) : State :=
  match a with
  | none => s
  | some a => if (getAgent s a).status = .awaitTag tag then modAgent s a (fun t => f { t with status := .ready }) else s

/-- A failing store's fault waits for the strand's next boundary; without a strand it is recorded (06 R174). -/
def storeAnswered (s : State) (r : Request) (kind : Nat) (x : Answer) : State :=
  match r.agent with
  | some a =>
    modAgent s a (fun t =>
      { t with
        acks := t.acks - 1
        deferred := if x.code = 0 then t.deferred else some (t.deferred.getD (faultInfo x.code x.sub (kind + 128) r.addr (if x.code = 0x0A then r.dev else 0))) })
  | none => s

/-- Runs of a context that may now be complete. -/
def checkRuns (s : State) (ctx : BitVec 32) : State :=
  (s.runs.filter (fun r => r.2.ctx == ctx)).foldl (fun s r => checkRun s (BitVec.ofNat 32 r.1)) s

/-- The one arrival of a courier or message that another device has answered, at its sender's barrier. -/
def arriveReply (s : State) (tile image : Nat) (va : Word) (code : Nat) : State :=
  if va = 0 ∧ code = 0 then s else arriveAt s tile image va (if code = 0 then .arrive else .arriveFail code) 9

/-- The request that has waited longest for a granule is served again; the others keep their order behind it (06 R185). -/
def releaseWaiting (s : State) (g : Nat) : State :=
  match (dirOf s g).waiting with
  | [] => s
  | p :: _ => soon s [packetEvent p]

/-- The code with which a fetch fails for its source (03 R97). -/
def fetchFailCode (code : Nat) : Nat := if code = 0x08 ∨ code = 0x09 ∨ code = 0x0A ∨ code = 0x15 then code else 0x14

/-- A request has been answered: the access that it belongs to completes. -/
def answered (s : State) (tag : Nat) (r : Request) (x : Answer) : State :=
  let s1 := { s with requests := s.requests.del tag, ostler := { s.ostler with trWait := without s.ostler.trWait tag } }
  let fault := fun (kind : Nat) => faultInfo x.code x.sub kind r.addr (if x.code = 0x0A then r.dev else 0)
  let fill := fun (s : State) (cluster vline key : Nat) => match x.data with
    | some (pa, v) =>
      if r.stale then s
      else l2Fill s { cluster := cluster, vline := vline, dev := r.dev, pa := pa, key := BitVec.ofNat 8 key, owned := false, dirty := false, poison := false, tags := [], data := v }
    | none => s
  (match r.kind with
    | .load cluster vline key kind =>
      if x.code = 0 then wakeAgent (fill s1 cluster vline key) r.agent tag id
      else wakeAgent s1 r.agent tag (fun t => { t with replyFault := some (fault kind) })
    | .store kind => checkRuns (storeAnswered s1 r kind x) r.ctx
    | .amo =>
      let s2 := match r.agent with
        | some a => modAgent s1 a (fun t => { t with acks := t.acks - 1 })
        | none => s1
      let s3 := if x.code = 0 then wakeAgent s2 r.agent tag (fun t => { t with replyValue := some x.value })
        else wakeAgent s2 r.agent tag (fun t => { t with replyFault := some (fault 2) })
      checkRuns s3 r.ctx
    | .register kind =>
      let value := match x.data with
        | some (_, v) => BitVec.ofNat 64 (fieldAt (vecBytes v) (r.addr.toNat % 64) 8)
        | none => x.value
      if x.code = 0 then wakeAgent s1 r.agent tag (fun t => { t with replyValue := some value })
      else wakeAgent s1 r.agent tag (fun t => { t with replyFault := some (fault kind) })
    | .send =>
      if x.code = 0 then wakeAgent s1 r.agent tag (fun t => { t with replyValue := some 0 })
      else wakeAgent s1 r.agent tag (fun t => { t with replyFault := some (fault 1) })
    | .invalidate g =>
      let s2 := modDir s1 g (fun d => { d with invs := d.invs - 1 })
      if (dirOf s2 g).invs = 0 then releaseWaiting s2 g else s2
    | .generation ctx => if x.code = 0 then modCtx s1 ctx (fun c => { c with killAcks := without c.killAcks r.dev }) else s1
    | .trinv => { s1 with ostler := { s1.ostler with trAcks := without s1.ostler.trAcks r.dev } }
    | .courier tile image barrier => arriveReply s1 tile image barrier x.code
    | .msend tile image barrier => arriveReply s1 tile image barrier x.code
    | .replyMsg mailbox slot =>
      (match clearBusy s1 mailbox slot with
        | .ok _ s2 => s2
        | .bad _ _ s2 => s2
        | .busy s2 => later s2 [.reply { mailbox := mailbox, seq := BitVec.ofNat 32 slot, disp := 0xFF, poster := 0xFFFF, posterFlags := 0, value := 0, from? := none }])
    | .engine unit piece => notePiece s1 unit piece x.code x.sub
    | .post id => postStep s1 id x.code x.sub (x.data.map (·.2))
    | .carriage i j got => match x.data with
      | some (_, v) => if x.code = 0 then later s1 [.carriagePiece i j (2 ^ 33 + got) (vecBytes v)] else later s1 [.carriageFetchFail i j (BitVec.ofNat 7 (fetchFailCode x.code))]
      | none => later s1 [.carriageFetchFail i j (BitVec.ofNat 7 (fetchFailCode x.code))]
    | .engineLoad unit cluster vline key =>
      if x.code = 0 then fill s1 cluster vline key else notePiece s1 unit (2 ^ 60 + vline) x.code x.sub
    | _ => s1)

/-! ## Gone devices (06 R186, R192) -/

/-- Directory entries of a device that has gone: what it owned, or was asked for, is DERELICT; it shares nothing. -/
def abandonOwner (s : State) (dev : Nat) : State :=
  let asked := s.requests.filterMap (fun r => match r.2.kind with
    | .snoop g => if r.2.dev = dev then some g else none
    | _ => none)
  let owned := (s.dir.filter (fun d => d.2.ownerDev == some dev || decide (d.1 ∈ asked))).map (·.1)
  let s1 := owned.foldl (fun s g => makeDerelict s g dev) s
  { s1 with dir := s1.dir.map (fun d => (d.1, { d.2 with remotes := without d.2.remotes dev })) }

/-- A device becomes gone; accesses in flight to it complete with REMOTE_GONE and a sub-code (06 R192). -/
def makeGone (s : State) (dev sub : Nat) : State :=
  if dev ∈ s.ostler.gone ∨ dev = devnum s then s
  else
    let s1 := { s with ostler := { s.ostler with gone := s.ostler.gone ++ [dev], believed := s.ostler.believed.del dev, trAcks := without s.ostler.trAcks dev } }
    let s2 := dropTlb s1 (fun _ _ pte => pteDev s pte = dev)
    let s3 := abandonOwner { s2 with l2 := s2.l2.filter (fun l => !(l.dev == dev)) } dev
    (s3.requests.filter (fun r => r.2.dev = dev)).foldl (fun s r => answered s r.1 r.2 { code := 0x0A, sub := sub }) s3

/-- Devices that a change of ports has left without a route (01 R35, 06 R192). -/
def goneByLink (s : State) (routed : List Nat) : State :=
  (routed.filter (fun d => !hasRoute s d)).foldl (fun s d => makeGone s d 1) s

/-- GONE_CLEAR: access to the device is restored; a kill that waits for it sends its generation again (06 R192, 03 R102). -/
def execGoneClear (dev : Nat) (s : State) : Out :=
  event (
    let s1 := { s with ostler := { s.ostler with gone := without s.ostler.gone dev } }
    (s.contexts.filter (fun c => c.2.killing && decide (dev ∈ c.2.killAcks))).foldl (fun s c => sendGenerations s (BitVec.ofNat 32 c.1) [dev]) s1)

/-- REQUEST_TIMEOUT: no reply within 100 µs (06 R191). -/
def execRequestTimeout (tag : Nat) (s : State) : Out :=
  event (match s.requests.find? (fun r => r.1 == tag) with
    | none => s
    | some (_, r) =>
      if s.now < r.since + 100000 then later s [.requestTimeout tag]
      else
      let s1 := makeGone s r.dev 3
      match s1.requests.find? (fun r => r.1 == tag) with
      | none => s1
      | some (_, r) => answered s1 tag r { code := 0x0A, sub := 3 })

/-! ## Requests of other devices (06 R181, R182; 03 R101; 04 R126) -/

/-- Work that the device does for a packet is billed to its source and tag (04 R126). -/
def charged (s : State) (p : Packet) : State :=
  if p.fareTag = 0 then s else { s with charges := s.charges ++ [(p.src.toNat, p.fareTag.toNat, Config.fareWeight (256 + p.opcode.toNat))] }

/-- The request word of a DATA reply: the request's, whose EPOCH field carries the responder's own epoch (06 R181, R191; log 46). -/
def dataWord (s : State) (b : List Byte) : List Byte := patch (padTo 16 b) 6 (leBytes 2 s.ostler.epoch.toNat)

/-- A request is refused with a fault code: statuses 1 to 3 name their code, another code goes with REFUSED (06 R183). -/
def refuse (s : State) (p : Packet) (code sub : Nat) : State :=
  if 7 ≤ code ∧ code ≤ 9 then acknowledge s p (p.body.take 16) (code - 6) sub 0 0 else acknowledge s p (p.body.take 16) 9 sub code 0

/-- The generation that a depot has recorded for a context of another device, if older writes are to be rejected (03 R101). -/
def staleGeneration (s : State) (dev : Nat) (ctx : BitVec 32) (g : Nat) : Bool :=
  match s.generations.find? (fun e => e.1 == dev && e.2.1 == ctx) with
  | none => false
  | some (_, _, r) =>
    let age := (r.toNat + 65536 - g) % 65536
    decide (1 ≤ age) && decide (age ≤ 32767)

/-- Whether a request word may be served as it stands (06 R182). -/
def requestWordLegal (b : List Byte) : Bool :=
  let pa := fieldAt b 0 6
  let size := bits (fieldAt b 15 1) 2 0
  decide (pa < 2 ^ 44) && bits (fieldAt b 15 1) 5 3 = 0 && !(size = 7) && pa % 2 ^ size = 0

/-- Whether a request word's EPOCH is neither 0 nor this device's (06 R191). -/
def staleEpoch (s : State) (b : List Byte) : Bool := !(fieldAt b 6 2 = 0) && !(fieldAt b 6 2 = s.ostler.epoch.toNat)

/-- Whether a snoop or invalidation is refused for its request word, and the refusal: BAD_REQUEST or STALE_EPOCH (06 R182, R183, R191). -/
def wordRefused (s : State) (p : Packet) : Bool := !requestWordLegal p.body || staleEpoch s p.body
def refuseWord (s : State) (p : Packet) : State := acknowledge s p (p.body.take 16) (if requestWordLegal p.body then 5 else 8) 0 0 0

/-- The epoch that a reply of a device carries is recorded; a responder that gives 0 gives none (06 R191). -/
def believes (s : State) (dev epoch : Nat) : State :=
  if epoch = 0 then s else { s with ostler := { s.ostler with believed := s.ostler.believed.set dev (BitVec.ofNat 16 epoch) } }

/-- A request waits for its granule, behind those that came before it. -/
def waitGranule (s : State) (g : Nat) (p : Packet) : State := modDir s g (fun d => { d with waiting := d.waiting ++ [p] })

/-- The requests that wait for a granule set aside while the first of them, or a new one where none waits, is served. -/
def setAside (s : State) (g : Nat) : State := if (dirOf s g).waiting.isEmpty then s else modDir s g (fun d => { d with waiting := [] })

/-- They wait again behind the one that has just been served, or that waits once more; the next is served (06 R185). -/
def putBack (s : State) (g : Nat) (rest : List Packet) : State :=
  if rest.isEmpty then s
  else
    let s1 := modDir s g (fun d => { d with waiting := d.waiting ++ rest })
    if (dirOf s g).waiting.isEmpty then releaseWaiting s1 g else s1

/-- The depot serves the requests for a granule one at a time, in arrival order (06 R185): a request behind another waits. -/
def withTurn (s : State) (gs : List Nat) (p : Packet) (serve : State → State) : State :=
  match gs.find? (fun g => !(dirOf s g).waiting.isEmpty && !((dirOf s g).waiting.head? == some p)) with
  | some g => if (dirOf s g).waiting.contains p then s else waitGranule s g p
  | none =>
    let rests := gs.map (fun g => (g, (dirOf s g).waiting.erase p))
    rests.foldl (fun s r => putBack s r.1 r.2) (serve (gs.foldl setAside s))

/-- A request to the depot control window: RD of one register is answered with it at its place of the granule, WR of one register
writes it, other sizes are misaligned, and no other request reaches the window (06 R182, R188, R414; log 21). -/
def windowRequest (s : State) (p : Packet) (pa : Nat) : State :=
  let b := p.body
  let size := bits (fieldAt b 15 1) 2 0
  if p.opcode = 0x01 then
    if size = 3 then replyTo s p 0x08 (dataWord s b ++ vecBytes (granuleImage (pa % 64) (leBytes 8 (depotRegRead s (pa - depotWindow)))))
    else refuse s p 0x03 0
  else if p.opcode = 0x03 then
    match (List.range 8).find? (fun k => fieldAt b 16 8 = maskAt (8 * k) 8) with
    | some k =>
      acknowledge (depotPut s (pa / 64 * 64 - depotWindow + 8 * k) (BitVec.ofNat 64 (fieldAt b (24 + 8 * k) 8))) p (b.take 16) 0 0 0 0
    | none => refuse s p 0x03 0
  else refuse s p 0x04 0x01

/-- The checks of a request word, in front of its service with the physical address and the key, in its turn among the requests for `n`
granules. What the device does for it is billed once, when it first comes in (04 R126). -/
def withRequest (s : State) (p : Packet) (write : Bool) (n : Nat) (f : State → Nat → BitVec 8 → State) : State :=
  let b := p.body
  let pa := fieldAt b 0 6
  let gs := numbersFrom (pa / 64) n
  if !requestWordLegal b then refuseWord s p
  else if !populated pa then acknowledge s p (b.take 16) 9 0x04 0x06 0
  else if staleEpoch s b then refuseWord s p
  else if write && staleGeneration s p.src.toNat (BitVec.ofNat 32 (fieldAt b 8 4)) (fieldAt b 12 2) then acknowledge s p (b.take 16) 4 0 0 0
  else if hbmSize ≤ pa then windowRequest (charged s p) p pa
  else
    let s1 := if gs.any (fun g => (dirOf s g).waiting.contains p) then s else charged s p
    withTurn s1 gs p (fun s => f s pa (BitVec.ofNat 8 (fieldAt b 14 1)))

/-- Read data for a request. -/
def sendData (s : State) (p : Packet) (v : Vec) : State := replyTo s p 0x08 (dataWord s p.body ++ vecBytes v)

/-- A remote sharer: four by number, more set WIDE (06 R185). -/
def addSharer (d : DirEntry) (dev : Nat) : DirEntry :=
  if decide (dev ∈ d.remotes) || d.wide then { d with st := .shared }
  else if d.remotes.length < 4 then { d with st := .shared, remotes := d.remotes ++ [dev] }
  else { d with st := .shared, wide := true }

/-- The body of a carriage fetch's read: a request word, the virtual address, PDOM and the bytes wanted, zero to 32 bytes. The spec gives
such a read no packet: an RD with this body is a DESIGN CHOICE (03 R95, log 34). -/
def fetchReadBody (s : State) (dev : Nat) (ctx : BitVec 32) (va : Word) (n : Nat) : List Byte :=
  padTo 32 (requestWord s dev 0 ctx 0 6 false false ++ leBytes 8 va.toNat ++ leBytes 2 (getCtx s ctx).pdom.toNat ++ leBytes 2 n)

/-- This device's grant list of a protection domain: that of a context of it (06 R160, R161). -/
def domainGrants (s : State) (pdom : BitVec 16) : Nat × Nat :=
  match s.contexts.find? (fun c => c.2.pdom == pdom && !(c.2.glCount = 0)) with
  | some c => (c.2.glBase * 4096, c.2.glCount)
  | none => (0, 0)

/-- The read of a granule at a virtual address of this device for a carriage: the grant list of the domain, this device's walk, and the depot
(03 R95). -/
def fetchServe (s : State) (unit : Nat) (pdom : BitVec 16) (va n : Nat) : Served Vec :=
  if !(bits va 63 57 = 0) then .bad 0x05 0x02 s
  else
    (searchGrants s pdom (domainGrants s pdom).1 0 (domainGrants s pdom).2 va n).andThen (fun e s1 =>
      if !(e.any (fun e => e.rights.getLsbD 0)) then .bad 0x04 0x01 s1
      else
        (unitWalk s1 unit va).andThen (fun leaf s2 =>
          let (dev, pa, key) := place s2 va leaf.2 leaf.1
          if !(dev = devnum s2) || decide (hbmSize ≤ pa) then .bad 0x06 0x04 s2 else depotRead s2 (pa / 64) key))

/-- A carriage fetch's read from another device; what fails it is a failure of the source (03 R95). -/
def fetchPacket (s : State) (p : Packet) : State :=
  if wordRefused s p then refuseWord s p
  else
    match fetchServe s (2 ^ 50 + p.src.toNat * 2 ^ 32 + p.tag.toNat) (BitVec.ofNat 16 (fieldAt p.body 24 2)) (fieldAt p.body 16 8) (fieldAt p.body 26 2) with
    | .ok v s1 => sendData (charged s1 p) p v
    | .bad code sub s1 => refuse s1 p (fetchFailCode code) sub
    | .busy s1 => later s1 [.rd p]

/-- RD: of a granule by its physical address, or of a carriage's. -/
def execRd (p : Packet) (s : State) : Out :=
  event (if p.body.length = 32 then fetchPacket s p else withRequest s p false 1 (fun s pa key =>
    let g := pa / 64
    match depotRead s g key with
    | .ok v s1 => sendData (modDir s1 g (fun d => addSharer d p.src.toNat)) p v
    | .bad code sub s1 => refuse s1 p code sub
    | .busy s1 => waitGranule s1 g p))

/-- RDX: the requester becomes the owner, and the waybill maps take it (08 R218). -/
def execRdx (p : Packet) (s : State) : Out :=
  event (withRequest s p true 1 (fun s pa key =>
    let g := pa / 64
    match settle s g none with
    | .bad code sub s1 => refuse s1 p code sub
    | .busy s1 => waitGranule s1 g p
    | .ok _ s1 =>
      match invalidate s1 g none with
      | .bad code sub s2 => refuse s2 p code sub
      | .busy s2 => waitGranule s2 g p
      | .ok _ s2 =>
        match readSector s2 g key with
        | .ok v s3 => sendData (markMaps (modDir s3 g (fun d => { d with st := .owned, clusters := [], ownerDev := some p.src.toNat })) g 0) p v
        | .bad code sub s3 => refuse s3 p code sub
        | .busy s3 => waitGranule s3 g p))

/-- A whole 8-byte store of another device that lands in a word of an aperture line of this device starts its copy (15 R368). -/
def apertureLanding (s : State) (pa : Nat) (mask : Nat) (v : Vec) : State :=
  match (List.range 4).find? (fun c => mask = maskAt (8 * c) 8) with
  | some c =>
    apertureStarts s (fun l => match walk s l with
      | .ok dev base _ _ _ => decide (dev = devnum s) && decide (base / 64 = pa / 64)
      | _ => false) (8 * c) (((vecBytes v).drop (8 * c)).take 8)
  | none => s

/-- WR: 64 bytes under a byte mask. -/
def execWr (p : Packet) (s : State) : Out :=
  event (withRequest s p true 1 (fun s pa key =>
    let g := pa / 64
    let mask := fieldAt p.body 16 8
    let v := vecOfBytes ((p.body.drop 24).take 64)
    match depotWrite s g key v mask 0 with
    | .ok _ s1 => acknowledge (apertureLanding s1 pa mask v) p (p.body.take 16) 0 0 0 0
    | .bad code sub s1 => refuse s1 p code sub
    | .busy s1 => waitGranule s1 g p))

/-- AMO: performed at the depot, answered with the old value (14 R330). -/
def execAmoPacket (p : Packet) (s : State) : Out :=
  event (withRequest s p true 1 (fun s pa key =>
    let g := pa / 64
    let b := p.body
    let n := fieldAt b 17 1
    if !(n = 4) && !(n = 8) || decide (9 < fieldAt b 16 1) || !(pa % n = 0) then acknowledge s p (b.take 16) 8 0 0 0
    else
      match depotRead s g key with
      | .bad code sub s1 => refuse s1 p code sub
      | .busy s1 => waitGranule s1 g p
      | .ok v s1 =>
        let old := fieldAt (vecBytes v) (pa % 64) n
        match amoNew (fieldAt b 16 1) n old (fieldAt b 24 8 % 2 ^ (8 * n)) (fieldAt b 32 8 % 2 ^ (8 * n)) with
        | none => acknowledge s1 p (b.take 16) 0 0 0 old
        | some x =>
          match depotWrite s1 g key (granuleImage (pa % 64) (leBytes n x)) (maskAt (pa % 64) n) 0 with
          | .ok _ s2 => acknowledge s2 p (b.take 16) 0 0 0 old
          | .bad code sub s2 => refuse s2 p code sub
          | .busy s2 => waitGranule s2 g p))

/-- WB: the owner's data comes home, and what waits for it is served, a snoop that is out having nothing more to bring; a late writeback into a DERELICT entry does not land (06 R186). -/
def execWb (p : Packet) (s : State) : Out :=
  event (withRequest s p true 0 (fun s pa key =>
    let g := pa / 64
    let d := dirOf s g
    if d.st == .derelict || (sectorOf s g).derelict then refuse s p 0x07 0x04
    else if d.ownerDev == some p.src.toNat then
      let s1 := markMaps (writeSector s g key (vecOfBytes ((p.body.drop 16).take 64))) g 0
      acknowledge (releaseWaiting (modDir s1 g (fun d => { d with st := .uncached, ownerDev := none, snooping := false })) g) p (p.body.take 16) 0 0 0 0
    else acknowledge s p (p.body.take 16) 0 0 0 0))

/-- SNP: this device answers HIT for a granule of the sender's memory that it holds, in a cache or for a posting, else MISS (06 R186). A
granule that a posting has still to change is answered for when it goes back. -/
def execSnp (p : Packet) (s : State) : Out :=
  event (if wordRefused s p then refuseWord s p else
    let pa := fieldAt p.body 0 6 / 64 * 64
    let hit := fun (data : List Byte) => dataWord s p.body ++ [1, 0, 0, 0, 0, 0, 0, 0] ++ data
    match s.l2.find? (fun l => l.dev == p.src.toNat && l.pa == pa), s.outPosts.find? (fun q => q.dev = p.src.toNat && q.pa / 64 * 64 = pa && !(q.stage = .queued)) with
    | some l, _ =>
      let s1 := { s with l2 := s.l2.map (fun x => if x.dev == p.src.toNat && x.pa == pa then { x with owned := false, dirty := false } else x) }
      replyTo s1 p 0x07 (hit (if l.dirty then vecBytes l.data else []))
    | none, some q =>
      if q.stage = .asked ∨ q.stage = .slot then modPost s q.id (fun q => { q with snoop := some p }) else replyTo s p 0x07 (hit q.head)
    | none, none => replyTo s p 0x07 (dataWord s p.body ++ List.replicate 8 0))

/-- SNPRSP: HIT data is written and the entry leaves O; MISS makes it DERELICT; an answer after the time-out is discarded, and INV goes
to its sender (06 R186). -/
def execSnprsp (p : Packet) (s : State) : Out :=
  event (if !requestWordLegal p.body then refuseWord s p else
    let s := believes s p.src.toNat (fieldAt p.body 6 2)
    match s.requests.find? (fun r => r.1 == p.tag.toNat && r.2.dev == p.src.toNat) with
    | some (tag, { kind := .snoop g, .. }) =>
      let s1 := { s with requests := s.requests.del tag }
      if !(dirOf s1 g).snooping then s1
      else if fieldAt p.body 16 1 = 1 then
        let s2 := if 88 ≤ p.body.length then markMaps (writeSector s1 g (BitVec.ofNat 8 (fieldAt p.body 14 1)) (vecOfBytes ((p.body.drop 24).take 64))) g 0 else s1
        releaseWaiting (modDir s2 g (fun d => { d with st := .shared, ownerDev := none, remotes := with1 d.remotes p.src.toNat, snooping := false })) g
      else makeDerelict s1 g p.src.toNat
    | _ =>
      let pa := fieldAt p.body 0 6
      (sendRequest s p.src.toNat none (.invalidate (pa / 64)) (BitVec.ofNat 64 pa) 0 0x0A (requestWord s p.src.toNat pa 0 0 6 false false)).1)

/-- SNOOP_TIMEOUT: DTMO µs without an answer. -/
def execSnoopTimeout (g : Nat) (s : State) : Out :=
  event (
    let d := dirOf s g
    if d.snooping then
      if s.now < d.snoopTick + 1000 * s.depot.dtmo.toNat then later s [.snoopTimeout g]
      else
      makeDerelict { s with requests := s.requests.filter (fun r => !(r.2.kind == .snoop g)) } g (match d.ownerDev with
        | some dev => dev
        | none => d.clusters.headD 0)
    else s)

/-- INV: copies of the sender's line go, and one that a read under way would bring (07 R195). -/
def execInv (p : Packet) (s : State) : Out :=
  event (if wordRefused s p then refuseWord s p else
    let pa := fieldAt p.body 0 6 / 64 * 64
    let s1 := staleReads { s with l2 := s.l2.filter (fun l => !(l.dev == p.src.toNat && l.pa == pa)) } (fun r => r.dev == p.src.toNat && r.pa == pa)
    acknowledge s1 p (p.body.take 16) 0 0 0 0)

/-! ## Replies (06 R183) -/

/-- DATA: the responder's epoch is recorded, and the requester's access completes. -/
def execDataPacket (p : Packet) (s : State) : Out :=
  event (match s.requests.find? (fun r => r.1 == p.tag.toNat && r.2.dev == p.src.toNat) with
    | some (tag, r) =>
      answered (believes s r.dev (fieldAt p.body 6 2)) tag r { data := some (fieldAt p.body 0 6 / 64 * 64, vecOfBytes ((p.body.drop 16).take 64)) }
    | none => s)

/-- The fault code and sub-code of a reply's status (06 R183). -/
def statusCode (b : List Byte) : Nat × Nat :=
  let st := fieldAt b 16 1
  let sub := fieldAt b 17 1
  if st = 0 ∨ st = 4 then (0, 0)
  else if st ≤ 3 then (st + 6, sub)
  else if st = 5 then (0x0A, 2)
  else if st ≤ 8 then (0x15, st - 5)
  else (fieldAt b 20 1, sub)

/-- ACK: the responder's epoch is recorded; STALE_EPOCH makes it gone. -/
def execAckPacket (p : Packet) (s : State) : Out :=
  event (match s.requests.find? (fun r => r.1 == p.tag.toNat && r.2.dev == p.src.toNat) with
    | none => s
    | some (tag, r) =>
      let (code, sub) := statusCode p.body
      let x : Answer := { code := code, sub := sub, value := BitVec.ofNat 64 (fieldAt p.body 24 8) }
      if fieldAt p.body 16 1 = 5 then makeGone (answered s tag r x) r.dev 2
      else
        let s1 := { s with ostler := { s.ostler with believed := s.ostler.believed.set r.dev (BitVec.ofNat 16 (fieldAt p.body 18 2)) } }
        answered s1 tag r x)

/-! ## TRINV (06 R167, R170) -/

/-- Lines whose virtual address passes a test are written back and invalidated. -/
def flushLines (s : State) (p : Nat → Bool) : State := (s.l2.filter (fun l => p (64 * l.vline))).foldl evictLine s

/-- The watched swatches of every armed run in an address range are set in its live map (08 R218). -/
def markRange (s : State) (lo hi : Nat) : State :=
  s.runs.foldl (fun s e =>
    let run : BitVec 32 := BitVec.ofNat 32 e.1
    if wbState e.2.wbWord = 0 || !e.2.lr.record then s
    else
      e.2.lr.watch.foldl (fun s w =>
        let first := max (w.1 / 4096) (lo / 4096)
        (numbersFrom first (min (w.1 / 4096 + w.2) (hi / 4096) - first)).foldl (fun s sw =>
          match watchIndex e.2.lr.watch sw with
          | some j => markBit s run (markedMap e.2 run 0) j
          | none => s) s) s) s

/-- The watched pages of every armed run in an address range are walked again: from then on the depots of their new places set their bits (06
R171, 08 R218). -/
def rearmRange (s : State) (lo hi : Nat) : State :=
  { s with runs := s.runs.map (fun r => (r.1, { r.2 with armed := r.2.armed.map (fun e =>
      if decide (lo < 65536 * (e.1 + 1)) && decide (65536 * e.1 < hi) then (e.1, armPage s e.1) else e) })) }

/-- Steps 1 to 3 of a command, from the images of TRINV, TRVA and TRLEN. -/
def trinvHere (s : State) (cmd va len : Nat) : State :=
  let c := bits cmd 63 60
  let lo := bits va 56 16 * 65536
  let hi := lo + 65536 * bits len 31 0
  if c = 1 then
    rearmRange (markRange (dropTlb (flushLines s (fun a => decide (lo ≤ a) && decide (a < hi))) (fun page size _ => decide (page < hi) && decide (lo < page + size))) lo hi) lo hi
  else if c = 2 then rearmRange (markRange (dropTlb (flushLines s (fun _ => true)) (fun _ _ _ => true)) 0 (2 ^ 57)) 0 (2 ^ 57)
  else if c = 3 then
    { s with cores := s.cores.map (fun k => (k.1, { k.2 with plb := k.2.plb.filter (fun e => !(e.pdom.toNat = bits cmd 47 32)) })) }
  else s

def trinvRefuse (s : State) : State := { s with ostler := { s.ostler with trErr := true } }

/-- The addresses that a command covers (06 R170). -/
def trinvCovers (cmd va len a : Nat) : Bool :=
  let lo := bits va 56 16 * 65536
  bits cmd 63 60 = 2 || (bits cmd 63 60 = 1 && decide (lo ≤ a) && decide (a < lo + 65536 * bits len 31 0))

/-- Engine work under way for a context that passes a test. -/
def engineWork (s : State) (p : BitVec 32 → Bool) : List EngineWork :=
  let ofRun := fun (r : BitVec 32) => p (getRun s r).ctx
  s.tiles.flatMap (fun t =>
    ((t.2.dray.toList.flatMap id).filter (fun c => p c.ctx)).map (fun c => .copy t.1 c.tag)
      ++ ((t.2.queue ++ (t.2.running.toList.map (·.cmd))).filter (fun c => ofRun c.run)).map (fun c => .matrix t.1 c))
    ++ ((List.range 8).zip s.felt.toList).flatMap (fun f =>
      ((f.2.queue ++ f.2.runCmd.toList ++ f.2.converting.toList).filter (fun c => p c.ctx)).map (fun c => .felt f.1 c))

/-- Peer loads under way of agents whose context passes a test. -/
def peerLoads (s : State) (p : BitVec 32 → Bool) : List EngineWork :=
  let load := fun (a : Agent) => match (getAgent s a).status with
    | .awaitPeer bus _ _ va => if p (agentCtx s a) then [EngineWork.peer a bus va] else []
    | _ => []
  s.strands.flatMap (fun e => load (.strand e.1)) ++ s.cores.flatMap (fun e => load (.courier e.1))

/-- The accesses under way that a command waits for: under RANGE and ALL the stores in its range that are not yet acknowledged (06 R171);
under GRANTS everything that passed a check under an entry of the domain (06 R170). -/
def trinvWaits (s : State) (cmd va len : Nat) : List Nat × List EngineWork :=
  if bits cmd 63 60 = 3 then
    let mine := fun (c : BitVec 32) => (getCtx s c).pdom.toNat = bits cmd 47 32
    ((s.requests.filter (fun r => mine r.2.ctx)).map (·.1), engineWork s (fun c => decide (mine c)) ++ peerLoads s (fun c => decide (mine c)))
  else
    let writes := fun (k : ReqKind) => match k with
      | .store _ => true
      | .engine _ _ => true
      | .amo => true
      | _ => false
    ((s.requests.filter (fun r => writes r.2.kind && trinvCovers cmd va len r.2.addr.toNat)).map (·.1), [])

/-- A command's own part on a device; reads in its range that are under way fill no cache with the old home's data (06 R171). -/
def trinvPart (s : State) (cmd va len : Nat) : State := staleReads (trinvHere s cmd va len) (fun r => trinvCovers cmd va len r.addr.toNat)

/-- The fields of TRINV as a store leaves them; ERR clears where 1 is written to it (06 R167). -/
def trinvStore (s : State) (v : Word) : State :=
  { s with ostler := { s.ostler with
      trCmd := BitVec.ofNat 4 (bits v.toNat 63 60)
      trScope := BitVec.ofNat 3 (bits v.toNat 59 57)
      trPdom := BitVec.ofNat 16 (bits v.toNat 47 32)
      trErr := s.ostler.trErr && !v.getLsbD 1 } }

/-- A TRINV command: refused while BUSY or with another SCOPE; under DOMAIN it goes to every device with a route. A write while BUSY
stores nothing but ERR: DESIGN CHOICE (log 48). -/
def trinv (s : State) (v : Word) : State :=
  let scope := bits v.toNat 59 57
  if trinvBusy s then trinvRefuse s
  else if !(scope = 3 || scope = 4) then trinvRefuse (trinvStore s v)
  else
    let s0 := trinvStore s v
    let waits := trinvWaits s v.toNat s.ostler.trVa.toNat s.ostler.trLen.toNat
    let s1 := trinvPart s0 v.toNat s.ostler.trVa.toNat s.ostler.trLen.toNat
    let devs := if scope = 4 then (List.range 8192).filter (fun d => !(d = devnum s) && hasRoute s1 d) else []
    let body := leBytes 8 v.toNat ++ leBytes 8 s.ostler.trVa.toNat ++ leBytes 8 s.ostler.trLen.toNat
    let s2 := devs.foldl (fun s d => (sendRequest s d none .trinv 0 0 0x0B body).1) s1
    { s2 with ostler := { s2.ostler with trAcks := devs, trWait := waits.1, trUnits := waits.2 } }

/-- TRINV_RANGE. -/
def execTrinvRange (v : Word) (s : State) : Out := event (trinv s v)
/-- TRINV_ALL. -/
def execTrinvAll (v : Word) (s : State) : Out := event (trinv s v)
/-- TRINV_GRANTS. -/
def execTrinvGrants (v : Word) (s : State) : Out := event (trinv s v)

/-- TRINV packet: its part here, and the acknowledgement when what it waits for is complete. -/
def execTrinvPacket (p : Packet) (s : State) : Out :=
  event (match s.ostler.trinvHeld.find? (fun h => h.1 == p) with
    | some h =>
      if waitsOn s h.2.1 h.2.2 then later s [.trinvPacket p]
      else acknowledge { s with ostler := { s.ostler with trinvHeld := s.ostler.trinvHeld.erase h } } p [] 0 0 0 0
    | none =>
      let waits := trinvWaits s (fieldAt p.body 0 8) (fieldAt p.body 8 8) (fieldAt p.body 16 8)
      let s1 := trinvPart s (fieldAt p.body 0 8) (fieldAt p.body 8 8) (fieldAt p.body 16 8)
      if waitsOn s1 waits.1 waits.2 then later { s1 with ostler := { s1.ostler with trinvHeld := s1.ostler.trinvHeld ++ [(p, waits)] } } [.trinvPacket p]
      else acknowledge s1 p [] 0 0 0 0)

/-! ## Other bodies (06 R184) -/

/-- GEN: the generation is recorded, then acknowledged. -/
def execGen (p : Packet) (s : State) : Out :=
  event (
    let ctx : BitVec 32 := BitVec.ofNat 32 (fieldAt p.body 0 4)
    let rest := s.generations.filter (fun e => !(e.1 == p.src.toNat && e.2.1 == ctx))
    acknowledge { s with generations := rest ++ [(p.src.toNat, ctx, BitVec.ofNat 16 (fieldAt p.body 4 2))] } p [] 0 0 0 0)

/-- The tags of a CHARGE body. -/
def chargedTags (b : List Byte) : List Nat := ((List.range (min 128 (fieldAt b 0 2))).map (fun k => fieldAt b (8 + 8 * k) 2)).filter (fun t => !(t = 0))

/-- CHARGE: energy that other devices spent for this device's tags is debited from their accounts; tag 0 bills nothing (04 R126). An
account that it leaves at zero or below holds its contexts (03 R100). -/
def execCharge (p : Packet) (s : State) : Out :=
  event (
    let s1 := (List.range (min 128 (fieldAt p.body 0 2))).foldl (fun s k =>
      let tag := fieldAt p.body (8 + 8 * k) 2
      let nj := fieldAt p.body (12 + 8 * k) 4
      if tag = 0 then s
      else
        let acct := s.fareTags.get 0 tag
        { s with balances := s.balances.set acct (s.balances.get 0 acct - (nj : Int)) }) s
    acknowledge (holdAccounts s1 ((chargedTags p.body).map (s.fareTags.get 0))) p [] 0 0 0 0)

/-- The accumulated charges of one source, added up by tag. -/
def chargesOf (s : State) (dev : Nat) : List (Nat × Nat) :=
  let mine := s.charges.filter (fun c => c.1 = dev)
  ((mine.map (fun c => c.2.1)).dedup).map (fun t => (t, ((mine.filter (fun c => c.2.1 = t)).map (fun c => c.2.2)).sum))

/-- CHARGE messages of at most 128 entries; `fuel` bounds them. -/
def sendCharges (s : State) (dev fuel : Nat) (cs : List (Nat × Nat)) : State :=
  match fuel with
  | 0 => s
  | k + 1 =>
    if cs.isEmpty then s
    else
      let now := cs.take 128
      let body := leBytes 2 now.length ++ List.replicate 6 0 ++ now.flatMap (fun c => leBytes 2 c.1 ++ [0, 0] ++ leBytes 4 c.2)
      sendCharges (sendRequest s dev none .charge 0 0 0x0D body).1 dev k (cs.drop 128)

/-- CHARGE_SEND. -/
def execChargeSend (s : State) : Out :=
  event (
    let devs := (s.charges.map (·.1)).dedup
    let s1 := devs.foldl (fun s d => let cs := chargesOf s d; sendCharges s d (cs.length / 128 + 1) cs) s
    { s1 with charges := [] })

/-- NOTICE: the 32-byte record goes to PA under key slot 0 (01 R37). -/
def execNotice (p : Packet) (s : State) : Out :=
  event (
    let pa := fieldAt p.body 0 8
    if !(pa % 32 = 0) || decide (hbmSize ≤ pa) then acknowledge s p [] 9 0x04 0x06 0
    else withTurn s [pa / 64] p (fun s =>
      match depotWrite s (pa / 64) 0 (granuleImage (pa % 64) ((p.body.drop 8).take 32)) (maskAt (pa % 64) 32) 0 with
      | .ok _ s1 => acknowledge s1 p [] 0 0 0 0
      | .bad code sub s1 => refuse s1 { p with body := [] } code sub
      | .busy s1 => waitGranule s1 (pa / 64) p))

/-- SEND from another device (16 R390): refused, or held, and then acknowledged. -/
def execSendPacket (p : Packet) (s : State) : Out :=
  event (
    let w := fieldAt p.body 0 8
    let m := targetOf w
    let no := fun (code sub : Nat) => refuse s { p with body := [] } code sub
    if targetBad w true then no 0x01 0x01
    else if ostlerTile s (m.core / 4) then no 0x04 0x02
    else
      match sendArrives s m (BitVec.ofNat 32 (fieldAt p.body 8 4)) none (vecOfBytes ((p.body.drop 16).take 64)) with
      | .held s1 => acknowledge (charged s1 p) p [] 0 0 0 0
      | .refused code sub => no code sub
      | .full => later s [.sendPacket p])

/-- COURIER from another device (16 R391): it is acknowledged when it ends. -/
def execCourierPacket (p : Packet) (s : State) : Out :=
  event (
    let w := fieldAt p.body 0 8
    let m := targetOf w
    let entry := p.body.drop 8
    if targetBad w false then refuse s { p with body := [] } 0x01 0x01
    else if ostlerTile s (m.core / 4) then refuse s { p with body := [] } 0x04 0x02
    else if 32 ≤ inboxUsed (getCore s m.core) then later s [.courierPacket p]
    else inboxCourier (charged s p) m.core (courierOf entry (fieldAt entry 1 1) 0 0 (some p)))

/-- MSEND from another device (15 R361). -/
def execMsendPacket (p : Packet) (s : State) : Out :=
  event (if ostlerTile s (msendTile p.body) then refuse s { p with body := [] } 0x04 0x02 else msendArrives (charged s p) 0 0 (some p) p.body)

/-- The granules of a DRAYWR, in order. -/
def drayGranules (s : State) (g : Nat) (key : BitVec 8) (bs : List Byte) (n : Nat) : Served Unit :=
  match n with
  | 0 => .ok () s
  | k + 1 =>
    match depotWrite s g key (vecOfBytes (bs.take 64)) (2 ^ 64 - 1) 0 with
    | .ok _ s1 => drayGranules s1 (g + 1) key (bs.drop 64) k
    | .bad code sub s1 => .bad code sub s1
    | .busy s1 => .busy s1

/-- DRAYWR: once the depot holds all its granules, each is written. -/
def execDraywr (p : Packet) (s : State) : Out :=
  event (withRequest s p true (min 32 (fieldAt p.body 16 2 / 64)) (fun s pa key =>
    let n := fieldAt p.body 16 2
    if n = 0 || !(n % 64 = 0) || decide (2048 < n) then acknowledge s p (p.body.take 16) 8 0 0 0
    else if hbmSize < pa + n then acknowledge s p (p.body.take 16) 9 0x04 0x06 0
    else
      match (depotTakes s true (numbersFrom (pa / 64) (n / 64))).andThen (fun _ s => drayGranules s (pa / 64) key (p.body.drop 24) (n / 64)) with
      | .ok _ s1 => acknowledge s1 p (p.body.take 16) 0 0 0 0
      | .bad code sub s1 => refuse s1 p code sub
      | .busy s1 => waitGranule s1 (((numbersFrom (pa / 64) (n / 64)).find? (fun g => (dirOf s1 g).snooping || decide (0 < (dirOf s1 g).invs) || heldElsewhere s1 g)).getD (pa / 64)) p))

/-- KILL from another device: the kill starts, then the acknowledgement. -/
def execKillPacket (p : Packet) (s : State) : Out :=
  event (acknowledge (startKill s (BitVec.ofNat 32 (fieldAt p.body 0 4))) p [] 0 0 0 0)

/-- A packet with a reserved opcode (06 R181). -/
def execReservedOpcode (p : Packet) (s : State) : Out := event (if p.flags.getLsbD 0 then acknowledge s p [] 8 0 0 0 else s)

/-! ## The depot's commands (06 R188, R189) -/

def daddrLine (s : State) : Nat := bits s.depot.daddr.toNat 43 6
def depotRefuse (s : State) : State := { s with depot := { s.depot with derr := true } }
def dirCode (d : DirState) : Nat :=
  match d with
  | .uncached => 0
  | .shared => 1
  | .owned => 2
  | .derelict => 3

/-- PEEK. -/
def execPeek (keyid : BitVec 8) (s : State) : Out :=
  event (
    let g := daddrLine s
    if hbmSize ≤ 64 * g then depotRefuse s
    else
      let d := dirOf s g
      let m := sectorOf s g
      let raw := vecOfBytes (memRead s.hbm (64 * g) 64)
      let v := if m.key = keyid then raw else Config.wrongKey (64 * g) m.key keyid raw
      let st := if m.derelict then 3 else dirCode d.st
      let held := st = 2 || d.st == .derelict
      let own := if held then d.ownerDev.getD (devnum s) else 0
      let cl := if held && d.ownerDev.isNone then d.clusters.headD 0 else 0
      let stat := st * 2 ^ 62 + b2n (decide (m.key = keyid)) * 2 ^ 61 + b2n m.uncorrectable * 2 ^ 60 + b2n m.poisoned * 2 ^ 59 + own * 2 ^ 32 + cl
      let words := Vector.ofFn (fun (k : Fin 8) => BitVec.ofNat 64 (fieldAt (vecBytes v) (8 * k.val) 8))
      { s with depot := { s.depot with dstat := BitVec.ofNat 64 stat, ddata := if m.uncorrectable then s.depot.ddata else words } })

/-- A line that is not DERELICT refuses its reclaim. -/
def reclaim (s : State) (f : State → Nat → State) : State :=
  let g := daddrLine s
  if !(dirOf s g).st == .derelict && !(sectorOf s g).derelict then depotRefuse s
  else
    let s1 := modSector (modDir s g (fun d => { st := .uncached, waiting := d.waiting })) g (fun m => { m with derelict := false })
    let s2 := f { s1 with depot := { s1.depot with drlCnt := s1.depot.drlCnt - 1 } } g
    releaseWaiting s2 g

/-- RECLAIM.KEEP. -/
def execReclaimKeep (s : State) : Out := event (reclaim s (fun s _ => s))
/-- RECLAIM.DATA. -/
def execReclaimData (keyid : BitVec 8) (s : State) : Out :=
  event (reclaim s (fun s g => writeSector s g keyid (vecOfBytes (s.depot.ddata.toList.flatMap (fun w => leBytes 8 w.toNat)))))

/-! ## Waits of agents (06 R166; 02 R57) -/

/-- MIG_REREAD: 250 ns have passed for an access that waits at an entry with MIG set. -/
def execMigReread (a : Agent) (s : State) : Out :=
  event (match (getAgent s a).migReads with
    | none => s
    | some (_, _, none) => s
    | some (ea, start, some t) =>
      if s.now < t then later s [.migReread a] else modAgent s a (fun x => { x with migReads := some (ea, start, none) }))

/-- The slot that a queue's fetcher has asked for over the bus (02 R68). -/
def slotAnswer (s : State) (slot : Nat) (bs : List Byte) : State :=
  match (getQueue s slot).fetch with
  | .first => later s [.packetFetch slot bs]
  | .reread => later s [.fetchReread slot bs]
  | _ => s

/-- Who reads a piece of a carriage over the bus: its coach, its index, the number of the piece. -/
def pieceAgent (i j piece : Nat) : Agent := .courier (2 ^ 40 + ((4096 * i + j) * 2 ^ 20 + piece))

/-- A piece of a carriage from host memory, or the failure of its source: DRAY_SOURCE (03 R95, R97). -/
def pieceAnswer (s : State) (n : Nat) (bs : Option (List Byte)) : State :=
  let i := n / 2 ^ 32
  let j := n / 2 ^ 20 % 4096
  later s (match bs with
    | some b => if b.isEmpty then [.carriageFetchFail i j 0x14] else [.carriagePiece i j (4096 * (n % 2 ^ 20)) b]
    | none => [.carriageFetchFail i j 0x14])

/-- What a peer read's completion brings to who asked for it. A slot that the bus does not deliver is no valid packet: 64 zero bytes. -/
def peerAnswer (s : State) (a : Agent) (bs : Option (List Byte)) : State :=
  match (getAgent s a).status with
  | .awaitPeer bus n kind va =>
    modAgent s a (fun t => match bs with
      | some b => { t with status := .ready, peerBytes := t.peerBytes ++ [(bus, padTo n b)] }
      | none => { t with status := .ready, replyFault := some (faultInfo 0x0A 0x04 kind va 0) })
  | _ =>
    match a, s.peerReads.find? (fun r => r.1 == a) with
    | .courier c, none =>
      if 2 ^ 40 ≤ c then pieceAnswer s (c - 2 ^ 40) bs
      else if 4096 ≤ c then slotAnswer s (c - 4096) (padTo 64 (bs.getD [])) else s
    | _, some r => { s with peerReads := s.peerReads.erase r, peerData := s.peerData.set r.2.1 bs }
    | _, none => s

/-- PEER_READ_COMPLETION. -/
def execPeerReadCompletion (a : Agent) (ok : Bool) (bytes : List Byte) (s : State) : Out := event (peerAnswer s a (if ok then some bytes else none))
/-- PEER_LOAD_TIMEOUT. -/
def execPeerLoadTimeout (a : Agent) (s : State) : Out := event (peerAnswer s a none)

end Sys2Proof.Machine
end

