-- ==== Sys2Proof/Machine/Power.lean ====
section
/-!
DEFINITION. Gears, park, the drag, the clock mask and timing replays (04 R106-R124).
-/
namespace Sys2Proof.Machine

/-- Work of a tile that waited while its supply was down goes on. -/
def resumeTile (s : State) (tile : Nat) : State :=
  let run := if (getTile s tile).running.isSome then [Instr.kStep tile, .matrixCommandEnd tile] else [.matrixCommandStart tile]
  let dray := (List.range 4).filterMap (fun k => if h : k < 4 then some (Instr.draySegment tile ⟨k, h⟩) else none)
  let streams := (tileStrands s tile).flatMap (fun e => (List.range 8).filterMap (fun k =>
    if h : k < 8 then (if (streamOf e.2 k).bound then some (Instr.streamTransfer e.1 ⟨k, h⟩) else none) else none))
  (List.range 4).foldl (fun s c => wakeCore s (4 * tile + c)) (later s (run ++ dray ++ streams))

/-- GEAR_RAIL_SETTLED: all units continue in the new gear; a change asked for meanwhile begins (04 R109, R110, R113). -/
def execGearRailSettled (tile : Nat) (s : State) : Out :=
  event (match (getTile s tile).changing with
    | none => s
    | some g =>
      let woken := decide ((getTile s tile).gear = .park)
      gearCheck (resumeTile (modTile s tile (fun t =>
        { t with gear := g, changing := none, wakeAsked := t.wakeAsked && !woken, wakeGear := if woken then none else t.wakeGear })) tile) tile)

/-- Whether a tile of the cluster is in GALLOP or changes to it. -/
def clusterGallops (s : State) (c : Nat) : Bool :=
  (numbersFrom (8 * c) 8).any (fun t => decide ((getTile s t).gear = .gallop) || decide ((getTile s t).changing = some .gallop))

/-- L2_RAIL_LOWER: the lines of ways 7 and 15 are written back and leave, the rest is re-encoded (04 R107, 06 R178). -/
def execL2RailLower (cluster : Nat) (s : State) : Out :=
  event (
    let c := getCluster s cluster
    if clusterGallops s cluster || c.railLow then s
    else
      let s1 := (s.l2.filter (fun l => l.cluster == cluster && (l.way == some 7 || l.way == some 15))).foldl evictLine s
      modCluster s1 cluster (fun c => { c with railLow := true, decTed := true }))

/-- L2_RAIL_RISEN. -/
def execL2RailRisen (cluster : Nat) (s : State) : Out :=
  event (if (getCluster s cluster).railLow then s else modCluster s cluster (fun c => { c with decTed := false }))

/-- A context is held: by its fares, or by HOLD of DSPCMD, whose records are HELD (03 R90, R100). -/
def ctxHeld (s : State) (ctx : BitVec 32) : Bool :=
  (getCtx s ctx).held || s.clusters.any (fun c => c.2.slots.any (fun e => e.2.ctx == ctx && e.2.state == 2))

/-- Whether a tile may park: no block, no work, no saved image of a held context, no drag units (04 R112). -/
def mayPark (s : State) (tile : Nat) : Bool :=
  let t := getTile s tile
  (tileStrands s tile).isEmpty && t.changing.isNone && decide (4750 ≤ tolerance s tile) && unitsHeld s tile = 0 && t.queue.isEmpty && t.running.isNone
    && t.dray.toList.all (·.isEmpty) && !t.wakeAsked && (List.range 4).all (fun c => (getCore s (4 * tile + c)).inbox.isEmpty && !(s.couriers.has (4 * tile + c)))
    && !s.runs.any (fun r => ctxHeld s r.2.ctx && r.2.images.any (fun i => i.tile == tile)) && !ostlerTile s tile

/-- PARK: the tile is power-gated as soon as it may. Its cache region's lines are the cluster's (assumption log 6). -/
def execPark (tile : Nat) (s : State) : Out :=
  event (if mayPark s tile then modTile s tile (fun t => { t with gear := .park, parkTick := s.now }) else idleCheck s tile)

/-- The tick at which the wake of a parked tile is ready: it was asked for, and the hold of 4 µs is over (04 R113). -/
def wakeReady (t : Tile) : Nat := max t.wakeTick (t.parkTick + 4000)

/-- Whether another parked tile of the cluster is to be woken before this one: ready earlier, or at the same tick and lower (04 R113). -/
def wakesFirst (s : State) (tile : Nat) : Bool :=
  let r := wakeReady (getTile s tile)
  (numbersFrom (tile / 8 * 8) 8).any (fun u =>
    let t := getTile s u
    t.wakeAsked && t.gear = .park && t.changing.isNone && (decide (wakeReady t < r) || (wakeReady t = r && decide (u < tile))))

/-- WAKE: after the hold of 4 µs, at most one in 50 ns for a cluster, the rail settles to the gear that the work asks for (04 R113). -/
def execWake (tile : Nat) (s : State) : Out :=
  event (
    let t := getTile s tile
    if !(decide (t.gear = .park)) then modTile s tile (fun t => { t with wakeAsked := false, wakeGear := none })
    else if t.changing.isSome || !t.wakeAsked then s
    else if decide (s.now < wakeReady t) || (getCluster s (tile / 8)).lastWake.any (fun w => decide (s.now < w + 50)) || wakesFirst s tile then later s [.wake tile]
    else
      let s1 := modCluster s (tile / 8) (fun c => { c with lastWake := some s.now })
      beginChange (modTile s1 tile (fun t => { t with wakeAsked := false, wakeGear := none })) tile
        (t.wakeGear.getD (if 240 ≤ tolerance s tile then .walk else .gallop)))

/-- LATTOL_WRITE: idle tiles leave states that exceed the tolerance, and may enter lower ones (04 R115). -/
def execLattolWrite (part : Fin 8) (v : Word) (s : State) : Out :=
  event (
    let s1 := { s with host := { s.host with lattol := s.host.lattol.set part.val (BitVec.ofNat 32 v.toNat) } }
    followTolerance s1 ((List.range 1024).filter (fun t => partOfDie s1 (t / 128) = part.val)))

/-! ## The drag (04 R116-R119) -/

/-- INCe of DRAGTBL; 0 counts as 1. -/
def dragLimit (c : Cluster) (u : Nat) : Nat := max 1 (bits c.dragTbl.toNat (4 * (u / 4) + 3) (4 * (u / 4)))

/-- At most `n` units are released, tile by tile in order. -/
def releaseUnits (c : Cluster) (n : Nat) (tiles : List Nat) : Cluster :=
  match tiles with
  | [] => c
  | t :: rest =>
    let held := c.units.get 0 t
    let k := min n held
    let c1 := { c with units := if held = k then c.units.del t else c.units.set t (held - k)
                       finished := if held = k then without c.finished t else c.finished }
    releaseUnits c1 (n - k) rest

/-- At most `n` units are granted, request by request in order; `next` are the requests that stay. -/
def grantUnits (c : Cluster) (n room : Nat) (reqs : List (Nat × Nat × Nat)) : Cluster :=
  match reqs with
  | [] => c
  | (t, st, want) :: rest =>
    let k := min (min n room) want
    let c1 := { c with units := if k = 0 then c.units else c.units.set t (c.units.get 0 t + k)
                       requests := c.requests.filterMap (fun r => if r = (t, st, want) then (if want = k then none else some (t, st, want - k)) else some r) }
    grantUnits c1 (n - k) (room - k) rest

/-- DRAG_STEP: grants go by the units active at the step's start, to requests of earlier steps, by step and then tile. -/
def execDragStep (cluster : Nat) (s : State) : Out :=
  event (
    let c := getCluster s cluster
    let u := (c.units.map (·.2)).sum
    let due := (c.requests.filter (fun r => decide (r.2.1 < c.dragStep))).mergeSort (fun a b => decide (a.2.1 < b.2.1) || (decide (a.2.1 = b.2.1) && decide (a.1 ≤ b.1)))
    let c1 := releaseUnits c 4 c.finished
    let c2 := grantUnits c1 (dragLimit c u) (64 - (c1.units.map (·.2)).sum) due
    let s1 := modCluster s cluster (fun _ => { c2 with dragStep := c.dragStep + 1 })
    let full := ((due.map (·.1)).dedup.filter (fun t => c2.units.get 0 t = 8)).map (fun t => Instr.matrixCommandStart t)
    let empty := c.finished.filter (fun t => c2.units.get 0 t = 0)
    empty.foldl idleCheck (later s1 (full ++ if c2.requests.isEmpty && c2.finished.isEmpty then [] else [.dragStep cluster])))

/-! ## Clock mask and replays (04 R120-R124) -/

/-- CLOCK_MASK_ADJUST: the power of the last 10 µs in W, and whether a junction is at 95 °C. -/
def execClockMaskAdjust (cluster powerW : Nat) (hot : Bool) (s : State) : Out :=
  event (
    let limit := s.host.pwrLimit.toNat
    modCluster s cluster (fun c =>
      let n := if limit < powerW || hot || c.hot then min 24 (c.maskN + 1) else if powerW * 100 < 97 * limit then c.maskN - 1 else c.maskN
      { c with maskN := n, hot := false }))

/-- TIMING_REPLAY: the counter of the tile's gear. -/
def execTimingReplay (tile : Nat) (s : State) : Out :=
  event (
    let g := (getTile s tile).gear
    let phys := physTile s tile
    let (w, gal) := (getDie s (tile / 128)).replays.get (0, 0) phys
    if g = .walk then
      modDie (modTile s tile (fun t => { t with winWalk := t.winWalk + 1 })) (tile / 128) (fun d => { d with replays := d.replays.set phys (w + 1, gal) })
    else if g = .gallop then
      modDie (modTile s tile (fun t => { t with winGallop := t.winGallop + 1 })) (tile / 128) (fun d => { d with replays := d.replays.set phys (w, gal + 1) })
    else s)

/-- HEALTH_WINDOW: a tile whose replays passed their share of the window's cycles has a wear trigger (04 R122, 01 R15). -/
def execHealthWindow (cycles : List (Nat × Nat × Nat)) (s : State) : Out :=
  event (
    let worn := cycles.filter (fun e => decide (e.2.1 < (getTile s e.1).winWalk * 2 ^ 12) || decide (e.2.2 < (getTile s e.1).winGallop * 2 ^ 16))
    let s1 := { s with tiles := s.tiles.map (fun t => (t.1, { t.2 with winWalk := 0, winGallop := 0 })) }
    later s1 (worn.map (fun e => .wearTrigger (.tile (e.1 / 128) (e.1 % 128)))))

end Sys2Proof.Machine
end

