-- ==== Sys2Proof/Machine/Links.lean ====
section
/-!
DEFINITION. Treuc ports: flits and their retry, training, failures and notices, routing banks, packets in transit, and the link
configuration block (01 R17-R40).
-/
namespace Sys2Proof.Machine

/-! ## Flits (01 R19-R24) -/

/-- Fields of a corrected flit: type, class, Seq, AckSeq, HdrOff, payload. -/
structure Flit where
  typ : Nat
  cls : Nat
  seq : Nat
  ack : Nat
  hdrOff : Nat
  payload : List Byte

/-- What the receiver makes of 256 bytes: corrected, then its CRC and header checked; `none` fails (01 R20, R22, R23). -/
def flitOf (raw : List Byte) : Option Flit :=
  let b := fecCorrect (padTo 256 raw)
  let h := fieldAt b 0 8
  let f : Flit := { typ := bits h 63 60, cls := bits h 59 59, seq := bits h 58 47, ack := bits h 46 35, hdrOff := bits h 34 30, payload := (b.drop 8).take 232 }
  if fieldAt b 240 4 = crc32 (b.take 240) && decide (f.typ ≤ 4) && !(f.hdrOff = 29) && !(f.hdrOff = 30) && bits h 29 0 = 0
      && (!(f.typ = 3) || fieldAt f.payload 0 2 = (f.ack + 1) % 4096) then some f
  else none

/-- A flit that a port sends on its own: it is not numbered and not kept. All but TRAIN acknowledge. -/
def plainFlit (s : State) (p typ : Nat) (payload : List Byte) : State :=
  let port := getPort s p
  let seq := if typ = 4 then 0 else port.txSeq
  let ack := if typ = 4 then 0 else port.rxSeq
  { setPort s p (fun x => { x with ackSent := if typ = 4 then x.ackSent else x.rxSeq, ackDue := x.ackDue && decide (typ = 4) }) with
    linkOut := s.linkOut ++ [.flit p (makeFlit (flitHeader typ 0 seq ack 31) payload)] }

/-- A NAK that names the first missing Seq, unless one is out. A retrain holds it: the replay that ends the retrain supplies the flit. -/
def sendNak (s : State) (p : Fin 36) : State :=
  let port := getPort s p.val
  if port.nakOut || !(port.state = 2) || port.retrain then s
  else later (plainFlit (setPort s p.val (fun x => { x with nakOut := true })) p.val 3 (leBytes 2 ((port.rxSeq + 1) % 4096))) [.nakHoldoffExpiry p]

/-- Flits that waited for room in the replay buffer are sent, in order; `fuel` bounds them. -/
def drainQueued (s : State) (p fuel : Nat) : State :=
  match fuel with
  | 0 => s
  | k + 1 =>
    match (getPort s p).queued with
    | [] => s
    | (cls, hdrOff, payload) :: rest =>
      if (getPort s p).kept.length < 2048 then drainQueued (putFlit (setPort s p (fun x => { x with queued := rest })) p cls hdrOff payload) p k
      else s

/-- An AckSeq acknowledges the kept flits up to it, within a window of 2,048; the 1 µs of R22 runs afresh. -/
def takeAck (s : State) (p ack : Nat) : State :=
  let port := getPort s p
  let d := (ack + 4096 - port.acked) % 4096
  let out := (port.txSeq + 4096 - port.acked) % 4096
  if d = 0 || decide (2048 < d) || decide (out < d) then s
  else
    drainQueued (setPort s p (fun x =>
      { x with
        acked := ack
        kept := x.kept.filter (fun e => decide (d < (e.seq + 4096 - x.acked) % 4096))
        ackTick := s.now })) p port.queued.length

/-- Kept flits from a Seq on. -/
def keptFrom (x : Port) (from' : Nat) : List KeptFlit := x.kept.filter (fun e => decide ((e.seq + 4096 - from') % 4096 < 2048))

/-- Every kept flit from a Seq on is sent again, in order, with the port's present AckSeq; a flit that a retrain held goes out for the
first time (01 R17, R22-R24). -/
def replayFrom (s : State) (p from' : Nat) : State :=
  let port := getPort s p
  let fs := keptFrom port from'
  if fs.isEmpty || !(port.state = 2) || port.retrain then s
  else
    { setPort s p (fun x =>
        { x with
          replays := min 0xFFFF (x.replays + 1)
          ackTick := s.now
          ackSent := x.rxSeq
          ackDue := false
          kept := x.kept.map (fun e =>
            if e ∈ fs then { e with since := some (e.since.getD s.now), replays := if e.since.isSome then e.replays + 1 else e.replays } else e) }) with
      linkOut := s.linkOut ++ fs.map (fun e => .flit p (flitBytes port e)) }

/-- What a flit that passes does, or the NAK of one that fails. -/
def withFlit (s : State) (p : Fin 36) (typ : Nat) (raw : List Byte) (f : Flit → State → State) : State :=
  if !((getPort s p.val).state = 2) then s
  else
    match flitOf raw with
    | none => sendNak s p
    | some x => if x.typ = typ then f x (takeAck s p.val x.ack) else s

/-- Whole packets at the front of a buffer; `fuel` bounds them. 01 R20 names no filler: a header of zeros, or fewer than 16 zeros, is read
as padding to the end of the payload, a DESIGN CHOICE (log 41). -/
def takePackets (fuel : Nat) (bs : List Byte) : List Packet × List Byte :=
  match fuel with
  | 0 => ([], bs)
  | k + 1 =>
    if bs.length < 16 then (if bs.all (· == 0) then ([], []) else ([], bs))
    else if (bs.take 16).all (· == 0) then ([], [])
    else
      let n := 16 + fieldAt bs 10 2
      if bs.length < n then ([], bs)
      else
        let (ps, rest) := takePackets k (bs.drop ((n + 7) / 8 * 8))
        (packetOfBytes bs :: ps, rest)

/-- The payload of an accepted DATA flit: the rest of a packet begun before, then packets from HdrOff on. -/
def takePayload (s : State) (p : Fin 36) (f : Flit) : State :=
  let old := (getPort s p.val).rxBuf
  let first := if f.hdrOff = 31 then f.payload.length else 8 * f.hdrOff
  let (ps1, rest1) := takePackets 16 (old ++ f.payload.take first)
  let (ps2, rest2) := if f.hdrOff = 31 then ([], rest1) else takePackets 16 (f.payload.drop first)
  later (setPort s p.val (fun x => { x with rxBuf := rest2 })) ((ps1 ++ ps2).map (fun k => .transitPacket p k))

/-- DATA_FLIT: accepted in order; after a gap it is discarded and the missing flit named. One that came before is acknowledged again. -/
def execDataFlit (p : Fin 36) (raw : List Byte) (s : State) : Out :=
  event (withFlit s p 1 raw (fun f s =>
    let want := ((getPort s p.val).rxSeq + 1) % 4096
    if f.seq = want then
      later (takePayload (setPort s p.val (fun x => { x with rxSeq := want, nakOut := false, ackDue := true })) p f) [.ackTimer p]
    else if (f.seq + 4096 - want) % 4096 < 2048 then sendNak s p
    else later (setPort s p.val (fun x => { x with ackDue := true })) [.ackTimer p]))

/-- IDLE_FLIT. -/
def execIdleFlit (p : Fin 36) (raw : List Byte) (s : State) : Out := event (withFlit s p 0 raw (fun _ s => s))
/-- ACK_FLIT. -/
def execAckFlit (p : Fin 36) (raw : List Byte) (s : State) : Out := event (withFlit s p 2 raw (fun _ s => s))

/-- ACK_TIMER: what has come in and is not acknowledged is acknowledged; with nothing to acknowledge the port's turn is an IDLE flit
(log 41). A retrain holds it. -/
def execAckTimer (p : Fin 36) (s : State) : Out :=
  event (
    let x := getPort s p.val
    if !(x.state = 2) then s
    else if x.retrain then later s [.ackTimer p]
    else plainFlit s p.val (if x.ackDue then 2 else 0) [])

/-- NAK_HOLDOFF_EXPIRY. -/
def execNakHoldoffExpiry (p : Fin 36) (s : State) : Out := event (setPort s p.val (fun x => { x with nakOut := false }))

/-! ## Routes that change (01 R27, R30, R35) -/

/-- Destinations that the active bank lists. -/
def listedDests (s : State) : List Nat :=
  ((if s.link.active then s.link.bank1 else s.link.bank0).map (·.1)).filter (fun d => !(d = devnum s) && hasRoute s d)

/-- Class-O packets to a destination that have left and are not yet acknowledged, this device's own and those in transit. -/
def classOOut (s : State) (dest : Nat) : Bool :=
  s.requests.any (fun r => r.2.dev = dest && r.2.classO && r.2.port.isSome) || s.link.transit.any (fun x => x.dest = dest)

/-- A change of ports or of the bank: where the class-O port of a destination changes while packets are out, a hold opens. -/
def changeRoutes (s : State) (f : State → State) : State :=
  let dests := (listedDests s ++ listedDests (f s)).dedup
  let s1 := f s
  let hold := dests.filter (fun d => !(classOPort s d == classOPort s1 d) && (classOPort s d).isSome && classOOut s d && !(decide (d ∈ s1.link.holds)))
  later { s1 with link := { s1.link with holds := s1.link.holds ++ hold } } (hold.map (fun d => .classOHoldEnd d))

/-- A rejected packet's reply, if it requires one: the request word of a packet that has one comes back with it (06 R183). -/
def reject (s : State) (p : Packet) (status : Nat) : State :=
  if p.flags.getLsbD 0 then acknowledge s p (if hasRequestWord p.opcode.toNat then p.body.take 16 else []) status 0 0 0 else s

/-- A held packet leaves by the routing entry that it was looked up by at its ingress (01 R27). -/
def sendHeld (s : State) (x : Nat × Packet) : State :=
  match entryPort s x.1 with
  | some p => sendFrom s p x.2
  | none => if x.2.src.toNat % 8192 = devnum s then s else reject s x.2 6

/-- Transit packets that have been out for 100 µs are no longer awaited: their requester's access has completed by then (06 R191). -/
def dropOldTransit (s : State) : State :=
  { s with link := { s.link with transit := s.link.transit.filter (fun x => decide (s.now < x.since + 100000)) } }

/-- CLASS_O_HOLD_END: the held packets leave in order when nothing that left before them is out. Where their entries name different ports,
those of the first port go, and the hold stays open for the others; it ends with the port that the destination has now (01 R27, R30). -/
def execClassOHoldEnd (dest : Nat) (s : State) : Out :=
  event (
    let s := dropOldTransit s
    if !(decide (dest ∈ s.link.holds)) then s
    else if classOOut s dest then later s [.classOHoldEnd dest]
    else
      let mine := s.link.heldPackets.filter (fun p => p.2.dest.toNat % 8192 = dest)
      let port := (mine.head?.map (fun p => entryPort s p.1)).getD (classOPort s dest)
      let go := mine.takeWhile (fun p => entryPort s p.1 == port)
      let ended := go.length == mine.length && port == classOPort s dest
      let s1 := { s with link := { s.link with
        holds := if ended then without s.link.holds dest else s.link.holds
        heldPackets := s.link.heldPackets.filter (fun p => !(p.2.dest.toNat % 8192 = dest)) ++ mine.drop go.length } }
      let s2 := go.foldl sendHeld s1
      if ended then s2 else later s2 [.classOHoldEnd dest])

/-! ## Failures and notices (01 R34-R37) -/

/-- A port is declared failed: GEN rises, traffic stops, devices without a route are gone, accesses in flight through the port complete
with REMOTE_GONE, a LINK record and a notice follow. -/
def failPort (s : State) (p : Fin 36) (cause : Nat) : State :=
  let routed := listedDests s
  let s1 := changeRoutes s (fun s => setPort s p.val (fun x =>
    { x with
      state := 3
      cause := BitVec.ofNat 8 cause
      gen := x.gen + 1
      kept := []
      queued := []
      rxBuf := []
      nakOut := false
      ackDue := false
      retrain := false
      step := 0 }))
  let s2 := goneByLink { s1 with link := { s1.link with transit := s1.link.transit.filter (fun x => !(x.port = p.val)) } } routed
  let s3 := (s2.requests.filter (fun r => r.2.port == some p.val)).foldl (fun s r => answered s r.1 r.2 { code := 0x0A, sub := 1 }) s2
  let s4 := logRecord s3 { cls := .link, code := cause, source := portSource p.val }
  let live := ((List.range 36).filter (portUp s4)).length
  let time := time1588 s s.now
  let n : Notice := { t0 := s.now, port := p.val, cause := BitVec.ofNat 8 cause, gen := (getPort s4 p.val).gen, live := live, sec := time.1, ns := time.2 }
  later { s4 with link := { s4.link with notices := s4.link.notices ++ [n] } } [.noticeRecord p]

/-- The 32 bytes of a notice with its sequence number. -/
def noticeBytes (s : State) (n : Notice) (seq : BitVec 32) : List Byte :=
  leBytes 8 n.t0 ++ leBytes 2 (devnum s) ++ [BitVec.ofNat 8 n.port, n.cause] ++ leBytes 2 n.gen.toNat ++ [0, 0] ++ leBytes 4 seq.toNat
    ++ leBytes 4 n.live ++ leBytes 6 n.sec ++ leBytes 2 (n.ns / 2 ^ 14)

/-- A notice goes to an address: host memory, a device of the domain, or, unsent, a LINK record (01 R37); `none` when the depot is busy
and the write must be tried again. An address whose DEV is this device is written here, without a key: DESIGN CHOICE (log 43). -/
def writeNotice (s : State) (addr : Word) (bs : List Byte) (port cause : Nat) : State × Bool :=
  let a := addr.toNat
  let unsent := (logRecord s { cls := .link, code := cause, sub := 1, source := portSource port }, true)
  if a = 0 then (s, true)
  else if !a.testBit 63 then (if a % 32 = 0 then ({ s with busOut := s.busOut ++ [.write addr bs] }, true) else unsent)
  else if !(bits a 62 61 = 0) || !(bits a 47 44 = 0) || !(bits a 4 0 = 0) then unsent
  else
    let dev := bits a 60 48
    let pa := bits a 43 0
    if dev = devnum s then
      if hbmSize ≤ pa then unsent
      else
        match depotWrite s (pa / 64) 0 (granuleImage (pa % 64) bs) (maskAt (pa % 64) 32) 0 with
        | .ok _ s1 => (s1, true)
        | .bad _ _ s1 => (logRecord s1 { cls := .link, code := cause, sub := 1, source := portSource port }, true)
        | .busy s1 => (s1, false)
    else
      match mgmtKey s with
      | none => unsent
      | some key =>
        if !hasRoute s dev then unsent
        else
          let tag := s.nextTag
          let r : Request := { dev := dev, agent := none, kind := .notice, addr := addr, ctx := 0, classO := true, since := s.now }
          let s1 := later { s with requests := s.requests.set tag r, nextTag := tag % 0xFFFFFFFF + 1 } [.requestTimeout tag]
          (sendPacket s1 { newPacket s1 dev 0 0x0F true tag (leBytes 8 pa ++ bs) with key := BitVec.ofNat 16 key }, true)

/-- The addresses that a notice has still to be written to: those whose depot was busy remain. -/
def writeNoticeTo (n : Notice) (bs : List Byte) (acc : State × List Word) (addr : Word) : State × List Word :=
  let r := writeNotice acc.1 addr bs n.port n.cause.toNat
  (r.1, if r.2 then acc.2 else acc.2 ++ [addr])

/-- NOTICE_RECORD: once the tick of the failure is over, the notice takes its sequence number and goes to both addresses; the notices of
earlier failures, and of failures at one tick those of lower ports, go first (01 R35). -/
def execNoticeRecord (p : Fin 36) (s : State) : Out :=
  event (match s.link.notices.find? (fun n => n.port = p.val) with
    | none => s
    | some n =>
      if decide (s.now ≤ n.t0) || s.link.notices.any (fun m => (m.t0 = n.t0 && decide (m.port < n.port)) || (m.todo.isNone && decide (m.t0 < n.t0))) then
        later s [.noticeRecord p]
      else
        let fresh := n.todo.isNone
        let (seq, addrs) := n.todo.getD (s.link.noticeSeq, [s.link.noticeA, s.link.noticeB])
        let r := addrs.foldl (writeNoticeTo n (noticeBytes s n seq)) (s, [])
        let rest := if r.2.isEmpty then r.1.link.notices.erase n else r.1.link.notices.map (fun m => if m = n then { n with todo := some (seq, r.2) } else m)
        let s1 := { r.1 with link := { r.1.link with noticeSeq := if fresh then seq + 1 else r.1.link.noticeSeq, notices := rest } }
        if r.2.isEmpty then s1 else later s1 [.noticeRecord p])

/-- A replay, or the failure of a port that would have to replay a flit for the ninth time (01 R24). -/
def replayOrFail (s : State) (p : Fin 36) (from' : Nat) : State :=
  let x := getPort s p.val
  if x.state = 2 && !x.retrain && (keptFrom x from').any (fun e => decide (8 ≤ e.replays)) then failPort s p 1 else replayFrom s p.val from'

/-- NAK_FLIT. -/
def execNakFlit (p : Fin 36) (raw : List Byte) (s : State) : Out :=
  event (withFlit s p 3 raw (fun f s => replayOrFail s p (fieldAt f.payload 0 2 % 4096)))

/-- REPLAY_TIMEOUT: 1 µs without an acknowledgement. -/
def execReplayTimeout (p : Fin 36) (s : State) : Out :=
  event (
    let x := getPort s p.val
    if !(x.state = 2) || x.kept.isEmpty then s
    else if decide (s.now < x.ackTick + 1000) || x.retrain then later s [.replayTimeout p]
    else later (replayOrFail s p ((x.acked + 1) % 4096)) [.replayTimeout p])

/-- Whether a port carries traffic or trains. -/
def portActive (s : State) (p : Nat) : Bool := (getPort s p).state = 1 || (getPort s p).state = 2

/-- A flit of the port was first sent at least `n` ticks ago and is not accepted. -/
def heldFor (s : State) (p n : Nat) : Bool := (getPort s p).kept.any (fun e => e.since.any (fun t => decide (t + n ≤ s.now)))

/-- LINK_RETRY_BOUND: a flit has not been accepted within 13 µs of its first transmission. -/
def execLinkRetryBound (p : Fin 36) (s : State) : Out :=
  event (
    let x := getPort s p.val
    if !(x.state = 2) || x.kept.isEmpty then s
    else if heldFor s p.val 13000 then failPort s p 1
    else later s [.linkRetryBound p])

/-- TRAINING_TIMEOUT: 100 µs after training started. -/
def execTrainingTimeout (p : Fin 36) (s : State) : Out :=
  event (
    let x := getPort s p.val
    if !(x.state = 1) then s
    else if x.t0 + 100000 ≤ s.now then failPort s p 3
    else later s [.trainingTimeout p])

/-- PARTNER_RESET. -/
def execPartnerReset (p : Fin 36) (s : State) : Out := event (if portActive s p.val then failPort s p 4 else s)

/-! ## Training (01 R17, R39) -/

/-- A TRAIN flit with the port's record. -/
def sendTrain (s : State) (p : Nat) : State :=
  let x := getPort s p
  plainFlit s p 4 ([BitVec.ofNat 8 x.step, BitVec.ofNat 8 p] ++ leBytes 2 (devnum s) ++ leBytes 2 s.ostler.epoch.toNat ++ leBytes 2 x.myLanes.toNat ++ leBytes 2 x.gen.toNat)

/-- Training starts from DOWN or FAILED. -/
def startTraining (s : State) (p : Nat) : State :=
  later (sendTrain (setPort s p (fun x => { x with state := 1, step := 1, retrain := false, myLanes := 0, lanes := 0, t0 := s.now })) p)
    [.trainingTimeout (portNumber p)]

/-- A retrain runs LOCK and MAP over the lanes in use and the spare, but for the lane to be replaced; the port keeps its flits. The port
fails instead if a held flit has been out for more than 8 µs, or has had its one retrain (01 R24). -/
def startRetrain (s : State) (p : Fin 36) (worn : Option Nat) : State :=
  let x := getPort s p.val
  if heldFor s p.val 8001 || x.kept.any (fun e => e.retrained) then failPort s p 1
  else
    let offered := (x.lanes ||| 0x100) &&& ~~~(match worn with
      | some l => BitVec.ofNat 16 (2 ^ l)
      | none => 0)
    sendTrain (setPort s p.val (fun x =>
      { x with
        retrain := true
        step := 1
        myLanes := offered
        t0 := s.now
        kept := x.kept.map (fun e => { e with retrained := e.since.isSome }) })) p.val

/-- The eight lowest lanes that both ends offer. -/
def commonLanes (a b : Nat) : List Nat := ((List.range 9).filter (fun l => a.testBit l && b.testBit l)).take 8

def laneMask (ls : List Nat) : BitVec 16 := BitVec.ofNat 16 ((ls.map (2 ^ ·)).sum)

/-- A port comes UP: sequence numbers afresh, an empty replay buffer; generations that a kill fence waits for go first (03 R102). -/
def portUpNow (s : State) (p : Nat) : State :=
  let s1 := changeRoutes s (fun s => setPort s p (fun x =>
    { x with
      state := 2
      step := 0
      txSeq := 4095
      acked := 4095
      kept := []
      queued := []
      rxSeq := 4095
      nakOut := false
      ackSent := 4095
      ackDue := false
      rxBuf := [] }))
  (s1.contexts.filter (fun c => c.2.killing)).foldl (fun s c =>
    sendGenerations s (BitVec.ofNat 32 c.1) (c.2.killAcks.filter (fun d => classOPort s d == some p && !(decide (d ∈ s.ostler.gone))))) s1

/-- The spare lane has come into use. -/
def spareRecord (s : State) (p : Nat) : State :=
  logRecord (logRecord s { cls := .spare, sub := 4, source := portSource p }) { cls := .spare, sub := 8, source := portSource p }

/-- A partner's record at step MAP, IDENT or READY moves the port on. -/
def trainWith (s : State) (p : Fin 36) (r : List Byte) : State :=
  let their := fieldAt r 0 1
  let map := fun (s : State) =>
    let x := getPort s p.val
    if x.step = 2 ∧ 2 ≤ their then
      let ls := commonLanes x.myLanes.toNat (fieldAt r 6 2)
      let spare := ls.contains 8
      if ls.length < 8 then failPort s p 2
      else
        let s1 := setPort s p.val (fun x => { x with lanes := laneMask ls, spare := spare })
        let s2 := if spare && !x.spare then spareRecord s1 p.val else s1
        if x.retrain then replayFrom (setPort s2 p.val (fun x => { x with retrain := false, step := 0 })) p.val ((x.acked + 1) % 4096)
        else sendTrain (setPort s2 p.val (fun x => { x with step := 3 })) p.val
    else s
  let ident := fun (s : State) =>
    if (getPort s p.val).step = 3 ∧ 3 ≤ their then
      sendTrain (setPort s p.val (fun x =>
        { x with
          step := 4
          partnerDev := BitVec.ofNat 16 (fieldAt r 2 2)
          partnerEpoch := BitVec.ofNat 16 (fieldAt r 4 2) })) p.val
    else s
  let ready := fun (s : State) => if (getPort s p.val).step = 4 ∧ their = 4 then portUpNow s p.val else s
  ready (ident (map s))

/-- TRAIN_FLIT: the partner's training starts a port that is DOWN or FAILED; its step LOCK at a port that is UP is a retrain, which the
port joins. -/
def execTrainFlit (p : Fin 36) (raw : List Byte) (s : State) : Out :=
  event (match flitOf raw with
    | none => s
    | some f =>
      let x := getPort s p.val
      if !(f.typ = 4) || x.disable then s
      else if x.state = 0 ∨ x.state = 3 then startTraining s p.val
      else if x.state = 1 ∨ x.retrain then trainWith s p f.payload
      else if fieldAt f.payload 0 1 = 1 then startRetrain s p none
      else s)

/-- LOCK_ACQUIRED: at least eight lanes are locked; the port moves from LOCK to MAP. -/
def execLockAcquired (p : Fin 36) (lanes : BitVec 16) (s : State) : Out :=
  event (
    let x := getPort s p.val
    let ls := lanes &&& 0x1FF &&& (if x.retrain then x.myLanes else 0x1FF)
    if !(x.step = 1) || !(x.state = 1 || x.retrain) || decide (((List.range 9).filter (fun l => ls.getLsbD l)).length < 8) then s
    else sendTrain (setPort s p.val (fun x => { x with step := 2, myLanes := ls })) p.val)

/-- A lane of the retrain in progress is lost: the retrain begins again over the others, and the port fails if fewer than eight are left. -/
def retrainWithout (s : State) (p : Fin 36) (lane : Nat) : State :=
  let x := getPort s p.val
  let left := x.myLanes &&& ~~~(BitVec.ofNat 16 (2 ^ lane))
  if !(x.myLanes.getLsbD lane) then s
  else if ((List.range 9).filter (fun l => left.getLsbD l)).length < 8 then failPort s p 2
  else sendTrain (setPort s p.val (fun x => { x with step := 1, myLanes := left })) p.val

/-- LOSS_OF_LOCK: the lane is replaced at once; with the spare in use the port fails. -/
def execLossOfLock (p : Fin 36) (lane : Nat) (s : State) : Out :=
  event (
    let x := getPort s p.val
    if !(x.state = 2) then s
    else if x.spare then failPort s p 2
    else if x.retrain then retrainWithout s p lane
    else startRetrain s p (some lane))

/-- WEARING_LANE_REPLACE: once every partition is idle and the port carries traffic; a lane no longer in use needs no replacement. -/
def execWearingLaneReplace (p : Fin 36) (lane : Nat) (s : State) : Out :=
  event (
    let x := getPort s p.val
    if !(x.state = 2) || x.retrain then later s [.wearingLaneReplace p lane]
    else if x.spare || !(x.lanes.getLsbD lane) then s
    else if (List.range (partCount s)).all (partIdle s) then startRetrain s p (some lane)
    else later s [.wearingLaneReplace p lane])

/-! ## PORTCTL (01 R40) -/

def portDisable (s : State) (p : Fin 36) : State :=
  let s1 := if portActive s p.val then failPort s p 5 else s
  setPort s1 p.val (fun x => { x with disable := true, state := 0 })

def portTrain (s : State) (p : Fin 36) : State :=
  let x := getPort s p.val
  if (x.state = 0 || x.state = 3) && !x.disable then startTraining s p.val else s

def portReset (s : State) (p : Fin 36) : State :=
  let s1 := if portActive s p.val then failPort s p 5 else setPort s p.val (fun x => { x with gen := x.gen + 1 })
  setPort s1 p.val (fun x => { x with state := 0, keyRej := 0, replays := 0 })

/-- PORT_DISABLE. -/
def execPortDisable (p : Fin 36) (s : State) : Out := event (portDisable s p)
/-- PORT_TRAIN. -/
def execPortTrain (p : Fin 36) (s : State) : Out := event (portTrain s p)
/-- PORT_RESET. -/
def execPortReset (p : Fin 36) (s : State) : Out := event (portReset s p)

/-! ## Banks and the rest of the block (01 R25-R32, R37) -/

/-- SWREQ: a switch is pending from now on, or refused while BUSY. -/
def switchRequest (s : State) : State :=
  if routeBusy s then { s with link := { s.link with swErr := true } } else later { s with link := { s.link with pending := true } } [.bankSwitch]

def execSwreq (s : State) : Out := event (switchRequest s)

/-- BANK_SWITCH, at SWTIME or at the next tick. -/
def execBankSwitch (s : State) : Out :=
  event (
    if !s.link.pending then s
    else if s.link.swTime.toNat ≤ s.now then changeRoutes s (fun s => { s with link := { s.link with active := !s.link.active, pending := false } })
    else later s [.bankSwitch])

def awRefuse (s : State) : State := { s with link := { s.link with awErr := true } }

/-- A write of a routing or key entry: into the inactive bank while no switch is pending. -/
def bankWrite (s : State) (off : Nat) (v : Word) : State :=
  let second := if off < 0x140000 then decide (0x130000 ≤ off) else decide (0x140040 ≤ off)
  if s.link.pending || second == s.link.active || off % 8 != 0 then awRefuse s
  else
    let route : Word := v &&& 0xFE0000_0FFFFFFFFF
    let key : Word := v &&& 0xC00000000000FFFF
    let i := if off < 0x140000 then (off - 0x120000) % 0x10000 / 8 else (off - 0x140000) % 0x40 / 8
    { s with link :=
      if off < 0x130000 then { s.link with bank0 := s.link.bank0.set i route }
      else if off < 0x140000 then { s.link with bank1 := s.link.bank1.set i route }
      else if off < 0x140040 then { s.link with keys0 := s.link.keys0.set i key }
      else { s.link with keys1 := s.link.keys1.set i key } }

/-- ROUTING_BANK_WRITE. -/
def execRoutingBankWrite (off : Nat) (v : Word) (s : State) : Out :=
  event (if 0x120000 ≤ off ∧ off < 0x140080 then bankWrite s off v else s)

def devnumWrite (s : State) (v : Word) : State :=
  if (List.range 36).any (portUp s) then awRefuse s else { s with link := { s.link with devnum := BitVec.ofNat 13 v.toNat } }

/-- DEVNUM_WRITE. -/
def execDevnumWrite (v : Word) (s : State) : Out := event (devnumWrite s v)

/-- An 8-byte write of the link configuration block, whoever makes it (01 R31, R32, R38, R40). -/
def linkWrite (s : State) (off : Nat) (v : Word) : State :=
  let w := v.toNat
  if off = 0x100000 then
    let s1 := { s with link := { s.link with awErr := s.link.awErr && !w.testBit 3, swErr := s.link.swErr && !w.testBit 2 } }
    if w.testBit 4 then switchRequest s1 else s1
  else if off = 0x100008 then { s with link := { s.link with swTime := v } }
  else if off = 0x100010 then devnumWrite s v
  else if off = 0x100018 then { s with link := { s.link with noticeA := v } }
  else if off = 0x100020 then { s with link := { s.link with noticeB := v } }
  else if 0x101200 ≤ off ∧ off < 0x101200 + 8 * 36 then
    let p := portOf off 0x101200
    let s1 := if w.testBit 2 then portDisable s p else setPort s p.val (fun x => { x with disable := false })
    let s2 := if w.testBit 0 then portReset s1 p else s1
    if w.testBit 1 then portTrain s2 p else s2
  else if 0x120000 ≤ off ∧ off < 0x140080 then bankWrite s off v
  else s

/-! ## Packets that arrive (01 R27, R28, R38) -/

/-- The step that a packet for this device is. -/
def packetArrives (p : Packet) : Instr :=
  let op := p.opcode.toNat
  let b := p.body
  if op = 0x01 then .rd p
  else if op = 0x02 then .rdx p
  else if op = 0x03 then .wr p
  else if op = 0x04 then .amoPacket p
  else if op = 0x05 then .wb p
  else if op = 0x06 then .snp p
  else if op = 0x07 then .snprsp p
  else if op = 0x08 then .dataPacket p
  else if op = 0x09 then .ackPacket p
  else if op = 0x0A then .inv p
  else if op = 0x0B then .trinvPacket p
  else if op = 0x0C then .gen p
  else if op = 0x0D then .charge p
  else if op = 0x0E then .mgmt p
  else if op = 0x0F then .notice p
  else if op = 0x10 then .sendPacket p
  else if op = 0x11 then .courierPacket p
  else if op = 0x12 then .msendPacket p
  else if op = 0x13 then .draywr p
  else if op = 0x14 then .killPacket p
  else if op = 0x15 then
    .reply { mailbox := BitVec.ofNat 64 (fieldAt b 0 8), seq := BitVec.ofNat 32 (fieldAt b 8 4), disp := BitVec.ofNat 8 (fieldAt b 12 1),
             poster := BitVec.ofNat 16 (fieldAt b 14 2), posterFlags := BitVec.ofNat 8 (fieldAt b 16 1), value := BitVec.ofNat 64 (fieldAt b 24 8), from? := some p }
  else .reservedOpcode p

/-- A reply that passes through ends what its request had out (01 R30). -/
def transitEnded (s : State) (p : Packet) : State :=
  if p.opcode = 0x07 || p.opcode = 0x08 || p.opcode = 0x09 then
    { s with link := { s.link with
        transit := s.link.transit.filter (fun x => !(x.src = p.dest.toNat % 8192 && x.dest = p.src.toNat % 8192 && x.tag == p.tag)) } }
  else s

/-- TRANSIT_PACKET: its key is checked; then it is this device's, or leaves by one lookup, or has no route. -/
def execTransitPacket (port : Fin 36) (p : Packet) (s : State) : Out :=
  event (
    let dest := p.dest.toNat % 8192
    if !keyAccepted s p.key.toNat then reject (setPort s port.val (fun x => { x with keyRej := min 0xFFFF (x.keyRej + 1) })) p 7
    else if dest = devnum s then soon s [packetArrives p]
    else if (if classU p.opcode.toNat then !(entryRoutes (routeEntry s dest)) || (livePorts s (routeEntry s dest)).isEmpty else !hasRoute s dest) then reject s p 6
    else sendPacket (transitEnded s p) p)

/-- MGMT: writes of the link configuration block, in order; refused whole by key or form. Nonzero bytes 2-7 are refused as malformed:
DESIGN CHOICE (log 44). -/
def execMgmt (p : Packet) (s : State) : Out :=
  event (
    let n := fieldAt p.body 0 2
    let ws := (List.range n).map (fun i => (fieldAt p.body (8 + 16 * i) 8, (BitVec.ofNat 64 (fieldAt p.body (16 + 16 * i) 8) : Word)))
    if !keyManages s p.key.toNat then acknowledge s p [] 9 0 0x04 0
    else if n = 0 || decide (16 < n) || !(p.length.toNat = 8 + 16 * n) || !zeroAt p.body 2 6
        || ws.any (fun w => decide (w.1 < 0x100000) || decide (0x150000 ≤ w.1) || !(w.1 % 8 = 0)) then acknowledge s p [] 9 0 0x01 0
    else acknowledge (ws.foldl (fun s w => linkWrite s w.1 w.2) s) p [] 0 0 0 0)

/-! ## Registers without a step of their own (00 R8, R9) -/

/-- Bits `hi` down to `lo` of a written word. -/
def keep (v : Word) (hi lo : Nat) : Word := BitVec.ofNat 64 (bits v.toNat hi lo * 2 ^ lo)

/-- A plain register of the control window (02 R55-R60, R72; 04 R114; 01 R51). A write of MGMTOFF that is no multiple of 64 stores the
multiple of 64 below it: 01 R51 does not say, a DESIGN CHOICE (log 51). -/
def controlStore (s : State) (off : Nat) (v : Word) : State :=
  let h := s.host
  if off = 0x20 then { s with host := { h with qhBase := v } }
  else if 0x40 ≤ off ∧ off < 0x80 then { s with host := { h with qStage := h.qStage.mapIdx (fun i w => if i = (off - 0x40) / 8 then v else w) } }
  else if off = 0x80 then
    (if h.qctlBusy && !(bits v.toNat 63 60 = 0) then { s with host := { h with qctlResult := 6 } }
     else
      { s with
        host := { h with
          qctlQnum := BitVec.ofNat 12 (bits v.toNat 43 32)
          qctlPasid := BitVec.ofNat 20 (bits v.toNat 31 12)
          qctlResult := if bits v.toNat 63 60 = 0 then h.qctlResult else 5 } })
  else if off = 0xB8 then { s with host := { h with errTail := BitVec.ofNat 32 v.toNat } }
  else if off = 0xC0 then { s with host := { h with ctxBase := v } }
  else if off = 0x108 then
    (if bits v.toNat 63 60 = 0 || s.mgmt.busy then s else { s with mgmt := { s.mgmt with result := 4 } })
  else if off = 0x110 then { s with mgmt := { s.mgmt with offset := keep v 63 6 } }
  else if 0x1000 ≤ off ∧ off < 0x9000 then
    let k := (off - 0x1000) / 16
    let e := h.apertures.get (0, 0) k
    { s with host := { h with apertures := h.apertures.set k (if off % 16 = 0 then (keep v 63 63 ||| keep v 56 30, e.2) else (e.1, keep v 15 0)) } }
  else if 0x9000 ≤ off ∧ off < 0x9100 then
    let k := (off - 0x9000) / 16
    let e := h.peers.get (0, 0) k
    { s with host := { h with peers := h.peers.set k (if off % 16 = 0 then (keep v 63 63 ||| keep v 56 16 ||| keep v 15 0, e.2) else (e.1, keep v 63 16)) } }
  else if 0x100000 ≤ off ∧ off < 0x150000 then linkWrite s off v
  else if off = 0x200080 then { s with host := { h with pwrLimit := BitVec.ofNat 16 (max 1000 (min 3600 (bits v.toNat 15 0))) } }
  else if off = 0x200108 then { s with host := { h with fselAcct := BitVec.ofNat 32 (bits v.toNat 63 32) } }
  else if 0x400000 ≤ off ∧ off < 0x800000 then { s with mgmt := { s.mgmt with staging := memWrite s.mgmt.staging (off - 0x400000) (leBytes 8 v.toNat) } }
  else s

/-- DSPCMD (03 R90): a command while BUSY is refused; the others are steps of their own. -/
def dspCommand (s : State) (v : Word) : State :=
  let c := bits v.toNat 63 60
  let arg : BitVec 32 := BitVec.ofNat 32 v.toNat
  if c = 0 then s
  else if dspBusy s then dspRefuse s
  else if c = 1 then soon s [.cut arg]
  else if c = 2 then soon { s with free := s.free + 1 } [.dispatchResume (Config.freePick s.free)]
  else if c = 3 then soon { s with ostler := { s.ostler with dspKill := some arg } } [.kill arg]
  else if c = 4 then soon s [.hold arg]
  else if c = 5 then soon s [.release arg]
  else dspRefuse s

/-- A plain register of the ostler control window (03 R90, 04 R119, 06 R167, 09 R238). -/
def ostlerStore (s : State) (off : Nat) (v : Word) : State :=
  let o := s.ostler
  if off = 0x100000 then dspCommand s v
  else if off = 0x100008 then { s with ostler := { o with dspRun := BitVec.ofNat 32 (bits v.toNat 63 32), dspErr := o.dspErr && !v.getLsbD 2 } }
  else if 0x130000 ≤ off ∧ off < 0x130400 then
    let inc := (List.range 16).map (fun e => (max 1 (bits v.toNat (4 * e + 3) (4 * e))) * 2 ^ (4 * e))
    modCluster s ((off - 0x130000) / 8) (fun c => { c with dragTbl := BitVec.ofNat 64 inc.sum })
  else if 0x138000 ≤ off ∧ off < 0x138400 then modCluster s ((off - 0x138000) / 8) (fun c => clearTree c s.now (BitVec.ofNat 11 v.toNat))
  else if off = 0x150000 then { s with ostler := { o with trBase := keep v 43 21 } }
  else if off = 0x150008 then { s with ostler := { o with dtVa := keep v 63 63 ||| keep v 56 30 } }
  else if off = 0x150010 then { s with ostler := { o with dtPa := keep v 43 30 } }
  else if off = 0x150018 then { s with ostler := { o with trVa := keep v 56 16 } }
  else if off = 0x150020 then { s with ostler := { o with trLen := BitVec.ofNat 32 v.toNat } }
  else if off = 0x150028 then
    (if trinvBusy s then trinvRefuse s
     else if !(bits v.toNat 63 60 = 0) then trinvRefuse (trinvStore s v)
     else trinvStore s v)
  else s

/-- A plain register of the depot control window (06 R188). A store of DCMD whose CMD is not 1 to 3, 0 included, sets ERR. -/
def depotStore (s : State) (off : Nat) (v : Word) : State :=
  let d := s.depot
  if off = 0 then { s with depot := { d with dtmo := BitVec.ofNat 16 (max 1 (min 1000 (bits v.toNat 15 0))) } }
  else if off = 0x10 then { s with depot := { d with daddr := keep v 43 6 } }
  else if off = 0x18 then depotRefuse s
  else if 0x40 ≤ off ∧ off < 0x80 then { s with depot := { d with ddata := d.ddata.mapIdx (fun i w => if i = (off - 0x40) / 8 then v else w) } }
  else s

/-- REGISTER_WRITE: the register's writable fields are stored; a write that is a step of its own becomes that step. -/
def execRegisterWrite (window : RegWindow) (off : Nat) (v : Word) (s : State) : Out :=
  event (match window with
    | .control =>
      (match controlEvents off v with
        | some evs => if 0x100000 ≤ off ∧ off < 0x150000 then linkWrite s off v else soon s evs
        | none => controlStore s off v)
    | .ostler =>
      (match ostlerEvents off v with
        | [.registerWrite _ _ _] => ostlerStore s off v
        | evs => soon s evs)
    | .depot =>
      (match depotEvents off v with
        | [.registerWrite _ _ _] => depotStore s off v
        | evs => soon (clearDepotErr s off v) evs))

end Sys2Proof.Machine
end

