-- ==== Sys2Proof/Machine/Boot.lean ====
section
/-!
DEFINITION. The management controller: time, heat, spares, boot, images, attestation and hot patches (01 R14-R18, R43, R49-R53;
03 R79, R80, R103-R105).
-/
namespace Sys2Proof.Machine

/-- The management controller's state changed. -/
def modMgmt (s : State) (f : Management → Management) : State := { s with mgmt := f s.mgmt }

/-- A record of class SECURITY. -/
def securityRecord (s : State) (sub : Nat) : State := logRecord s { cls := .security, sub := sub, source := mgmtSource }

/-! ## Time (01 R43) -/

/-- PPS_EDGE: a new sample pair; no 1588 time given from now on is earlier than the one that the old pair gives here (log 32). -/
def execPpsEdge (s : State) : Out :=
  event (modMgmt s (fun m =>
    { m with
      todSeconds := m.todSeconds + 1
      sampleTick := s.now
      sampleSeconds := m.todSeconds
      sampleFloor := time1588 s s.now }))

/-- TIME_OF_DAY_MESSAGE: its seconds are read as the second that the next PPS edge begins; 01 R43 does not say which second a message names,
a DESIGN CHOICE (log 32). -/
def execTimeOfDayMessage (seconds : Nat) (s : State) : Out := event (modMgmt s (fun m => { m with todSeconds := seconds }))

/-! ## Heat (01 R14) -/

/-- JUNCTION_THROTTLE: every cluster's next adjustment of its mask removes a pulse more. -/
def execJunctionThrottle (source : Nat) (s : State) : Out :=
  event (logRecord ((List.range 128).foldl (fun s c => modCluster s c (fun k => { k with hot := true })) s) { cls := .thermal, sub := 1, source := source })

/-- JUNCTION_SHUTDOWN. -/
def execJunctionShutdown (source : Nat) (s : State) : Out :=
  event (logRecord ((List.range (partCount s)).foldl (fun s p => resetPartition s p []) s) { cls := .thermal, sub := 2, source := source })

/-! ## Spares (01 R15, R16) -/

/-- The partition that owns what is worn; a lane belongs to the package. -/
def wearOwner (s : State) (w : Wear) : Option Nat :=
  match w with
  | .tile die _ => some (partOfDie s die)
  | .row stack _ _ _ => some (partOfDie s (stack / 2))
  | .channel stack _ => some (partOfDie s (stack / 2))
  | .lane _ _ => none
  | .feltColumn array _ => some (array / arraysPerPart s)

/-- Whether the swap may be made: the owning partition is idle (for a lane, every partition). -/
def swapReady (s : State) (w : Wear) : Bool :=
  match wearOwner s w with
  | some p => partIdle s p
  | none => (List.range (partCount s)).all (partIdle s)

/-- Source number of what is worn (01 R45). R45 gives SPARE records that firmware writes kind 7 only where it names a tile that comes in; the
records PENDING, EXHAUSTED and ROLE_MOVE carry the worn unit's source number (DESIGN CHOICE, log 50). -/
def wearSource (s : State) (w : Wear) : Nat :=
  match w with
  | .tile die pos => tileSource s (128 * die + pos)
  | .row stack pc _ _ => 0x2000 + 32 * stack + pc
  | .channel stack pc => 0x2000 + 32 * stack + pc
  | .lane port _ => portSource port
  | .feltColumn array _ => feltSource array

def spareRecordOf (s : State) (sub source : Nat) (detail : List Byte := []) : State :=
  logRecord s { cls := .spare, sub := sub, source := source, detail := detail }

/-- The position is a column tile. -/
def isColumn (s : State) (die pos : Nat) : Bool := (getDie s die).column.any (fun c => c.1 = pos)

/-- WEAR_TRIGGER: the swap comes at once, before anything else can reach an idle partition, or is pending. The roles of a worn column tile
that no spare can replace move at once. -/
def execWearTrigger (w : Wear) (s : State) : Out :=
  event (
    if w ∈ s.mgmt.pendingSpares then s
    else
      match w with
      | .lane port lane => if h : port < 36 then soon s [.wearingLaneReplace ⟨port, h⟩ lane] else s
      | _ =>
        let s1 := modMgmt s (fun m => { m with pendingSpares := m.pendingSpares ++ [w] })
        let roles := match w with
          | .tile die pos => if isColumn s die pos && decide (8 ≤ (getDie s die).sparesUsed) then [Instr.roleMove die pos] else []
          | _ => []
        soon s1 (roles ++ [.spareSwap w]))

/-- A spare of a kind of which `used` were used of `total` comes in: the records of its swap. -/
def spareUsed (s : State) (sub source used total : Nat) (detail : List Byte := []) : State :=
  let s1 := spareRecordOf s sub source detail
  if used + 1 = total then spareRecordOf s1 8 source else s1

/-- A worn tile: a spare serves its position, or the position is fenced. -/
def swapTile (s : State) (die pos : Nat) : State :=
  let d := getDie s die
  if d.sparesUsed < 8 then
    let phys := 128 + d.sparesUsed
    spareUsed (modDie s die (fun d =>
      { d with
        moved := d.moved.set pos phys
        sparesUsed := d.sparesUsed + 1 })) 1 (136 * die + phys) d.sparesUsed 8 (leBytes 2 pos)
  else
    let s1 := modCluster (modDie s die (fun d => { d with fenced := with1 d.fenced pos })) (16 * die + pos / 8)
      (fun c => { c with tmask := c.tmask &&& ~~~(BitVec.ofNat 8 (2 ^ (pos % 8))) })
    let s2 := spareRecordOf s1 8 (tileSource s (128 * die + pos))
    if isColumn s die pos then soon s2 [.roleMove die pos] else s2

/-- A row is handled as uncorrectable: every sector of it is marked so (01 R15, 06 R178). Which sectors those are the manual leaves open. -/
def loseRow (s : State) (stack pc bank row : Nat) : State :=
  ((Config.rowGranules stack pc bank row).filter (fun g => depotSource (64 * g) = 0x2000 + 32 * stack + pc && decide (64 * g < hbmSize))).foldl
    (fun s g => modSector s g (fun m => { m with uncorrectable := true })) s

/-- A worn HBM row. With the spare rows of its bank used up, a further row is handled as uncorrectable and the pseudo-channel is worn. -/
def swapRow (s : State) (stack pc bank row : Nat) : State :=
  let key := (stack * 32 + pc) * 4096 + bank
  let used := s.mgmt.usedRows.get 0 key
  let source := 0x2000 + 32 * stack + pc
  if used < 4 then spareUsed (modMgmt s (fun m => { m with usedRows := m.usedRows.set key (used + 1) })) 2 source used 4
  else later (loseRow (spareRecordOf s 8 source (leBytes 4 row)) stack pc bank row) [.wearTrigger (.channel stack pc)]

def swapChannel (s : State) (stack pc : Nat) : State :=
  let used := s.mgmt.usedChannels.get 0 stack
  let source := 0x2000 + 32 * stack + pc
  if used < 2 then spareUsed (modMgmt s (fun m => { m with usedChannels := m.usedChannels.set stack (used + 1) })) 3 source used 2
  else spareRecordOf s 8 source

/-- A worn Felt column: the ninth withdraws the array, which FELTOUT of its partition's clusters then reports (`feltOut`). -/
def swapColumn (s : State) (array : Nat) : State :=
  let used := (getArray s array).sparesUsed
  if used < 8 then spareUsed (modArray s array (fun f => { f with sparesUsed := used + 1 })) 5 (feltSource array) used 8
  else
    spareRecordOf (modArray s array (fun f => { f with withdrawn := true })) 8 (feltSource array)

/-- SPARE_SWAP: once the owning partition is idle. Until then it is pending, with one SPARE record that says so (01 R16). -/
def execSpareSwap (w : Wear) (s : State) : Out :=
  event (
    if !(decide (w ∈ s.mgmt.pendingSpares)) then s
    else if !swapReady s w then
      later (if w ∈ s.mgmt.pendingLogged then s
        else spareRecordOf (modMgmt s (fun m => { m with pendingLogged := m.pendingLogged ++ [w] })) 7 (wearSource s w)) [.spareSwap w]
    else
      let s1 := modMgmt s (fun m =>
        { m with
          pendingSpares := without m.pendingSpares w
          pendingLogged := without m.pendingLogged w })
      match w with
      | .tile die pos => swapTile s1 die pos
      | .row stack pc bank row => swapRow s1 stack pc bank row
      | .channel stack pc => swapChannel s1 stack pc
      | .feltColumn array _ => swapColumn s1 array
      | .lane _ _ => s1)

/-- Firmware stops: only the control window answers, and no version runs. -/
def enterRecovery (s : State) : State :=
  securityRecord (modMgmt s (fun m =>
    { m with
      recovery := true
      svn := 0 })) 1

/-- The roles of a column position that no tile serves any more go to an alternate; with both alternates used, the package enters RECOVERY
if the die has lost a role (03 R80). No image failed to boot then: bytes 16-207 of a report keep the digests of what was running (DESIGN
CHOICE, log 52). -/
def moveRoles (s : State) (die pos : Nat) : State :=
  let d := getDie s die
  match d.column.find? (fun c => c.1 = pos) with
  | none => s
  | some (_, roles) =>
    match d.alternates.find? (fun a => !(d.column.any (fun c => c.1 = a)) && !(decide (a ∈ d.fenced))) with
    | none =>
      let left := d.column.filter (fun c => !(c.1 = pos))
      let s1 := modCluster (modDie s die (fun d => { d with column := left })) (16 * die + pos / 8)
        (fun c => { c with ostMask := c.ostMask &&& ~~~(BitVec.ofNat 8 (2 ^ (pos % 8))) })
      if (List.range 4).any (fun r => roles.getLsbD r && !left.any (fun c => c.2.getLsbD r)) then enterRecovery s1 else s1
    | some a =>
      let bit := fun (p : Nat) => BitVec.ofNat 8 (2 ^ (p % 8))
      let s1 := modDie s die (fun d => { d with column := d.column.map (fun c => if c.1 = pos then (a, roles) else c) })
      let s2 := modCluster s1 (16 * die + pos / 8) (fun c => { c with ostMask := c.ostMask &&& ~~~(bit pos) })
      let s3 := modCluster s2 (16 * die + a / 8) (fun c => { c with ostMask := c.ostMask ||| bit a })
      spareRecordOf s3 6 (tileSource s (128 * die + a)) (leBytes 2 a)

/-- ROLE_MOVE: for a column tile that is fenced, or is worn with no spare left. -/
def execRoleMove (die pos : Nat) (s : State) : Out :=
  event (
    let d := getDie s die
    if decide (pos ∈ d.fenced) || (decide (.tile die pos ∈ s.mgmt.pendingSpares) && decide (8 ≤ d.sparesUsed)) then moveRoles s die pos else s)

/-! ## The ostler configuration table (03 R79) -/

/-- Column tiles of a die's entry with their roles. -/
def tableColumn (t : List Byte) (d : Nat) : List (Nat × BitVec 8) :=
  ((List.range 4).map (fun k => (fieldAt t (8 + 16 * d + k) 1, BitVec.ofNat 8 (fieldAt t (12 + 16 * d + k) 1)))).filter (fun c => !(c.1 = 0xFF))
/-- Alternates of a die's entry. -/
def tableAlternates (t : List Byte) (d : Nat) : List Nat :=
  ((List.range 2).map (fun k => fieldAt t (16 + 16 * d + k) 1)).filter (fun a => !(a = 0xFF))

/-- A die's entry is as R79 asks. -/
def dieEntryValid (t : List Byte) (d : Nat) : Bool :=
  let col := tableColumn t d
  let tiles := col.map (·.1) ++ tableAlternates t d
  !col.isEmpty && tiles.dedup.length = tiles.length && tiles.all (fun x => decide (x < 128))
    && (List.range 4).all (fun r => col.any (fun c => c.2.getLsbD r))
    && (List.range 4).all (fun k => bits (fieldAt t (12 + 16 * d + k) 1) 7 4 = 0) && zeroAt t (18 + 16 * d) 6

def tableSigned (t : List Byte) : Bool := t.length = 268 && signatureOk (t.take 136) (t.drop 136)
def tableValid (t : List Byte) (fused : BitVec 8) : Bool :=
  fieldAt t 0 4 = 0x56434F4C && fieldAt t 5 1 = 1 && zeroAt t 6 2 && decide (fused.toNat ≤ fieldAt t 4 1) && (List.range 8).all (dieEntryValid t)

/-! ## Boot (01 R50) -/

def slotImage (m : Management) (b : Bool) : List Byte := if b then m.slotB else m.slotA
/-- Steps 2 and 3 for one slot. -/
def slotBoots (m : Management) (b : Bool) : Bool :=
  Config.imageSigned (slotImage m b) && decide (m.fused.toNat ≤ (Config.imageSvn (slotImage m b)).toNat)

/-- The slot that boots: the strap's first, then the other. -/
def bootSlotOf (m : Management) : Option Bool :=
  if slotBoots m m.strapHigh then some m.strapHigh else if slotBoots m (!m.strapHigh) then some (!m.strapHigh) else none

/-- Step 4 chooses the column: the table's, with the roles of fenced tiles moved. -/
def chooseColumn (s : State) (t : List Byte) : State :=
  let s1 := (List.range 8).foldl (fun s d => modDie s d (fun k =>
    { k with
      column := tableColumn t d
      alternates := tableAlternates t d })) s
  (List.range 8).foldl (fun s d => (getDie s d).fenced.foldl (fun s p => moveRoles s d p) s) s1

/-- Firmware sets OSTMASK and LOCK of every cluster (03 R83). -/
def lockMesh (s : State) : State :=
  (List.range 128).foldl (fun s c =>
    let mask := (((getDie s (c / 16)).column.filter (fun k => k.1 / 8 = c % 16)).map (fun k => 2 ^ (k.1 % 8))).sum
    modCluster s c (fun k =>
      { k with
        ostMask := BitVec.ofNat 8 mask
        mfwLock := true })) s

/-- Step 5: ports that are DOWN or FAILED and not disabled train. -/
def trainPorts (s : State) : State := (List.range 36).foldl (fun s p => if h : p < 36 then portTrain s ⟨p, h⟩ else s) s

/-- Boot from step 2 on, with the strap as the last package reset found it; where both slots fail, BOOTSLOT and byte 13 of a report keep
the slot that booted before (both DESIGN CHOICES, log 52). A failure of step 4 ends the boot in RECOVERY. -/
def bootFrom2 (s : State) : State :=
  let s0 := modMgmt s (fun m =>
    { m with
      busy := false
      patchBusy := false
      patches := []
      functions := []
      patchArea := []
      runningTable := m.table
      running := slotImage m m.strapHigh })
  match bootSlotOf s0.mgmt with
  | none => enterRecovery s0
  | some b =>
    let img := slotImage s0.mgmt b
    let raise := Config.imageRaises img && decide (s0.mgmt.fused.toNat < (Config.imageSvn img).toNat)
    let s1 := modMgmt s0 (fun m =>
      { m with
        bootSlot := b
        running := img
        fused := if raise then Config.imageSvn img else m.fused })
    let s2 := if raise then securityRecord s1 6 else s1
    if !(tableSigned s2.mgmt.table && tableValid s2.mgmt.table s2.mgmt.fused) then enterRecovery s2
    else
      let s3 := modMgmt s2 (fun m =>
        { m with
          recovery := false
          svn := Config.imageSvn img
          version := Config.imageVersion img })
      let s4 := chooseColumn s3 s2.mgmt.table
      if s4.mgmt.recovery then s4 else trainPorts (lockMesh s4)

/-- The package right after package reset is released: what the management controller keeps, and what has left the package or is still
to reach it, stand; EPOCH increments and skips 0 (06 R191). The records of what has happened before are written first. -/
def resetPackage (s : State) (strapHigh : Bool) : State :=
  let s := allRecordsOut s
  let m := s.mgmt
  { State.reset with
    ostler := { epoch := if s.ostler.epoch + 1 = 0 then 1 else s.ostler.epoch + 1 }
    agenda := s.agenda
    free := s.free
    busOut := s.busOut
    linkOut := s.linkOut
    dies := s.dies.map (fun d => (d.1, { moved := d.2.moved, fenced := d.2.fenced, sparesUsed := d.2.sparesUsed }))
    clusters := s.clusters.map (fun c => (c.1, { tmask := c.2.tmask }))
    felt := s.felt.map (fun f => { sparesUsed := f.sparesUsed, withdrawn := f.withdrawn })
    mgmt :=
      { strapHigh := strapHigh
        fused := m.fused
        slotA := m.slotA
        slotB := m.slotB
        table := m.table
        log := m.log
        sequence := m.sequence
        reports := m.reports
        pendingSpares := m.pendingSpares
        pendingLogged := m.pendingLogged
        usedRows := m.usedRows
        usedChannels := m.usedChannels } }

/-- PACKAGE_RESET. -/
def execPackageReset (strapHigh : Bool) (s : State) : Out :=
  event (
    let s1 := resetPackage s strapHigh
    if Config.controllerOk then bootFrom2 s1
    else enterRecovery (modMgmt s1 (fun m =>
      { m with
        running := slotImage m strapHigh
        runningTable := m.table })))

/-! ## Commands of the management block (01 R51) -/

/-- A command while BUSY is ignored. -/
def mgmtCommand (s : State) (f : State → State) : State := if s.mgmt.busy then s else f s
def mgmtResult (s : State) (r : Nat) : State := modMgmt s (fun m => { m with result := BitVec.ofNat 4 r })
def discardImage (s : State) : State :=
  modMgmt s (fun m =>
    { m with
      target := none
      image := [] })

/-- Bytes an image for a target may have. -/
def imageLimit (t : Nat) : Nat := if t = 2 then 268 else if t = 3 then 16 * 2 ^ 20 else 64 * 2 ^ 20

/-- CHUNK. One that starts past the end of the image under assembly leaves zeros between, which R51 does not state (DESIGN CHOICE,
log 51). -/
def execChunk (cmd : Word) (mctp : Option (List Byte)) (s : State) : Out :=
  event (mgmtCommand s (fun s =>
    let t := bits cmd.toNat 59 56
    let len := bits cmd.toNat 31 0
    let off := s.mgmt.offset.toNat
    if 3 < t || len = 0 || decide (4 * 2 ^ 20 < len) then mgmtResult s 4
    else
      let fresh := !(s.mgmt.target == some (BitVec.ofNat 4 t))
      let s1 := if fresh then discardImage s else s
      if fresh && !(off = 0) then mgmtResult s1 6
      else if imageLimit t < off + len then mgmtResult s1 7
      else
        let data := match mctp with
          | some b => padTo len b
          | none => memRead s.mgmt.staging 0 len
        mgmtResult (modMgmt s1 (fun m =>
          { m with
            target := some (BitVec.ofNat 4 t)
            image := Sys2Proof.Machine.patch (padTo (max m.image.length (off + len)) m.image) off data
            offset := BitVec.ofNat 64 (off + len) })) 0))

/-- A firmware image's check: 0 it passes, 1 SIG, 5 SVN. -/
def checkFirmware (m : Management) (img : List Byte) : Nat :=
  if !Config.imageSigned img then 1 else if (Config.imageSvn img).toNat < m.fused.toNat then 5 else 0
/-- A configuration table's check: 0, 1 SIG, 4 FORMAT. -/
def checkTable (m : Management) (t : List Byte) : Nat := if !tableSigned t then 1 else if tableValid t m.fused then 0 else 4

/-! ## Hot patches (03 R103-R105) -/

/-- The replacement list: function index and entry offset. -/
def patchEntries (p : List Byte) : List (Nat × Nat) :=
  (List.range (fieldAt p 13 1)).map (fun k => (fieldAt p (80 + 16 * k) 4, fieldAt p (88 + 16 * k) 8))

/-- The format rules of R104. -/
def patchFormat (p : List Byte) : Bool :=
  let ninact := fieldAt p 12 1
  let nent := fieldAt p 13 1
  let npage := fieldAt p 14 2
  let ones := fun (start n : Nat) => ((p.drop start).take n).all (· == 0xFF)
  fieldAt p 0 4 = 0x56434850 && decide (ninact ≤ 16) && decide (1 ≤ nent) && decide (nent ≤ 16) && decide (1 ≤ npage) && decide (npage ≤ 4096)
    && (List.range 16).all (fun k => if k < ninact then decide (fieldAt p (16 + 4 * k) 4 ≤ 4095) else ones (16 + 4 * k) 4)
    && (List.range 16).all (fun k =>
        if k < nent then
          decide (fieldAt p (80 + 16 * k) 4 ≤ 4095) && zeroAt p (84 + 16 * k) 4 && fieldAt p (88 + 16 * k) 8 % 4 = 0
            && decide (fieldAt p (88 + 16 * k) 8 < 4096 * npage)
        else ones (80 + 16 * k) 16)
    && decide ((patchEntries p).map (·.1)).Nodup
    && zeroAt p 336 176 && p.length = 644 + 4096 * npage

/-- Step 1 of R105: 0, 1 SIG, 4 FORMAT, 2 BASE. -/
def checkPatch (m : Management) (p : List Byte) : Nat :=
  let body := p.take (p.length - 132)
  if p.length < 132 || !signatureOk body (p.drop (p.length - 132)) then 1
  else if !patchFormat p then 4
  else if !(fieldAt p 4 4 = m.version.toNat) then 2
  else 0

/-- A patch's outcome: RESULT here and in PATCHCTL, and a record. -/
def patchEnds (s : State) (r : Nat) : State :=
  securityRecord (modMgmt (mgmtResult s r) (fun m =>
    { m with
      patchResult := BitVec.ofNat 4 r
      patchBusy := false
      busy := false
      patch := [] })) (if r = 0 then 4 else 5)

/-- COMMIT of a hot patch: one that passes waits for the functions it lists. -/
def commitPatch (s : State) (p : List Byte) : State :=
  if s.mgmt.recovery then securityRecord (mgmtResult s 6) 5
  else
    let r := checkPatch s.mgmt p
    if !(r = 0) then patchEnds s r
    else
      later (modMgmt s (fun m =>
        { m with
          busy := true
          patchBusy := true
          patch := p
          patchTick := s.now })) [.hotPatchApply, .patchTimeout]

/-- COMMIT. -/
def execCommit (cmd : Word) (s : State) : Out :=
  event (mgmtCommand s (fun s =>
    let t := bits cmd.toNat 59 56
    let img := if s.mgmt.target == some (BitVec.ofNat 4 t) then s.mgmt.image else []
    let s1 := discardImage s
    if 3 < t then securityRecord (mgmtResult s1 4) 3
    else if t = 3 then commitPatch s1 img
    else
      let r := if t = 2 then checkTable s.mgmt img else checkFirmware s.mgmt img
      if !(r = 0) then securityRecord (mgmtResult s1 r) 3
      else
        securityRecord (mgmtResult (modMgmt s1 (fun m =>
          { m with
            slotA := if t = 0 then img else m.slotA
            slotB := if t = 1 then img else m.slotB
            table := if t = 2 then img else m.table })) 0) 2))

/-- HOT_PATCH_APPLY: unless a column tile is inside a listed function, which is a free value, the entries are replaced. A patch that lists
none waits for none; one that has waited for more than 1 ms is refused (03 R105). -/
def execHotPatchApply (s : State) : Out :=
  event (
    if !s.mgmt.patchBusy then s
    else if s.mgmt.patchTick + 1000000 < s.now then patchEnds s 3
    else if !(fieldAt s.mgmt.patch 12 1 = 0) && Config.freeTurn s.free then later { s with free := s.free + 1 } [.hotPatchApply]
    else
      let p := s.mgmt.patch
      patchEnds (modMgmt { s with free := s.free + 1 } (fun m =>
        { m with
          patchArea := (p.drop 512).take (4096 * fieldAt p 14 2)
          functions := (patchEntries p).foldl (fun f e => f.set e.1 (Config.patchArea + BitVec.ofNat 64 e.2)) m.functions
          patches := m.patches ++ [digestOf p]
          version := BitVec.ofNat 32 (fieldAt p 8 4) })) 0)

/-- PATCH_TIMEOUT: after 1 ms the patch is refused with RESULT 3. -/
def execPatchTimeout (s : State) : Out :=
  event (
    if !s.mgmt.patchBusy then s
    else if s.now ≤ s.mgmt.patchTick + 1000000 then later s [.patchTimeout]
    else patchEnds s 3)

/-! ## Attestation, REBOOT, ABORT (01 R51-R53) -/

/-- The 404 bytes of a report for a nonce. -/
def attestation (m : Management) (nonce : List Byte) : List Byte :=
  let body := leBytes 8 Config.serial.toNat ++ leBytes 4 Config.bootRomVersion.toNat ++ [m.svn, if m.bootSlot then 1 else 0, 0, 0]
    ++ sha512 m.running ++ sha512 m.runningTable ++ sha512 (m.patches.flatMap (fun d => beBytes 64 d.toNat)) ++ padTo 64 nonce
  body ++ signed body

/-- ATTEST: over MCTP the report goes back in the message. -/
def execAttest (mctpNonce : Option (List Byte)) (s : State) : Out :=
  event (mgmtCommand s (fun s =>
    match mctpNonce with
    | some nonce => mgmtResult (modMgmt s (fun m => { m with reports := m.reports ++ [attestation m nonce] })) 0
    | none =>
      mgmtResult (modMgmt s (fun m =>
        { m with
          staging := memWrite m.staging 0 (attestation m (memRead m.staging 0 64))
          length := 404 })) 0))

/-- What reaches the device through the host port. -/
def byHostPort (i : Instr) : Bool :=
  match i with
  | .bar4Read _ _ => true
  | .bar4Write _ _ _ => true
  | .doorbell _ _ _ _ => true
  | _ => false

/-- The host port is dropped: host accesses that wait are lost, and reads of host memory that are out get no data. -/
def dropHostPort (s : State) : State :=
  clearPieces
    { s with
      agenda := s.agenda.filter (fun i => !byHostPort i)
      urgent := s.urgent.filter (fun i => !byHostPort i)
      peerReads := []
      peerData := s.peerReads.foldl (fun d r => d.set r.2.1 none) s.peerData } 24576

/-- REBOOT: every partition is reset, the host port is dropped, and boot runs again from step 2. -/
def execReboot (s : State) : Out :=
  event (mgmtCommand s (fun s =>
    let s1 := dropHostPort (securityRecord (mgmtResult s 0) 7)
    bootFrom2 ((List.range (partCount s)).foldl (fun s p => resetPartition s p []) s1)))

/-- ABORT. -/
def execAbort (s : State) : Out := event (mgmtCommand s (fun s => mgmtResult (discardImage s) 0))

end Sys2Proof.Machine
end

