-- ==== Sys2Proof/Machine/HostPort.lean ====
section
/-!
DEFINITION. Host accesses through BAR4 (02 R54-R56).
-/
namespace Sys2Proof.Machine

/-- The units that act for the host port: one for its accesses in order, one for the writes with Relaxed Ordering. -/
def hostEngine (relaxed : Bool) (ctx : BitVec 32) : Engine := { unit := if relaxed then 24577 else 24576, tile := 0, ctx := ctx, run := 0 }

/-- Where an access at a BAR4 offset goes and in whose name: the aperture entry's address, and a context of its PDOM. -/
inductive HostPlace where
  | invalid
  | at (va : Nat) (ctx : Option (BitVec 32))

def hostPlace (s : State) (offset : Nat) : HostPlace :=
  let e := s.host.apertures.get (0, 0) (offset / 2 ^ 30 % 2048)
  if !e.1.getLsbD 63 then .invalid
  else
    .at (bits e.1.toNat 56 30 * 2 ^ 30 + offset % 2 ^ 30)
      ((s.contexts.find? (fun c => c.2.pdom == BitVec.ofNat 16 e.2.toNat && !(c.2.glCount = 0))).map (fun c => BitVec.ofNat 32 c.1))

/-- The checks of a program access, made for the host (02 R55). -/
def hostCheck (s : State) (ctx : Option (BitVec 32)) (need va n : Nat) : Served (BitVec 32) :=
  match ctx with
  | none => .bad 0x04 0x01 s
  | some c =>
    if inWindow va then .bad 0x04 0x03 s
    else if inOstler va then .bad 0x04 0x02 s
    else if (deepRange s va).isSome then .bad 0x04 0x01 s
    else
      match ctxRights s c need va n with
      | .ok _ s1 => .ok c s1
      | .bad code sub s1 => .bad code sub s1
      | .busy s1 => .busy s1

/-- A host access: it runs under the aperture's entry, or ends with a code, a sub-code and the address of the record. -/
def hostAccess {α : Type} (s : State) (relaxed : Bool) (offset need n : Nat) (f : State → Engine → Nat → Served α) : Served α × Nat :=
  match hostPlace s offset with
  | .invalid => (.bad 0x05 0x01 s, offset)
  | .at va ctx =>
    match hostCheck s ctx need va n with
    | .ok c s1 => (f s1 (hostEngine relaxed c) va, va)
    | .bad code sub s1 => (.bad code sub s1, va)
    | .busy s1 => (.busy s1, va)

def isBar4 (i : Instr) : Bool :=
  match i with
  | .bar4Read _ _ => true
  | .bar4Write _ _ _ => true
  | _ => false

def isBar4Read (i : Instr) : Bool :=
  match i with
  | .bar4Read _ _ => true
  | _ => false

def isRelaxed (i : Instr) : Bool :=
  match i with
  | .bar4Write _ _ relaxed => relaxed
  | _ => false

/-- A waiting access goes back before the accesses of the agenda that pass a test. -/
def putBefore (s : State) (i : Instr) (p : Instr → Bool) : State :=
  { s with agenda := s.agenda.filter (fun x => !p x) ++ i :: s.agenda.filter p }

/-- An access that waits keeps its place before the host accesses that arrived after it. A write with Relaxed Ordering may go ahead of it:
no rule orders that write against other posted writes (02 R56). -/
def bar4Again (s : State) (i : Instr) : State :=
  let s1 := { s with free := s.free + 1 }
  match (if Config.freeTurn s.free then s.agenda.find? isRelaxed else none) with
  | some w => putBefore (putBefore { s1 with agenda := s.agenda.erase w } i isBar4) w isBar4
  | none => putBefore s1 i isBar4

/-- Whether a write with Relaxed Ordering has begun and waits. -/
def relaxedBegun (s : State) : Bool :=
  s.engineDone.any (fun e => e.1 == 24577) || s.requests.any (fun r => match r.2.kind with
    | .engine u _ => u == 24577
    | .engineLoad u _ _ _ => u == 24577
    | _ => false)

/-- BAR4_READ: a read that fails completes with Unsupported Request, and is recorded. In RECOVERY BAR4 does not respond. -/
def execBar4Read (offset length : Nat) (s : State) : Out :=
  event (
    if s.mgmt.recovery then s
    else
      let (r, addr) := hostAccess s false offset 1 length (fun s e va => devRead s e va length)
      let complete := fun (s : State) (bs : Option (List Byte)) =>
        clearPieces { s with busOut := s.busOut ++ [.complete offset bs] } 24576
      match r with
      | .ok bs s1 => complete s1 (some bs)
      | .bad code sub s1 => complete (faultRecord s1 code sub 0 addr) none
      | .busy s1 => bar4Again s1 (.bar4Read offset length))

/-- BAR4_WRITE: a write that fails is discarded, and recorded. A relaxed one may come later than writes that arrived after it, before the
reads that did; once begun, it goes on before other relaxed ones. -/
def execBar4Write (offset : Nat) (bytes : List Byte) (relaxed : Bool) (s : State) : Out :=
  event (
    let s1 := { s with free := s.free + 1 }
    let unit := if relaxed then 24577 else 24576
    let again := Instr.bar4Write offset bytes relaxed
    if s.mgmt.recovery then s
    else if relaxed && !relaxedBegun s && Config.freeTurn s.free then putBefore s1 again isBar4Read
    else
      let (r, addr) := hostAccess s1 relaxed offset 2 bytes.length (fun s e va =>
        engineStores s e 0 (granuleParts (bytes.length / 64 + 2) va bytes))
      match r with
      | .ok _ s2 => clearPieces s2 unit
      | .bad code sub s2 => clearPieces (faultRecord s2 code sub 0 addr) unit
      | .busy s2 => if relaxed then putBefore s2 again (fun x => isBar4Read x || isRelaxed x) else bar4Again s2 again)

end Sys2Proof.Machine
end

