-- ==== Sys2Proof/Machine/Coaches.lean ====
section
/-!
DEFINITION. Coaches and carriages: registration, pieces that land, failed fetches, eviction (03 R95-R99).
-/
namespace Sys2Proof.Machine

/-! ## Registration (03 R95) -/

/-- The rules of an entry that concern its bytes alone, and the partition's storage block. -/
def carriageValid (s : State) (part : Nat) (e : List Byte) : Bool :=
  let src := fieldAt e 0 1
  let hi := fieldAt e 4 4
  decide (src ≤ 2) && decide (fieldAt e 1 1 ≤ 3) && zeroAt e 2 2
    && (if src = 0 then hi = 0 else if src = 1 then decide (hi < 8192) else storageValid s part)
    && fieldAt e 16 8 % 65536 = 0 && decide (0 < fieldAt e 24 4) && fieldAt e 28 4 % 8 = 0

def carriageOf (table : Nat) (e : List Byte) : Carriage :=
  { src := BitVec.ofNat 8 (fieldAt e 0 1)
    eclass := BitVec.ofNat 8 (fieldAt e 1 1)
    srcHi := BitVec.ofNat 32 (fieldAt e 4 4)
    srcAddr := BitVec.ofNat 64 (fieldAt e 8 8)
    devAddr := fieldAt e 16 8
    length := fieldAt e 24 4
    flag := table + fieldAt e 28 4 }

/-- The entries of a table from entry `i` on; `.ok none` where one is invalid. -/
def readTable (s : State) (e : Engine) (part table i count : Nat) : Served (Option (List Carriage)) × Nat :=
  match count with
  | 0 => (.ok (some []) s, 0)
  | k + 1 =>
    let va := table + 32 * i
    match ctxRead s e va 32 with
    | .busy s1 => (.busy s1, va)
    | .bad code sub s1 => (.bad code sub s1, va)
    | .ok bytes s1 =>
      let c := carriageOf table bytes
      match ctxRights s1 e.ctx 11 c.flag 8 with
      | .busy s2 => (.busy s2, va)
      | .bad _ _ s2 => (.ok none s2, va)
      | .ok _ s2 =>
        if !carriageValid s2 part bytes || (devPlace s2 c.flag).isNone then (.ok none s2, va)
        else
          match readTable s2 e part table (i + 1) k with
          | (.ok (some cs) s3, a) => (.ok (some (c :: cs)) s3, a)
          | r => r

/-- A carriage's flag word stands in memory alone, for one atomic update of it at PACKAGE scope: what owned its granule has written it back,
and every copy is gone (03 R96). -/
def flagReady (s : State) (c : Carriage) : Served Unit :=
  match devPlace s c.flag with
  | none => .ok () s
  | some (pa, _) =>
    match settle s (pa / 64) none with
    | .ok _ s1 => invalidate s1 (pa / 64) none
    | r => r

/-- The same for several flag words. -/
def flagsReady (s : State) (cs : List Carriage) : Served Unit :=
  match cs with
  | [] => .ok () s
  | c :: rest =>
    match flagReady s c with
    | .ok _ s1 => flagsReady s1 rest
    | .bad _ _ s1 => flagsReady s1 rest
    | .busy s1 => .busy s1

/-- A carriage's flag word. -/
def flagGet (s : State) (c : Carriage) : Nat :=
  match devPlace s c.flag with
  | some (pa, _) => ofBytes (physRead s pa 8)
  | none => 0

/-- A flag word written at its depot; one that cannot be written keeps what it holds. -/
def flagPut (s : State) (c : Carriage) (w : Nat) : State :=
  match devPlace s c.flag with
  | some (pa, key) =>
    match depotWrite s (pa / 64) key (granuleImage (pa % 64) (leBytes 8 w)) (maskAt (pa % 64) 8) 0 with
    | .ok _ s1 => s1
    | .bad _ _ s1 => s1
    | .busy s1 => s1
  | none => s

/-- An update of a carriage's flag word by hardware: when the word is ready, else the event comes again. -/
def withFlag (s : State) (c : Carriage) (again : Instr) (f : State → Nat → State) : State :=
  match flagReady s c with
  | .ok _ s1 => f s1 (flagGet s1 c)
  | .bad _ _ s1 => s1
  | .busy s1 => later s1 [again]

/-- Flag words that are not RESIDENT become ABSENT, with nothing else in them. -/
def clearFlags (s : State) (cs : List Carriage) : State := cs.foldl (fun s c => if flagState (flagGet s c) = 2 then s else flagPut s c 0) s

/-- Fetches under way for coach `i` are given up: their copies end with the segments that are out, and answers of an SK7 bring nothing. -/
def forgetFetches (s : State) (i : Nat) : State :=
  { s with
    requests := s.requests.map (fun r => (r.1, match r.2.kind with
      | .carriage i' _ _ => if i' = i then { r.2 with kind := .message } else r.2
      | _ => r.2))
    tiles := s.tiles.map (fun e => (e.1, { e.2 with dray := e.2.dray.map (fun q => q.map (fun c =>
    if (c.carriage.map (·.1)) == some i then { c with carriage := none, cancelled := true } else c)) })) }

/-- The coach takes the place of one that had a carriage of the same flag word; a RESIDENT carriage keeps its last CWAIT. -/
def addCoach (s : State) (k : Coach) : State :=
  let same := fun (o : Coach) => o.ctx == k.ctx && o.carriages.any (fun c => k.carriages.any (fun d => d.flag == c.flag))
  let old := (s.coaches.filter same).flatMap (·.carriages)
  let k1 := { k with carriages := k.carriages.map (fun c =>
    if flagState (flagGet s c) = 2 then { c with lastWait := ((old.find? (fun o => o.flag == c.flag)).map (·.lastWait)).getD 0 } else c) }
  let s1 := (List.range s.coaches.length).foldl (fun s i => if (s.coaches[i]?).any same then forgetFetches s i else s) s
  match s1.coaches.findIdx? same with
  | some i => { s1 with coaches := s1.coaches.mapIdx (fun j o => if j = i then k1 else if same o then { o with carriages := [] } else o) }
  | none => { s1 with coaches := s1.coaches ++ [k1] }

/-- The dispatch of a current COACH packet ends when its action begins (02 R73). -/
def coachBegun (s : State) (slot : Nat) : State :=
  match currentPacket s slot with
  | some p => if packetType p.bytes = 3 then dispatchEnded s slot p.seq else s
  | none => s

/-- The oldest COACH packet of a queue whose action has begun and has not ended. -/
def coachPacket (s : State) (slot : Nat) : Option PacketRun :=
  (getQueue s slot).packets.find? (fun p => packetType p.bytes = 3 && p.dispatched && !p.workDone && !p.reset)

/-- The work of a COACH packet: the table is read, and the coach registered. -/
def coachStep (slot : Nat) (p : PacketRun) (s : State) : State :=
  let b := qcb s slot
  let ctx := qcbCtx b
  let part := qcbPart b
  let table := fieldAt p.bytes 24 8
  let count := fieldAt p.bytes 32 2
  let prio := fieldAt p.bytes 34 1
  if count = 0 || decide (4096 < count) || !(bits prio 6 3 = 0) || !zeroAt p.bytes 35 25 then packetEnds s slot p.seq 1 0x01
  else
    match readTable s (queueEngine s slot ctx part) part table 0 count with
    | (.busy s1, _) => later s1 [.coach slot]
    | (.bad code sub s1, va) => packetEnds (faultRecord s1 code sub ctx.toNat va) slot p.seq 1 code
    | (.ok none s1, _) => packetEnds s1 slot p.seq 1 0x13
    | (.ok (some cs) s1, _) =>
      match flagsReady s1 cs with
      | .busy s2 => later s2 [.coach slot]
      | .bad _ _ s2 => registers s2 ctx prio cs
      | .ok _ s2 => registers s2 ctx prio cs
where
  registers (s : State) (ctx : BitVec 32) (prio : Nat) (cs : List Carriage) : State :=
    let s2 := addCoach (clearFlags s cs) { ctx := ctx, priority := bits prio 2 0, autoFetch := prio.testBit 7, carriages := cs }
    packetEnds s2 slot p.seq 0 0 (BitVec.ofNat 64 ctx.toNat)

/-- COACH packet. -/
def execCoach (slot : Nat) (s : State) : Out :=
  event (
    let s1 := coachBegun s slot
    match coachPacket s1 slot with
    | none => s1
    | some p => whenSlot s1 (.coach slot) slot (coachStep slot p))

/-! ## A fetch (03 R95, R97, R98) -/

/-- A carriage that exists, with its coach. -/
def withCarriage (s : State) (i j : Nat) (f : Coach → Carriage → State) : State :=
  match s.coaches[i]? with
  | none => s
  | some k =>
    match k.carriages[j]? with
    | none => s
    | some c => f k c

def coachPart (s : State) (k : Coach) : Nat := (getCtx s k.ctx).part

/-- Bytes that a fetch brings: whole blocks of an NVM Express namespace. -/
def fetchTotal (s : State) (k : Coach) (c : Carriage) : Nat :=
  if c.src = 2 then
    let block := 2 ^ storageLbas s (coachPart s k)
    (c.length + block - 1) / block * block
  else c.length

/-- End of the longest run of landed pieces from the start, up to LENGTH. -/
def arrived (c : Carriage) (total : Nat) : Nat :=
  let n := (total + 4095) / 4096
  min c.length (match (List.range n).find? (fun k => !(decide (4096 * k ∈ c.landed))) with
    | some k => 4096 * k
    | none => total)

/-- The fetch failed: FAULTED with its code. -/
def fetchFails (s : State) (i j : Nat) (c : Carriage) (code : Nat) : State :=
  let w := flagGet s c
  if flagState w = 1 then modCarriage (flagPut s c (setBits (setBits w 63 61 4) 60 54 code)) i j (fun c => { c with landed := [], asked := 0 }) else s

def coachUnit (i j : Nat) : Nat := 32768 + 4096 * i + j

/-- The tile on which the COACH role of a partition runs (03 R79, R82). -/
def coachTile (s : State) (part : Nat) : Nat :=
  let die := 8 / partCount s * part
  128 * die + (((getDie s die).column.find? (fun c => c.2.getLsbD 2)).map (·.1)).getD 0

/-- Blocks of one STORAGE copy of a fetch: at most 65,535, in whole segments but for the last copy. -/
def copyBlocks (lbas left : Nat) : Nat :=
  let per := 2 ^ (12 - lbas)
  min (65535 / per * per) left

/-- An offset past every piece. -/
def noPiece : Nat := 2 ^ 33

/-- The next STORAGE copy of a fetch from an NVM Express namespace, once its destination is checked (03 R95, 15 R369). -/
def askBlocks (s : State) (i j : Nat) (k : Coach) (c : Carriage) : State :=
  let part := coachPart s k
  let tile := coachTile s part
  let lbas := storageLbas s part
  let blocks := copyBlocks lbas ((fetchTotal s k c - c.asked) / 2 ^ lbas)
  let va := c.devAddr + c.asked
  if !storageValid s part then fetchFails s i j c 0x14
  else if !(bits va 63 57 = 0) || !(bits (va + blocks * 2 ^ lbas - 1) 63 57 = 0) then fetchFails s i j c 0x05
  else
    match ctxRights s k.ctx 2 va (blocks * 2 ^ lbas) with
    | .bad code _ s1 => fetchFails s1 i j c code
    | .busy s1 => later s1 [.carriagePiece i j noPiece []]
    | .ok _ s1 =>
      if 128 ≤ (copiesOf s1 (4 * tile)).length then later s1 [.carriagePiece i j noPiece []]
      else
        let copy : Copy :=
          { tag := 0, core := 4 * tile, strand := none, run := 0, ctx := k.ctx
            tpl := { kind := 2, esz := 0, slices := c.srcHi.toNat, src := c.srcAddr, dst := BitVec.ofNat 64 va, bar := 0, sstride := 0, dims := [(blocks, 0, 0)] }
            srcBase := c.srcAddr + BitVec.ofNat 64 (c.asked / 2 ^ lbas), dstBase := BitVec.ofNat 64 va, slack := 0, waitSince := s.now, carriage := some (i, j) }
        (startCopy (modCarriage s1 i j (fun c => { c with asked := c.asked + blocks * 2 ^ lbas })) tile ⟨0, by decide⟩ copy).1

/-- Bytes of piece `p` of a fetch. -/
def pieceLength (total p : Nat) : Nat := min 4096 (total - 4096 * p)

/-- The next granule of a fetch from an SK7 is read: from another device by a packet, its answer to come as a step; from this one at its
depot (03 R95; log 34). An unreachable device fails the fetch (R97). -/
def askPeer (s : State) (i j : Nat) (k : Coach) (c : Carriage) : State :=
  let dev := c.srcHi.toNat
  let va := c.srcAddr + BitVec.ofNat 64 c.got
  let n := min (64 - va.toNat % 64) (c.length - c.got)
  let pdom := (getCtx s k.ctx).pdom
  if dev ∈ s.ostler.gone then fetchFails s i j c 0x0A
  else if dev = devnum s then
    match fetchServe s (coachUnit i j) pdom va.toNat n with
    | .ok v s1 => later s1 [.carriagePiece i j (noPiece + c.got) (vecBytes v)]
    | .bad code _ s1 => fetchFails s1 i j c (fetchFailCode code)
    | .busy s1 => later s1 [.carriagePiece i j noPiece []]
  else if !hasRoute s dev then fetchFails s i j c 0x15
  else (sendRequest s dev none (.carriage i j c.got) va k.ctx 0x01 (fetchReadBody s dev k.ctx va n)).1

/-- A granule of a fetch from an SK7 has come; its bytes join the piece under way, which lands when it is whole. -/
def peerGranule (s : State) (i j : Nat) (k : Coach) (c : Carriage) (w : Nat) (bytes : List Byte) : State :=
  if !(flagState w = 1) || decide (c.length ≤ c.got) then s
  else
    let va := (c.srcAddr + BitVec.ofNat 64 c.got).toNat
    let n := min (min (64 - va % 64) (c.length - c.got)) (4096 - c.part.length)
    let part := c.part ++ (bytes.drop (va % 64)).take n
    let off := c.got / 4096 * 4096
    let whole := decide (c.length - off ≤ part.length) || part.length = 4096
    let c1 := { c with got := c.got + n, part := if whole then [] else part }
    let s1 := modCarriage s i j (fun _ => c1)
    let s2 := if whole then later s1 [.carriagePiece i j off part] else s1
    if c1.got < c.length then askPeer s2 i j k c1 else s2

/-- A fetch asks its source (03 R95): host memory by bus reads, one for each piece; an SK7 granule by granule; a namespace by STORAGE
copies. -/
def askSource (s : State) (i j : Nat) (k : Coach) (c : Carriage) : State :=
  if c.src = 0 then
    let reads := (List.range ((c.length + 4095) / 4096)).map (fun p =>
      BusOp.read (c.srcAddr + BitVec.ofNat 64 (4096 * p)) (pieceLength c.length p) (pieceAgent i j p))
    modCarriage { s with busOut := s.busOut ++ reads } i j (fun c => { c with asked := c.length, landed := [] })
  else if c.src = 1 then
    let c1 := { c with asked := c.length, got := 0, part := [], landed := [] }
    askPeer (modCarriage s i j (fun _ => c1)) i j k c1
  else askBlocks (if c.asked = 0 then modCarriage s i j (fun c => { c with landed := [] }) else s) i j k c

/-- ARRIVED, and RESIDENT when every piece has landed. -/
def arrivedWord (c : Carriage) (total w : Nat) : Nat :=
  let a := arrived c total
  let w1 := setBits w 39 0 a
  if a = c.length && c.landed.length = (total + 4095) / 4096 then setBits w1 63 61 2 else w1

/-- A copy of this fetch is under way. -/
def copyUnderWay (s : State) (i j : Nat) : Bool := s.tiles.any (fun e => e.2.dray.toList.any (fun q => q.any (fun c => c.carriage == some (i, j))))

/-- A fetch goes on: firmware's own request of an ABSENT carriage, the first reads of an ARRIVING one, the piece of a
namespace's blocks that has landed, and the next copy of them. -/
def fetchGoesOn (s : State) (i j : Nat) (k : Coach) (c : Carriage) (w : Nat) : State :=
  if flagState w = 0 then
    askSource (flagPut s c (setBits w 63 61 1)) i j k { c with asked := 0 }
  else if flagState w = 1 then
    if c.asked = 0 then askSource s i j k c
    else if c.src = 1 && c.srcHi.toNat = devnum s && decide (c.got < c.length) then askPeer s i j k c
    else if c.src = 2 then
      let s1 := flagPut s c (arrivedWord c (fetchTotal s k c) w)
      if !copyUnderWay s1 i j && decide (c.asked < fetchTotal s k c) then askSource s1 i j k c else s1
    else s
  else s

/-- CARRIAGE_PIECE: it lands at DEVADDR with the coach context's rights and translation; the last one makes the carriage RESIDENT. With no
bytes it is the step by which a fetch begins and goes on; with an offset past every piece it brings the granule of an SK7 from there on. -/
def execCarriagePiece (coach index offset : Nat) (bytes : List Byte) (s : State) : Out :=
  event (withCarriage s coach index (fun k c => withFlag s c (.carriagePiece coach index offset bytes) (fun s w =>
    let total := fetchTotal s k c
    if bytes.isEmpty then fetchGoesOn s coach index k c w
    else if c.src = 1 && offset = noPiece + c.got then peerGranule s coach index k c w bytes
    else if !(flagState w = 1) || !(offset % 4096 = 0) || decide (total ≤ offset) || !(bytes.length = min 4096 (total - offset)) || decide (offset ∈ c.landed) then s
    else
      let n := bytes.length
      let e : Engine := { unit := coachUnit coach index, tile := coachTile s (coachPart s k), ctx := k.ctx, run := 0 }
      let va := c.devAddr + offset
      let written : Served Unit :=
        if !(bits va 63 57 = 0) || !(bits (va + n - 1) 63 57 = 0) then .bad 0x05 0x02 s
        else if inWindow va then .bad 0x04 0x03 s
        else if inOstler va then .bad 0x04 0x02 s
        else if (deepRange s va).isSome then .bad 0x04 0x01 s
        else
          match ctxRights s k.ctx 2 va n with
          | .ok _ s1 => engineStores s1 e offset (granuleParts (n / 64 + 2) va bytes)
          | r => r
      match written with
      | .busy s1 => later s1 [.carriagePiece coach index offset bytes]
      | .bad code _ s1 => fetchFails (clearPieces s1 e.unit) coach index c code
      | .ok _ s1 =>
        let c1 := { c with landed := c.landed ++ [offset] }
        modCarriage (fillStashes (flagPut (clearPieces s1 e.unit) c (arrivedWord c1 total (flagGet s1 c))) va n) coach index (fun _ => c1))))

/-- CARRIAGE_FETCH_FAIL: the source failed. -/
def execCarriageFetchFail (coach index : Nat) (code : BitVec 7) (s : State) : Out :=
  event (withCarriage s coach index (fun _ c => withFlag s c (.carriageFetchFail coach index code) (fun s _ =>
    if code = 0 then s else fetchFails s coach index c code.toNat)))

/-! ## Eviction (03 R97, R99) -/

/-- Carriages of a partition that may be evicted, with their place in R99's order: coach, index, priority, class, last CWAIT. -/
def victims (s : State) (part : Nat) : List (Nat × Nat × Nat × Nat × Nat) :=
  ((List.range s.coaches.length).zip s.coaches).flatMap (fun (e : Nat × Coach) =>
    if coachPart s e.2 = part then
      ((List.range e.2.carriages.length).zip e.2.carriages).filterMap (fun (f : Nat × Carriage) =>
        let w := flagGet s f.2
        if flagState w = 2 && flagRiders w = 0 then some (e.1, f.1, e.2.priority, f.2.eclass.toNat, f.2.lastWait) else none)
    else [])

/-- Whether the first of two candidates comes before the second. -/
def evictBefore (a b : Nat × Nat × Nat × Nat × Nat) : Bool :=
  decide (a.2.2.1 < b.2.2.1) || (a.2.2.1 = b.2.2.1 && (decide (a.2.2.2.1 < b.2.2.2.1)
    || (a.2.2.2.1 = b.2.2.2.1 && decide (a.2.2.2.2 < b.2.2.2.2))))

/-- EVICTION: the victim, RESIDENT with no riders, becomes EVICTING. -/
def execEviction (coach index : Nat) (s : State) : Out :=
  event (withCarriage s coach index (fun k c =>
    match flagsReady s ((s.coaches.filter (fun o => coachPart s o = coachPart s k)).flatMap (·.carriages)) with
    | .busy s1 => later s1 [.eviction coach index]
    | .bad _ _ s1 => s1
    | .ok _ s1 =>
      let vs := victims s1 (coachPart s1 k)
      match vs.find? (fun v => v.1 = coach && v.2.1 = index) with
      | none => s1
      | some v => if vs.any (fun o => evictBefore o v) then s1 else later (flagPut s1 c (setBits (flagGet s1 c) 63 61 3)) [.carriageEvicted coach index]))

/-- CARRIAGE_EVICTED: EVICTING becomes ABSENT. -/
def execCarriageEvicted (coach index : Nat) (s : State) : Out :=
  event (withCarriage s coach index (fun _ c => withFlag s c (.carriageEvicted coach index) (fun s w =>
    if flagState w = 3 then modCarriage (flagPut s c 0) coach index (fun c => { c with landed := [], asked := 0 }) else s)))

end Sys2Proof.Machine
end

