-- ==== Sys2Proof/Machine/Dispatch.lean ====
section
/-!
DEFINITION. The meaning of every instruction and step: one arm per constructor of `Instr`.
-/
namespace Sys2Proof.Machine

def exec (i : Instr) (s : State) : Host.Outcome State Fault Refusal :=
  match i with
  | .packageReset strapHigh => Sys2Proof.Machine.execPackageReset strapHigh s
  | .ppsEdge => Sys2Proof.Machine.execPpsEdge s
  | .timeOfDayMessage seconds => Sys2Proof.Machine.execTimeOfDayMessage seconds s
  | .junctionThrottle source => Sys2Proof.Machine.execJunctionThrottle source s
  | .junctionShutdown source => Sys2Proof.Machine.execJunctionShutdown source s
  | .wearTrigger w => Sys2Proof.Machine.execWearTrigger w s
  | .spareSwap w => Sys2Proof.Machine.execSpareSwap w s
  | .roleMove die position => Sys2Proof.Machine.execRoleMove die position s
  | .lossOfLock port lane => Sys2Proof.Machine.execLossOfLock port lane s
  | .healthWindow cycles => Sys2Proof.Machine.execHealthWindow cycles s
  | .timingReplay tile => Sys2Proof.Machine.execTimingReplay tile s
  | .idleFlit port flit => Sys2Proof.Machine.execIdleFlit port flit s
  | .dataFlit port flit => Sys2Proof.Machine.execDataFlit port flit s
  | .ackFlit port flit => Sys2Proof.Machine.execAckFlit port flit s
  | .nakFlit port flit => Sys2Proof.Machine.execNakFlit port flit s
  | .trainFlit port flit => Sys2Proof.Machine.execTrainFlit port flit s
  | .replayTimeout port => Sys2Proof.Machine.execReplayTimeout port s
  | .ackTimer port => Sys2Proof.Machine.execAckTimer port s
  | .nakHoldoffExpiry port => Sys2Proof.Machine.execNakHoldoffExpiry port s
  | .linkRetryBound port => Sys2Proof.Machine.execLinkRetryBound port s
  | .trainingTimeout port => Sys2Proof.Machine.execTrainingTimeout port s
  | .partnerReset port => Sys2Proof.Machine.execPartnerReset port s
  | .noticeRecord port => Sys2Proof.Machine.execNoticeRecord port s
  | .classOHoldEnd dest => Sys2Proof.Machine.execClassOHoldEnd dest s
  | .portDisable port => Sys2Proof.Machine.execPortDisable port s
  | .portTrain port => Sys2Proof.Machine.execPortTrain port s
  | .portReset port => Sys2Proof.Machine.execPortReset port s
  | .swreq => Sys2Proof.Machine.execSwreq s
  | .bankSwitch => Sys2Proof.Machine.execBankSwitch s
  | .routingBankWrite offset value => Sys2Proof.Machine.execRoutingBankWrite offset value s
  | .devnumWrite value => Sys2Proof.Machine.execDevnumWrite value s
  | .transitPacket port packet => Sys2Proof.Machine.execTransitPacket port packet s
  | .rd packet => Sys2Proof.Machine.execRd packet s
  | .rdx packet => Sys2Proof.Machine.execRdx packet s
  | .wr packet => Sys2Proof.Machine.execWr packet s
  | .amoPacket packet => Sys2Proof.Machine.execAmoPacket packet s
  | .wb packet => Sys2Proof.Machine.execWb packet s
  | .snp packet => Sys2Proof.Machine.execSnp packet s
  | .snprsp packet => Sys2Proof.Machine.execSnprsp packet s
  | .dataPacket packet => Sys2Proof.Machine.execDataPacket packet s
  | .ackPacket packet => Sys2Proof.Machine.execAckPacket packet s
  | .inv packet => Sys2Proof.Machine.execInv packet s
  | .trinvPacket packet => Sys2Proof.Machine.execTrinvPacket packet s
  | .gen packet => Sys2Proof.Machine.execGen packet s
  | .charge packet => Sys2Proof.Machine.execCharge packet s
  | .mgmt packet => Sys2Proof.Machine.execMgmt packet s
  | .notice packet => Sys2Proof.Machine.execNotice packet s
  | .sendPacket packet => Sys2Proof.Machine.execSendPacket packet s
  | .courierPacket packet => Sys2Proof.Machine.execCourierPacket packet s
  | .msendPacket packet => Sys2Proof.Machine.execMsendPacket packet s
  | .draywr packet => Sys2Proof.Machine.execDraywr packet s
  | .killPacket packet => Sys2Proof.Machine.execKillPacket packet s
  | .reply r => Sys2Proof.Machine.execReply r s
  | .reservedOpcode packet => Sys2Proof.Machine.execReservedOpcode packet s
  | .requestTimeout tag => Sys2Proof.Machine.execRequestTimeout tag s
  | .goneClear dev => Sys2Proof.Machine.execGoneClear dev s
  | .chargeSend => Sys2Proof.Machine.execChargeSend s
  | .snoopTimeout granule => Sys2Proof.Machine.execSnoopTimeout granule s
  | .peek keyid => Sys2Proof.Machine.execPeek keyid s
  | .reclaimKeep => Sys2Proof.Machine.execReclaimKeep s
  | .reclaimData keyid => Sys2Proof.Machine.execReclaimData keyid s
  | .doorbell offset size pasid value => Sys2Proof.Machine.execDoorbell offset size pasid value s
  | .queueCreate value => Sys2Proof.Machine.execQueueCreate value s
  | .destroy value => Sys2Proof.Machine.execDestroy value s
  | .destroyKill value => Sys2Proof.Machine.execDestroyKill value s
  | .queueResume value => Sys2Proof.Machine.execQueueResume value s
  | .packetFetch queue hostBytes => Sys2Proof.Machine.execPacketFetch queue hostBytes s
  | .fetchReread queue hostBytes => Sys2Proof.Machine.execFetchReread queue hostBytes s
  | .launchPacket queue => Sys2Proof.Machine.execLaunchPacket queue s
  | .relaunchPacket queue => Sys2Proof.Machine.execRelaunchPacket queue s
  | .coach queue => Sys2Proof.Machine.execCoach queue s
  | .destroyPacket queue => Sys2Proof.Machine.execDestroyPacket queue s
  | .signal queue => Sys2Proof.Machine.execSignal queue s
  | .waitmem queue => Sys2Proof.Machine.execWaitmem queue s
  | .waitmemPoll queue => Sys2Proof.Machine.execWaitmemPoll queue s
  | .nopPacket queue => Sys2Proof.Machine.execNopPacket queue s
  | .packetCompletion queue => Sys2Proof.Machine.execPacketCompletion queue s
  | .timesliceExpiry queues => Sys2Proof.Machine.execTimesliceExpiry queues s
  | .partitionReset mask => Sys2Proof.Machine.execPartitionReset mask s
  | .partcfgWrite value => Sys2Proof.Machine.execPartcfgWrite value s
  | .qhctlWrite value => Sys2Proof.Machine.execQhctlWrite value s
  | .ctxctlWrite value => Sys2Proof.Machine.execCtxctlWrite value s
  | .errorRingSetup toSize value => Sys2Proof.Machine.execErrorRingSetup toSize value s
  | .storageBlockWrite partition offset value => Sys2Proof.Machine.execStorageBlockWrite partition offset value s
  | .bar4Read offset length => Sys2Proof.Machine.execBar4Read offset length s
  | .bar4Write offset bytes relaxed => Sys2Proof.Machine.execBar4Write offset bytes relaxed s
  | .peerLoadTimeout agent => Sys2Proof.Machine.execPeerLoadTimeout agent s
  | .chunk cmd mctp => Sys2Proof.Machine.execChunk cmd mctp s
  | .commit cmd => Sys2Proof.Machine.execCommit cmd s
  | .attest mctpNonce => Sys2Proof.Machine.execAttest mctpNonce s
  | .reboot => Sys2Proof.Machine.execReboot s
  | .abort => Sys2Proof.Machine.execAbort s
  | .hotPatchApply => Sys2Proof.Machine.execHotPatchApply s
  | .patchTimeout => Sys2Proof.Machine.execPatchTimeout s
  | .bindRecordWrite cluster slot offset bytes => Sys2Proof.Machine.execBindRecordWrite cluster slot offset bytes s
  | .blockDispatch cluster slot core => Sys2Proof.Machine.execBlockDispatch cluster slot core s
  | .blockActivation strand => Sys2Proof.Machine.execBlockActivation strand s
  | .mfwWrite cluster value => Sys2Proof.Machine.execMfwWrite cluster value s
  | .cut arg => Sys2Proof.Machine.execCut arg s
  | .dispatchResume tile => Sys2Proof.Machine.execDispatchResume tile s
  | .kill ctx => Sys2Proof.Machine.execKill ctx s
  | .killFenceEnd ctx => Sys2Proof.Machine.execKillFenceEnd ctx s
  | .hold ctx => Sys2Proof.Machine.execHold ctx s
  | .release ctx => Sys2Proof.Machine.execRelease ctx s
  | .fareEstimate counted => Sys2Proof.Machine.execFareEstimate counted s
  | .fgrant value => Sys2Proof.Machine.execFgrant value s
  | .trinvRange value => Sys2Proof.Machine.execTrinvRange value s
  | .trinvAll value => Sys2Proof.Machine.execTrinvAll value s
  | .trinvGrants value => Sys2Proof.Machine.execTrinvGrants value s
  | .migReread agent => Sys2Proof.Machine.execMigReread agent s
  | .gearRailSettled tile => Sys2Proof.Machine.execGearRailSettled tile s
  | .l2RailLower cluster => Sys2Proof.Machine.execL2RailLower cluster s
  | .park tile => Sys2Proof.Machine.execPark tile s
  | .wake tile => Sys2Proof.Machine.execWake tile s
  | .lattolWrite partition value => Sys2Proof.Machine.execLattolWrite partition value s
  | .dragStep cluster => Sys2Proof.Machine.execDragStep cluster s
  | .clockMaskAdjust cluster powerW hot => Sys2Proof.Machine.execClockMaskAdjust cluster powerW hot s
  | .triggerLatch strand => Sys2Proof.Machine.execTriggerLatch strand s
  | .courierStart core => Sys2Proof.Machine.execCourierStart core s
  | .matrixCommandStart tile => Sys2Proof.Machine.execMatrixCommandStart tile s
  | .kStep tile => Sys2Proof.Machine.execKStep tile s
  | .draySegment tile channel => Sys2Proof.Machine.execDraySegment tile channel s
  | .drayApertureStart line channel data => Sys2Proof.Machine.execDrayApertureStart line channel data s
  | .storageCompletion tile channel cid statusOk => Sys2Proof.Machine.execStorageCompletion tile channel cid statusOk s
  | .storageTimeout tile channel cid => Sys2Proof.Machine.execStorageTimeout tile channel cid s
  | .streamTransfer strand q => Sys2Proof.Machine.execStreamTransfer strand q s
  | .feltCommandExecute array => Sys2Proof.Machine.execFeltCommandExecute array s
  | .feltLoadEnd array => Sys2Proof.Machine.execFeltLoadEnd array s
  | .settleDetect array => Sys2Proof.Machine.execSettleDetect array s
  | .feltRunmax array => Sys2Proof.Machine.execFeltRunmax array s
  | .feltSaturation array summer element => Sys2Proof.Machine.execFeltSaturation array summer element s
  | .holdTimeout array => Sys2Proof.Machine.execHoldTimeout array s
  | .feltConversion array => Sys2Proof.Machine.execFeltConversion array s
  | .calibration array => Sys2Proof.Machine.execCalibration array s
  | .carriagePiece coach index offset bytes => Sys2Proof.Machine.execCarriagePiece coach index offset bytes s
  | .carriageFetchFail coach index code => Sys2Proof.Machine.execCarriageFetchFail coach index code s
  | .eviction coach index => Sys2Proof.Machine.execEviction coach index s
  | .relaunchRound run => Sys2Proof.Machine.execRelaunchRound run s
  | .registerWrite window offset value => Sys2Proof.Machine.execRegisterWrite window offset value s
  | .settleTimeout agent => Sys2Proof.Machine.execSettleTimeout agent s
  | .peerReadCompletion agent ok bytes => Sys2Proof.Machine.execPeerReadCompletion agent ok bytes s
  | .partitionResetEnd partition => Sys2Proof.Machine.execPartitionResetEnd partition s
  | .matrixCommandEnd tile => Sys2Proof.Machine.execMatrixCommandEnd tile s
  | .carriageEvicted coach index => Sys2Proof.Machine.execCarriageEvicted coach index s
  | .l2RailRisen cluster => Sys2Proof.Machine.execL2RailRisen cluster s
  | .wearingLaneReplace port lane => Sys2Proof.Machine.execWearingLaneReplace port lane s
  | .lockAcquired port lanes => Sys2Proof.Machine.execLockAcquired port lanes s
  | .ill x => Sys2Proof.Machine.execIll x s
  | .add d a b w => Sys2Proof.Machine.execAdd d a b w s
  | .sub d a b w => Sys2Proof.Machine.execSub d a b w s
  | .and d a b w => Sys2Proof.Machine.execAnd d a b w s
  | .or d a b w => Sys2Proof.Machine.execOr d a b w s
  | .xor d a b w => Sys2Proof.Machine.execXor d a b w s
  | .andn d a b w => Sys2Proof.Machine.execAndn d a b w s
  | .sll d a b w => Sys2Proof.Machine.execSll d a b w s
  | .srl d a b w => Sys2Proof.Machine.execSrl d a b w s
  | .sra d a b w => Sys2Proof.Machine.execSra d a b w s
  | .slt d a b w => Sys2Proof.Machine.execSlt d a b w s
  | .sltu d a b w => Sys2Proof.Machine.execSltu d a b w s
  | .min d a b w => Sys2Proof.Machine.execMin d a b w s
  | .max d a b w => Sys2Proof.Machine.execMax d a b w s
  | .minu d a b w => Sys2Proof.Machine.execMinu d a b w s
  | .maxu d a b w => Sys2Proof.Machine.execMaxu d a b w s
  | .clz d a w => Sys2Proof.Machine.execClz d a w s
  | .ctz d a w => Sys2Proof.Machine.execCtz d a w s
  | .popc d a w => Sys2Proof.Machine.execPopc d a w s
  | .mul d a b w => Sys2Proof.Machine.execMul d a b w s
  | .mulh d a b => Sys2Proof.Machine.execMulh d a b s
  | .mulhu d a b => Sys2Proof.Machine.execMulhu d a b s
  | .mulhsu d a b => Sys2Proof.Machine.execMulhsu d a b s
  | .div d a b w => Sys2Proof.Machine.execDiv d a b w s
  | .divu d a b w => Sys2Proof.Machine.execDivu d a b w s
  | .rem d a b w => Sys2Proof.Machine.execRem d a b w s
  | .remu d a b w => Sys2Proof.Machine.execRemu d a b w s
  | .addi d a v_i => Sys2Proof.Machine.execAddi d a v_i s
  | .andi d a v_i => Sys2Proof.Machine.execAndi d a v_i s
  | .ori d a v_i => Sys2Proof.Machine.execOri d a v_i s
  | .xori d a v_i => Sys2Proof.Machine.execXori d a v_i s
  | .slli d a w v_s => Sys2Proof.Machine.execSlli d a w v_s s
  | .srli d a w v_s => Sys2Proof.Machine.execSrli d a w v_s s
  | .srai d a w v_s => Sys2Proof.Machine.execSrai d a w v_s s
  | .slti d a v_i => Sys2Proof.Machine.execSlti d a v_i s
  | .sltiu d a v_i => Sys2Proof.Machine.execSltiu d a v_i s
  | .lui d v_i => Sys2Proof.Machine.execLui d v_i s
  | .auipc d v_i => Sys2Proof.Machine.execAuipc d v_i s
  | .ldx d a b w => Sys2Proof.Machine.execLdx d a b w s
  | .fadd d a b p => Sys2Proof.Machine.execFadd d a b p s
  | .fsub d a b p => Sys2Proof.Machine.execFsub d a b p s
  | .fmul d a b p => Sys2Proof.Machine.execFmul d a b p s
  | .fdiv d a b p => Sys2Proof.Machine.execFdiv d a b p s
  | .fsqrt d a p => Sys2Proof.Machine.execFsqrt d a p s
  | .fmin d a b p => Sys2Proof.Machine.execFmin d a b p s
  | .fmax d a b p => Sys2Proof.Machine.execFmax d a b p s
  | .fsgnj d a b p => Sys2Proof.Machine.execFsgnj d a b p s
  | .fsgnjn d a b p => Sys2Proof.Machine.execFsgnjn d a b p s
  | .fsgnjx d a b p => Sys2Proof.Machine.execFsgnjx d a b p s
  | .feq d a b p => Sys2Proof.Machine.execFeq d a b p s
  | .flt d a b p => Sys2Proof.Machine.execFlt d a b p s
  | .fle d a b p => Sys2Proof.Machine.execFle d a b p s
  | .fmadd d a b c p => Sys2Proof.Machine.execFmadd d a b c p s
  | .fmsub d a b c p => Sys2Proof.Machine.execFmsub d a b c p s
  | .fnmadd d a b c p => Sys2Proof.Machine.execFnmadd d a b c p s
  | .fnmsub d a b c p => Sys2Proof.Machine.execFnmsub d a b c p s
  | .fcvt d a t v_s => Sys2Proof.Machine.execFcvt d a t v_s s
  | .fclass d a v_s => Sys2Proof.Machine.execFclass d a v_s s
  | .beq a b o => Sys2Proof.Machine.execBeq a b o s
  | .bne a b o => Sys2Proof.Machine.execBne a b o s
  | .blt a b o => Sys2Proof.Machine.execBlt a b o s
  | .bge a b o => Sys2Proof.Machine.execBge a b o s
  | .bltu a b o => Sys2Proof.Machine.execBltu a b o s
  | .bgeu a b o => Sys2Proof.Machine.execBgeu a b o s
  | .bmany a o => Sys2Proof.Machine.execBmany a o s
  | .bmnone a o => Sys2Proof.Machine.execBmnone a o s
  | .jal d v_i => Sys2Proof.Machine.execJal d v_i s
  | .jalr d a v_i => Sys2Proof.Machine.execJalr d a v_i s
  | .sysc d a c => Sys2Proof.Machine.execSysc d a c s
  | .brk c => Sys2Proof.Machine.execBrk c s
  | .exit => Sys2Proof.Machine.execExit s
  | .yield => Sys2Proof.Machine.execYield s
  | .svcRecv d a => Sys2Proof.Machine.execSvcRecv d a s
  | .svcResume d a c => Sys2Proof.Machine.execSvcResume d a c s
  | .svcKill a => Sys2Proof.Machine.execSvcKill a s
  | .csrr d n => Sys2Proof.Machine.execCsrr d n s
  | .csrw d a n => Sys2Proof.Machine.execCsrw d a n s
  | .csrs d a n => Sys2Proof.Machine.execCsrs d a n s
  | .csrc d a n => Sys2Proof.Machine.execCsrc d a n s
  | .gear d g => Sys2Proof.Machine.execGear d g s
  | .send d a b => Sys2Proof.Machine.execSend d a b s
  | .courier a b => Sys2Proof.Machine.execCourier a b s
  | .bind a b => Sys2Proof.Machine.execBind a b s
  | .unbind b => Sys2Proof.Machine.execUnbind b s
  | .launch d a b => Sys2Proof.Machine.execLaunch d a b s
  | .relaunch d a b l => Sys2Proof.Machine.execRelaunch d a b l s
  | .wbSkip a b => Sys2Proof.Machine.execWbSkip a b s
  | .wbAll => Sys2Proof.Machine.execWbAll s
  | .vadd d a b m e x => Sys2Proof.Machine.execVadd d a b m e x s
  | .vsub d a b m e x => Sys2Proof.Machine.execVsub d a b m e x s
  | .vand d a b m e x => Sys2Proof.Machine.execVand d a b m e x s
  | .vor d a b m e x => Sys2Proof.Machine.execVor d a b m e x s
  | .vxor d a b m e x => Sys2Proof.Machine.execVxor d a b m e x s
  | .vandn d a b m e x => Sys2Proof.Machine.execVandn d a b m e x s
  | .vsll d a b m e x => Sys2Proof.Machine.execVsll d a b m e x s
  | .vsrl d a b m e x => Sys2Proof.Machine.execVsrl d a b m e x s
  | .vsra d a b m e x => Sys2Proof.Machine.execVsra d a b m e x s
  | .vmin d a b m e x => Sys2Proof.Machine.execVmin d a b m e x s
  | .vmax d a b m e x => Sys2Proof.Machine.execVmax d a b m e x s
  | .vminu d a b m e x => Sys2Proof.Machine.execVminu d a b m e x s
  | .vmaxu d a b m e x => Sys2Proof.Machine.execVmaxu d a b m e x s
  | .vmul d a b m e x => Sys2Proof.Machine.execVmul d a b m e x s
  | .vmulh d a b m e x => Sys2Proof.Machine.execVmulh d a b m e x s
  | .vmulhu d a b m e x => Sys2Proof.Machine.execVmulhu d a b m e x s
  | .vsadd d a b m e x => Sys2Proof.Machine.execVsadd d a b m e x s
  | .vsaddu d a b m e x => Sys2Proof.Machine.execVsaddu d a b m e x s
  | .vssub d a b m e x => Sys2Proof.Machine.execVssub d a b m e x s
  | .vssubu d a b m e x => Sys2Proof.Machine.execVssubu d a b m e x s
  | .vfadd d a b m e x => Sys2Proof.Machine.execVfadd d a b m e x s
  | .vfsub d a b m e x => Sys2Proof.Machine.execVfsub d a b m e x s
  | .vfmul d a b m e x => Sys2Proof.Machine.execVfmul d a b m e x s
  | .vfdiv d a b m e x => Sys2Proof.Machine.execVfdiv d a b m e x s
  | .vfsqrt d a m e => Sys2Proof.Machine.execVfsqrt d a m e s
  | .vfmin d a b m e x => Sys2Proof.Machine.execVfmin d a b m e x s
  | .vfmax d a b m e x => Sys2Proof.Machine.execVfmax d a b m e x s
  | .vfsgnj d a b m e x => Sys2Proof.Machine.execVfsgnj d a b m e x s
  | .vfsgnjn d a b m e x => Sys2Proof.Machine.execVfsgnjn d a b m e x s
  | .vfsgnjx d a b m e x => Sys2Proof.Machine.execVfsgnjx d a b m e x s
  | .vfmadd d a b c m f => Sys2Proof.Machine.execVfmadd d a b c m f s
  | .vfmsub d a b c m f => Sys2Proof.Machine.execVfmsub d a b c m f s
  | .vfnmadd d a b c m f => Sys2Proof.Machine.execVfnmadd d a b c m f s
  | .vfnmsub d a b c m f => Sys2Proof.Machine.execVfnmsub d a b c m f s
  | .vcmpEq d a b m e x => Sys2Proof.Machine.execVcmpEq d a b m e x s
  | .vcmpNe d a b m e x => Sys2Proof.Machine.execVcmpNe d a b m e x s
  | .vcmpLt d a b m e x => Sys2Proof.Machine.execVcmpLt d a b m e x s
  | .vcmpGe d a b m e x => Sys2Proof.Machine.execVcmpGe d a b m e x s
  | .vcmpLtu d a b m e x => Sys2Proof.Machine.execVcmpLtu d a b m e x s
  | .vcmpGeu d a b m e x => Sys2Proof.Machine.execVcmpGeu d a b m e x s
  | .vfcmpEq d a b m e x => Sys2Proof.Machine.execVfcmpEq d a b m e x s
  | .vfcmpNe d a b m e x => Sys2Proof.Machine.execVfcmpNe d a b m e x s
  | .vfcmpLt d a b m e x => Sys2Proof.Machine.execVfcmpLt d a b m e x s
  | .vfcmpLe d a b m e x => Sys2Proof.Machine.execVfcmpLe d a b m e x s
  | .vfcmpUo d a b m e x => Sys2Proof.Machine.execVfcmpUo d a b m e x s
  | .vredsum d a b m e => Sys2Proof.Machine.execVredsum d a b m e s
  | .vredmin d a b m e => Sys2Proof.Machine.execVredmin d a b m e s
  | .vredmax d a b m e => Sys2Proof.Machine.execVredmax d a b m e s
  | .vredminu d a b m e => Sys2Proof.Machine.execVredminu d a b m e s
  | .vredmaxu d a b m e => Sys2Proof.Machine.execVredmaxu d a b m e s
  | .vredand d a b m e => Sys2Proof.Machine.execVredand d a b m e s
  | .vredor d a b m e => Sys2Proof.Machine.execVredor d a b m e s
  | .vredxor d a b m e => Sys2Proof.Machine.execVredxor d a b m e s
  | .vscan d a b m e => Sys2Proof.Machine.execVscan d a b m e s
  | .vfredo d a b m e => Sys2Proof.Machine.execVfredo d a b m e s
  | .vfredp d a b m e => Sys2Proof.Machine.execVfredp d a b m e s
  | .vfredmino d a b m e => Sys2Proof.Machine.execVfredmino d a b m e s
  | .vfredmaxo d a b m e => Sys2Proof.Machine.execVfredmaxo d a b m e s
  | .vfredminp d a b m e => Sys2Proof.Machine.execVfredminp d a b m e s
  | .vfredmaxp d a b m e => Sys2Proof.Machine.execVfredmaxp d a b m e s
  | .vfscano d a b m e => Sys2Proof.Machine.execVfscano d a b m e s
  | .vbcast d a m e => Sys2Proof.Machine.execVbcast d a m e s
  | .vextract d a b e => Sys2Proof.Machine.execVextract d a b e s
  | .vinsert d a b e => Sys2Proof.Machine.execVinsert d a b e s
  | .vslideup d a b m e => Sys2Proof.Machine.execVslideup d a b m e s
  | .vslidedown d a b m e => Sys2Proof.Machine.execVslidedown d a b m e s
  | .vperm d a b m e => Sys2Proof.Machine.execVperm d a b m e s
  | .vsel d a b m e => Sys2Proof.Machine.execVsel d a b m e s
  | .vsext d a m e h => Sys2Proof.Machine.execVsext d a m e h s
  | .vzext d a m e h => Sys2Proof.Machine.execVzext d a m e h s
  | .vnarrow d a b m e => Sys2Proof.Machine.execVnarrow d a b m e s
  | .vnarrowsu d a b m e => Sys2Proof.Machine.execVnarrowsu d a b m e s
  | .vnarrowu d a b m e => Sys2Proof.Machine.execVnarrowu d a b m e s
  | .vtrunc d a b m e => Sys2Proof.Machine.execVtrunc d a b m e s
  | .vfwiden d a m e h => Sys2Proof.Machine.execVfwiden d a m e h s
  | .vfwidenBf d a m e h => Sys2Proof.Machine.execVfwidenBf d a m e h s
  | .vfnarrow d a b m e => Sys2Proof.Machine.execVfnarrow d a b m e s
  | .vfcvtFX d a b m e => Sys2Proof.Machine.execVfcvtFX d a b m e s
  | .vfcvtFXu d a b m e => Sys2Proof.Machine.execVfcvtFXu d a b m e s
  | .vfcvtXF d a b m e => Sys2Proof.Machine.execVfcvtXF d a b m e s
  | .vfcvtXuF d a b m e => Sys2Proof.Machine.execVfcvtXuF d a b m e s
  | .vps8 d a m e p => Sys2Proof.Machine.execVps8 d a m e p s
  | .mand d a b => Sys2Proof.Machine.execMand d a b s
  | .mor d a b => Sys2Proof.Machine.execMor d a b s
  | .mxor d a b => Sys2Proof.Machine.execMxor d a b s
  | .mandn d a b => Sys2Proof.Machine.execMandn d a b s
  | .mnot d a => Sys2Proof.Machine.execMnot d a s
  | .mset d a => Sys2Proof.Machine.execMset d a s
  | .mget d a => Sys2Proof.Machine.execMget d a s
  | .mpopc d a => Sys2Proof.Machine.execMpopc d a s
  | .mfirst d a => Sys2Proof.Machine.execMfirst d a s
  | .mfirstn d a => Sys2Proof.Machine.execMfirstn d a s
  | .vld d a o => Sys2Proof.Machine.execVld d a o s
  | .vst v_s a o => Sys2Proof.Machine.execVst v_s a o s
  | .vldm d a m e => Sys2Proof.Machine.execVldm d a m e s
  | .vlds d a b m e => Sys2Proof.Machine.execVlds d a b m e s
  | .vgath d a b m e => Sys2Proof.Machine.execVgath d a b m e s
  | .vstm v_s a m e => Sys2Proof.Machine.execVstm v_s a m e s
  | .vsts v_s a b m e => Sys2Proof.Machine.execVsts v_s a b m e s
  | .vscat v_s a b m e => Sys2Proof.Machine.execVscat v_s a b m e s
  | .ld d a w o => Sys2Proof.Machine.execLd d a w o s
  | .st v_s a w o => Sys2Proof.Machine.execSt v_s a w o s
  | .amoadd d a b v_s r q z => Sys2Proof.Machine.execAmoadd d a b v_s r q z s
  | .amoand d a b v_s r q z => Sys2Proof.Machine.execAmoand d a b v_s r q z s
  | .amoor d a b v_s r q z => Sys2Proof.Machine.execAmoor d a b v_s r q z s
  | .amoxor d a b v_s r q z => Sys2Proof.Machine.execAmoxor d a b v_s r q z s
  | .amomin d a b v_s r q z => Sys2Proof.Machine.execAmomin d a b v_s r q z s
  | .amomax d a b v_s r q z => Sys2Proof.Machine.execAmomax d a b v_s r q z s
  | .amominu d a b v_s r q z => Sys2Proof.Machine.execAmominu d a b v_s r q z s
  | .amomaxu d a b v_s r q z => Sys2Proof.Machine.execAmomaxu d a b v_s r q z s
  | .amoswap d a b v_s r q z => Sys2Proof.Machine.execAmoswap d a b v_s r q z s
  | .amocas d a b v_s r q z => Sys2Proof.Machine.execAmocas d a b v_s r q z s
  | .fence v_s k => Sys2Proof.Machine.execFence v_s k s
  | .ldsync d a w => Sys2Proof.Machine.execLdsync d a w s
  | .stfe a => Sys2Proof.Machine.execStfe a s
  | .feclr a => Sys2Proof.Machine.execFeclr a s
  | .waitv d a b v_s c w => Sys2Proof.Machine.execWaitv d a b v_s c w s
  | .ldAcq d a v_s w => Sys2Proof.Machine.execLdAcq d a v_s w s
  | .stRel d a v_s w => Sys2Proof.Machine.execStRel d a v_s w s
  | .barInit a b => Sys2Proof.Machine.execBarInit a b s
  | .barExpect a b => Sys2Proof.Machine.execBarExpect a b s
  | .barArrive d a => Sys2Proof.Machine.execBarArrive d a s
  | .barArriveC a b => Sys2Proof.Machine.execBarArriveC a b s
  | .barWait d a b => Sys2Proof.Machine.execBarWait d a b s
  | .barWaitDoze d a b => Sys2Proof.Machine.execBarWaitDoze d a b s
  | .barTest d a b => Sys2Proof.Machine.execBarTest d a b s
  | .stashMap d a b => Sys2Proof.Machine.execStashMap d a b s
  | .stashUnmap a => Sys2Proof.Machine.execStashUnmap a s
  | .stashFlush a => Sys2Proof.Machine.execStashFlush a s
  | .cacheResize d a => Sys2Proof.Machine.execCacheResize d a s
  | .pref a => Sys2Proof.Machine.execPref a s
  | .cflush a => Sys2Proof.Machine.execCflush a s
  | .cwait d a => Sys2Proof.Machine.execCwait d a s
  | .crel a => Sys2Proof.Machine.execCrel a s
  | .ctest d a => Sys2Proof.Machine.execCtest d a s
  | .accAlloc d a k => Sys2Proof.Machine.execAccAlloc d a k s
  | .accFree a => Sys2Proof.Machine.execAccFree a s
  | .accZero a => Sys2Proof.Machine.execAccZero a s
  | .accRd d a b e => Sys2Proof.Machine.execAccRd d a b e s
  | .accWr d a b => Sys2Proof.Machine.execAccWr d a b s
  | .accSt d a b => Sys2Proof.Machine.execAccSt d a b s
  | .pld d a b => Sys2Proof.Machine.execPld d a b s
  | .pst d a b => Sys2Proof.Machine.execPst d a b s
  | .pzero d => Sys2Proof.Machine.execPzero d s
  | .mmaBf16 c a b z => Sys2Proof.Machine.execMmaBf16 c a b z s
  | .mmaFp16 c a b z => Sys2Proof.Machine.execMmaFp16 c a b z s
  | .mmaPs8 c a b z => Sys2Proof.Machine.execMmaPs8 c a b z s
  | .mmaPs4 c a b z => Sys2Proof.Machine.execMmaPs4 c a b z s
  | .mmaTern c a b z => Sys2Proof.Machine.execMmaTern c a b z s
  | .mmaFp64 c a b z => Sys2Proof.Machine.execMmaFp64 c a b z s
  | .mscale d a r v_s => Sys2Proof.Machine.execMscale d a r v_s s
  | .mout d a o n => Sys2Proof.Machine.execMout d a o n s
  | .msend a => Sys2Proof.Machine.execMsend a s
  | .mwait d => Sys2Proof.Machine.execMwait d s
  | .drayTpl a v_s => Sys2Proof.Machine.execDrayTpl a v_s s
  | .drayGo d a b c v_s => Sys2Proof.Machine.execDrayGo d a b c v_s s
  | .draySlack a b => Sys2Proof.Machine.execDraySlack a b s
  | .drayCancel a => Sys2Proof.Machine.execDrayCancel a s
  | .drayStat d a => Sys2Proof.Machine.execDrayStat d a s
  | .drayAper a => Sys2Proof.Machine.execDrayAper a s
  | .strmBind d a => Sys2Proof.Machine.execStrmBind d a s
  | .strmUnbind d => Sys2Proof.Machine.execStrmUnbind d s
  | .strmPos d b => Sys2Proof.Machine.execStrmPos d b s
  | .feltCfg a b k v_s => Sys2Proof.Machine.execFeltCfg a b k v_s s
  | .feltScale a b k v_s => Sys2Proof.Machine.execFeltScale a b k v_s s
  | .feltIc a b k v_s => Sys2Proof.Machine.execFeltIc a b k v_s s
  | .feltRun b k v_s => Sys2Proof.Machine.execFeltRun b k v_s s
  | .feltSettle d a k => Sys2Proof.Machine.execFeltSettle d a k s
  | .feltSample a b k g => Sys2Proof.Machine.execFeltSample a b k g s
  | .feltHalt k => Sys2Proof.Machine.execFeltHalt k s
  | .feltStat d k => Sys2Proof.Machine.execFeltStat d k s
  | .ximm p => Sys2Proof.Machine.execXimm p s
  | .hintNop => Sys2Proof.Machine.execHintNop s
  | .hintTaken t => Sys2Proof.Machine.execHintTaken t s
  | .hintSpin n => Sys2Proof.Machine.execHintSpin n s
  | .hintKeep => Sys2Proof.Machine.execHintKeep s
  | .modFrm r => Sys2Proof.Machine.execModFrm r s
  | .modQsel q => Sys2Proof.Machine.execModQsel q s

end Sys2Proof.Machine
end

