-- ==== Sys2Proof/WellFormed.lean ====
section
/-!
DEFINITION. Which terms of `Instr` are legal. For an instruction word: the field values that its chapter does not reserve (11 R271); a
reserved one decodes and raises ILLEGAL when it is executed. For a step of the device: the numbers of units that the SK7 has.
-/
namespace Sys2Proof

/-! ## Fields of words -/

/-- A word shift of 32 or more is reserved (12 R295). -/
def shiftLegal (w : BitVec 1) (s : BitVec 6) : Bool := decide (w = 0) || decide (s.toNat < 32)
/-- A load's width code (14 R323). -/
def widthLegal (w : BitVec 3) : Bool := decide (w ≠ 7)
/-- A scope code (14 R329, R331). -/
def scopeLegal (s : BitVec 3) : Bool := decide (s.toNat < 6)
/-- A mask or stream register number in a 5-bit field. -/
def isMask (r : BitVec 5) : Bool := decide (r.toNat < 8)
/-- An accumulator name, panel or shape number in a 5-bit field (15 R350, R354). -/
def isName (r : BitVec 5) : Bool := decide (r.toNat < 16)
/-- Floating-point and integer type codes (12 R301). -/
def floatCode (c : BitVec 4) : Bool := decide (c.toNat < 4)
def integerCode (c : BitVec 4) : Bool := decide (8 ≤ c.toNat) && decide (c.toNat < 12)
/-- A conversion's type codes: assigned, different, not both integers. -/
def convertLegal (t s : BitVec 4) : Bool :=
  (floatCode t || integerCode t) && (floatCode s || integerCode s) && decide (t ≠ s) && !(integerCode t && integerCode s)
/-- A part of the bytes that lies in the vector (13 R320). -/
def partLegal (e : BitVec 2) (p : BitVec 3) : Bool := decide (p.toNat < (if e.toNat < 2 then 2 else if e = 2 then 4 else 8))
/-- The A panels of an MMA form lie among the sixteen (15 R356). -/
def panelsLegal (form : Nat) (a : BitVec 4) : Bool := decide (a.toNat + (if form = 2 then 2 else if form = 3 then 4 else if form = 4 then 8 else 1) ≤ 16)

/-! ## Numbers of units (00 R2, 01 R45, R413) -/

def isTile (n : Nat) : Bool := decide (n < 1024)
def isCluster (n : Nat) : Bool := decide (n < 128)
def isCore (n : Nat) : Bool := decide (n < 4096)
def isStrand (n : Nat) : Bool := decide (n < 16384)
def isLane (n : Nat) : Bool := decide (n < 9)
def isDevice (n : Nat) : Bool := decide (n < 8192)
def isSource (n : Nat) : Bool := decide (n < 0x8000)
def isQueue (n : Nat) : Bool := decide (n < 65536)
def isAligned (n : Nat) : Bool := decide (n % 8 = 0)
def isPosition (die position : Nat) : Bool := decide (die < 8) && decide (position < 128)
/-- A host access of 1 to 4,096 bytes of BAR4 (02 R54). -/
def isBar4 (offset n : Nat) : Bool := decide (0 < n) && decide (n ≤ 4096) && decide (offset + n ≤ 2 ^ 41)
/-- A strand, a courier slot, or one of the numbers that engines and queues, and from 2^40 on carriages, use for their own reads. -/
def isAgent (a : Agent) : Bool :=
  match a with
  | .strand n => decide (n < 16384)
  | .courier n => decide (n < 131072) || decide (2 ^ 40 ≤ n)
def wearLegal (w : Wear) : Bool :=
  match w with
  | .tile die position => isPosition die position
  | .row stack pc _ _ => decide (stack < 16) && decide (pc < 32)
  | .channel stack pc => decide (stack < 16) && decide (pc < 32)
  | .lane port lane => decide (port < 36) && isLane lane
  | .feltColumn array _ => decide (array < 8)
/-- A flit has 256 bytes (01 R19). -/
def isFlit (bytes : List Byte) : Bool := decide (bytes.length = 256)
/-- A packet's body (01 R21). -/
def packetLegal (p : Packet) : Bool := decide (p.body.length < 65536)
def packetFrom (r : FaultReply) : Bool := r.from?.all packetLegal

/-- Whether a term is a legal instruction or step. -/
def wellFormed (i : Instr) : Bool :=
  match i with
  | .packageReset .. | .ppsEdge .. | .timeOfDayMessage .. => true
  | .junctionThrottle source => isSource source
  | .junctionShutdown source => isSource source
  | .wearTrigger w => wearLegal w
  | .spareSwap w => wearLegal w
  | .roleMove die position => isPosition die position
  | .lossOfLock _ lane => isLane lane
  | .healthWindow cycles => cycles.all (fun e => isTile e.1)
  | .timingReplay tile => isTile tile
  | .idleFlit _ flit => isFlit flit
  | .dataFlit _ flit => isFlit flit
  | .ackFlit _ flit => isFlit flit
  | .nakFlit _ flit => isFlit flit
  | .trainFlit _ flit => isFlit flit
  | .replayTimeout .. | .ackTimer .. | .nakHoldoffExpiry .. | .linkRetryBound .. | .trainingTimeout .. | .partnerReset ..
  | .noticeRecord .. => true
  | .classOHoldEnd dest => isDevice dest
  | .portDisable .. | .portTrain .. | .portReset .. | .swreq .. | .bankSwitch .. => true
  | .routingBankWrite offset _ => decide (0x120000 ≤ offset) && decide (offset < 0x140080) && isAligned offset
  | .devnumWrite .. => true
  | .transitPacket _ packet => packetLegal packet
  | .rd packet => packetLegal packet
  | .rdx packet => packetLegal packet
  | .wr packet => packetLegal packet
  | .amoPacket packet => packetLegal packet
  | .wb packet => packetLegal packet
  | .snp packet => packetLegal packet
  | .snprsp packet => packetLegal packet
  | .dataPacket packet => packetLegal packet
  | .ackPacket packet => packetLegal packet
  | .inv packet => packetLegal packet
  | .trinvPacket packet => packetLegal packet
  | .gen packet => packetLegal packet
  | .charge packet => packetLegal packet
  | .mgmt packet => packetLegal packet
  | .notice packet => packetLegal packet
  | .sendPacket packet => packetLegal packet
  | .courierPacket packet => packetLegal packet
  | .msendPacket packet => packetLegal packet
  | .draywr packet => packetLegal packet
  | .killPacket packet => packetLegal packet
  | .reply r => packetFrom r
  | .reservedOpcode packet => packetLegal packet
  | .requestTimeout .. => true
  | .goneClear dev => isDevice dev
  | .chargeSend .. => true
  | .snoopTimeout granule => decide (granule < 2 ^ 38)
  | .peek .. | .reclaimKeep .. | .reclaimData .. => true
  | .doorbell offset size _ _ => decide (offset < 32768) && decide (size ≤ 64)
  | .queueCreate .. | .destroy .. | .destroyKill .. | .queueResume .. => true
  | .packetFetch queue _ => isQueue queue
  | .fetchReread queue _ => isQueue queue
  | .launchPacket queue => isQueue queue
  | .relaunchPacket queue => isQueue queue
  | .coach queue => isQueue queue
  | .destroyPacket queue => isQueue queue
  | .signal queue => isQueue queue
  | .waitmem queue => isQueue queue
  | .waitmemPoll queue => isQueue queue
  | .nopPacket queue => isQueue queue
  | .packetCompletion queue => isQueue queue
  | .timesliceExpiry queues => queues.all isQueue
  | .partitionReset .. | .partcfgWrite .. | .qhctlWrite .. | .ctxctlWrite .. | .errorRingSetup .. => true
  | .storageBlockWrite _ offset _ => decide (offset < 64) && isAligned offset
  | .bar4Read offset length => isBar4 offset length
  | .bar4Write offset bytes _ => isBar4 offset bytes.length
  | .peerLoadTimeout agent => isAgent agent
  | .chunk .. | .commit .. | .attest .. | .reboot .. | .abort .. | .hotPatchApply .. | .patchTimeout .. => true
  | .bindRecordWrite cluster slot offset bytes => isCluster cluster && decide (slot < 128) && decide (offset + bytes.length ≤ 64)
  | .blockDispatch cluster slot core => isCluster cluster && decide (slot < 128) && isCore core
  | .blockActivation strand => isStrand strand
  | .mfwWrite cluster _ => isCluster cluster
  | .cut .. | .dispatchResume .. | .kill .. | .killFenceEnd .. | .hold .. | .release .. | .fareEstimate .. | .fgrant .. | .trinvRange ..
  | .trinvAll .. | .trinvGrants .. => true
  | .migReread agent => isAgent agent
  | .gearRailSettled tile => isTile tile
  | .l2RailLower cluster => isCluster cluster
  | .park tile => isTile tile
  | .wake tile => isTile tile
  | .lattolWrite .. => true
  | .dragStep cluster => isCluster cluster
  | .clockMaskAdjust cluster _ _ => isCluster cluster
  | .triggerLatch strand => isStrand strand
  | .courierStart core => isCore core
  | .matrixCommandStart tile => isTile tile
  | .kStep tile => isTile tile
  | .draySegment tile _ => isTile tile
  | .drayApertureStart line _ _ => isTile line.1
  | .storageCompletion tile _ _ _ => isTile tile
  | .storageTimeout tile _ _ => isTile tile
  | .streamTransfer strand _ => isStrand strand
  | .feltCommandExecute .. | .feltLoadEnd .. | .settleDetect .. | .feltRunmax .. => true
  | .feltSaturation _ _ element => decide (element < 512)
  | .holdTimeout .. | .feltConversion .. | .calibration .. => true
  | .carriagePiece _ index offset bytes => decide (index < 4096) && decide (offset % 4096 = 0) && decide (bytes.length ≤ 4096)
  | .carriageFetchFail _ index _ => decide (index < 4096)
  | .eviction _ index => decide (index < 4096)
  | .relaunchRound .. => true
  | .registerWrite _ offset _ => isAligned offset && decide (offset < 0x1000000)
  | .settleTimeout agent => isAgent agent
  | .peerReadCompletion agent _ _ => isAgent agent
  | .partitionResetEnd .. => true
  | .matrixCommandEnd tile => isTile tile
  | .carriageEvicted _ index => decide (index < 4096)
  | .l2RailRisen cluster => isCluster cluster
  | .wearingLaneReplace _ lane => isLane lane
  | .lockAcquired .. => true
  | .ill _ => false
  | .add .. | .sub .. | .and .. | .or .. | .xor .. | .andn .. | .sll .. | .srl .. | .sra .. | .slt .. | .sltu .. | .min .. | .max ..
  | .minu .. | .maxu .. | .clz .. | .ctz .. | .popc .. | .mul .. | .mulh .. | .mulhu .. | .mulhsu .. | .div .. | .divu .. | .rem ..
  | .remu .. | .addi .. | .andi .. | .ori .. | .xori .. => true
  | .slli _ _ w s => shiftLegal w s
  | .srli _ _ w s => shiftLegal w s
  | .srai _ _ w s => shiftLegal w s
  | .slti .. | .sltiu .. | .lui .. | .auipc .. => true
  | .ldx _ _ _ w => widthLegal w
  | .fadd .. | .fsub .. | .fmul .. | .fdiv .. | .fsqrt .. | .fmin .. | .fmax .. | .fsgnj .. | .fsgnjn .. | .fsgnjx .. | .feq .. | .flt ..
  | .fle .. | .fmadd .. | .fmsub .. | .fnmadd .. | .fnmsub .. => true
  | .fcvt _ _ t s => convertLegal t s
  | .fclass _ _ s => floatCode s
  | .beq .. | .bne .. | .blt .. | .bge .. | .bltu .. | .bgeu .. => true
  | .bmany a _ => isMask a
  | .bmnone a _ => isMask a
  | .jal .. | .jalr .. | .sysc .. | .brk .. | .exit .. | .yield .. | .svcRecv .. => true
  | .svcResume _ _ c => decide (c.toNat < 3)
  | .svcKill .. | .csrr .. | .csrw .. | .csrs .. | .csrc .. | .gear .. | .send .. | .courier .. | .bind .. | .unbind .. | .launch ..
  | .relaunch .. | .wbSkip .. | .wbAll .. | .vadd .. | .vsub .. | .vand .. | .vor .. | .vxor .. | .vandn .. | .vsll .. | .vsrl ..
  | .vsra .. | .vmin .. | .vmax .. | .vminu .. | .vmaxu .. | .vmul .. | .vmulh .. | .vmulhu .. | .vsadd .. | .vsaddu .. | .vssub ..
  | .vssubu .. | .vfadd .. | .vfsub .. | .vfmul .. | .vfdiv .. | .vfsqrt .. | .vfmin .. | .vfmax .. | .vfsgnj .. | .vfsgnjn ..
  | .vfsgnjx .. | .vfmadd .. | .vfmsub .. | .vfnmadd .. | .vfnmsub .. => true
  | .vcmpEq d _ _ _ _ _ => isMask d
  | .vcmpNe d _ _ _ _ _ => isMask d
  | .vcmpLt d _ _ _ _ _ => isMask d
  | .vcmpGe d _ _ _ _ _ => isMask d
  | .vcmpLtu d _ _ _ _ _ => isMask d
  | .vcmpGeu d _ _ _ _ _ => isMask d
  | .vfcmpEq d _ _ _ _ _ => isMask d
  | .vfcmpNe d _ _ _ _ _ => isMask d
  | .vfcmpLt d _ _ _ _ _ => isMask d
  | .vfcmpLe d _ _ _ _ _ => isMask d
  | .vfcmpUo d _ _ _ _ _ => isMask d
  | .vredsum .. | .vredmin .. | .vredmax .. | .vredminu .. | .vredmaxu .. | .vredand .. | .vredor .. | .vredxor .. | .vscan .. | .vfredo ..
  | .vfredp .. | .vfredmino .. | .vfredmaxo .. | .vfredminp .. | .vfredmaxp .. | .vfscano .. | .vbcast .. | .vextract .. | .vinsert ..
  | .vslideup .. | .vslidedown .. | .vperm .. | .vsel .. | .vsext .. | .vzext .. => true
  | .vnarrow _ _ _ _ e => decide (e ≠ 3)
  | .vnarrowsu _ _ _ _ e => decide (e ≠ 3)
  | .vnarrowu _ _ _ _ e => decide (e ≠ 3)
  | .vtrunc _ _ _ _ e => decide (e ≠ 3)
  | .vfwiden _ _ _ e _ => decide (2 ≤ e.toNat)
  | .vfwidenBf _ _ _ e _ => decide (e = 2)
  | .vfnarrow _ _ _ _ e => decide (e ≠ 3)
  | .vfcvtFX _ _ b _ _ => decide (b = 0)
  | .vfcvtFXu _ _ b _ _ => decide (b = 0)
  | .vfcvtXF _ _ b _ _ => decide (b = 0)
  | .vfcvtXuF _ _ b _ _ => decide (b = 0)
  | .vps8 _ _ _ e p => partLegal e p
  | .mand d a b => isMask d && isMask a && isMask b
  | .mor d a b => isMask d && isMask a && isMask b
  | .mxor d a b => isMask d && isMask a && isMask b
  | .mandn d a b => isMask d && isMask a && isMask b
  | .mnot d a => isMask d && isMask a
  | .mset d _ => isMask d
  | .mget _ a => isMask a
  | .mpopc _ a => isMask a
  | .mfirst _ a => isMask a
  | .mfirstn d _ => isMask d
  | .vld .. | .vst .. | .vldm .. | .vlds .. | .vgath .. | .vstm .. | .vsts .. | .vscat .. => true
  | .ld _ _ w _ => widthLegal w
  | .st .. => true
  | .amoadd _ _ _ s r q _ => scopeLegal s && (decide (s = 0) || decide (r = 1) || decide (q = 1))
  | .amoand _ _ _ s r q _ => scopeLegal s && (decide (s = 0) || decide (r = 1) || decide (q = 1))
  | .amoor _ _ _ s r q _ => scopeLegal s && (decide (s = 0) || decide (r = 1) || decide (q = 1))
  | .amoxor _ _ _ s r q _ => scopeLegal s && (decide (s = 0) || decide (r = 1) || decide (q = 1))
  | .amomin _ _ _ s r q _ => scopeLegal s && (decide (s = 0) || decide (r = 1) || decide (q = 1))
  | .amomax _ _ _ s r q _ => scopeLegal s && (decide (s = 0) || decide (r = 1) || decide (q = 1))
  | .amominu _ _ _ s r q _ => scopeLegal s && (decide (s = 0) || decide (r = 1) || decide (q = 1))
  | .amomaxu _ _ _ s r q _ => scopeLegal s && (decide (s = 0) || decide (r = 1) || decide (q = 1))
  | .amoswap _ _ _ s r q _ => scopeLegal s && (decide (s = 0) || decide (r = 1) || decide (q = 1))
  | .amocas _ _ _ s r q _ => scopeLegal s && (decide (s = 0) || decide (r = 1) || decide (q = 1))
  | .fence s k => scopeLegal s && decide (k ≠ 0)
  | .ldsync _ _ w => widthLegal w
  | .stfe .. | .feclr .. => true
  | .waitv _ _ _ s _ w => scopeLegal s && widthLegal w
  | .ldAcq _ _ s w => scopeLegal s && widthLegal w
  | .stRel _ _ s _ => scopeLegal s
  | .barInit .. | .barExpect .. | .barArrive .. | .barArriveC .. | .barWait .. | .barWaitDoze .. | .barTest .. | .stashMap ..
  | .stashUnmap .. | .stashFlush .. | .cacheResize .. | .pref .. | .cflush .. | .cwait .. | .crel .. | .ctest .. => true
  | .accAlloc d _ _ => isName d
  | .accFree a => isName a
  | .accZero a => isName a
  | .accRd _ a _ _ => isName a
  | .accWr _ a _ => isName a
  | .accSt _ a _ => isName a
  | .pld d _ _ => isName d
  | .pst d _ _ => isName d
  | .pzero d => isName d
  | .mmaBf16 _ a _ _ => panelsLegal 0 a
  | .mmaFp16 _ a _ _ => panelsLegal 1 a
  | .mmaPs8 _ a _ _ => panelsLegal 2 a
  | .mmaPs4 _ a _ _ => panelsLegal 3 a
  | .mmaTern _ a _ _ => panelsLegal 4 a
  | .mmaFp64 _ a _ _ => panelsLegal 5 a
  | .mscale .. => true
  | .mout _ _ _ n => decide (n.toNat ≤ 8)
  | .msend .. | .mwait .. | .drayTpl .. | .drayGo .. | .draySlack .. | .drayCancel .. | .drayStat .. | .drayAper .. => true
  | .strmBind d _ => isMask d
  | .strmUnbind d => isMask d
  | .strmPos _ b => isMask b
  | .feltCfg .. | .feltScale .. | .feltIc .. | .feltRun .. | .feltSettle .. | .feltSample .. | .feltHalt .. | .feltStat .. | .ximm ..
  | .hintNop .. | .hintTaken .. | .hintSpin .. | .hintKeep .. => true
  | .modFrm r => decide (r.toNat < 5)
  | .modQsel .. => true

end Sys2Proof
end

