-- ==== Sys2Proof/Machine/Turn.lean ====
section
/-!
DEFINITION. What one step of the machine is: a pending step of the device, or the next word of the issuing agent (assumption logs 1, 2);
and how a word is put where that agent fetches next.
-/
namespace Sys2Proof.Machine

/-- A pending step of the device. A term that is an instruction word, or names a unit the SK7 does not have, is no step. -/
def eventStep (i : Instr) (s : State) : Out := if (encode i).isNone && wellFormed i then exec i s else .next s

/-- A word that the issuing agent has fetched: it is executed, or it is no instruction and raises ILLEGAL (11 R271). -/
noncomputable def wordStep (w : Word32) (s : State) : Out :=
  match decodeWord w with
  | .ok i => exec i s
  | .error _ => .next (takeFault s (undecodable s w))

/-- The issuing agent's part of a step. -/
noncomputable def agentStep (s : State) : Out :=
  match nextWord s with
  | .made s1 => .next s1
  | .word w s1 => wordStep w s1

/-- One step: what must happen at once, in order; else a pending step or the agent's, as a free value says. -/
noncomputable def turn (s : State) : Out :=
  match s.urgent with
  | i :: rest => eventStep i { s with urgent := rest }
  | [] =>
    match s.agenda with
    | [] => agentStep s
    | i :: rest =>
      let s1 := { s with free := s.free + 1 }
      if Config.freeTurn s.free then eventStep i { s1 with agenda := rest } else agentStep s1

/-- What hardware has done by the time a step begins: the error records of the ticks that are over, and the waybills' own writes. -/
def betweenSteps (s : State) : State := regionsOut (recordsOut s)

/-! ## A word at the place of the next fetch -/

/-- An address from which a block-mode agent can fetch: canonical, aligned, outside the windows. -/
def fetchable (va : Nat) : Bool := decide (va < 2 ^ 57) && va % 4 = 0 && !inWindow va && !inOstler va

/-- The cluster's line of an address with the word in it; memory behind the line has the same bytes. -/
def lineWith (s : State) (c va : Nat) (w : Word32) : State :=
  let put := fun (v : Vec) => vecOfBytes (patch (vecBytes v) (va % 64) (leBytes 4 w.toNat))
  match l2Find s c (va / 64) with
  | some l =>
    if l.dev = devnum s then physWrite (l2Update s c (va / 64) (fun l => { l with poison := false, bad := false })) (l.pa + va % 64) (leBytes 4 w.toNat)
    else l2Update s c (va / 64) (fun l => { l with poison := false, bad := false, data := put l.data })
  | none =>
    let (pa, key) : Nat × BitVec 8 := match walk s va with
      | .ok dev pa key _ _ => if dev = devnum s && decide (pa < hbmSize) then (pa, key) else (va % hbmSize, 0)
      | _ => (va % hbmSize, 0)
    let s1 := physWriteKey s pa key (leBytes 4 w.toNat)
    let line : L2Line :=
      { cluster := c, vline := va / 64, dev := devnum s, pa := pa / 64 * 64, key := key, owned := false, dirty := false, poison := false, tags := [],
        data := vecOfBytes (physRead s1 (pa / 64 * 64) 64) }
    modDir { s1 with l2 := s1.l2 ++ [line] } (pa / 64) (fun d =>
      { d with
        st := if d.st = .uncached then .shared else d.st
        clusters := with1 d.clusters c })

/-- A core's lookaside entry that lets a context fetch at an address, where its first covering entry does not. -/
def grantFetch (s : State) (core : Nat) (pdom : BitVec 16) (va : Nat) : State :=
  match (getCore s core).plb.find? (fun e => e.pdom == pdom && covers e va 4) with
  | some e =>
    if e.rights.getLsbD 2 then s
    else modCore s core (fun u => { u with plb := u.plb.map (fun x => if x = e then { x with rights := x.rights ||| 4 } else x) })
  | none => modCore s core (fun u => { u with plb := ({ base := va / 65536 * 65536, size := 65536, rights := 7, pdom := pdom } :: u.plb).take 64 })

/-- The strand that issues next can issue, and runs a block. -/
def readyStrand (s : State) (n : Nat) : State :=
  let s1 := modAgent s (.strand n) (fun t =>
    { t with
      act := if t.act = .free then .block 0 0 else t.act
      status := .ready
      stopping := false
      migReads := none
      pending := none
      deferred := none
      replyFault := none
      pc := if fetchable t.pc.toNat then t.pc else 0 })
  let s2 := modTile s1 (n / 16) (fun t =>
    { t with
      changing := none
      gear := if t.gear = .park then .gallop else t.gear })
  let s3 := modCore s2 (n / 4) (fun u => { u with yields := u.yields.filter (fun y => !(y.1 == n)) })
  let va := (getAgent s3 (.strand n)).pc.toNat
  { s3 with
    urgent := []
    agenda := []
    runs := s3.runs.map (fun r => (r.1, { r.2 with parked := [], arming := none, finishing := none }))
    ostler := { s3.ostler with dtVa := if (deepRange s3 va).isSome then 0 else s3.ostler.dtVa }
    host :=
      { s3.host with
        resetting := s3.host.resetting &&& ~~~(BitVec.ofNat 8 (2 ^ partOfCluster s3 (n / 128)))
        peers := if (peerOf s3 va).isSome then [] else s3.host.peers } }

/-- The word stands where the next step fetches. -/
def placeNext (s : State) (w : Word32) : State :=
  match s.cur with
  | .strand n =>
    let s1 := readyStrand s n
    let va := (getAgent s1 (.strand n)).pc.toNat
    grantFetch (lineWith s1 (n / 128) va w) (n / 4) (getCtx s1 (agentCtx s1 (.strand n))).pdom va
  | .courier c =>
    let s1 := readyStrand s (4 * c)
    modAgent { s1 with strands := s.strands } (.courier c) (fun t =>
      { t with
        act := if t.act = .free then .courier 0 else t.act
        status := .ready
        stopping := false
        migReads := none
        pending := none
        deferred := none
        replyFault := none
        words := padTo' (t.pc.toNat / 4) t.words ++ w :: t.words.drop (t.pc.toNat / 4 + 1) })
where
  padTo' (n : Nat) (ws : List Word32) : List Word32 := (ws ++ List.replicate (n - ws.length) 0).take n

end Sys2Proof.Machine
end

