-- ==== Sys2Proof/Machine/Step.lean ====
section
/-!
DEFINITION. The step function, and the placing of an instruction where the next step fetches.
-/
namespace Sys2Proof.Machine

/-- One step of the package. -/
noncomputable def step (s : State) : Host.Outcome State Fault Refusal := turn (betweenSteps s)

/-- `s` with the instruction of bits `w` stored where `step` fetches next; every instruction is one 32-bit word. -/
def State.withFetchWord (s : State) (_nbits w : Nat) : State := placeNext s (BitVec.ofNat 32 w)

end Sys2Proof.Machine
end

