-- ==== Sys2Proof/Safety.lean ====
section
/-!
DEFINITION. The vocabulary of the statements: when an instruction's own work begins, what a completed instruction leaves, and what a
state must satisfy to be one that runs can reach.
-/
namespace Sys2Proof.Machine

/-! ## Completing -/

/-- No check that precedes the instruction's own work fails (11 R274 steps 2 to 4): the latches and fields are as its form allows, a
courier obeys R142, the mode is right, and no fault of an earlier access waits. -/
abbrev Passes (form : Strand → Form) (s : State) : Prop := before form s = none

/-- The state in which the issuing agent's instruction does its own work. -/
def started (s : State) : State := modMe s (fun t => { t with status := .ready })

/-- The instruction completes: it leaves `s1`, and its agent goes on with the next word. -/
def done (s1 : State) : State := retire s1 ((me s1).pc + 4)

/-- The instruction completes and its agent's own state is all that it changes. -/
def wrote (s : State) (f : Strand → Strand) : State := done (modMe (started s) f)

/-- As `wrote`, but the agent goes on at `npc`. -/
def wentTo (s : State) (f : Strand → Strand) (npc : Word) : State := retire (modMe (started s) f) npc

/-- A word that leaves both latches completes (XIMM, HINT, MOD): `f` is all that it changes of its agent beside pc and budget. -/
def lightly (s : State) (f : Strand → Strand) : State := tick (noteIssue (modMe (modMe (started s) f) advance))

/-- As `wrote`, and the flags `fl` are ORed into the agent's FCSR and its cluster's tree (09 R234, R238). -/
def wroteFlags (s : State) (f : Strand → Strand) (fl : Nat) : State := done (setFlags (modMe (started s) f) fl)

/-! ## The scalar operations as chapter 12 gives them, on words of any width (12 R292, R293; 09 R227, R228) -/

/-- An operation on two words of any width. -/
abbrev WordOp := ∀ n : Nat, BitVec n → BitVec n → BitVec n

/-- The 64-bit form, and the 32-bit form: the operation on the low 32 bits, its result sign-extended. -/
def inForm (w : BitVec 1) (f : WordOp) (x y : Word) : Word :=
  if w = 1 then (f 32 (x.setWidth 32) (y.setWidth 32)).signExtend 64 else f 64 x y

/-- A truth as a word. -/
def truth {n : Nat} (b : Bool) : BitVec n := if b then 1 else 0

/-- The two-source rows of OPI (R292). -/
def opiRows : List ((BitVec 5 → BitVec 5 → BitVec 5 → BitVec 1 → Instr) × WordOp) :=
  [(.add, fun _ x y => x + y), (.sub, fun _ x y => x - y), (.and, fun _ x y => x &&& y), (.or, fun _ x y => x ||| y),
   (.xor, fun _ x y => x ^^^ y), (.andn, fun _ x y => x &&& ~~~y), (.sll, fun n x y => x <<< (y.toNat % n)),
   (.srl, fun n x y => x >>> (y.toNat % n)), (.sra, fun n x y => x.sshiftRight (y.toNat % n)), (.slt, fun _ x y => truth (x.slt y)),
   (.sltu, fun _ x y => truth (x.ult y)), (.min, fun _ x y => if x.slt y then x else y), (.max, fun _ x y => if x.slt y then y else x),
   (.minu, fun _ x y => if x.ult y then x else y), (.maxu, fun _ x y => if x.ult y then y else x)]

/-- The one-source rows of OPI. -/
def unaryRows : List ((BitVec 5 → BitVec 5 → BitVec 1 → Instr) × WordOp) :=
  [(.clz, fun _ x _ => x.clz), (.ctz, fun _ x _ => x.ctz), (.popc, fun _ x _ => x.cpop)]

/-- The rows of MULDIV that have a 32-bit form (R293, R228). -/
def muldivRows : List ((BitVec 5 → BitVec 5 → BitVec 5 → BitVec 1 → Instr) × WordOp) :=
  [(.mul, fun _ x y => x * y), (.div, fun n x y => if y = 0 then BitVec.allOnes n else x.sdiv y),
   (.divu, fun n x y => if y = 0 then BitVec.allOnes n else x / y), (.rem, fun _ x y => if y = 0 then x else x.srem y),
   (.remu, fun _ x y => if y = 0 then x else x % y)]

/-- The high half of a product of two words extended to 128 bits. -/
def highHalf (x y : BitVec 128) : Word := (x * y).extractLsb' 64 64

/-- The rows of MULDIV that write the high half of the product. -/
def highRows : List ((BitVec 5 → BitVec 5 → BitVec 5 → Instr) × (Word → Word → Word)) :=
  [(.mulh, fun x y => highHalf (x.signExtend 128) (y.signExtend 128)),
   (.mulhu, fun x y => highHalf (x.setWidth 128) (y.setWidth 128)),
   (.mulhsu, fun x y => highHalf (x.signExtend 128) (y.setWidth 128))]

/-- The combined immediate of a field of `n` bits under the XIMM latch (11 R276): BITS above the field, of which the low `n + 24 COUNT`
bits, at most 64, are sign-extended. -/
def extended (t : Strand) (n : Nat) (field : BitVec n) : Word :=
  ((t.xlBits ++ field).setWidth (min (n + 24 * t.xlCount) 64)).signExtend 64

/-- The immediate rows (R294). -/
def immediateRows : List ((BitVec 5 → BitVec 5 → BitVec 16 → Instr) × (Word → Word → Word)) :=
  [(.addi, fun x i => x + i), (.andi, fun x i => x &&& i), (.ori, fun x i => x ||| i), (.xori, fun x i => x ^^^ i),
   (.slti, fun x i => truth (x.slt i)), (.sltiu, fun x i => truth (x.ult i))]

/-- The shifts by a constant (R295). -/
def shiftRows : List ((BitVec 5 → BitVec 5 → BitVec 1 → BitVec 6 → Instr) × (∀ n : Nat, BitVec n → Nat → BitVec n)) :=
  [(.slli, fun _ x k => x <<< k), (.srli, fun _ x k => x >>> k), (.srai, fun _ x k => x.sshiftRight k)]

/-- A shift by a constant in its form. -/
def shiftedBy (w : BitVec 1) (f : ∀ n : Nat, BitVec n → Nat → BitVec n) (x : Word) (k : Nat) : Word :=
  if w = 1 then (f 32 (x.setWidth 32) k).signExtend 64 else f 64 x k

/-! ## Scalar floating point (12 R298, R299) -/

/-- The two-source rows of FOP: whether the row rounds by RM, and its result and flags. -/
def fopRows : List ((BitVec 5 → BitVec 5 → BitVec 5 → BitVec 1 → Instr) × Bool × (Fmt → Nat → Nat → Nat → Nat × Nat)) :=
  [(.fadd, true, fadd), (.fsub, true, fsub), (.fmul, true, fmul), (.fdiv, true, fdiv),
   (.fmin, false, fun k _ x y => fminmax k false x y), (.fmax, false, fun k _ x y => fminmax k true x y),
   (.fsgnj, false, fun k _ x y => (fsign k 0 x y, 0)), (.fsgnjn, false, fun k _ x y => (fsign k 1 x y, 0)),
   (.fsgnjx, false, fun k _ x y => (fsign k 2 x y, 0)), (.feq, false, compareAs 0), (.flt, false, compareAs 1), (.fle, false, compareAs 2)]

/-- The FMA rows: whether the product, the addend is negated (R299). -/
def fmaRows : List ((BitVec 5 → BitVec 5 → BitVec 5 → BitVec 5 → BitVec 1 → Instr) × Bool × Bool) :=
  [(.fmadd, false, false), (.fmsub, false, true), (.fnmadd, true, true), (.fnmsub, true, false)]

/-- The formats of R229. -/
def formats : List Fmt := [fp16, bf16, fp32, fp64]

/-- The number that a finite datum denotes. -/
def exactly (neg : Bool) (m : Nat) (e : Int) : Rat := (if neg then -1 else 1) * m * 2 ^ e

/-- A number rounded to an integer by a mode of R234: to the nearest, ties to even; towards zero; down; up; to the nearest, ties away from
zero (00 R11). -/
def roundedInt (mode : Nat) (v : Rat) : Int :=
  let below := ⌊v⌋
  let nearest := fun (tie : Bool) => if v - below < 1 / 2 ∨ (v - below = 1 / 2 ∧ tie = false) then below else below + 1
  match mode with
  | 0 => nearest (decide (below % 2 = 1))
  | 1 => if 0 ≤ v then below else ⌈v⌉
  | 2 => below
  | 3 => ⌈v⌉
  | _ => nearest (decide (0 ≤ v))

/-- The bit of FCLASS's table (R302) that names the class of the datum in the low bits of a register: by its sign, and by its exponent and
fraction fields as R229 reads them. -/
def classBit (f : Fmt) (x : Word) : Nat :=
  let negative := x.toNat.testBit (f.ebits + f.fbits)
  let fraction := x.toNat % 2 ^ f.fbits
  let exponent := x.toNat / 2 ^ f.fbits % 2 ^ f.ebits
  if exponent = 2 ^ f.ebits - 1 then
    if fraction = 0 then (if negative then 0 else 7) else if fraction < 2 ^ (f.fbits - 1) then 8 else 9
  else if exponent = 0 then
    if fraction = 0 then (if negative then 3 else 4) else if negative then 2 else 5
  else if negative then 1 else 6

/-! ## Branches (12 R303) -/

/-- The register branches and their conditions. -/
noncomputable def branchRows : List ((BitVec 5 → BitVec 5 → BitVec 13 → Instr) × (Word → Word → Bool)) :=
  [(.beq, fun x y => x == y), (.bne, fun x y => x != y), (.blt, fun x y => x.slt y), (.bge, fun x y => !x.slt y),
   (.bltu, fun x y => x.ult y), (.bgeu, fun x y => !x.ult y)]

/-- The target of a branch or jump whose offset counts words (12 R303, R304). -/
def branchTarget (t : Strand) (n : Nat) (field : BitVec n) : Word := t.pc + extended t n field * 4

/-! ## Memory (14 R322 to R336) -/

/-- No uncorrectable error stands in the words that `n` bytes of a tile's pool touch (06 R178). -/
abbrev Sound (s : State) (tile off n : Nat) : Prop := wordsHit (getTile s tile).poolBad off n = false

/-- An aligned access of `n` bytes by the issuing strand to the vector-spill or scratchpad region of its own tile (05 R148, 14 R322), to words
without an uncorrectable error. -/
structure Local (s : State) (va : Word) (n : Nat) : Prop where
  strand : isCourier s.cur = false
  aligned : va.toNat % n = 0
  window : inWindow va.toNat = true
  inside : inSpillOrScratch (getTile s (agentTile s.cur)) (va.toNat - windowBase) n = true
  sound : Sound s (agentTile s.cur) (va.toNat - windowBase) n

/-- The bytes that a local access reaches: the tile and the pool offset. -/
def localTile (s : State) : Nat := agentTile s.cur
def localOff (va : Word) : Nat := va.toNat - windowBase
def localBytes (s : State) (va : Word) (n : Nat) : List Byte := poolRead s (localTile s) (localOff va) n

/-- A loaded value by its w code: B, H and W extend the sign, the others zero (14 R323). -/
def loadedAs (w : BitVec 3) (v : Nat) : Word :=
  if w = 0 then (BitVec.ofNat 8 v).signExtend 64 else if w = 1 then (BitVec.ofNat 16 v).signExtend 64
  else if w = 2 then (BitVec.ofNat 32 v).signExtend 64 else BitVec.ofNat 64 v

/-- Bytes of a w code. -/
def bytesOf (w : BitVec 3) : Nat := [1, 2, 4, 8, 1, 2, 4, 8].getD w.toNat 8

/-- The AMOs, and what each stores from the old value, the operand and the comparand; `none` when it stores nothing (14 R329). -/
noncomputable def amoRows : List ((BitVec 5 → BitVec 5 → BitVec 5 → BitVec 3 → BitVec 1 → BitVec 1 → BitVec 1 → Instr) ×
    (∀ n : Nat, BitVec n → BitVec n → BitVec n → Option (BitVec n))) :=
  [(.amoadd, fun _ o b _ => some (o + b)), (.amoand, fun _ o b _ => some (o &&& b)), (.amoor, fun _ o b _ => some (o ||| b)),
   (.amoxor, fun _ o b _ => some (o ^^^ b)), (.amomin, fun _ o b _ => some (if b.slt o then b else o)),
   (.amomax, fun _ o b _ => some (if o.slt b then b else o)), (.amominu, fun _ o b _ => some (if b.ult o then b else o)),
   (.amomaxu, fun _ o b _ => some (if o.ult b then b else o)), (.amoswap, fun _ _ b _ => some b),
   (.amocas, fun _ o b c => if o = c then some b else none)]

/-- A local AMO of `8 * n` bits: the new value is stored, and X[d] receives the old one, sign-extended. -/
def amoDid (s : State) (va : Word) (n : Nat) (d : BitVec 5) (f : ∀ n : Nat, BitVec n → BitVec n → BitVec n → Option (BitVec n)) (b c : Word) : State :=
  let old := BitVec.ofNat (8 * n) (ofBytes (localBytes s va n))
  let s1 := match f (8 * n) old (b.setWidth (8 * n)) (c.setWidth (8 * n)) with
    | some v => poolWrite (started s) (localTile s) (localOff va) (leBytes n v.toNat)
    | none => started s
  done (modMe s1 (fun t => writeX t d (old.signExtend 64)))

/-! ## Vectors (13 R307 to R321) -/

/-- Lane `l` of a vector, as a word of the lane's width. -/
abbrev laneAt (w : Nat) (v : Vec) (l : Nat) : BitVec w := v.extractLsb' (w * l) w

/-- The source va of a vector word gives `v`, and the state it leaves: a register, or the next group of a marked stream (11 R279). -/
def ReadsA (s : State) (a : BitVec 5) (v : Vec) (s1 : State) : Prop := vsource (marksOf (me s)).va a (started s) = .ok (v, s1)
/-- As `ReadsA`, for the source vb of a word that has no va. -/
def ReadsB (s : State) (b : BitVec 5) (v : Vec) (s1 : State) : Prop := vsource (marksOf (me s)).vb b (started s) = .ok (v, s1)
/-- The sources va and vb, in that order. -/
def ReadsAB (s : State) (a b : BitVec 5) (va vb : Vec) (s2 : State) : Prop :=
  ∃ s1, ReadsA s a va s1 ∧ vsource (marksOf (me s)).vb b s1 = .ok (vb, s2)
/-- The sources va, vb and vc. -/
def ReadsABC (s : State) (a b c : BitVec 5) (va vb vc : Vec) (s3 : State) : Prop :=
  ∃ s2, ReadsAB s a b va vb s2 ∧ vsource (marksOf (me s)).vc c s2 = .ok (vc, s3)
/-- The destination takes the vector that `f` makes of its old value: a register, or one group of a marked stream. -/
def Lands (s : State) (d : BitVec 5) (f : Vec → Vec) (s2 s3 : State) : Prop := vdest (marksOf (me s)).vd d f s2 = .ok ((), s3)

/-- Two-source vector words. -/
abbrev VectorCtor := BitVec 5 → BitVec 5 → BitVec 5 → BitVec 3 → BitVec 2 → BitVec 1 → Instr

/-- The rows of VOP that wrap (R310). -/
noncomputable def vopRows : List (VectorCtor × WordOp) :=
  [(.vadd, fun _ x y => x + y), (.vsub, fun _ x y => x - y), (.vand, fun _ x y => x &&& y), (.vor, fun _ x y => x ||| y),
   (.vxor, fun _ x y => x ^^^ y), (.vandn, fun _ x y => x &&& ~~~y), (.vsll, fun n x y => x <<< (y.toNat % n)),
   (.vsrl, fun n x y => x >>> (y.toNat % n)), (.vsra, fun n x y => x.sshiftRight (y.toNat % n)),
   (.vmin, fun _ x y => if x.slt y then x else y), (.vmax, fun _ x y => if x.slt y then y else x),
   (.vminu, fun _ x y => if x.ult y then x else y), (.vmaxu, fun _ x y => if x.ult y then y else x), (.vmul, fun _ x y => x * y),
   (.vmulh, fun n x y => (x.signExtend (2 * n) * y.signExtend (2 * n)).extractLsb' n n),
   (.vmulhu, fun n x y => (x.setWidth (2 * n) * y.setWidth (2 * n)).extractLsb' n n)]

/-- The rows of VOP that saturate: the result and whether it was clamped (R310, R311). -/
noncomputable def vsatRows : List (VectorCtor × (∀ n : Nat, BitVec n → BitVec n → BitVec n × Bool)) :=
  [(.vsadd, fun n x y => (if x.saddOverflow y then (if x.msb then BitVec.intMin n else BitVec.intMax n) else x + y, x.saddOverflow y)),
   (.vsaddu, fun n x y => (if x.uaddOverflow y then BitVec.allOnes n else x + y, x.uaddOverflow y)),
   (.vssub, fun n x y => (if x.ssubOverflow y then (if x.msb then BitVec.intMin n else BitVec.intMax n) else x - y, x.ssubOverflow y)),
   (.vssubu, fun _ x y => (if x.usubOverflow y then 0 else x - y, x.usubOverflow y))]

/-- The rows of VFOP with two sources (R312). -/
noncomputable def vfopRows : List (VectorCtor × Bool × (Fmt → Nat → Nat → Nat → Nat × Nat)) :=
  [(.vfadd, true, fadd), (.vfsub, true, fsub), (.vfmul, true, fmul), (.vfdiv, true, fdiv),
   (.vfmin, false, fun k _ x y => fminmax k false x y), (.vfmax, false, fun k _ x y => fminmax k true x y),
   (.vfsgnj, false, fun k _ x y => (fsign k 0 x y, 0)), (.vfsgnjn, false, fun k _ x y => (fsign k 1 x y, 0)),
   (.vfsgnjx, false, fun k _ x y => (fsign k 2 x y, 0))]

/-- The rows of VFMA (R313): whether the product, the addend is negated. -/
noncomputable def vfmaRows : List ((BitVec 5 → BitVec 5 → BitVec 5 → BitVec 5 → BitVec 3 → BitVec 2 → Instr) × Bool × Bool) :=
  [(.vfmadd, false, false), (.vfmsub, false, true), (.vfnmadd, true, true), (.vfnmsub, true, false)]

/-- The integer rows of VCMP (R314). -/
noncomputable def vcmpRows : List (VectorCtor × (∀ n : Nat, BitVec n → BitVec n → Bool)) :=
  [(.vcmpEq, fun _ x y => x == y), (.vcmpNe, fun _ x y => x != y), (.vcmpLt, fun _ x y => x.slt y), (.vcmpGe, fun _ x y => !x.slt y),
   (.vcmpLtu, fun _ x y => x.ult y), (.vcmpGeu, fun _ x y => !x.ult y)]

/-- The floating rows of VCMP: the condition and the flags. -/
noncomputable def vfcmpRows : List (VectorCtor × (Fmt → Nat → Nat → Bool × Nat)) :=
  [(.vfcmpEq, fun k x y => fcompare k 0 x y), (.vfcmpNe, fun k x y => (!(fcompare k 0 x y).1, (fcompare k 0 x y).2)),
   (.vfcmpLt, fun k x y => fcompare k 1 x y), (.vfcmpLe, fun k x y => fcompare k 2 x y),
   (.vfcmpUo, fun k x y => (isNan (fdecode k x) || isNan (fdecode k y), snanFlag [fdecode k x, fdecode k y]))]

/-- Words of VRED that write X[d]. -/
abbrev ReduceCtor := BitVec 5 → BitVec 5 → BitVec 5 → BitVec 3 → BitVec 2 → Instr

/-- The integer reductions (R315): whether the result is sign-extended, and the combination. -/
noncomputable def vredRows : List (ReduceCtor × Bool × WordOp) :=
  [(.vredsum, true, fun _ x y => x + y), (.vredmin, true, fun _ x y => if y.slt x then y else x),
   (.vredmax, true, fun _ x y => if x.slt y then y else x), (.vredminu, false, fun _ x y => if y.ult x then y else x),
   (.vredmaxu, false, fun _ x y => if x.ult y then y else x), (.vredand, true, fun _ x y => x &&& y),
   (.vredor, true, fun _ x y => x ||| y), (.vredxor, true, fun _ x y => x ^^^ y)]

/-- The floating reductions: whether they round by RM, whether they combine in pairs, and the combination (R315, 09 R245). -/
noncomputable def vfredRows : List (ReduceCtor × Bool × Bool × (Fmt → Nat → Nat → Nat → Nat × Nat)) :=
  [(.vfredo, true, false, fadd), (.vfredp, true, true, fadd),
   (.vfredmino, false, false, fun k _ x y => fminmax k false x y), (.vfredmaxo, false, false, fun k _ x y => fminmax k true x y),
   (.vfredminp, false, true, fun k _ x y => fminmax k false x y), (.vfredmaxp, false, true, fun k _ x y => fminmax k true x y)]

/-- The two-source rows of MASK (R321). -/
noncomputable def maskRows : List ((BitVec 5 → BitVec 5 → BitVec 5 → Instr) × (Word → Word → Word)) :=
  [(.mand, fun x y => x &&& y), (.mor, fun x y => x ||| y), (.mxor, fun x y => x ^^^ y), (.mandn, fun x y => x &&& ~~~y)]

/-! ## Barriers, engines and their commands (07 R202, R203; 14 R337 to R348; 15 R349 to R373; 16 R375 to R378) -/

/-- The address of a barrier object of the issuing agent's tile (14 R338). -/
structure BarrierAt (s : State) (va : Word) : Prop where
  aligned : va.toNat % 16 = 0
  window : inWindow va.toNat = true
  inside : inScratch (getTile s (localTile s)) (localOff va) 16 = true

/-- What an instruction that names a barrier may name (14 R415). -/
def MayName (s : State) (va : Word) : Prop := va = 0 ∨ BarrierAt s va

/-- A carriage flag word in the given state: the place its word is read at, and the carriage (14 R346). -/
def FlagAt (s : State) (va : Word) (target : Target) (i j : Nat) (s1 : State) : Prop := carriageCheck va (started s) = .ok ((target, i, j), s1)

/-- The block of a strand that runs one: the waybill entry that its engine commands belong to (08 R214). -/
def blockNow (s : State) : Option Nat :=
  match (me s).act with
  | .block _ i => some i
  | _ => none

/-- A command of strand `n` joins its tile's matrix queue and the strand goes on. -/
def queued (s : State) (n : Nat) (op : MatrixOp) (bar : Word) : State :=
  done (joinQueue s (n / 16) { strand := n, run := agentRun s s.cur, op := op, barrier := bar, block := blockNow s })

/-- A checked command joins the queue while that has room for it (15 R349), else its strand waits. -/
def JoinsOrWaits (s s1 : State) (n : Nat) (op : MatrixOp) (bar : Word) (i : Instr) : Prop :=
  exec i s = .next (if queueLength (getTile s1 (n / 16)) < 16 then queued s1 n op bar else waiting s1)

/-- Name `k` of strand `n` is bound, to a name of the given format. -/
def Bound (s : State) (n k : Nat) (fp64 : Bool) : Prop := ∃ x, nameOf s n k = some x ∧ x.fp64 = fp64

/-- The MMA rows (15 R356): the form, which fixes the format of A and how many panels A spans. -/
noncomputable def mmaRows : List ((BitVec 4 → BitVec 4 → BitVec 4 → BitVec 1 → Instr) × Nat) :=
  [(.mmaBf16, 0), (.mmaFp16, 1), (.mmaPs8, 2), (.mmaPs4, 3), (.mmaTern, 4), (.mmaFp64, 5)]

/-- A Felt command of the issuing strand joins array `g`'s queue (16 R375). -/
def feltJoined (s : State) (g : Nat) (op : FeltOp) (bar : Word) : State :=
  feltNext (modArray s g (fun f =>
    { f with queue := f.queue ++ [{
        op := op, strand := 4 * agentCore s.cur + agentStrand s.cur, run := agentRun s s.cur, ctx := agentCtx s s.cur, pc := (me s).pc, barrier := bar
        image := imageId s (localTile s) (agentRun s s.cur), block := agentBlock s s.cur, index := (me s).buffer.issued }] })) g

/-- The table, image or record that a Felt command names, if it names one (16 R376). -/
def feltAddress (op : FeltOp) : Option Word :=
  match op with
  | .cfg _ a => some a
  | .scale _ a => some a
  | .ic _ a => some a
  | .sample _ a => some a
  | _ => none

/-- A Felt command with an operand outside the tile's window waits for the strand's acknowledgements (07 R201). -/
def FeltMayJoin (s : State) (op : FeltOp) : Prop := (∀ a, feltAddress op = some a → inWindow a.toNat = false → (me s).acks = 0)

/-- A Felt command whose checks have left `s1` completes with its place in the queue, or waits for the strand's acknowledgements or for a
place. -/
def FeltJoins (s s1 : State) (g : Nat) (op : FeltOp) (bar : Word) (i : Instr) : Prop :=
  (FeltMayJoin s1 op → (getArray s1 g).queue.length < 8 → exec i s = .next (done (feltJoined s1 g op bar))) ∧
  (¬ FeltMayJoin s1 op ∨ 8 ≤ (getArray s1 g).queue.length → exec i s = .next (waiting s1))

/-! ## Requests of other devices (06 R181, R182) -/

/-- The request word of a packet: address, key slot, its bytes. -/
def requestPa (p : Packet) : Nat := fieldAt p.body 0 6
def requestKey (p : Packet) : BitVec 8 := BitVec.ofNat 8 (fieldAt p.body 14 1)

/-- A request that its home serves: its word is legal and names HBM, its epoch is this device's or 0, and a write's generation is not
older than the one recorded. -/
structure Servable (s : State) (p : Packet) (write : Bool) : Prop where
  reserved : bits (fieldAt p.body 15 1) 5 3 = 0
  size : bits (fieldAt p.body 15 1) 2 0 ≠ 7
  aligned : requestPa p % 2 ^ bits (fieldAt p.body 15 1) 2 0 = 0
  home : requestPa p < hbmSize
  epoch : fieldAt p.body 6 2 = 0 ∨ fieldAt p.body 6 2 = s.ostler.epoch.toNat
  young : write = true → staleGeneration s p.src.toNat (BitVec.ofNat 32 (fieldAt p.body 8 4)) (fieldAt p.body 12 2) = false

/-- What a request's outcome at its home's depot becomes: an answer, a refusal with the fault's code, or a wait for the granule. -/
def answeredBy {α : Type} (p : Packet) (r : Served α) (f : α → State → State) : State :=
  match r with
  | .ok a s1 => f a s1
  | .bad code sub s1 => refuse s1 p code sub
  | .busy s1 => waitGranule s1 (requestPa p / 64) p

/-! ## Every memory in its canonical form (assumption log 4) -/

/-- The memories of a saved tile image. -/
def imageMemories (m : SavedImage) : List Memory := m.pool :: m.active.flatMap (fun b => b.banks.map (·.2))

/-- The memories of a state: HBM, the management block's staging area, each tile's pool and accumulator banks, saved images. -/
def memories (s : State) : List Memory :=
  [s.hbm, s.mgmt.staging] ++ s.tiles.flatMap (fun e => [e.2.pool, e.2.acc])
    ++ s.runs.flatMap (fun e => e.2.saved.flatMap (fun b => b.banks.map (·.2)) ++ e.2.images.flatMap imageMemories)

end Sys2Proof.Machine
end

