-- ==== Sys2Proof/Certificates/Slice0/Obligations.lean ====
section
/-!
DEFINITION. The statements for the provers, from the numbered rules of spec/. A statement whose hypotheses hold the checks before the
instruction's own work (`Passes`) covers every form: block and courier agents, with and without a latch.
-/
open Sys2Proof Sys2Proof.Machine

/-! ## Scalar integer instructions (chapter 12) -/

/-- 12 R292: the rows of OPI write their result in X[d] and go on with the next word, in both widths; nothing else of the machine is theirs
to change (`wrote`). A write of x0 is discarded (`writeX`). -/
def Obligations.OpiWritesItsResult : Prop :=
  ∀ (s : State) (d a b : BitVec 5) (w : BitVec 1),
    (Passes (xForm [d, a, b]) s → ∀ row ∈ opiRows,
      exec (row.1 d a b w) s = .next (wrote s (fun t => writeX t d (inForm w row.2 (readX (me s) a) (readX (me s) b))))) ∧
    (Passes (xForm [d, a]) s → ∀ row ∈ unaryRows,
      exec (row.1 d a w) s = .next (wrote s (fun t => writeX t d (inForm w row.2 (readX (me s) a) 0))))

/-- 12 R293, 09 R228: MULDIV; a division by zero gives all ones and the dividend, the overflowing quotient wraps. -/
def Obligations.MuldivWritesItsResult : Prop :=
  ∀ (s : State) (d a b : BitVec 5), Passes (xForm [d, a, b]) s →
    (∀ w : BitVec 1, ∀ row ∈ muldivRows,
      exec (row.1 d a b w) s = .next (wrote s (fun t => writeX t d (inForm w row.2 (readX (me s) a) (readX (me s) b))))) ∧
    (∀ row ∈ highRows, exec (row.1 d a b) s = .next (wrote s (fun t => writeX t d (row.2 (readX (me s) a) (readX (me s) b)))))

/-- 12 R294 to R296, 11 R276: the immediate rows, the shifts by a constant, LUI and AUIPC, with the immediate that the XIMM latch and the
field form. -/
def Obligations.ImmediatesWriteTheirResult : Prop :=
  ∀ (s : State) (d a : BitVec 5),
    (∀ i : BitVec 16, Passes (immForm [d, a]) s → ∀ row ∈ immediateRows,
      exec (row.1 d a i) s = .next (wrote s (fun t => writeX t d (row.2 (readX (me s) a) (extended (me s) 16 i))))) ∧
    (∀ (w : BitVec 1) (k : BitVec 6), Passes (shiftForm d a w k) s → ∀ row ∈ shiftRows,
      exec (row.1 d a w k) s = .next (wrote s (fun t => writeX t d (shiftedBy w row.2 (readX (me s) a) k.toNat)))) ∧
    (∀ i : BitVec 21, Passes (immForm [d]) s →
      exec (.lui d i) s = .next (wrote s (fun t => writeX t d (extended (me s) 21 i <<< 16))) ∧
      exec (.auipc d i) s = .next (wrote s (fun t => writeX t d ((me s).pc + extended (me s) 21 i <<< 16))))

/-! ## Branches and jumps (chapter 12) -/

/-- 12 R303, R306: a taken branch goes to its target, unless that is address 0, where it takes the fault NOT_MAPPED; an untaken one goes on
with the next word; no branch writes a register. 12 R304, R305: JAL and JALR write the address of the next word in X[d] and go to their
target; JALR reads X[a] first; a target of 0 and a misaligned one fault, with no register written. -/
def Obligations.BranchesAndJumpsGo : Prop :=
  (∀ (s : State) (a b : BitVec 5) (o : BitVec 13),
     (∀ row ∈ branchRows, Passes (branchForm a b o) s →
       (row.2 (readX (me s) a) (readX (me s) b) = false → exec (row.1 a b o) s = .next (wrote s id)) ∧
       (row.2 (readX (me s) a) (readX (me s) b) = true → (me s).pc.toNat % 4 = 0 →
         exec (row.1 a b o) s = .next (
           if branchTarget (me s) 13 o = 0 then takeFault s (faultInfo 0x05 0x01 3 0 0) else wentTo s id (branchTarget (me s) 13 o)))) ∧
     (Passes (branchMaskForm a o) s →
       let m := readM (me s) (a.setWidth 3)
       (m = 0 → exec (.bmany a o) s = .next (wrote s id)) ∧
       (m ≠ 0 → exec (.bmnone a o) s = .next (wrote s id)) ∧
       ((me s).pc.toNat % 4 = 0 → branchTarget (me s) 13 o ≠ 0 →
         (m ≠ 0 → exec (.bmany a o) s = .next (wentTo s id (branchTarget (me s) 13 o))) ∧
         (m = 0 → exec (.bmnone a o) s = .next (wentTo s id (branchTarget (me s) 13 o)))))) ∧
  (∀ (s : State) (d a : BitVec 5),
     (∀ i : BitVec 21, Passes (jalForm d i) s → (me s).pc.toNat % 4 = 0 →
       exec (.jal d i) s = .next (
         let t := branchTarget (me s) 21 i
         if t = 0 then takeFault s (faultInfo 0x05 0x01 3 t 0) else wentTo s (fun u => writeX u d (u.pc + 4)) t)) ∧
     (∀ i : BitVec 16, Passes (jalrForm d a) s →
       exec (.jalr d a i) s = .next (
         let t := readX (me s) a + extended (me s) 16 i
         if t = 0 then takeFault s (faultInfo 0x05 0x01 3 t 0)
         else if t.toNat % 4 = 0 then wentTo s (fun u => writeX u d (u.pc + 4)) t
         else takeFault s (faultInfo 0x03 0 3 t 0))))

/-! ## Scalar floating point (chapters 9 and 12) -/

/-- 12 R298, R299; 09 R230, R234, R238: a scalar floating-point operation writes its result, zero-extended, to X[d] and ORs its flags into
FCSR and the cluster's tree; it rounds by the FRM modifier or RM where it rounds. 12 R301, R302: FCVT writes the converted value and its
flags; FCLASS sets the one bit of its operand's class. -/
def Obligations.FloatWritesResultAndFlags : Prop :=
  (∀ (s : State) (d a b c : BitVec 5) (p : BitVec 1),
     (∀ row ∈ fopRows, Passes (fForm row.2.1 [d, a, b]) s →
       exec (row.1 d a b p) s = .next (
         let r := row.2.2 (precision p) (modeOf (me s)) (datum (precision p) (readX (me s) a)) (datum (precision p) (readX (me s) b))
         wroteFlags s (fun t => writeX t d (BitVec.ofNat 64 r.1)) r.2)) ∧
     (Passes (fForm true [d, a]) s →
       exec (.fsqrt d a p) s = .next (
         let r := fsqrt (precision p) (modeOf (me s)) (datum (precision p) (readX (me s) a))
         wroteFlags s (fun t => writeX t d (BitVec.ofNat 64 r.1)) r.2)) ∧
     (∀ row ∈ fmaRows, Passes (fForm true [d, a, b, c]) s →
       exec (row.1 d a b c p) s = .next (
         let r := ffma (precision p) (modeOf (me s)) row.2.1 row.2.2 (datum (precision p) (readX (me s) a))
           (datum (precision p) (readX (me s) b)) (datum (precision p) (readX (me s) c))
         wroteFlags s (fun t => writeX t d (BitVec.ofNat 64 r.1)) r.2))) ∧
  (∀ (s : State) (d a : BitVec 5) (t k : BitVec 4),
     (Passes (fcvtForm d a t k) s →
       exec (.fcvt d a t k) s = .next (
         let r := convertValue t k (modeOf (me s)) (readX (me s) a)
         wroteFlags s (fun u => writeX u d r.1) r.2)) ∧
     (∀ f, codeFmt k = some f → Passes (fclassForm d a k) s →
       exec (.fclass d a k) s = .next (wrote s (fun u => writeX u d (BitVec.twoPow 64 (classBit f (readX (me s) a)))))))

/-- 09 R235: every NaN result of an addition, subtraction, multiplication, division, square root or fused multiply-add is the canonical quiet
NaN of the format. A NaN operand gives it, with NV where an operand is signaling; the invalid cases give it with NV: infinity less infinity, zero
times infinity (in a fused multiply-add whatever the addend), zero by zero, infinity by infinity, the square root of a number below zero. -/
def Obligations.NanResultsAreCanonical : Prop :=
  ∀ f ∈ formats, ∀ (mode x y z : Nat) (np nc : Bool),
    let a := fdecode f x
    let b := fdecode f y
    let c := fdecode f z
    let invalid := (canonNan f, 16)
    let fused := ffma f mode np nc x y z
    (∀ r ∈ [fadd f mode x y, fsub f mode x y, fmul f mode x y, fdiv f mode x y, fsqrt f mode x, fused],
      isNan (fdecode f r.1) = true → r.1 = canonNan f) ∧
    (isNan a = true ∨ isNan b = true →
      ∀ r ∈ [fadd f mode x y, fsub f mode x y, fmul f mode x y, fdiv f mode x y], r = (canonNan f, if isSnan a || isSnan b then 16 else 0)) ∧
    (isNan a = true → fsqrt f mode x = (canonNan f, if isSnan a then 16 else 0)) ∧
    (∀ g h, a = .inf g → b = .inf h →
      fdiv f mode x y = invalid ∧ (g ≠ h → fadd f mode x y = invalid) ∧ (g = h → fsub f mode x y = invalid)) ∧
    (∀ g h e, (a = .inf g ∧ b = .fin h 0 e) ∨ (a = .fin h 0 e ∧ b = .inf g) → fmul f mode x y = invalid ∧ fused = invalid) ∧
    (∀ g h d e, a = .fin g 0 d → b = .fin h 0 e → fdiv f mode x y = invalid) ∧
    (∀ m e, a = .inf true ∨ (a = .fin true m e ∧ 0 < m) → fsqrt f mode x = invalid) ∧
    (isNan a = true ∨ isNan b = true ∨ isNan c = true → fused.1 = canonNan f ∧ (isSnan a || isSnan b || isSnan c → fused.2 = 16)) ∧
    (∀ g h, c = .inf h → mulV a b = some (.inf g) → ((g != np) ≠ (h != nc)) → fused = invalid)

/-- 09 R236, 00 R11: a conversion to an integer of 32 or 64 bits: a NaN and a value above the range give the largest value, a value below it the
smallest, each with NV alone; a finite value is rounded by the mode, and one that is then in range gives the rounded value, with NX exactly
where that differs from it. -/
def Obligations.IntegerConversionSaturates : Prop :=
  ∀ f ∈ formats, ∀ n ∈ [32, 64], ∀ (mode x : Nat) (signed : Bool), mode < 5 →
    let lo : Int := if signed then -(2 ^ (n - 1)) else 0
    let hi : Int := if signed then 2 ^ (n - 1) - 1 else 2 ^ n - 1
    let r := ftoint f mode n signed x
    (isNan (fdecode f x) = true → r = (hi, 16)) ∧
    (∀ neg, fdecode f x = .inf neg → r = (if neg then lo else hi, 16)) ∧
    (∀ neg m e, fdecode f x = .fin neg m e →
      let v := exactly neg m e
      let k := roundedInt mode v
      (k < lo → r = (lo, 16)) ∧ (hi < k → r = (hi, 16)) ∧ (lo ≤ k → k ≤ hi → r = (k, if (k : Rat) = v then 0 else 1)))

/-! ## Memory instructions (chapter 14) -/

/-- 14 R323, R325, R332; 12 R297: a load whose access gives `bs` writes it to its register, extended as the w code states; what the access
itself left (`s1`) stands, and nothing else changes. -/
def Obligations.LoadsWriteWhatTheyRead : Prop :=
  ∀ (s s1 : State) (d a b : BitVec 5) (o : BitVec 13) (w sc : BitVec 3) (bs : List Byte),
    (Passes (ldForm [d, a] w) s → loadBytes kLoad (readX (me s) a + extended (me s) 13 o * BitVec.ofNat 64 (bytesOf w)) (bytesOf w) (started s) = .ok (bs, s1) →
      exec (.ld d a w o) s = .next (done (modMe s1 (fun t => writeX t d (loadedAs w (ofBytes bs)))))) ∧
    (Passes (ldxForm [d, a, b] w) s → loadBytes kLoad (readX (me s) a + readX (me s) b * BitVec.ofNat 64 (bytesOf w)) (bytesOf w) (started s) = .ok (bs, s1) →
      exec (.ldx d a b w) s = .next (done (modMe s1 (fun t => writeX t d (loadedAs w (ofBytes bs)))))) ∧
    (Passes (syncForm [d, a] (badScope sc || decide (w = 7)) true) s → loadBytes { kLoad with acq := true } (readX (me s) a) (bytesOf w) (started s) = .ok (bs, s1) →
      exec (.ldAcq d a sc w) s = .next (done (modMe s1 (fun t => writeX t d (loadedAs w (ofBytes bs)))))) ∧
    (Passes (vmemForm d [a] none none true) s → loadBytes kVload (readX (me s) a + extended (me s) 13 o * 64) 64 (started s) = .ok (bs, s1) →
      exec (.vld d a o) s = .next (done (modMe s1 (fun t => writeV t d (vecOfBytes bs)))))

/-- 14 R324, R325, R332: a store completes with the state that the store of its data's low bytes leaves, and writes no register; ST.REL at
DOMAIN or SYSTEM scope completes so when the acknowledgement counter is zero, and otherwise waits. -/
def Obligations.StoresStoreTheirData : Prop :=
  ∀ (s s1 : State) (d a : BitVec 5) (o : BitVec 13) (w : BitVec 2) (sc : BitVec 3),
    let n := 2 ^ w.toNat
    (Passes (immForm [d, a]) s →
      storeBytes kStore (readX (me s) a + extended (me s) 13 o * BitVec.ofNat 64 n) (leBytes n (readX (me s) d).toNat) false (started s) = .ok ((), s1) →
      exec (.st d a w o) s = .next (done s1)) ∧
    (Passes (vmemForm d [a] none none true) s →
      storeBytes kVstore (readX (me s) a + extended (me s) 13 o * 64) (vecBytes (readV (me s) d)) false (started s) = .ok ((), s1) →
      exec (.vst d a o) s = .next (done s1)) ∧
    (Passes (syncForm [d, a] (badScope sc) true) s →
      ((sc = 4 ∨ sc = 5) → 0 < (me s).acks → exec (.stRel d a sc w) s = .next (waiting (started s))) ∧
      ((me s).acks = 0 ∨ sc.toNat < 4 →
        storeBytes kStore (readX (me s) a) (leBytes n (readX (me s) d).toNat) true (started s) = .ok ((), s1) →
        exec (.stRel d a sc w) s = .next (done s1)))

/-- 05 R148, 14 R322: an aligned access to the vector-spill or scratchpad region of the agent's tile reads the pool's bytes there and
changes nothing, or writes them there. 06 R178: one that reads a word with an uncorrectable error, or writes a part of it, takes MEM_UE, sub-code
POOL; that a word written whole has none afterwards is the model's choice (assumption log 59). 14 R322, R324: after a local store, the stored bytes read back and every other byte of every pool,
and every byte of HBM, reads as before. -/
def Obligations.LocalAccessesReachThePool : Prop :=
  (∀ (s : State) (k : Kind) (va : Word) (n : Nat) (bs : List Byte) (rel : Bool), Local s va n →
     loadBytes k va n s = .ok (localBytes s va n, s) ∧
     (bs.length = n → storeBytes k va bs rel s = .ok ((), poolWrite s (localTile s) (localOff va) bs))) ∧
  (∀ (s : State) (k : Kind) (va : Word) (n : Nat) (bs : List Byte) (rel : Bool), isCourier s.cur = false → n ∈ [1, 2, 4, 8, 64] → va.toNat % n = 0 → inWindow va.toNat = true →
     inSpillOrScratch (getTile s (localTile s)) (localOff va) n = true → ¬ Sound s (localTile s) (localOff va) n →
     loadBytes k va n s = .error (.fault (faultInfo 0x08 0x03 k.kind va 0)) ∧
     (bs.length = n → storeBytes k va bs rel s =
       if n % 8 = 0 then .ok ((), poolWrite s (localTile s) (localOff va) bs) else .error (.fault (faultInfo 0x08 0x03 k.kind va 0))) ∧
     (n % 8 = 0 → bs.length = n → Sound (poolWrite s (localTile s) (localOff va) bs) (localTile s) (localOff va) n)) ∧
  (∀ (s t : State) (d a : BitVec 5) (o : BitVec 13) (w : BitVec 2),
     let n := 2 ^ w.toNat
     let va := readX (me s) a + extended (me s) 13 o * BitVec.ofNat 64 n
     Passes (immForm [d, a]) s → Local s va n → (getTile s (localTile s)).pool.wf = true → exec (.st d a w o) s = .next t →
       localBytes t va n = leBytes n (readX (me s) d).toNat ∧
       (∀ tile x, (tile ≠ localTile s ∨ x < localOff va ∨ localOff va + n ≤ x) →
         memGet (getTile t tile).pool x = memGet (getTile s tile).pool x) ∧
       t.hbm = s.hbm ∧ t.l2 = s.l2 ∧ (∀ b, b ≠ s.cur → getAgent t b = getAgent s b) ∧
       getAgent t s.cur = consume (me s) ((me s).pc + 4))

/-- 14 R322, 06 R157, R163; 05 R148: the first check that fails decides the fault of an access by a strand: an address that is not
canonical, a misaligned one, a window address outside the two regions, the ostler window outside ostler mode. -/
def Obligations.AccessChecksInOrder : Prop :=
  ∀ (s : State) (k : Kind) (va : Word) (n : Nat), isCourier s.cur = false → 0 < n →
    (2 ^ 57 ≤ va.toNat → loadBytes k va n s = .error (.fault (faultInfo 0x05 0x02 k.kind va 0))) ∧
    (va.toNat < 2 ^ 57 → va.toNat % n ≠ 0 → loadBytes k va n s = .error (.fault (faultInfo 0x03 0 k.kind va 0))) ∧
    (va.toNat % n = 0 → inWindow va.toNat = true →
      inSpillOrScratch (getTile s (agentTile s.cur)) (va.toNat - windowBase) n = false →
      loadBytes k va n s = .error (.fault (faultInfo 0x04 0x03 k.kind va 0))) ∧
    (va.toNat % n = 0 → inOstler va.toNat = true → ostlerMode s s.cur = false →
      loadBytes k va n s = .error (.fault (faultInfo 0x04 0x02 k.kind va 0)))

/-- 14 R328, R329: a local AMO stores what its row gives of the old value, the operand and the comparand, and X[d] receives the old value,
sign-extended; CAS stores only where the old value is X[d]. -/
def Obligations.LocalAmosReadModifyWrite : Prop :=
  ∀ (s : State) (d a b : BitVec 5) (sc : BitVec 3) (r q z : BitVec 1), ∀ row ∈ amoRows,
    let n := if z = 1 then 8 else 4
    Passes (amoForm d a b sc r q) s → Local s (readX (me s) a) n → (me s).acks = 0 →
      exec (row.1 d a b sc r q z) s = .next (amoDid s (readX (me s) a) n d row.2 (readX (me s) b) (readX (me s) d))

/-- 14 R326, R327: a gather whose lanes all pass their checks and then read `got` writes those lanes over the old vector; a scatter whose
lanes all pass and are then stored in increasing order completes with what they left; lanes that are not active access nothing. -/
def Obligations.GathersAndScattersByLane : Prop :=
  ∀ (s s0 s1 s2 : State) (d a b : BitVec 5) (m : BitVec 3) (e : BitVec 2) (got : List (Nat × Nat)),
    let w := laneWidth e
    let mask := readM (me s) m
    let gathered := fun (addr : Nat → Word) (i : Instr) =>
      eachLane (fun l => do let _ ← laneCheck kGather (w / 8) (addr l)) (lanesOf w mask) (started s) = .ok ((), s0) →
      gatherLanes (w / 8) addr (lanesOf w mask) s0 = .ok (got, s1) →
      exec i s = .next (done (modMe s1 (fun t => writeV t d (maskedLanes w mask (readV t d) (fun l =>
        ((got.find? (fun x => x.1 == l)).map (·.2)).getD 0)))))
    let scattered := fun (addr : Nat → Word) (i : Instr) =>
      eachLane (fun l => prepareLane (w / 8) (addr l)) (lanesOf w mask) (started s) = .ok ((), s1) →
      eachLane (scatterLane (readV (me s) d) w addr (lanesOf w mask)) (lanesOf w mask) s1 = .ok ((), s2) →
      exec i s = .next (done s2)
    (Passes (vmemForm d [a] (some m) none false) s →
      gathered (fun l => readX (me s) a + BitVec.ofNat 64 (l * (w / 8))) (.vldm d a m e) ∧
      scattered (fun l => readX (me s) a + BitVec.ofNat 64 (l * (w / 8))) (.vstm d a m e)) ∧
    (Passes (vmemForm d [a, b] (some m) none false) s →
      gathered (fun l => readX (me s) a + BitVec.ofNat 64 l * readX (me s) b) (.vlds d a b m e) ∧
      scattered (fun l => readX (me s) a + BitVec.ofNat 64 l * readX (me s) b) (.vsts d a b m e)) ∧
    (Passes (vmemForm d [a] (some m) (some b) false) s →
      gathered (fun l => readX (me s) a + BitVec.ofNat 64 (lane (readV (me s) b) w l * (w / 8))) (.vgath d a b m e) ∧
      scattered (fun l => readX (me s) a + BitVec.ofNat 64 (lane (readV (me s) b) w l * (w / 8))) (.vscat d a b m e))

/-- 14 R333 to R336, 07 R198, R200: FENCE completes at once, but at DOMAIN or SYSTEM scope with wr or ww while the acknowledgement counter is
above zero, when it waits; STFE and FECLR set and clear the full/empty bit of a line of the scratchpad, or of the line that a stash-mapped
address has; LDSYNC loads from a full line of either and waits on an empty one, a stash line filled first; WAITV loads when its condition holds,
and otherwise waits with nothing recorded. -/
def Obligations.SyncFormsAct : Prop :=
  ∀ (s s1 s2 s3 : State) (d a b : BitVec 5) (sc w : BitVec 3) (k : BitVec 4) (c : BitVec 1) (bs : List Byte) (line x : Nat) (e : StashEntry),
    let va := readX (me s) a
    let n := bytesOf w
    let loads := fun (t : State) => done (modMe t (fun u => writeX u d (loadedAs w (ofBytes bs))))
    (Passes (syncForm [] (badScope sc || decide (k = 0)) true) s →
      (sc.toNat < 4 ∨ k.toNat < 4 ∨ (me s).acks = 0 → exec (.fence sc k) s = .next (wrote s id)) ∧
      (4 ≤ sc.toNat → 4 ≤ k.toNat → 0 < (me s).acks → exec (.fence sc k) s = .next (waiting (started s)))) ∧
    (Passes (syncForm [a] false true) s → flagLine va (started s) = .ok (line, s1) →
      exec (.stfe a) s = .next (done (setFull s1 (localTile s) line)) ∧ exec (.feclr a) s = .next (done (clearFull s1 (localTile s) line))) ∧
    (isCourier s.cur = false → inWindow va.toNat = true → inScratch (getTile s (localTile s)) (localOff va) 1 = true →
      flagLine va (started s) = .ok (localOff va / 128, started s)) ∧
    (Passes (syncForm [d, a] (decide (w = 7)) false) s → Local s va n → inScratch (getTile s (localTile s)) (localOff va) n = true →
      (isFull s (localTile s) (localOff va / 128) = true → exec (.ldsync d a w) s = .next (
        wrote s (fun t => writeX t d (loadedAs w (ofBytes (localBytes s va n)))))) ∧
      (isFull s (localTile s) (localOff va / 128) = false → exec (.ldsync d a w) s = .next (waiting (started s)))) ∧
    (Passes (syncForm [d, a] (decide (w = 7)) false) s → check kWait va n (started s) = .ok (.global x, s1) → s1.cur = s.cur →
      stashOf s1 (localTile s) (agentCtx s1 s.cur) va.toNat = some (line, e) → stashTouch va false s1 = .ok ((), s2) →
      (isFull s2 (localTile s) line = true → loadBytes kWait va n s2 = .ok (bs, s3) → exec (.ldsync d a w) s = .next (loads s3)) ∧
      (isFull s2 (localTile s) line = false → exec (.ldsync d a w) s = .next (waiting s2))) ∧
    (Passes (syncForm [d, a, b] (badScope sc || decide (w = 7)) false) s → loadBytes kWait va n (started s) = .ok (bs, s1) →
      let holds := ofBytes bs = (readX (me s) b).toNat % 2 ^ (8 * n)
      ((holds ↔ c = 1) → exec (.waitv d a b sc c w) s = .next (loads s1)) ∧
      (¬ (holds ↔ c = 1) → exec (.waitv d a b sc c w) s = .next (waiting (started s))))

/-! ## Vector instructions (chapter 13) -/

/-- 13 R307: under the masking rule, an active lane of the result is what the instruction computed for it, taken modulo 2^w, and an
inactive lane keeps its old value. -/
def Obligations.InactiveLanesAreKept : Prop :=
  ∀ (e : BitVec 2) (mask : Word) (old : Vec) (res : Nat → Nat) (l : Nat),
    let w := laneWidth e
    l < 512 / w →
      laneAt w (maskedLanes w mask old res) l = if mask.getLsbD l then BitVec.ofNat w (res l) else laneAt w old l

/-- 11 R279, 05 R153, 13 R307: a source or destination that is not marked is the register; a marked source takes the next buffered group
of its bound input stream and moves its position, waits while none is buffered, takes MEM_UE where the group has an uncorrectable error
(06 R178), and raises STREAM past the pattern's end; a marked
destination appends one group, with zeros where a lane is inactive, and waits while four are unwritten. -/
def Obligations.VectorOperandsReadAndLand : Prop :=
  ∀ (s : State) (r : BitVec 5) (f : Vec → Vec) (off : Int),
    let st := streamOf (me s) (r.toNat % 8)
    vsource false r s = .ok (readV (me s) r, s) ∧
    vdest false r f s = .ok ((), modMe s (fun t => writeV t r (f (readV t r)))) ∧
    (st.bound = false ∨ patternLength st.dims ≤ st.position → vsource true r s = .error (.fault (faultInfo 0x11 0 0 0 0)) ∧
      vdest true r f s = .error (.fault (faultInfo 0x11 0 0 0 0))) ∧
    (st.bound = true → st.position < patternLength st.dims → patternOffset st.base st.dims st.position = some off →
      groupInside (getTile s (agentTile s.cur)) off = true →
      (st.out = false → st.buffer = [] → vsource true r s = if groupReadable (getTile s (agentTile s.cur)) off then .error (.wait s)
        else .error (.fault (faultInfo 0x08 0x03 0 (BitVec.ofNat 64 (windowBase + off.toNat)) 0))) ∧
      (st.out = false → ∀ g rest, st.buffer = g :: rest → ∃ s1, vsource true r s = .ok (g, s1) ∧
        (streamOf (me s1) (r.toNat % 8)).buffer = rest ∧ (streamOf (me s1) (r.toNat % 8)).position = st.position + 1 ∧ (me s1).v = (me s).v) ∧
      (st.out = true → 4 ≤ st.buffer.length → vdest true r f s = .error (.wait s)) ∧
      (st.out = true → st.buffer.length < 4 → ∃ s1, vdest true r f s = .ok ((), s1) ∧
        (streamOf (me s1) (r.toNat % 8)).buffer = st.buffer ++ [f 0] ∧ (streamOf (me s1) (r.toNat % 8)).position = st.position + 1 ∧
        (me s1).v = (me s).v))

/-- 13 R308, R310, R311: each VOP row computes its lanes from va and vb, or in the X form from va and the scalar, and lands them under the
mask; the saturating rows set ISAT when they clamp an active lane. -/
def Obligations.VectorIntegerLanes : Prop :=
  ∀ (s s2 s3 : State) (d a b : BitVec 5) (m : BitVec 3) (e : BitVec 2) (va vb : Vec),
    let w := laneWidth e
    let mask := readM (me s) m
    let sc := (readX (me s) b).setWidth w
    (∀ row ∈ vopRows,
      (Passes (vbinForm false d a b m 0) s → ReadsAB s a b va vb s2 →
        Lands s d (fun old => maskedLanes w mask old (fun l => (row.2 w (laneAt w va l) (laneAt w vb l)).toNat)) s2 s3 →
        exec (row.1 d a b m e 0) s = .next (done s3)) ∧
      (Passes (vbinForm false d a b m 1) s → ReadsA s a va s2 →
        Lands s d (fun old => maskedLanes w mask old (fun l => (row.2 w (laneAt w va l) sc).toNat)) s2 s3 →
        exec (row.1 d a b m e 1) s = .next (done s3))) ∧
    (∀ row ∈ vsatRows,
      (Passes (vbinForm false d a b m 0) s → ReadsAB s a b va vb s2 →
        Lands s d (fun old => maskedLanes w mask old (fun l => (row.2 w (laneAt w va l) (laneAt w vb l)).1.toNat)) s2 s3 →
        exec (row.1 d a b m e 0) s = .next (done (setFlags s3
          (activeFlags w mask (fun l => if (row.2 w (laneAt w va l) (laneAt w vb l)).2 then 0x100 else 0))))) ∧
      (Passes (vbinForm false d a b m 1) s → ReadsA s a va s2 →
        Lands s d (fun old => maskedLanes w mask old (fun l => (row.2 w (laneAt w va l) sc).1.toNat)) s2 s3 →
        exec (row.1 d a b m e 1) s = .next (done (setFlags s3
          (activeFlags w mask (fun l => if (row.2 w (laneAt w va l) sc).2 then 0x100 else 0))))))

/-- 13 R308, R312, R313: each VFOP and VFMA row computes the scalar operation in every active lane, in the lane's format, lands the results
under the mask, and ORs in the flags of the active lanes only. -/
def Obligations.VectorFloatLanes : Prop :=
  ∀ (s s2 s3 : State) (d a b c : BitVec 5) (m : BitVec 3) (e : BitVec 2) (va vb vc : Vec),
    let k := fmtOf e
    let w := k.width
    let mask := readM (me s) m
    let mode := modeOf (me s)
    let sc := (readX (me s) b).toNat % 2 ^ w
    let lanes := fun (r : Nat → Nat × Nat) (i : Instr) =>
      Lands s d (fun old => maskedLanes w mask old (fun l => (r l).1)) s2 s3 →
      exec i s = .next (done (setFlags s3 (activeFlags w mask (fun l => (r l).2))))
    (∀ row ∈ vfopRows,
      (Passes (vbinForm row.2.1 d a b m 0) s → ReadsAB s a b va vb s2 →
        lanes (fun l => row.2.2 k mode (lane va w l) (lane vb w l)) (row.1 d a b m e 0)) ∧
      (Passes (vbinForm row.2.1 d a b m 1) s → ReadsA s a va s2 → lanes (fun l => row.2.2 k mode (lane va w l) sc) (row.1 d a b m e 1))) ∧
    (Passes (vunaryForm true false d a m) s → ReadsA s a va s2 → lanes (fun l => fsqrt k mode (lane va w l)) (.vfsqrt d a m e)) ∧
    (∀ row ∈ vfmaRows, Passes (vfmaForm d a b c m) s → ReadsABC s a b c va vb vc s2 →
      lanes (fun l => ffma k mode row.2.1 row.2.2 (lane va w l) (lane vb w l) (lane vc w l)) (row.1 d a b c m e))

/-- 13 R308, R314: VCMP writes M[d]: the condition in each active lane's bit, the old bit in each inactive lane's, 0 above the lanes; a
write of m0 is discarded. -/
def Obligations.VectorComparisonsWriteAMask : Prop :=
  ∀ (s s2 : State) (d a b : BitVec 5) (m : BitVec 3) (e : BitVec 2) (va vb : Vec),
    let mask := readM (me s) m
    let md := d.setWidth 3
    let wi := laneWidth e
    let k := fmtOf e
    let sc := readX (me s) b
    let result := fun (w : Nat) (cond : Nat → Bool) (t : Strand) => writeM t md (maskResult w mask (readM t md) cond)
    (∀ row ∈ vcmpRows,
      (Passes (vcmpForm d a b m 0) s → ReadsAB s a b va vb s2 →
        exec (row.1 d a b m e 0) s = .next (done (modMe s2 (result wi (fun l => row.2 wi (laneAt wi va l) (laneAt wi vb l)))))) ∧
      (Passes (vcmpForm d a b m 1) s → ReadsA s a va s2 →
        exec (row.1 d a b m e 1) s = .next (done (modMe s2 (result wi (fun l => row.2 wi (laneAt wi va l) (sc.setWidth wi))))))) ∧
    (∀ row ∈ vfcmpRows,
      (Passes (vcmpForm d a b m 0) s → ReadsAB s a b va vb s2 →
        exec (row.1 d a b m e 0) s = .next (done (setFlags
          (modMe s2 (result k.width (fun l => (row.2 k (lane va k.width l) (lane vb k.width l)).1)))
          (activeFlags k.width mask (fun l => (row.2 k (lane va k.width l) (lane vb k.width l)).2))))) ∧
      (Passes (vcmpForm d a b m 1) s → ReadsA s a va s2 →
        exec (row.1 d a b m e 1) s = .next (done (setFlags
          (modMe s2 (result k.width (fun l => (row.2 k (lane va k.width l) (sc.toNat % 2 ^ k.width)).1)))
          (activeFlags k.width mask (fun l => (row.2 k (lane va k.width l) (sc.toNat % 2 ^ k.width)).2))))))

/-- 13 R315, 09 R245: a reduction combines the start value with the active lanes, an integer one in lane order and extended as its row
states, a floating one in the order of its form; a scan lands the running values in the active lanes. -/
def Obligations.VectorReductionsAndScans : Prop :=
  ∀ (s s2 s3 : State) (d a b : BitVec 5) (m : BitVec 3) (e : BitVec 2) (vb : Vec),
    let mask := readM (me s) m
    let w := laneWidth e
    let k := fmtOf e
    let x := readX (me s) a
    let mode := modeOf (me s)
    (∀ row ∈ vredRows, Passes (vredForm false d a b m) s → ReadsB s b vb s2 →
      exec (row.1 d a b m e) s = .next (done (modMe s2 (fun t => writeX t d (
        let r := (((List.range (512 / w)).filter (fun l => mask.getLsbD l)).map (laneAt w vb)).foldl (row.2.2 w) (x.setWidth w)
        if row.2.1 then r.signExtend 64 else r.setWidth 64))))) ∧
    (∀ row ∈ vfredRows, Passes (vredForm row.2.1 d a b m) s → ReadsB s b vb s2 →
      exec (row.1 d a b m e) s = .next (
        let f := row.2.2.2 k mode
        let x0 := x.toNat % 2 ^ k.width
        let r := if row.2.2.1 then pairOrder f k.width mask x0 vb else laneOrder f x0 (activeLanes k.width mask vb)
        done (setFlags (modMe s2 (fun t => writeX t d (BitVec.ofNat 64 r.1))) r.2))) ∧
    (Passes (vscanForm false d a b m) s → ReadsB s b vb s2 →
      Lands s d (fun old => maskedLanes w mask old (fun l =>
        ((((List.range (l + 1)).filter (fun j => mask.getLsbD j)).map (laneAt w vb)).foldl (· + ·) (x.setWidth w)).toNat)) s2 s3 →
      exec (.vscan d a b m e) s = .next (done s3)) ∧
    (Passes (vscanForm true d a b m) s → ReadsB s b vb s2 →
      let r := running (fadd k mode) k.width mask vb (x.toNat % 2 ^ k.width) 0 (List.range (laneCount k.width))
      Lands s d (fun old => maskedLanes k.width mask old (fun l => r.1.getD l 0)) s2 s3 →
      exec (.vfscano d a b m e) s = .next (done (setFlags s3 r.2)))

/-- 13 R317: broadcast, extract, insert, slides, permutation and selection. -/
def Obligations.VectorPermutes : Prop :=
  ∀ (s s2 s3 : State) (d a b : BitVec 5) (m : BitVec 3) (e : BitVec 2) (va vb : Vec),
    let w := laneWidth e
    let n := 512 / w
    let mask := readM (me s) m
    let i := (readX (me s) b).toNat
    let at' := fun (v : Vec) (j : Nat) => if j < n then lane v w j else 0
    (Passes (vbcastForm d a m) s → Lands s d (fun old => maskedLanes w mask old (fun _ => (readX (me s) a).toNat)) (started s) s3 →
      exec (.vbcast d a m e) s = .next (done s3)) ∧
    (Passes (vextractForm d a b) s → ReadsA s a va s2 →
      exec (.vextract d a b e) s = .next (done (modMe s2 (fun t => writeX t d (BitVec.ofNat 64 (at' va i)))))) ∧
    (Passes (vinsertForm d a b) s →
      Lands s d (fun old => ofLanes w ((List.range n).map (fun l => if l = i then (readX (me s) a).toNat else lane old w l))) (started s) s3 →
      exec (.vinsert d a b e) s = .next (done s3)) ∧
    (Passes (vslideForm d a b m) s → ReadsA s a va s2 →
      (Lands s d (fun old => ofLanes w ((List.range n).map (fun l =>
          if mask.getLsbD l ∧ i ≤ l then lane va w (l - i) else lane old w l))) s2 s3 →
        exec (.vslideup d a b m e) s = .next (done s3)) ∧
      (Lands s d (fun old => maskedLanes w mask old (fun l => at' va (l + i))) s2 s3 →
        exec (.vslidedown d a b m e) s = .next (done s3))) ∧
    (Passes (vpairForm false false d a b m) s → ReadsAB s a b va vb s2 →
      (Lands s d (fun old => maskedLanes w mask old (fun l => at' va (lane vb w l))) s2 s3 → exec (.vperm d a b m e) s = .next (done s3)) ∧
      (Lands s d (fun _ => ofLanes w ((List.range n).map (fun l => if mask.getLsbD l then lane va w l else lane vb w l))) s2 s3 →
        exec (.vsel d a b m e) s = .next (done s3)))

/-- 13 R318 to R320: widening, narrowing with and without saturation, conversions and the PS8 decoding, each in its active lanes, with the
flags that its row raises. -/
def Obligations.VectorConversions : Prop :=
  ∀ (s s2 s3 : State) (d a b : BitVec 5) (m p : BitVec 3) (e : BitVec 2) (h : BitVec 1) (va vb : Vec),
    let w := laneWidth e
    let k := fmtOf e
    let mask := readM (me s) m
    let mode := modeOf (me s)
    let half := fun (w l : Nat) => h.toNat * (512 / w) + l
    let pair := fun (w l : Nat) => if l < 512 / w / 2 then lane va (2 * w) l else lane vb (2 * w) (l - 512 / w / 2)
    let lanes := fun (w : Nat) (r : Nat → Nat × Nat) (i : Instr) =>
      Lands s d (fun old => maskedLanes w mask old (fun l => (r l).1)) s2 s3 →
      exec i s = .next (done (setFlags s3 (activeFlags w mask (fun l => (r l).2))))
    (ReadsA s a va s2 →
      (Passes (vunaryForm false (decide (e = 0)) d a m) s →
        lanes w (fun l => (((laneAt (w / 2) va (half w l)).signExtend w).toNat, 0)) (.vsext d a m e h) ∧
        lanes w (fun l => (lane va (w / 2) (half w l), 0)) (.vzext d a m e h)) ∧
      (Passes (vunaryForm false (decide (e.toNat < 2)) d a m) s →
        let src := if e = 3 then fp32 else fp16
        lanes k.width (fun l => fconvert src k mode (lane va src.width (half k.width l))) (.vfwiden d a m e h)) ∧
      (Passes (vunaryForm false (!(decide (e = 2))) d a m) s →
        lanes 32 (fun l => fconvert bf16 fp32 mode (lane va 16 (half 32 l))) (.vfwidenBf d a m e h)) ∧
      (Passes (vunaryForm true (!(decide (b = 0))) d a m) s →
        lanes k.width (fun l => fofint k mode (laneAt k.width va l).toInt) (.vfcvtFX d a b m e) ∧
        lanes k.width (fun l => fofint k mode (laneAt k.width va l).toNat) (.vfcvtFXu d a b m e) ∧
        lanes k.width (fun l => let r := ftoint k mode k.width true (lane va k.width l); (wrap k.width r.1, r.2)) (.vfcvtXF d a b m e) ∧
        lanes k.width (fun l => let r := ftoint k mode k.width false (lane va k.width l); (wrap k.width r.1, r.2)) (.vfcvtXuF d a b m e)) ∧
      (Passes (vunaryForm false (decide (64 < (p.toNat + 1) * laneCount k.width)) d a m) s →
        lanes k.width (fun l => (ps8To k (lane va 8 (p.toNat * laneCount k.width + l)), 0)) (.vps8 d a m e p))) ∧
    (ReadsAB s a b va vb s2 →
      (Passes (vpairForm false (decide (e = 3)) d a b m) s →
        lanes w (fun l => saturate w true (sext (pair w l) (2 * w))) (.vnarrow d a b m e) ∧
        lanes w (fun l => saturate w false (sext (pair w l) (2 * w))) (.vnarrowsu d a b m e) ∧
        lanes w (fun l => saturate w false (pair w l)) (.vnarrowu d a b m e) ∧
        lanes w (fun l => (pair w l, 0)) (.vtrunc d a b m e)) ∧
      (Passes (vpairForm true (decide (e = 3)) d a b m) s →
        lanes k.width (fun l => fconvert (if e = 2 then fp64 else fp32) k mode (pair k.width l)) (.vfnarrow d a b m e)))

/-- 13 R321: the MASK rows; masks are whole 64-bit values, and a write of m0 is discarded (`writeM`). -/
def Obligations.MaskRowsWriteTheirResult : Prop :=
  ∀ (s : State) (d a b : BitVec 5),
    let rm := fun (r : BitVec 5) => readM (me s) (r.setWidth 3)
    let x := readX (me s) a
    (Passes (maskForm [d, a, b] []) s → ∀ row ∈ maskRows,
      exec (row.1 d a b) s = .next (wrote s (fun t => writeM t (d.setWidth 3) (row.2 (rm a) (rm b))))) ∧
    (Passes (maskForm [d, a] []) s → exec (.mnot d a) s = .next (wrote s (fun t => writeM t (d.setWidth 3) (~~~(rm a))))) ∧
    (Passes (maskForm [d] [a]) s →
      exec (.mset d a) s = .next (wrote s (fun t => writeM t (d.setWidth 3) x)) ∧
      exec (.mfirstn d a) s = .next (wrote s (fun t => writeM t (d.setWidth 3)
        (if 64 ≤ x.toNat then BitVec.allOnes 64 else BitVec.twoPow 64 x.toNat - 1)))) ∧
    (Passes (maskForm [a] [d]) s →
      exec (.mget d a) s = .next (wrote s (fun t => writeX t d (rm a))) ∧
      exec (.mpopc d a) s = .next (wrote s (fun t => writeX t d (rm a).cpop)) ∧
      exec (.mfirst d a) s = .next (wrote s (fun t => writeX t d (rm a).ctz)))

/-! ## Latches, faults and replies (chapters 6, 11 and 16) -/

/-- 11 R275 to R278: XIMM fills the latch, and a third one faults; MOD fills its place, and one whose place is full or whose mode is
reserved faults; the HINT words change nothing but pc, budget and the issue slot. -/
def Obligations.LightWordsFillTheLatches : Prop :=
  ∀ (s : State) (p : BitVec 24) (tk : BitVec 1) (n : BitVec 8) (r : BitVec 3) (q : BitVec 4),
    (Passes lightForm s →
      exec .hintNop s = .next (lightly s id) ∧ exec (.hintTaken tk) s = .next (lightly s id) ∧
      exec (.hintSpin n) s = .next (lightly s id) ∧ exec .hintKeep s = .next (lightly s id) ∧
      ((me s).xlCount < 2 →
        exec (.ximm p) s = .next (lightly s (fun t => { t with xlCount := t.xlCount + 1, xlBits := (t.xlBits ++ p).setWidth 48 }))) ∧
      ((me s).frm = none → r.toNat < 5 → exec (.modFrm r) s = .next (lightly s (fun t => { t with frm := some r }))) ∧
      ((me s).qsel = none → exec (.modQsel q) s = .next (lightly s (fun t => { t with qsel := some q })))) ∧
    ((me s).deferred = none →
      (2 ≤ (me s).xlCount → exec (.ximm p) s = .next (takeFault s (faultInfo 0x01 0x03 0 0 0))) ∧
      ((me s).frm ≠ none ∨ 5 ≤ r.toNat → exec (.modFrm r) s = .next (takeFault s (faultInfo 0x01 0x04 0 0 0))) ∧
      ((me s).qsel ≠ none → exec (.modQsel q) s = .next (takeFault s (faultInfo 0x01 0x04 0 0 0))))

/-- 06 R172, R174; 16 R383; 00 R12: taking a fault, with the mailbox at the ostler SVC role. The agent's registers and pc stand as before
the instruction, both latches are kept unless the fault is ILLEGAL; a 64-byte message with the fields of R172 is posted, and the agent
blocks until the reply that names it. Other agents and memory are untouched. 16 R379 to R381, 11 R273: SYSC and BRK take their faults,
with the code in the sub-code field and SYSC's argument in the address field; ILL takes ILLEGAL whatever its fields. -/
def Obligations.FaultsAreTakenPrecisely : Prop :=
  (∀ (s : State) (f : FaultInfo), (me s).acks = 0 → (getCtx s (agentCtx s s.cur)).service = 0 →
     let t := takeFault s f
     let u := getAgent t s.cur
     (u.pc = (me s).pc ∧ u.x = (me s).x ∧ u.v = (me s).v ∧ u.m = (me s).m ∧ u.fcsr = (me s).fcsr ∧ u.a = (me s).a ∧ u.q = (me s).q ∧
       u.pshape = (me s).pshape ∧ u.act = (me s).act) ∧
     (if f.code = 0x01 then u.xlCount = 0 ∧ u.frm = none ∧ u.qsel = none
       else u.xlCount = (me s).xlCount ∧ u.xlBits = (me s).xlBits ∧ u.frm = (me s).frm ∧ u.qsel = (me s).qsel) ∧
     u.pending = some f ∧ u.status = .awaitReply 0 s.svcPosted ∧ t.svcPosted = s.svcPosted + 1 ∧
     (∃ msg, t.svcInbox = s.svcInbox ++ [msg] ∧ msg.length = 64 ∧ fieldAt msg 0 1 = f.code.toNat ∧ fieldAt msg 1 1 = f.kind.toNat ∧
       fieldAt msg 2 2 = f.sub.toNat ∧ fieldAt msg 4 4 = (agentCtx s s.cur).toNat ∧ fieldAt msg 8 4 = (agentRun s s.cur).toNat ∧
       fieldAt msg 16 8 = f.addr.toNat ∧ fieldAt msg 24 8 = (me s).pc.toNat ∧ fieldAt msg 40 8 = s.now % 2 ^ 64 ∧
       fieldAt msg 48 8 = f.entry.toNat ∧ fieldAt msg 56 4 = s.svcPosted.toNat) ∧
     (∀ b, b ≠ s.cur → getAgent t b = getAgent s b) ∧ t.hbm = s.hbm ∧ t.l2 = s.l2 ∧ t.contexts = s.contexts) ∧
  (∀ (s : State) (d a : BitVec 5) (c : BitVec 12) (x : BitVec 26),
     (Passes (noCourier [d, a]) s →
       exec (.sysc d a c) s = .next (takeFault s { faultInfo 0x0D c.toNat 0 (readX (me s) a) 0 with dest := d })) ∧
     (Passes (noCourier []) s → exec (.brk c) s = .next (takeFault s (faultInfo 0x0E c.toNat 0 0 0))) ∧
     ((me s).deferred = none → ∃ sub, exec (.ill x) s = .next (takeFault s (faultInfo 0x01 sub 0 0 0))))

/-- 16 R384, 06 R172: a reply that names the message its poster waits for acts by its disposition: RETRY leaves the agent to execute the
instruction again with its latches, NEXT skips it, and the NEXT of a SYSC also writes the reply's value; END ends the activation with the
fault's code; any other reply is discarded. A reply that came as a packet is acknowledged besides; one of a mailbox other than the SVC
role's clears the BUSY bit of its slot first. -/
def Obligations.RepliesResumeTheirPoster : Prop :=
  ∀ (s s1 : State) (a : Agent) (r : FaultReply) (f : FaultInfo) (p : Packet),
    let plain := fun (t : Strand) => { t with pending := none, status := .ready }
    (posterAgent s r.poster.toNat (r.posterFlags.getLsbD 0) = some a →
      (r.from? = none → r.mailbox = 0 → exec (.reply r) s = .next (deliverReply s a r.mailbox r.seq r.disp r.value)) ∧
      (r.from? = some p → exec (.reply r) s = .next (acknowledge (deliverReply s a r.mailbox r.seq r.disp r.value) p [] 0 0 0 0)) ∧
      (r.from? = none → r.mailbox = 0 → (getAgent s a).status = .awaitReply 0 r.seq → (getAgent s a).act ≠ .free →
        (getAgent s a).pending = some f → f.code ≠ 0x0B →
        ∃ t, exec (.reply r) s = .next t ∧
          (r.disp = 0 → getAgent t a = plain (getAgent s a)) ∧
          (r.disp = 1 → f.kind.getLsbD 7 = false → f.code ≠ 0x0D →
            getAgent t a = consume (plain (getAgent s a)) ((getAgent s a).pc + 4)) ∧
          (r.disp = 1 → f.kind.getLsbD 7 = false → f.code = 0x0D →
            getAgent t a = consume (writeX (plain (getAgent s a)) f.dest r.value) ((getAgent s a).pc + 4)) ∧
          (r.disp = 2 → t = endActivation (putAgent s a (plain (getAgent s a))) a f.code)) ∧
      ((getAgent s a).status ≠ .awaitReply r.mailbox r.seq → deliverReply s a r.mailbox r.seq r.disp r.value = s)) ∧
    (posterAgent s1 r.poster.toNat (r.posterFlags.getLsbD 0) = some a → r.from? = none → r.mailbox ≠ 0 →
      clearBusy s r.mailbox (r.seq.toNat % 64) = .ok () s1 →
      exec (.reply r) s = .next (deliverReply s1 a r.mailbox r.seq r.disp r.value))

/-! ## System, control registers, messages and work (chapter 16) -/

/-- 16 R385, R386; 11 R267, R268; 09 R234: a CSR form reads the old value into X[d] and writes what its form states; CSRS and CSRC with
a = 0 only read; a CSR that is not named, and a rounding mode of 5 to 7, fault and write nothing; a write of XL loads the latch. -/
def Obligations.CsrFormsReadAndWrite : Prop :=
  ∀ (s : State) (d a : BitVec 5) (n : BitVec 12) (old : Nat),
    (Passes (csrAccess n [d] false) s →
      (csrValue (started s) s.cur n.toNat = none → exec (.csrr d n) s = .next (takeFault s (faultInfo 0x01 0x05 0 0 0))) ∧
      (csrValue (started s) s.cur n.toNat = some old → exec (.csrr d n) s = .next (wrote s (fun t => writeX t d (BitVec.ofNat 64 old))))) ∧
    (Passes (csrAccess n [d, 0] false) s → csrValue (started s) s.cur n.toNat = some old →
      exec (.csrs d 0 n) s = .next (wrote s (fun t => writeX t d (BitVec.ofNat 64 old))) ∧
      exec (.csrc d 0 n) s = .next (wrote s (fun t => writeX t d (BitVec.ofNat 64 old)))) ∧
    (Passes (csrAccess n [d, a] true) s → n ≠ 2 → csrValue (started s) s.cur n.toNat = some old → ∀ s1,
      (csrStore n.toNat (readX (me s) a).toNat (started s) = .ok ((), s1) →
        exec (.csrw d a n) s = .next (done (modMe s1 (fun t => writeX t d (BitVec.ofNat 64 old))))) ∧
      (a ≠ 0 → csrStore n.toNat ((old ||| (readX (me s) a).toNat) % 2 ^ 64) (started s) = .ok ((), s1) →
        exec (.csrs d a n) s = .next (done (modMe s1 (fun t => writeX t d (BitVec.ofNat 64 old))))) ∧
      (a ≠ 0 → csrStore n.toNat (old &&& (~~~(readX (me s) a)).toNat) (started s) = .ok ((), s1) →
        exec (.csrc d a n) s = .next (done (modMe s1 (fun t => writeX t d (BitVec.ofNat 64 old)))))) ∧
    (Passes (csrAccess 2 [d, a] true) s → isCourier s.cur = false → bits (readX (me s) a).toNat 63 62 ≠ 3 →
      ∃ t, exec (.csrw d a 2) s = .next t ∧ (getAgent t s.cur).xlCount = bits (readX (me s) a).toNat 63 62 ∧
        (getAgent t s.cur).xlBits = (readX (me s) a).setWidth 48 ∧ (getAgent t s.cur).pc = (me s).pc + 4) ∧
    (Passes (csrAccess 1 [d, a] true) s → 5 ≤ bits (readX (me s) a).toNat 7 5 →
      exec (.csrw d a 1) s = .next (takeFault s (faultInfo 0x01 0x05 0 0 0)))

/-- 11 R267, R268; 01 R42; 05 R132, R148; 15 R350; 09 R234: what the CSRs of a strand hold, and what a write of FCSR or a PSHAPE stores.
03 R81, 16 R386: in block mode a write of CSR 0x300 to 0x3FF or of XL raises PRIV and changes nothing else; in ostler mode the pool
boundaries are written. -/
def Obligations.CsrsHoldTheirRegisters : Prop :=
  (∀ (s : State) (n v : Nat), isCourier s.cur = false →
     csrValue s s.cur 0x001 = some (me s).fcsr.toNat ∧
     csrValue s s.cur 0x010 = some (s.now % 2 ^ 64) ∧
     csrValue s s.cur 0x011 = some (me s).fare.toNat ∧
     (n < 16 → csrValue s s.cur (0x100 + n) = some ((me s).pshape.toList.getD n 0).toNat) ∧
     csrValue s s.cur 0x208 = some (agentBlock s s.cur) ∧
     csrValue s s.cur 0x209 = some (agentRun s s.cur).toNat ∧
     csrValue s s.cur 0x20A = some (getCtx s (agentCtx s s.cur)).service.toNat ∧
     csrValue s s.cur 0x300 = some (getTile s (agentTile s.cur)).pbLo ∧
     csrValue s s.cur 0x301 = some (getTile s (agentTile s.cur)).pbMid ∧
     csrValue s s.cur 0x302 = some (getTile s (agentTile s.cur)).pbHi ∧
     csrStore 0x001 v s = (if 5 ≤ bits v 7 5 then .error (.fault (faultInfo 0x01 0x05 0 0 0))
       else .ok ((), modMe s (fun t => { t with fcsr := BitVec.ofNat 9 v }))) ∧
     (n < 16 → ∃ s1, csrStore (0x100 + n) v s = .ok ((), s1) ∧ (me s1).pshape.toList.getD n 0 = shapeStored v ∧
       ∀ k, k ≠ n → (me s1).pshape.toList.getD k 0 = (me s).pshape.toList.getD k 0)) ∧
  (∀ (s : State) (d a : BitVec 5) (n : BitVec 12), isCourier s.cur = false → (me s).deferred = none → (me s).replyFault = none →
     (me s).xlCount = 0 → (me s).frm = none → (me s).qsel = none →
     (ostlerMode s s.cur = false → (n = 2 ∨ n = 0x300 ∨ n = 0x301 ∨ n = 0x302 ∨ n = 0x303) →
       exec (.csrw d a n) s = .next (takeFault s (faultInfo 0x02 0 0 0 0))) ∧
     (ostlerMode s s.cur = true → n = 0x300 →
       ∃ t, exec (.csrw d a n) s = .next t ∧ (getTile t (agentTile s.cur)).pbLo = (readX (me s) a).toNat % 2 ^ 16))

/-- 16 R381, R382, R387; 05 R134 to R136, R152; 04 R108; 02 R74: EXIT ends the activation, and raises ACCLEAK while the strand holds
accumulator names; outside a recorded run a block's strand is then free, and its run counts one block more that exited and one fewer that
remains. YIELD goes on after each other strand of its core that can issue has issued; GEAR returns the old request and makes the new one. -/
def Obligations.ExitYieldAndGear : Prop :=
  ∀ (s : State) (d : BitVec 5) (g : BitVec 1),
    (Passes plainForm s →
      ((me s).a.toList.any Option.isSome = true → exec .exit s = .next (takeFault s (faultInfo 0x0B 0 0 0 (boundNames (me s))))) ∧
      ((me s).a.toList.any Option.isSome = false → (∀ q < 8, (streamOf (me s) q).bound = false) →
        (getRun s (agentRun s s.cur)).lr.record = false →
        exec .exit s = .next (tick (endActivation (started s) s.cur 0)))) ∧
    (∀ (n i : Nat) (run : BitVec 32), (s.strands.get {} n).act = .block run i → (getRun s run).lr.record = false → 1 < (getRun s run).remaining →
      let t := endActivation s (.strand n) 0
      t.strands.has n = false ∧ (getRun t run).exited = (getRun s run).exited + 1 ∧
      (getRun t run).remaining = (getRun s run).remaining - 1 ∧ (getRun t run).blocks.get .waiting i = .exited ∧
      (getRun t run).faultCode = (getRun s run).faultCode) ∧
    (Passes (noCourier []) s → ∃ t, exec .yield s = .next t ∧ getAgent t s.cur = consume (me s) ((me s).pc + 4) ∧
      ∀ n, s.cur = .strand n → ∀ k, (∃ j < 4, k = 4 * (n / 4) + j) → k ≠ n → (s.strands.get {} k).act ≠ .free → (s.strands.get {} k).status = .ready →
        ∃ others, (n, others) ∈ (getCore t (n / 4)).yields ∧ k ∈ others) ∧
    (Passes (noCourier [d]) s → exec (.gear d g) s = .next (done (gearCheck
      (modMe (started s) (fun t => { writeX t d (if t.gearReq then 1 else 0) with gearReq := decide (g = 1) })) (agentTile s.cur))))

/-- 16 R389 to R391, 05 R141, R144: SEND to a core of this device is held, refused or waits, as the target's state says; COURIER puts its
message in the target core's inbox with the sender's budget; BIND and UNBIND set and clear the handler of the issuing run's slot, and no other. -/
def Obligations.MessagesReachTheirCore : Prop :=
  ∀ (s : State) (d a b : BitVec 5),
    let m := targetOf (readX (me s) a).toNat
    (Passes (sendForm d a b) s → targetBad (readX (me s) a).toNat true = false → m.dev = devnum s → ostlerTile s (m.core / 4) = false →
      (readX (me s) b).toNat < 2 ^ 32 →
      let run := if readX (me s) b = 0 then agentRun s s.cur else (readX (me s) b).setWidth 32
      exec (.send d a b) s = .next (match sendArrives (started s) m run (some (agentCtx s s.cur)) (readV (me s) d) with
        | .held s1 => done s1
        | .refused code sub => takeFault s (faultInfo code sub 1 (readX (me s) a) (if code = 0x0A then m.dev else 0))
        | .full => waiting (started s))) ∧
    (Passes (xForm [a, b]) s → isCourier s.cur = false → targetBad (readX (me s) a).toNat false = false → m.dev = devnum s →
      ostlerTile s (m.core / 4) = false → (readX (me s) b).toNat % 128 = 0 → inWindow (readX (me s) b).toNat = true →
      inScratch (getTile s (localTile s)) (localOff (readX (me s) b)) 128 = true → Sound s (localTile s) (localOff (readX (me s) b)) 128 → inboxUsed (getCore s m.core) < 32 →
      let desc := localBytes s (readX (me s) b) 128
      1 ≤ fieldAt desc 2 1 → fieldAt desc 2 1 ≤ 16 → zeroAt desc 3 1 = true → zeroAt desc 56 8 = true → fieldAt desc 8 8 = 0 →
      ∃ t c, exec (.courier a b) s = .next t ∧ c.budget = 64 ∧ c.run = BitVec.ofNat 32 (fieldAt desc 4 4) ∧
        (getCore t m.core).inbox = (getCore s m.core).inbox ++ [.courier c]) ∧
    (Passes (noCourier [a, b]) s → readX (me s) a ≠ 0 → (readX (me s) a).toNat % 4 = 0 → (readX (me s) b).toNat < 4 →
      (bootOfSlot (getRun s (agentRun s s.cur)).lr (readX (me s) b).toNat).isSome = true →
      ∃ t, exec (.bind a b) s = .next t ∧ ∀ r k h, (r, k, h) ∈ (getCore t (agentCore s.cur)).handlers ↔
        if r = agentRun s s.cur ∧ k = (readX (me s) b).toNat then h = readX (me s) a else (r, k, h) ∈ (getCore s (agentCore s.cur)).handlers) ∧
    (Passes (noCourier [b]) s → (readX (me s) b).toNat < 4 →
      (bootOfSlot (getRun s (agentRun s s.cur)).lr (readX (me s) b).toNat).isSome = true →
      ∃ t, exec (.unbind b) s = .next t ∧ ∀ r k h, (r, k, h) ∈ (getCore t (agentCore s.cur)).handlers ↔
        (r, k, h) ∈ (getCore s (agentCore s.cur)).handlers ∧ ¬ (r = agentRun s s.cur ∧ k = (readX (me s) b).toNat))

/-- 16 R383, R384: SVC.RECV claims the next posted message with one atomic step and returns its slot's address, and waits while none is
posted; SVC.RESUME sends the reply to a poster of this device; SVC.KILL clears the slot's BUSY bit and starts the kill. -/
def Obligations.ServiceFormsUseTheMailbox : Prop :=
  ∀ (s s1 s2 s3 : State) (d a : BitVec 5) (c : BitVec 12) (tg : Target) (old slot : Nat) (mb : Word) (msg : List Byte),
    let va := readX (me s) a
    (Passes (noCourier [d, a]) s →
      (2 ^ 57 ≤ va.toNat → exec (.svcRecv d a) s = .next (takeFault s (faultInfo 0x05 0x02 2 va 0))) ∧
      (va.toNat < 2 ^ 57 → va.toNat % 8192 ≠ 0 → exec (.svcRecv d a) s = .next (takeFault s (faultInfo 0x03 0 2 va 0))) ∧
      (va.toNat < 2 ^ 57 → va.toNat % 8192 = 0 → mailboxCheck va (started s) = .ok (tg, s1) → (me s1).replyValue = none → mailboxWord va s1 = .ok (old, s2) →
        (bits old 31 0 = bits old 63 32 → exec (.svcRecv d a) s = .next (waiting s2)) ∧
        (bits old 31 0 ≠ bits old 63 32 → mailboxSwap va tg old (setBits old 63 32 (bits old 63 32 + 1)) s2 = .ok (true, s3) →
          exec (.svcRecv d a) s = .next (done (modMe s3 (fun t => writeX t d (va + 128 + BitVec.ofNat 64 (64 * (bits old 63 32 % 64))))))))) ∧
    (Passes (resumeForm d a c) s → (me s).acks = 0 → busySlot va (started s) = .ok ((mb, slot, msg), s1) → fieldAt msg 36 2 = devnum s1 →
      exec (.svcResume d a c) s = .next (done (later s1 [.reply (replyFor mb msg c.toNat (readX (me s) d))]))) ∧
    (Passes (noCourier [a]) s → busySlot va (started s) = .ok ((mb, slot, msg), s1) → clearBusy s1 mb slot = .ok () s2 →
      fieldAt msg 36 2 = devnum s2 →
      exec (.svcKill a) s = .next (done (later s2 [.kill (BitVec.ofNat 32 (fieldAt msg 4 4))])))

/-- 16 R393 to R396, 08 R216: LAUNCH starts a run from its record and returns the run's identifier, and 0 for a record that is not valid;
RELAUNCH of a run it may not relaunch returns 1; WB.ALL and WB.SKIP act on the read buffer of a recorded run's block, and are no
operation elsewhere. -/
def Obligations.WorkFormsStartRuns : Prop :=
  ∀ (s s1 s2 : State) (d a b : BitVec 5) (l : BitVec 8) (bytes : List Byte),
    (Passes (noCourier [d, a, b]) s → readX (me s) b = 0 → readRecord (readX (me s) a) (started s) = .ok (bytes, s1) →
      (recordValid bytes = false → exec (.launch d a b) s = .next (done (modMe s1 (fun t => writeX t d 0)))) ∧
      (recordValid bytes = true → regionHeld s1 (agentCtx s1 s.cur) (recordOf bytes) = .ok true s2 →
        let r := startRun s2 (agentCtx s1 s.cur) (recordOf bytes) 0 (blockCount (recordOf bytes)) .none
        exec (.launch d a b) s = .next (done (modMe (bindRun r.1 r.2 (getCtx r.1 (agentCtx s1 s.cur)).prio) (fun t => writeX t d (r.2.setWidth 64)))))) ∧
    (Passes (noCourier [d, a, b]) s → readX (me s) b = 0 → s.runs.has ((readX (me s) a).setWidth 32).toNat = false →
      exec (.relaunch d a b l) s = .next (wrote s (fun t => writeX t d 1))) ∧
    (Passes (noCourier []) s → exec .wbAll s = .next (
      if recording s s.cur then wrote s (fun t => { t with buffer := { t.buffer with all := true } }) else wrote s id)) ∧
    (Passes (noCourier [a, b]) s → recording s s.cur = false → exec (.wbSkip a b) s = .next (wrote s id))

/-! ## Barriers, stash, carriages (chapters 7 and 14) -/

/-- 14 R337, R338, R340; 07 R202: the BAR forms on a barrier of the issuing tile: what each writes, X[d], the waiting, and the checks of the
address, the count and the byte count; a form that reads a word with an uncorrectable error takes MEM_UE (06 R178). BAR.ARRIVE.C reaches the
image of the issuing run on the target tile, or takes REMOTE_GONE. 04 R111: a BAR.WAIT.DOZE that the barrier releases in its tile's doze keeps
the word and completes with it when the tile has left the doze. -/
def Obligations.BarrierFormsActOnTheirWord : Prop :=
  ∀ (s : State) (d a b : BitVec 5),
    let va := readX (me s) a
    let y := readX (me s) b
    let w := barRead s (localTile s) va
    let read := fun (tile : Nat) => !wordsHit (getTile s tile).poolBad (localOff va) 16
    let put := fun (u : BarUpdate) => barUpdate (started s) (localTile s) va u
    let old := fun (s1 : State) => done (modMe s1 (fun t => writeX t d (BitVec.ofNat 64 w)))
    let bad := fun (code sub : Nat) => Host.Outcome.next (takeFault s (faultInfo code sub (if code = 0x01 then 0 else 2) (if code = 0x01 then 0 else va) 0))
    (∀ f ∈ [Instr.barInit a b, .barExpect a b, .barArriveC a b], Passes (noCourier [a, b]) s →
      (2 ^ 57 ≤ va.toNat → exec f s = bad 0x05 0x02) ∧
      (va.toNat < 2 ^ 57 → va.toNat % 16 ≠ 0 → exec f s = bad 0x03 0) ∧
      (va.toNat < 2 ^ 57 → va.toNat % 16 = 0 → inWindow va.toNat = false → exec f s = bad 0x04 0x03)) ∧
    (BarrierAt s va →
      (Passes (noCourier [a, b]) s →
        exec (.barInit a b) s = (if 1 ≤ y.toNat ∧ y.toNat < 2 ^ 24 then
          .next (done (poolWrite (started s) (localTile s) (localOff va) (leBytes 8 (y.toNat * 2 ^ 32) ++ leBytes 8 y.toNat))) else bad 0x01 0x01) ∧
        exec (.barExpect a b) s = (if 2 ^ 31 ≤ y.toNat then bad 0x01 0x01 else if read (localTile s) then .next (done (put (.expect y.toNat)))
          else bad 0x08 0x03) ∧
        (∀ target, target = localTile s / 8 * 8 + bits y.toNat 2 0 → ostlerTile s target = false →
          exec (.barArriveC a b) s = (
            if hasImage s target (agentRun s s.cur) = false then .next (takeFault s (faultInfo 0x0A 0x05 2 va (devnum s)))
            else if read target then .next (done (barUpdate (started s) target va .arrive)) else bad 0x08 0x03))) ∧
      (Passes (noCourier [d, a]) s →
        exec (.barArrive d a) s = (if read (localTile s) then .next (old (put .arrive)) else bad 0x08 0x03)) ∧
      (Passes (noCourier [d, a, b]) s → read (localTile s) = false → ∀ f ∈ [Instr.barTest d a b, .barWait d a b, .barWaitDoze d a b],
        exec f s = bad 0x08 0x03) ∧
      (Passes (noCourier [d, a, b]) s → read (localTile s) = true →
        exec (.barTest d a b) s = .next (old (started s)) ∧
        exec (.barWait d a b) s = .next (if phaseChanged w y then old (started s) else waiting (started s)) ∧
        let dozes := (getTile s (localTile s)).doze
        (∀ v, (me s).sysValue = some v → exec (.barWaitDoze d a b) s = .next (wrote s (fun t => writeX t d v))) ∧
        ((me s).sysValue = none → phaseChanged w y = true → dozes = false → exec (.barWaitDoze d a b) s = .next (old (started s))) ∧
        ((me s).sysValue = none → phaseChanged w y = false → exec (.barWaitDoze d a b) s = .next (
          waiting (gearCheck (modMe (started s) (fun t => { t with dozing := true, status := .stalled })) (localTile s)))) ∧
        ((me s).sysValue = none → phaseChanged w y = true → dozes = true → exec (.barWaitDoze d a b) s = .next (
          waiting (gearCheck (modMe (started s) (fun t => { t with dozing := false, sysValue := some (BitVec.ofNat 64 w), status := .stalled }))
            (localTile s))))))

/-- 07 R203, R202: one step of a barrier word. An arrival counts ARRIVALS down and leaves BYTES; an expect and a landing count BYTES up and
down; a failure enters its code only where ERR is 0 and counts its bytes down; when both counts are zero PHASE flips, ARRIVALS is reloaded,
BYTES is 0 and ERR is kept; otherwise PHASE stays. -/
def Obligations.BarrierStepsCountAndFlip : Prop :=
  ∀ (w reload n code : Nat) (u : BarUpdate), w < 2 ^ 64 → 0 < code → code < 128 →
    let v := barApply w u
    let r := barStep w reload u
    (bits (barApply w .arrive) 55 32 = (bits w 55 32 + (2 ^ 24 - 1)) % 2 ^ 24 ∧ bits (barApply w .arrive) 31 0 = bits w 31 0) ∧
    (bits (barApply w (.expect n)) 31 0 = (bits w 31 0 + n) % 2 ^ 32 ∧ bits (barApply w (.expect n)) 55 32 = bits w 55 32) ∧
    (n ≤ 2 ^ 32 → bits (barApply w (.land n)) 31 0 = (bits w 31 0 + 2 ^ 32 - n) % 2 ^ 32 ∧ bits (barApply w (.land n)) 55 32 = bits w 55 32 ∧
      bits (barApply w (.fail code n)) 31 0 = (bits w 31 0 + 2 ^ 32 - n) % 2 ^ 32 ∧
      bits (barApply w (.fail code n)) 62 56 = if bits w 62 56 = 0 then code else bits w 62 56) ∧
    bits v 63 63 = bits w 63 63 ∧
    (bits v 55 32 = 0 → bits v 31 0 = 0 →
      bits r 63 63 = 1 - bits w 63 63 ∧ bits r 62 56 = bits v 62 56 ∧ bits r 55 32 = bits reload 23 0 ∧ bits r 31 0 = 0) ∧
    (bits v 55 32 ≠ 0 ∨ bits v 31 0 ≠ 0 → r = v)

/-- 14 R342 to R345: STASH.MAP refuses an overlapping range and one for which no entry or no lines are free, and otherwise takes the lowest
free lines and entry number; UNMAP waits for the entry's fills and then removes it; an entry number that is not in use makes UNMAP and FLUSH
do nothing; CACHE.RESIZE unmaps the entries that it would cut, once no fill of theirs is on its way, moves PB_HI inside its limits and returns
it; PREF and CFLUSH change no value. -/
def Obligations.StashAndCacheForms : Prop :=
  ∀ (s s1 : State) (d a b : BitVec 5),
    let va := readX (me s) a
    let len := readX (me s) b
    let tile := localTile s
    let t := getTile s1 tile
    let mine := stashEntries t (agentCtx s1 s.cur)
    let overlap := mine.any (fun e => decide (e.base < va.toNat + len.toNat) && decide (va.toNat < e.base + e.length))
    let number := (List.range 32).find? (fun k => !mine.any (fun e => e.number == k))
    let lines := freeLines t (len.toNat / 128)
    let answer := fun (s2 : State) (x : Word) => done (modMe s2 (fun u => writeX u d x))
    (Passes (noCourier [d, a, b]) s → stashRange va len (started s) = .ok ((), s1) → s1.cur = s.cur →
      (overlap = true → exec (.stashMap d a b) s = .next (answer s1 (-2))) ∧
      (overlap = false → number = none ∨ lines = none → exec (.stashMap d a b) s = .next (answer s1 (-1))) ∧
      (∀ k line, overlap = false → number = some k → lines = some line →
        exec (.stashMap d a b) s = .next (answer (modTile s1 tile (fun t =>
          let other := fun (l : Nat) => !(decide (line ≤ l) && decide (l < line + len.toNat / 128))
          { t with
            stash := t.stash ++ [{ ctx := agentCtx s1 s.cur, number := k, base := va.toNat, length := len.toNat, firstLine := line }]
            full := t.full.filter other
            stashFilled := t.stashFilled.filter other })) (BitVec.ofNat 64 k)))) ∧
    (Passes (noCourier [a]) s →
      (∀ e, entryNumber s s.cur va = some e →
        (fillsOut s tile e = false → exec (.stashUnmap a) s = .next (done (unmapEntry (started s) tile e))) ∧
        (fillsOut s tile e = true → exec (.stashUnmap a) s = .next (waiting (started s))) ∧
        exec (.stashFlush a) s = .next (done (flushRange (started s) (agentCluster s.cur) e.base e.length))) ∧
      (entryNumber s s.cur va = none → exec (.stashUnmap a) s = .next (wrote s id) ∧ exec (.stashFlush a) s = .next (wrote s id)) ∧
      (inWindow va.toNat = true → exec (.cflush a) s = .next (wrote s id))) ∧
    (Passes (noCourier [d, a]) s →
      let pb := getTile s tile
      let new : Int := pb.pbHi - 4 * va.toInt
      (new < pb.pbMid ∨ 192 < new → exec (.cacheResize d a) s = .next (answer (started s) (BitVec.ofNat 64 pb.pbHi))) ∧
      let lost := pb.stash.filter (fun e => decide (32 * new.toNat < e.firstLine + e.length / 128))
      (pb.pbMid ≤ new → new ≤ 192 → lost.any (fillsOut s tile) = true → exec (.cacheResize d a) s = .next (waiting (started s))) ∧
      (pb.pbMid ≤ new → new ≤ 192 → lost.any (fillsOut s tile) = false → exec (.cacheResize d a) s = .next (
        answer (modTile (lost.foldl (fun u e => unmapEntry u tile e) (started s)) tile (fun t => { t with pbHi := new.toNat }))
          (BitVec.ofNat 64 new.toNat)))) ∧
    (Passes (xForm [a]) s → exec (.pref a) s = .next (wrote s id))

/-- 14 R346 to R348, 03 R96 to R98: at the flag word of a carriage, CWAIT takes a rider of a resident carriage and returns 0, returns ERR of
a faulted one, asks for the fetch of an absent one where its coach says so, and otherwise waits; CREL gives a rider back, and raises CARRIAGE
where there is none to give; CTEST reads the word and changes nothing. 03 R95 to R99: a fetch of host memory asks for its pieces; a piece
lands at DEVADDR while its carriage is ARRIVING, and the one of a carriage of one piece makes it RESIDENT; a failed fetch makes it FAULTED
with its code; an eviction takes only a RESIDENT carriage that nobody rides and that no other of its partition precedes, which is then ABSENT. -/
def Obligations.CarriagesFetchRideAndLeave : Prop :=
  (∀ (s s1 s2 s3 : State) (d a : BitVec 5) (target : Target) (i j w : Nat),
     let va := readX (me s) a
     let rider := fun (auto : Bool) (w : Nat) => if flagState w = 2 ∧ flagRiders w < 2 ^ 14 - 1 then some (w + 2 ^ 40)
       else if auto = true ∧ flagState w = 0 ∧ (me s1).asked = false then some (setBits w 63 61 1) else none
     FlagAt s va target i j s1 →
       (Passes (noCourier [d, a]) s →
         (flagUpdate va target (fun _ => none) s1 = .ok (w, s2) →
           exec (.ctest d a) s = .next (done (modMe s2 (fun t => writeX t d (BitVec.ofNat 64 w))))) ∧
         (∀ auto, (s1.coaches[i]?).any (·.autoFetch) = auto → flagUpdate va target (rider auto) s1 = .ok (w, s2) →
           (flagState w = 2 → flagRiders w < 2 ^ 14 - 1 → ∃ t, exec (.cwait d a) s = .next t ∧
             (d ≠ 0 → readX (getAgent t s.cur) d = 0) ∧ t.hbm = s2.hbm ∧ (getAgent t s.cur).pc = (me s2).pc + 4) ∧
           (flagState w = 4 → exec (.cwait d a) s = .next (done (modMe s2 (fun t => writeX t d (BitVec.ofNat 64 (flagErr w)))))) ∧
           (flagState w = 0 → auto = true → (me s1).asked = false → exec (.cwait d a) s = .next (
             waiting (later (modMe s2 (fun t => { t with asked := true })) [.carriagePiece i j 0 []]))) ∧
           (flagState w = 0 → auto = false ∨ (me s1).asked = true → exec (.cwait d a) s = .next (waiting s2)) ∧
           ((flagState w ≠ 0 ∧ flagState w ≠ 2 ∧ flagState w ≠ 4) ∨ flagState w = 2 ∧ flagRiders w = 2 ^ 14 - 1 →
             exec (.cwait d a) s = .next (waiting s2)))) ∧
       (Passes (noCourier [a]) s →
         flagUpdate va target (fun w => if flagState w = 2 ∧ 0 < flagRiders w then some (w - 2 ^ 40) else none) s1 = .ok (w, s3) →
         exec (.crel a) s = .next (
           if flagState w = 2 ∧ 0 < flagRiders w then done s3 else takeFault s (faultInfo 0x13 0 2 va 0)))) ∧
  (∀ (s0 s s1 s2 : State) (i j off : Nat) (k : Coach) (c : Carriage) (code : BitVec 7) (bytes : List Byte),
     let w := flagGet s c
     let e : Engine := { unit := coachUnit i j, tile := coachTile s (coachPart s k), ctx := k.ctx, run := 0 }
     let va := c.devAddr + off
     let n := bytes.length
     let c1 := { c with landed := c.landed ++ [off] }
     let same := (s0.coaches.filter (fun o => coachPart s0 o = coachPart s0 k)).flatMap (·.carriages)
     (s0.coaches = [] → ∀ x ∈ [Instr.carriagePiece i j off bytes, .carriageFetchFail i j code, .eviction i j, .carriageEvicted i j], exec x s0 = .next s0) ∧
     (s0.coaches[i]? = some k → k.carriages[j]? = some c → flagReady s0 c = .ok () s → ¬ (c.src = 1 ∧ off = noPiece + c.got) →
       (flagState w = 0 → c.src = 1 → c.srcHi.toNat ≠ devnum s → c.srcHi.toNat ∉ s.ostler.gone →
         let t := modCarriage (flagPut s c (setBits w 63 61 1)) i j (fun _ => { c with asked := c.length, got := 0, part := [], landed := [] })
         hasRoute t c.srcHi.toNat = true → exec (.carriagePiece i j off []) s0 = .next (sendRequest t c.srcHi.toNat none (.carriage i j 0) c.srcAddr k.ctx
           0x01 (fetchReadBody t c.srcHi.toNat k.ctx c.srcAddr (min (64 - c.srcAddr.toNat % 64) c.length))).1) ∧
       (flagState w = 0 → c.src = 0 → let t := flagPut s c (setBits w 63 61 1)
         exec (.carriagePiece i j off []) s0 = .next (modCarriage { t with
           busOut := t.busOut ++ (List.range ((c.length + 4095) / 4096)).map (fun p =>
             BusOp.read (c.srcAddr + BitVec.ofNat 64 (4096 * p)) (min 4096 (c.length - 4096 * p)) (pieceAgent i j p)) }
           i j (fun c => { c with asked := c.length, landed := [] }))) ∧
       (bytes ≠ [] → flagState w ≠ 1 ∨ off % 4096 ≠ 0 ∨ fetchTotal s k c ≤ off ∨ n ≠ min 4096 (fetchTotal s k c - off) ∨ off ∈ c.landed →
         exec (.carriagePiece i j off bytes) s0 = .next s) ∧
       (bytes ≠ [] → flagState w = 1 → off % 4096 = 0 → off < fetchTotal s k c → n = min 4096 (fetchTotal s k c - off) → off ∉ c.landed →
         va + n ≤ 2 ^ 57 → inWindow va = false → inOstler va = false → deepRange s va = none →
         ctxRights s k.ctx 2 va n = .ok () s1 → engineStores s1 e off (granuleParts (n / 64 + 2) va bytes) = .ok () s2 →
         exec (.carriagePiece i j off bytes) s0 = .next (modCarriage (fillStashes
           (flagPut (clearPieces s2 e.unit) c (arrivedWord c1 (fetchTotal s k c) (flagGet s2 c))) va n) i j (fun _ => c1)) ∧
         (c.src = 0 → c.landed = [] → off = 0 → c.length ≤ 4096 →
           arrivedWord c1 (fetchTotal s k c) (flagGet s2 c) = setBits (setBits (flagGet s2 c) 39 0 c.length) 63 61 2)) ∧
       (flagState w = 1 → code ≠ 0 → exec (.carriageFetchFail i j code) s0 = .next (
         modCarriage (flagPut s c (setBits (setBits w 63 61 4) 60 54 code.toNat)) i j (fun c => { c with landed := [], asked := 0 }))) ∧
       (flagState w ≠ 1 ∨ code = 0 → exec (.carriageFetchFail i j code) s0 = .next s) ∧
       (flagState w ≠ 3 → exec (.carriageEvicted i j) s0 = .next s) ∧
       (flagState w = 3 → exec (.carriageEvicted i j) s0 = .next (modCarriage (flagPut s c 0) i j (fun c => { c with landed := [], asked := 0 })))) ∧
     (s0.coaches[i]? = some k → k.carriages[j]? = some c → flagsReady s0 same = .ok () s →
       let first := (victims s (coachPart s k)).all (fun o => !evictBefore o (i, j, k.priority, c.eclass.toNat, c.lastWait))
       (flagState w ≠ 2 ∨ 0 < flagRiders w ∨ first = false → exec (.eviction i j) s0 = .next s) ∧
       (flagState w = 2 → flagRiders w = 0 → first = true → exec (.eviction i j) s0 = .next (
         later (flagPut s c (setBits w 63 61 3)) [.carriageEvicted i j]))))

/-! ## The engines of a tile (chapter 15) -/

/-- 15 R350, R352 to R356, R359, R361: PZERO, ACC.ZERO, ACC.WR, MMA, MSCALE and MOUT join the queue of their tile with their operands when
the names they use are bound to the format they need and the panels are inside the window; ACC.ALLOC binds a name to the lowest free banks,
which read as zero, or answers 0; ACC.FREE gives them back; ACC.RD reads one group and the status, or takes MEM_UE where an uncorrectable error
stands in it (06 R178); MWAIT waits for the strand's own
commands. -/
def Obligations.MatrixWordsQueueTheirCommand : Prop :=
  ∀ (s : State) (n : Nat) (d a b e : BitVec 5) (c pa pb po : BitVec 4) (z k : BitVec 1) (r : BitVec 6) (x : AccName), s.cur = .strand n →
    let t := getTile s (n / 16)
    let joins := JoinsOrWaits s (started s) n
    (∀ row ∈ mmaRows, Passes (matrixForm (decide (16 < pa.toNat + formPanels row.2))) s → Bound s n c.toNat (decide (row.2 = 5)) →
      (∀ k < formPanels row.2, panelIn t (pa.toNat + k) = true) → panelIn t pb.toNat = true →
      joins (.mma row.2 c.toNat pa.toNat pb.toNat (decide (z = 1)) (mmaWord row.2 c.toNat pa.toNat pb.toNat z.toNat)) 0 (row.1 c pa pb z)) ∧
    (Passes (matrixForm false) s → Bound s n c.toNat false → Bound s n pb.toNat false → panelIn t pa.toNat = true →
      joins (.mscale c.toNat pb.toNat pa.toNat r.toNat) 0 (.mscale c pa r pb)) ∧
    (Passes (matrixForm (decide (8 < po.toNat))) s → Bound s n c.toNat false → panelIn t pa.toNat = true → panelIn t pb.toNat = true →
      joins (.mout c.toNat pa.toNat pb.toNat po.toNat) 0 (.mout c pa pb po)) ∧
    (Passes (numberForm 16 d [] []) s →
      (panelIn t d.toNat = true → joins (.pzero d.toNat) 0 (.pzero d)) ∧
      (panelIn t d.toNat = false → exec (.pzero d) s = .next (takeFault s (faultInfo 0x04 0x04 0 0 0)))) ∧
    (Passes (numberForm 16 a [] []) s →
      (nameOf s n a.toNat = none → exec (.accZero a) s = .next (takeFault s (faultInfo 0x01 0x06 0 0 0)) ∧ exec (.accFree a) s = .next (wrote s id)) ∧
      (nameOf s n a.toNat = some x → joins (.accZero a.toNat) 0 (.accZero a) ∧
        exec (.accFree a) s = .next (if commandsNaming t n a.toNat then waiting (started s) else
          done (modMe (modTile (started s) (n / 16) (fun t => { t with banks := t.banks.filter (fun b => decide (b ∉ x.banks)) }))
            (fun u => { u with a := u.a.mapIdx (fun i y => if i = a.toNat then none else y) }))))) ∧
    (Passes (numberForm 16 a [b] [d]) s → nameOf s n a.toNat = some x →
      (if (readX (me s) b).toNat < accSize x / 64 then joins (.accWr a.toNat (readX (me s) b).toNat (readV (me s) d)) 0 (.accWr d a b)
        else exec (.accWr d a b) s = .next (takeFault s (faultInfo 0x01 0x01 0 0 0)))) ∧
    (Passes (numberForm 16 a [b, e] [d]) s → nameOf s n a.toNat = some x → (readX (me s) b).toNat < accSize x / 64 →
      exec (.accRd d a b e) s = .next (if wordsHit t.accBad (accAt x (64 * (readX (me s) b).toNat)) 64 then takeFault s (faultInfo 0x08 0x03 0 0 0)
        else wrote s (fun u => writeX (writeV u d (vecOfBytes (memRead t.acc (accAt x (64 * (readX (me s) b).toNat)) 64))) e (x.status.setWidth 64)))) ∧
    (Passes (numberForm 16 a [d] []) s → nameOf s n a.toNat = none →
      let free := ((List.range 128).filter (fun b => decide (b ∉ t.banks))).take (if k = 1 then 16 else 8)
      let name : AccName := { banks := free, fp64 := decide (k = 1), status := 0, owner := 0 }
      exec (.accAlloc d a k) s = .next (
        if free.length < (if k = 1 then 16 else 8) then wrote s (fun u => writeX u d 0)
        else done (modMe (modTile (started s) (n / 16) (fun t => accClear { t with banks := t.banks ++ free } name))
          (fun u => writeX { u with a := u.a.mapIdx (fun i y => if i = a.toNat then some name else y) } d 1)))) ∧
    (Passes (noCourier [d]) s → exec (.mwait d) s = .next (
      if t.queue.any (fun c => c.strand == n && c.remote.isNone) || t.running.any (fun r => r.cmd.strand == n && r.cmd.remote.isNone)
      then waiting (started s) else wrote s (fun u => writeX u d 0)))

/-- 15 R350, R351, R355, R360; 14 R415: PLD, PST and ACC.ST join the queue with their base, shape and barrier once the span they name passes
its checks; a copy outside the pool needs a barrier; MSEND copies its descriptor and sends it. -/
def Obligations.PanelMovesQueueAndMsendSends : Prop :=
  ∀ (s s1 : State) (n : Nat) (d a b : BitVec 5) (x : AccName), s.cur = .strand n → s1.cur = s.cur →
    let base := readX (me s) a
    let bar := readX (me s) b
    let shape := (me s).pshape.toList.getD d.toNat 0
    let span := (shapeRows shape - 1) * shapeStride shape + 64 * shapeGroups shape
    let named := fun (base : Word) => MayName s1 bar ∧ (inWindow base.toNat = false → bar ≠ 0)
    (Passes (numberForm 16 d [a, b] []) s → panelIn (getTile s (n / 16)) d.toNat = true → base.toNat < 2 ^ 57 → base.toNat % 64 = 0 →
      shapeStride shape % 64 = 0 → named base →
      (engineSpan 1 2 true base span (started s) = .ok ((), s1) → JoinsOrWaits s s1 n (.pst d.toNat base shape) bar (.pst d a b)) ∧
      (engineSpan 0 1 true base span (started s) = .ok ((), s1) → JoinsOrWaits s s1 n (.pld d.toNat base shape) bar (.pld d a b))) ∧
    (Passes (numberForm 16 a [d, b] []) s → nameOf s n a.toNat = some x →
      let base := readX (me s) d
      base.toNat < 2 ^ 57 → base.toNat % 128 = 0 → named base → engineSpan 1 2 false base (accSize x) (started s) = .ok ((), s1) →
      JoinsOrWaits s s1 n (.accSt a.toNat base) bar (.accSt d a b)) ∧
    (Passes (noCourier [a]) s → base.toNat % 64 = 0 → inWindow base.toNat = true →
      inScratch (getTile s (n / 16)) (localOff base) 64 = true → Sound s (n / 16) (localOff base) 64 →
      let desc := localBytes s base 64
      (wordOp (fieldAt desc 12 4)).isSome = true → zeroAt desc 10 2 = true → zeroAt desc 24 40 = true → fieldAt desc 8 2 < 2 ^ 14 →
      ostlerTile s (msendTile desc) = false → MayName s (BitVec.ofNat 64 (fieldAt desc 16 8)) →
      exec (.msend a) s = .next (done (msendArrives (started s) (n / 16) (imageId s (n / 16) (agentRun s s.cur)) none desc)))

/-- 15 R362 to R367: DRAY.TPL names the issuing context's template table on the tile; a GO whose checks admit a copy starts it under a fresh tag, which X[d] receives;
SLACK, STAT and CANCEL act on the copy of the issuing core that the tag names, and on no other: CANCEL ends a copy between segments, with the
bytes it has not issued taken from BYTES, at once or after its outstanding segments; DRAY.APER names the context's aperture, and 0 none. -/
def Obligations.DrayWordsActOnCopies : Prop :=
  ∀ (s s1 s2 : State) (d a b : BitVec 5) (c : BitVec 2) (sl : BitVec 6) (copy : Copy),
    let va := readX (me s) a
    let v := readX (me s) b
    let tile := localTile s
    let core := agentCore s.cur
    (Passes (noCourier [a]) s →
      (va.toNat % 128 = 0 → inWindow va.toNat = true → inScratch (getTile s tile) (localOff va) (128 * (sl.toNat + 1)) = true →
        exec (.drayTpl a sl) s = .next (done (setTable (started s) tile (agentCtx s s.cur) (fun t => { t with base := va, count := sl.toNat + 1 })))) ∧
      (va = 0 → exec (.drayAper a) s = .next (done (setTable (started s) tile (agentCtx s s.cur) (fun t => { t with aperture := 0 })))) ∧
      (va ≠ 0 → va.toNat < 2 ^ 57 → va.toNat % 64 = 0 → inWindow va.toNat = false → engineSpan 1 3 false va 64 (started s) = .ok ((), s1) → s1.cur = s.cur →
        exec (.drayAper a) s = .next (done (setTable s1 tile (agentCtx s1 s.cur) (fun t => { t with aperture := va })))) ∧
      (copyNamed s core va = none → exec (.drayCancel a) s = .next (wrote s id)) ∧
      (∀ ch x, copyNamed s core va = some (ch, x) →
        let stopped := if x.settled then started s else barUpdate (started s) tile x.tpl.bar (.land (copyUnissued (started s) tile x))
        exec (.drayCancel a) s = .next (done (
          if x.active then modCopy (started s) tile ch x (fun y => { y with cancelled := true })
          else if x.outstanding = [] then endCopy stopped tile ch x
          else modCopy stopped tile ch x (fun y => { y with cancelled := true, settled := true, active := false }))))) ∧
    (Passes (noCourier [a, b]) s →
      (copyNamed s core va = none → exec (.draySlack a b) s = .next (wrote s id)) ∧
      (∀ ch x, copyNamed s core va = some (ch, x) →
        exec (.draySlack a b) s = .next (done (modCopy (started s) tile ch x (fun y => { y with slack := min v.toNat 255 }))))) ∧
    (Passes (noCourier [d, a]) s →
      (copyNamed s core va = none → exec (.drayStat d a) s = .next (wrote s (fun t => writeX t d 0))) ∧
      (∀ ch x, copyNamed s core va = some (ch, x) → exec (.drayStat d a) s = .next (wrote s (fun t => writeX t d (
        BitVec.ofNat 64 ((if x.paused then 3 else if x.started then 2 else 1) * 2 ^ 62 + x.slack * 2 ^ 40 + x.done)))))) ∧
    (∀ n, s.cur = .strand n → s1.cur = s.cur → s2.cur = s.cur → Passes (noCourier [d, a, b]) s →
      goCopy core (some n) (agentRun s s.cur) (agentCtx s s.cur) (ostlerMode s s.cur) sl.toNat va v (started s) = .ok (copy, s1) →
      let sources := if copy.tpl.kind = 2 then [] else sourceSpans copy.tpl copy.srcBase
      let outside := sources.any (fun p => !inWindow p.1) || !inWindow copy.dstBase.toNat
      (outside = true → 0 < (me s1).acks →
        exec (.drayGo d a b c sl) s = .next (waiting s1)) ∧
      (outside = false ∨ (me s1).acks = 0 →
        (128 ≤ (copiesOf s1 core).length → exec (.drayGo d a b c sl) s = .next (waiting s1)) ∧
        ((copiesOf s1 core).length < 128 →
          let ranges := if copy.tpl.kind = 2 then [] else recordedRanges copy.tpl copy.srcBase
          eachLane (fun k => let p := ranges.getD k (0, 1); if inWindow p.1 then pure () else noteRead (BitVec.ofNat 64 p.1) p.2)
            (List.range ranges.length) s1 = .ok ((), s2) →
          let r := startCopy s2 (core / 4) c.toFin copy
          exec (.drayGo d a b c sl) s = .next (done (modMe r.1 (fun t => writeX t d (r.2.setWidth 64)))))))

/-- 15 R371, R372; 05 R153: a legal pattern record in the scratchpad binds its register at position 0, an input stream with its first groups
requested; STRM.UNBIND ends the binding, once an output stream's buffer is empty; STRM.POS reads the position, and all ones of a register
that is not bound. -/
def Obligations.StreamWordsBindAndUnbind : Prop :=
  ∀ (s : State) (n : Nat) (d a b : BitVec 5), s.cur = .strand n →
    let va := readX (me s) a
    let q := d.toNat
    let st := streamOf (me s) q
    (Passes (strmForm [a] d) s → va.toNat % 32 = 0 → inWindow va.toNat = true → inScratch (getTile s (n / 16)) (localOff va) 32 = true →
      Sound s (n / 16) (localOff va) 32 →
      (patternRecord (localBytes s va 32) = none → exec (.strmBind d a) s = .next (takeFault s (faultInfo 0x01 0x01 0 0 0))) ∧
      (∀ base out dims, patternRecord (localBytes s va 32) = some (base, out, dims) →
        (st.bound = true → st.out = true → st.buffer ≠ [] → exec (.strmBind d a) s = .next (waiting (started s))) ∧
        (st.bound = false ∨ st.out = false ∨ st.buffer = [] → ∃ t, exec (.strmBind d a) s = .next t ∧
          streamOf (getAgent t s.cur) q = { bound := true, out := out, recOffset := localOff va, base := base, dims := dims } ∧
          (∀ r ≠ q, streamOf (getAgent t s.cur) r = streamOf (me s) r) ∧ (getAgent t s.cur).pc = (me s).pc + 4))) ∧
    (Passes (strmForm [] d) s → exec (.strmUnbind d) s = .next (
      if st.bound = false then wrote s id else if st.out = true ∧ st.buffer ≠ [] then waiting (started s) else done (unbound (started s) s.cur q))) ∧
    (Passes (strmForm [d] b) s → exec (.strmPos d b) s = .next (wrote s (fun t => writeX t d (
      if (streamOf (me s) b.toNat).bound then BitVec.ofNat 64 (streamOf (me s) b.toNat).position else BitVec.allOnes 64))))

/-! ## The Felt (chapters 10 and 16) -/

/-- 16 R375 to R377, 10 R254, R255; 07 R201: a Felt word names an array granted to its context, or takes PROT; once the table or record it
names has passed its checks its command joins that array's queue of 8, one with an operand in translated memory after the strand's earlier
accesses; STAT and SETTLE then wait and return the word the array answers with; a SAMPLE's place in its block's
log is counted. -/
def Obligations.FeltWordsJoinTheirArray : Prop :=
  ∀ (s s1 : State) (d a b : BitVec 5) (k sl : BitVec 3) (grid : BitVec 1) (g : Nat) (w : Word), isCourier s.cur = false →
    let va := readX (me s) a
    let bar := readX (me s) b
    let none' := fun (i : Instr) => exec i s = .next (takeFault s (faultInfo 0x04 0x01 0 0 0))
    let asks := fun (op : FeltOp) (i : Instr) =>
      ((me s).replyValue = some w → exec i s = .next (wrote s (fun t => writeX t d w))) ∧
      ((me s).replyValue = none → (me s).sent = true → exec i s = .next (waiting (started s))) ∧
      ((me s).replyValue = none → (me s).sent = false → (getArray s g).queue.length < 8 →
        exec i s = .next (waiting (modMe (feltJoined (started s) g op 0) (fun t => { t with sent := true }))))
    (grantedArray s (agentCtx s s.cur) k.toNat = none →
      (Passes (noCourier [b]) s → none' (.feltRun b k sl)) ∧ (Passes (noCourier []) s → none' (.feltHalt k)) ∧
      (Passes (noCourier [d]) s → none' (.feltStat d k))) ∧
    (grantedArray s (agentCtx s s.cur) k.toNat = some g →
      (Passes (noCourier [a, b]) s → s1.cur = s.cur → MayName s1 bar →
        let tabled := fun (n : Nat) => feltTableAt va n (started s) = .ok ((), s1)
        let sampled := fun (u : State) => exec (.feltSample a b k grid) s = .next (done (modMe (feltJoined u g (.sample (decide (grid = 1)) va) bar)
          (fun t => { t with buffer := { t.buffer with issued := t.buffer.issued + 1 } })))
        (va.toNat % 64 = 0 → tabled 64 → FeltJoins s s1 g (.cfg sl.toNat va) bar (.feltCfg a b k sl)) ∧
        (tabled (slotNodes s g sl.toNat) → FeltJoins s s1 g (.scale sl.toNat va) bar (.feltScale a b k sl)) ∧
        (tabled (2 * slotNodes s g sl.toNat) → FeltJoins s s1 g (.ic sl.toNat va) bar (.feltIc a b k sl)) ∧
        (va.toNat % 128 = 0 → inWindow va.toNat = true → inScratch (getTile s (localTile s)) (localOff va) 128 = true → s1 = started s →
          (getArray s g).queue.length < 8 → sampled (started s)) ∧
        (∀ r, va.toNat < 2 ^ 57 → va.toNat % 128 = 0 → inWindow va.toNat = false →
          (stashOf s (localTile s) (agentCtx s s.cur) va.toNat).isSome = true → spanRights 1 2 va 128 (started s) = .ok (r, s1) → (me s1).acks = 0 →
          (getArray s1 g).queue.length < 8 → sampled s1)) ∧
      (Passes (noCourier [b]) s → MayName s bar → FeltJoins s (started s) g (.run sl.toNat) bar (.feltRun b k sl)) ∧
      (Passes (noCourier []) s → FeltJoins s (started s) g .halt 0 (.feltHalt k)) ∧
      (Passes (noCourier [d]) s → asks .stat (.feltStat d k)) ∧
      (Passes (noCourier [d, a]) s → asks (.settle va.toNat) (.feltSettle d a k)))

/-! ## The device's own steps (chapters 1 to 6, 10 and 15) -/

/-- 15 R356 to R358, 09 R239 to R242, 04 R117: MATRIX_COMMAND_START takes the head of the matrix queue when the engine works and is idle, and
a command that computes on the column groups only with the 8 groups, which it requests before, for the context of its run; an MMA that its
name does not own starts at step 0, and one that its name owns goes on at the step that the name holds. K_STEP adds to each element the exact
sum of its products, rounded once, or the canonical NaN where the detector has flagged its row or column; under z the first step adds to +0, with
the status cleared; after step 8 the name has no owner and the command is over. The last MMA of a strand that is to be removed goes back to the
queue (`mmaHeld`, 03 R91). A command's name is its strand's, or its own after the strand's activation has ended (`nameFor`, 05 R136). A command whose operands hold an uncorrectable error ends with MEM_UE (06 R178; that it ends so is the model's
reading, assumption log 59). MATRIX_COMMAND_END does the work of every other command but the copies. Without a command, and while the engine does
not work, the three steps change nothing. -/
def Obligations.MatrixStepsDoTheirCommand : Prop :=
  ∀ (s : State) (tile : Nat) (cmd : MatrixCmd) (rest : List MatrixCmd) (form n pa pb i j : Nat) (z : Bool) (word : BitVec 32) (x y : AccName) (v : Vec),
    let t := getTile s tile
    let sound := x.banks.Nodup ∧ x.banks.length = accSize x / 2048 ∧ i < 64 ∧ j < 64
    let taken := fun (r : MatrixRun) => modTile s tile (fun t => { t with queue := rest, running := some r })
    (t.running.isSome = true ∨ t.queue = [] ∨ engineRuns s tile = false → exec (.matrixCommandStart tile) s = .next s) ∧
    (t.queue = cmd :: rest → mmaHeld s tile cmd = false → t.running = none → engineRuns s tile = true →
      ((∀ f n a b z w, cmd.op ≠ .mma f n a b z w) → family cmd.op = false ∨ unitsHeld s tile = 8 →
        exec (.matrixCommandStart tile) s = .next (later (taken { cmd := cmd, started := true }) [.matrixCommandEnd tile])) ∧
      (family cmd.op = true → unitsHeld s tile ≠ 8 →
        (∀ r ∈ (getCluster s (tile / 8)).requests, r.1 ≠ tile) →
        exec (.matrixCommandStart tile) s = .next (requestUnits s tile (getRun s cmd.run).ctx)) ∧
      (family cmd.op = true → unitsHeld s tile ≠ 8 →
        (∃ r ∈ (getCluster s (tile / 8)).requests, r.1 = tile) → exec (.matrixCommandStart tile) s = .next s) ∧
      (cmd.op = .mma form n pa pb z word → unitsHeld s tile = 8 → nameFor s cmd n = some x →
        (x.owner = word → exec (.matrixCommandStart tile) s = .next (
          later (taken { cmd := cmd, started := true, step := kstepOf x, flagA := cmd.flagA, flagB := cmd.flagB }) [.kStep tile])) ∧
        (x.owner ≠ word → exec (.matrixCommandStart tile) s = .next (
          later (setNameFor (taken { cmd := cmd, started := true }) cmd n { (withKstep x 0) with owner := word }) [.kStep tile])))) ∧
    (t.running = none ∨ engineRuns s tile = false → exec (.kStep tile) s = .next s ∧ exec (.matrixCommandEnd tile) s = .next s) ∧
    (∀ r, t.running = some r → r.cmd = cmd → engineRuns s tile = true →
      (mmaHeld s tile cmd = true → exec (.kStep tile) s = .next (setMmaAside s tile r)) ∧
      (cmd.op = .mma form n pa pb z word → mmaHeld s tile cmd = false → nameFor s cmd n = some x →
        let o := mmaOperand t x z r.step
        (mmaSound o.1 o.2 form pa pb r.step = false → exec (.kStep tile) s = .next (matrixFails s tile cmd)) ∧
        (z = true → r.step = 0 → o.2.status = 0 ∧ (sound → t.acc.wf = true → accGet o.1 o.2 i j = 0)) ∧
        (z = false ∨ r.step ≠ 0 → o = (t, x))) ∧
      (cmd.op = .mma form n pa pb z word → mmaHeld s tile cmd = false → nameFor s cmd n = some y →
        let o := mmaOperand t y z r.step
        let x := o.2
        mmaSound o.1 x form pa pb r.step = true →
        let st := mmaStep o.1 x form pa pb r.step r.flagA r.flagB
        let stepped := engineFlags (modTile s tile (fun _ =>
          { st.1 with running := some { r with step := r.step + 1, flagA := st.2.1, flagB := st.2.2.1 } })) tile st.2.2.2
        let name := withKstep (orStatus x st.2.2.2) (r.step + 1)
        (r.step + 1 < 8 → exec (.kStep tile) s = .next (later (setNameFor stepped cmd n name) [.kStep tile])) ∧
        (8 ≤ r.step + 1 → exec (.kStep tile) s = .next (matrixDone (setNameFor stepped cmd n { (withKstep name 0) with owner := 0 }) tile cmd)) ∧
        (y.banks.Nodup → y.banks.length = accSize y / 2048 → i < 64 → j < 64 → t.acc.wf = true →
          let product := fun (k : Nat) => (exactInt (formA form) (elemA t form pa i k)).getD 0 * (exactB form (elemB t form pb j k)).getD 0
          let sum := ((numbersFrom (r.step * formStep form) (formStep form)).map product).sum
          accGet st.1 x i j = (if i ∈ st.2.1 ∨ j ∈ st.2.2.1 then canonNan (accFmt x)
            else (addExact (accFmt x) (accGet o.1 x i j) sum (exactUnit (formA form) + formUnitB form)).1) % 2 ^ (8 * accWidth x))) ∧
      (cmd.op = .pzero pa → exec (.matrixCommandEnd tile) s = .next (
        matrixDone (modTile s tile (fun t => poolClear t (panelAt t pa 0 0) 32768)) tile cmd)) ∧
      (cmd.op = .accZero n → nameFor s cmd n = some x → exec (.matrixCommandEnd tile) s = .next (
        matrixDone (setNameFor (modTile s tile (fun t => accClear t x)) cmd n { x with status := 0 }) tile cmd)) ∧
      (cmd.op = .accWr n i v → nameFor s cmd n = some x → exec (.matrixCommandEnd tile) s = .next (
        matrixDone (modTile s tile (fun t => { t with
          acc := memWrite t.acc (accAt x (64 * i)) (vecBytes v), accBad := wordsLeft t.accBad (accAt x (64 * i)) 64 })) tile cmd)) ∧
      (cmd.op = .mscale n i pa j → nameFor s cmd n = some x → nameFor s cmd i = some y →
        let m := mscaleStep t x y pa j
        exec (.matrixCommandEnd tile) s = .next (if mscaleSound t x y pa j = false then matrixFails s tile cmd else
          matrixDone (engineFlags (setNameFor (modTile s tile (fun _ => m.1)) cmd n (orStatus x m.2)) tile m.2) tile cmd)) ∧
      (cmd.op = .mout n pa pb i → nameFor s cmd n = some x →
        let m := moutStep t x pa pb i
        exec (.matrixCommandEnd tile) s = .next (if moutSound t x pa pb i = false then matrixFails s tile cmd else
          matrixDone (engineFlags (setNameFor (modTile s tile (fun _ => m.1)) cmd n (orStatus x m.2)) tile m.2) tile cmd)))

/-- 15 R365 to R369, R372, R373; 05 R153: a segment whose reads and writes succeed makes its landing update and moves its copy on, or ends it
after its last element, and one that fails ends it with its code in ERR; a STORAGE segment writes its submission entry and the tail doorbell;
an aperture store starts its copy or leaves a record; a STORAGE completion moves the head on and lands or fails its segment, and a time-out
clears V and fails it; a stream transfer moves one group of the stream whose turn it is, and waits for a change of gear. -/
def Obligations.DrayAndStreamStepsMoveData : Prop :=
  ∀ (s s1 s2 : State) (tile n cid bytes k : Nat) (ch : Fin 4) (q : Fin 8) (c : Copy) (data : Word) (bs : List (List Byte)) (code sub : Nat) (off : Int)
      (g : Vec) (rest : List Vec) (run ctx : BitVec 32),
    let t := getTile s tile
    let e : Engine := { unit := drayUnit tile ch.val, tile := tile, ctx := c.ctx, run := c.run }
    let is := numbersFrom c.element (segmentLength c.tpl c.element)
    let size := is.length * 2 ^ c.tpl.esz
    let part := partOfDie s (tile / 128)
    let len := 2 ^ storageQlog s part
    let tail := (s.host.storageRun.get (0, 0, true) part).1
    let head := (s.host.storageRun.get (0, 0, true) part).2.1
    let phase := (s.host.storageRun.get (0, 0, true) part).2.2
    let dropped := logRecord s { cls := .hw, sub := 8, source := tileSource s tile }
    (engineRuns s tile = true → nextCopy s.now (t.dray.toList.getD ch.val []) = none → exec (.draySegment tile ch) s = .next s) ∧
    (engineRuns s tile = true → nextCopy s.now (t.dray.toList.getD ch.val []) = some c →
      (c.tpl.kind ≠ 2 → segmentData s e c is = .bad code sub s1 → exec (.draySegment tile ch) s = .next (failCopy s1 tile ch.val c code)) ∧
      (c.tpl.kind ≠ 2 → segmentData s e c is = .ok bs s1 →
        (engineStores s1 e 0 (segmentWrites s1 e c is bs) = .bad code sub s2 → exec (.draySegment tile ch) s = .next (failCopy s2 tile ch.val c code)) ∧
        (engineStores s1 e 0 (segmentWrites s1 e c is bs) = .ok () s2 →
          let landed := later (barUpdate (fillLines (clearPieces s2 e.unit) tile (segmentLines s2 e c is)) tile c.tpl.bar (.land size)) [.draySegment tile ch]
          (c.element + is.length = elementCount c.tpl → exec (.draySegment tile ch) s = .next (endCopy landed tile ch.val c)) ∧
          (c.element + is.length ≠ elementCount c.tpl → c.cancelled = true → exec (.draySegment tile ch) s = .next (
            endCopy (barUpdate landed tile c.tpl.bar (.land (copyLeft landed tile { c with done := c.done + size }))) tile ch.val c)) ∧
          (c.element + is.length ≠ elementCount c.tpl → c.cancelled = false → exec (.draySegment tile ch) s = .next (modCopy landed tile ch.val c (fun x =>
            { c with started := true, active := false, element := c.element + is.length, done := c.done + size, waitSince := s.now,
                     slack := x.slack, paused := x.paused }))))) ∧
      (c.tpl.kind = 2 → storageValid s part = false → exec (.draySegment tile ch) s = .next (storageStops s tile ch c 0x0A)) ∧
      (c.tpl.kind = 2 → storageValid s part = true → len ≤ storageOut s part + 1 →
        exec (.draySegment tile ch) s = .next (later s [.draySegment tile ch])) ∧
      (c.tpl.kind = 2 → storageValid s part = true → storageOut s part + 1 < len → c.cancelled = false →
        let blocks := min (2 ^ (12 - storageLbas s part)) (elementCount c.tpl - c.element)
        let id := ch.val * 2 ^ 14 + c.issued % 2 ^ 14
        let dst := (c.dstBase.toNat + c.element * 2 ^ storageLbas s part + storageField s part 4) % 2 ^ 64
        engineStores s e 0 (writeParts s e (storageField s part 0 + 64 * tail) (submission id c.tpl.slices dst (c.srcBase.toNat + c.element) blocks)) = .ok () s1 →
        let s2 := clearPieces s1 e.unit
        exec (.draySegment tile ch) s = .next (later (modCopy { s2 with
            host := { s2.host with storageRun := s2.host.storageRun.set part ((tail + 1) % len, head, phase) }
            busOut := s2.busOut ++ [.write (BitVec.ofNat 64 (storageField s part 2)) (leBytes 4 ((tail + 1) % len))] } tile ch.val c (fun _ =>
          { c with started := true, active := false, element := c.element + blocks, issued := c.issued + 1, waitSince := s.now,
                   outstanding := c.outstanding ++ [(id, blocks * 2 ^ storageLbas s part)] })) [.draySegment tile ch]))) ∧
    ((∀ i ∈ t.images, i.2 ≠ ctx) → exec (.drayApertureStart (tile, ctx) ch data) s = .next dropped) ∧
    (64 ≤ data.toNat → exec (.drayApertureStart (tile, ctx) ch data) s = .next dropped) ∧
    (t.images.reverse.find? (fun i => i.2 == ctx) = some (run, ctx) → data.toNat < 64 →
      goCopy (4 * tile) none run ctx (ostlerTile s tile) data.toNat 0 0 s = .ok (c, s1) → (copiesOf s1 (4 * tile)).length < 128 →
      exec (.drayApertureStart (tile, ctx) ch data) s = .next (startCopy s1 tile ch c).1) ∧
    (storageCopy s tile ch cid = none → ∀ ok,
      exec (.storageCompletion tile ch cid ok) s = .next s ∧ exec (.storageTimeout tile ch cid) s = .next s) ∧
    (storageCopy s tile ch cid = some (c, bytes) →
      let head1 := (head + 1) % len
      let s1 := { s with
        host := { s.host with storageRun := s.host.storageRun.set part (tail, head1, if head1 = 0 then !phase else phase) }
        busOut := s.busOut ++ [.write (BitVec.ofNat 64 (storageField s part 3)) (leBytes 4 head1)] }
      let left := c.outstanding.filter (fun o => !(o.1 == cid))
      let lines := linesOfSpan s1 e (c.dstBase.toNat + 4096 * segmentNumber c cid) bytes
      let landed := carriageLands (barUpdate (fillLines s1 tile lines) tile c.tpl.bar (.land bytes)) c cid bytes
      exec (.storageCompletion tile ch cid true) s = .next (
        if left = [] ∧ c.active = false ∧ (c.cancelled = true ∨ c.element = elementCount c.tpl) then endCopy landed tile ch.val c
        else modCopy landed tile ch.val c (fun _ => { c with outstanding := left, done := c.done + bytes })) ∧
      exec (.storageCompletion tile ch cid false) s = .next (storageFail s1 tile ch c cid 0x14) ∧
      ∃ u, exec (.storageTimeout tile ch cid) s = .next (storageFail u tile ch c cid 0x0A) ∧ storageV u part = false ∧
        u = { s with host := { s.host with storage := u.host.storage } }) ∧
    (t.changing ≠ none → n / 16 = tile → exec (.streamTransfer n q) s = .next (later s [.streamTransfer n q])) ∧
    (t.changing = none → n / 16 = tile →
      (nextStream s tile = none → exec (.streamTransfer n q) s = .next s) ∧
      (nextStream s tile = some k →
        let a := Agent.strand (16 * tile + k / 8)
        let st := streamOf (getAgent s a) (k % 8)
        patternOffset st.base st.dims st.moved = some off →
        (st.out = false → ∃ u, exec (.streamTransfer n q) s = .next u ∧ (getTile u tile).lastStream = k ∧
          streamOf (getAgent u a) (k % 8) = { st with buffer := st.buffer ++ [vecOfBytes (poolRead s tile off.toNat 64)], moved := st.moved + 1 }) ∧
        (st.out = true → st.buffer = g :: rest → t.pool.wf = true →
          ∃ u, exec (.streamTransfer n q) s = .next u ∧ (getTile u tile).lastStream = k ∧ poolRead u tile off.toNat 64 = vecBytes g ∧
            streamOf (getAgent u a) (k % 8) = { st with buffer := rest, moved := st.moved + 1 })))

/-- 10 R253 to R263; 16 R375, R376: an array takes the head of its queue; a run phase goes from LOAD to RUN, and ends by SETTLE with RESULT 1,
by RUNMAX with 2 or by saturation with 3, in HOLD, or in IDLE where a halt waits or its context is held for its fares; SETTLE comes no sooner
than DWELL after RUN began; a saturation also ends HOLD, and posts its message; HOLD ends after its time; an array that enters IDLE more than 10
ms after its last calibration starts one, which ends after 20 µs, and a run phase waits for it; the time-out of a SETTLE answers it; a conversion
fixes its record when the array takes the command, is then replaced by a logged record or not, and lands it, sets full/empty bits and makes its
landing update, or fails. Outside these conditions the steps change nothing, or come again. That STAT at a gang's other arrays returns the gang's
word is read from R263 by inference (assumption log 13). -/
def Obligations.FeltStepsRunTheArrays : Prop :=
  ∀ (s s1 : State) (k : Fin 8) (c : FeltCmd) (rest : List FeltCmd) (x : FeltSlot) (slot element n core code sub : Nat) (summer grid : Bool)
      (addr dst : Word) (old : Option (List Byte)),
    let f := getArray s k.val
    let fresh := fun (u : State) => u.ports = s.ports ∧ u.hbm = s.hbm
    (f.sats = [] → f.queue = [] → exec (.feltCommandExecute k) s = .next s) ∧
    (f.sats = [] → f.queue = c :: rest → f.converting = none → gangMember s k.val = false →
      (c.op = .halt → exec (.feltCommandExecute k) s = .next (cmdDone (feltHalt s k.val) k.val c 0)) ∧
      (c.op = .stat → feltWaits s c = true → exec (.feltCommandExecute k) s = .next (feltAnswer (popCmd s k.val) c.strand (feltStatus f f.result))) ∧
      (c.op = .settle n → feltWaits s c = true → inPhase f = false →
        exec (.feltCommandExecute k) s = .next (feltAnswer (popCmd s k.val) c.strand (feltStatus f f.result))) ∧
      (c.op = .cfg slot addr → f.aslot ≠ slot → exec (.feltCommandExecute k) s = .next (feltCfg s k.val c slot addr)) ∧
      (c.op = .scale slot addr ∨ c.op = .ic slot addr → slotOf f slot = none → exec (.feltCommandExecute k) s = .next (cmdDone s k.val c 1)) ∧
      (c.op = .sample grid dst → inPhase f = false →
        exec (.feltCommandExecute k) s = .next (later (beginConversion (popCmd s k.val) k.val c) [.feltConversion k])) ∧
      (c.op = .run slot → slotOf f slot = none → exec (.feltCommandExecute k) s = .next (cmdDone s k.val c 1)) ∧
      (c.op = .run slot → slotOf f slot = some x → x.gang = false → inPhase f = false →
        let ended := endHold s k.val
        ((getArray ended k.val).calibrating = true → exec (.feltCommandExecute k) s = .next (feltNext ended k.val)) ∧
        ((getArray ended k.val).calibrating = false → ∃ u, exec (.feltCommandExecute k) s = .next u ∧ (getArray u k.val).state = 1 ∧ (getArray u k.val).aslot = slot ∧
          (getArray u k.val).runCmd = some c ∧ (getArray u k.val).queue = rest ∧ .feltLoadEnd k ∈ u.agenda ∧ fresh u))) ∧
    (f.sats = [] → f.queue = c :: rest → f.converting = none → gangMember s k.val = true →
      (c.op = .halt ∨ (∃ slot, c.op = .run slot ∧ (slotOf f slot).isSome = true) → exec (.feltCommandExecute k) s = .next (cmdDone s k.val c 1)) ∧
      (c.op = .stat → feltWaits s c = true → exec (.feltCommandExecute k) s = .next (
        let g := getArray s (gangHead s k.val)
        feltAnswer (popCmd s k.val) c.strand (feltStatus g g.result)))) ∧
    (f.state = 1 → exec (.feltLoadEnd k) s = .next (later (modArray s k.val (fun f => { f with state := 2, startTick := s.now })) [.feltRunmax k])) ∧
    (f.state ≠ 1 → exec (.feltLoadEnd k) s = .next s) ∧
    (f.state ≠ 2 → exec (.settleDetect k) s = .next s ∧ exec (.feltRunmax k) s = .next s) ∧
    (s.now < f.startTick + dwell f → exec (.settleDetect k) s = .next s) ∧
    (f.state = 2 → s.now < f.startTick + runMax f → exec (.feltRunmax k) s = .next (later s [.feltRunmax k])) ∧
    (f.state = 2 → f.settlers = [] → f.runCmd = none →
      let ends := fun (i : Instr) (result : Nat) => ∃ u, exec i s = .next u ∧ (getArray u k.val).result = result ∧ (getArray u k.val).haltp = false ∧
        (getArray u k.val).state = (if result = 3 ∨ f.haltp ∨ f.skipHold ∨ f.ctx.any (fun c => (getCtx s c).held) then 0 else 3) ∧ fresh u
      (f.startTick + dwell f ≤ s.now → ends (.settleDetect k) 1) ∧
      (f.startTick + runMax f ≤ s.now → ends (.feltRunmax k) 2) ∧
      (f.lastRun = none → canSaturate f summer element = true → ends (.feltSaturation k summer element) 3) ∧
      (f.lastRun = some c → canSaturate f summer element = true → f.sats = [] → (getCtx s c.ctx).service = 0 →
        ends (.feltSaturation k summer element) 3 ∧
        ∃ u msg, exec (.feltSaturation k summer element) s = .next u ∧ u.svcInbox = s.svcInbox ++ [msg] ∧ fieldAt msg 0 1 = 0x0C ∧
          fieldAt msg 2 2 = (if summer then 2 else 1) ∧ fieldAt msg 4 4 = c.ctx.toNat ∧ fieldAt msg 8 4 = c.run.toNat)) ∧
    (f.state = 3 → f.lastRun = none → canSaturate f summer element = true → ∃ u, exec (.feltSaturation k summer element) s = .next u ∧
      (getArray u k.val).state = 0 ∧ (getArray u k.val).result = 3 ∧ fresh u) ∧
    ((f.state ≠ 2 ∧ f.state ≠ 3) ∨ canSaturate f summer element = false → exec (.feltSaturation k summer element) s = .next s) ∧
    (f.state = 3 → s.now < f.startTick + 1000000000 → exec (.holdTimeout k) s = .next (later s [.holdTimeout k])) ∧
    (f.state = 3 → f.startTick + 1000000000 ≤ s.now → ∃ u, exec (.holdTimeout k) s = .next u ∧
      u = { s with felt := u.felt, agenda := u.agenda } ∧
      getArray u k.val = { f with
        state := 0, startTick := s.now
        calibrating := f.calibrating || (decide (gangHead s k.val = k.val) && decide (f.lastCal + 10000000 < s.now)) } ∧
      (∀ j < 8, j ≠ k.val → gangHead s j ≠ k.val → getArray u j = getArray s j) ∧ .feltCommandExecute k ∈ u.agenda) ∧
    (f.state ≠ 3 → exec (.holdTimeout k) s = .next s) ∧
    (f.calibrating = false → f.state = 0 → (getArray s (gangHead s k.val)).state = 0 → f.lastCal + 10000000 ≤ s.now → exec (.calibration k) s =
      .next (later (modArray s k.val (fun f => { f with calibrating := true, startTick := s.now })) [.calibration k])) ∧
    (f.calibrating = false → f.state ≠ 0 ∨ (getArray s (gangHead s k.val)).state ≠ 0 ∨ s.now < f.lastCal + 10000000 →
      exec (.calibration k) s = .next s) ∧
    (f.calibrating = true → s.now < f.startTick + 20000 → exec (.calibration k) s = .next (later s [.calibration k])) ∧
    (f.calibrating = true → f.startTick + 20000 ≤ s.now → exec (.calibration k) s =
      .next (feltNext (modArray s k.val (fun f => { f with calibrating := false, lastCal := s.now })) k.val)) ∧
    exec (.settleTimeout (.courier core)) s = .next s ∧
    (∀ found, (List.range 8).findSome? (fun k => ((getArray s k).settlers.find? (fun e => e.1 == n && !(e.2 = 0))).map (fun e => (k, e.2))) = found →
      (found = none → exec (.settleTimeout (.strand n)) s = .next s) ∧
      ∀ deadline, found = some (k.val, deadline) → exec (.settleTimeout (.strand n)) s = .next (
        if s.now < deadline then later s [.settleTimeout (.strand n)]
        else
          let s1 := modArray s k.val (fun f => { f with settlers := f.settlers.filter (fun e => !(e.1 == n)) })
          feltAnswer s1 n (feltStatus (getArray s1 k.val) 2))) ∧
    (f.converting = none → exec (.feltConversion k) s = .next s) ∧
    (f.converting = some c → c.op = .sample grid dst →
      let r := f.record
      let n := r.bytes.length
      let finished := fun (s : State) (m : Option (Word × List Byte)) => checkRun (feltNext (modArray (clearPieces (sampleOver s c m) (feltUnit k.val)) k.val
        (fun f => { f with converting := none })) k.val) c.run
      (r.logged = none → replayed s c r.fp = .ok old s1 → exec (.feltConversion k) s = .next (
        later (modArray s1 k.val (fun f => { f with record := { r with bytes := old.getD r.bytes, logged := some old.isSome } })) [.feltConversion k])) ∧
      (∀ logged, r.logged = some logged →
        (sampleFits s c dst n = false → exec (.feltConversion k) s = .next (finished (sampleFails s c 0x04 n) none)) ∧
        (sampleFits s c dst n = true → sampleStore s k.val c dst r.bytes = .bad code sub s1 →
          exec (.feltConversion k) s = .next (finished (sampleFails s1 c code n) none)) ∧
        (sampleFits s c dst n = true → sampleStore s k.val c dst r.bytes = .ok () s1 →
          exec (.feltConversion k) s = .next (finished (sampleLands s1 k.val c dst n) (if logged then none else some (r.fp, r.bytes))))))

/-- 01 R19 to R24: a flit whose header or CRC fails is answered with a NAK that names the first missing Seq, unless one is out; one that
passes acknowledges up to its AckSeq; a DATA flit is accepted when its Seq is the next, and after a gap the missing one is named; a NAK
and 1 µs without an acknowledgement send every kept flit from theirs on again, with the port's present AckSeq, and the ninth replay of a
flit makes the port fail; the ACK timer sends an ACK where a DATA flit awaits one; nothing of this happens on a port that is not UP, and a
retrain holds it. That the ACK timer with nothing due sends an IDLE flit is the model's choice (assumption log 41). -/
def Obligations.FlitsAreAcceptedInOrder : Prop :=
  ∀ (s : State) (p : Fin 36) (raw : List Byte) (ack : Nat),
    let x := getPort s p.val
    let nak := fun (u : State) =>
      let y := getPort u p.val
      if y.nakOut = true ∨ y.retrain = true then u
      else later (plainFlit (setPort u p.val (fun x => { x with nakOut := true })) p.val 3 (leBytes 2 ((y.rxSeq + 1) % 4096))) [.nakHoldoffExpiry p]
    let got := fun (typ : Nat) (good : Flit → State → State) =>
      match flitOf raw with
      | none => nak s
      | some f => if f.typ = typ then good f (takeAck s p.val f.ack) else s
    (x.state ≠ 2 → ∀ i ∈ [Instr.idleFlit p raw, .dataFlit p raw, .ackFlit p raw, .nakFlit p raw, .ackTimer p, .replayTimeout p], exec i s = .next s) ∧
    (x.state = 2 →
      exec (.idleFlit p raw) s = .next (got 0 (fun _ u => u)) ∧
      exec (.ackFlit p raw) s = .next (got 2 (fun _ u => u)) ∧
      exec (.nakFlit p raw) s = .next (got 3 (fun f u => replayOrFail u p (fieldAt f.payload 0 2 % 4096))) ∧
      exec (.dataFlit p raw) s = .next (got 1 (fun f u =>
        let want := ((getPort u p.val).rxSeq + 1) % 4096
        if f.seq = want then
          later (takePayload (setPort u p.val (fun x => { x with rxSeq := want, nakOut := false, ackDue := true })) p f) [.ackTimer p]
        else if (f.seq + 4096 - want) % 4096 < 2048 then sendNak u p
        else later (setPort u p.val (fun x => { x with ackDue := true })) [.ackTimer p]))) ∧
    (let d := (ack + 4096 - x.acked) % 4096
     (d = 0 ∨ 2048 < d ∨ (x.txSeq + 4096 - x.acked) % 4096 < d → takeAck s p.val ack = s) ∧
     (0 < d → d ≤ 2048 → d ≤ (x.txSeq + 4096 - x.acked) % 4096 → x.queued = [] → takeAck s p.val ack = setPort s p.val (fun x =>
       { x with acked := ack, kept := x.kept.filter (fun e => decide (d < (e.seq + 4096 - x.acked) % 4096)), ackTick := s.now }))) ∧
    (x.kept = [] → exec (.replayTimeout p) s = .next s) ∧
    (x.state = 2 → x.kept ≠ [] → s.now < x.ackTick + 1000 ∨ x.retrain = true → exec (.replayTimeout p) s = .next (later s [.replayTimeout p])) ∧
    (x.state = 2 → x.kept ≠ [] → x.ackTick + 1000 ≤ s.now → x.retrain = false →
      (∀ e ∈ x.kept, e.seq < 4096 ∧ (e.seq + 4096 - (x.acked + 1) % 4096) % 4096 < 2048) →
      ((∃ e ∈ x.kept, 8 ≤ e.replays) → exec (.replayTimeout p) s = .next (later (failPort s p 1) [.replayTimeout p])) ∧
      ((∀ e ∈ x.kept, e.replays < 8) → ∃ t, exec (.replayTimeout p) s = .next t ∧
        t.linkOut = s.linkOut ++ x.kept.map (fun e => .flit p.val (flitBytes x e)) ∧ (getPort t p.val).replays = min 0xFFFF (x.replays + 1) ∧
        (getPort t p.val).kept.map (fun e => (e.seq, e.payload)) = x.kept.map (fun e => (e.seq, e.payload)) ∧
        (∀ e ∈ (getPort t p.val).kept, e.since.isSome = true) ∧ t.agenda = s.agenda ++ [.replayTimeout p])) ∧
    (x.state = 2 → exec (.ackTimer p) s = .next (
      if x.retrain = true then later s [.ackTimer p] else plainFlit s p.val (if x.ackDue then 2 else 0) [])) ∧
    exec (.nakHoldoffExpiry p) s = .next (setPort s p.val (fun x => { x with nakOut := false }))

/-- 01 R17, R24, R34 to R40: what makes a port fail, and with which cause; training starts from DOWN or FAILED, ends in failure after 100
µs, and locked lanes move it from LOCK to MAP; a lane that loses its lock, or wears, is replaced by a retrain that does not offer it, or
fails a port that uses its spare or has fewer than eight lanes left in a retrain; a wearing lane waits for a port that carries traffic; a
partner's LOCK at a port that is UP starts a retrain there; PORTCTL disables, trains and resets a port; a notice is written to its addresses
under the next sequence number, after the tick of the failure, earlier failures first and of those at one tick the lower port's. That a RESET of
a port that is DOWN or FAILED increments GEN is the model's choice (assumption log 22). -/
def Obligations.PortsTrainAndFail : Prop :=
  ∀ (s : State) (p : Fin 36) (raw : List Byte) (lane : Nat) (lanes : BitVec 16),
    let x := getPort s p.val
    let fails := fun (i : Instr) (cause : Nat) => exec i s = .next (failPort s p cause)
    let idle := (List.range (partCount s)).all (partIdle s)
    let locked := fun (ls : BitVec 16) => ((List.range 9).filter (fun l => ls.getLsbD l)).length
    (x.state = 2 → heldFor s p.val 13000 = true → fails (.linkRetryBound p) 1) ∧
    (x.state = 2 → x.kept ≠ [] → heldFor s p.val 13000 = false → exec (.linkRetryBound p) s = .next (later s [.linkRetryBound p])) ∧
    (x.state ≠ 2 ∨ x.kept = [] → exec (.linkRetryBound p) s = .next s) ∧
    (x.state = 1 → x.t0 + 100000 ≤ s.now → fails (.trainingTimeout p) 3) ∧
    (x.state = 1 → s.now < x.t0 + 100000 → exec (.trainingTimeout p) s = .next (later s [.trainingTimeout p])) ∧
    (x.state ≠ 1 → exec (.trainingTimeout p) s = .next s) ∧
    (x.state = 1 ∨ x.state = 2 → fails (.partnerReset p) 4) ∧ (x.state = 0 ∨ x.state = 3 → exec (.partnerReset p) s = .next s) ∧
    exec (.lossOfLock p lane) s = .next (
      if x.state ≠ 2 then s else if x.spare then failPort s p 2
      else if x.retrain then retrainWithout s p lane else startRetrain s p (some lane)) ∧
    (let left := x.myLanes &&& ~~~BitVec.ofNat 16 (2 ^ lane)
     (x.myLanes.getLsbD lane = false → retrainWithout s p lane = s) ∧
     (x.myLanes.getLsbD lane = true → locked left < 8 → retrainWithout s p lane = failPort s p 2) ∧
     (x.myLanes.getLsbD lane = true → 8 ≤ locked left →
       retrainWithout s p lane = sendTrain (setPort s p.val (fun x => { x with step := 1, myLanes := left })) p.val)) ∧
    (x.state = 2 → x.retrain = false → x.spare = false → x.lanes.getLsbD lane = true → exec (.wearingLaneReplace p lane) s = .next (
      if idle = true then startRetrain s p (some lane) else later s [.wearingLaneReplace p lane])) ∧
    (x.state = 2 → x.retrain = false → x.spare = true ∨ x.lanes.getLsbD lane = false → exec (.wearingLaneReplace p lane) s = .next s) ∧
    (x.state ≠ 2 ∨ x.retrain = true → exec (.wearingLaneReplace p lane) s = .next (later s [.wearingLaneReplace p lane])) ∧
    (heldFor s p.val 8001 = true ∨ (∃ e ∈ x.kept, e.retrained = true) → startRetrain s p (some lane) = failPort s p 1) ∧
    (heldFor s p.val 8001 = false → (∀ e ∈ x.kept, e.retrained = false) →
      let y := getPort (startRetrain s p (some lane)) p.val
      y.state = x.state ∧ y.retrain = true ∧ y.step = 1 ∧ y.t0 = s.now ∧
        (∀ l < 16, y.myLanes.getLsbD l = ((x.lanes.getLsbD l || decide (l = 8)) && decide (l ≠ lane))) ∧
        y.kept.map (fun e => (e.seq, e.payload, e.since)) = x.kept.map (fun e => (e.seq, e.payload, e.since))) ∧
    (x.disable = false →
      let got := fun (good : Flit → State) =>
        match flitOf raw with
        | none => s
        | some f => if f.typ = 4 then good f else s
      (x.state = 0 ∨ x.state = 3 → exec (.trainFlit p raw) s = .next (got (fun _ => startTraining s p.val))) ∧
      (x.state = 1 ∨ x.state = 2 ∧ x.retrain = true → exec (.trainFlit p raw) s = .next (got (fun f => trainWith s p f.payload))) ∧
      (x.state = 2 → x.retrain = false → exec (.trainFlit p raw) s = .next (got (fun f => if fieldAt f.payload 0 1 = 1 then startRetrain s p none else s)))) ∧
    (x.disable = true → exec (.trainFlit p raw) s = .next s) ∧
    (x.step = 1 → x.state = 1 ∨ x.retrain = true →
      let ls := lanes &&& 0x1FF &&& (if x.retrain then x.myLanes else 0x1FF)
      exec (.lockAcquired p lanes) s = .next (
        if locked ls < 8 then s else sendTrain (setPort s p.val (fun x => { x with step := 2, myLanes := ls })) p.val)) ∧
    (x.step ≠ 1 ∨ x.state ≠ 1 ∧ x.retrain = false → exec (.lockAcquired p lanes) s = .next s) ∧
    (∃ t, exec (.portDisable p) s = .next t ∧ (getPort t p.val).state = 0 ∧ (getPort t p.val).disable = true) ∧
    (x.disable = false → x.state = 0 ∨ x.state = 3 → ∃ t, exec (.portTrain p) s = .next t ∧ (getPort t p.val).state = 1 ∧ (getPort t p.val).step = 1 ∧
      (getPort t p.val).myLanes = 0 ∧ (getPort t p.val).t0 = s.now) ∧
    (x.disable = true ∨ x.state = 1 ∨ x.state = 2 → exec (.portTrain p) s = .next s) ∧
    (∃ t, exec (.portReset p) s = .next t ∧ (getPort t p.val).state = 0 ∧ (getPort t p.val).keyRej = 0 ∧ (getPort t p.val).replays = 0 ∧
      (x.state = 0 ∨ x.state = 3 → (getPort t p.val).gen = x.gen + 1)) ∧
    ((∀ n ∈ s.link.notices, n.port ≠ p.val) → exec (.noticeRecord p) s = .next s) ∧
    (∀ n, s.link.notices.find? (fun n => n.port = p.val) = some n →
      let first := ∀ m ∈ s.link.notices, (m.t0 = n.t0 → p.val ≤ m.port) ∧ (m.todo = none → n.t0 ≤ m.t0)
      (s.now ≤ n.t0 ∨ ¬ first → exec (.noticeRecord p) s = .next (later s [.noticeRecord p])) ∧
      (n.t0 < s.now → first → n.todo = none → s.link.noticeB = 0 →
        s.link.noticeA = 0 ∨ s.link.noticeA.getLsbD 63 = false ∧ s.link.noticeA.toNat % 32 = 0 → exec (.noticeRecord p) s = .next { s with
          link := { s.link with noticeSeq := s.link.noticeSeq + 1, notices := s.link.notices.erase n }
          busOut := s.busOut ++ if s.link.noticeA = 0 then [] else [.write s.link.noticeA (noticeBytes s n s.link.noticeSeq)] }))

/-- 01 R25 to R32, R35, R38; 00 R8, R9: the inactive routing and key banks take writes and the active ones refuse them, as all do while a switch
is pending; SWREQ makes a switch pending, which happens at SWTIME; the packets of a hold leave, by the entry that each was looked up by, when
nothing sent before them is out, those of one port at a time, and the hold ends with the port of the destination now;
DEVNUM is written only while no port is UP; a packet in transit is checked by its key, and then is this device's or leaves by one lookup, or has
no route; MGMT writes the block's registers in order, or nothing; a register write stores its writable fields. -/
def Obligations.RoutesAndRegistersAreWritten : Prop :=
  ∀ (s : State) (port : Fin 36) (p : Packet) (off dest : Nat) (v : Word),
    let k := p.key.toNat
    let d := p.dest.toNat % 8192
    let n := fieldAt p.body 0 2
    let refused := { s with link := { s.link with awErr := true } }
    let route := v &&& 0xFE00000FFFFFFFFF
    let key := v &&& 0xC00000000000FFFF
    let old := s.link.transit.filter (fun x => decide (s.now < x.since + 100000))
    let s0 := { s with link := { s.link with transit := old } }
    (off % 8 = 0 → s.link.pending = false →
      (0x120000 ≤ off → off < 0x130000 → exec (.routingBankWrite off v) s = .next (if s.link.active then
        { s with link := { s.link with bank0 := s.link.bank0.set ((off - 0x120000) / 8) route } } else refused)) ∧
      (0x130000 ≤ off → off < 0x140000 → exec (.routingBankWrite off v) s = .next (if s.link.active then refused else
        { s with link := { s.link with bank1 := s.link.bank1.set ((off - 0x130000) / 8) route } })) ∧
      (0x140000 ≤ off → off < 0x140040 → exec (.routingBankWrite off v) s = .next (if s.link.active then
        { s with link := { s.link with keys0 := s.link.keys0.set ((off - 0x140000) / 8) key } } else refused)) ∧
      (0x140040 ≤ off → off < 0x140080 → exec (.routingBankWrite off v) s = .next (if s.link.active then refused else
        { s with link := { s.link with keys1 := s.link.keys1.set ((off - 0x140040) / 8) key } }))) ∧
    (s.link.pending = true → 0x120000 ≤ off → off < 0x140080 → exec (.routingBankWrite off v) s = .next refused) ∧
    exec .swreq s = .next (if s.link.pending ∨ s.link.holds ≠ [] then { s with link := { s.link with swErr := true } }
      else later { s with link := { s.link with pending := true } } [.bankSwitch]) ∧
    (s.link.pending = false → exec .bankSwitch s = .next s) ∧
    (s.link.pending = true → s.now < s.link.swTime.toNat → exec .bankSwitch s = .next (later s [.bankSwitch])) ∧
    (s.link.pending = true → s.link.swTime.toNat ≤ s.now → ∃ t, exec .bankSwitch s = .next t ∧ t.link.active = !s.link.active ∧ t.link.pending = false ∧
      t.link.bank0 = s.link.bank0 ∧ t.link.bank1 = s.link.bank1 ∧ (s.requests = [] → s.link.transit = [] → t.link.holds = s.link.holds)) ∧
    (dest ∉ s.link.holds → exec (.classOHoldEnd dest) s = .next s0) ∧
    (dest ∈ s.link.holds → classOOut s0 dest = true → exec (.classOHoldEnd dest) s = .next (later s0 [.classOHoldEnd dest])) ∧
    (dest ∈ s.link.holds → classOOut s0 dest = false →
      let mine := s.link.heldPackets.filter (fun x => x.2.dest.toNat % 8192 = dest)
      let others := s.link.heldPackets.filter (fun x => x.2.dest.toNat % 8192 ≠ dest)
      let way := (mine.head?.map (fun x => entryPort s0 x.1)).getD (classOPort s0 dest)
      let go := mine.takeWhile (fun x => entryPort s0 x.1 == way)
      let left := mine.drop go.length
      let sent := fun (holds : List Nat) =>
        go.foldl sendHeld { s with link := { s.link with transit := old, holds := holds, heldPackets := others ++ left } }
      exec (.classOHoldEnd dest) s = .next (
        if left = [] ∧ way = classOPort s0 dest then sent (without s.link.holds dest) else later (sent s.link.holds) [.classOHoldEnd dest])) ∧
    exec (.devnumWrite v) s = .next (if (List.range 36).any (portUp s) then refused
      else { s with link := { s.link with devnum := v.setWidth 13 } }) ∧
    (keyAccepted s k = false → exec (.transitPacket port p) s = .next (
      reject (setPort s port.val (fun x => { x with keyRej := min 0xFFFF (x.keyRej + 1) })) p 7)) ∧
    (keyAccepted s k = true →
      (d = devnum s → exec (.transitPacket port p) s = .next (soon s [packetArrives p])) ∧
      (d ≠ devnum s → classU p.opcode.toNat = false → exec (.transitPacket port p) s = .next (
        if hasRoute s d then sendPacket (transitEnded s p) p else reject s p 6)) ∧
      (d ≠ devnum s → classU p.opcode.toNat = true → exec (.transitPacket port p) s = .next (
        if entryRoutes (routeEntry s d) = true ∧ livePorts s (routeEntry s d) ≠ [] then sendPacket (transitEnded s p) p else reject s p 6))) ∧
    (keyManages s k = false → exec (.mgmt p) s = .next (acknowledge s p [] 9 0 0x04 0)) ∧
    (keyManages s k = true → n = 1 → p.length = 24 → zeroAt p.body 2 6 = true →
      let a := fieldAt p.body 8 8
      (0x100000 ≤ a → a < 0x150000 → a % 8 = 0 →
        exec (.mgmt p) s = .next (acknowledge (linkWrite s a (BitVec.ofNat 64 (fieldAt p.body 16 8))) p [] 0 0 0 0)) ∧
      (a < 0x100000 → exec (.mgmt p) s = .next (acknowledge s p [] 9 0 0x01 0))) ∧
    exec (.registerWrite .control 0x20 v) s = .next { s with host := { s.host with qhBase := v } } ∧
    exec (.registerWrite .control 0xC0 v) s = .next { s with host := { s.host with ctxBase := v } } ∧
    exec (.registerWrite .control 0x100008 v) s = .next { s with link := { s.link with swTime := v } } ∧
    exec (.registerWrite .control 0x28 v) s = .next (soon s [.qhctlWrite v]) ∧
    exec (.registerWrite .ostler 0x110008 v) s = .next (soon s [.mfwWrite 1 v]) ∧
    exec (.registerWrite .ostler 0x150020 v) s = .next { s with ostler := { s.ostler with trLen := v.setWidth 32 } } ∧
    exec (.registerWrite .depot 0 v) s = .next { s with depot := { s.depot with dtmo := BitVec.ofNat 16 (max 1 (min 1000 (bits v.toNat 15 0))) } }

/-- 06 R181 to R187, R191; 14 R330; 03 R101: a request that its home can serve, and that no other request precedes at its granule, is
answered from the depot, refused with the fault's code, or waits for its granule; one behind another waits; one with another epoch is
answered STALE_EPOCH, a snoop or an invalidation too; a late writeback does not land; snoops, invalidations and acknowledgements act on the
line, the directory entry or the request that they name, and a reply's epoch is recorded; a request and a snoop without an answer end at
their time-outs, and not before. The epoch that a DATA reply or a SNPRSP carries in its request word is the model's reading (assumption log
46); that an RD with a 32-byte body reads for a carriage is the model's choice (assumption log 34). -/
def Obligations.RequestsAreServedAtTheirHome : Prop :=
  ∀ (s s1 s2 s3 : State) (p : Packet) (u w : Unit) (v : Vec) (n : Nat),
    let s0 := charged s p
    let pa := requestPa p
    let g := pa / 64
    let key := requestKey p
    let b := p.body
    let ack := fun (t : State) (status value : Nat) => acknowledge t p (b.take 16) status 0 0 value
    let data := vecOfBytes ((b.drop 24).take 64)
    ((dirOf s g).waiting = [] →
      (b.length ≠ 32 → Servable s p false →
        exec (.rd p) s = .next (answeredBy p (depotRead s0 g key) (fun v t => sendData (modDir t g (fun d => addSharer d p.src.toNat)) p v)) ∧
        (depotRead s0 g key = .ok v s1 → exec (.rd p) s = .next (sendData (modDir s1 g (fun d => addSharer d p.src.toNat)) p v))) ∧
      (Servable s p true →
        exec (.wr p) s = .next (answeredBy p (depotWrite s0 g key data (fieldAt b 16 8) 0)
          (fun _ t => ack (apertureLanding t pa (fieldAt b 16 8) data) 0 0)) ∧
        (depotWrite s0 g key data (fieldAt b 16 8) 0 = .ok u s1 → exec (.wr p) s = .next (ack (apertureLanding s1 pa (fieldAt b 16 8) data) 0 0)) ∧
        (settle s0 g none = .ok u s1 → invalidate s1 g none = .ok w s2 → readSector s2 g key = .ok v s3 →
          exec (.rdx p) s = .next (sendData (markMaps (modDir s3 g (fun d => { d with st := .owned, clusters := [], ownerDev := some p.src.toNat })) g 0) p v)) ∧
        (n = 4 ∨ n = 8 → fieldAt b 17 1 = n → fieldAt b 16 1 ≤ 9 → pa % n = 0 → depotRead s0 g key = .ok v s1 →
          let old := fieldAt (vecBytes v) (pa % 64) n
          let new := amoNew (fieldAt b 16 1) n old (fieldAt b 24 8 % 2 ^ (8 * n)) (fieldAt b 32 8 % 2 ^ (8 * n))
          (new = none → exec (.amoPacket p) s = .next (ack s1 0 old)) ∧
          (∀ x, new = some x →
            exec (.amoPacket p) s = .next (answeredBy p (depotWrite s1 g key (granuleImage (pa % 64) (leBytes n x)) (maskAt (pa % 64) n) 0)
              (fun _ t => ack t 0 old)))) ∧
        (fieldAt b 16 2 = 64 → pa + 64 ≤ hbmSize → depotTakes s0 true [g] = .ok w s1 → drayGranules s1 g key (b.drop 24) 1 = .ok u s2 →
          exec (.draywr p) s = .next (ack s2 0 0)))) ∧
    (b.length = 32 → requestWordLegal b = true → staleEpoch s b = false →
      let read := fetchServe s (2 ^ 50 + p.src.toNat * 2 ^ 32 + p.tag.toNat) (BitVec.ofNat 16 (fieldAt b 24 2)) (fieldAt b 16 8) (fieldAt b 26 2)
      (read = .ok v s1 → exec (.rd p) s = .next (sendData (charged s1 p) p v)) ∧
      (∀ code sub, read = .bad code sub s1 → exec (.rd p) s = .next (refuse s1 p (fetchFailCode code) sub)) ∧
      (read = .busy s1 → exec (.rd p) s = .next (later s1 [.rd p]))) ∧
    (∀ q rest, (dirOf s g).waiting = q :: rest → q ≠ p → p ∉ rest →
      (b.length ≠ 32 → Servable s p false → exec (.rd p) s = .next (waitGranule s0 g p)) ∧
      (Servable s p true → ∀ i ∈ [Instr.rdx p, .wr p, .amoPacket p], exec i s = .next (waitGranule s0 g p))) ∧
    (Servable s p true →
      ((dirOf s0 g).st = .derelict → exec (.wb p) s = .next (refuse s0 p 0x07 0x04)) ∧
      ((dirOf s0 g).st ≠ .derelict → (sectorOf s0 g).derelict = false → (dirOf s0 g).ownerDev ≠ some p.src.toNat → exec (.wb p) s = .next (ack s0 0 0)) ∧
      ((dirOf s0 g).st ≠ .derelict → (sectorOf s0 g).derelict = false → (dirOf s0 g).ownerDev = some p.src.toNat →
        exec (.wb p) s = .next (ack (releaseWaiting (modDir (markMaps (writeSector s0 g key (vecOfBytes ((b.drop 16).take 64))) g 0) g
          (fun d => { d with st := .uncached, ownerDev := none, snooping := false })) g) 0 0))) ∧
    (fieldAt b 6 2 ≠ 0 → fieldAt b 6 2 ≠ s.ostler.epoch.toNat → bits (fieldAt b 15 1) 5 0 = 0 → pa < hbmSize →
      ∀ i ∈ [Instr.snp p, .inv p, .rd p, .rdx p, .wr p, .amoPacket p, .wb p, .draywr p], exec i s = .next (ack s 5 0)) ∧
    (requestWordLegal b = false → ∀ i ∈ [Instr.snp p, .inv p, .snprsp p, .rd p, .rdx p, .wr p, .amoPacket p, .wb p, .draywr p],
      exec i s = .next (ack s 8 0)) ∧
    (requestWordLegal b = true → staleEpoch s b = false →
      let mine := fun (l : L2Line) => l.dev == p.src.toNat && l.pa == g * 64
      let posting := fun (q : OutPost) => q.dev = p.src.toNat && q.pa / 64 * 64 = g * 64 && !(q.stage = .queued)
      let hit := fun (bytes : List Byte) => dataWord s b ++ [1, 0, 0, 0, 0, 0, 0, 0] ++ bytes
      (s.l2.find? mine = none → s.outPosts.find? posting = none → exec (.snp p) s = .next (replyTo s p 0x07 (dataWord s b ++ List.replicate 8 0))) ∧
      (∀ q, s.l2.find? mine = none → s.outPosts.find? posting = some q →
        (q.stage = .asked ∨ q.stage = .slot → exec (.snp p) s = .next (modPost s q.id (fun q => { q with snoop := some p }))) ∧
        (q.stage ≠ .asked → q.stage ≠ .slot → exec (.snp p) s = .next (replyTo s p 0x07 (hit q.head)))) ∧
      (∀ l, s.l2.find? mine = some l → exec (.snp p) s = .next (replyTo
        { s with l2 := s.l2.map (fun x => if mine x then { x with owned := false, dirty := false } else x) } p 0x07
        (hit (if l.dirty then vecBytes l.data else [])))) ∧
      exec (.inv p) s = .next (ack { s with
        l2 := s.l2.filter (fun l => !mine l)
        requests := s.requests.map (fun r => if r.2.dev == p.src.toNat && r.2.pa == g * 64 then (r.1, { r.2 with stale := true }) else r) } 0 0)) ∧
    (∀ tag r, s.requests.find? (fun r => r.1 == p.tag.toNat && r.2.dev == p.src.toNat) = some (tag, r) →
      exec (.dataPacket p) s = .next (answered (believes s r.dev (fieldAt b 6 2)) tag r
        { data := some (g * 64, vecOfBytes ((b.drop 16).take 64)) }) ∧
      (let x : Answer := { code := (statusCode b).1, sub := (statusCode b).2, value := BitVec.ofNat 64 (fieldAt b 24 8) }
       (fieldAt b 16 1 ≠ 5 → exec (.ackPacket p) s = .next (answered
         { s with ostler := { s.ostler with believed := s.ostler.believed.set r.dev (BitVec.ofNat 16 (fieldAt b 18 2)) } } tag r x)) ∧
       (fieldAt b 16 1 = 5 → exec (.ackPacket p) s = .next (makeGone (answered s tag r x) r.dev 2))) ∧
      (∀ h, r.kind = .snoop h → requestWordLegal b = true → (dirOf s h).snooping = true →
        let s1 := { believes s p.src.toNat (fieldAt b 6 2) with requests := s.requests.del tag }
        (fieldAt b 16 1 ≠ 1 → exec (.snprsp p) s = .next (makeDerelict s1 h p.src.toNat)) ∧
        (fieldAt b 16 1 = 1 → 88 ≤ b.length → exec (.snprsp p) s = .next (releaseWaiting
          (modDir (markMaps (writeSector s1 h key data) h 0) h
            (fun d => { d with st := .shared, ownerDev := none, remotes := with1 d.remotes p.src.toNat, snooping := false })) h)))) ∧
    (s.requests = [] → exec (.dataPacket p) s = .next s ∧ exec (.ackPacket p) s = .next s ∧ exec (.requestTimeout p.tag.toNat) s = .next s ∧
      (requestWordLegal b = true → let s1 := believes s p.src.toNat (fieldAt b 6 2)
        exec (.snprsp p) s = .next (sendRequest s1 p.src.toNat none (.invalidate g) (BitVec.ofNat 64 pa) 0 0x0A
          (requestWord s1 p.src.toNat pa 0 0 6 false false)).1)) ∧
    (∀ tag r, s.requests.find? (fun r => r.1 == tag) = some (tag, r) →
      (s.now < r.since + 100000 → exec (.requestTimeout tag) s = .next (later s [.requestTimeout tag])) ∧
      (r.since + 100000 ≤ s.now → r.dev ∈ s.ostler.gone → exec (.requestTimeout tag) s = .next (answered s tag r { code := 0x0A, sub := 3 })) ∧
      (r.since + 100000 ≤ s.now → (makeGone s r.dev 3).requests.find? (fun r => r.1 == tag) = none →
        exec (.requestTimeout tag) s = .next (makeGone s r.dev 3))) ∧
    ((dirOf s g).snooping = false → exec (.snoopTimeout g) s = .next s) ∧
    ((dirOf s g).snooping = true →
      (s.now < (dirOf s g).snoopTick + 1000 * s.depot.dtmo.toNat → exec (.snoopTimeout g) s = .next (later s [.snoopTimeout g])) ∧
      ((dirOf s g).snoopTick + 1000 * s.depot.dtmo.toNat ≤ s.now → ∀ dev, (dirOf s g).ownerDev = some dev →
        exec (.snoopTimeout g) s = .next (makeDerelict { s with requests := s.requests.filter (fun r => !(r.2.kind == .snoop g)) } g dev))) ∧
    exec (.reservedOpcode p) s = .next (if p.flags.getLsbD 0 then acknowledge s p [] 8 0 0 0 else s)

/-- 06 R166, R167, R170, R184, R188, R189, R192; 02 R57; 03 R101, R102; 04 R126; 01 R37: generations and charges are recorded and
acknowledged; a notice is written and acknowledged; a message of another device reaches its core, is refused, or waits for room; TRINV drops
what it names, here and on the devices of its SCOPE, or is refused while it is BUSY; PEEK reads a sector and RECLAIM gives back a derelict
one; an entry with MIG set is read again after its 250 ns; a peer read answers the agent, the engine's piece or the fetcher that waits. -/
def Obligations.FabricMessagesAct : Prop :=
  ∀ (s s1 : State) (p : Packet) (v : Word) (keyid : BitVec 8) (a : Agent) (n m ea bus kind dev slot : Nat) (va : Word) (bytes : List Byte),
    let b := p.body
    let mt := targetOf (fieldAt b 0 8)
    let no := fun (i : Instr) (code sub : Nat) => exec i s = .next (refuse s { p with body := [] } code sub)
    let okay := fun (t : State) => Host.Outcome.next (acknowledge t p [] 0 0 0 0)
    let line := bits s.depot.daddr.toNat 43 6
    let d := dirOf s line
    let recorded := s.generations.filter (fun e => !(e.1 == p.src.toNat && e.2.1 == BitVec.ofNat 32 (fieldAt b 0 4))) ++
      [(p.src.toNat, BitVec.ofNat 32 (fieldAt b 0 4), BitVec.ofNat 16 (fieldAt b 4 2))]
    exec (.gen p) s = okay { s with generations := recorded } ∧
    (fieldAt b 0 2 = 1 → let acct := s.fareTags.get 0 (fieldAt b 8 2)
      (fieldAt b 8 2 ≠ 0 → exec (.charge p) s = okay (
        holdAccounts { s with balances := s.balances.set acct (s.balances.get 0 acct - (fieldAt b 12 4 : Int)) } [acct])) ∧
      (fieldAt b 8 2 = 0 → exec (.charge p) s = okay s)) ∧
    (s.charges = [] → exec .chargeSend s = .next s) ∧
    (s.charges = [(dev, n, m)] → exec .chargeSend s = .next { (sendRequest s dev none .charge 0 0 0x0D
      (leBytes 2 1 ++ List.replicate 6 0 ++ leBytes 2 n ++ [0, 0] ++ leBytes 4 m)).1 with charges := [] }) ∧
    (∃ t, exec .chargeSend s = .next t ∧ t.charges = []) ∧
    (fieldAt b 0 8 % 32 ≠ 0 ∨ hbmSize ≤ fieldAt b 0 8 → exec (.notice p) s = .next (acknowledge s p [] 9 0x04 0x06 0)) ∧
    (∀ u, fieldAt b 0 8 % 32 = 0 → fieldAt b 0 8 < hbmSize → (dirOf s (fieldAt b 0 8 / 64)).waiting = [] →
      depotWrite s (fieldAt b 0 8 / 64) 0 (granuleImage (fieldAt b 0 8 % 64) ((b.drop 8).take 32)) (maskAt (fieldAt b 0 8 % 64) 32) 0 = .ok u s1 →
      exec (.notice p) s = okay s1) ∧
    (targetBad (fieldAt b 0 8) true = true → no (.sendPacket p) 0x01 0x01) ∧
    (targetBad (fieldAt b 0 8) true = false → ostlerTile s (mt.core / 4) = true → no (.sendPacket p) 0x04 0x02) ∧
    (targetBad (fieldAt b 0 8) true = false → ostlerTile s (mt.core / 4) = false →
      exec (.sendPacket p) s = (match sendArrives s mt (BitVec.ofNat 32 (fieldAt b 8 4)) none (vecOfBytes ((b.drop 16).take 64)) with
        | .held s1 => okay (charged s1 p)
        | .refused code sub => .next (refuse s { p with body := [] } code sub)
        | .full => .next (later s [.sendPacket p]))) ∧
    (targetBad (fieldAt b 0 8) false = true → no (.courierPacket p) 0x01 0x01) ∧
    (targetBad (fieldAt b 0 8) false = false → ostlerTile s (mt.core / 4) = false →
      (inboxUsed (getCore s mt.core) < 32 → ∃ t c,
        exec (.courierPacket p) s = .next t ∧ (getCore t mt.core).inbox = (getCore s mt.core).inbox ++ [.courier c] ∧ c.budget = fieldAt b 9 1 ∧
        c.senderTag = some p) ∧
      (32 ≤ inboxUsed (getCore s mt.core) → exec (.courierPacket p) s = .next (later s [.courierPacket p]))) ∧
    (ostlerTile s (msendTile b) = true → no (.msendPacket p) 0x04 0x02) ∧
    (ostlerTile s (msendTile b) = false → exec (.msendPacket p) s = .next (msendArrives (charged s p) 0 0 (some p) b)) ∧
    exec (.killPacket p) s = okay (startKill s (BitVec.ofNat 32 (fieldAt b 0 4))) ∧
    (let waits := trinvWaits s (fieldAt b 0 8) (fieldAt b 8 8) (fieldAt b 16 8)
     let done := trinvPart s (fieldAt b 0 8) (fieldAt b 8 8) (fieldAt b 16 8)
     (s.ostler.trinvHeld = [] → waitsOn done waits.1 waits.2 = false → exec (.trinvPacket p) s = okay done) ∧
     (s.ostler.trinvHeld = [] → waitsOn done waits.1 waits.2 = true → exec (.trinvPacket p) s = .next (
       later { done with ostler := { done.ostler with trinvHeld := done.ostler.trinvHeld ++ [(p, waits)] } } [.trinvPacket p]))) ∧
    (∀ i ∈ [Instr.trinvRange v, .trinvAll v, .trinvGrants v],
      let waits := trinvWaits s v.toNat s.ostler.trVa.toNat s.ostler.trLen.toNat
      let here := trinvPart (trinvStore s v) v.toNat s.ostler.trVa.toNat s.ostler.trLen.toNat
      let dests := (List.range 8192).filter (fun d => !(d = devnum s) && hasRoute here d)
      let body := leBytes 8 v.toNat ++ leBytes 8 s.ostler.trVa.toNat ++ leBytes 8 s.ostler.trLen.toNat
      let sent := dests.foldl (fun s d => (sendRequest s d none .trinv 0 0 0x0B body).1) here
      (trinvBusy s = true → exec i s = .next { s with ostler := { s.ostler with trErr := true } }) ∧
      (trinvBusy s = false → bits v.toNat 59 57 = 3 → exec i s = .next
        { here with ostler := { here.ostler with trAcks := [], trWait := waits.1, trUnits := waits.2 } }) ∧
      (trinvBusy s = false → bits v.toNat 59 57 = 4 → exec i s = .next
        { sent with ostler := { sent.ostler with trAcks := dests, trWait := waits.1, trUnits := waits.2 } }) ∧
      (trinvBusy s = false → bits v.toNat 59 57 ≠ 3 → bits v.toNat 59 57 ≠ 4 → exec i s = .next (trinvRefuse (trinvStore s v))) ∧
      (bits v.toNat 63 60 = 3 → ∀ c, ∀ e ∈ (getCore here c).plb, e.pdom.toNat ≠ bits v.toNat 47 32)) ∧
    ((s.contexts.filter (fun c => c.2.killing && decide (dev ∈ c.2.killAcks))) = [] →
      exec (.goneClear dev) s = .next { s with ostler := { s.ostler with gone := without s.ostler.gone dev } }) ∧
    (hbmSize ≤ 64 * line → exec (.peek keyid) s = .next { s with depot := { s.depot with derr := true } }) ∧
    (64 * line < hbmSize → (sectorOf s line).key = keyid → (sectorOf s line).uncorrectable = false → ∃ t, exec (.peek keyid) s = .next t ∧ t.hbm = s.hbm ∧
      (d.st = .uncached → (sectorOf s line).derelict = false →
        t.depot.dstat = BitVec.ofNat 64 (2 ^ 61 + if (sectorOf s line).poisoned then 2 ^ 59 else 0)) ∧ ∀ k < 8, t.depot.ddata.toList.getD k 0 = BitVec.ofNat 64 (ofBytes (memRead s.hbm (64 * line + 8 * k) 8))) ∧
    (d.st ≠ .derelict → (sectorOf s line).derelict = false →
      ∀ i ∈ [Instr.reclaimKeep, .reclaimData keyid], exec i s = .next { s with depot := { s.depot with derr := true } }) ∧
    (d.st = .derelict → d.waiting = [] →
      (∃ t, exec .reclaimKeep s = .next t ∧ (dirOf t line).st = .uncached ∧ (sectorOf t line).derelict = false ∧ t.hbm = s.hbm ∧
        t.depot.drlCnt = s.depot.drlCnt - 1) ∧
      (∃ t, exec (.reclaimData keyid) s = .next t ∧ (dirOf t line).st = .uncached ∧ (sectorOf t line).derelict = false ∧
        (s.hbm.wf = true → memRead t.hbm (64 * line) 64 = s.depot.ddata.toList.flatMap (fun w => leBytes 8 w.toNat)))) ∧
    ((getAgent s a).migReads = none → exec (.migReread a) s = .next s) ∧
    ((getAgent s a).migReads = some (ea, n, none) → exec (.migReread a) s = .next s) ∧
    ((getAgent s a).migReads = some (ea, n, some m) →
      (s.now < m → exec (.migReread a) s = .next (later s [.migReread a])) ∧
      (m ≤ s.now → exec (.migReread a) s = .next (modAgent s a (fun t => { t with migReads := some (ea, n, none) })))) ∧
    ((getAgent s a).status = .awaitPeer bus n kind va →
      exec (.peerReadCompletion a true bytes) s = .next (modAgent s a (fun t =>
        { t with status := .ready, peerBytes := t.peerBytes ++ [(bus, padTo n bytes)] })) ∧
      ∀ i ∈ [Instr.peerReadCompletion a false bytes, .peerLoadTimeout a], exec i s = .next (modAgent s a (fun t =>
        { t with status := .ready, replyFault := some (faultInfo 0x0A 0x04 kind va 0) }))) ∧
    (∀ r, (getAgent s a).status = .ready → s.peerReads.find? (fun r => r.1 == a) = some r →
      exec (.peerReadCompletion a true bytes) s = .next { s with peerReads := s.peerReads.erase r, peerData := s.peerData.set r.2.1 (some bytes) } ∧
      ∀ i ∈ [Instr.peerReadCompletion a false bytes, .peerLoadTimeout a],
        exec i s = .next { s with peerReads := s.peerReads.erase r, peerData := s.peerData.set r.2.1 none }) ∧
    (∀ i < 256, ∀ j < 4096, ∀ k < 2 ^ 20, let q := pieceAgent i j k
      (getAgent s q).status = .ready → s.peerReads.find? (fun r => r.1 == q) = none →
      (bytes ≠ [] → exec (.peerReadCompletion q true bytes) s = .next (later s [.carriagePiece i j (4096 * k) bytes])) ∧
      exec (.peerReadCompletion q false bytes) s = .next (later s [.carriageFetchFail i j 0x14])) ∧
    (slot < 65536 → let q := Agent.courier (4096 + slot)
      (getAgent s q).status = .ready → s.peerReads.find? (fun r => r.1 == q) = none →
      ((getQueue s slot).fetch = .first → exec (.peerReadCompletion q true bytes) s = .next (later s [.packetFetch slot (padTo 64 bytes)])) ∧
      ((getQueue s slot).fetch = .reread → exec (.peerReadCompletion q true bytes) s = .next (later s [.fetchReread slot (padTo 64 bytes)])))

/-- 04 R106 to R124; 01 R14 to R16, R43: a rail that has settled puts its tile into the gear that was asked for; the L2 rail is lowered
and raised; PARK and WAKE follow their conditions and hold times; LATTOL takes the written tolerance; a drag step counts itself; the clock
mask follows the measured power; replays count towards wear; heat is recorded; a wear trigger is pending until its partition is idle; a
spare tile takes over its position; roles of a fenced column tile move; and a pulse per second takes a sample of 1588 time. The source
number of PENDING is the model's choice (assumption log 50), and so is that a hot junction slows every cluster (assumption log 32). -/
def Obligations.PowerHeatAndSparesStep : Prop :=
  ∀ (s : State) (tile cluster powerW source seconds die pos port lane : Nat) (part : Fin 8) (hot : Bool) (g : Gear) (v : Word)
    (cycles : List (Nat × Nat × Nat)) (w : Wear),
    let t := getTile s tile
    let c := getCluster s cluster
    let owner := getCluster s (tile / 8)
    let d := getDie s die
    let counts := d.replays.get (0, 0) (physTile s (128 * die + pos))
    let pending := modMgmt s (fun m => { m with pendingSpares := m.pendingSpares ++ [w] })
    let taken := modMgmt s (fun m => { m with pendingSpares := without m.pendingSpares w, pendingLogged := without m.pendingLogged w })
    let record := fun (s : State) (cls : RecordClass) (sub : Nat) => logRecord s { cls := cls, sub := sub, source := source }
    (t.changing = none → exec (.gearRailSettled tile) s = .next s) ∧
    (t.changing = some g → t.gear ≠ .park → exec (.gearRailSettled tile) s =
      .next (gearCheck (resumeTile (modTile s tile (fun t => { t with gear := g, changing := none })) tile) tile)) ∧
    (t.changing = some g → t.gear = .park → exec (.gearRailSettled tile) s = .next (gearCheck (resumeTile (modTile s tile (fun t =>
      { t with gear := g, changing := none, wakeAsked := false, wakeGear := none })) tile) tile)) ∧
    (clusterGallops s cluster = true ∨ c.railLow = true → exec (.l2RailLower cluster) s = .next s) ∧
    (clusterGallops s cluster = false → c.railLow = false → ∃ u, exec (.l2RailLower cluster) s = .next u ∧
      (getCluster u cluster).railLow = true ∧ (getCluster u cluster).decTed = true) ∧
    (c.railLow = true → exec (.l2RailRisen cluster) s = .next s) ∧
    (c.railLow = false → exec (.l2RailRisen cluster) s = .next (modCluster s cluster (fun c => { c with decTed := false }))) ∧
    (mayPark s tile = true → exec (.park tile) s = .next (modTile s tile (fun t => { t with gear := .park, parkTick := s.now }))) ∧
    (mayPark s tile = false → exec (.park tile) s = .next (idleCheck s tile)) ∧
    (t.gear ≠ .park → exec (.wake tile) s = .next (modTile s tile (fun t => { t with wakeAsked := false, wakeGear := none }))) ∧
    (t.gear = .park → t.changing = none → t.wakeAsked = true →
      (s.now < wakeReady t ∨ wakesFirst s tile = true → exec (.wake tile) s = .next (later s [.wake tile])) ∧
      (wakeReady t ≤ s.now → (∀ k, owner.lastWake = some k → k + 50 ≤ s.now) → wakesFirst s tile = false →
        ∃ u, exec (.wake tile) s = .next u ∧ (getTile u tile).wakeAsked = false ∧ .gearRailSettled tile ∈ u.agenda ∧
          (getCluster u (tile / 8)).lastWake = some s.now ∧
          (getTile u tile).changing = some (t.wakeGear.getD (if 240 ≤ tolerance s tile then .walk else .gallop)))) ∧
    (∃ u, exec (.lattolWrite part v) s = .next u ∧ u.host.lattol.get part = v.setWidth 32) ∧
    (∃ u, exec (.dragStep cluster) s = .next u ∧ (getCluster u cluster).dragStep = c.dragStep + 1 ∧
      (c.finished = [] → c.requests = [] → (getCluster u cluster).units = c.units ∧ u.agenda = s.agenda)) ∧
    (let limit := s.host.pwrLimit.toNat
      ∃ u, exec (.clockMaskAdjust cluster powerW hot) s = .next u ∧ (getCluster u cluster).hot = false ∧
        (getCluster u cluster).maskN = if limit < powerW ∨ hot ∨ c.hot then min 24 (c.maskN + 1)
          else if powerW * 100 < 97 * limit then c.maskN - 1 else c.maskN) ∧
    (∃ u, exec (.timingReplay tile) s = .next u ∧
      (getTile u tile).winWalk = t.winWalk + (if t.gear = .walk then 1 else 0) ∧
      (getTile u tile).winGallop = t.winGallop + (if t.gear = .gallop then 1 else 0)) ∧
    (tile = 128 * die + pos → pos < 128 → t.gear = .walk → ∃ u, exec (.timingReplay tile) s = .next u ∧
      (getDie u die).replays.get (0, 0) (physTile s tile) = (counts.1 + 1, counts.2)) ∧
    (tile = 128 * die + pos → pos < 128 → t.gear = .gallop → ∃ u, exec (.timingReplay tile) s = .next u ∧
      (getDie u die).replays.get (0, 0) (physTile s tile) = (counts.1, counts.2 + 1)) ∧
    (∃ u, exec (.healthWindow cycles) s = .next u ∧ (getTile u tile).winWalk = 0 ∧ (getTile u tile).winGallop = 0 ∧
      ∀ e ∈ cycles, e.2.1 < (getTile s e.1).winWalk * 2 ^ 12 ∨ e.2.2 < (getTile s e.1).winGallop * 2 ^ 16 →
        .wearTrigger (.tile (e.1 / 128) (e.1 % 128)) ∈ u.agenda) ∧
    (∃ u, exec (.junctionThrottle source) s = .next (record u .thermal 1) ∧ ∀ k < 128, (getCluster u k).hot = true) ∧
    exec (.junctionShutdown source) s = .next (record ((List.range (partCount s)).foldl (fun s p => resetPartition s p []) s) .thermal 2) ∧
    exec (.timeOfDayMessage seconds) s = .next { s with mgmt := { s.mgmt with todSeconds := seconds } } ∧
    (∃ u, exec .ppsEdge s = .next u ∧ u.mgmt.todSeconds = s.mgmt.todSeconds + 1 ∧ u.mgmt.sampleTick = s.now ∧
      u.mgmt.sampleSeconds = s.mgmt.todSeconds ∧ ((time1588 s s.now).1 < s.mgmt.todSeconds → time1588 u s.now = (s.mgmt.todSeconds, 0))) ∧
    (w ∈ s.mgmt.pendingSpares → exec (.wearTrigger w) s = .next s) ∧
    (∀ h : port < 36, .lane port lane ∉ s.mgmt.pendingSpares →
      exec (.wearTrigger (.lane port lane)) s = .next (soon s [.wearingLaneReplace ⟨port, h⟩ lane])) ∧
    (w ∉ s.mgmt.pendingSpares → (∀ p l, w ≠ .lane p l) → 
      (∀ x k, w = .tile x k → isColumn s x k = false ∨ (getDie s x).sparesUsed < 8) → exec (.wearTrigger w) s = .next (soon pending [.spareSwap w])) ∧
    (w = .tile die pos → w ∉ s.mgmt.pendingSpares → isColumn s die pos = true → 8 ≤ d.sparesUsed →
      exec (.wearTrigger w) s = .next (soon pending [.roleMove die pos, .spareSwap w])) ∧
    (w ∉ s.mgmt.pendingSpares → exec (.spareSwap w) s = .next s) ∧
    (w ∈ s.mgmt.pendingSpares → swapReady s w = false → w ∈ s.mgmt.pendingLogged → exec (.spareSwap w) s = .next (later s [.spareSwap w])) ∧
    (w ∈ s.mgmt.pendingSpares → swapReady s w = false → w ∉ s.mgmt.pendingLogged → exec (.spareSwap w) s = .next (
      later (spareRecordOf (modMgmt s (fun m => { m with pendingLogged := m.pendingLogged ++ [w] })) 7 (wearSource s w)) [.spareSwap w])) ∧
    (w = .tile die pos → w ∈ s.mgmt.pendingSpares → swapReady s w = true → exec (.spareSwap w) s = .next (swapTile taken die pos)) ∧
    (w = .tile die pos → w ∈ s.mgmt.pendingSpares → swapReady s w = true → d.sparesUsed < 8 → ∃ u, exec (.spareSwap w) s = .next u ∧
      (getDie u die).moved.get pos pos = 128 + d.sparesUsed ∧ (getDie u die).sparesUsed = d.sparesUsed + 1 ∧ w ∉ u.mgmt.pendingSpares) ∧
    (pos ∈ d.fenced ∨ (.tile die pos ∈ s.mgmt.pendingSpares ∧ 8 ≤ d.sparesUsed) → exec (.roleMove die pos) s = .next (moveRoles s die pos)) ∧
    (pos ∉ d.fenced → .tile die pos ∉ s.mgmt.pendingSpares → exec (.roleMove die pos) s = .next s)

/-- 01 R49 to R53; 03 R79, R103 to R105; 00 R7: package reset leaves what the management controller keeps and boots a signed image of a
slot, or enters RECOVERY; a command of the management block while BUSY is ignored; CHUNK assembles an image, COMMIT checks it and takes it
or refuses it with its RESULT, ABORT drops it; ATTEST reports; REBOOT drops the host port, resets every partition and boots again; a hot
patch is applied, or refused after its time. What a package reset keeps, and the RESULT of a TARGET or a length out of range, are the
model's choice (assumption logs 30 and 29). -/
def Obligations.TheControllerBootsAndCommits : Prop :=
  ∀ (s : State) (strap : Bool) (cmd : Word) (mctp : Option (List Byte)) (nonce : List Byte),
    let m := s.mgmt
    let t := bits cmd.toNat 59 56
    let len := bits cmd.toNat 31 0
    let img := slotImage m strap
    let fused := if Config.imageRaises img = true ∧ m.fused.toNat < (Config.imageSvn img).toNat then Config.imageSvn img else m.fused
    let sent := if m.target = some (BitVec.ofNat 4 t) then m.image else []
    let check := if t = 2 then checkTable m sent else checkFirmware m sent
    (∃ u, exec (.packageReset strap) s = .next u ∧ u.mgmt.strapHigh = strap ∧ u.mgmt.slotA = m.slotA ∧ u.mgmt.slotB = m.slotB ∧ u.mgmt.table = m.table ∧
      u.now = 0 ∧ u.hbm = [] ∧ u.strands = [] ∧
      (u.mgmt.recovery = true ∨ (Config.controllerOk = true ∧ (slotBoots m false = true ∨ slotBoots m true = true)))) ∧
    (Config.controllerOk = true → slotBoots m strap = true → tableSigned m.table = true → tableValid m.table fused = true →
      (∀ d < 8, (getDie s d).fenced = []) → ∃ u, exec (.packageReset strap) s = .next u ∧ u.mgmt.recovery = false ∧ u.mgmt.bootSlot = strap ∧
        u.mgmt.running = img ∧ u.mgmt.svn = Config.imageSvn img ∧ u.mgmt.fused = fused) ∧
    (m.busy = true → ∀ i ∈ [Instr.chunk cmd mctp, .commit cmd, .attest mctp, .reboot, .abort], exec i s = .next s) ∧
    (m.busy = false →
      (3 < t ∨ len = 0 ∨ 4 * 2 ^ 20 < len → exec (.chunk cmd mctp) s = .next (mgmtResult s 4)) ∧
      (t ≤ 3 → 0 < len → len ≤ 4 * 2 ^ 20 →
        (m.target ≠ some (BitVec.ofNat 4 t) → m.offset ≠ 0 → exec (.chunk cmd mctp) s = .next (mgmtResult (discardImage s) 6)) ∧
        (m.target = some (BitVec.ofNat 4 t) → imageLimit t < m.offset.toNat + len → exec (.chunk cmd mctp) s = .next (mgmtResult s 7)) ∧
        (m.target = some (BitVec.ofNat 4 t) → m.offset.toNat = m.image.length → m.image.length + len ≤ imageLimit t → nonce.length = len →
          ∃ u, exec (.chunk cmd (some nonce)) s = .next u ∧ u.mgmt.image = m.image ++ nonce ∧ u.mgmt.result = 0 ∧
            u.mgmt.offset = m.offset + BitVec.ofNat 64 len) ∧
        (m.target ≠ some (BitVec.ofNat 4 t) → m.offset = 0 → len ≤ imageLimit t → nonce.length = len →
          ∃ u, exec (.chunk cmd (some nonce)) s = .next u ∧ u.mgmt.image = nonce ∧ u.mgmt.result = 0 ∧
            u.mgmt.target = some (BitVec.ofNat 4 t) ∧ u.mgmt.offset = BitVec.ofNat 64 len)) ∧
      (3 < t → exec (.commit cmd) s = .next (securityRecord (mgmtResult (discardImage s) 4) 3)) ∧
      (t ≤ 2 → check ≠ 0 → exec (.commit cmd) s = .next (securityRecord (mgmtResult (discardImage s) check) 3)) ∧
      (t ≤ 2 → check = 0 → ∃ u, exec (.commit cmd) s = .next u ∧ u.mgmt.target = none ∧ u.mgmt.image = [] ∧ u.mgmt.result = 0 ∧
        u.mgmt.slotA = (if t = 0 then sent else m.slotA) ∧ u.mgmt.slotB = (if t = 1 then sent else m.slotB) ∧
        u.mgmt.table = (if t = 2 then sent else m.table)) ∧
      (t = 3 → m.recovery = true → exec (.commit cmd) s = .next (securityRecord (mgmtResult (discardImage s) 6) 5)) ∧
      (t = 3 → m.recovery = false → checkPatch m sent ≠ 0 → exec (.commit cmd) s = .next (patchEnds (discardImage s) (checkPatch m sent))) ∧
      (t = 3 → m.recovery = false → checkPatch m sent = 0 → ∃ u, exec (.commit cmd) s = .next u ∧ u.mgmt.busy = true ∧ u.mgmt.patchBusy = true ∧
        u.mgmt.patch = sent ∧ u.mgmt.patchTick = s.now ∧ .hotPatchApply ∈ u.agenda) ∧
      exec .abort s = .next { s with mgmt := { m with target := none, image := [], result := 0 } } ∧
      exec (.attest (some nonce)) s = .next { s with mgmt := { m with reports := m.reports ++ [attestation m nonce], result := 0 } } ∧
      exec (.attest none) s = .next { s with mgmt :=
        { m with staging := memWrite m.staging 0 (attestation m (memRead m.staging 0 64)), length := 404, result := 0 } } ∧
      exec .reboot s = .next (bootFrom2 ((List.range (partCount s)).foldl (fun s p => resetPartition s p [])
        (dropHostPort (securityRecord (mgmtResult s 0) 7))))) ∧
    (m.patchBusy = false → exec .hotPatchApply s = .next s ∧ exec .patchTimeout s = .next s) ∧
    (m.patchBusy = true → m.patchTick + 1000000 < s.now →
      exec .hotPatchApply s = .next (patchEnds s 3) ∧ exec .patchTimeout s = .next (patchEnds s 3) ∧ (patchEnds s 3).mgmt.patchBusy = false ∧
        (patchEnds s 3).mgmt.patchResult = 3 ∧ (patchEnds s 3).mgmt.version = m.version) ∧
    (m.patchBusy = true → s.now ≤ m.patchTick + 1000000 →
      exec .patchTimeout s = .next (later s [.patchTimeout]) ∧
      (fieldAt m.patch 12 1 ≠ 0 → Config.freeTurn s.free = true →
        exec .hotPatchApply s = .next (later { s with free := s.free + 1 } [.hotPatchApply])) ∧
      (fieldAt m.patch 12 1 = 0 ∨ Config.freeTurn s.free = false → ∃ u, exec .hotPatchApply s = .next u ∧ u.mgmt.patchBusy = false ∧
        u.mgmt.patchResult = 0 ∧ u.mgmt.version = BitVec.ofNat 32 (fieldAt m.patch 8 4) ∧ u.mgmt.patches = m.patches ++ [digestOf m.patch]))

/-- 02 R47, R55 to R76; 03 R95 to R99: a BAR4 access is made, or fails and is recorded; a doorbell that names no queue, or moves TAIL
where it may not, leaves a QUEUE record, and another one moves TAIL; QCTL creates, resumes and destroys queues and refuses with its
RESULT; a slot of the ring that is whole becomes the current packet, one that is not is read again; a packet that has become current does
what its type says and ends; a completion removes its packet; the registers with rules of their own keep them. The order of CREATE's
results and the order of a packet's checks are the model's choice (assumption logs 35 and 18). -/
def Obligations.QueuesAndPacketsAct : Prop :=
  ∀ (s s0 s1 s2 : State) (slot off size target : Nat) (pasid : BitVec 20) (v : Word) (p : PacketRun) (part : Fin 8) (bytes : List Byte) (i : Instr)
    (cs : List Carriage) (table : Nat),
    let h := s.host
    let q := getQueue s slot
    let b := qcb s slot
    let bell := pasid.toNat * 4096 + off / 8 % 4096
    let key := bits v.toNat 31 12 * 4096 + bits v.toNat 43 32
    let staged := qctlStore s v 0 false
    let answer := fun (r : Nat) => Host.Outcome.next (qctlResult staged r)
    let ready := fun (t : State) (k : Nat) => h.tableWaits = [] ∧ probeReady t s.now k (probeSlots s k) = .ok () t
    let canRead := fun (t : State) => t.host.qhEn = false ∨ (t.host.tableWaits = [] ∧ slotReady t t.now slot = .ok () t)
    let readable := canRead s
    let begun := coachBegun s slot
    let coaching := queueEngine begun slot (qcbCtx (qcb begun slot)) (qcbPart (qcb begun slot))
    let killed := (getCtx s (qcbCtx b)).killing || (getCtx s (qcbCtx b)).killAsked
    let stage := stageBytes s
    let engine := queueEngine s slot (qcbCtx b) (qcbPart b)
    let packet := padTo 64 bytes
    let counted := { s with free := s.free + 1 }
    (s.mgmt.recovery = true → ∀ i ∈ [Instr.doorbell off size (some pasid) v, .bar4Read off size, .bar4Write off bytes false], exec i s = .next s) ∧
    (s.mgmt.recovery = false →
      (size ≠ 8 ∨ off % 8 ≠ 0 → exec (.doorbell off size (some pasid) v) s = .next (queueRecord s 1 0 off)) ∧
      (size = 8 → off % 8 = 0 → exec (.doorbell off size none v) s = .next (queueRecord s 2 0 off)) ∧
      (size = 8 → off % 8 = 0 → h.qhEn = false → exec (.doorbell off size (some pasid) v) s = .next (queueRecord s 3 0 off)) ∧
      (size = 8 → off % 8 = 0 → h.qhEn = true → h.tableWaits = [] → probeReady s s.now bell (probeSlots s bell) = .busy s1 →
        exec (.doorbell off size (some pasid) v) s = .next (later { s1 with host := { s1.host with
          tableWaits := [(.doorbell off size (some pasid) v, s.now)] } } [.doorbell off size (some pasid) v])) ∧
      (size = 8 → off % 8 = 0 → h.qhEn = true → ready s bell →
        (lookupQueue s bell = none → exec (.doorbell off size (some pasid) v) s = .next (queueRecord s 3 0 off)) ∧
        (lookupQueue s bell = some slot →
          (qcbState b = 3 → exec (.doorbell off size (some pasid) v) s = .next (queueRecord s 4 (qcbCtx b).toNat off)) ∧
          (qcbState b ≠ 3 → (v.toNat % 2 ^ 32 + 2 ^ 32 - qcbTail b) % 2 ^ 32 < 2 ^ 31 → (v.toNat % 2 ^ 32 + 2 ^ 32 - qcbHead b) % 2 ^ 32 ≤ qcbSlots b →
            exec (.doorbell off size (some pasid) v) s = .next (fetchMore (qcbWrite s slot (putTail b (v.toNat % 2 ^ 32))) slot)) ∧
          (qcbState b ≠ 3 → 2 ^ 31 ≤ (v.toNat % 2 ^ 32 + 2 ^ 32 - qcbTail b) % 2 ^ 32 ∨ qcbSlots b < (v.toNat % 2 ^ 32 + 2 ^ 32 - qcbHead b) % 2 ^ 32 →
            exec (.doorbell off size (some pasid) v) s = .next (queueRecord s 5 (qcbCtx b).toNat off)))) ∧
      ((h.apertures.get (0, 0) (off / 2 ^ 30 % 2048)).1.getLsbD 63 = false →
        (∃ t, exec (.bar4Read off size) s = .next t ∧ t.busOut = (faultRecord s 5 1 0 off).busOut ++ [.complete off none] ∧ t.hbm = s.hbm) ∧
        exec (.bar4Write off bytes false) s = .next (clearPieces (faultRecord counted 5 1 0 off) 24576)) ∧
      (∀ n, hostAccess s false off 1 size (fun s e va => devRead s e va size) = (.ok bytes s1, n) →
        exec (.bar4Read off size) s = .next (clearPieces { s1 with busOut := s1.busOut ++ [.complete off (some bytes)] } 24576)) ∧
      (∀ n relaxed, relaxed = false ∨ relaxedBegun s = true ∨ Config.freeTurn s.free = false →
        hostAccess counted relaxed off 2 bytes.length (fun s e va => engineStores s e 0 (granuleParts (bytes.length / 64 + 2) va bytes)) = (.ok () s1, n) →
        exec (.bar4Write off bytes relaxed) s = .next (clearPieces s1 (if relaxed then 24577 else 24576)))) ∧
    (∀ i ∈ [Instr.queueCreate v, .queueResume v, .destroy v, .destroyKill v],
      (h.qctlBusy = true → h.tableWaits = [] → exec i s = .next { s with host := { h with qctlResult := 6 } }) ∧
      (h.qctlBusy = false → h.qhEn = true → h.tableWaits = [] → probeReady (qctlStore s v 0 true) s.now key (probeSlots s key) = .busy s1 →
        exec i s = .next (later { s1 with host := { s1.host with tableWaits := [(i, s.now)] } } [i]))) ∧
    (h.qctlBusy = false → h.qhEn = false → exec (.queueCreate v) s = answer 4 ∧ ∀ i ∈ [Instr.queueResume v, .destroy v, .destroyKill v], exec i s = answer 3) ∧
    (h.qctlBusy = false → h.qhEn = true → ready (qctlStore s v 0 true) key →
      (lookupQueue staged key = some slot →
        exec (.queueCreate v) s = answer 2 ∧
        (qcbState (qcb staged slot) ≠ 4 → exec (.queueResume v) s = answer 4) ∧
        (qcbState (qcb staged slot) = 4 → exec (.queueResume v) s =
          .next (fetchMore (resumeSlice (qcbWrite staged slot (putState (qcb staged slot) 2)) slot) slot)) ∧
        (q.draining.isSome = true → exec (.destroy v) s = answer 4 ∧ exec (.destroyKill v) s = answer 4) ∧
        (q.draining = none → ∀ kill, exec (if kill then .destroyKill v else .destroy v) s =
          .next (startDestroy { staged with host := { staged.host with qctlBusy := true } } slot kill none))) ∧
      (lookupQueue staged key = none →
        (∀ i ∈ [Instr.queueResume v, .destroy v, .destroyKill v], exec i s = answer 3) ∧
        (bits (fieldAt stage 5 1) 4 0 < 4 ∨ 16 < bits (fieldAt stage 5 1) 4 0 ∨ partCount s ≤ qcbPart stage ∨ zeroAt stage 41 23 = false →
          exec (.queueCreate v) s = answer 4) ∧
        (4 ≤ bits (fieldAt stage 5 1) 4 0 → bits (fieldAt stage 5 1) 4 0 ≤ 16 → bits (fieldAt stage 5 1) 6 5 = 0 → qcbPart stage < partCount s →
          zeroAt stage 41 23 = true →
          ((∀ x ∈ probeSlots s key, qcbLive (qcb staged x) = true) → exec (.queueCreate v) s = answer 1) ∧
          ((probeSlots s key).find? (fun x => !qcbLive (qcb staged x)) = some slot → exec (.queueCreate v) s = .next (
            { qcbWrite staged slot (putErr (putTail (putState (patch stage 0 (leBytes 4 key)) 2) (qcbHead stage)) 0) with
              queues := s.queues.set slot {} }))))) ∧
    (q.headDue = none → q.fetch ≠ .first → exec (.packetFetch slot bytes) s = .next s) ∧
    (∀ head since, q.headDue = some (head, since) →
      (slotReady s since slot = .busy s1 → exec (.packetFetch slot bytes) s = .next (fetchMore (later s1 [.packetFetch slot []]) slot)) ∧
      (slotReady s since slot = .ok () s1 → let t := modQueue s1 slot (fun q => { q with headDue := none })
        exec (.packetFetch slot bytes) s = .next (fetchMore (qcbWrite t slot (putHead (qcb t slot) head)) slot))) ∧
    (q.headDue = none → q.fetch = .first → readable → mayFetch s slot = false → exec (.packetFetch slot bytes) s = .next (fetchStops s slot)) ∧
    (q.fetch = .first → readable → mayFetch s slot = true → qcbRmem b = false →
      (packetWhole b packet = false → exec (.packetFetch slot bytes) s = .next (askAgain s slot)) ∧
      (packetWhole b packet = true → packetStep slot (packetType packet) = some i → fieldAt packet 7 1 = 0 → fieldAt packet 6 1 < 8 →
        bits (fieldAt packet 1 1) 6 0 = 0 → packetFence packet = false ∨ q.packets = [] → ensureContext s slot b = .ok none s1 →
        exec (.packetFetch slot bytes) s = .next (soon (becomesCurrent s1 slot b packet) [i]))) ∧
    (q.fetch ≠ .pause → q.fetch ≠ .reread → exec (.fetchReread slot bytes) s = .next s) ∧
    (q.fetch = .pause → readable → mayFetch s slot = true → qcbRmem b = false →
      (s.now < q.fetchTick + 250 * (q.rereads + 1) → exec (.fetchReread slot bytes) s = .next (later s [.fetchReread slot []])) ∧
      (q.fetchTick + 250 * (q.rereads + 1) ≤ s.now → exec (.fetchReread slot bytes) s = .next (
        busSlot (modQueue s slot (fun q => { q with fetch := .reread })) slot))) ∧
    (q.fetch = .reread → readable → mayFetch s slot = true → qcbRmem b = false →
      (packetWhole b packet = false → q.rereads = 15 → exec (.fetchReread slot bytes) s = .next (queueError s slot 6)) ∧
      (packetWhole b packet = false → q.rereads < 15 → exec (.fetchReread slot bytes) s =
        .next (askAgain (modQueue s slot (fun q => { q with rereads := q.rereads + 1 })) slot)) ∧
      (packetWhole b packet = true → packetStep slot (packetType packet) = some i → fieldAt packet 7 1 = 0 → fieldAt packet 6 1 < 8 →
        bits (fieldAt packet 1 1) 6 0 = 0 → packetFence packet = false ∨ q.packets = [] → ensureContext s slot b = .ok none s1 →
        exec (.fetchReread slot bytes) s = .next (soon (becomesCurrent s1 slot b packet) [i]))) ∧
    (currentPacket s slot = none → readable → ∀ i ∈ [Instr.launchPacket slot, .relaunchPacket slot, .destroyPacket slot, .signal slot, .waitmem slot,
        .waitmemPoll slot, .nopPacket slot], exec i s = .next s) ∧
    (currentPacket s slot = none → begun = s) ∧
    (currentPacket s slot = some p → packetType p.bytes = 3 → begun = dispatchEnded s slot p.seq) ∧
    (coachPacket begun slot = none → exec (.coach slot) s = .next begun) ∧
    (coachPacket begun slot = some p → canRead begun →
      (fieldAt p.bytes 32 2 = 0 → exec (.coach slot) s = .next (packetEnds begun slot p.seq 1 1)) ∧
      (0 < fieldAt p.bytes 32 2 → fieldAt p.bytes 32 2 ≤ 4096 → bits (fieldAt p.bytes 34 1) 6 3 = 0 → zeroAt p.bytes 35 25 = true →
        (readTable begun coaching (qcbPart (qcb begun slot)) (fieldAt p.bytes 24 8) 0 (fieldAt p.bytes 32 2) = (.ok (some cs) s1, table) →
          flagsReady s1 cs = .ok () s2 → exec (.coach slot) s = .next (packetEnds (addCoach (clearFlags s2 cs)
            { ctx := coaching.ctx, priority := bits (fieldAt p.bytes 34 1) 2 0, autoFetch := (fieldAt p.bytes 34 1).testBit 7, carriages := cs })
            slot p.seq 0 0 (BitVec.ofNat 64 coaching.ctx.toNat))) ∧
        (readTable begun coaching (qcbPart (qcb begun slot)) (fieldAt p.bytes 24 8) 0 (fieldAt p.bytes 32 2) = (.ok none s1, table) →
          exec (.coach slot) s = .next (packetEnds s1 slot p.seq 1 0x13)))) ∧
    (currentPacket s slot = some p →
      let run : BitVec 32 := BitVec.ofNat 32 (fieldAt p.bytes 24 4)
      let other := qcbKey b / 4096 * 4096 + fieldAt p.bytes 24 2
      (zeroAt p.bytes 24 36 = true → ∀ i ∈ [Instr.signal slot, .nopPacket slot], exec i s = .next (packetEnds s slot p.seq 0 0)) ∧
      (zeroAt p.bytes 24 36 = false → ∀ i ∈ [Instr.signal slot, .nopPacket slot], exec i s = .next (packetEnds s slot p.seq 1 1)) ∧
      (∀ r, p.run = none → zeroAt p.bytes 40 20 = true → fieldAt p.bytes 24 8 % 64 = 0 →
        readable → ensureContext s slot b = .ok none s0 → currentPacket s0 slot = some p → qcb s0 slot = b →
        ctxRead s0 (queueEngine s0 slot (qcbCtx b) (qcbPart b)) (fieldAt p.bytes 24 8) 1024 = .ok r s1 →
        recordValid r = true → fieldAt p.bytes 32 4 < blockCount (recordOf r) → fieldAt p.bytes 36 4 = 0 →
        regionHeld s1 (qcbCtx b) (recordOf r) = .ok true s2 →
        let run := startRun s2 (qcbCtx b) (recordOf r) (fieldAt p.bytes 32 4) (blockCount (recordOf r) - fieldAt p.bytes 32 4) (.queue slot p.seq)
        exec (.launchPacket slot) s = .next (
          bindRun (modPacket run.1 slot p.seq (fun p => { p with run := some run.2 })) run.2 (BitVec.ofNat 3 (fieldAt b 7 1)))) ∧
      (killed = true → exec (.relaunchPacket slot) s = .next (later s [.relaunchPacket slot]) ∧
        (readable → exec (.launchPacket slot) s = .next (later s [.launchPacket slot]))) ∧
      (killed = false → s.runs.has run.toNat = false → exec (.relaunchPacket slot) s = .next (packetEnds s slot p.seq 1 1)) ∧
      (killed = false → zeroAt p.bytes 29 31 = true → s.runs.has run.toNat = true → (getRun s run).ctx = qcbCtx b → relaunchRefused s run = false →
        exec (.relaunchPacket slot) s = .next (beginRelaunch (dispatchEnded (modPacket s slot p.seq (fun p => { p with run := some run })) slot p.seq)
          run (fieldAt p.bytes 28 1) (.queue slot p.seq))) ∧
      (fieldAt p.bytes 24 2 < 4096 → fieldAt p.bytes 26 1 < 2 → zeroAt p.bytes 27 33 = true → h.qhEn = true → ready s other →
        (lookupQueue s other = none → exec (.destroyPacket slot) s = .next (packetEnds s slot p.seq 1 0)) ∧
        (lookupQueue s other = some target → (getQueue s target).draining = none → exec (.destroyPacket slot) s =
          .next (fetchMore (startDestroy (endDispatch s slot p.seq) target (fieldAt p.bytes 26 1 = 1) (some (slot, p.seq))) slot))) ∧
      (∀ w, packetType p.bytes = 6 → q.draining = none → fieldAt p.bytes 24 8 % 8 = 0 → fieldAt p.bytes 48 1 ≤ 3 → zeroAt p.bytes 49 11 = true →
        ctxRead s engine (fieldAt p.bytes 24 8) 8 = .ok w s1 →
        ∀ i ∈ [Instr.waitmem slot, .waitmemPoll slot], exec i s = .next (
          if waitmemHolds (fieldAt p.bytes 48 1) (ofBytes w &&& fieldAt p.bytes 40 8) (fieldAt p.bytes 32 8) then packetEnds s1 slot p.seq 0 0
          else later s1 [.waitmemPoll slot]))) ∧
    ((∀ x ∈ q.packets, x.workDone = false) → exec (.packetCompletion slot) s = .next (drainCheck s slot)) ∧
    (q.packets = [p] → p.workDone = true → readable → writeCompletion s slot p = .busy s1 → exec (.packetCompletion slot) s = .next (
      later (modQueue s1 slot (fun q => { q with writing := some p.seq })) [.packetCompletion slot])) ∧
    (q.packets = [p] → p.workDone = true → readable → packetCr p.bytes = false → packetSig p.bytes = false → packetType p.bytes ≠ 4 → q.draining = none →
      ∃ t, exec (.packetCompletion slot) s = .next t ∧ (getQueue t slot).packets = []) ∧
    (h.qhEn = false → exec (.qhctlWrite v) s = .next { s with host := { h with
      qhEn := v.getLsbD 31
      qhLog := if 6 ≤ bits v.toNat 4 0 ∧ bits v.toNat 4 0 ≤ 16 then BitVec.ofNat 5 (bits v.toNat 4 0) else 6 } }) ∧
    (h.qhEn = true → v.getLsbD 31 = false → anyLive s = true → exec (.qhctlWrite v) s = .next s) ∧
    exec (.ctxctlWrite v) s = .next { s with host := { h with
      ctxEn := v.getLsbD 31
      ctxLog := if anyLive s then h.ctxLog else if 4 ≤ bits v.toNat 4 0 ∧ bits v.toNat 4 0 ≤ 16 then BitVec.ofNat 5 (bits v.toNat 4 0) else 4 } } ∧
    exec (.errorRingSetup false v) s = .next { s with host := { h with
      errBase := v &&& ~~~63, errHead := 0, errTail := 0, lost := decide (h.errHead ≠ h.errTail) || h.lost } } ∧
    exec (.errorRingSetup true v) s = .next { s with host := { h with
      errSize := if ringSizeValid v.toNat then v else 16, errHead := 0, errTail := 0, lost := decide (h.errHead ≠ h.errTail) || h.lost } } ∧
    (storageV s part.val = true → storageBusy s part.val = true → exec (.storageBlockWrite part off v) s = .next s) ∧
    (storageV s part.val = false ∨ storageBusy s part.val = false → ∃ t, exec (.storageBlockWrite part off v) s = .next t ∧
      t.host.storage = h.storage.set part.val ((h.storage.get (Vector.replicate 8 0) part.val).mapIdx (fun k w =>
        if k = off / 8 then storageKept k v else w))) ∧
    (v.setWidth 2 = h.partMode → exec (.partcfgWrite v) s = .next { s with host := { h with cfgErr := h.cfgErr && !v.getLsbD 2 } }) ∧
    (v.setWidth 2 ≠ h.partMode →
      exec (.partcfgWrite v) s = .next (if (List.range (partCount s)).all (partIdle s) && !anyLive s
        then
          let t := { s with host := { h with cfgErr := h.cfgErr && !v.getLsbD 2, partMode := v.setWidth 2 } }
          followTolerance t ((List.range 1024).filter (fun k => !(tolerance t k = tolerance s k)))
        else { s with host := { h with cfgErr := true } }))

/-- 03 R83 to R94, R100 to R102; 02 R77, R78; 05 R134 to R148; 08 R220 to R222: MFW is written while it is not locked; a bind record that
breaks a rule is freed; dispatch places the next block in a core's inbox, and a free strand takes it with the registers of R135; triggers
and couriers start; CUT removes blocks and RESUME brings them back; a hold keeps records HELD and a release binds them again; a step's
debit and a grant of energy reach their account; a kill raises the context's generation, and its fence hands its memory on; a partition
reset ends when its kills have; a time slice that runs out resets its partition; a relaunch goes on round by round. The counts of a fare
step's events are inputs (assumption log 58), and the core that a block goes to is an argument (assumption log 26). -/
def Obligations.DispatchPreemptsAndKills : Prop :=
  ∀ (s s1 : State) (cluster slot core n amount : Nat) (v : Word) (bytes : List Byte) (ctx run arg : BitVec 32) (part : Fin 8) (mask : BitVec 8)
    (queues : List Nat) (r : BindRecord) (events : List FareEvent),
    let old := (getCluster s cluster).slots.get {} slot
    let recordAddr := ostlerBase + 0x2000 * cluster + 64 * slot
    let written := bindOfBytes (patch (bindBytes old) 0 bytes)
    let c := getCtx s ctx
    let k := getCore s (n / 4)
    let held := s.clusters.flatMap (fun c => (c.2.slots.filter (fun e => e.2.ctx == ctx && e.2.state == 2)).map (fun e => (c.1, e)))
    let acct := c.fareAcct.toNat
    let debits := stepDebits s events
    let billed1 := debits.foldl debit { s with felt := s.felt.map (fun f => { f with loaded := 0 }) }
    let accts := debits.map (fun d => (getCtx s d.ctx).fareAcct.toNat)
    let grantAcct := bits v.toNat 63 32
    let ended := resetPartition s (qcbPart (qcb s slot)) [slot]
    let clean := cleanWatched s run
    exec (.mfwWrite cluster v) s = .next (if (getCluster s cluster).mfwLock then s
      else modCluster s cluster (fun c => { c with mfwLock := v.getLsbD 63, ostMask := v.setWidth 8 })) ∧
    (recordLive old = false →
      (written.state = 1 → bindRefusal s cluster written = some 1 → exec (.bindRecordWrite cluster slot 0 bytes) s = .next (
        regrant (setRecord (logRecord s { cls := .hw, sub := 1, source := clusterSource cluster, ctx := written.ctx.toNat, addr := recordAddr })
          cluster slot { written with state := 0 }))) ∧
      (written.state = 1 → bindRefusal s cluster written = none → exec (.bindRecordWrite cluster slot 0 bytes) s = .next (
        let t := regrant (bindContext (setRecord s cluster slot written) cluster written)
        later t (boundTokens t (fun x => x == written)))) ∧
      (written.state ≠ 1 → exec (.bindRecordWrite cluster slot 0 bytes) s = .next (regrant (setRecord s cluster slot written)))) ∧
    (placeable s cluster core old = none → exec (.blockDispatch cluster slot core) s = .next s) ∧
    (∀ i, placeable s cluster core old = some i → (getRun s old.run).parked ≠ [] ∨ betterRecord s cluster slot old = true →
      exec (.blockDispatch cluster slot core) s = .next (later s [.blockDispatch cluster slot core])) ∧
    (∀ i, placeable s cluster core old = some i → (getRun s old.run).parked = [] → betterRecord s cluster slot old = false →
      exec (.blockDispatch cluster slot core) s = .next (later (placeBlock s core old i) [.blockDispatch cluster slot core]) ∧
      (getRun (placeBlock s core old i) old.run).blocks.get .waiting i = .inbox) ∧
    (s.strands.has n = true → exec (.blockActivation n) s = .next s) ∧
    (∀ i args rest, s.strands.has n = false → tileReady s (n / 16) = true → eligible k = none →
      k.inbox = .block run i (getCtx s (getRun s run).ctx).generation args :: rest → i < (getRun s run).floor → (getRun s run).relaunch = none → ∃ t,
      exec (.blockActivation n) s = .next t ∧ (t.strands.get {} n).act = .block run i ∧ (t.strands.get {} n).pc = (getRun s run).lr.entry ∧
      (∀ r : BitVec 5, 10 ≤ r.toNat → r.toNat < 15 → readX (t.strands.get {} n) r = args.getD (r.toNat - 10) 0) ∧
      (getRun t run).blocks.get .waiting i = .resident n ∧ (getCore t (n / 4)).inbox = rest ∧ hasImage t (n / 16) run = true) ∧
    (eligible k = none → exec (.triggerLatch n) s = .next s) ∧
    (∀ x line handler, eligible k = some (run, x, line, handler) → s.strands.has n = false → tileReady s (n / 16) = true →
      imageLeaves s (n / 16) (getRun s run).ctx = false → ∃ t,
      exec (.triggerLatch n) s = .next t ∧ (t.strands.get {} n).act = .handler run line x ∧ (t.strands.get {} n).pc = handler ∧
      readX (t.strands.get {} n) 10 = line ∧ readX (t.strands.get {} n) 11 = BitVec.ofNat 64 x ∧
      (getCore t (n / 4)).triggers = k.triggers.erase (run, x, line)) ∧
    (s.couriers.has core = true → exec (.courierStart core) s = .next s) ∧
    (∀ m rest, s.couriers.has core = false → tileReady s (core / 4) = true → (getCore s core).inbox = .courier m :: rest → hasImage s (core / 4) m.run = true → ∃ t,
      exec (.courierStart core) s = .next t ∧ t.couriers.get {} core = courierStrand m ∧ (getCore t core).inbox = rest) ∧
    (s.ostler.dspCut = none → liveRun s s.ostler.dspRun = false → exec (.cut arg) s = .next (dspRefuse s) ∧ exec (.dispatchResume n) s = .next (dspRefuse s)) ∧
    (s.ostler.dspCut = none → liveRun s s.ostler.dspRun = true →
      exec (.cut arg) s = .next (soon (setCut (recallInbox s s.ostler.dspRun arg.toNat) (some (s.ostler.dspRun, arg.toNat))) [.cut arg]) ∧
      exec (.dispatchResume n) s = .next (soon (setCut s (some (s.ostler.dspRun, resuming))) [.dispatchResume n])) ∧
    (∀ i, s.ostler.dspCut = some (run, i) → i ≠ resuming →
      let back := recallInbox s run i
      (removeHighest back run i 1 = none → inboxBlocks back run i = [] → exec (.cut arg) s = .next (setCut back none)) ∧
      (removeHighest back run i 1 = none → inboxBlocks back run i ≠ [] → exec (.cut arg) s = .next (later back [.cut arg])) ∧
      (removeHighest back run i 1 = some s1 → exec (.cut arg) s = .next (later s1 [.cut arg]))) ∧
    (s.ostler.dspCut = some (run, resuming) →
      (resumeStep s run n = .over → exec (.dispatchResume n) s = .next (setCut s none)) ∧
      (resumeStep s run n = .went s1 ∨ resumeStep s run n = .wait s1 → exec (.dispatchResume n) s = .next (later s1 [.dispatchResume n]))) ∧
    exec (.hold ctx) s = .next (modRecords s ctx (fun r => if recordLive r then { r with state := 2 } else r)) ∧
    (held = [] → exec (.release ctx) s = .next s) ∧
    (held = [(cluster, slot, r)] → bindRefusal s cluster r = none → exec (.release ctx) s = .next (
      let t := bindContext (setRecord s cluster slot { r with state := 1 }) cluster r
      later t (boundTokens t (fun x => x == { r with state := 1 })))) ∧
    (s.runs = [] → exec (.fareEstimate none) s = .next s) ∧
    (overdrawn billed1 accts = [] → (∀ r ∈ s.runs, (getCtx s r.2.ctx).held = false) → exec (.fareEstimate (some events)) s = .next billed1) ∧
    (s.runs = [] → (ctx.toNat, c) ∈ s.contexts → c.bound = true → c.held = false → acct ∈ accts → billed1.balances.get 0 acct ≤ 0 →
      ∃ t, exec (.fareEstimate (some events)) s = .next t ∧ (getCtx t ctx).held = true) ∧
    (∀ kind count, billed s n = true → eventDebit s (.strand n kind count) =
      some { ctx := agentCtx s (.strand n), strand := some n, energy := Config.fareWeight kind * count }) ∧
    (∀ kind count, billed s n = false → eventDebit s (.strand n kind count) = none) ∧
    debit s { ctx := ctx, strand := some n, energy := amount } = modAgent
      { s with balances := s.balances.set acct (s.balances.get 0 acct - (amount : Int)) } (.strand n)
      (fun t => { t with fare := t.fare + BitVec.ofNat 64 amount }) ∧
    debit s { ctx := ctx, strand := none, energy := amount } = { s with balances := s.balances.set acct (s.balances.get 0 acct - (amount : Int)) } ∧
    (s.contexts = [] → s.runs = [] → exec (.fgrant v) s = .next { s with
      free := s.free + 1
      balances := s.balances.set grantAcct (s.balances.get 0 grantAcct + (bits v.toNat 31 0 * 1000 : Nat)) }) ∧
    (c.killing = true → exec (.kill ctx) s = .next s) ∧
    (c.killing = false → killWaits s ctx = true → ∃ t, exec (.kill ctx) s = .next t ∧ (getCtx t ctx).killAsked = true ∧ .kill ctx ∈ t.agenda) ∧
    (c.killing = false → killWaits s ctx = false → ∃ t, exec (.kill ctx) s = .next t ∧ (getCtx t ctx).killing = true ∧
      (getCtx t ctx).generation = c.generation + 1 ∧ .killFenceEnd ctx ∈ t.agenda) ∧
    (c.killing = false → exec (.killFenceEnd ctx) s = .next s) ∧
    (c.killing = true → fenceWaits s ctx = true → exec (.killFenceEnd ctx) s = .next (later s [.killFenceEnd ctx])) ∧
    (c.killing = true → fenceWaits s ctx = false → ∃ t, exec (.killFenceEnd ctx) s = .next t ∧ (getCtx t ctx).killing = false ∧
      (getCtx t ctx).bound = false ∧ (∀ r ∈ t.runs, r.2.ctx ≠ ctx)) ∧
    exec (.partitionReset mask) s = .next (((List.range (partCount s)).filter (fun p => mask.getLsbD p)).foldl (fun s p => resetPartition s p []) s) ∧
    (s.host.resetting.getLsbD part.val = false → exec (.partitionResetEnd part) s = .next s) ∧
    (s.host.resetting.getLsbD part.val = true → (ctx.toNat, c) ∈ s.contexts → c.part = part.val → c.killing = true →
      exec (.partitionResetEnd part) s = .next (later s [.partitionResetEnd part])) ∧
    (s.host.resetting.getLsbD part.val = true → s.contexts = [] → ∃ t, exec (.partitionResetEnd part) s = .next t ∧ t.host.resetting.getLsbD part.val = false ∧
      ∀ l ∈ t.l2, partOfCluster s l.cluster ≠ part.val) ∧
    (sliceHits s = [] → (∀ q ∈ queues, sliceRuns s q = false) → exec (.timesliceExpiry queues) s = .next s) ∧
    (sliceHits s = [slot] → exec (.timesliceExpiry []) s = .next (queueRecord ended 8 (qcbCtx (qcb ended slot)).toNat
      (qcbRing (qcb ended slot) + 64 * (qcbHead (qcb ended slot) % qcbSlots (qcb ended slot))))) ∧
    ((getRun s run).relaunch = none → exec (.relaunchRound run) s = .next s) ∧
    (∀ set round lim origin, (getRun s run).relaunch = some (set, round, lim, origin) →
      ((getRun s run).remaining ≠ 0 ∨ runBusy s run = true → exec (.relaunchRound run) s = .next s) ∧
      ((getRun s run).remaining = 0 → runBusy s run = false →
        ((getRun clean run).parked ≠ [] ∨ (getRun clean run).ending ≠ [] → exec (.relaunchRound run) s = .next (relaunchWaits clean run)) ∧
        ((getRun clean run).parked = [] → (getRun clean run).ending = [] →
          ((getRun s run).faultCode ≠ 0 → exec (.relaunchRound run) s =
            .next (faultRelaunch clean run origin round (getRun s run).faultCode.toNat)) ∧
          ((getRun s run).faultCode = 0 → ∀ blocks, nextSet clean run round set = .ok blocks s1 →
            exec (.relaunchRound run) s = .next (nextRound s1 run origin lim round blocks)))))

/-! ## The machine as a whole -/

/-- 11 R274 step 1, R271; 05 R142: a step runs the decoded word. An agent that can issue, and has no fault of an earlier access to take,
fetches the word at its pc (a courier from its own words); where it decodes, the step is `exec` of it, after what the fetch itself left;
where it does not, ILLEGAL is taken. A pending step of the device comes before it: an urgent one always, the first of the agenda where the
free turn says so (assumption log 1). What hardware writes by itself before the step comes first of all: the error records of ticks that are
over and the waybills' own writes; with none of them to make, it changes nothing. -/
def Obligations.AStepRunsTheNextWord : Prop :=
  ∀ (s s1 : State) (i : Instr) (bs : List Byte) (rest : List Instr),
    let t := me s
    let b := betweenSteps s
    let runs := fun (w : Word32) (u : State) =>
      (decodeWord w = .ok i → agentStep s = exec i u) ∧ (∀ e, decodeWord w = .error e → agentStep s = .next (takeFault u (undecodable u w)))
    (s.mgmt.fresh = [] → (∀ r ∈ s.runs, r.2.parked = [] ∧ r.2.arming = none ∧ r.2.finishing = none) → b = s) ∧
    (b.urgent = [] → b.agenda = [] → step s = agentStep b) ∧
    (encode i = none → wellFormed i = true →
      (b.urgent = i :: rest → step s = exec i { b with urgent := rest }) ∧
      (b.urgent = [] → b.agenda = i :: rest →
        let s0 := { b with free := b.free + 1 }
        step s = if Config.freeTurn b.free then exec i { s0 with agenda := rest } else agentStep s0)) ∧
    (runnable s s.cur = true → t.status ≠ .posting → t.deferred = none → t.replyFault = none →
      (isCourier s.cur = true → t.pc.toNat / 4 < t.words.length → runs (t.words.getD (t.pc.toNat / 4) 0) s) ∧
      (isCourier s.cur = false → fetchBody t.pc s = .ok (bs, s1) → runs (BitVec.ofNat 32 (ofBytes bs)) s1))

/-- 11 R269 to R273 and the encoding tables of chapters 12 to 16: each word has one meaning. A word decodes to an instruction exactly where
it is the word that the tables give that instruction, with every operand at every value. -/
def Obligations.WordsHaveOneMeaning : Prop :=
  ∀ (i : Instr) (w : Word32), encode i = some w ↔ decodeWord w = .ok i

/-- Words written out from the encoding tables: slli x5, x6, 3 (12 R295), bne two words back (12 R303), ld.w x5, [x6-8] (14 R323),
amoadd.d.aq.package x5, x6, [x7] (14 R329), bar.wait x8, [x6], x5 (14 R338), vsadd.h v1, v2, v3, m2 (13 R311), mand m1, m2, m3 (13 R321),
mma.ps8 a1, p2, p4 (15 R356), dray.go x5, x6, x7, 1, 3 (15 R363), csrw fcsr, x6 (16 R385), felt.sample.g1 0, [x6], x7 (16 R376),
hint spin, 16 (11 R277); and an H word of kind 3, which is no instruction. -/
def Obligations.WrittenWordsDecode : Prop :=
  decodeWord 0x1CA60003 = .ok (.slli 5 6 0 3) ∧
  decodeWord 0x60A03FFE = .ok (.bne 5 0 0x1FFE) ∧
  decodeWord 0xB0A65FFE = .ok (.ld 5 6 2 0x1FFE) ∧
  decodeWord 0xB8A731B0 = .ok (.amoadd 5 7 6 3 0 1 1) ∧
  decodeWord 0xC1062804 = .ok (.barWait 8 6 5) ∧
  decodeWord 0x80221A50 = .ok (.vsadd 1 2 3 2 1 0) ∧
  decodeWord 0xCC221800 = .ok (.mand 1 2 3) ∧
  decodeWord 0xD8491000 = .ok (.mmaPs8 1 2 4 0) ∧
  decodeWord 0xE8A63943 = .ok (.drayGo 5 6 7 1 3) ∧
  decodeWord 0x70061001 = .ok (.csrw 0 6 1) ∧
  decodeWord 0xF0063885 = .ok (.feltSample 6 7 0 1) ∧
  decodeWord 0xFD200010 = .ok (.hintSpin 16) ∧
  ∃ e, decodeWord 0xFF000000 = .error e

/-- 14 R322, 12 to 16: no instruction and no step of the device stops the machine: each answers a next state, in every state. That
every fault of the specification is taken as a next state is the model's reading of those rules (11 R274 step 5, 06 R172). -/
def Obligations.EveryInstructionAnswersANextState : Prop :=
  ∀ (i : Instr) (s : State), ∃ t, exec i s = .next t

/-- 11 R266, 00 R10, 11 R274: what a completed instruction leaves. Its agent is what its own work made of it, with pc at the next word and
both latches empty; the other agents, every memory and every register of the device are as its own work left them: beside the agent, only
the clock, the choice of the next agent with its core's turn, the yields of the agent's core, and the gear of its tile with the
rail of its cluster move. A write of x0 or m0 is discarded,
x0 reads 0 and m0 all ones, and a write of another register changes that register alone. -/
def Obligations.CompletionChangesItsAgentAlone : Prop :=
  (∀ s : State,
    let t := done s
    getAgent t s.cur = consume (me s) ((me s).pc + 4) ∧
    (∀ b, b ≠ s.cur → getAgent t b = getAgent s b) ∧
    t = { s with
      strands := t.strands
      couriers := t.couriers
      now := t.now
      free := t.free
      cur := t.cur
      turns := t.turns
      cores := t.cores
      tiles := t.tiles
      clusters := t.clusters
      agenda := t.agenda } ∧
    (∀ n, getTile t n = { getTile s n with doze := (getTile t n).doze, changing := (getTile t n).changing }) ∧
    (∀ n, getCore t n = { getCore s n with yields := (getCore t n).yields }) ∧
    (∀ n, getCluster t n = { getCluster s n with railLow := (getCluster t n).railLow }) ∧
    s.now ≤ t.now ∧ ∃ more, t.agenda = s.agenda ++ more) ∧
  (∀ (t : Strand) (d r : BitVec 5) (k j : BitVec 3) (v : Word) (y : Vec),
    writeX t 0 v = t ∧ readX t 0 = 0 ∧ writeM t 0 v = t ∧ readM t 0 = BitVec.allOnes 64 ∧
    (d ≠ 0 → writeX t d v = { t with x := t.x.set d.toNat v d.isLt } ∧ readX (writeX t d v) d = v) ∧
    (r ≠ d → readX (writeX t d v) r = readX t r) ∧
    (k ≠ 0 → writeM t k v = { t with m := t.m.set k.toNat v k.isLt } ∧ readM (writeM t k v) k = v) ∧
    (j ≠ k → readM (writeM t k v) j = readM t j) ∧
    writeV t d y = { t with v := t.v.set d.toNat y d.isLt } ∧ readV (writeV t d y) d = y ∧ (r ≠ d → readV (writeV t d y) r = readV t r))

/-- Every memory of the package keeps its canonical form (assumption log 4, the model's own form of a memory) through every step, from every
state that has it: HBM (06 R159), pools and accumulators (05 R148, R151), the staging buffer (01 R51) and saved images (03 R92). -/
def Obligations.MemoriesKeepTheirForm : Prop :=
  ∀ s t : State, (∀ m ∈ memories s, m.wf = true) → step s = .next t → ∀ m ∈ memories t, m.wf = true

/-- The state right after reset: the values that the Reset columns give (00 R7; 01 R31, R33, R36; 02 R59, R62; 03 R83; 04 R114, R119;
06 R167, R188, R191; 09 R238), no strand active, and no memory with a byte listed. That no byte is listed is the model's choice (assumption
log 4, DESIGN CHOICE), and so are QHBASE, CTXBASE and the notice sequence number, which have no reset value (assumption log 14, DESIGN CHOICE). -/
def Obligations.ResetHoldsTheSpecsValues : Prop :=
  let s := State.reset
  s.now = 0 ∧ (∀ n, (s.strands.get {} n).act = .free) ∧ (∀ m ∈ memories s, m = [] ∧ m.wf = true) ∧
  (∀ k < 36, let p := getPort s k; p.state = 0 ∧ p.cause = 0 ∧ p.gen = 0 ∧ p.keyRej = 0 ∧ p.replays = 0 ∧ p.disable = false) ∧
  (s.link.active = false ∧ s.link.pending = false ∧ s.link.awErr = false ∧ s.link.swErr = false ∧ s.link.swTime = 0 ∧ s.link.devnum = 0 ∧
    s.link.noticeA = 0 ∧ s.link.noticeB = 0 ∧ s.link.noticeSeq = 1) ∧
  (s.host.qhBase = 0 ∧ s.host.qhEn = false ∧ s.host.qhLog = 6 ∧ s.host.ctxBase = 0 ∧ s.host.ctxEn = false ∧ s.host.ctxLog = 4 ∧
    (∀ k < 8, s.host.lattol.toList.getD k 0 = 0) ∧ s.host.pwrLimit = 3600 ∧ s.host.fselAcct = 0) ∧
  (∀ c, let x := getCluster s c; x.mfwLock = false ∧ x.ostMask = 0 ∧ x.dragTbl = 0x4444444444444444 ∧ x.flagOr = 0) ∧
  (s.ostler.trBase = 0 ∧ s.ostler.dtVa = 0 ∧ s.ostler.dtPa = 0 ∧ s.ostler.trVa = 0 ∧ s.ostler.trLen = 0 ∧
    (∀ d, s.ostler.believed.get 0 d = 0)) ∧
  s.depot.dtmo = 20 ∧ s.depot.drlCnt = 0
end

