-- ==== Sys2Proof/Laws/State.lean ====
section
/-!
SUPPORT. What each update of the state leaves alone and what it gives: one lemma for each field and update, so that no proof unfolds a
record update.
-/
namespace Sys2Proof.Machine

/-! ## Sparse maps -/

@[simp] theorem smap_get_set {α : Type} (m : SMap α) (d v : α) (k : Nat) : (m.set k v).get d k = v := by
  induction m with
  | nil => simp [SMap.set, SMap.get]
  | cons e rest ih =>
    obtain ⟨k', w⟩ := e
    unfold SMap.set
    split
    · simp [SMap.get]
    · rename_i h
      split
      · simp [SMap.get]
      · simp [SMap.get, h, ih]

theorem smap_get_set_ne {α : Type} (m : SMap α) (d v : α) {k j : Nat} (hj : j ≠ k) : (m.set k v).get d j = m.get d j := by
  induction m with
  | nil => simp [SMap.set, SMap.get, Ne.symm hj]
  | cons e rest ih =>
    obtain ⟨k', w⟩ := e
    unfold SMap.set
    split
    · rename_i h
      subst h
      simp [SMap.get, Ne.symm hj]
    · split
      · simp [SMap.get, Ne.symm hj]
      · simp only [SMap.get, ih]

theorem smap_set_set {α : Type} (m : SMap α) (k : Nat) (v w : α) : (m.set k v).set k w = m.set k w := by
  induction m with
  | nil => simp [SMap.set]
  | cons e rest ih =>
    obtain ⟨k', u⟩ := e
    by_cases h : k' = k
    · simp [SMap.set, h]
    · by_cases hl : k < k'
      · simp [SMap.set, h, hl]
      · simp [SMap.set, h, hl, ih]

/-! ## Fields under each update -/

section
variable (s : State) (c : Nat) (f : CoreUnit → CoreUnit)

@[simp] theorem modCore_urgent : (modCore s c f).urgent = s.urgent := rfl
@[simp] theorem modCore_agenda : (modCore s c f).agenda = s.agenda := rfl
@[simp] theorem modCore_cur : (modCore s c f).cur = s.cur := rfl
@[simp] theorem modCore_now : (modCore s c f).now = s.now := rfl
@[simp] theorem modCore_free : (modCore s c f).free = s.free := rfl
@[simp] theorem modCore_turns : (modCore s c f).turns = s.turns := rfl
@[simp] theorem modCore_strands : (modCore s c f).strands = s.strands := rfl
@[simp] theorem modCore_couriers : (modCore s c f).couriers = s.couriers := rfl
@[simp] theorem modCore_tiles : (modCore s c f).tiles = s.tiles := rfl
@[simp] theorem modCore_clusters : (modCore s c f).clusters = s.clusters := rfl
@[simp] theorem modCore_dies : (modCore s c f).dies = s.dies := rfl
@[simp] theorem modCore_hbm : (modCore s c f).hbm = s.hbm := rfl
@[simp] theorem modCore_sectors : (modCore s c f).sectors = s.sectors := rfl
@[simp] theorem modCore_dir : (modCore s c f).dir = s.dir := rfl
@[simp] theorem modCore_l2 : (modCore s c f).l2 = s.l2 := rfl
@[simp] theorem modCore_contexts : (modCore s c f).contexts = s.contexts := rfl
@[simp] theorem modCore_runs : (modCore s c f).runs = s.runs := rfl
@[simp] theorem modCore_coaches : (modCore s c f).coaches = s.coaches := rfl
@[simp] theorem modCore_generations : (modCore s c f).generations = s.generations := rfl
@[simp] theorem modCore_queues : (modCore s c f).queues = s.queues := rfl
@[simp] theorem modCore_ports : (modCore s c f).ports = s.ports := rfl
@[simp] theorem modCore_requests : (modCore s c f).requests = s.requests := rfl
@[simp] theorem modCore_nextTag : (modCore s c f).nextTag = s.nextTag := rfl
@[simp] theorem modCore_host : (modCore s c f).host = s.host := rfl
@[simp] theorem modCore_link : (modCore s c f).link = s.link := rfl
@[simp] theorem modCore_ostler : (modCore s c f).ostler = s.ostler := rfl
@[simp] theorem modCore_depot : (modCore s c f).depot = s.depot := rfl
@[simp] theorem modCore_mgmt : (modCore s c f).mgmt = s.mgmt := rfl
@[simp] theorem modCore_felt : (modCore s c f).felt = s.felt := rfl
@[simp] theorem modCore_balances : (modCore s c f).balances = s.balances := rfl
@[simp] theorem modCore_fareTags : (modCore s c f).fareTags = s.fareTags := rfl
@[simp] theorem modCore_charges : (modCore s c f).charges = s.charges := rfl
@[simp] theorem modCore_svcInbox : (modCore s c f).svcInbox = s.svcInbox := rfl
@[simp] theorem modCore_svcPosted : (modCore s c f).svcPosted = s.svcPosted := rfl
@[simp] theorem modCore_outPosts : (modCore s c f).outPosts = s.outPosts := rfl
@[simp] theorem modCore_migWaits : (modCore s c f).migWaits = s.migWaits := rfl
@[simp] theorem modCore_nextImage : (modCore s c f).nextImage = s.nextImage := rfl
@[simp] theorem modCore_engineDone : (modCore s c f).engineDone = s.engineDone := rfl
@[simp] theorem modCore_peerReads : (modCore s c f).peerReads = s.peerReads := rfl
@[simp] theorem modCore_peerData : (modCore s c f).peerData = s.peerData := rfl
@[simp] theorem modCore_busOut : (modCore s c f).busOut = s.busOut := rfl
@[simp] theorem modCore_linkOut : (modCore s c f).linkOut = s.linkOut := rfl
end

section
variable (s : State) (k : Nat) (f : Tile → Tile)

@[simp] theorem modTile_urgent : (modTile s k f).urgent = s.urgent := rfl
@[simp] theorem modTile_agenda : (modTile s k f).agenda = s.agenda := rfl
@[simp] theorem modTile_cur : (modTile s k f).cur = s.cur := rfl
@[simp] theorem modTile_now : (modTile s k f).now = s.now := rfl
@[simp] theorem modTile_free : (modTile s k f).free = s.free := rfl
@[simp] theorem modTile_turns : (modTile s k f).turns = s.turns := rfl
@[simp] theorem modTile_strands : (modTile s k f).strands = s.strands := rfl
@[simp] theorem modTile_couriers : (modTile s k f).couriers = s.couriers := rfl
@[simp] theorem modTile_cores : (modTile s k f).cores = s.cores := rfl
@[simp] theorem modTile_clusters : (modTile s k f).clusters = s.clusters := rfl
@[simp] theorem modTile_dies : (modTile s k f).dies = s.dies := rfl
@[simp] theorem modTile_hbm : (modTile s k f).hbm = s.hbm := rfl
@[simp] theorem modTile_sectors : (modTile s k f).sectors = s.sectors := rfl
@[simp] theorem modTile_dir : (modTile s k f).dir = s.dir := rfl
@[simp] theorem modTile_l2 : (modTile s k f).l2 = s.l2 := rfl
@[simp] theorem modTile_contexts : (modTile s k f).contexts = s.contexts := rfl
@[simp] theorem modTile_runs : (modTile s k f).runs = s.runs := rfl
@[simp] theorem modTile_coaches : (modTile s k f).coaches = s.coaches := rfl
@[simp] theorem modTile_generations : (modTile s k f).generations = s.generations := rfl
@[simp] theorem modTile_queues : (modTile s k f).queues = s.queues := rfl
@[simp] theorem modTile_ports : (modTile s k f).ports = s.ports := rfl
@[simp] theorem modTile_requests : (modTile s k f).requests = s.requests := rfl
@[simp] theorem modTile_nextTag : (modTile s k f).nextTag = s.nextTag := rfl
@[simp] theorem modTile_host : (modTile s k f).host = s.host := rfl
@[simp] theorem modTile_link : (modTile s k f).link = s.link := rfl
@[simp] theorem modTile_ostler : (modTile s k f).ostler = s.ostler := rfl
@[simp] theorem modTile_depot : (modTile s k f).depot = s.depot := rfl
@[simp] theorem modTile_mgmt : (modTile s k f).mgmt = s.mgmt := rfl
@[simp] theorem modTile_felt : (modTile s k f).felt = s.felt := rfl
@[simp] theorem modTile_balances : (modTile s k f).balances = s.balances := rfl
@[simp] theorem modTile_fareTags : (modTile s k f).fareTags = s.fareTags := rfl
@[simp] theorem modTile_charges : (modTile s k f).charges = s.charges := rfl
@[simp] theorem modTile_svcInbox : (modTile s k f).svcInbox = s.svcInbox := rfl
@[simp] theorem modTile_svcPosted : (modTile s k f).svcPosted = s.svcPosted := rfl
@[simp] theorem modTile_outPosts : (modTile s k f).outPosts = s.outPosts := rfl
@[simp] theorem modTile_migWaits : (modTile s k f).migWaits = s.migWaits := rfl
@[simp] theorem modTile_nextImage : (modTile s k f).nextImage = s.nextImage := rfl
@[simp] theorem modTile_engineDone : (modTile s k f).engineDone = s.engineDone := rfl
@[simp] theorem modTile_peerReads : (modTile s k f).peerReads = s.peerReads := rfl
@[simp] theorem modTile_peerData : (modTile s k f).peerData = s.peerData := rfl
@[simp] theorem modTile_busOut : (modTile s k f).busOut = s.busOut := rfl
@[simp] theorem modTile_linkOut : (modTile s k f).linkOut = s.linkOut := rfl
end

section
variable (s : State) (c : Nat) (f : Cluster → Cluster)

@[simp] theorem modCluster_urgent : (modCluster s c f).urgent = s.urgent := rfl
@[simp] theorem modCluster_agenda : (modCluster s c f).agenda = s.agenda := rfl
@[simp] theorem modCluster_cur : (modCluster s c f).cur = s.cur := rfl
@[simp] theorem modCluster_now : (modCluster s c f).now = s.now := rfl
@[simp] theorem modCluster_free : (modCluster s c f).free = s.free := rfl
@[simp] theorem modCluster_turns : (modCluster s c f).turns = s.turns := rfl
@[simp] theorem modCluster_strands : (modCluster s c f).strands = s.strands := rfl
@[simp] theorem modCluster_couriers : (modCluster s c f).couriers = s.couriers := rfl
@[simp] theorem modCluster_cores : (modCluster s c f).cores = s.cores := rfl
@[simp] theorem modCluster_tiles : (modCluster s c f).tiles = s.tiles := rfl
@[simp] theorem modCluster_dies : (modCluster s c f).dies = s.dies := rfl
@[simp] theorem modCluster_hbm : (modCluster s c f).hbm = s.hbm := rfl
@[simp] theorem modCluster_sectors : (modCluster s c f).sectors = s.sectors := rfl
@[simp] theorem modCluster_dir : (modCluster s c f).dir = s.dir := rfl
@[simp] theorem modCluster_l2 : (modCluster s c f).l2 = s.l2 := rfl
@[simp] theorem modCluster_contexts : (modCluster s c f).contexts = s.contexts := rfl
@[simp] theorem modCluster_runs : (modCluster s c f).runs = s.runs := rfl
@[simp] theorem modCluster_coaches : (modCluster s c f).coaches = s.coaches := rfl
@[simp] theorem modCluster_generations : (modCluster s c f).generations = s.generations := rfl
@[simp] theorem modCluster_queues : (modCluster s c f).queues = s.queues := rfl
@[simp] theorem modCluster_ports : (modCluster s c f).ports = s.ports := rfl
@[simp] theorem modCluster_requests : (modCluster s c f).requests = s.requests := rfl
@[simp] theorem modCluster_nextTag : (modCluster s c f).nextTag = s.nextTag := rfl
@[simp] theorem modCluster_host : (modCluster s c f).host = s.host := rfl
@[simp] theorem modCluster_link : (modCluster s c f).link = s.link := rfl
@[simp] theorem modCluster_ostler : (modCluster s c f).ostler = s.ostler := rfl
@[simp] theorem modCluster_depot : (modCluster s c f).depot = s.depot := rfl
@[simp] theorem modCluster_mgmt : (modCluster s c f).mgmt = s.mgmt := rfl
@[simp] theorem modCluster_felt : (modCluster s c f).felt = s.felt := rfl
@[simp] theorem modCluster_balances : (modCluster s c f).balances = s.balances := rfl
@[simp] theorem modCluster_fareTags : (modCluster s c f).fareTags = s.fareTags := rfl
@[simp] theorem modCluster_charges : (modCluster s c f).charges = s.charges := rfl
@[simp] theorem modCluster_svcInbox : (modCluster s c f).svcInbox = s.svcInbox := rfl
@[simp] theorem modCluster_svcPosted : (modCluster s c f).svcPosted = s.svcPosted := rfl
@[simp] theorem modCluster_outPosts : (modCluster s c f).outPosts = s.outPosts := rfl
@[simp] theorem modCluster_migWaits : (modCluster s c f).migWaits = s.migWaits := rfl
@[simp] theorem modCluster_nextImage : (modCluster s c f).nextImage = s.nextImage := rfl
@[simp] theorem modCluster_engineDone : (modCluster s c f).engineDone = s.engineDone := rfl
@[simp] theorem modCluster_peerReads : (modCluster s c f).peerReads = s.peerReads := rfl
@[simp] theorem modCluster_peerData : (modCluster s c f).peerData = s.peerData := rfl
@[simp] theorem modCluster_busOut : (modCluster s c f).busOut = s.busOut := rfl
@[simp] theorem modCluster_linkOut : (modCluster s c f).linkOut = s.linkOut := rfl
end

section
variable (s : State) (d : Nat) (f : Die → Die)

@[simp] theorem modDie_urgent : (modDie s d f).urgent = s.urgent := rfl
@[simp] theorem modDie_agenda : (modDie s d f).agenda = s.agenda := rfl
@[simp] theorem modDie_cur : (modDie s d f).cur = s.cur := rfl
@[simp] theorem modDie_now : (modDie s d f).now = s.now := rfl
@[simp] theorem modDie_free : (modDie s d f).free = s.free := rfl
@[simp] theorem modDie_turns : (modDie s d f).turns = s.turns := rfl
@[simp] theorem modDie_strands : (modDie s d f).strands = s.strands := rfl
@[simp] theorem modDie_couriers : (modDie s d f).couriers = s.couriers := rfl
@[simp] theorem modDie_cores : (modDie s d f).cores = s.cores := rfl
@[simp] theorem modDie_tiles : (modDie s d f).tiles = s.tiles := rfl
@[simp] theorem modDie_clusters : (modDie s d f).clusters = s.clusters := rfl
@[simp] theorem modDie_hbm : (modDie s d f).hbm = s.hbm := rfl
@[simp] theorem modDie_sectors : (modDie s d f).sectors = s.sectors := rfl
@[simp] theorem modDie_dir : (modDie s d f).dir = s.dir := rfl
@[simp] theorem modDie_l2 : (modDie s d f).l2 = s.l2 := rfl
@[simp] theorem modDie_contexts : (modDie s d f).contexts = s.contexts := rfl
@[simp] theorem modDie_runs : (modDie s d f).runs = s.runs := rfl
@[simp] theorem modDie_coaches : (modDie s d f).coaches = s.coaches := rfl
@[simp] theorem modDie_generations : (modDie s d f).generations = s.generations := rfl
@[simp] theorem modDie_queues : (modDie s d f).queues = s.queues := rfl
@[simp] theorem modDie_ports : (modDie s d f).ports = s.ports := rfl
@[simp] theorem modDie_requests : (modDie s d f).requests = s.requests := rfl
@[simp] theorem modDie_nextTag : (modDie s d f).nextTag = s.nextTag := rfl
@[simp] theorem modDie_host : (modDie s d f).host = s.host := rfl
@[simp] theorem modDie_link : (modDie s d f).link = s.link := rfl
@[simp] theorem modDie_ostler : (modDie s d f).ostler = s.ostler := rfl
@[simp] theorem modDie_depot : (modDie s d f).depot = s.depot := rfl
@[simp] theorem modDie_mgmt : (modDie s d f).mgmt = s.mgmt := rfl
@[simp] theorem modDie_felt : (modDie s d f).felt = s.felt := rfl
@[simp] theorem modDie_balances : (modDie s d f).balances = s.balances := rfl
@[simp] theorem modDie_fareTags : (modDie s d f).fareTags = s.fareTags := rfl
@[simp] theorem modDie_charges : (modDie s d f).charges = s.charges := rfl
@[simp] theorem modDie_svcInbox : (modDie s d f).svcInbox = s.svcInbox := rfl
@[simp] theorem modDie_svcPosted : (modDie s d f).svcPosted = s.svcPosted := rfl
@[simp] theorem modDie_outPosts : (modDie s d f).outPosts = s.outPosts := rfl
@[simp] theorem modDie_migWaits : (modDie s d f).migWaits = s.migWaits := rfl
@[simp] theorem modDie_nextImage : (modDie s d f).nextImage = s.nextImage := rfl
@[simp] theorem modDie_engineDone : (modDie s d f).engineDone = s.engineDone := rfl
@[simp] theorem modDie_peerReads : (modDie s d f).peerReads = s.peerReads := rfl
@[simp] theorem modDie_peerData : (modDie s d f).peerData = s.peerData := rfl
@[simp] theorem modDie_busOut : (modDie s d f).busOut = s.busOut := rfl
@[simp] theorem modDie_linkOut : (modDie s d f).linkOut = s.linkOut := rfl
end

section
variable (s : State) (r : BitVec 32) (f : Run → Run)

@[simp] theorem modRun_urgent : (modRun s r f).urgent = s.urgent := rfl
@[simp] theorem modRun_agenda : (modRun s r f).agenda = s.agenda := rfl
@[simp] theorem modRun_cur : (modRun s r f).cur = s.cur := rfl
@[simp] theorem modRun_now : (modRun s r f).now = s.now := rfl
@[simp] theorem modRun_free : (modRun s r f).free = s.free := rfl
@[simp] theorem modRun_turns : (modRun s r f).turns = s.turns := rfl
@[simp] theorem modRun_strands : (modRun s r f).strands = s.strands := rfl
@[simp] theorem modRun_couriers : (modRun s r f).couriers = s.couriers := rfl
@[simp] theorem modRun_cores : (modRun s r f).cores = s.cores := rfl
@[simp] theorem modRun_tiles : (modRun s r f).tiles = s.tiles := rfl
@[simp] theorem modRun_clusters : (modRun s r f).clusters = s.clusters := rfl
@[simp] theorem modRun_dies : (modRun s r f).dies = s.dies := rfl
@[simp] theorem modRun_hbm : (modRun s r f).hbm = s.hbm := rfl
@[simp] theorem modRun_sectors : (modRun s r f).sectors = s.sectors := rfl
@[simp] theorem modRun_dir : (modRun s r f).dir = s.dir := rfl
@[simp] theorem modRun_l2 : (modRun s r f).l2 = s.l2 := rfl
@[simp] theorem modRun_contexts : (modRun s r f).contexts = s.contexts := rfl
@[simp] theorem modRun_coaches : (modRun s r f).coaches = s.coaches := rfl
@[simp] theorem modRun_generations : (modRun s r f).generations = s.generations := rfl
@[simp] theorem modRun_queues : (modRun s r f).queues = s.queues := rfl
@[simp] theorem modRun_ports : (modRun s r f).ports = s.ports := rfl
@[simp] theorem modRun_requests : (modRun s r f).requests = s.requests := rfl
@[simp] theorem modRun_nextTag : (modRun s r f).nextTag = s.nextTag := rfl
@[simp] theorem modRun_host : (modRun s r f).host = s.host := rfl
@[simp] theorem modRun_link : (modRun s r f).link = s.link := rfl
@[simp] theorem modRun_ostler : (modRun s r f).ostler = s.ostler := rfl
@[simp] theorem modRun_depot : (modRun s r f).depot = s.depot := rfl
@[simp] theorem modRun_mgmt : (modRun s r f).mgmt = s.mgmt := rfl
@[simp] theorem modRun_felt : (modRun s r f).felt = s.felt := rfl
@[simp] theorem modRun_balances : (modRun s r f).balances = s.balances := rfl
@[simp] theorem modRun_fareTags : (modRun s r f).fareTags = s.fareTags := rfl
@[simp] theorem modRun_charges : (modRun s r f).charges = s.charges := rfl
@[simp] theorem modRun_svcInbox : (modRun s r f).svcInbox = s.svcInbox := rfl
@[simp] theorem modRun_svcPosted : (modRun s r f).svcPosted = s.svcPosted := rfl
@[simp] theorem modRun_outPosts : (modRun s r f).outPosts = s.outPosts := rfl
@[simp] theorem modRun_migWaits : (modRun s r f).migWaits = s.migWaits := rfl
@[simp] theorem modRun_nextImage : (modRun s r f).nextImage = s.nextImage := rfl
@[simp] theorem modRun_engineDone : (modRun s r f).engineDone = s.engineDone := rfl
@[simp] theorem modRun_peerReads : (modRun s r f).peerReads = s.peerReads := rfl
@[simp] theorem modRun_peerData : (modRun s r f).peerData = s.peerData := rfl
@[simp] theorem modRun_busOut : (modRun s r f).busOut = s.busOut := rfl
@[simp] theorem modRun_linkOut : (modRun s r f).linkOut = s.linkOut := rfl
end

section
variable (s : State) (c : BitVec 32) (f : Context → Context)

@[simp] theorem modCtx_urgent : (modCtx s c f).urgent = s.urgent := rfl
@[simp] theorem modCtx_agenda : (modCtx s c f).agenda = s.agenda := rfl
@[simp] theorem modCtx_cur : (modCtx s c f).cur = s.cur := rfl
@[simp] theorem modCtx_now : (modCtx s c f).now = s.now := rfl
@[simp] theorem modCtx_free : (modCtx s c f).free = s.free := rfl
@[simp] theorem modCtx_turns : (modCtx s c f).turns = s.turns := rfl
@[simp] theorem modCtx_strands : (modCtx s c f).strands = s.strands := rfl
@[simp] theorem modCtx_couriers : (modCtx s c f).couriers = s.couriers := rfl
@[simp] theorem modCtx_cores : (modCtx s c f).cores = s.cores := rfl
@[simp] theorem modCtx_tiles : (modCtx s c f).tiles = s.tiles := rfl
@[simp] theorem modCtx_clusters : (modCtx s c f).clusters = s.clusters := rfl
@[simp] theorem modCtx_dies : (modCtx s c f).dies = s.dies := rfl
@[simp] theorem modCtx_hbm : (modCtx s c f).hbm = s.hbm := rfl
@[simp] theorem modCtx_sectors : (modCtx s c f).sectors = s.sectors := rfl
@[simp] theorem modCtx_dir : (modCtx s c f).dir = s.dir := rfl
@[simp] theorem modCtx_l2 : (modCtx s c f).l2 = s.l2 := rfl
@[simp] theorem modCtx_runs : (modCtx s c f).runs = s.runs := rfl
@[simp] theorem modCtx_coaches : (modCtx s c f).coaches = s.coaches := rfl
@[simp] theorem modCtx_generations : (modCtx s c f).generations = s.generations := rfl
@[simp] theorem modCtx_queues : (modCtx s c f).queues = s.queues := rfl
@[simp] theorem modCtx_ports : (modCtx s c f).ports = s.ports := rfl
@[simp] theorem modCtx_requests : (modCtx s c f).requests = s.requests := rfl
@[simp] theorem modCtx_nextTag : (modCtx s c f).nextTag = s.nextTag := rfl
@[simp] theorem modCtx_host : (modCtx s c f).host = s.host := rfl
@[simp] theorem modCtx_link : (modCtx s c f).link = s.link := rfl
@[simp] theorem modCtx_ostler : (modCtx s c f).ostler = s.ostler := rfl
@[simp] theorem modCtx_depot : (modCtx s c f).depot = s.depot := rfl
@[simp] theorem modCtx_mgmt : (modCtx s c f).mgmt = s.mgmt := rfl
@[simp] theorem modCtx_felt : (modCtx s c f).felt = s.felt := rfl
@[simp] theorem modCtx_balances : (modCtx s c f).balances = s.balances := rfl
@[simp] theorem modCtx_fareTags : (modCtx s c f).fareTags = s.fareTags := rfl
@[simp] theorem modCtx_charges : (modCtx s c f).charges = s.charges := rfl
@[simp] theorem modCtx_svcInbox : (modCtx s c f).svcInbox = s.svcInbox := rfl
@[simp] theorem modCtx_svcPosted : (modCtx s c f).svcPosted = s.svcPosted := rfl
@[simp] theorem modCtx_outPosts : (modCtx s c f).outPosts = s.outPosts := rfl
@[simp] theorem modCtx_migWaits : (modCtx s c f).migWaits = s.migWaits := rfl
@[simp] theorem modCtx_nextImage : (modCtx s c f).nextImage = s.nextImage := rfl
@[simp] theorem modCtx_engineDone : (modCtx s c f).engineDone = s.engineDone := rfl
@[simp] theorem modCtx_peerReads : (modCtx s c f).peerReads = s.peerReads := rfl
@[simp] theorem modCtx_peerData : (modCtx s c f).peerData = s.peerData := rfl
@[simp] theorem modCtx_busOut : (modCtx s c f).busOut = s.busOut := rfl
@[simp] theorem modCtx_linkOut : (modCtx s c f).linkOut = s.linkOut := rfl
end

section
variable (s : State) (l : List Instr)

@[simp] theorem soon_agenda : (soon s l).agenda = s.agenda := rfl
@[simp] theorem soon_cur : (soon s l).cur = s.cur := rfl
@[simp] theorem soon_now : (soon s l).now = s.now := rfl
@[simp] theorem soon_free : (soon s l).free = s.free := rfl
@[simp] theorem soon_turns : (soon s l).turns = s.turns := rfl
@[simp] theorem soon_strands : (soon s l).strands = s.strands := rfl
@[simp] theorem soon_couriers : (soon s l).couriers = s.couriers := rfl
@[simp] theorem soon_cores : (soon s l).cores = s.cores := rfl
@[simp] theorem soon_tiles : (soon s l).tiles = s.tiles := rfl
@[simp] theorem soon_clusters : (soon s l).clusters = s.clusters := rfl
@[simp] theorem soon_dies : (soon s l).dies = s.dies := rfl
@[simp] theorem soon_hbm : (soon s l).hbm = s.hbm := rfl
@[simp] theorem soon_sectors : (soon s l).sectors = s.sectors := rfl
@[simp] theorem soon_dir : (soon s l).dir = s.dir := rfl
@[simp] theorem soon_l2 : (soon s l).l2 = s.l2 := rfl
@[simp] theorem soon_contexts : (soon s l).contexts = s.contexts := rfl
@[simp] theorem soon_runs : (soon s l).runs = s.runs := rfl
@[simp] theorem soon_coaches : (soon s l).coaches = s.coaches := rfl
@[simp] theorem soon_generations : (soon s l).generations = s.generations := rfl
@[simp] theorem soon_queues : (soon s l).queues = s.queues := rfl
@[simp] theorem soon_ports : (soon s l).ports = s.ports := rfl
@[simp] theorem soon_requests : (soon s l).requests = s.requests := rfl
@[simp] theorem soon_nextTag : (soon s l).nextTag = s.nextTag := rfl
@[simp] theorem soon_host : (soon s l).host = s.host := rfl
@[simp] theorem soon_link : (soon s l).link = s.link := rfl
@[simp] theorem soon_ostler : (soon s l).ostler = s.ostler := rfl
@[simp] theorem soon_depot : (soon s l).depot = s.depot := rfl
@[simp] theorem soon_mgmt : (soon s l).mgmt = s.mgmt := rfl
@[simp] theorem soon_felt : (soon s l).felt = s.felt := rfl
@[simp] theorem soon_balances : (soon s l).balances = s.balances := rfl
@[simp] theorem soon_fareTags : (soon s l).fareTags = s.fareTags := rfl
@[simp] theorem soon_charges : (soon s l).charges = s.charges := rfl
@[simp] theorem soon_svcInbox : (soon s l).svcInbox = s.svcInbox := rfl
@[simp] theorem soon_svcPosted : (soon s l).svcPosted = s.svcPosted := rfl
@[simp] theorem soon_outPosts : (soon s l).outPosts = s.outPosts := rfl
@[simp] theorem soon_migWaits : (soon s l).migWaits = s.migWaits := rfl
@[simp] theorem soon_nextImage : (soon s l).nextImage = s.nextImage := rfl
@[simp] theorem soon_engineDone : (soon s l).engineDone = s.engineDone := rfl
@[simp] theorem soon_peerReads : (soon s l).peerReads = s.peerReads := rfl
@[simp] theorem soon_peerData : (soon s l).peerData = s.peerData := rfl
@[simp] theorem soon_busOut : (soon s l).busOut = s.busOut := rfl
@[simp] theorem soon_linkOut : (soon s l).linkOut = s.linkOut := rfl
end

section
variable (s : State) (l : List Instr)

@[simp] theorem later_urgent : (later s l).urgent = s.urgent := rfl
@[simp] theorem later_cur : (later s l).cur = s.cur := rfl
@[simp] theorem later_now : (later s l).now = s.now := rfl
@[simp] theorem later_free : (later s l).free = s.free := rfl
@[simp] theorem later_turns : (later s l).turns = s.turns := rfl
@[simp] theorem later_strands : (later s l).strands = s.strands := rfl
@[simp] theorem later_couriers : (later s l).couriers = s.couriers := rfl
@[simp] theorem later_cores : (later s l).cores = s.cores := rfl
@[simp] theorem later_tiles : (later s l).tiles = s.tiles := rfl
@[simp] theorem later_clusters : (later s l).clusters = s.clusters := rfl
@[simp] theorem later_dies : (later s l).dies = s.dies := rfl
@[simp] theorem later_hbm : (later s l).hbm = s.hbm := rfl
@[simp] theorem later_sectors : (later s l).sectors = s.sectors := rfl
@[simp] theorem later_dir : (later s l).dir = s.dir := rfl
@[simp] theorem later_l2 : (later s l).l2 = s.l2 := rfl
@[simp] theorem later_contexts : (later s l).contexts = s.contexts := rfl
@[simp] theorem later_runs : (later s l).runs = s.runs := rfl
@[simp] theorem later_coaches : (later s l).coaches = s.coaches := rfl
@[simp] theorem later_generations : (later s l).generations = s.generations := rfl
@[simp] theorem later_queues : (later s l).queues = s.queues := rfl
@[simp] theorem later_ports : (later s l).ports = s.ports := rfl
@[simp] theorem later_requests : (later s l).requests = s.requests := rfl
@[simp] theorem later_nextTag : (later s l).nextTag = s.nextTag := rfl
@[simp] theorem later_host : (later s l).host = s.host := rfl
@[simp] theorem later_link : (later s l).link = s.link := rfl
@[simp] theorem later_ostler : (later s l).ostler = s.ostler := rfl
@[simp] theorem later_depot : (later s l).depot = s.depot := rfl
@[simp] theorem later_mgmt : (later s l).mgmt = s.mgmt := rfl
@[simp] theorem later_felt : (later s l).felt = s.felt := rfl
@[simp] theorem later_balances : (later s l).balances = s.balances := rfl
@[simp] theorem later_fareTags : (later s l).fareTags = s.fareTags := rfl
@[simp] theorem later_charges : (later s l).charges = s.charges := rfl
@[simp] theorem later_svcInbox : (later s l).svcInbox = s.svcInbox := rfl
@[simp] theorem later_svcPosted : (later s l).svcPosted = s.svcPosted := rfl
@[simp] theorem later_outPosts : (later s l).outPosts = s.outPosts := rfl
@[simp] theorem later_migWaits : (later s l).migWaits = s.migWaits := rfl
@[simp] theorem later_nextImage : (later s l).nextImage = s.nextImage := rfl
@[simp] theorem later_engineDone : (later s l).engineDone = s.engineDone := rfl
@[simp] theorem later_peerReads : (later s l).peerReads = s.peerReads := rfl
@[simp] theorem later_peerData : (later s l).peerData = s.peerData := rfl
@[simp] theorem later_busOut : (later s l).busOut = s.busOut := rfl
@[simp] theorem later_linkOut : (later s l).linkOut = s.linkOut := rfl
end

section
variable (s : State) 

@[simp] theorem tick_urgent : (tick s).urgent = s.urgent := rfl
@[simp] theorem tick_agenda : (tick s).agenda = s.agenda := rfl
@[simp] theorem tick_strands : (tick s).strands = s.strands := rfl
@[simp] theorem tick_couriers : (tick s).couriers = s.couriers := rfl
@[simp] theorem tick_cores : (tick s).cores = s.cores := rfl
@[simp] theorem tick_tiles : (tick s).tiles = s.tiles := rfl
@[simp] theorem tick_clusters : (tick s).clusters = s.clusters := rfl
@[simp] theorem tick_dies : (tick s).dies = s.dies := rfl
@[simp] theorem tick_hbm : (tick s).hbm = s.hbm := rfl
@[simp] theorem tick_sectors : (tick s).sectors = s.sectors := rfl
@[simp] theorem tick_dir : (tick s).dir = s.dir := rfl
@[simp] theorem tick_l2 : (tick s).l2 = s.l2 := rfl
@[simp] theorem tick_contexts : (tick s).contexts = s.contexts := rfl
@[simp] theorem tick_runs : (tick s).runs = s.runs := rfl
@[simp] theorem tick_coaches : (tick s).coaches = s.coaches := rfl
@[simp] theorem tick_generations : (tick s).generations = s.generations := rfl
@[simp] theorem tick_queues : (tick s).queues = s.queues := rfl
@[simp] theorem tick_ports : (tick s).ports = s.ports := rfl
@[simp] theorem tick_requests : (tick s).requests = s.requests := rfl
@[simp] theorem tick_nextTag : (tick s).nextTag = s.nextTag := rfl
@[simp] theorem tick_host : (tick s).host = s.host := rfl
@[simp] theorem tick_link : (tick s).link = s.link := rfl
@[simp] theorem tick_ostler : (tick s).ostler = s.ostler := rfl
@[simp] theorem tick_depot : (tick s).depot = s.depot := rfl
@[simp] theorem tick_mgmt : (tick s).mgmt = s.mgmt := rfl
@[simp] theorem tick_felt : (tick s).felt = s.felt := rfl
@[simp] theorem tick_balances : (tick s).balances = s.balances := rfl
@[simp] theorem tick_fareTags : (tick s).fareTags = s.fareTags := rfl
@[simp] theorem tick_charges : (tick s).charges = s.charges := rfl
@[simp] theorem tick_svcInbox : (tick s).svcInbox = s.svcInbox := rfl
@[simp] theorem tick_svcPosted : (tick s).svcPosted = s.svcPosted := rfl
@[simp] theorem tick_outPosts : (tick s).outPosts = s.outPosts := rfl
@[simp] theorem tick_migWaits : (tick s).migWaits = s.migWaits := rfl
@[simp] theorem tick_nextImage : (tick s).nextImage = s.nextImage := rfl
@[simp] theorem tick_engineDone : (tick s).engineDone = s.engineDone := rfl
@[simp] theorem tick_peerReads : (tick s).peerReads = s.peerReads := rfl
@[simp] theorem tick_peerData : (tick s).peerData = s.peerData := rfl
@[simp] theorem tick_busOut : (tick s).busOut = s.busOut := rfl
@[simp] theorem tick_linkOut : (tick s).linkOut = s.linkOut := rfl
end

section
variable (s : State) (a : Agent) (t : Strand) (f : Strand → Strand)

@[simp] theorem putAgent_urgent : (putAgent s a t).urgent = s.urgent := by cases a <;> rfl
@[simp] theorem putAgent_agenda : (putAgent s a t).agenda = s.agenda := by cases a <;> rfl
@[simp] theorem putAgent_cur : (putAgent s a t).cur = s.cur := by cases a <;> rfl
@[simp] theorem putAgent_now : (putAgent s a t).now = s.now := by cases a <;> rfl
@[simp] theorem putAgent_free : (putAgent s a t).free = s.free := by cases a <;> rfl
@[simp] theorem putAgent_turns : (putAgent s a t).turns = s.turns := by cases a <;> rfl
@[simp] theorem putAgent_cores : (putAgent s a t).cores = s.cores := by cases a <;> rfl
@[simp] theorem putAgent_tiles : (putAgent s a t).tiles = s.tiles := by cases a <;> rfl
@[simp] theorem putAgent_clusters : (putAgent s a t).clusters = s.clusters := by cases a <;> rfl
@[simp] theorem putAgent_dies : (putAgent s a t).dies = s.dies := by cases a <;> rfl
@[simp] theorem putAgent_hbm : (putAgent s a t).hbm = s.hbm := by cases a <;> rfl
@[simp] theorem putAgent_sectors : (putAgent s a t).sectors = s.sectors := by cases a <;> rfl
@[simp] theorem putAgent_dir : (putAgent s a t).dir = s.dir := by cases a <;> rfl
@[simp] theorem putAgent_l2 : (putAgent s a t).l2 = s.l2 := by cases a <;> rfl
@[simp] theorem putAgent_contexts : (putAgent s a t).contexts = s.contexts := by cases a <;> rfl
@[simp] theorem putAgent_runs : (putAgent s a t).runs = s.runs := by cases a <;> rfl
@[simp] theorem putAgent_coaches : (putAgent s a t).coaches = s.coaches := by cases a <;> rfl
@[simp] theorem putAgent_generations : (putAgent s a t).generations = s.generations := by cases a <;> rfl
@[simp] theorem putAgent_queues : (putAgent s a t).queues = s.queues := by cases a <;> rfl
@[simp] theorem putAgent_ports : (putAgent s a t).ports = s.ports := by cases a <;> rfl
@[simp] theorem putAgent_requests : (putAgent s a t).requests = s.requests := by cases a <;> rfl
@[simp] theorem putAgent_nextTag : (putAgent s a t).nextTag = s.nextTag := by cases a <;> rfl
@[simp] theorem putAgent_host : (putAgent s a t).host = s.host := by cases a <;> rfl
@[simp] theorem putAgent_link : (putAgent s a t).link = s.link := by cases a <;> rfl
@[simp] theorem putAgent_ostler : (putAgent s a t).ostler = s.ostler := by cases a <;> rfl
@[simp] theorem putAgent_depot : (putAgent s a t).depot = s.depot := by cases a <;> rfl
@[simp] theorem putAgent_mgmt : (putAgent s a t).mgmt = s.mgmt := by cases a <;> rfl
@[simp] theorem putAgent_felt : (putAgent s a t).felt = s.felt := by cases a <;> rfl
@[simp] theorem putAgent_balances : (putAgent s a t).balances = s.balances := by cases a <;> rfl
@[simp] theorem putAgent_fareTags : (putAgent s a t).fareTags = s.fareTags := by cases a <;> rfl
@[simp] theorem putAgent_charges : (putAgent s a t).charges = s.charges := by cases a <;> rfl
@[simp] theorem putAgent_svcInbox : (putAgent s a t).svcInbox = s.svcInbox := by cases a <;> rfl
@[simp] theorem putAgent_svcPosted : (putAgent s a t).svcPosted = s.svcPosted := by cases a <;> rfl
@[simp] theorem putAgent_outPosts : (putAgent s a t).outPosts = s.outPosts := by cases a <;> rfl
@[simp] theorem putAgent_migWaits : (putAgent s a t).migWaits = s.migWaits := by cases a <;> rfl
@[simp] theorem putAgent_nextImage : (putAgent s a t).nextImage = s.nextImage := by cases a <;> rfl
@[simp] theorem putAgent_engineDone : (putAgent s a t).engineDone = s.engineDone := by cases a <;> rfl
@[simp] theorem putAgent_peerReads : (putAgent s a t).peerReads = s.peerReads := by cases a <;> rfl
@[simp] theorem putAgent_peerData : (putAgent s a t).peerData = s.peerData := by cases a <;> rfl
@[simp] theorem putAgent_busOut : (putAgent s a t).busOut = s.busOut := by cases a <;> rfl
@[simp] theorem putAgent_linkOut : (putAgent s a t).linkOut = s.linkOut := by cases a <;> rfl
@[simp] theorem modAgent_urgent : (modAgent s a f).urgent = s.urgent := by cases a <;> rfl
@[simp] theorem modAgent_agenda : (modAgent s a f).agenda = s.agenda := by cases a <;> rfl
@[simp] theorem modAgent_cur : (modAgent s a f).cur = s.cur := by cases a <;> rfl
@[simp] theorem modAgent_now : (modAgent s a f).now = s.now := by cases a <;> rfl
@[simp] theorem modAgent_free : (modAgent s a f).free = s.free := by cases a <;> rfl
@[simp] theorem modAgent_turns : (modAgent s a f).turns = s.turns := by cases a <;> rfl
@[simp] theorem modAgent_cores : (modAgent s a f).cores = s.cores := by cases a <;> rfl
@[simp] theorem modAgent_tiles : (modAgent s a f).tiles = s.tiles := by cases a <;> rfl
@[simp] theorem modAgent_clusters : (modAgent s a f).clusters = s.clusters := by cases a <;> rfl
@[simp] theorem modAgent_dies : (modAgent s a f).dies = s.dies := by cases a <;> rfl
@[simp] theorem modAgent_hbm : (modAgent s a f).hbm = s.hbm := by cases a <;> rfl
@[simp] theorem modAgent_sectors : (modAgent s a f).sectors = s.sectors := by cases a <;> rfl
@[simp] theorem modAgent_dir : (modAgent s a f).dir = s.dir := by cases a <;> rfl
@[simp] theorem modAgent_l2 : (modAgent s a f).l2 = s.l2 := by cases a <;> rfl
@[simp] theorem modAgent_contexts : (modAgent s a f).contexts = s.contexts := by cases a <;> rfl
@[simp] theorem modAgent_runs : (modAgent s a f).runs = s.runs := by cases a <;> rfl
@[simp] theorem modAgent_coaches : (modAgent s a f).coaches = s.coaches := by cases a <;> rfl
@[simp] theorem modAgent_generations : (modAgent s a f).generations = s.generations := by cases a <;> rfl
@[simp] theorem modAgent_queues : (modAgent s a f).queues = s.queues := by cases a <;> rfl
@[simp] theorem modAgent_ports : (modAgent s a f).ports = s.ports := by cases a <;> rfl
@[simp] theorem modAgent_requests : (modAgent s a f).requests = s.requests := by cases a <;> rfl
@[simp] theorem modAgent_nextTag : (modAgent s a f).nextTag = s.nextTag := by cases a <;> rfl
@[simp] theorem modAgent_host : (modAgent s a f).host = s.host := by cases a <;> rfl
@[simp] theorem modAgent_link : (modAgent s a f).link = s.link := by cases a <;> rfl
@[simp] theorem modAgent_ostler : (modAgent s a f).ostler = s.ostler := by cases a <;> rfl
@[simp] theorem modAgent_depot : (modAgent s a f).depot = s.depot := by cases a <;> rfl
@[simp] theorem modAgent_mgmt : (modAgent s a f).mgmt = s.mgmt := by cases a <;> rfl
@[simp] theorem modAgent_felt : (modAgent s a f).felt = s.felt := by cases a <;> rfl
@[simp] theorem modAgent_balances : (modAgent s a f).balances = s.balances := by cases a <;> rfl
@[simp] theorem modAgent_fareTags : (modAgent s a f).fareTags = s.fareTags := by cases a <;> rfl
@[simp] theorem modAgent_charges : (modAgent s a f).charges = s.charges := by cases a <;> rfl
@[simp] theorem modAgent_svcInbox : (modAgent s a f).svcInbox = s.svcInbox := by cases a <;> rfl
@[simp] theorem modAgent_svcPosted : (modAgent s a f).svcPosted = s.svcPosted := by cases a <;> rfl
@[simp] theorem modAgent_outPosts : (modAgent s a f).outPosts = s.outPosts := by cases a <;> rfl
@[simp] theorem modAgent_migWaits : (modAgent s a f).migWaits = s.migWaits := by cases a <;> rfl
@[simp] theorem modAgent_nextImage : (modAgent s a f).nextImage = s.nextImage := by cases a <;> rfl
@[simp] theorem modAgent_engineDone : (modAgent s a f).engineDone = s.engineDone := by cases a <;> rfl
@[simp] theorem modAgent_peerReads : (modAgent s a f).peerReads = s.peerReads := by cases a <;> rfl
@[simp] theorem modAgent_peerData : (modAgent s a f).peerData = s.peerData := by cases a <;> rfl
@[simp] theorem modAgent_busOut : (modAgent s a f).busOut = s.busOut := by cases a <;> rfl
@[simp] theorem modAgent_linkOut : (modAgent s a f).linkOut = s.linkOut := by cases a <;> rfl
@[simp] theorem modMe_urgent : (modMe s f).urgent = s.urgent := by simp [modMe]
@[simp] theorem modMe_agenda : (modMe s f).agenda = s.agenda := by simp [modMe]
@[simp] theorem modMe_cur : (modMe s f).cur = s.cur := by simp [modMe]
@[simp] theorem modMe_now : (modMe s f).now = s.now := by simp [modMe]
@[simp] theorem modMe_free : (modMe s f).free = s.free := by simp [modMe]
@[simp] theorem modMe_turns : (modMe s f).turns = s.turns := by simp [modMe]
@[simp] theorem modMe_cores : (modMe s f).cores = s.cores := by simp [modMe]
@[simp] theorem modMe_tiles : (modMe s f).tiles = s.tiles := by simp [modMe]
@[simp] theorem modMe_clusters : (modMe s f).clusters = s.clusters := by simp [modMe]
@[simp] theorem modMe_dies : (modMe s f).dies = s.dies := by simp [modMe]
@[simp] theorem modMe_hbm : (modMe s f).hbm = s.hbm := by simp [modMe]
@[simp] theorem modMe_sectors : (modMe s f).sectors = s.sectors := by simp [modMe]
@[simp] theorem modMe_dir : (modMe s f).dir = s.dir := by simp [modMe]
@[simp] theorem modMe_l2 : (modMe s f).l2 = s.l2 := by simp [modMe]
@[simp] theorem modMe_contexts : (modMe s f).contexts = s.contexts := by simp [modMe]
@[simp] theorem modMe_runs : (modMe s f).runs = s.runs := by simp [modMe]
@[simp] theorem modMe_coaches : (modMe s f).coaches = s.coaches := by simp [modMe]
@[simp] theorem modMe_generations : (modMe s f).generations = s.generations := by simp [modMe]
@[simp] theorem modMe_queues : (modMe s f).queues = s.queues := by simp [modMe]
@[simp] theorem modMe_ports : (modMe s f).ports = s.ports := by simp [modMe]
@[simp] theorem modMe_requests : (modMe s f).requests = s.requests := by simp [modMe]
@[simp] theorem modMe_nextTag : (modMe s f).nextTag = s.nextTag := by simp [modMe]
@[simp] theorem modMe_host : (modMe s f).host = s.host := by simp [modMe]
@[simp] theorem modMe_link : (modMe s f).link = s.link := by simp [modMe]
@[simp] theorem modMe_ostler : (modMe s f).ostler = s.ostler := by simp [modMe]
@[simp] theorem modMe_depot : (modMe s f).depot = s.depot := by simp [modMe]
@[simp] theorem modMe_mgmt : (modMe s f).mgmt = s.mgmt := by simp [modMe]
@[simp] theorem modMe_felt : (modMe s f).felt = s.felt := by simp [modMe]
@[simp] theorem modMe_balances : (modMe s f).balances = s.balances := by simp [modMe]
@[simp] theorem modMe_fareTags : (modMe s f).fareTags = s.fareTags := by simp [modMe]
@[simp] theorem modMe_charges : (modMe s f).charges = s.charges := by simp [modMe]
@[simp] theorem modMe_svcInbox : (modMe s f).svcInbox = s.svcInbox := by simp [modMe]
@[simp] theorem modMe_svcPosted : (modMe s f).svcPosted = s.svcPosted := by simp [modMe]
@[simp] theorem modMe_outPosts : (modMe s f).outPosts = s.outPosts := by simp [modMe]
@[simp] theorem modMe_migWaits : (modMe s f).migWaits = s.migWaits := by simp [modMe]
@[simp] theorem modMe_nextImage : (modMe s f).nextImage = s.nextImage := by simp [modMe]
@[simp] theorem modMe_engineDone : (modMe s f).engineDone = s.engineDone := by simp [modMe]
@[simp] theorem modMe_peerReads : (modMe s f).peerReads = s.peerReads := by simp [modMe]
@[simp] theorem modMe_peerData : (modMe s f).peerData = s.peerData := by simp [modMe]
@[simp] theorem modMe_busOut : (modMe s f).busOut = s.busOut := by simp [modMe]
@[simp] theorem modMe_linkOut : (modMe s f).linkOut = s.linkOut := by simp [modMe]
end

/-! ## Reading back what an update wrote -/

@[simp] theorem getAgent_putAgent (s : State) (a : Agent) (t : Strand) : getAgent (putAgent s a t) a = t := by
  cases a <;> simp [getAgent, putAgent]

theorem getAgent_putAgent_ne (s : State) {a b : Agent} (t : Strand) (h : b ≠ a) : getAgent (putAgent s a t) b = getAgent s b := by
  cases a <;> cases b <;> simp_all [getAgent, putAgent, smap_get_set_ne]

@[simp] theorem getAgent_modAgent (s : State) (a : Agent) (f : Strand → Strand) : getAgent (modAgent s a f) a = f (getAgent s a) := by
  simp [modAgent]

theorem getAgent_modAgent_ne (s : State) {a b : Agent} (f : Strand → Strand) (h : b ≠ a) : getAgent (modAgent s a f) b = getAgent s b :=
  getAgent_putAgent_ne s _ h

@[simp] theorem me_modMe (s : State) (f : Strand → Strand) : me (modMe s f) = f (me s) := by
  simp [me, modMe]

/-- Two updates of an agent are one. -/
theorem modAgent_modAgent (s : State) (a : Agent) (f g : Strand → Strand) : modAgent (modAgent s a f) a g = modAgent s a (fun t => g (f t)) := by
  have h : modAgent (modAgent s a f) a g = putAgent (modAgent s a f) a (g (f (getAgent s a))) := by
    rw [modAgent, getAgent_modAgent]
  rw [h]
  cases a <;> simp [modAgent, putAgent, smap_set_set]

theorem modMe_modMe (s : State) (f g : Strand → Strand) : modMe (modMe s f) g = modMe s (fun t => g (f t)) := by
  have h : modMe (modMe s f) g = modAgent (modAgent s s.cur f) s.cur g := by simp [modMe]
  rw [h, modAgent_modAgent]
  rfl

theorem getAgent_modMe_ne (s : State) {b : Agent} (f : Strand → Strand) (h : b ≠ s.cur) : getAgent (modMe s f) b = getAgent s b :=
  getAgent_modAgent_ne s f h

@[simp] theorem getCore_modCore (s : State) (k : Nat) (f : CoreUnit → CoreUnit) : getCore (modCore s k f) k = f (getCore s k) := by
  simp [getCore, modCore]

theorem getCore_modCore_ne (s : State) {k j : Nat} (f : CoreUnit → CoreUnit) (h : j ≠ k) : getCore (modCore s k f) j = getCore s j := by
  simp [getCore, modCore, smap_get_set_ne _ _ _ h]

@[simp] theorem getTile_modTile (s : State) (k : Nat) (f : Tile → Tile) : getTile (modTile s k f) k = f (getTile s k) := by
  simp [getTile, modTile]

theorem getTile_modTile_ne (s : State) {k j : Nat} (f : Tile → Tile) (h : j ≠ k) : getTile (modTile s k f) j = getTile s j := by
  simp [getTile, modTile, smap_get_set_ne _ _ _ h]

@[simp] theorem getCluster_modCluster (s : State) (k : Nat) (f : Cluster → Cluster) : getCluster (modCluster s k f) k = f (getCluster s k) := by
  simp [getCluster, modCluster]

theorem getCluster_modCluster_ne (s : State) {k j : Nat} (f : Cluster → Cluster) (h : j ≠ k) : getCluster (modCluster s k f) j = getCluster s j := by
  simp [getCluster, modCluster, smap_get_set_ne _ _ _ h]

@[simp] theorem getDie_modDie (s : State) (k : Nat) (f : Die → Die) : getDie (modDie s k f) k = f (getDie s k) := by
  simp [getDie, modDie]

theorem getDie_modDie_ne (s : State) {k j : Nat} (f : Die → Die) (h : j ≠ k) : getDie (modDie s k f) j = getDie s j := by
  simp [getDie, modDie, smap_get_set_ne _ _ _ h]

@[simp] theorem getRun_modRun (s : State) (k : BitVec 32) (f : Run → Run) : getRun (modRun s k f) k = f (getRun s k) := by
  simp [getRun, modRun]

theorem getRun_modRun_ne (s : State) {k j : BitVec 32} (f : Run → Run) (h : j ≠ k) : getRun (modRun s k f) j = getRun s j := by
  have h' : j.toNat ≠ k.toNat := fun e => h (BitVec.eq_of_toNat_eq e)
  simp [getRun, modRun, smap_get_set_ne _ _ _ h']

@[simp] theorem getCtx_modCtx (s : State) (k : BitVec 32) (f : Context → Context) : getCtx (modCtx s k f) k = f (getCtx s k) := by
  simp [getCtx, modCtx]

theorem getCtx_modCtx_ne (s : State) {k j : BitVec 32} (f : Context → Context) (h : j ≠ k) : getCtx (modCtx s k f) j = getCtx s j := by
  have h' : j.toNat ≠ k.toNat := fun e => h (BitVec.eq_of_toNat_eq e)
  simp [getCtx, modCtx, smap_get_set_ne _ _ _ h']

section
variable (s : State) (c : Nat) (f : CoreUnit → CoreUnit)

@[simp] theorem getTile_modCore_other (j : Nat) : getTile (modCore s c f) j = getTile s j := rfl
@[simp] theorem getCluster_modCore_other (j : Nat) : getCluster (modCore s c f) j = getCluster s j := rfl
@[simp] theorem getDie_modCore_other (j : Nat) : getDie (modCore s c f) j = getDie s j := rfl
@[simp] theorem getRun_modCore_other (j : BitVec 32) : getRun (modCore s c f) j = getRun s j := rfl
@[simp] theorem getCtx_modCore_other (j : BitVec 32) : getCtx (modCore s c f) j = getCtx s j := rfl
@[simp] theorem getAgent_modCore_other (a : Agent) : getAgent (modCore s c f) a = getAgent s a := rfl
@[simp] theorem me_modCore_other : me (modCore s c f) = me s := rfl
end

section
variable (s : State) (k : Nat) (f : Tile → Tile)

@[simp] theorem getCore_modTile_other (j : Nat) : getCore (modTile s k f) j = getCore s j := rfl
@[simp] theorem getCluster_modTile_other (j : Nat) : getCluster (modTile s k f) j = getCluster s j := rfl
@[simp] theorem getDie_modTile_other (j : Nat) : getDie (modTile s k f) j = getDie s j := rfl
@[simp] theorem getRun_modTile_other (j : BitVec 32) : getRun (modTile s k f) j = getRun s j := rfl
@[simp] theorem getCtx_modTile_other (j : BitVec 32) : getCtx (modTile s k f) j = getCtx s j := rfl
@[simp] theorem getAgent_modTile_other (a : Agent) : getAgent (modTile s k f) a = getAgent s a := rfl
@[simp] theorem me_modTile_other : me (modTile s k f) = me s := rfl
end

section
variable (s : State) (c : Nat) (f : Cluster → Cluster)

@[simp] theorem getCore_modCluster_other (j : Nat) : getCore (modCluster s c f) j = getCore s j := rfl
@[simp] theorem getTile_modCluster_other (j : Nat) : getTile (modCluster s c f) j = getTile s j := rfl
@[simp] theorem getDie_modCluster_other (j : Nat) : getDie (modCluster s c f) j = getDie s j := rfl
@[simp] theorem getRun_modCluster_other (j : BitVec 32) : getRun (modCluster s c f) j = getRun s j := rfl
@[simp] theorem getCtx_modCluster_other (j : BitVec 32) : getCtx (modCluster s c f) j = getCtx s j := rfl
@[simp] theorem getAgent_modCluster_other (a : Agent) : getAgent (modCluster s c f) a = getAgent s a := rfl
@[simp] theorem me_modCluster_other : me (modCluster s c f) = me s := rfl
end

section
variable (s : State) (d : Nat) (f : Die → Die)

@[simp] theorem getCore_modDie_other (j : Nat) : getCore (modDie s d f) j = getCore s j := rfl
@[simp] theorem getTile_modDie_other (j : Nat) : getTile (modDie s d f) j = getTile s j := rfl
@[simp] theorem getCluster_modDie_other (j : Nat) : getCluster (modDie s d f) j = getCluster s j := rfl
@[simp] theorem getRun_modDie_other (j : BitVec 32) : getRun (modDie s d f) j = getRun s j := rfl
@[simp] theorem getCtx_modDie_other (j : BitVec 32) : getCtx (modDie s d f) j = getCtx s j := rfl
@[simp] theorem getAgent_modDie_other (a : Agent) : getAgent (modDie s d f) a = getAgent s a := rfl
@[simp] theorem me_modDie_other : me (modDie s d f) = me s := rfl
end

section
variable (s : State) (r : BitVec 32) (f : Run → Run)

@[simp] theorem getCore_modRun_other (j : Nat) : getCore (modRun s r f) j = getCore s j := rfl
@[simp] theorem getTile_modRun_other (j : Nat) : getTile (modRun s r f) j = getTile s j := rfl
@[simp] theorem getCluster_modRun_other (j : Nat) : getCluster (modRun s r f) j = getCluster s j := rfl
@[simp] theorem getDie_modRun_other (j : Nat) : getDie (modRun s r f) j = getDie s j := rfl
@[simp] theorem getCtx_modRun_other (j : BitVec 32) : getCtx (modRun s r f) j = getCtx s j := rfl
@[simp] theorem getAgent_modRun_other (a : Agent) : getAgent (modRun s r f) a = getAgent s a := rfl
@[simp] theorem me_modRun_other : me (modRun s r f) = me s := rfl
end

section
variable (s : State) (c : BitVec 32) (f : Context → Context)

@[simp] theorem getCore_modCtx_other (j : Nat) : getCore (modCtx s c f) j = getCore s j := rfl
@[simp] theorem getTile_modCtx_other (j : Nat) : getTile (modCtx s c f) j = getTile s j := rfl
@[simp] theorem getCluster_modCtx_other (j : Nat) : getCluster (modCtx s c f) j = getCluster s j := rfl
@[simp] theorem getDie_modCtx_other (j : Nat) : getDie (modCtx s c f) j = getDie s j := rfl
@[simp] theorem getRun_modCtx_other (j : BitVec 32) : getRun (modCtx s c f) j = getRun s j := rfl
@[simp] theorem getAgent_modCtx_other (a : Agent) : getAgent (modCtx s c f) a = getAgent s a := rfl
@[simp] theorem me_modCtx_other : me (modCtx s c f) = me s := rfl
end

section
variable (s : State) (l : List Instr)

@[simp] theorem getCore_soon_other (j : Nat) : getCore (soon s l) j = getCore s j := rfl
@[simp] theorem getTile_soon_other (j : Nat) : getTile (soon s l) j = getTile s j := rfl
@[simp] theorem getCluster_soon_other (j : Nat) : getCluster (soon s l) j = getCluster s j := rfl
@[simp] theorem getDie_soon_other (j : Nat) : getDie (soon s l) j = getDie s j := rfl
@[simp] theorem getRun_soon_other (j : BitVec 32) : getRun (soon s l) j = getRun s j := rfl
@[simp] theorem getCtx_soon_other (j : BitVec 32) : getCtx (soon s l) j = getCtx s j := rfl
@[simp] theorem getAgent_soon_other (a : Agent) : getAgent (soon s l) a = getAgent s a := rfl
@[simp] theorem me_soon_other : me (soon s l) = me s := rfl
end

section
variable (s : State) (l : List Instr)

@[simp] theorem getCore_later_other (j : Nat) : getCore (later s l) j = getCore s j := rfl
@[simp] theorem getTile_later_other (j : Nat) : getTile (later s l) j = getTile s j := rfl
@[simp] theorem getCluster_later_other (j : Nat) : getCluster (later s l) j = getCluster s j := rfl
@[simp] theorem getDie_later_other (j : Nat) : getDie (later s l) j = getDie s j := rfl
@[simp] theorem getRun_later_other (j : BitVec 32) : getRun (later s l) j = getRun s j := rfl
@[simp] theorem getCtx_later_other (j : BitVec 32) : getCtx (later s l) j = getCtx s j := rfl
@[simp] theorem getAgent_later_other (a : Agent) : getAgent (later s l) a = getAgent s a := rfl
@[simp] theorem me_later_other : me (later s l) = me s := rfl
end

section
variable (s : State) 

@[simp] theorem getCore_tick_other (j : Nat) : getCore (tick s) j = getCore s j := rfl
@[simp] theorem getTile_tick_other (j : Nat) : getTile (tick s) j = getTile s j := rfl
@[simp] theorem getCluster_tick_other (j : Nat) : getCluster (tick s) j = getCluster s j := rfl
@[simp] theorem getDie_tick_other (j : Nat) : getDie (tick s) j = getDie s j := rfl
@[simp] theorem getRun_tick_other (j : BitVec 32) : getRun (tick s) j = getRun s j := rfl
@[simp] theorem getCtx_tick_other (j : BitVec 32) : getCtx (tick s) j = getCtx s j := rfl
@[simp] theorem getAgent_tick_other (a : Agent) : getAgent (tick s) a = getAgent s a := rfl
end

section
variable (s : State) (a : Agent) (t : Strand) (f : Strand → Strand)

@[simp] theorem getCore_putAgent_other (k : Nat) : getCore (putAgent s a t) k = getCore s k := by simp [getCore]
@[simp] theorem getTile_putAgent_other (k : Nat) : getTile (putAgent s a t) k = getTile s k := by simp [getTile]
@[simp] theorem getCluster_putAgent_other (k : Nat) : getCluster (putAgent s a t) k = getCluster s k := by simp [getCluster]
@[simp] theorem getDie_putAgent_other (k : Nat) : getDie (putAgent s a t) k = getDie s k := by simp [getDie]
@[simp] theorem getRun_putAgent_other (j : BitVec 32) : getRun (putAgent s a t) j = getRun s j := by simp [getRun]
@[simp] theorem getCtx_putAgent_other (j : BitVec 32) : getCtx (putAgent s a t) j = getCtx s j := by simp [getCtx]
@[simp] theorem getCore_modAgent_other (k : Nat) : getCore (modAgent s a f) k = getCore s k := by simp [getCore]
@[simp] theorem getTile_modAgent_other (k : Nat) : getTile (modAgent s a f) k = getTile s k := by simp [getTile]
@[simp] theorem getCluster_modAgent_other (k : Nat) : getCluster (modAgent s a f) k = getCluster s k := by simp [getCluster]
@[simp] theorem getDie_modAgent_other (k : Nat) : getDie (modAgent s a f) k = getDie s k := by simp [getDie]
@[simp] theorem getRun_modAgent_other (j : BitVec 32) : getRun (modAgent s a f) j = getRun s j := by simp [getRun]
@[simp] theorem getCtx_modAgent_other (j : BitVec 32) : getCtx (modAgent s a f) j = getCtx s j := by simp [getCtx]
@[simp] theorem getCore_modMe_other (k : Nat) : getCore (modMe s f) k = getCore s k := by simp [getCore]
@[simp] theorem getTile_modMe_other (k : Nat) : getTile (modMe s f) k = getTile s k := by simp [getTile]
@[simp] theorem getCluster_modMe_other (k : Nat) : getCluster (modMe s f) k = getCluster s k := by simp [getCluster]
@[simp] theorem getDie_modMe_other (k : Nat) : getDie (modMe s f) k = getDie s k := by simp [getDie]
@[simp] theorem getRun_modMe_other (j : BitVec 32) : getRun (modMe s f) j = getRun s j := by simp [getRun]
@[simp] theorem getCtx_modMe_other (j : BitVec 32) : getCtx (modMe s f) j = getCtx s j := by simp [getCtx]
end

end Sys2Proof.Machine
end

