-- ==== Sys2Proof/Laws/Ops.lean ====
section
/-!
SUPPORT. What each shared operation can do, said once: the bodies of instructions, completing, waiting, taking a fault.
-/
namespace Sys2Proof.Machine

/-! ## Running a body -/

theorem exec_bind_ok {α β : Type} {e : Exec α} {k : α → Exec β} {s s1 : State} {v : α} (h : e s = .ok (v, s1)) : (e >>= k) s = k v s1 := by
  show (e s >>= fun p => k p.1 p.2) = _
  rw [h]
  rfl

theorem exec_bind_error {α β : Type} {e : Exec α} {k : α → Exec β} {s : State} {x : Stop} (h : e s = .error x) : (e >>= k) s = .error x := by
  show (e s >>= fun p => k p.1 p.2) = _
  rw [h]
  rfl

/-- What a sequence does: the rest runs from what the first part leaves, or the first part's stop is the whole's. -/
theorem exec_seq {α β : Type} (e : Exec α) (k : α → Exec β) (s : State) :
    (e >>= k) s = match e s with
      | .ok (v, s1) => k v s1
      | .error x => .error x := by
  cases h : e s with
  | ok p => exact exec_bind_ok h
  | error x => exact exec_bind_error h

theorem exec_ite {α : Type} (c : Prop) [Decidable c] (e f : Exec α) (s : State) : (if c then e else f) s = if c then e s else f s := by
  split <;> rfl

@[simp] theorem exec_pure {α : Type} (v : α) (s : State) : (pure v : Exec α) s = .ok (v, s) := rfl
@[simp] theorem exec_pure_bind {α β : Type} (v : α) (k : α → Exec β) (s : State) : ((pure v : Exec α) >>= k) s = k v s := rfl
@[simp] theorem exec_self_bind {β : Type} (k : Strand → Exec β) (s : State) : (self >>= k) s = k (me s) s := rfl
@[simp] theorem exec_theAgent_bind {β : Type} (k : Agent → Exec β) (s : State) : (theAgent >>= k) s = k s.cur s := rfl
@[simp] theorem exec_theState_bind {β : Type} (k : State → Exec β) (s : State) : (theState >>= k) s = k s s := rfl
@[simp] theorem exec_getX_bind {β : Type} (r : BitVec 5) (k : Word → Exec β) (s : State) : (getX r >>= k) s = k (readX (me s) r) s := rfl
@[simp] theorem exec_getV_bind {β : Type} (r : BitVec 5) (k : Vec → Exec β) (s : State) : (getV r >>= k) s = k (readV (me s) r) s := rfl
@[simp] theorem exec_getM_bind {β : Type} (r : BitVec 3) (k : Word → Exec β) (s : State) : (getM r >>= k) s = k (readM (me s) r) s := rfl
@[simp] theorem exec_update (f : State → State) (s : State) : update f s = .ok ((), f s) := rfl
@[simp] theorem exec_update_bind {β : Type} (f : State → State) (k : Unit → Exec β) (s : State) : (update f >>= k) s = k () (f s) := rfl
@[simp] theorem exec_setSelf (f : Strand → Strand) (s : State) : setSelf f s = .ok ((), modMe s f) := rfl
@[simp] theorem exec_setSelf_bind {β : Type} (f : Strand → Strand) (k : Unit → Exec β) (s : State) : (setSelf f >>= k) s = k () (modMe s f) := rfl
@[simp] theorem exec_setX (r : BitVec 5) (v : Word) (s : State) : setX r v s = .ok ((), modMe s (fun t => writeX t r v)) := rfl
@[simp] theorem exec_setX_bind {β : Type} (r : BitVec 5) (v : Word) (k : Unit → Exec β) (s : State) :
    (setX r v >>= k) s = k () (modMe s (fun t => writeX t r v)) := rfl
@[simp] theorem exec_setV (r : BitVec 5) (v : Vec) (s : State) : setV r v s = .ok ((), modMe s (fun t => writeV t r v)) := rfl
@[simp] theorem exec_setM (r : BitVec 3) (v : Word) (s : State) : setM r v s = .ok ((), modMe s (fun t => writeM t r v)) := rfl
@[simp] theorem exec_raise {α : Type} (code sub kind : Nat) (addr : Word) (entry : Nat) (s : State) :
    (raise code sub kind addr entry : Exec α) s = .error (.fault (faultInfo code sub kind addr entry)) := rfl
@[simp] theorem exec_raise_bind {α β : Type} (code sub kind : Nat) (addr : Word) (entry : Nat) (k : α → Exec β) (s : State) :
    ((raise code sub kind addr entry : Exec α) >>= k) s = .error (.fault (faultInfo code sub kind addr entry)) := rfl
@[simp] theorem exec_stall {α : Type} (s : State) : (stall : Exec α) s = .error (.wait s) := rfl
@[simp] theorem exec_waitIn {α : Type} (s1 s : State) : (waitIn s1 : Exec α) s = .error (.wait s1) := rfl

/-! ## An instruction's outcome -/

theorem issueTo_next {form : Strand → Form} {body : Exec Word} {s s1 : State} {npc : Word} (hp : Passes form s)
    (hb : body (started s) = .ok (npc, s1)) : issueTo form body s = .next (retire s1 npc) := by
  have hb' : body (modMe s (fun t => { t with status := .ready })) = .ok (npc, s1) := hb
  simp only [issueTo]
  rw [hp]
  simp only [hb']

theorem issue_next {form : Strand → Form} {body : Exec Unit} {s s1 : State} (hp : Passes form s) (hb : body (started s) = .ok ((), s1)) :
    issue form body s = .next (done s1) := by
  refine issueTo_next hp ?_
  rw [exec_bind_ok hb]
  rfl

theorem issueTo_fault {form : Strand → Form} {body : Exec Word} {s : State} {f : FaultInfo} (hp : Passes form s)
    (hb : body (started s) = .error (.fault f)) : issueTo form body s = .next (takeFault s f) := by
  have hb' : body (modMe s (fun t => { t with status := .ready })) = .error (.fault f) := hb
  simp only [issueTo]
  rw [hp]
  simp only [hb']

theorem issue_fault {form : Strand → Form} {body : Exec Unit} {s : State} {f : FaultInfo} (hp : Passes form s)
    (hb : body (started s) = .error (.fault f)) : issue form body s = .next (takeFault s f) :=
  issueTo_fault hp (exec_bind_error hb)

theorem issueTo_wait {form : Strand → Form} {body : Exec Word} {s s1 : State} (hp : Passes form s)
    (hb : body (started s) = .error (.wait s1)) : issueTo form body s = .next (waiting s1) := by
  have hb' : body (modMe s (fun t => { t with status := .ready })) = .error (.wait s1) := hb
  simp only [issueTo]
  rw [hp]
  simp only [hb']

theorem issue_wait {form : Strand → Form} {body : Exec Unit} {s s1 : State} (hp : Passes form s)
    (hb : body (started s) = .error (.wait s1)) : issue form body s = .next (waiting s1) :=
  issueTo_wait hp (exec_bind_error hb)

theorem issueTo_before {form : Strand → Form} {body : Exec Word} {s : State} {f : FaultInfo} (h : before form s = some f) :
    issueTo form body s = .next (takeFault s f) := by
  simp only [issueTo]
  rw [h]

theorem issue_before {form : Strand → Form} {body : Exec Unit} {s : State} {f : FaultInfo} (h : before form s = some f) :
    issue form body s = .next (takeFault s f) := issueTo_before h

theorem issueState_next {form : Strand → Form} {body : Exec State} {s s1 s2 : State} (hp : Passes form s)
    (hb : body (started s) = .ok (s2, s1)) : issueState form body s = .next (tick s2) := by
  have hb' : body (modMe s (fun t => { t with status := .ready })) = .ok (s2, s1) := hb
  simp only [issueState]
  rw [hp]
  simp only [hb']

/-- An instruction answers with a next state: it completes, takes a fault or waits. -/
theorem issueTo_answers (form : Strand → Form) (body : Exec Word) (s : State) : ∃ t, issueTo form body s = .next t := by
  unfold issueTo
  split
  · exact ⟨_, rfl⟩
  · split <;> exact ⟨_, rfl⟩

theorem issue_answers (form : Strand → Form) (body : Exec Unit) (s : State) : ∃ t, issue form body s = .next t := issueTo_answers _ _ _

theorem issueState_answers (form : Strand → Form) (body : Exec State) (s : State) : ∃ t, issueState form body s = .next t := by
  unfold issueState
  split
  · exact ⟨_, rfl⟩
  · split <;> exact ⟨_, rfl⟩

/-- When the checks before an instruction's own work pass. -/
theorem passes_of {form : Strand → Form} {s : State} (hd : (me s).deferred = none)
    (hf : formFault (form (me s)) (me s) (isCourier s.cur) (ostlerMode s s.cur) = none) (hr : (me s).replyFault = none) : Passes form s := by
  simp [Passes, before, hd, hf, hr]

/-! ## Started and completed states -/

@[simp] theorem me_started (s : State) : me (started s) = { me s with status := .ready } := by simp [started]
/-- An update of the agent that changes nothing leaves the started state as it is. -/
@[simp] theorem started_id (s : State) : modMe (started s) id = started s := by
  simp [started, modMe_modMe]

@[simp] theorem started_cur (s : State) : (started s).cur = s.cur := by simp [started]
@[simp] theorem readX_status (t : Strand) (st : Status) (r : BitVec 5) : readX { t with status := st } r = readX t r := rfl
@[simp] theorem readV_status (t : Strand) (st : Status) (r : BitVec 5) : readV { t with status := st } r = readV t r := rfl
@[simp] theorem readM_status (t : Strand) (st : Status) (r : BitVec 3) : readM { t with status := st } r = readM t r := rfl
@[simp] theorem writeX_pc (t : Strand) (r : BitVec 5) (v : Word) : (writeX t r v).pc = t.pc := by
  unfold writeX
  split <;> rfl
@[simp] theorem writeX_status (t : Strand) (r : BitVec 5) (v : Word) : (writeX t r v).status = t.status := by
  unfold writeX
  split <;> rfl
@[simp] theorem writeV_pc (t : Strand) (r : BitVec 5) (v : Vec) : (writeV t r v).pc = t.pc := rfl
@[simp] theorem writeM_pc (t : Strand) (r : BitVec 3) (v : Word) : (writeM t r v).pc = t.pc := by
  unfold writeM
  split <;> rfl

/-- X[0] reads 0 whatever is written (00 R10, 11 R266). -/
@[simp] theorem readX_zero (t : Strand) : readX t 0 = 0 := rfl
theorem readX_writeX (t : Strand) (r : BitVec 5) (v : Word) : readX (writeX t r v) r = if r = 0 then 0 else v := by
  unfold readX writeX
  split <;> simp_all
theorem readX_writeX_ne (t : Strand) {r q : BitVec 5} (v : Word) (h : q ≠ r) : readX (writeX t r v) q = readX t q := by
  have hn : r.toNat ≠ q.toNat := fun e => h (BitVec.eq_of_toNat_eq e.symm)
  unfold readX writeX
  split
  · rfl
  · split
    · rfl
    · exact Vector.getElem_set_ne r.isLt q.isLt hn
/-- M[0] reads all ones whatever is written (11 R266). -/
@[simp] theorem readM_zero (t : Strand) : readM t 0 = BitVec.allOnes 64 := rfl

/-! ## What completing leaves alone -/

theorem idleCheck_cases (s : State) (k : Nat) : idleCheck s k = s ∨ idleCheck s k = later s [.park k] := by
  unfold idleCheck
  split
  · exact .inr rfl
  · exact .inl rfl

theorem getTile_gearCheck_pool (s : State) (k j : Nat) : (getTile (gearCheck s k) j).pool = (getTile s j).pool := by
  have hm : ∀ f : Tile → Tile, (∀ t, (f t).pool = t.pool) → ∀ u : State, (getTile (modTile u k f) j).pool = (getTile u j).pool := by
    intro f hf u
    by_cases hj : j = k
    · subst hj
      simp [hf]
    · rw [getTile_modTile_ne _ _ hj]
  unfold gearCheck
  simp only
  split
  · rcases idleCheck_cases (modTile s k (fun t => { t with doze := tileDozes s k })) k with h | h <;> rw [h]
    · exact hm (fun t => { t with doze := tileDozes s k }) (fun _ => rfl) s
    · exact hm (fun t => { t with doze := tileDozes s k }) (fun _ => rfl) s
  · unfold beginChange
    split
    · simp only [getTile_later_other, getTile_modCluster_other]
      exact (hm (fun t => { t with changing := some (wantedGear s k) }) (fun _ => rfl) _).trans
        (hm (fun t => { t with doze := tileDozes s k }) (fun _ => rfl) s)
    · simp only [getTile_later_other]
      exact (hm (fun t => { t with changing := some (wantedGear s k) }) (fun _ => rfl) _).trans
        (hm (fun t => { t with doze := tileDozes s k }) (fun _ => rfl) s)

@[simp] theorem idleCheck_urgent (s : State) (k : Nat) : (idleCheck s k).urgent = s.urgent := by
  rcases idleCheck_cases s k with h | h
  · rw [h]
  · rw [h]; rfl
@[simp] theorem gearCheck_urgent (s : State) (k : Nat) : (gearCheck s k).urgent = s.urgent := by
  unfold gearCheck
  simp only
  split
  · simp
  · unfold beginChange
    split <;> simp
@[simp] theorem noteIssue_urgent (s : State) : (noteIssue s).urgent = s.urgent := by
  unfold noteIssue
  split
  · split <;> simp
  · rfl
@[simp] theorem leaveDoze_urgent (s : State) (b : Bool) (a : Agent) : (leaveDoze s b a).urgent = s.urgent := by
  unfold leaveDoze
  split <;> simp
@[simp] theorem retire_urgent (s : State) (npc : Word) : (retire s npc).urgent = s.urgent := by simp [retire]
@[simp] theorem idleCheck_hbm (s : State) (k : Nat) : (idleCheck s k).hbm = s.hbm := by
  rcases idleCheck_cases s k with h | h
  · rw [h]
  · rw [h]; rfl
@[simp] theorem gearCheck_hbm (s : State) (k : Nat) : (gearCheck s k).hbm = s.hbm := by
  unfold gearCheck
  simp only
  split
  · simp
  · unfold beginChange
    split <;> simp
@[simp] theorem noteIssue_hbm (s : State) : (noteIssue s).hbm = s.hbm := by
  unfold noteIssue
  split
  · split <;> simp
  · rfl
@[simp] theorem leaveDoze_hbm (s : State) (b : Bool) (a : Agent) : (leaveDoze s b a).hbm = s.hbm := by
  unfold leaveDoze
  split <;> simp
@[simp] theorem retire_hbm (s : State) (npc : Word) : (retire s npc).hbm = s.hbm := by simp [retire]
@[simp] theorem idleCheck_sectors (s : State) (k : Nat) : (idleCheck s k).sectors = s.sectors := by
  rcases idleCheck_cases s k with h | h
  · rw [h]
  · rw [h]; rfl
@[simp] theorem gearCheck_sectors (s : State) (k : Nat) : (gearCheck s k).sectors = s.sectors := by
  unfold gearCheck
  simp only
  split
  · simp
  · unfold beginChange
    split <;> simp
@[simp] theorem noteIssue_sectors (s : State) : (noteIssue s).sectors = s.sectors := by
  unfold noteIssue
  split
  · split <;> simp
  · rfl
@[simp] theorem leaveDoze_sectors (s : State) (b : Bool) (a : Agent) : (leaveDoze s b a).sectors = s.sectors := by
  unfold leaveDoze
  split <;> simp
@[simp] theorem retire_sectors (s : State) (npc : Word) : (retire s npc).sectors = s.sectors := by simp [retire]
@[simp] theorem idleCheck_dir (s : State) (k : Nat) : (idleCheck s k).dir = s.dir := by
  rcases idleCheck_cases s k with h | h
  · rw [h]
  · rw [h]; rfl
@[simp] theorem gearCheck_dir (s : State) (k : Nat) : (gearCheck s k).dir = s.dir := by
  unfold gearCheck
  simp only
  split
  · simp
  · unfold beginChange
    split <;> simp
@[simp] theorem noteIssue_dir (s : State) : (noteIssue s).dir = s.dir := by
  unfold noteIssue
  split
  · split <;> simp
  · rfl
@[simp] theorem leaveDoze_dir (s : State) (b : Bool) (a : Agent) : (leaveDoze s b a).dir = s.dir := by
  unfold leaveDoze
  split <;> simp
@[simp] theorem retire_dir (s : State) (npc : Word) : (retire s npc).dir = s.dir := by simp [retire]
@[simp] theorem idleCheck_l2 (s : State) (k : Nat) : (idleCheck s k).l2 = s.l2 := by
  rcases idleCheck_cases s k with h | h
  · rw [h]
  · rw [h]; rfl
@[simp] theorem gearCheck_l2 (s : State) (k : Nat) : (gearCheck s k).l2 = s.l2 := by
  unfold gearCheck
  simp only
  split
  · simp
  · unfold beginChange
    split <;> simp
@[simp] theorem noteIssue_l2 (s : State) : (noteIssue s).l2 = s.l2 := by
  unfold noteIssue
  split
  · split <;> simp
  · rfl
@[simp] theorem leaveDoze_l2 (s : State) (b : Bool) (a : Agent) : (leaveDoze s b a).l2 = s.l2 := by
  unfold leaveDoze
  split <;> simp
@[simp] theorem retire_l2 (s : State) (npc : Word) : (retire s npc).l2 = s.l2 := by simp [retire]
@[simp] theorem idleCheck_contexts (s : State) (k : Nat) : (idleCheck s k).contexts = s.contexts := by
  rcases idleCheck_cases s k with h | h
  · rw [h]
  · rw [h]; rfl
@[simp] theorem gearCheck_contexts (s : State) (k : Nat) : (gearCheck s k).contexts = s.contexts := by
  unfold gearCheck
  simp only
  split
  · simp
  · unfold beginChange
    split <;> simp
@[simp] theorem noteIssue_contexts (s : State) : (noteIssue s).contexts = s.contexts := by
  unfold noteIssue
  split
  · split <;> simp
  · rfl
@[simp] theorem leaveDoze_contexts (s : State) (b : Bool) (a : Agent) : (leaveDoze s b a).contexts = s.contexts := by
  unfold leaveDoze
  split <;> simp
@[simp] theorem retire_contexts (s : State) (npc : Word) : (retire s npc).contexts = s.contexts := by simp [retire]
@[simp] theorem idleCheck_runs (s : State) (k : Nat) : (idleCheck s k).runs = s.runs := by
  rcases idleCheck_cases s k with h | h
  · rw [h]
  · rw [h]; rfl
@[simp] theorem gearCheck_runs (s : State) (k : Nat) : (gearCheck s k).runs = s.runs := by
  unfold gearCheck
  simp only
  split
  · simp
  · unfold beginChange
    split <;> simp
@[simp] theorem noteIssue_runs (s : State) : (noteIssue s).runs = s.runs := by
  unfold noteIssue
  split
  · split <;> simp
  · rfl
@[simp] theorem leaveDoze_runs (s : State) (b : Bool) (a : Agent) : (leaveDoze s b a).runs = s.runs := by
  unfold leaveDoze
  split <;> simp
@[simp] theorem retire_runs (s : State) (npc : Word) : (retire s npc).runs = s.runs := by simp [retire]
@[simp] theorem idleCheck_dies (s : State) (k : Nat) : (idleCheck s k).dies = s.dies := by
  rcases idleCheck_cases s k with h | h
  · rw [h]
  · rw [h]; rfl
@[simp] theorem gearCheck_dies (s : State) (k : Nat) : (gearCheck s k).dies = s.dies := by
  unfold gearCheck
  simp only
  split
  · simp
  · unfold beginChange
    split <;> simp
@[simp] theorem noteIssue_dies (s : State) : (noteIssue s).dies = s.dies := by
  unfold noteIssue
  split
  · split <;> simp
  · rfl
@[simp] theorem leaveDoze_dies (s : State) (b : Bool) (a : Agent) : (leaveDoze s b a).dies = s.dies := by
  unfold leaveDoze
  split <;> simp
@[simp] theorem retire_dies (s : State) (npc : Word) : (retire s npc).dies = s.dies := by simp [retire]
@[simp] theorem idleCheck_coaches (s : State) (k : Nat) : (idleCheck s k).coaches = s.coaches := by
  rcases idleCheck_cases s k with h | h
  · rw [h]
  · rw [h]; rfl
@[simp] theorem gearCheck_coaches (s : State) (k : Nat) : (gearCheck s k).coaches = s.coaches := by
  unfold gearCheck
  simp only
  split
  · simp
  · unfold beginChange
    split <;> simp
@[simp] theorem noteIssue_coaches (s : State) : (noteIssue s).coaches = s.coaches := by
  unfold noteIssue
  split
  · split <;> simp
  · rfl
@[simp] theorem leaveDoze_coaches (s : State) (b : Bool) (a : Agent) : (leaveDoze s b a).coaches = s.coaches := by
  unfold leaveDoze
  split <;> simp
@[simp] theorem retire_coaches (s : State) (npc : Word) : (retire s npc).coaches = s.coaches := by simp [retire]
@[simp] theorem idleCheck_generations (s : State) (k : Nat) : (idleCheck s k).generations = s.generations := by
  rcases idleCheck_cases s k with h | h
  · rw [h]
  · rw [h]; rfl
@[simp] theorem gearCheck_generations (s : State) (k : Nat) : (gearCheck s k).generations = s.generations := by
  unfold gearCheck
  simp only
  split
  · simp
  · unfold beginChange
    split <;> simp
@[simp] theorem noteIssue_generations (s : State) : (noteIssue s).generations = s.generations := by
  unfold noteIssue
  split
  · split <;> simp
  · rfl
@[simp] theorem leaveDoze_generations (s : State) (b : Bool) (a : Agent) : (leaveDoze s b a).generations = s.generations := by
  unfold leaveDoze
  split <;> simp
@[simp] theorem retire_generations (s : State) (npc : Word) : (retire s npc).generations = s.generations := by simp [retire]
@[simp] theorem idleCheck_queues (s : State) (k : Nat) : (idleCheck s k).queues = s.queues := by
  rcases idleCheck_cases s k with h | h
  · rw [h]
  · rw [h]; rfl
@[simp] theorem gearCheck_queues (s : State) (k : Nat) : (gearCheck s k).queues = s.queues := by
  unfold gearCheck
  simp only
  split
  · simp
  · unfold beginChange
    split <;> simp
@[simp] theorem noteIssue_queues (s : State) : (noteIssue s).queues = s.queues := by
  unfold noteIssue
  split
  · split <;> simp
  · rfl
@[simp] theorem leaveDoze_queues (s : State) (b : Bool) (a : Agent) : (leaveDoze s b a).queues = s.queues := by
  unfold leaveDoze
  split <;> simp
@[simp] theorem retire_queues (s : State) (npc : Word) : (retire s npc).queues = s.queues := by simp [retire]
@[simp] theorem idleCheck_ports (s : State) (k : Nat) : (idleCheck s k).ports = s.ports := by
  rcases idleCheck_cases s k with h | h
  · rw [h]
  · rw [h]; rfl
@[simp] theorem gearCheck_ports (s : State) (k : Nat) : (gearCheck s k).ports = s.ports := by
  unfold gearCheck
  simp only
  split
  · simp
  · unfold beginChange
    split <;> simp
@[simp] theorem noteIssue_ports (s : State) : (noteIssue s).ports = s.ports := by
  unfold noteIssue
  split
  · split <;> simp
  · rfl
@[simp] theorem leaveDoze_ports (s : State) (b : Bool) (a : Agent) : (leaveDoze s b a).ports = s.ports := by
  unfold leaveDoze
  split <;> simp
@[simp] theorem retire_ports (s : State) (npc : Word) : (retire s npc).ports = s.ports := by simp [retire]
@[simp] theorem idleCheck_requests (s : State) (k : Nat) : (idleCheck s k).requests = s.requests := by
  rcases idleCheck_cases s k with h | h
  · rw [h]
  · rw [h]; rfl
@[simp] theorem gearCheck_requests (s : State) (k : Nat) : (gearCheck s k).requests = s.requests := by
  unfold gearCheck
  simp only
  split
  · simp
  · unfold beginChange
    split <;> simp
@[simp] theorem noteIssue_requests (s : State) : (noteIssue s).requests = s.requests := by
  unfold noteIssue
  split
  · split <;> simp
  · rfl
@[simp] theorem leaveDoze_requests (s : State) (b : Bool) (a : Agent) : (leaveDoze s b a).requests = s.requests := by
  unfold leaveDoze
  split <;> simp
@[simp] theorem retire_requests (s : State) (npc : Word) : (retire s npc).requests = s.requests := by simp [retire]
@[simp] theorem idleCheck_nextTag (s : State) (k : Nat) : (idleCheck s k).nextTag = s.nextTag := by
  rcases idleCheck_cases s k with h | h
  · rw [h]
  · rw [h]; rfl
@[simp] theorem gearCheck_nextTag (s : State) (k : Nat) : (gearCheck s k).nextTag = s.nextTag := by
  unfold gearCheck
  simp only
  split
  · simp
  · unfold beginChange
    split <;> simp
@[simp] theorem noteIssue_nextTag (s : State) : (noteIssue s).nextTag = s.nextTag := by
  unfold noteIssue
  split
  · split <;> simp
  · rfl
@[simp] theorem leaveDoze_nextTag (s : State) (b : Bool) (a : Agent) : (leaveDoze s b a).nextTag = s.nextTag := by
  unfold leaveDoze
  split <;> simp
@[simp] theorem retire_nextTag (s : State) (npc : Word) : (retire s npc).nextTag = s.nextTag := by simp [retire]
@[simp] theorem idleCheck_host (s : State) (k : Nat) : (idleCheck s k).host = s.host := by
  rcases idleCheck_cases s k with h | h
  · rw [h]
  · rw [h]; rfl
@[simp] theorem gearCheck_host (s : State) (k : Nat) : (gearCheck s k).host = s.host := by
  unfold gearCheck
  simp only
  split
  · simp
  · unfold beginChange
    split <;> simp
@[simp] theorem noteIssue_host (s : State) : (noteIssue s).host = s.host := by
  unfold noteIssue
  split
  · split <;> simp
  · rfl
@[simp] theorem leaveDoze_host (s : State) (b : Bool) (a : Agent) : (leaveDoze s b a).host = s.host := by
  unfold leaveDoze
  split <;> simp
@[simp] theorem retire_host (s : State) (npc : Word) : (retire s npc).host = s.host := by simp [retire]
@[simp] theorem idleCheck_link (s : State) (k : Nat) : (idleCheck s k).link = s.link := by
  rcases idleCheck_cases s k with h | h
  · rw [h]
  · rw [h]; rfl
@[simp] theorem gearCheck_link (s : State) (k : Nat) : (gearCheck s k).link = s.link := by
  unfold gearCheck
  simp only
  split
  · simp
  · unfold beginChange
    split <;> simp
@[simp] theorem noteIssue_link (s : State) : (noteIssue s).link = s.link := by
  unfold noteIssue
  split
  · split <;> simp
  · rfl
@[simp] theorem leaveDoze_link (s : State) (b : Bool) (a : Agent) : (leaveDoze s b a).link = s.link := by
  unfold leaveDoze
  split <;> simp
@[simp] theorem retire_link (s : State) (npc : Word) : (retire s npc).link = s.link := by simp [retire]
@[simp] theorem idleCheck_ostler (s : State) (k : Nat) : (idleCheck s k).ostler = s.ostler := by
  rcases idleCheck_cases s k with h | h
  · rw [h]
  · rw [h]; rfl
@[simp] theorem gearCheck_ostler (s : State) (k : Nat) : (gearCheck s k).ostler = s.ostler := by
  unfold gearCheck
  simp only
  split
  · simp
  · unfold beginChange
    split <;> simp
@[simp] theorem noteIssue_ostler (s : State) : (noteIssue s).ostler = s.ostler := by
  unfold noteIssue
  split
  · split <;> simp
  · rfl
@[simp] theorem leaveDoze_ostler (s : State) (b : Bool) (a : Agent) : (leaveDoze s b a).ostler = s.ostler := by
  unfold leaveDoze
  split <;> simp
@[simp] theorem retire_ostler (s : State) (npc : Word) : (retire s npc).ostler = s.ostler := by simp [retire]
@[simp] theorem idleCheck_depot (s : State) (k : Nat) : (idleCheck s k).depot = s.depot := by
  rcases idleCheck_cases s k with h | h
  · rw [h]
  · rw [h]; rfl
@[simp] theorem gearCheck_depot (s : State) (k : Nat) : (gearCheck s k).depot = s.depot := by
  unfold gearCheck
  simp only
  split
  · simp
  · unfold beginChange
    split <;> simp
@[simp] theorem noteIssue_depot (s : State) : (noteIssue s).depot = s.depot := by
  unfold noteIssue
  split
  · split <;> simp
  · rfl
@[simp] theorem leaveDoze_depot (s : State) (b : Bool) (a : Agent) : (leaveDoze s b a).depot = s.depot := by
  unfold leaveDoze
  split <;> simp
@[simp] theorem retire_depot (s : State) (npc : Word) : (retire s npc).depot = s.depot := by simp [retire]
@[simp] theorem idleCheck_mgmt (s : State) (k : Nat) : (idleCheck s k).mgmt = s.mgmt := by
  rcases idleCheck_cases s k with h | h
  · rw [h]
  · rw [h]; rfl
@[simp] theorem gearCheck_mgmt (s : State) (k : Nat) : (gearCheck s k).mgmt = s.mgmt := by
  unfold gearCheck
  simp only
  split
  · simp
  · unfold beginChange
    split <;> simp
@[simp] theorem noteIssue_mgmt (s : State) : (noteIssue s).mgmt = s.mgmt := by
  unfold noteIssue
  split
  · split <;> simp
  · rfl
@[simp] theorem leaveDoze_mgmt (s : State) (b : Bool) (a : Agent) : (leaveDoze s b a).mgmt = s.mgmt := by
  unfold leaveDoze
  split <;> simp
@[simp] theorem retire_mgmt (s : State) (npc : Word) : (retire s npc).mgmt = s.mgmt := by simp [retire]
@[simp] theorem idleCheck_felt (s : State) (k : Nat) : (idleCheck s k).felt = s.felt := by
  rcases idleCheck_cases s k with h | h
  · rw [h]
  · rw [h]; rfl
@[simp] theorem gearCheck_felt (s : State) (k : Nat) : (gearCheck s k).felt = s.felt := by
  unfold gearCheck
  simp only
  split
  · simp
  · unfold beginChange
    split <;> simp
@[simp] theorem noteIssue_felt (s : State) : (noteIssue s).felt = s.felt := by
  unfold noteIssue
  split
  · split <;> simp
  · rfl
@[simp] theorem leaveDoze_felt (s : State) (b : Bool) (a : Agent) : (leaveDoze s b a).felt = s.felt := by
  unfold leaveDoze
  split <;> simp
@[simp] theorem retire_felt (s : State) (npc : Word) : (retire s npc).felt = s.felt := by simp [retire]
@[simp] theorem idleCheck_balances (s : State) (k : Nat) : (idleCheck s k).balances = s.balances := by
  rcases idleCheck_cases s k with h | h
  · rw [h]
  · rw [h]; rfl
@[simp] theorem gearCheck_balances (s : State) (k : Nat) : (gearCheck s k).balances = s.balances := by
  unfold gearCheck
  simp only
  split
  · simp
  · unfold beginChange
    split <;> simp
@[simp] theorem noteIssue_balances (s : State) : (noteIssue s).balances = s.balances := by
  unfold noteIssue
  split
  · split <;> simp
  · rfl
@[simp] theorem leaveDoze_balances (s : State) (b : Bool) (a : Agent) : (leaveDoze s b a).balances = s.balances := by
  unfold leaveDoze
  split <;> simp
@[simp] theorem retire_balances (s : State) (npc : Word) : (retire s npc).balances = s.balances := by simp [retire]
@[simp] theorem idleCheck_fareTags (s : State) (k : Nat) : (idleCheck s k).fareTags = s.fareTags := by
  rcases idleCheck_cases s k with h | h
  · rw [h]
  · rw [h]; rfl
@[simp] theorem gearCheck_fareTags (s : State) (k : Nat) : (gearCheck s k).fareTags = s.fareTags := by
  unfold gearCheck
  simp only
  split
  · simp
  · unfold beginChange
    split <;> simp
@[simp] theorem noteIssue_fareTags (s : State) : (noteIssue s).fareTags = s.fareTags := by
  unfold noteIssue
  split
  · split <;> simp
  · rfl
@[simp] theorem leaveDoze_fareTags (s : State) (b : Bool) (a : Agent) : (leaveDoze s b a).fareTags = s.fareTags := by
  unfold leaveDoze
  split <;> simp
@[simp] theorem retire_fareTags (s : State) (npc : Word) : (retire s npc).fareTags = s.fareTags := by simp [retire]
@[simp] theorem idleCheck_charges (s : State) (k : Nat) : (idleCheck s k).charges = s.charges := by
  rcases idleCheck_cases s k with h | h
  · rw [h]
  · rw [h]; rfl
@[simp] theorem gearCheck_charges (s : State) (k : Nat) : (gearCheck s k).charges = s.charges := by
  unfold gearCheck
  simp only
  split
  · simp
  · unfold beginChange
    split <;> simp
@[simp] theorem noteIssue_charges (s : State) : (noteIssue s).charges = s.charges := by
  unfold noteIssue
  split
  · split <;> simp
  · rfl
@[simp] theorem leaveDoze_charges (s : State) (b : Bool) (a : Agent) : (leaveDoze s b a).charges = s.charges := by
  unfold leaveDoze
  split <;> simp
@[simp] theorem retire_charges (s : State) (npc : Word) : (retire s npc).charges = s.charges := by simp [retire]
@[simp] theorem idleCheck_svcInbox (s : State) (k : Nat) : (idleCheck s k).svcInbox = s.svcInbox := by
  rcases idleCheck_cases s k with h | h
  · rw [h]
  · rw [h]; rfl
@[simp] theorem gearCheck_svcInbox (s : State) (k : Nat) : (gearCheck s k).svcInbox = s.svcInbox := by
  unfold gearCheck
  simp only
  split
  · simp
  · unfold beginChange
    split <;> simp
@[simp] theorem noteIssue_svcInbox (s : State) : (noteIssue s).svcInbox = s.svcInbox := by
  unfold noteIssue
  split
  · split <;> simp
  · rfl
@[simp] theorem leaveDoze_svcInbox (s : State) (b : Bool) (a : Agent) : (leaveDoze s b a).svcInbox = s.svcInbox := by
  unfold leaveDoze
  split <;> simp
@[simp] theorem retire_svcInbox (s : State) (npc : Word) : (retire s npc).svcInbox = s.svcInbox := by simp [retire]
@[simp] theorem idleCheck_svcPosted (s : State) (k : Nat) : (idleCheck s k).svcPosted = s.svcPosted := by
  rcases idleCheck_cases s k with h | h
  · rw [h]
  · rw [h]; rfl
@[simp] theorem gearCheck_svcPosted (s : State) (k : Nat) : (gearCheck s k).svcPosted = s.svcPosted := by
  unfold gearCheck
  simp only
  split
  · simp
  · unfold beginChange
    split <;> simp
@[simp] theorem noteIssue_svcPosted (s : State) : (noteIssue s).svcPosted = s.svcPosted := by
  unfold noteIssue
  split
  · split <;> simp
  · rfl
@[simp] theorem leaveDoze_svcPosted (s : State) (b : Bool) (a : Agent) : (leaveDoze s b a).svcPosted = s.svcPosted := by
  unfold leaveDoze
  split <;> simp
@[simp] theorem retire_svcPosted (s : State) (npc : Word) : (retire s npc).svcPosted = s.svcPosted := by simp [retire]
@[simp] theorem idleCheck_outPosts (s : State) (k : Nat) : (idleCheck s k).outPosts = s.outPosts := by
  rcases idleCheck_cases s k with h | h
  · rw [h]
  · rw [h]; rfl
@[simp] theorem gearCheck_outPosts (s : State) (k : Nat) : (gearCheck s k).outPosts = s.outPosts := by
  unfold gearCheck
  simp only
  split
  · simp
  · unfold beginChange
    split <;> simp
@[simp] theorem noteIssue_outPosts (s : State) : (noteIssue s).outPosts = s.outPosts := by
  unfold noteIssue
  split
  · split <;> simp
  · rfl
@[simp] theorem leaveDoze_outPosts (s : State) (b : Bool) (a : Agent) : (leaveDoze s b a).outPosts = s.outPosts := by
  unfold leaveDoze
  split <;> simp
@[simp] theorem retire_outPosts (s : State) (npc : Word) : (retire s npc).outPosts = s.outPosts := by simp [retire]
@[simp] theorem idleCheck_migWaits (s : State) (k : Nat) : (idleCheck s k).migWaits = s.migWaits := by
  rcases idleCheck_cases s k with h | h
  · rw [h]
  · rw [h]; rfl
@[simp] theorem gearCheck_migWaits (s : State) (k : Nat) : (gearCheck s k).migWaits = s.migWaits := by
  unfold gearCheck
  simp only
  split
  · simp
  · unfold beginChange
    split <;> simp
@[simp] theorem noteIssue_migWaits (s : State) : (noteIssue s).migWaits = s.migWaits := by
  unfold noteIssue
  split
  · split <;> simp
  · rfl
@[simp] theorem leaveDoze_migWaits (s : State) (b : Bool) (a : Agent) : (leaveDoze s b a).migWaits = s.migWaits := by
  unfold leaveDoze
  split <;> simp
@[simp] theorem retire_migWaits (s : State) (npc : Word) : (retire s npc).migWaits = s.migWaits := by simp [retire]
@[simp] theorem idleCheck_nextImage (s : State) (k : Nat) : (idleCheck s k).nextImage = s.nextImage := by
  rcases idleCheck_cases s k with h | h
  · rw [h]
  · rw [h]; rfl
@[simp] theorem gearCheck_nextImage (s : State) (k : Nat) : (gearCheck s k).nextImage = s.nextImage := by
  unfold gearCheck
  simp only
  split
  · simp
  · unfold beginChange
    split <;> simp
@[simp] theorem noteIssue_nextImage (s : State) : (noteIssue s).nextImage = s.nextImage := by
  unfold noteIssue
  split
  · split <;> simp
  · rfl
@[simp] theorem leaveDoze_nextImage (s : State) (b : Bool) (a : Agent) : (leaveDoze s b a).nextImage = s.nextImage := by
  unfold leaveDoze
  split <;> simp
@[simp] theorem retire_nextImage (s : State) (npc : Word) : (retire s npc).nextImage = s.nextImage := by simp [retire]
@[simp] theorem idleCheck_engineDone (s : State) (k : Nat) : (idleCheck s k).engineDone = s.engineDone := by
  rcases idleCheck_cases s k with h | h
  · rw [h]
  · rw [h]; rfl
@[simp] theorem gearCheck_engineDone (s : State) (k : Nat) : (gearCheck s k).engineDone = s.engineDone := by
  unfold gearCheck
  simp only
  split
  · simp
  · unfold beginChange
    split <;> simp
@[simp] theorem noteIssue_engineDone (s : State) : (noteIssue s).engineDone = s.engineDone := by
  unfold noteIssue
  split
  · split <;> simp
  · rfl
@[simp] theorem leaveDoze_engineDone (s : State) (b : Bool) (a : Agent) : (leaveDoze s b a).engineDone = s.engineDone := by
  unfold leaveDoze
  split <;> simp
@[simp] theorem retire_engineDone (s : State) (npc : Word) : (retire s npc).engineDone = s.engineDone := by simp [retire]
@[simp] theorem idleCheck_peerReads (s : State) (k : Nat) : (idleCheck s k).peerReads = s.peerReads := by
  rcases idleCheck_cases s k with h | h
  · rw [h]
  · rw [h]; rfl
@[simp] theorem gearCheck_peerReads (s : State) (k : Nat) : (gearCheck s k).peerReads = s.peerReads := by
  unfold gearCheck
  simp only
  split
  · simp
  · unfold beginChange
    split <;> simp
@[simp] theorem noteIssue_peerReads (s : State) : (noteIssue s).peerReads = s.peerReads := by
  unfold noteIssue
  split
  · split <;> simp
  · rfl
@[simp] theorem leaveDoze_peerReads (s : State) (b : Bool) (a : Agent) : (leaveDoze s b a).peerReads = s.peerReads := by
  unfold leaveDoze
  split <;> simp
@[simp] theorem retire_peerReads (s : State) (npc : Word) : (retire s npc).peerReads = s.peerReads := by simp [retire]
@[simp] theorem idleCheck_peerData (s : State) (k : Nat) : (idleCheck s k).peerData = s.peerData := by
  rcases idleCheck_cases s k with h | h
  · rw [h]
  · rw [h]; rfl
@[simp] theorem gearCheck_peerData (s : State) (k : Nat) : (gearCheck s k).peerData = s.peerData := by
  unfold gearCheck
  simp only
  split
  · simp
  · unfold beginChange
    split <;> simp
@[simp] theorem noteIssue_peerData (s : State) : (noteIssue s).peerData = s.peerData := by
  unfold noteIssue
  split
  · split <;> simp
  · rfl
@[simp] theorem leaveDoze_peerData (s : State) (b : Bool) (a : Agent) : (leaveDoze s b a).peerData = s.peerData := by
  unfold leaveDoze
  split <;> simp
@[simp] theorem retire_peerData (s : State) (npc : Word) : (retire s npc).peerData = s.peerData := by simp [retire]
@[simp] theorem idleCheck_busOut (s : State) (k : Nat) : (idleCheck s k).busOut = s.busOut := by
  rcases idleCheck_cases s k with h | h
  · rw [h]
  · rw [h]; rfl
@[simp] theorem gearCheck_busOut (s : State) (k : Nat) : (gearCheck s k).busOut = s.busOut := by
  unfold gearCheck
  simp only
  split
  · simp
  · unfold beginChange
    split <;> simp
@[simp] theorem noteIssue_busOut (s : State) : (noteIssue s).busOut = s.busOut := by
  unfold noteIssue
  split
  · split <;> simp
  · rfl
@[simp] theorem leaveDoze_busOut (s : State) (b : Bool) (a : Agent) : (leaveDoze s b a).busOut = s.busOut := by
  unfold leaveDoze
  split <;> simp
@[simp] theorem retire_busOut (s : State) (npc : Word) : (retire s npc).busOut = s.busOut := by simp [retire]
@[simp] theorem idleCheck_linkOut (s : State) (k : Nat) : (idleCheck s k).linkOut = s.linkOut := by
  rcases idleCheck_cases s k with h | h
  · rw [h]
  · rw [h]; rfl
@[simp] theorem gearCheck_linkOut (s : State) (k : Nat) : (gearCheck s k).linkOut = s.linkOut := by
  unfold gearCheck
  simp only
  split
  · simp
  · unfold beginChange
    split <;> simp
@[simp] theorem noteIssue_linkOut (s : State) : (noteIssue s).linkOut = s.linkOut := by
  unfold noteIssue
  split
  · split <;> simp
  · rfl
@[simp] theorem leaveDoze_linkOut (s : State) (b : Bool) (a : Agent) : (leaveDoze s b a).linkOut = s.linkOut := by
  unfold leaveDoze
  split <;> simp
@[simp] theorem retire_linkOut (s : State) (npc : Word) : (retire s npc).linkOut = s.linkOut := by simp [retire]

/-! ## Agents through completing -/

theorem getAgent_gearCheck (s : State) (k : Nat) (b : Agent) : getAgent (gearCheck s k) b = getAgent s b := by
  unfold gearCheck
  simp only
  split
  · rcases idleCheck_cases (modTile s k (fun t => { t with doze := tileDozes s k })) k with h | h <;> rw [h] <;> simp
  · unfold beginChange
    split <;> simp

theorem getAgent_noteIssue (s : State) (b : Agent) : getAgent (noteIssue s) b = getAgent s b := by
  unfold noteIssue
  split
  · split <;> simp
  · rfl

theorem getAgent_leaveDoze (s : State) (d : Bool) (a b : Agent) : getAgent (leaveDoze s d a) b = getAgent s b := by
  unfold leaveDoze
  split
  · exact getAgent_gearCheck _ _ _
  · rfl

/-- The issuing agent after it has completed an instruction. -/
theorem getAgent_retire (s : State) (npc : Word) : getAgent (retire s npc) s.cur = consume (me s) npc := by
  rw [retire, getAgent_tick_other, getAgent_noteIssue, getAgent_leaveDoze]
  exact getAgent_modAgent s s.cur _

/-- Every other agent stands as before. -/
theorem getAgent_retire_ne (s : State) (npc : Word) {b : Agent} (h : b ≠ s.cur) : getAgent (retire s npc) b = getAgent s b := by
  rw [retire, getAgent_tick_other, getAgent_noteIssue, getAgent_leaveDoze]
  exact getAgent_modMe_ne s _ h

theorem getTile_noteIssue (s : State) (j : Nat) : getTile (noteIssue s) j = getTile s j := by
  unfold noteIssue
  split
  · split <;> simp
  · rfl

/-- Every byte of every pool stands as before. -/
theorem getTile_retire_pool (s : State) (npc : Word) (j : Nat) : (getTile (retire s npc) j).pool = (getTile s j).pool := by
  rw [retire, getTile_tick_other, getTile_noteIssue, leaveDoze]
  split
  · rw [getTile_gearCheck_pool, getTile_modMe_other]
  · rw [getTile_modMe_other]

/-! ## Words with an uncorrectable error (06 R178) -/

@[simp] theorem wordsHit_nil (off n : Nat) : wordsHit [] off n = false := rfl
@[simp] theorem wordsLeft_nil (off n : Nat) : wordsLeft [] off n = [] := rfl
@[simp] theorem wordsTorn_nil (off n : Nat) : wordsTorn [] off n = false := rfl

/-- A write of whole words leaves none of them with an error, so it reads nothing. -/
theorem wordsTorn_whole (bad : List Nat) {off n : Nat} (ho : off % 8 = 0) (hn : n % 8 = 0) : wordsTorn bad off n = false := by
  simp only [wordsTorn, wordsHit, wordsLeft, List.any_eq_false, List.mem_filter, Bool.not_eq_true', Bool.and_eq_true, Bool.and_eq_false_iff,
    decide_eq_true_eq, decide_eq_false_iff_not]
  omega

end Sys2Proof.Machine
end

