-- ==== Sys2Proof/Laws/Access.lean ====
section
/-!
SUPPORT. The address regions that the checks of an access distinguish (06 R157, R163; 05 R148).
-/

namespace Sys2Proof.Machine
theorem inWindow_iff (va : Nat) : inWindow va = true ↔ windowBase ≤ va ∧ va < 2 ^ 57 := by
  unfold inWindow
  rw [Bool.and_eq_true, decide_eq_true_iff, decide_eq_true_iff]
  have : windowBase + 0x10000000 = 2 ^ 57 := by decide
  rw [this]
theorem inOstler_iff (va : Nat) : inOstler va = true ↔ ostlerBase ≤ va ∧ va < windowBase := by
  unfold inOstler
  rw [Bool.and_eq_true, decide_eq_true_iff, decide_eq_true_iff]
theorem canonical_of_lt {va : Nat} (h : va < 2 ^ 57) : bits va 63 57 = 0 := by
  rw [bits, Nat.div_eq_of_lt h]; rfl
theorem not_canonical_of_le {va : Nat} (h : 2 ^ 57 ≤ va) (h2 : va < 2 ^ 64) : bits va 63 57 ≠ 0 := by
  unfold bits
  have h3 : va / 2 ^ 57 < 128 := by omega
  have h4 : 0 < va / 2 ^ 57 := by omega
  have : (2 : Nat) ^ (63 + 1 - 57) = 128 := by decide
  rw [this, Nat.mod_eq_of_lt h3]
  omega
end Sys2Proof.Machine
end

