-- ==== Sys2Proof/Laws/Arms.lean ====
section
/-!
SUPPORT. The arms of `exec`, one lemma for each constructor of `Instr`, so that no proof unfolds the whole match.
-/
namespace Sys2Proof.Machine

theorem exec_packageReset (strapHigh : Bool) (s : State) : exec (.packageReset strapHigh) s = execPackageReset strapHigh s := rfl
theorem exec_ppsEdge (s : State) : exec .ppsEdge s = execPpsEdge s := rfl
theorem exec_timeOfDayMessage (seconds : Nat) (s : State) : exec (.timeOfDayMessage seconds) s = execTimeOfDayMessage seconds s := rfl
theorem exec_junctionThrottle (source : Nat) (s : State) : exec (.junctionThrottle source) s = execJunctionThrottle source s := rfl
theorem exec_junctionShutdown (source : Nat) (s : State) : exec (.junctionShutdown source) s = execJunctionShutdown source s := rfl
theorem exec_wearTrigger (w : Wear) (s : State) : exec (.wearTrigger w) s = execWearTrigger w s := rfl
theorem exec_spareSwap (w : Wear) (s : State) : exec (.spareSwap w) s = execSpareSwap w s := rfl
theorem exec_roleMove (die : Nat) (position : Nat) (s : State) : exec (.roleMove die position) s = execRoleMove die position s := rfl
theorem exec_lossOfLock (port : Fin 36) (lane : Nat) (s : State) : exec (.lossOfLock port lane) s = execLossOfLock port lane s := rfl
theorem exec_healthWindow (cycles : List (Nat × Nat × Nat)) (s : State) : exec (.healthWindow cycles) s = execHealthWindow cycles s := rfl
theorem exec_timingReplay (tile : Nat) (s : State) : exec (.timingReplay tile) s = execTimingReplay tile s := rfl
theorem exec_idleFlit (port : Fin 36) (flit : List Byte) (s : State) : exec (.idleFlit port flit) s = execIdleFlit port flit s := rfl
theorem exec_dataFlit (port : Fin 36) (flit : List Byte) (s : State) : exec (.dataFlit port flit) s = execDataFlit port flit s := rfl
theorem exec_ackFlit (port : Fin 36) (flit : List Byte) (s : State) : exec (.ackFlit port flit) s = execAckFlit port flit s := rfl
theorem exec_nakFlit (port : Fin 36) (flit : List Byte) (s : State) : exec (.nakFlit port flit) s = execNakFlit port flit s := rfl
theorem exec_trainFlit (port : Fin 36) (flit : List Byte) (s : State) : exec (.trainFlit port flit) s = execTrainFlit port flit s := rfl
theorem exec_replayTimeout (port : Fin 36) (s : State) : exec (.replayTimeout port) s = execReplayTimeout port s := rfl
theorem exec_ackTimer (port : Fin 36) (s : State) : exec (.ackTimer port) s = execAckTimer port s := rfl
theorem exec_nakHoldoffExpiry (port : Fin 36) (s : State) : exec (.nakHoldoffExpiry port) s = execNakHoldoffExpiry port s := rfl
theorem exec_linkRetryBound (port : Fin 36) (s : State) : exec (.linkRetryBound port) s = execLinkRetryBound port s := rfl
theorem exec_trainingTimeout (port : Fin 36) (s : State) : exec (.trainingTimeout port) s = execTrainingTimeout port s := rfl
theorem exec_partnerReset (port : Fin 36) (s : State) : exec (.partnerReset port) s = execPartnerReset port s := rfl
theorem exec_noticeRecord (port : Fin 36) (s : State) : exec (.noticeRecord port) s = execNoticeRecord port s := rfl
theorem exec_classOHoldEnd (dest : Nat) (s : State) : exec (.classOHoldEnd dest) s = execClassOHoldEnd dest s := rfl
theorem exec_portDisable (port : Fin 36) (s : State) : exec (.portDisable port) s = execPortDisable port s := rfl
theorem exec_portTrain (port : Fin 36) (s : State) : exec (.portTrain port) s = execPortTrain port s := rfl
theorem exec_portReset (port : Fin 36) (s : State) : exec (.portReset port) s = execPortReset port s := rfl
theorem exec_swreq (s : State) : exec .swreq s = execSwreq s := rfl
theorem exec_bankSwitch (s : State) : exec .bankSwitch s = execBankSwitch s := rfl
theorem exec_routingBankWrite (offset : Nat) (value : Word) (s : State) : exec (.routingBankWrite offset value) s = execRoutingBankWrite offset value s := rfl
theorem exec_devnumWrite (value : Word) (s : State) : exec (.devnumWrite value) s = execDevnumWrite value s := rfl
theorem exec_transitPacket (port : Fin 36) (packet : Packet) (s : State) : exec (.transitPacket port packet) s = execTransitPacket port packet s := rfl
theorem exec_rd (packet : Packet) (s : State) : exec (.rd packet) s = execRd packet s := rfl
theorem exec_rdx (packet : Packet) (s : State) : exec (.rdx packet) s = execRdx packet s := rfl
theorem exec_wr (packet : Packet) (s : State) : exec (.wr packet) s = execWr packet s := rfl
theorem exec_amoPacket (packet : Packet) (s : State) : exec (.amoPacket packet) s = execAmoPacket packet s := rfl
theorem exec_wb (packet : Packet) (s : State) : exec (.wb packet) s = execWb packet s := rfl
theorem exec_snp (packet : Packet) (s : State) : exec (.snp packet) s = execSnp packet s := rfl
theorem exec_snprsp (packet : Packet) (s : State) : exec (.snprsp packet) s = execSnprsp packet s := rfl
theorem exec_dataPacket (packet : Packet) (s : State) : exec (.dataPacket packet) s = execDataPacket packet s := rfl
theorem exec_ackPacket (packet : Packet) (s : State) : exec (.ackPacket packet) s = execAckPacket packet s := rfl
theorem exec_inv (packet : Packet) (s : State) : exec (.inv packet) s = execInv packet s := rfl
theorem exec_trinvPacket (packet : Packet) (s : State) : exec (.trinvPacket packet) s = execTrinvPacket packet s := rfl
theorem exec_gen (packet : Packet) (s : State) : exec (.gen packet) s = execGen packet s := rfl
theorem exec_charge (packet : Packet) (s : State) : exec (.charge packet) s = execCharge packet s := rfl
theorem exec_mgmt (packet : Packet) (s : State) : exec (.mgmt packet) s = execMgmt packet s := rfl
theorem exec_notice (packet : Packet) (s : State) : exec (.notice packet) s = execNotice packet s := rfl
theorem exec_sendPacket (packet : Packet) (s : State) : exec (.sendPacket packet) s = execSendPacket packet s := rfl
theorem exec_courierPacket (packet : Packet) (s : State) : exec (.courierPacket packet) s = execCourierPacket packet s := rfl
theorem exec_msendPacket (packet : Packet) (s : State) : exec (.msendPacket packet) s = execMsendPacket packet s := rfl
theorem exec_draywr (packet : Packet) (s : State) : exec (.draywr packet) s = execDraywr packet s := rfl
theorem exec_killPacket (packet : Packet) (s : State) : exec (.killPacket packet) s = execKillPacket packet s := rfl
theorem exec_reply (r : FaultReply) (s : State) : exec (.reply r) s = execReply r s := rfl
theorem exec_reservedOpcode (packet : Packet) (s : State) : exec (.reservedOpcode packet) s = execReservedOpcode packet s := rfl
theorem exec_requestTimeout (tag : Nat) (s : State) : exec (.requestTimeout tag) s = execRequestTimeout tag s := rfl
theorem exec_goneClear (dev : Nat) (s : State) : exec (.goneClear dev) s = execGoneClear dev s := rfl
theorem exec_chargeSend (s : State) : exec .chargeSend s = execChargeSend s := rfl
theorem exec_snoopTimeout (granule : Nat) (s : State) : exec (.snoopTimeout granule) s = execSnoopTimeout granule s := rfl
theorem exec_peek (keyid : BitVec 8) (s : State) : exec (.peek keyid) s = execPeek keyid s := rfl
theorem exec_reclaimKeep (s : State) : exec .reclaimKeep s = execReclaimKeep s := rfl
theorem exec_reclaimData (keyid : BitVec 8) (s : State) : exec (.reclaimData keyid) s = execReclaimData keyid s := rfl
theorem exec_doorbell (offset : Nat) (size : Nat) (pasid : Option (BitVec 20)) (value : Word) (s : State) : exec (.doorbell offset size pasid value) s = execDoorbell offset size pasid value s := rfl
theorem exec_queueCreate (value : Word) (s : State) : exec (.queueCreate value) s = execQueueCreate value s := rfl
theorem exec_destroy (value : Word) (s : State) : exec (.destroy value) s = execDestroy value s := rfl
theorem exec_destroyKill (value : Word) (s : State) : exec (.destroyKill value) s = execDestroyKill value s := rfl
theorem exec_queueResume (value : Word) (s : State) : exec (.queueResume value) s = execQueueResume value s := rfl
theorem exec_packetFetch (queue : Nat) (hostBytes : List Byte) (s : State) : exec (.packetFetch queue hostBytes) s = execPacketFetch queue hostBytes s := rfl
theorem exec_fetchReread (queue : Nat) (hostBytes : List Byte) (s : State) : exec (.fetchReread queue hostBytes) s = execFetchReread queue hostBytes s := rfl
theorem exec_launchPacket (queue : Nat) (s : State) : exec (.launchPacket queue) s = execLaunchPacket queue s := rfl
theorem exec_relaunchPacket (queue : Nat) (s : State) : exec (.relaunchPacket queue) s = execRelaunchPacket queue s := rfl
theorem exec_coach (queue : Nat) (s : State) : exec (.coach queue) s = execCoach queue s := rfl
theorem exec_destroyPacket (queue : Nat) (s : State) : exec (.destroyPacket queue) s = execDestroyPacket queue s := rfl
theorem exec_signal (queue : Nat) (s : State) : exec (.signal queue) s = execSignal queue s := rfl
theorem exec_waitmem (queue : Nat) (s : State) : exec (.waitmem queue) s = execWaitmem queue s := rfl
theorem exec_waitmemPoll (queue : Nat) (s : State) : exec (.waitmemPoll queue) s = execWaitmemPoll queue s := rfl
theorem exec_nopPacket (queue : Nat) (s : State) : exec (.nopPacket queue) s = execNopPacket queue s := rfl
theorem exec_packetCompletion (queue : Nat) (s : State) : exec (.packetCompletion queue) s = execPacketCompletion queue s := rfl
theorem exec_timesliceExpiry (queues : List Nat) (s : State) : exec (.timesliceExpiry queues) s = execTimesliceExpiry queues s := rfl
theorem exec_partitionReset (mask : BitVec 8) (s : State) : exec (.partitionReset mask) s = execPartitionReset mask s := rfl
theorem exec_partcfgWrite (value : Word) (s : State) : exec (.partcfgWrite value) s = execPartcfgWrite value s := rfl
theorem exec_qhctlWrite (value : Word) (s : State) : exec (.qhctlWrite value) s = execQhctlWrite value s := rfl
theorem exec_ctxctlWrite (value : Word) (s : State) : exec (.ctxctlWrite value) s = execCtxctlWrite value s := rfl
theorem exec_errorRingSetup (toSize : Bool) (value : Word) (s : State) : exec (.errorRingSetup toSize value) s = execErrorRingSetup toSize value s := rfl
theorem exec_storageBlockWrite (partition : Fin 8) (offset : Nat) (value : Word) (s : State) : exec (.storageBlockWrite partition offset value) s = execStorageBlockWrite partition offset value s := rfl
theorem exec_bar4Read (offset : Nat) (length : Nat) (s : State) : exec (.bar4Read offset length) s = execBar4Read offset length s := rfl
theorem exec_bar4Write (offset : Nat) (bytes : List Byte) (relaxed : Bool) (s : State) : exec (.bar4Write offset bytes relaxed) s = execBar4Write offset bytes relaxed s := rfl
theorem exec_peerLoadTimeout (agent : Agent) (s : State) : exec (.peerLoadTimeout agent) s = execPeerLoadTimeout agent s := rfl
theorem exec_chunk (cmd : Word) (mctp : Option (List Byte)) (s : State) : exec (.chunk cmd mctp) s = execChunk cmd mctp s := rfl
theorem exec_commit (cmd : Word) (s : State) : exec (.commit cmd) s = execCommit cmd s := rfl
theorem exec_attest (mctpNonce : Option (List Byte)) (s : State) : exec (.attest mctpNonce) s = execAttest mctpNonce s := rfl
theorem exec_reboot (s : State) : exec .reboot s = execReboot s := rfl
theorem exec_abort (s : State) : exec .abort s = execAbort s := rfl
theorem exec_hotPatchApply (s : State) : exec .hotPatchApply s = execHotPatchApply s := rfl
theorem exec_patchTimeout (s : State) : exec .patchTimeout s = execPatchTimeout s := rfl
theorem exec_bindRecordWrite (cluster : Nat) (slot : Nat) (offset : Nat) (bytes : List Byte) (s : State) : exec (.bindRecordWrite cluster slot offset bytes) s = execBindRecordWrite cluster slot offset bytes s := rfl
theorem exec_blockDispatch (cluster : Nat) (slot : Nat) (core : Nat) (s : State) : exec (.blockDispatch cluster slot core) s = execBlockDispatch cluster slot core s := rfl
theorem exec_blockActivation (strand : Nat) (s : State) : exec (.blockActivation strand) s = execBlockActivation strand s := rfl
theorem exec_mfwWrite (cluster : Nat) (value : Word) (s : State) : exec (.mfwWrite cluster value) s = execMfwWrite cluster value s := rfl
theorem exec_cut (arg : BitVec 32) (s : State) : exec (.cut arg) s = execCut arg s := rfl
theorem exec_dispatchResume (tile : Nat) (s : State) : exec (.dispatchResume tile) s = execDispatchResume tile s := rfl
theorem exec_kill (ctx : BitVec 32) (s : State) : exec (.kill ctx) s = execKill ctx s := rfl
theorem exec_killFenceEnd (ctx : BitVec 32) (s : State) : exec (.killFenceEnd ctx) s = execKillFenceEnd ctx s := rfl
theorem exec_hold (ctx : BitVec 32) (s : State) : exec (.hold ctx) s = execHold ctx s := rfl
theorem exec_release (ctx : BitVec 32) (s : State) : exec (.release ctx) s = execRelease ctx s := rfl
theorem exec_fareEstimate (counted : Option (List FareEvent)) (s : State) : exec (.fareEstimate counted) s = execFareEstimate counted s := rfl
theorem exec_fgrant (value : Word) (s : State) : exec (.fgrant value) s = execFgrant value s := rfl
theorem exec_trinvRange (value : Word) (s : State) : exec (.trinvRange value) s = execTrinvRange value s := rfl
theorem exec_trinvAll (value : Word) (s : State) : exec (.trinvAll value) s = execTrinvAll value s := rfl
theorem exec_trinvGrants (value : Word) (s : State) : exec (.trinvGrants value) s = execTrinvGrants value s := rfl
theorem exec_migReread (agent : Agent) (s : State) : exec (.migReread agent) s = execMigReread agent s := rfl
theorem exec_gearRailSettled (tile : Nat) (s : State) : exec (.gearRailSettled tile) s = execGearRailSettled tile s := rfl
theorem exec_l2RailLower (cluster : Nat) (s : State) : exec (.l2RailLower cluster) s = execL2RailLower cluster s := rfl
theorem exec_park (tile : Nat) (s : State) : exec (.park tile) s = execPark tile s := rfl
theorem exec_wake (tile : Nat) (s : State) : exec (.wake tile) s = execWake tile s := rfl
theorem exec_lattolWrite (partition : Fin 8) (value : Word) (s : State) : exec (.lattolWrite partition value) s = execLattolWrite partition value s := rfl
theorem exec_dragStep (cluster : Nat) (s : State) : exec (.dragStep cluster) s = execDragStep cluster s := rfl
theorem exec_clockMaskAdjust (cluster : Nat) (powerW : Nat) (hot : Bool) (s : State) : exec (.clockMaskAdjust cluster powerW hot) s = execClockMaskAdjust cluster powerW hot s := rfl
theorem exec_triggerLatch (strand : Nat) (s : State) : exec (.triggerLatch strand) s = execTriggerLatch strand s := rfl
theorem exec_courierStart (core : Nat) (s : State) : exec (.courierStart core) s = execCourierStart core s := rfl
theorem exec_matrixCommandStart (tile : Nat) (s : State) : exec (.matrixCommandStart tile) s = execMatrixCommandStart tile s := rfl
theorem exec_kStep (tile : Nat) (s : State) : exec (.kStep tile) s = execKStep tile s := rfl
theorem exec_draySegment (tile : Nat) (channel : Fin 4) (s : State) : exec (.draySegment tile channel) s = execDraySegment tile channel s := rfl
theorem exec_drayApertureStart (line : Nat × BitVec 32) (channel : Fin 4) (data : Word) (s : State) : exec (.drayApertureStart line channel data) s = execDrayApertureStart line channel data s := rfl
theorem exec_storageCompletion (tile : Nat) (channel : Fin 4) (cid : Nat) (statusOk : Bool) (s : State) : exec (.storageCompletion tile channel cid statusOk) s = execStorageCompletion tile channel cid statusOk s := rfl
theorem exec_storageTimeout (tile : Nat) (channel : Fin 4) (cid : Nat) (s : State) : exec (.storageTimeout tile channel cid) s = execStorageTimeout tile channel cid s := rfl
theorem exec_streamTransfer (strand : Nat) (q : Fin 8) (s : State) : exec (.streamTransfer strand q) s = execStreamTransfer strand q s := rfl
theorem exec_feltCommandExecute (array : Fin 8) (s : State) : exec (.feltCommandExecute array) s = execFeltCommandExecute array s := rfl
theorem exec_feltLoadEnd (array : Fin 8) (s : State) : exec (.feltLoadEnd array) s = execFeltLoadEnd array s := rfl
theorem exec_settleDetect (array : Fin 8) (s : State) : exec (.settleDetect array) s = execSettleDetect array s := rfl
theorem exec_feltRunmax (array : Fin 8) (s : State) : exec (.feltRunmax array) s = execFeltRunmax array s := rfl
theorem exec_feltSaturation (array : Fin 8) (summer : Bool) (element : Nat) (s : State) : exec (.feltSaturation array summer element) s = execFeltSaturation array summer element s := rfl
theorem exec_holdTimeout (array : Fin 8) (s : State) : exec (.holdTimeout array) s = execHoldTimeout array s := rfl
theorem exec_feltConversion (array : Fin 8) (s : State) : exec (.feltConversion array) s = execFeltConversion array s := rfl
theorem exec_calibration (array : Fin 8) (s : State) : exec (.calibration array) s = execCalibration array s := rfl
theorem exec_carriagePiece (coach : Nat) (index : Nat) (offset : Nat) (bytes : List Byte) (s : State) : exec (.carriagePiece coach index offset bytes) s = execCarriagePiece coach index offset bytes s := rfl
theorem exec_carriageFetchFail (coach : Nat) (index : Nat) (code : BitVec 7) (s : State) : exec (.carriageFetchFail coach index code) s = execCarriageFetchFail coach index code s := rfl
theorem exec_eviction (coach : Nat) (index : Nat) (s : State) : exec (.eviction coach index) s = execEviction coach index s := rfl
theorem exec_relaunchRound (run : BitVec 32) (s : State) : exec (.relaunchRound run) s = execRelaunchRound run s := rfl
theorem exec_registerWrite (window : RegWindow) (offset : Nat) (value : Word) (s : State) : exec (.registerWrite window offset value) s = execRegisterWrite window offset value s := rfl
theorem exec_settleTimeout (agent : Agent) (s : State) : exec (.settleTimeout agent) s = execSettleTimeout agent s := rfl
theorem exec_peerReadCompletion (agent : Agent) (ok : Bool) (bytes : List Byte) (s : State) : exec (.peerReadCompletion agent ok bytes) s = execPeerReadCompletion agent ok bytes s := rfl
theorem exec_partitionResetEnd (partition : Fin 8) (s : State) : exec (.partitionResetEnd partition) s = execPartitionResetEnd partition s := rfl
theorem exec_matrixCommandEnd (tile : Nat) (s : State) : exec (.matrixCommandEnd tile) s = execMatrixCommandEnd tile s := rfl
theorem exec_carriageEvicted (coach : Nat) (index : Nat) (s : State) : exec (.carriageEvicted coach index) s = execCarriageEvicted coach index s := rfl
theorem exec_l2RailRisen (cluster : Nat) (s : State) : exec (.l2RailRisen cluster) s = execL2RailRisen cluster s := rfl
theorem exec_wearingLaneReplace (port : Fin 36) (lane : Nat) (s : State) : exec (.wearingLaneReplace port lane) s = execWearingLaneReplace port lane s := rfl
theorem exec_lockAcquired (port : Fin 36) (lanes : BitVec 16) (s : State) : exec (.lockAcquired port lanes) s = execLockAcquired port lanes s := rfl
theorem exec_ill (x : BitVec 26) (s : State) : exec (.ill x) s = execIll x s := rfl
theorem exec_add (d : BitVec 5) (a : BitVec 5) (b : BitVec 5) (w : BitVec 1) (s : State) : exec (.add d a b w) s = execAdd d a b w s := rfl
theorem exec_sub (d : BitVec 5) (a : BitVec 5) (b : BitVec 5) (w : BitVec 1) (s : State) : exec (.sub d a b w) s = execSub d a b w s := rfl
theorem exec_and (d : BitVec 5) (a : BitVec 5) (b : BitVec 5) (w : BitVec 1) (s : State) : exec (.and d a b w) s = execAnd d a b w s := rfl
theorem exec_or (d : BitVec 5) (a : BitVec 5) (b : BitVec 5) (w : BitVec 1) (s : State) : exec (.or d a b w) s = execOr d a b w s := rfl
theorem exec_xor (d : BitVec 5) (a : BitVec 5) (b : BitVec 5) (w : BitVec 1) (s : State) : exec (.xor d a b w) s = execXor d a b w s := rfl
theorem exec_andn (d : BitVec 5) (a : BitVec 5) (b : BitVec 5) (w : BitVec 1) (s : State) : exec (.andn d a b w) s = execAndn d a b w s := rfl
theorem exec_sll (d : BitVec 5) (a : BitVec 5) (b : BitVec 5) (w : BitVec 1) (s : State) : exec (.sll d a b w) s = execSll d a b w s := rfl
theorem exec_srl (d : BitVec 5) (a : BitVec 5) (b : BitVec 5) (w : BitVec 1) (s : State) : exec (.srl d a b w) s = execSrl d a b w s := rfl
theorem exec_sra (d : BitVec 5) (a : BitVec 5) (b : BitVec 5) (w : BitVec 1) (s : State) : exec (.sra d a b w) s = execSra d a b w s := rfl
theorem exec_slt (d : BitVec 5) (a : BitVec 5) (b : BitVec 5) (w : BitVec 1) (s : State) : exec (.slt d a b w) s = execSlt d a b w s := rfl
theorem exec_sltu (d : BitVec 5) (a : BitVec 5) (b : BitVec 5) (w : BitVec 1) (s : State) : exec (.sltu d a b w) s = execSltu d a b w s := rfl
theorem exec_min (d : BitVec 5) (a : BitVec 5) (b : BitVec 5) (w : BitVec 1) (s : State) : exec (.min d a b w) s = execMin d a b w s := rfl
theorem exec_max (d : BitVec 5) (a : BitVec 5) (b : BitVec 5) (w : BitVec 1) (s : State) : exec (.max d a b w) s = execMax d a b w s := rfl
theorem exec_minu (d : BitVec 5) (a : BitVec 5) (b : BitVec 5) (w : BitVec 1) (s : State) : exec (.minu d a b w) s = execMinu d a b w s := rfl
theorem exec_maxu (d : BitVec 5) (a : BitVec 5) (b : BitVec 5) (w : BitVec 1) (s : State) : exec (.maxu d a b w) s = execMaxu d a b w s := rfl
theorem exec_clz (d : BitVec 5) (a : BitVec 5) (w : BitVec 1) (s : State) : exec (.clz d a w) s = execClz d a w s := rfl
theorem exec_ctz (d : BitVec 5) (a : BitVec 5) (w : BitVec 1) (s : State) : exec (.ctz d a w) s = execCtz d a w s := rfl
theorem exec_popc (d : BitVec 5) (a : BitVec 5) (w : BitVec 1) (s : State) : exec (.popc d a w) s = execPopc d a w s := rfl
theorem exec_mul (d : BitVec 5) (a : BitVec 5) (b : BitVec 5) (w : BitVec 1) (s : State) : exec (.mul d a b w) s = execMul d a b w s := rfl
theorem exec_mulh (d : BitVec 5) (a : BitVec 5) (b : BitVec 5) (s : State) : exec (.mulh d a b) s = execMulh d a b s := rfl
theorem exec_mulhu (d : BitVec 5) (a : BitVec 5) (b : BitVec 5) (s : State) : exec (.mulhu d a b) s = execMulhu d a b s := rfl
theorem exec_mulhsu (d : BitVec 5) (a : BitVec 5) (b : BitVec 5) (s : State) : exec (.mulhsu d a b) s = execMulhsu d a b s := rfl
theorem exec_div (d : BitVec 5) (a : BitVec 5) (b : BitVec 5) (w : BitVec 1) (s : State) : exec (.div d a b w) s = execDiv d a b w s := rfl
theorem exec_divu (d : BitVec 5) (a : BitVec 5) (b : BitVec 5) (w : BitVec 1) (s : State) : exec (.divu d a b w) s = execDivu d a b w s := rfl
theorem exec_rem (d : BitVec 5) (a : BitVec 5) (b : BitVec 5) (w : BitVec 1) (s : State) : exec (.rem d a b w) s = execRem d a b w s := rfl
theorem exec_remu (d : BitVec 5) (a : BitVec 5) (b : BitVec 5) (w : BitVec 1) (s : State) : exec (.remu d a b w) s = execRemu d a b w s := rfl
theorem exec_addi (d : BitVec 5) (a : BitVec 5) (v_i : BitVec 16) (s : State) : exec (.addi d a v_i) s = execAddi d a v_i s := rfl
theorem exec_andi (d : BitVec 5) (a : BitVec 5) (v_i : BitVec 16) (s : State) : exec (.andi d a v_i) s = execAndi d a v_i s := rfl
theorem exec_ori (d : BitVec 5) (a : BitVec 5) (v_i : BitVec 16) (s : State) : exec (.ori d a v_i) s = execOri d a v_i s := rfl
theorem exec_xori (d : BitVec 5) (a : BitVec 5) (v_i : BitVec 16) (s : State) : exec (.xori d a v_i) s = execXori d a v_i s := rfl
theorem exec_slli (d : BitVec 5) (a : BitVec 5) (w : BitVec 1) (v_s : BitVec 6) (s : State) : exec (.slli d a w v_s) s = execSlli d a w v_s s := rfl
theorem exec_srli (d : BitVec 5) (a : BitVec 5) (w : BitVec 1) (v_s : BitVec 6) (s : State) : exec (.srli d a w v_s) s = execSrli d a w v_s s := rfl
theorem exec_srai (d : BitVec 5) (a : BitVec 5) (w : BitVec 1) (v_s : BitVec 6) (s : State) : exec (.srai d a w v_s) s = execSrai d a w v_s s := rfl
theorem exec_slti (d : BitVec 5) (a : BitVec 5) (v_i : BitVec 16) (s : State) : exec (.slti d a v_i) s = execSlti d a v_i s := rfl
theorem exec_sltiu (d : BitVec 5) (a : BitVec 5) (v_i : BitVec 16) (s : State) : exec (.sltiu d a v_i) s = execSltiu d a v_i s := rfl
theorem exec_lui (d : BitVec 5) (v_i : BitVec 21) (s : State) : exec (.lui d v_i) s = execLui d v_i s := rfl
theorem exec_auipc (d : BitVec 5) (v_i : BitVec 21) (s : State) : exec (.auipc d v_i) s = execAuipc d v_i s := rfl
theorem exec_ldx (d : BitVec 5) (a : BitVec 5) (b : BitVec 5) (w : BitVec 3) (s : State) : exec (.ldx d a b w) s = execLdx d a b w s := rfl
theorem exec_fadd (d : BitVec 5) (a : BitVec 5) (b : BitVec 5) (p : BitVec 1) (s : State) : exec (.fadd d a b p) s = execFadd d a b p s := rfl
theorem exec_fsub (d : BitVec 5) (a : BitVec 5) (b : BitVec 5) (p : BitVec 1) (s : State) : exec (.fsub d a b p) s = execFsub d a b p s := rfl
theorem exec_fmul (d : BitVec 5) (a : BitVec 5) (b : BitVec 5) (p : BitVec 1) (s : State) : exec (.fmul d a b p) s = execFmul d a b p s := rfl
theorem exec_fdiv (d : BitVec 5) (a : BitVec 5) (b : BitVec 5) (p : BitVec 1) (s : State) : exec (.fdiv d a b p) s = execFdiv d a b p s := rfl
theorem exec_fsqrt (d : BitVec 5) (a : BitVec 5) (p : BitVec 1) (s : State) : exec (.fsqrt d a p) s = execFsqrt d a p s := rfl
theorem exec_fmin (d : BitVec 5) (a : BitVec 5) (b : BitVec 5) (p : BitVec 1) (s : State) : exec (.fmin d a b p) s = execFmin d a b p s := rfl
theorem exec_fmax (d : BitVec 5) (a : BitVec 5) (b : BitVec 5) (p : BitVec 1) (s : State) : exec (.fmax d a b p) s = execFmax d a b p s := rfl
theorem exec_fsgnj (d : BitVec 5) (a : BitVec 5) (b : BitVec 5) (p : BitVec 1) (s : State) : exec (.fsgnj d a b p) s = execFsgnj d a b p s := rfl
theorem exec_fsgnjn (d : BitVec 5) (a : BitVec 5) (b : BitVec 5) (p : BitVec 1) (s : State) : exec (.fsgnjn d a b p) s = execFsgnjn d a b p s := rfl
theorem exec_fsgnjx (d : BitVec 5) (a : BitVec 5) (b : BitVec 5) (p : BitVec 1) (s : State) : exec (.fsgnjx d a b p) s = execFsgnjx d a b p s := rfl
theorem exec_feq (d : BitVec 5) (a : BitVec 5) (b : BitVec 5) (p : BitVec 1) (s : State) : exec (.feq d a b p) s = execFeq d a b p s := rfl
theorem exec_flt (d : BitVec 5) (a : BitVec 5) (b : BitVec 5) (p : BitVec 1) (s : State) : exec (.flt d a b p) s = execFlt d a b p s := rfl
theorem exec_fle (d : BitVec 5) (a : BitVec 5) (b : BitVec 5) (p : BitVec 1) (s : State) : exec (.fle d a b p) s = execFle d a b p s := rfl
theorem exec_fmadd (d : BitVec 5) (a : BitVec 5) (b : BitVec 5) (c : BitVec 5) (p : BitVec 1) (s : State) : exec (.fmadd d a b c p) s = execFmadd d a b c p s := rfl
theorem exec_fmsub (d : BitVec 5) (a : BitVec 5) (b : BitVec 5) (c : BitVec 5) (p : BitVec 1) (s : State) : exec (.fmsub d a b c p) s = execFmsub d a b c p s := rfl
theorem exec_fnmadd (d : BitVec 5) (a : BitVec 5) (b : BitVec 5) (c : BitVec 5) (p : BitVec 1) (s : State) : exec (.fnmadd d a b c p) s = execFnmadd d a b c p s := rfl
theorem exec_fnmsub (d : BitVec 5) (a : BitVec 5) (b : BitVec 5) (c : BitVec 5) (p : BitVec 1) (s : State) : exec (.fnmsub d a b c p) s = execFnmsub d a b c p s := rfl
theorem exec_fcvt (d : BitVec 5) (a : BitVec 5) (t : BitVec 4) (v_s : BitVec 4) (s : State) : exec (.fcvt d a t v_s) s = execFcvt d a t v_s s := rfl
theorem exec_fclass (d : BitVec 5) (a : BitVec 5) (v_s : BitVec 4) (s : State) : exec (.fclass d a v_s) s = execFclass d a v_s s := rfl
theorem exec_beq (a : BitVec 5) (b : BitVec 5) (o : BitVec 13) (s : State) : exec (.beq a b o) s = execBeq a b o s := rfl
theorem exec_bne (a : BitVec 5) (b : BitVec 5) (o : BitVec 13) (s : State) : exec (.bne a b o) s = execBne a b o s := rfl
theorem exec_blt (a : BitVec 5) (b : BitVec 5) (o : BitVec 13) (s : State) : exec (.blt a b o) s = execBlt a b o s := rfl
theorem exec_bge (a : BitVec 5) (b : BitVec 5) (o : BitVec 13) (s : State) : exec (.bge a b o) s = execBge a b o s := rfl
theorem exec_bltu (a : BitVec 5) (b : BitVec 5) (o : BitVec 13) (s : State) : exec (.bltu a b o) s = execBltu a b o s := rfl
theorem exec_bgeu (a : BitVec 5) (b : BitVec 5) (o : BitVec 13) (s : State) : exec (.bgeu a b o) s = execBgeu a b o s := rfl
theorem exec_bmany (a : BitVec 5) (o : BitVec 13) (s : State) : exec (.bmany a o) s = execBmany a o s := rfl
theorem exec_bmnone (a : BitVec 5) (o : BitVec 13) (s : State) : exec (.bmnone a o) s = execBmnone a o s := rfl
theorem exec_jal (d : BitVec 5) (v_i : BitVec 21) (s : State) : exec (.jal d v_i) s = execJal d v_i s := rfl
theorem exec_jalr (d : BitVec 5) (a : BitVec 5) (v_i : BitVec 16) (s : State) : exec (.jalr d a v_i) s = execJalr d a v_i s := rfl
theorem exec_sysc (d : BitVec 5) (a : BitVec 5) (c : BitVec 12) (s : State) : exec (.sysc d a c) s = execSysc d a c s := rfl
theorem exec_brk (c : BitVec 12) (s : State) : exec (.brk c) s = execBrk c s := rfl
theorem exec_exit (s : State) : exec .exit s = execExit s := rfl
theorem exec_yield (s : State) : exec .yield s = execYield s := rfl
theorem exec_svcRecv (d : BitVec 5) (a : BitVec 5) (s : State) : exec (.svcRecv d a) s = execSvcRecv d a s := rfl
theorem exec_svcResume (d : BitVec 5) (a : BitVec 5) (c : BitVec 12) (s : State) : exec (.svcResume d a c) s = execSvcResume d a c s := rfl
theorem exec_svcKill (a : BitVec 5) (s : State) : exec (.svcKill a) s = execSvcKill a s := rfl
theorem exec_csrr (d : BitVec 5) (n : BitVec 12) (s : State) : exec (.csrr d n) s = execCsrr d n s := rfl
theorem exec_csrw (d : BitVec 5) (a : BitVec 5) (n : BitVec 12) (s : State) : exec (.csrw d a n) s = execCsrw d a n s := rfl
theorem exec_csrs (d : BitVec 5) (a : BitVec 5) (n : BitVec 12) (s : State) : exec (.csrs d a n) s = execCsrs d a n s := rfl
theorem exec_csrc (d : BitVec 5) (a : BitVec 5) (n : BitVec 12) (s : State) : exec (.csrc d a n) s = execCsrc d a n s := rfl
theorem exec_gear (d : BitVec 5) (g : BitVec 1) (s : State) : exec (.gear d g) s = execGear d g s := rfl
theorem exec_send (d : BitVec 5) (a : BitVec 5) (b : BitVec 5) (s : State) : exec (.send d a b) s = execSend d a b s := rfl
theorem exec_courier (a : BitVec 5) (b : BitVec 5) (s : State) : exec (.courier a b) s = execCourier a b s := rfl
theorem exec_bind (a : BitVec 5) (b : BitVec 5) (s : State) : exec (.bind a b) s = execBind a b s := rfl
theorem exec_unbind (b : BitVec 5) (s : State) : exec (.unbind b) s = execUnbind b s := rfl
theorem exec_launch (d : BitVec 5) (a : BitVec 5) (b : BitVec 5) (s : State) : exec (.launch d a b) s = execLaunch d a b s := rfl
theorem exec_relaunch (d : BitVec 5) (a : BitVec 5) (b : BitVec 5) (l : BitVec 8) (s : State) : exec (.relaunch d a b l) s = execRelaunch d a b l s := rfl
theorem exec_wbSkip (a : BitVec 5) (b : BitVec 5) (s : State) : exec (.wbSkip a b) s = execWbSkip a b s := rfl
theorem exec_wbAll (s : State) : exec .wbAll s = execWbAll s := rfl
theorem exec_vadd (d : BitVec 5) (a : BitVec 5) (b : BitVec 5) (m : BitVec 3) (e : BitVec 2) (x : BitVec 1) (s : State) : exec (.vadd d a b m e x) s = execVadd d a b m e x s := rfl
theorem exec_vsub (d : BitVec 5) (a : BitVec 5) (b : BitVec 5) (m : BitVec 3) (e : BitVec 2) (x : BitVec 1) (s : State) : exec (.vsub d a b m e x) s = execVsub d a b m e x s := rfl
theorem exec_vand (d : BitVec 5) (a : BitVec 5) (b : BitVec 5) (m : BitVec 3) (e : BitVec 2) (x : BitVec 1) (s : State) : exec (.vand d a b m e x) s = execVand d a b m e x s := rfl
theorem exec_vor (d : BitVec 5) (a : BitVec 5) (b : BitVec 5) (m : BitVec 3) (e : BitVec 2) (x : BitVec 1) (s : State) : exec (.vor d a b m e x) s = execVor d a b m e x s := rfl
theorem exec_vxor (d : BitVec 5) (a : BitVec 5) (b : BitVec 5) (m : BitVec 3) (e : BitVec 2) (x : BitVec 1) (s : State) : exec (.vxor d a b m e x) s = execVxor d a b m e x s := rfl
theorem exec_vandn (d : BitVec 5) (a : BitVec 5) (b : BitVec 5) (m : BitVec 3) (e : BitVec 2) (x : BitVec 1) (s : State) : exec (.vandn d a b m e x) s = execVandn d a b m e x s := rfl
theorem exec_vsll (d : BitVec 5) (a : BitVec 5) (b : BitVec 5) (m : BitVec 3) (e : BitVec 2) (x : BitVec 1) (s : State) : exec (.vsll d a b m e x) s = execVsll d a b m e x s := rfl
theorem exec_vsrl (d : BitVec 5) (a : BitVec 5) (b : BitVec 5) (m : BitVec 3) (e : BitVec 2) (x : BitVec 1) (s : State) : exec (.vsrl d a b m e x) s = execVsrl d a b m e x s := rfl
theorem exec_vsra (d : BitVec 5) (a : BitVec 5) (b : BitVec 5) (m : BitVec 3) (e : BitVec 2) (x : BitVec 1) (s : State) : exec (.vsra d a b m e x) s = execVsra d a b m e x s := rfl
theorem exec_vmin (d : BitVec 5) (a : BitVec 5) (b : BitVec 5) (m : BitVec 3) (e : BitVec 2) (x : BitVec 1) (s : State) : exec (.vmin d a b m e x) s = execVmin d a b m e x s := rfl
theorem exec_vmax (d : BitVec 5) (a : BitVec 5) (b : BitVec 5) (m : BitVec 3) (e : BitVec 2) (x : BitVec 1) (s : State) : exec (.vmax d a b m e x) s = execVmax d a b m e x s := rfl
theorem exec_vminu (d : BitVec 5) (a : BitVec 5) (b : BitVec 5) (m : BitVec 3) (e : BitVec 2) (x : BitVec 1) (s : State) : exec (.vminu d a b m e x) s = execVminu d a b m e x s := rfl
theorem exec_vmaxu (d : BitVec 5) (a : BitVec 5) (b : BitVec 5) (m : BitVec 3) (e : BitVec 2) (x : BitVec 1) (s : State) : exec (.vmaxu d a b m e x) s = execVmaxu d a b m e x s := rfl
theorem exec_vmul (d : BitVec 5) (a : BitVec 5) (b : BitVec 5) (m : BitVec 3) (e : BitVec 2) (x : BitVec 1) (s : State) : exec (.vmul d a b m e x) s = execVmul d a b m e x s := rfl
theorem exec_vmulh (d : BitVec 5) (a : BitVec 5) (b : BitVec 5) (m : BitVec 3) (e : BitVec 2) (x : BitVec 1) (s : State) : exec (.vmulh d a b m e x) s = execVmulh d a b m e x s := rfl
theorem exec_vmulhu (d : BitVec 5) (a : BitVec 5) (b : BitVec 5) (m : BitVec 3) (e : BitVec 2) (x : BitVec 1) (s : State) : exec (.vmulhu d a b m e x) s = execVmulhu d a b m e x s := rfl
theorem exec_vsadd (d : BitVec 5) (a : BitVec 5) (b : BitVec 5) (m : BitVec 3) (e : BitVec 2) (x : BitVec 1) (s : State) : exec (.vsadd d a b m e x) s = execVsadd d a b m e x s := rfl
theorem exec_vsaddu (d : BitVec 5) (a : BitVec 5) (b : BitVec 5) (m : BitVec 3) (e : BitVec 2) (x : BitVec 1) (s : State) : exec (.vsaddu d a b m e x) s = execVsaddu d a b m e x s := rfl
theorem exec_vssub (d : BitVec 5) (a : BitVec 5) (b : BitVec 5) (m : BitVec 3) (e : BitVec 2) (x : BitVec 1) (s : State) : exec (.vssub d a b m e x) s = execVssub d a b m e x s := rfl
theorem exec_vssubu (d : BitVec 5) (a : BitVec 5) (b : BitVec 5) (m : BitVec 3) (e : BitVec 2) (x : BitVec 1) (s : State) : exec (.vssubu d a b m e x) s = execVssubu d a b m e x s := rfl
theorem exec_vfadd (d : BitVec 5) (a : BitVec 5) (b : BitVec 5) (m : BitVec 3) (e : BitVec 2) (x : BitVec 1) (s : State) : exec (.vfadd d a b m e x) s = execVfadd d a b m e x s := rfl
theorem exec_vfsub (d : BitVec 5) (a : BitVec 5) (b : BitVec 5) (m : BitVec 3) (e : BitVec 2) (x : BitVec 1) (s : State) : exec (.vfsub d a b m e x) s = execVfsub d a b m e x s := rfl
theorem exec_vfmul (d : BitVec 5) (a : BitVec 5) (b : BitVec 5) (m : BitVec 3) (e : BitVec 2) (x : BitVec 1) (s : State) : exec (.vfmul d a b m e x) s = execVfmul d a b m e x s := rfl
theorem exec_vfdiv (d : BitVec 5) (a : BitVec 5) (b : BitVec 5) (m : BitVec 3) (e : BitVec 2) (x : BitVec 1) (s : State) : exec (.vfdiv d a b m e x) s = execVfdiv d a b m e x s := rfl
theorem exec_vfsqrt (d : BitVec 5) (a : BitVec 5) (m : BitVec 3) (e : BitVec 2) (s : State) : exec (.vfsqrt d a m e) s = execVfsqrt d a m e s := rfl
theorem exec_vfmin (d : BitVec 5) (a : BitVec 5) (b : BitVec 5) (m : BitVec 3) (e : BitVec 2) (x : BitVec 1) (s : State) : exec (.vfmin d a b m e x) s = execVfmin d a b m e x s := rfl
theorem exec_vfmax (d : BitVec 5) (a : BitVec 5) (b : BitVec 5) (m : BitVec 3) (e : BitVec 2) (x : BitVec 1) (s : State) : exec (.vfmax d a b m e x) s = execVfmax d a b m e x s := rfl
theorem exec_vfsgnj (d : BitVec 5) (a : BitVec 5) (b : BitVec 5) (m : BitVec 3) (e : BitVec 2) (x : BitVec 1) (s : State) : exec (.vfsgnj d a b m e x) s = execVfsgnj d a b m e x s := rfl
theorem exec_vfsgnjn (d : BitVec 5) (a : BitVec 5) (b : BitVec 5) (m : BitVec 3) (e : BitVec 2) (x : BitVec 1) (s : State) : exec (.vfsgnjn d a b m e x) s = execVfsgnjn d a b m e x s := rfl
theorem exec_vfsgnjx (d : BitVec 5) (a : BitVec 5) (b : BitVec 5) (m : BitVec 3) (e : BitVec 2) (x : BitVec 1) (s : State) : exec (.vfsgnjx d a b m e x) s = execVfsgnjx d a b m e x s := rfl
theorem exec_vfmadd (d : BitVec 5) (a : BitVec 5) (b : BitVec 5) (c : BitVec 5) (m : BitVec 3) (f : BitVec 2) (s : State) : exec (.vfmadd d a b c m f) s = execVfmadd d a b c m f s := rfl
theorem exec_vfmsub (d : BitVec 5) (a : BitVec 5) (b : BitVec 5) (c : BitVec 5) (m : BitVec 3) (f : BitVec 2) (s : State) : exec (.vfmsub d a b c m f) s = execVfmsub d a b c m f s := rfl
theorem exec_vfnmadd (d : BitVec 5) (a : BitVec 5) (b : BitVec 5) (c : BitVec 5) (m : BitVec 3) (f : BitVec 2) (s : State) : exec (.vfnmadd d a b c m f) s = execVfnmadd d a b c m f s := rfl
theorem exec_vfnmsub (d : BitVec 5) (a : BitVec 5) (b : BitVec 5) (c : BitVec 5) (m : BitVec 3) (f : BitVec 2) (s : State) : exec (.vfnmsub d a b c m f) s = execVfnmsub d a b c m f s := rfl
theorem exec_vcmpEq (d : BitVec 5) (a : BitVec 5) (b : BitVec 5) (m : BitVec 3) (e : BitVec 2) (x : BitVec 1) (s : State) : exec (.vcmpEq d a b m e x) s = execVcmpEq d a b m e x s := rfl
theorem exec_vcmpNe (d : BitVec 5) (a : BitVec 5) (b : BitVec 5) (m : BitVec 3) (e : BitVec 2) (x : BitVec 1) (s : State) : exec (.vcmpNe d a b m e x) s = execVcmpNe d a b m e x s := rfl
theorem exec_vcmpLt (d : BitVec 5) (a : BitVec 5) (b : BitVec 5) (m : BitVec 3) (e : BitVec 2) (x : BitVec 1) (s : State) : exec (.vcmpLt d a b m e x) s = execVcmpLt d a b m e x s := rfl
theorem exec_vcmpGe (d : BitVec 5) (a : BitVec 5) (b : BitVec 5) (m : BitVec 3) (e : BitVec 2) (x : BitVec 1) (s : State) : exec (.vcmpGe d a b m e x) s = execVcmpGe d a b m e x s := rfl
theorem exec_vcmpLtu (d : BitVec 5) (a : BitVec 5) (b : BitVec 5) (m : BitVec 3) (e : BitVec 2) (x : BitVec 1) (s : State) : exec (.vcmpLtu d a b m e x) s = execVcmpLtu d a b m e x s := rfl
theorem exec_vcmpGeu (d : BitVec 5) (a : BitVec 5) (b : BitVec 5) (m : BitVec 3) (e : BitVec 2) (x : BitVec 1) (s : State) : exec (.vcmpGeu d a b m e x) s = execVcmpGeu d a b m e x s := rfl
theorem exec_vfcmpEq (d : BitVec 5) (a : BitVec 5) (b : BitVec 5) (m : BitVec 3) (e : BitVec 2) (x : BitVec 1) (s : State) : exec (.vfcmpEq d a b m e x) s = execVfcmpEq d a b m e x s := rfl
theorem exec_vfcmpNe (d : BitVec 5) (a : BitVec 5) (b : BitVec 5) (m : BitVec 3) (e : BitVec 2) (x : BitVec 1) (s : State) : exec (.vfcmpNe d a b m e x) s = execVfcmpNe d a b m e x s := rfl
theorem exec_vfcmpLt (d : BitVec 5) (a : BitVec 5) (b : BitVec 5) (m : BitVec 3) (e : BitVec 2) (x : BitVec 1) (s : State) : exec (.vfcmpLt d a b m e x) s = execVfcmpLt d a b m e x s := rfl
theorem exec_vfcmpLe (d : BitVec 5) (a : BitVec 5) (b : BitVec 5) (m : BitVec 3) (e : BitVec 2) (x : BitVec 1) (s : State) : exec (.vfcmpLe d a b m e x) s = execVfcmpLe d a b m e x s := rfl
theorem exec_vfcmpUo (d : BitVec 5) (a : BitVec 5) (b : BitVec 5) (m : BitVec 3) (e : BitVec 2) (x : BitVec 1) (s : State) : exec (.vfcmpUo d a b m e x) s = execVfcmpUo d a b m e x s := rfl
theorem exec_vredsum (d : BitVec 5) (a : BitVec 5) (b : BitVec 5) (m : BitVec 3) (e : BitVec 2) (s : State) : exec (.vredsum d a b m e) s = execVredsum d a b m e s := rfl
theorem exec_vredmin (d : BitVec 5) (a : BitVec 5) (b : BitVec 5) (m : BitVec 3) (e : BitVec 2) (s : State) : exec (.vredmin d a b m e) s = execVredmin d a b m e s := rfl
theorem exec_vredmax (d : BitVec 5) (a : BitVec 5) (b : BitVec 5) (m : BitVec 3) (e : BitVec 2) (s : State) : exec (.vredmax d a b m e) s = execVredmax d a b m e s := rfl
theorem exec_vredminu (d : BitVec 5) (a : BitVec 5) (b : BitVec 5) (m : BitVec 3) (e : BitVec 2) (s : State) : exec (.vredminu d a b m e) s = execVredminu d a b m e s := rfl
theorem exec_vredmaxu (d : BitVec 5) (a : BitVec 5) (b : BitVec 5) (m : BitVec 3) (e : BitVec 2) (s : State) : exec (.vredmaxu d a b m e) s = execVredmaxu d a b m e s := rfl
theorem exec_vredand (d : BitVec 5) (a : BitVec 5) (b : BitVec 5) (m : BitVec 3) (e : BitVec 2) (s : State) : exec (.vredand d a b m e) s = execVredand d a b m e s := rfl
theorem exec_vredor (d : BitVec 5) (a : BitVec 5) (b : BitVec 5) (m : BitVec 3) (e : BitVec 2) (s : State) : exec (.vredor d a b m e) s = execVredor d a b m e s := rfl
theorem exec_vredxor (d : BitVec 5) (a : BitVec 5) (b : BitVec 5) (m : BitVec 3) (e : BitVec 2) (s : State) : exec (.vredxor d a b m e) s = execVredxor d a b m e s := rfl
theorem exec_vscan (d : BitVec 5) (a : BitVec 5) (b : BitVec 5) (m : BitVec 3) (e : BitVec 2) (s : State) : exec (.vscan d a b m e) s = execVscan d a b m e s := rfl
theorem exec_vfredo (d : BitVec 5) (a : BitVec 5) (b : BitVec 5) (m : BitVec 3) (e : BitVec 2) (s : State) : exec (.vfredo d a b m e) s = execVfredo d a b m e s := rfl
theorem exec_vfredp (d : BitVec 5) (a : BitVec 5) (b : BitVec 5) (m : BitVec 3) (e : BitVec 2) (s : State) : exec (.vfredp d a b m e) s = execVfredp d a b m e s := rfl
theorem exec_vfredmino (d : BitVec 5) (a : BitVec 5) (b : BitVec 5) (m : BitVec 3) (e : BitVec 2) (s : State) : exec (.vfredmino d a b m e) s = execVfredmino d a b m e s := rfl
theorem exec_vfredmaxo (d : BitVec 5) (a : BitVec 5) (b : BitVec 5) (m : BitVec 3) (e : BitVec 2) (s : State) : exec (.vfredmaxo d a b m e) s = execVfredmaxo d a b m e s := rfl
theorem exec_vfredminp (d : BitVec 5) (a : BitVec 5) (b : BitVec 5) (m : BitVec 3) (e : BitVec 2) (s : State) : exec (.vfredminp d a b m e) s = execVfredminp d a b m e s := rfl
theorem exec_vfredmaxp (d : BitVec 5) (a : BitVec 5) (b : BitVec 5) (m : BitVec 3) (e : BitVec 2) (s : State) : exec (.vfredmaxp d a b m e) s = execVfredmaxp d a b m e s := rfl
theorem exec_vfscano (d : BitVec 5) (a : BitVec 5) (b : BitVec 5) (m : BitVec 3) (e : BitVec 2) (s : State) : exec (.vfscano d a b m e) s = execVfscano d a b m e s := rfl
theorem exec_vbcast (d : BitVec 5) (a : BitVec 5) (m : BitVec 3) (e : BitVec 2) (s : State) : exec (.vbcast d a m e) s = execVbcast d a m e s := rfl
theorem exec_vextract (d : BitVec 5) (a : BitVec 5) (b : BitVec 5) (e : BitVec 2) (s : State) : exec (.vextract d a b e) s = execVextract d a b e s := rfl
theorem exec_vinsert (d : BitVec 5) (a : BitVec 5) (b : BitVec 5) (e : BitVec 2) (s : State) : exec (.vinsert d a b e) s = execVinsert d a b e s := rfl
theorem exec_vslideup (d : BitVec 5) (a : BitVec 5) (b : BitVec 5) (m : BitVec 3) (e : BitVec 2) (s : State) : exec (.vslideup d a b m e) s = execVslideup d a b m e s := rfl
theorem exec_vslidedown (d : BitVec 5) (a : BitVec 5) (b : BitVec 5) (m : BitVec 3) (e : BitVec 2) (s : State) : exec (.vslidedown d a b m e) s = execVslidedown d a b m e s := rfl
theorem exec_vperm (d : BitVec 5) (a : BitVec 5) (b : BitVec 5) (m : BitVec 3) (e : BitVec 2) (s : State) : exec (.vperm d a b m e) s = execVperm d a b m e s := rfl
theorem exec_vsel (d : BitVec 5) (a : BitVec 5) (b : BitVec 5) (m : BitVec 3) (e : BitVec 2) (s : State) : exec (.vsel d a b m e) s = execVsel d a b m e s := rfl
theorem exec_vsext (d : BitVec 5) (a : BitVec 5) (m : BitVec 3) (e : BitVec 2) (h : BitVec 1) (s : State) : exec (.vsext d a m e h) s = execVsext d a m e h s := rfl
theorem exec_vzext (d : BitVec 5) (a : BitVec 5) (m : BitVec 3) (e : BitVec 2) (h : BitVec 1) (s : State) : exec (.vzext d a m e h) s = execVzext d a m e h s := rfl
theorem exec_vnarrow (d : BitVec 5) (a : BitVec 5) (b : BitVec 5) (m : BitVec 3) (e : BitVec 2) (s : State) : exec (.vnarrow d a b m e) s = execVnarrow d a b m e s := rfl
theorem exec_vnarrowsu (d : BitVec 5) (a : BitVec 5) (b : BitVec 5) (m : BitVec 3) (e : BitVec 2) (s : State) : exec (.vnarrowsu d a b m e) s = execVnarrowsu d a b m e s := rfl
theorem exec_vnarrowu (d : BitVec 5) (a : BitVec 5) (b : BitVec 5) (m : BitVec 3) (e : BitVec 2) (s : State) : exec (.vnarrowu d a b m e) s = execVnarrowu d a b m e s := rfl
theorem exec_vtrunc (d : BitVec 5) (a : BitVec 5) (b : BitVec 5) (m : BitVec 3) (e : BitVec 2) (s : State) : exec (.vtrunc d a b m e) s = execVtrunc d a b m e s := rfl
theorem exec_vfwiden (d : BitVec 5) (a : BitVec 5) (m : BitVec 3) (e : BitVec 2) (h : BitVec 1) (s : State) : exec (.vfwiden d a m e h) s = execVfwiden d a m e h s := rfl
theorem exec_vfwidenBf (d : BitVec 5) (a : BitVec 5) (m : BitVec 3) (e : BitVec 2) (h : BitVec 1) (s : State) : exec (.vfwidenBf d a m e h) s = execVfwidenBf d a m e h s := rfl
theorem exec_vfnarrow (d : BitVec 5) (a : BitVec 5) (b : BitVec 5) (m : BitVec 3) (e : BitVec 2) (s : State) : exec (.vfnarrow d a b m e) s = execVfnarrow d a b m e s := rfl
theorem exec_vfcvtFX (d : BitVec 5) (a : BitVec 5) (b : BitVec 5) (m : BitVec 3) (e : BitVec 2) (s : State) : exec (.vfcvtFX d a b m e) s = execVfcvtFX d a b m e s := rfl
theorem exec_vfcvtFXu (d : BitVec 5) (a : BitVec 5) (b : BitVec 5) (m : BitVec 3) (e : BitVec 2) (s : State) : exec (.vfcvtFXu d a b m e) s = execVfcvtFXu d a b m e s := rfl
theorem exec_vfcvtXF (d : BitVec 5) (a : BitVec 5) (b : BitVec 5) (m : BitVec 3) (e : BitVec 2) (s : State) : exec (.vfcvtXF d a b m e) s = execVfcvtXF d a b m e s := rfl
theorem exec_vfcvtXuF (d : BitVec 5) (a : BitVec 5) (b : BitVec 5) (m : BitVec 3) (e : BitVec 2) (s : State) : exec (.vfcvtXuF d a b m e) s = execVfcvtXuF d a b m e s := rfl
theorem exec_vps8 (d : BitVec 5) (a : BitVec 5) (m : BitVec 3) (e : BitVec 2) (p : BitVec 3) (s : State) : exec (.vps8 d a m e p) s = execVps8 d a m e p s := rfl
theorem exec_mand (d : BitVec 5) (a : BitVec 5) (b : BitVec 5) (s : State) : exec (.mand d a b) s = execMand d a b s := rfl
theorem exec_mor (d : BitVec 5) (a : BitVec 5) (b : BitVec 5) (s : State) : exec (.mor d a b) s = execMor d a b s := rfl
theorem exec_mxor (d : BitVec 5) (a : BitVec 5) (b : BitVec 5) (s : State) : exec (.mxor d a b) s = execMxor d a b s := rfl
theorem exec_mandn (d : BitVec 5) (a : BitVec 5) (b : BitVec 5) (s : State) : exec (.mandn d a b) s = execMandn d a b s := rfl
theorem exec_mnot (d : BitVec 5) (a : BitVec 5) (s : State) : exec (.mnot d a) s = execMnot d a s := rfl
theorem exec_mset (d : BitVec 5) (a : BitVec 5) (s : State) : exec (.mset d a) s = execMset d a s := rfl
theorem exec_mget (d : BitVec 5) (a : BitVec 5) (s : State) : exec (.mget d a) s = execMget d a s := rfl
theorem exec_mpopc (d : BitVec 5) (a : BitVec 5) (s : State) : exec (.mpopc d a) s = execMpopc d a s := rfl
theorem exec_mfirst (d : BitVec 5) (a : BitVec 5) (s : State) : exec (.mfirst d a) s = execMfirst d a s := rfl
theorem exec_mfirstn (d : BitVec 5) (a : BitVec 5) (s : State) : exec (.mfirstn d a) s = execMfirstn d a s := rfl
theorem exec_vld (d : BitVec 5) (a : BitVec 5) (o : BitVec 13) (s : State) : exec (.vld d a o) s = execVld d a o s := rfl
theorem exec_vst (v_s : BitVec 5) (a : BitVec 5) (o : BitVec 13) (s : State) : exec (.vst v_s a o) s = execVst v_s a o s := rfl
theorem exec_vldm (d : BitVec 5) (a : BitVec 5) (m : BitVec 3) (e : BitVec 2) (s : State) : exec (.vldm d a m e) s = execVldm d a m e s := rfl
theorem exec_vlds (d : BitVec 5) (a : BitVec 5) (b : BitVec 5) (m : BitVec 3) (e : BitVec 2) (s : State) : exec (.vlds d a b m e) s = execVlds d a b m e s := rfl
theorem exec_vgath (d : BitVec 5) (a : BitVec 5) (b : BitVec 5) (m : BitVec 3) (e : BitVec 2) (s : State) : exec (.vgath d a b m e) s = execVgath d a b m e s := rfl
theorem exec_vstm (v_s : BitVec 5) (a : BitVec 5) (m : BitVec 3) (e : BitVec 2) (s : State) : exec (.vstm v_s a m e) s = execVstm v_s a m e s := rfl
theorem exec_vsts (v_s : BitVec 5) (a : BitVec 5) (b : BitVec 5) (m : BitVec 3) (e : BitVec 2) (s : State) : exec (.vsts v_s a b m e) s = execVsts v_s a b m e s := rfl
theorem exec_vscat (v_s : BitVec 5) (a : BitVec 5) (b : BitVec 5) (m : BitVec 3) (e : BitVec 2) (s : State) : exec (.vscat v_s a b m e) s = execVscat v_s a b m e s := rfl
theorem exec_ld (d : BitVec 5) (a : BitVec 5) (w : BitVec 3) (o : BitVec 13) (s : State) : exec (.ld d a w o) s = execLd d a w o s := rfl
theorem exec_st (v_s : BitVec 5) (a : BitVec 5) (w : BitVec 2) (o : BitVec 13) (s : State) : exec (.st v_s a w o) s = execSt v_s a w o s := rfl
theorem exec_amoadd (d : BitVec 5) (a : BitVec 5) (b : BitVec 5) (v_s : BitVec 3) (r : BitVec 1) (q : BitVec 1) (z : BitVec 1) (s : State) : exec (.amoadd d a b v_s r q z) s = execAmoadd d a b v_s r q z s := rfl
theorem exec_amoand (d : BitVec 5) (a : BitVec 5) (b : BitVec 5) (v_s : BitVec 3) (r : BitVec 1) (q : BitVec 1) (z : BitVec 1) (s : State) : exec (.amoand d a b v_s r q z) s = execAmoand d a b v_s r q z s := rfl
theorem exec_amoor (d : BitVec 5) (a : BitVec 5) (b : BitVec 5) (v_s : BitVec 3) (r : BitVec 1) (q : BitVec 1) (z : BitVec 1) (s : State) : exec (.amoor d a b v_s r q z) s = execAmoor d a b v_s r q z s := rfl
theorem exec_amoxor (d : BitVec 5) (a : BitVec 5) (b : BitVec 5) (v_s : BitVec 3) (r : BitVec 1) (q : BitVec 1) (z : BitVec 1) (s : State) : exec (.amoxor d a b v_s r q z) s = execAmoxor d a b v_s r q z s := rfl
theorem exec_amomin (d : BitVec 5) (a : BitVec 5) (b : BitVec 5) (v_s : BitVec 3) (r : BitVec 1) (q : BitVec 1) (z : BitVec 1) (s : State) : exec (.amomin d a b v_s r q z) s = execAmomin d a b v_s r q z s := rfl
theorem exec_amomax (d : BitVec 5) (a : BitVec 5) (b : BitVec 5) (v_s : BitVec 3) (r : BitVec 1) (q : BitVec 1) (z : BitVec 1) (s : State) : exec (.amomax d a b v_s r q z) s = execAmomax d a b v_s r q z s := rfl
theorem exec_amominu (d : BitVec 5) (a : BitVec 5) (b : BitVec 5) (v_s : BitVec 3) (r : BitVec 1) (q : BitVec 1) (z : BitVec 1) (s : State) : exec (.amominu d a b v_s r q z) s = execAmominu d a b v_s r q z s := rfl
theorem exec_amomaxu (d : BitVec 5) (a : BitVec 5) (b : BitVec 5) (v_s : BitVec 3) (r : BitVec 1) (q : BitVec 1) (z : BitVec 1) (s : State) : exec (.amomaxu d a b v_s r q z) s = execAmomaxu d a b v_s r q z s := rfl
theorem exec_amoswap (d : BitVec 5) (a : BitVec 5) (b : BitVec 5) (v_s : BitVec 3) (r : BitVec 1) (q : BitVec 1) (z : BitVec 1) (s : State) : exec (.amoswap d a b v_s r q z) s = execAmoswap d a b v_s r q z s := rfl
theorem exec_amocas (d : BitVec 5) (a : BitVec 5) (b : BitVec 5) (v_s : BitVec 3) (r : BitVec 1) (q : BitVec 1) (z : BitVec 1) (s : State) : exec (.amocas d a b v_s r q z) s = execAmocas d a b v_s r q z s := rfl
theorem exec_fence (v_s : BitVec 3) (k : BitVec 4) (s : State) : exec (.fence v_s k) s = execFence v_s k s := rfl
theorem exec_ldsync (d : BitVec 5) (a : BitVec 5) (w : BitVec 3) (s : State) : exec (.ldsync d a w) s = execLdsync d a w s := rfl
theorem exec_stfe (a : BitVec 5) (s : State) : exec (.stfe a) s = execStfe a s := rfl
theorem exec_feclr (a : BitVec 5) (s : State) : exec (.feclr a) s = execFeclr a s := rfl
theorem exec_waitv (d : BitVec 5) (a : BitVec 5) (b : BitVec 5) (v_s : BitVec 3) (c : BitVec 1) (w : BitVec 3) (s : State) : exec (.waitv d a b v_s c w) s = execWaitv d a b v_s c w s := rfl
theorem exec_ldAcq (d : BitVec 5) (a : BitVec 5) (v_s : BitVec 3) (w : BitVec 3) (s : State) : exec (.ldAcq d a v_s w) s = execLdAcq d a v_s w s := rfl
theorem exec_stRel (d : BitVec 5) (a : BitVec 5) (v_s : BitVec 3) (w : BitVec 2) (s : State) : exec (.stRel d a v_s w) s = execStRel d a v_s w s := rfl
theorem exec_barInit (a : BitVec 5) (b : BitVec 5) (s : State) : exec (.barInit a b) s = execBarInit a b s := rfl
theorem exec_barExpect (a : BitVec 5) (b : BitVec 5) (s : State) : exec (.barExpect a b) s = execBarExpect a b s := rfl
theorem exec_barArrive (d : BitVec 5) (a : BitVec 5) (s : State) : exec (.barArrive d a) s = execBarArrive d a s := rfl
theorem exec_barArriveC (a : BitVec 5) (b : BitVec 5) (s : State) : exec (.barArriveC a b) s = execBarArriveC a b s := rfl
theorem exec_barWait (d : BitVec 5) (a : BitVec 5) (b : BitVec 5) (s : State) : exec (.barWait d a b) s = execBarWait d a b s := rfl
theorem exec_barWaitDoze (d : BitVec 5) (a : BitVec 5) (b : BitVec 5) (s : State) : exec (.barWaitDoze d a b) s = execBarWaitDoze d a b s := rfl
theorem exec_barTest (d : BitVec 5) (a : BitVec 5) (b : BitVec 5) (s : State) : exec (.barTest d a b) s = execBarTest d a b s := rfl
theorem exec_stashMap (d : BitVec 5) (a : BitVec 5) (b : BitVec 5) (s : State) : exec (.stashMap d a b) s = execStashMap d a b s := rfl
theorem exec_stashUnmap (a : BitVec 5) (s : State) : exec (.stashUnmap a) s = execStashUnmap a s := rfl
theorem exec_stashFlush (a : BitVec 5) (s : State) : exec (.stashFlush a) s = execStashFlush a s := rfl
theorem exec_cacheResize (d : BitVec 5) (a : BitVec 5) (s : State) : exec (.cacheResize d a) s = execCacheResize d a s := rfl
theorem exec_pref (a : BitVec 5) (s : State) : exec (.pref a) s = execPref a s := rfl
theorem exec_cflush (a : BitVec 5) (s : State) : exec (.cflush a) s = execCflush a s := rfl
theorem exec_cwait (d : BitVec 5) (a : BitVec 5) (s : State) : exec (.cwait d a) s = execCwait d a s := rfl
theorem exec_crel (a : BitVec 5) (s : State) : exec (.crel a) s = execCrel a s := rfl
theorem exec_ctest (d : BitVec 5) (a : BitVec 5) (s : State) : exec (.ctest d a) s = execCtest d a s := rfl
theorem exec_accAlloc (d : BitVec 5) (a : BitVec 5) (k : BitVec 1) (s : State) : exec (.accAlloc d a k) s = execAccAlloc d a k s := rfl
theorem exec_accFree (a : BitVec 5) (s : State) : exec (.accFree a) s = execAccFree a s := rfl
theorem exec_accZero (a : BitVec 5) (s : State) : exec (.accZero a) s = execAccZero a s := rfl
theorem exec_accRd (d : BitVec 5) (a : BitVec 5) (b : BitVec 5) (e : BitVec 5) (s : State) : exec (.accRd d a b e) s = execAccRd d a b e s := rfl
theorem exec_accWr (d : BitVec 5) (a : BitVec 5) (b : BitVec 5) (s : State) : exec (.accWr d a b) s = execAccWr d a b s := rfl
theorem exec_accSt (d : BitVec 5) (a : BitVec 5) (b : BitVec 5) (s : State) : exec (.accSt d a b) s = execAccSt d a b s := rfl
theorem exec_pld (d : BitVec 5) (a : BitVec 5) (b : BitVec 5) (s : State) : exec (.pld d a b) s = execPld d a b s := rfl
theorem exec_pst (d : BitVec 5) (a : BitVec 5) (b : BitVec 5) (s : State) : exec (.pst d a b) s = execPst d a b s := rfl
theorem exec_pzero (d : BitVec 5) (s : State) : exec (.pzero d) s = execPzero d s := rfl
theorem exec_mmaBf16 (c : BitVec 4) (a : BitVec 4) (b : BitVec 4) (z : BitVec 1) (s : State) : exec (.mmaBf16 c a b z) s = execMmaBf16 c a b z s := rfl
theorem exec_mmaFp16 (c : BitVec 4) (a : BitVec 4) (b : BitVec 4) (z : BitVec 1) (s : State) : exec (.mmaFp16 c a b z) s = execMmaFp16 c a b z s := rfl
theorem exec_mmaPs8 (c : BitVec 4) (a : BitVec 4) (b : BitVec 4) (z : BitVec 1) (s : State) : exec (.mmaPs8 c a b z) s = execMmaPs8 c a b z s := rfl
theorem exec_mmaPs4 (c : BitVec 4) (a : BitVec 4) (b : BitVec 4) (z : BitVec 1) (s : State) : exec (.mmaPs4 c a b z) s = execMmaPs4 c a b z s := rfl
theorem exec_mmaTern (c : BitVec 4) (a : BitVec 4) (b : BitVec 4) (z : BitVec 1) (s : State) : exec (.mmaTern c a b z) s = execMmaTern c a b z s := rfl
theorem exec_mmaFp64 (c : BitVec 4) (a : BitVec 4) (b : BitVec 4) (z : BitVec 1) (s : State) : exec (.mmaFp64 c a b z) s = execMmaFp64 c a b z s := rfl
theorem exec_mscale (d : BitVec 4) (a : BitVec 4) (r : BitVec 6) (v_s : BitVec 4) (s : State) : exec (.mscale d a r v_s) s = execMscale d a r v_s s := rfl
theorem exec_mout (d : BitVec 4) (a : BitVec 4) (o : BitVec 4) (n : BitVec 4) (s : State) : exec (.mout d a o n) s = execMout d a o n s := rfl
theorem exec_msend (a : BitVec 5) (s : State) : exec (.msend a) s = execMsend a s := rfl
theorem exec_mwait (d : BitVec 5) (s : State) : exec (.mwait d) s = execMwait d s := rfl
theorem exec_drayTpl (a : BitVec 5) (v_s : BitVec 6) (s : State) : exec (.drayTpl a v_s) s = execDrayTpl a v_s s := rfl
theorem exec_drayGo (d : BitVec 5) (a : BitVec 5) (b : BitVec 5) (c : BitVec 2) (v_s : BitVec 6) (s : State) : exec (.drayGo d a b c v_s) s = execDrayGo d a b c v_s s := rfl
theorem exec_draySlack (a : BitVec 5) (b : BitVec 5) (s : State) : exec (.draySlack a b) s = execDraySlack a b s := rfl
theorem exec_drayCancel (a : BitVec 5) (s : State) : exec (.drayCancel a) s = execDrayCancel a s := rfl
theorem exec_drayStat (d : BitVec 5) (a : BitVec 5) (s : State) : exec (.drayStat d a) s = execDrayStat d a s := rfl
theorem exec_drayAper (a : BitVec 5) (s : State) : exec (.drayAper a) s = execDrayAper a s := rfl
theorem exec_strmBind (d : BitVec 5) (a : BitVec 5) (s : State) : exec (.strmBind d a) s = execStrmBind d a s := rfl
theorem exec_strmUnbind (d : BitVec 5) (s : State) : exec (.strmUnbind d) s = execStrmUnbind d s := rfl
theorem exec_strmPos (d : BitVec 5) (b : BitVec 5) (s : State) : exec (.strmPos d b) s = execStrmPos d b s := rfl
theorem exec_feltCfg (a : BitVec 5) (b : BitVec 5) (k : BitVec 3) (v_s : BitVec 3) (s : State) : exec (.feltCfg a b k v_s) s = execFeltCfg a b k v_s s := rfl
theorem exec_feltScale (a : BitVec 5) (b : BitVec 5) (k : BitVec 3) (v_s : BitVec 3) (s : State) : exec (.feltScale a b k v_s) s = execFeltScale a b k v_s s := rfl
theorem exec_feltIc (a : BitVec 5) (b : BitVec 5) (k : BitVec 3) (v_s : BitVec 3) (s : State) : exec (.feltIc a b k v_s) s = execFeltIc a b k v_s s := rfl
theorem exec_feltRun (b : BitVec 5) (k : BitVec 3) (v_s : BitVec 3) (s : State) : exec (.feltRun b k v_s) s = execFeltRun b k v_s s := rfl
theorem exec_feltSettle (d : BitVec 5) (a : BitVec 5) (k : BitVec 3) (s : State) : exec (.feltSettle d a k) s = execFeltSettle d a k s := rfl
theorem exec_feltSample (a : BitVec 5) (b : BitVec 5) (k : BitVec 3) (g : BitVec 1) (s : State) : exec (.feltSample a b k g) s = execFeltSample a b k g s := rfl
theorem exec_feltHalt (k : BitVec 3) (s : State) : exec (.feltHalt k) s = execFeltHalt k s := rfl
theorem exec_feltStat (d : BitVec 5) (k : BitVec 3) (s : State) : exec (.feltStat d k) s = execFeltStat d k s := rfl
theorem exec_ximm (p : BitVec 24) (s : State) : exec (.ximm p) s = execXimm p s := rfl
theorem exec_hintNop (s : State) : exec .hintNop s = execHintNop s := rfl
theorem exec_hintTaken (t : BitVec 1) (s : State) : exec (.hintTaken t) s = execHintTaken t s := rfl
theorem exec_hintSpin (n : BitVec 8) (s : State) : exec (.hintSpin n) s = execHintSpin n s := rfl
theorem exec_hintKeep (s : State) : exec .hintKeep s = execHintKeep s := rfl
theorem exec_modFrm (r : BitVec 3) (s : State) : exec (.modFrm r) s = execModFrm r s := rfl
theorem exec_modQsel (q : BitVec 4) (s : State) : exec (.modQsel q) s = execModQsel q s := rfl

end Sys2Proof.Machine
end

