-- ==== Sys2Proof/Laws/Memory.lean ====
section
/-!
SUPPORT. Memory: what a read gives after a write, what a write leaves alone, and that every operation keeps the canonical form
(assumption log 4).
-/
namespace Sys2Proof.Machine

/-! ## The canonical form -/

/-- Every cell lies at or above an address. -/
def Memory.above (m : Memory) (a : Nat) : Prop := ∀ c ∈ m, a ≤ c.1

theorem memory_wf_cons (k : Nat) (v : Byte) (m : Memory) :
    Memory.wf ((k, v) :: m) = true ↔ v ≠ emptyByte ∧ Memory.above m (k + 1) ∧ Memory.wf m = true := by
  simp [Memory.wf, Memory.above, and_assoc]

theorem memory_wf_nil : Memory.wf [] = true := rfl

theorem memSet_above (m : Memory) (a k : Nat) (b : Byte) (hm : Memory.above m k) (ha : k ≤ a) : Memory.above (memSet m a b) k := by
  induction m with
  | nil =>
    unfold memSet
    split <;> simp [Memory.above, ha]
  | cons c rest ih =>
    obtain ⟨j, v⟩ := c
    have hr : Memory.above rest k := fun c hc => hm c (List.mem_cons_of_mem _ hc)
    have hj : k ≤ j := hm (j, v) List.mem_cons_self
    unfold memSet
    split
    · intro c hc
      rcases List.mem_cons.1 hc with h | h
      · subst h; exact hj
      · exact ih hr c h
    · split
      · split
        · exact hr
        · intro c hc
          rcases List.mem_cons.1 hc with h | h
          · subst h; exact ha
          · exact hr c h
      · split
        · exact hm
        · intro c hc
          rcases List.mem_cons.1 hc with h | h
          · subst h; exact ha
          · exact hm c h

theorem memSet_wf (m : Memory) (a : Nat) (b : Byte) (h : m.wf = true) : (memSet m a b).wf = true := by
  induction m with
  | nil =>
    unfold memSet
    split
    · rfl
    · rename_i hb
      simp [memory_wf_cons, hb, Memory.above, memory_wf_nil]
  | cons c rest ih =>
    obtain ⟨j, v⟩ := c
    have ⟨hv, hab, hw⟩ := (memory_wf_cons j v rest).1 h
    unfold memSet
    split
    · rename_i hlt
      exact (memory_wf_cons _ _ _).2 ⟨hv, memSet_above rest a (j + 1) b hab hlt, ih hw⟩
    · rename_i hnl
      split
      · rename_i he
        subst he
        split
        · exact hw
        · rename_i hb
          exact (memory_wf_cons _ _ _).2 ⟨hb, hab, hw⟩
      · rename_i hne
        split
        · exact h
        · rename_i hb
          refine (memory_wf_cons _ _ _).2 ⟨hb, ?_, h⟩
          intro c hc
          rcases List.mem_cons.1 hc with e | e
          · subst e; simp; omega
          · have := hab c e; omega

theorem memWrite_wf (bs : List Byte) (m : Memory) (a : Nat) (h : m.wf = true) : (memWrite m a bs).wf = true := by
  induction bs generalizing m a with
  | nil => exact h
  | cons b rest ih => exact ih _ _ (memSet_wf m a b h)

theorem filter_wf (p : Host.Cell → Bool) (m : Memory) (h : m.wf = true) : Memory.wf (m.filter p) = true := by
  induction m with
  | nil => rfl
  | cons c rest ih =>
    obtain ⟨j, v⟩ := c
    have ⟨hv, hab, hw⟩ := (memory_wf_cons j v rest).1 h
    by_cases hp : p (j, v)
    · rw [List.filter_cons_of_pos hp]
      exact (memory_wf_cons _ _ _).2 ⟨hv, fun c hc => hab c (List.mem_filter.1 hc).1, ih hw⟩
    · rw [List.filter_cons_of_neg hp]
      exact ih hw

theorem memClear_wf (m : Memory) (a n : Nat) (h : m.wf = true) : (memClear m a n).wf = true := filter_wf _ m h

theorem memOver_wf (cells m : Memory) (h : m.wf = true) : (memOver m cells).wf = true := by
  unfold memOver
  induction cells generalizing m with
  | nil => exact h
  | cons c rest ih => exact ih _ (memSet_wf m c.1 c.2 h)

/-! ## Reading after writing -/

theorem memGet_below (m : Memory) (a : Nat) (h : Memory.above m (a + 1)) : memGet m a = emptyByte := by
  induction m with
  | nil => rfl
  | cons c rest ih =>
    obtain ⟨j, v⟩ := c
    have hj : a + 1 ≤ j := h (j, v) List.mem_cons_self
    have : j ≠ a := by omega
    simp [memGet, this, ih (fun c hc => h c (List.mem_cons_of_mem _ hc))]

theorem memGet_memSet (m : Memory) (a : Nat) (b : Byte) (h : m.wf = true) : memGet (memSet m a b) a = b := by
  induction m with
  | nil =>
    unfold memSet
    split <;> simp_all [memGet]
  | cons c rest ih =>
    obtain ⟨j, v⟩ := c
    have ⟨_, hab, hw⟩ := (memory_wf_cons j v rest).1 h
    unfold memSet
    split
    · rename_i hlt
      have : j ≠ a := by omega
      simp [memGet, this, ih hw]
    · rename_i hnl
      split
      · rename_i he
        subst he
        split
        · rename_i hb
          rw [memGet_below rest j hab, hb]
        · simp [memGet]
      · rename_i hne
        split
        · rename_i hb
          have : memGet ((j, v) :: rest) a = emptyByte := memGet_below _ a (by
            intro c hc
            rcases List.mem_cons.1 hc with e | e
            · subst e; simp; omega
            · have := hab c e; omega)
          rw [this, hb]
        · simp [memGet]

theorem memGet_memSet_ne (m : Memory) (a k : Nat) (b : Byte) (h : k ≠ a) : memGet (memSet m a b) k = memGet m k := by
  induction m with
  | nil =>
    unfold memSet
    split <;> simp [memGet, Ne.symm h]
  | cons c rest ih =>
    obtain ⟨j, v⟩ := c
    unfold memSet
    split
    · simp only [memGet, ih]
    · split
      · rename_i he
        subst he
        split <;> simp [memGet, Ne.symm h]
      · split
        · rfl
        · simp [memGet, Ne.symm h]

theorem memGet_memWrite_outside (bs : List Byte) (m : Memory) (a k : Nat) (h : k < a ∨ a + bs.length ≤ k) :
    memGet (memWrite m a bs) k = memGet m k := by
  induction bs generalizing m a with
  | nil => rfl
  | cons b rest ih =>
    have hne : k ≠ a := by simp only [List.length_cons] at h; omega
    rw [memWrite, ih _ _ (by simp only [List.length_cons] at h; omega), memGet_memSet_ne _ _ _ _ hne]

theorem memRead_memWrite (bs : List Byte) (m : Memory) (a : Nat) (h : m.wf = true) : memRead (memWrite m a bs) a bs.length = bs := by
  induction bs generalizing m a with
  | nil => rfl
  | cons b rest ih =>
    have hh : memGet (memWrite (memSet m a b) (a + 1) rest) a = b := by
      rw [memGet_memWrite_outside _ _ _ _ (Or.inl (Nat.lt_succ_self a)), memGet_memSet _ _ _ h]
    simp only [memWrite, List.length_cons, memRead, hh, ih _ _ (memSet_wf m a b h)]

/-- The memories of the machine right after reset are in canonical form. -/
theorem reset_memories_wf : (memories State.reset).all Memory.wf = true := rfl

end Sys2Proof.Machine
end

