-- ==== Sys2Proof/Laws/PerInstr.lean ====
section
/-!
SUPPORT. Family RoundTrip: the decoder reads back what the encoder writes, one lemma for each constructor of `Instr`.
-/
set_option linter.unusedSimpArgs false

namespace Sys2Proof.Laws

/-! ## Fields of a word put together from its parts -/

theorem field_above {n m : Nat} (x : BitVec n) (y : BitVec m) (lo len : Nat) (h : m ≤ lo) :
    BitVec.extractLsb' lo len (x ++ y) = x.extractLsb' (lo - m) len := by
  ext i hi
  have : ¬ (lo + i < m) := by omega
  simp [BitVec.getLsbD_append, this]
  congr 1
  omega

theorem field_below {n m : Nat} (x : BitVec n) (y : BitVec m) (lo len : Nat) (h : lo + len ≤ m) :
    BitVec.extractLsb' lo len (x ++ y) = y.extractLsb' lo len := by
  ext i hi
  have : lo + i < m := by omega
  simp [BitVec.getLsbD_append, this]

theorem field_whole {n : Nat} (x : BitVec n) : x.extractLsb' 0 n = x := by
  ext i hi
  simp

/-- A field is a value exactly when its lower `k` bits and the `r` bits above them are. -/
theorem field_split {n : Nat} (w : BitVec n) (lo len k up r : Nat) (c : BitVec len) (h : k + r = len) (hu : up = lo + k) :
    w.extractLsb' lo len = c ↔ w.extractLsb' lo k = c.extractLsb' 0 k ∧ w.extractLsb' up r = c.extractLsb' k r := by
  subst hu
  constructor
  · rintro rfl
    refine ⟨?_, ?_⟩
    · ext i hi
      have : i < len := by omega
      simp [this]
    · ext i hi
      have : k + i < len := by omega
      simp [this, Nat.add_assoc]
  · rintro ⟨h1, h2⟩
    ext i hi
    by_cases hk : i < k
    · have := congrArg (fun v : BitVec k => v.getLsbD i) h1
      simpa [hk, hi] using this
    · have := congrArg (fun v : BitVec r => v.getLsbD (i - k)) h2
      have e : lo + k + (i - k) = lo + i := by omega
      have e2 : k + (i - k) = i := by omega
      have e3 : i - k < r := by omega
      simpa [e, e2, e3, hi] using this

/-! ## The family -/

/-- What the decoder makes of an instruction's own word; a step of the device has none. -/
def RoundTrip.Statement (i : Instr) : Prop :=
  match encode i with
  | none => True
  | some w => decodeWord w = .ok i

theorem RoundTrip.packageReset (strapHigh : Bool) : RoundTrip.Statement (.packageReset strapHigh) := trivial
theorem RoundTrip.ppsEdge : RoundTrip.Statement (.ppsEdge) := trivial
theorem RoundTrip.timeOfDayMessage (seconds : Nat) : RoundTrip.Statement (.timeOfDayMessage seconds) := trivial
theorem RoundTrip.junctionThrottle (source : Nat) : RoundTrip.Statement (.junctionThrottle source) := trivial
theorem RoundTrip.junctionShutdown (source : Nat) : RoundTrip.Statement (.junctionShutdown source) := trivial
theorem RoundTrip.wearTrigger (w : Wear) : RoundTrip.Statement (.wearTrigger w) := trivial
theorem RoundTrip.spareSwap (w : Wear) : RoundTrip.Statement (.spareSwap w) := trivial
theorem RoundTrip.roleMove (die : Nat) (position : Nat) : RoundTrip.Statement (.roleMove die position) := trivial
theorem RoundTrip.lossOfLock (port : Fin 36) (lane : Nat) : RoundTrip.Statement (.lossOfLock port lane) := trivial
theorem RoundTrip.healthWindow (cycles : List (Nat × Nat × Nat)) : RoundTrip.Statement (.healthWindow cycles) := trivial
theorem RoundTrip.timingReplay (tile : Nat) : RoundTrip.Statement (.timingReplay tile) := trivial
theorem RoundTrip.idleFlit (port : Fin 36) (flit : List Byte) : RoundTrip.Statement (.idleFlit port flit) := trivial
theorem RoundTrip.dataFlit (port : Fin 36) (flit : List Byte) : RoundTrip.Statement (.dataFlit port flit) := trivial
theorem RoundTrip.ackFlit (port : Fin 36) (flit : List Byte) : RoundTrip.Statement (.ackFlit port flit) := trivial
theorem RoundTrip.nakFlit (port : Fin 36) (flit : List Byte) : RoundTrip.Statement (.nakFlit port flit) := trivial
theorem RoundTrip.trainFlit (port : Fin 36) (flit : List Byte) : RoundTrip.Statement (.trainFlit port flit) := trivial
theorem RoundTrip.replayTimeout (port : Fin 36) : RoundTrip.Statement (.replayTimeout port) := trivial
theorem RoundTrip.ackTimer (port : Fin 36) : RoundTrip.Statement (.ackTimer port) := trivial
theorem RoundTrip.nakHoldoffExpiry (port : Fin 36) : RoundTrip.Statement (.nakHoldoffExpiry port) := trivial
theorem RoundTrip.linkRetryBound (port : Fin 36) : RoundTrip.Statement (.linkRetryBound port) := trivial
theorem RoundTrip.trainingTimeout (port : Fin 36) : RoundTrip.Statement (.trainingTimeout port) := trivial
theorem RoundTrip.partnerReset (port : Fin 36) : RoundTrip.Statement (.partnerReset port) := trivial
theorem RoundTrip.noticeRecord (port : Fin 36) : RoundTrip.Statement (.noticeRecord port) := trivial
theorem RoundTrip.classOHoldEnd (dest : Nat) : RoundTrip.Statement (.classOHoldEnd dest) := trivial
theorem RoundTrip.portDisable (port : Fin 36) : RoundTrip.Statement (.portDisable port) := trivial
theorem RoundTrip.portTrain (port : Fin 36) : RoundTrip.Statement (.portTrain port) := trivial
theorem RoundTrip.portReset (port : Fin 36) : RoundTrip.Statement (.portReset port) := trivial
theorem RoundTrip.swreq : RoundTrip.Statement (.swreq) := trivial
theorem RoundTrip.bankSwitch : RoundTrip.Statement (.bankSwitch) := trivial
theorem RoundTrip.routingBankWrite (offset : Nat) (value : Word) : RoundTrip.Statement (.routingBankWrite offset value) := trivial
theorem RoundTrip.devnumWrite (value : Word) : RoundTrip.Statement (.devnumWrite value) := trivial
theorem RoundTrip.transitPacket (port : Fin 36) (packet : Packet) : RoundTrip.Statement (.transitPacket port packet) := trivial
theorem RoundTrip.rd (packet : Packet) : RoundTrip.Statement (.rd packet) := trivial
theorem RoundTrip.rdx (packet : Packet) : RoundTrip.Statement (.rdx packet) := trivial
theorem RoundTrip.wr (packet : Packet) : RoundTrip.Statement (.wr packet) := trivial
theorem RoundTrip.amoPacket (packet : Packet) : RoundTrip.Statement (.amoPacket packet) := trivial
theorem RoundTrip.wb (packet : Packet) : RoundTrip.Statement (.wb packet) := trivial
theorem RoundTrip.snp (packet : Packet) : RoundTrip.Statement (.snp packet) := trivial
theorem RoundTrip.snprsp (packet : Packet) : RoundTrip.Statement (.snprsp packet) := trivial
theorem RoundTrip.dataPacket (packet : Packet) : RoundTrip.Statement (.dataPacket packet) := trivial
theorem RoundTrip.ackPacket (packet : Packet) : RoundTrip.Statement (.ackPacket packet) := trivial
theorem RoundTrip.inv (packet : Packet) : RoundTrip.Statement (.inv packet) := trivial
theorem RoundTrip.trinvPacket (packet : Packet) : RoundTrip.Statement (.trinvPacket packet) := trivial
theorem RoundTrip.gen (packet : Packet) : RoundTrip.Statement (.gen packet) := trivial
theorem RoundTrip.charge (packet : Packet) : RoundTrip.Statement (.charge packet) := trivial
theorem RoundTrip.mgmt (packet : Packet) : RoundTrip.Statement (.mgmt packet) := trivial
theorem RoundTrip.notice (packet : Packet) : RoundTrip.Statement (.notice packet) := trivial
theorem RoundTrip.sendPacket (packet : Packet) : RoundTrip.Statement (.sendPacket packet) := trivial
theorem RoundTrip.courierPacket (packet : Packet) : RoundTrip.Statement (.courierPacket packet) := trivial
theorem RoundTrip.msendPacket (packet : Packet) : RoundTrip.Statement (.msendPacket packet) := trivial
theorem RoundTrip.draywr (packet : Packet) : RoundTrip.Statement (.draywr packet) := trivial
theorem RoundTrip.killPacket (packet : Packet) : RoundTrip.Statement (.killPacket packet) := trivial
theorem RoundTrip.reply (r : FaultReply) : RoundTrip.Statement (.reply r) := trivial
theorem RoundTrip.reservedOpcode (packet : Packet) : RoundTrip.Statement (.reservedOpcode packet) := trivial
theorem RoundTrip.requestTimeout (tag : Nat) : RoundTrip.Statement (.requestTimeout tag) := trivial
theorem RoundTrip.goneClear (dev : Nat) : RoundTrip.Statement (.goneClear dev) := trivial
theorem RoundTrip.chargeSend : RoundTrip.Statement (.chargeSend) := trivial
theorem RoundTrip.snoopTimeout (granule : Nat) : RoundTrip.Statement (.snoopTimeout granule) := trivial
theorem RoundTrip.peek (keyid : BitVec 8) : RoundTrip.Statement (.peek keyid) := trivial
theorem RoundTrip.reclaimKeep : RoundTrip.Statement (.reclaimKeep) := trivial
theorem RoundTrip.reclaimData (keyid : BitVec 8) : RoundTrip.Statement (.reclaimData keyid) := trivial
theorem RoundTrip.doorbell (offset : Nat) (size : Nat) (pasid : Option (BitVec 20)) (value : Word) : RoundTrip.Statement (.doorbell offset size pasid value) := trivial
theorem RoundTrip.queueCreate (value : Word) : RoundTrip.Statement (.queueCreate value) := trivial
theorem RoundTrip.destroy (value : Word) : RoundTrip.Statement (.destroy value) := trivial
theorem RoundTrip.destroyKill (value : Word) : RoundTrip.Statement (.destroyKill value) := trivial
theorem RoundTrip.queueResume (value : Word) : RoundTrip.Statement (.queueResume value) := trivial
theorem RoundTrip.packetFetch (queue : Nat) (hostBytes : List Byte) : RoundTrip.Statement (.packetFetch queue hostBytes) := trivial
theorem RoundTrip.fetchReread (queue : Nat) (hostBytes : List Byte) : RoundTrip.Statement (.fetchReread queue hostBytes) := trivial
theorem RoundTrip.launchPacket (queue : Nat) : RoundTrip.Statement (.launchPacket queue) := trivial
theorem RoundTrip.relaunchPacket (queue : Nat) : RoundTrip.Statement (.relaunchPacket queue) := trivial
theorem RoundTrip.coach (queue : Nat) : RoundTrip.Statement (.coach queue) := trivial
theorem RoundTrip.destroyPacket (queue : Nat) : RoundTrip.Statement (.destroyPacket queue) := trivial
theorem RoundTrip.signal (queue : Nat) : RoundTrip.Statement (.signal queue) := trivial
theorem RoundTrip.waitmem (queue : Nat) : RoundTrip.Statement (.waitmem queue) := trivial
theorem RoundTrip.waitmemPoll (queue : Nat) : RoundTrip.Statement (.waitmemPoll queue) := trivial
theorem RoundTrip.nopPacket (queue : Nat) : RoundTrip.Statement (.nopPacket queue) := trivial
theorem RoundTrip.packetCompletion (queue : Nat) : RoundTrip.Statement (.packetCompletion queue) := trivial
theorem RoundTrip.timesliceExpiry (queues : List Nat) : RoundTrip.Statement (.timesliceExpiry queues) := trivial
theorem RoundTrip.partitionReset (mask : BitVec 8) : RoundTrip.Statement (.partitionReset mask) := trivial
theorem RoundTrip.partcfgWrite (value : Word) : RoundTrip.Statement (.partcfgWrite value) := trivial
theorem RoundTrip.qhctlWrite (value : Word) : RoundTrip.Statement (.qhctlWrite value) := trivial
theorem RoundTrip.ctxctlWrite (value : Word) : RoundTrip.Statement (.ctxctlWrite value) := trivial
theorem RoundTrip.errorRingSetup (toSize : Bool) (value : Word) : RoundTrip.Statement (.errorRingSetup toSize value) := trivial
theorem RoundTrip.storageBlockWrite (partition : Fin 8) (offset : Nat) (value : Word) : RoundTrip.Statement (.storageBlockWrite partition offset value) := trivial
theorem RoundTrip.bar4Read (offset : Nat) (length : Nat) : RoundTrip.Statement (.bar4Read offset length) := trivial
theorem RoundTrip.bar4Write (offset : Nat) (bytes : List Byte) (relaxed : Bool) : RoundTrip.Statement (.bar4Write offset bytes relaxed) := trivial
theorem RoundTrip.peerLoadTimeout (agent : Agent) : RoundTrip.Statement (.peerLoadTimeout agent) := trivial
theorem RoundTrip.chunk (cmd : Word) (mctp : Option (List Byte)) : RoundTrip.Statement (.chunk cmd mctp) := trivial
theorem RoundTrip.commit (cmd : Word) : RoundTrip.Statement (.commit cmd) := trivial
theorem RoundTrip.attest (mctpNonce : Option (List Byte)) : RoundTrip.Statement (.attest mctpNonce) := trivial
theorem RoundTrip.reboot : RoundTrip.Statement (.reboot) := trivial
theorem RoundTrip.abort : RoundTrip.Statement (.abort) := trivial
theorem RoundTrip.hotPatchApply : RoundTrip.Statement (.hotPatchApply) := trivial
theorem RoundTrip.patchTimeout : RoundTrip.Statement (.patchTimeout) := trivial
theorem RoundTrip.bindRecordWrite (cluster : Nat) (slot : Nat) (offset : Nat) (bytes : List Byte) : RoundTrip.Statement (.bindRecordWrite cluster slot offset bytes) := trivial
theorem RoundTrip.blockDispatch (cluster : Nat) (slot : Nat) (core : Nat) : RoundTrip.Statement (.blockDispatch cluster slot core) := trivial
theorem RoundTrip.blockActivation (strand : Nat) : RoundTrip.Statement (.blockActivation strand) := trivial
theorem RoundTrip.mfwWrite (cluster : Nat) (value : Word) : RoundTrip.Statement (.mfwWrite cluster value) := trivial
theorem RoundTrip.cut (arg : BitVec 32) : RoundTrip.Statement (.cut arg) := trivial
theorem RoundTrip.dispatchResume (tile : Nat) : RoundTrip.Statement (.dispatchResume tile) := trivial
theorem RoundTrip.kill (ctx : BitVec 32) : RoundTrip.Statement (.kill ctx) := trivial
theorem RoundTrip.killFenceEnd (ctx : BitVec 32) : RoundTrip.Statement (.killFenceEnd ctx) := trivial
theorem RoundTrip.hold (ctx : BitVec 32) : RoundTrip.Statement (.hold ctx) := trivial
theorem RoundTrip.release (ctx : BitVec 32) : RoundTrip.Statement (.release ctx) := trivial
theorem RoundTrip.fareEstimate (counted : Option (List FareEvent)) : RoundTrip.Statement (.fareEstimate counted) := trivial
theorem RoundTrip.fgrant (value : Word) : RoundTrip.Statement (.fgrant value) := trivial
theorem RoundTrip.trinvRange (value : Word) : RoundTrip.Statement (.trinvRange value) := trivial
theorem RoundTrip.trinvAll (value : Word) : RoundTrip.Statement (.trinvAll value) := trivial
theorem RoundTrip.trinvGrants (value : Word) : RoundTrip.Statement (.trinvGrants value) := trivial
theorem RoundTrip.migReread (agent : Agent) : RoundTrip.Statement (.migReread agent) := trivial
theorem RoundTrip.gearRailSettled (tile : Nat) : RoundTrip.Statement (.gearRailSettled tile) := trivial
theorem RoundTrip.l2RailLower (cluster : Nat) : RoundTrip.Statement (.l2RailLower cluster) := trivial
theorem RoundTrip.park (tile : Nat) : RoundTrip.Statement (.park tile) := trivial
theorem RoundTrip.wake (tile : Nat) : RoundTrip.Statement (.wake tile) := trivial
theorem RoundTrip.lattolWrite (partition : Fin 8) (value : Word) : RoundTrip.Statement (.lattolWrite partition value) := trivial
theorem RoundTrip.dragStep (cluster : Nat) : RoundTrip.Statement (.dragStep cluster) := trivial
theorem RoundTrip.clockMaskAdjust (cluster : Nat) (powerW : Nat) (hot : Bool) : RoundTrip.Statement (.clockMaskAdjust cluster powerW hot) := trivial
theorem RoundTrip.triggerLatch (strand : Nat) : RoundTrip.Statement (.triggerLatch strand) := trivial
theorem RoundTrip.courierStart (core : Nat) : RoundTrip.Statement (.courierStart core) := trivial
theorem RoundTrip.matrixCommandStart (tile : Nat) : RoundTrip.Statement (.matrixCommandStart tile) := trivial
theorem RoundTrip.kStep (tile : Nat) : RoundTrip.Statement (.kStep tile) := trivial
theorem RoundTrip.draySegment (tile : Nat) (channel : Fin 4) : RoundTrip.Statement (.draySegment tile channel) := trivial
theorem RoundTrip.drayApertureStart (line : Nat × BitVec 32) (channel : Fin 4) (data : Word) : RoundTrip.Statement (.drayApertureStart line channel data) := trivial
theorem RoundTrip.storageCompletion (tile : Nat) (channel : Fin 4) (cid : Nat) (statusOk : Bool) : RoundTrip.Statement (.storageCompletion tile channel cid statusOk) := trivial
theorem RoundTrip.storageTimeout (tile : Nat) (channel : Fin 4) (cid : Nat) : RoundTrip.Statement (.storageTimeout tile channel cid) := trivial
theorem RoundTrip.streamTransfer (strand : Nat) (q : Fin 8) : RoundTrip.Statement (.streamTransfer strand q) := trivial
theorem RoundTrip.feltCommandExecute (array : Fin 8) : RoundTrip.Statement (.feltCommandExecute array) := trivial
theorem RoundTrip.feltLoadEnd (array : Fin 8) : RoundTrip.Statement (.feltLoadEnd array) := trivial
theorem RoundTrip.settleDetect (array : Fin 8) : RoundTrip.Statement (.settleDetect array) := trivial
theorem RoundTrip.feltRunmax (array : Fin 8) : RoundTrip.Statement (.feltRunmax array) := trivial
theorem RoundTrip.feltSaturation (array : Fin 8) (summer : Bool) (element : Nat) : RoundTrip.Statement (.feltSaturation array summer element) := trivial
theorem RoundTrip.holdTimeout (array : Fin 8) : RoundTrip.Statement (.holdTimeout array) := trivial
theorem RoundTrip.feltConversion (array : Fin 8) : RoundTrip.Statement (.feltConversion array) := trivial
theorem RoundTrip.calibration (array : Fin 8) : RoundTrip.Statement (.calibration array) := trivial
theorem RoundTrip.carriagePiece (coach : Nat) (index : Nat) (offset : Nat) (bytes : List Byte) : RoundTrip.Statement (.carriagePiece coach index offset bytes) := trivial
theorem RoundTrip.carriageFetchFail (coach : Nat) (index : Nat) (code : BitVec 7) : RoundTrip.Statement (.carriageFetchFail coach index code) := trivial
theorem RoundTrip.eviction (coach : Nat) (index : Nat) : RoundTrip.Statement (.eviction coach index) := trivial
theorem RoundTrip.relaunchRound (run : BitVec 32) : RoundTrip.Statement (.relaunchRound run) := trivial
theorem RoundTrip.registerWrite (window : RegWindow) (offset : Nat) (value : Word) : RoundTrip.Statement (.registerWrite window offset value) := trivial
theorem RoundTrip.settleTimeout (agent : Agent) : RoundTrip.Statement (.settleTimeout agent) := trivial
theorem RoundTrip.peerReadCompletion (agent : Agent) (ok : Bool) (bytes : List Byte) : RoundTrip.Statement (.peerReadCompletion agent ok bytes) := trivial
theorem RoundTrip.partitionResetEnd (partition : Fin 8) : RoundTrip.Statement (.partitionResetEnd partition) := trivial
theorem RoundTrip.matrixCommandEnd (tile : Nat) : RoundTrip.Statement (.matrixCommandEnd tile) := trivial
theorem RoundTrip.carriageEvicted (coach : Nat) (index : Nat) : RoundTrip.Statement (.carriageEvicted coach index) := trivial
theorem RoundTrip.l2RailRisen (cluster : Nat) : RoundTrip.Statement (.l2RailRisen cluster) := trivial
theorem RoundTrip.wearingLaneReplace (port : Fin 36) (lane : Nat) : RoundTrip.Statement (.wearingLaneReplace port lane) := trivial
theorem RoundTrip.lockAcquired (port : Fin 36) (lanes : BitVec 16) : RoundTrip.Statement (.lockAcquired port lanes) := trivial
theorem RoundTrip.ill (x : BitVec 26) : RoundTrip.Statement (.ill x) := by
  show decodeWord (0x0#6 ++ x) = .ok (.ill x)
  simp (disch := decide) only [decodeWord, decodeIll, field, field_above, field_below, field_whole, Nat.reduceSub, BitVec.reduceToNat, true_and, and_true, and_self, and_false, false_and, BitVec.reduceEq, BitVec.reduceExtractLsb', ↓reduceIte]
theorem RoundTrip.add (d : BitVec 5) (a : BitVec 5) (b : BitVec 5) (w : BitVec 1) : RoundTrip.Statement (.add d a b w) := by
  show decodeWord (0x1#6 ++ d ++ a ++ b ++ 0x0#2 ++ w ++ 0x0#8) = .ok (.add d a b w)
  simp (disch := decide) only [decodeWord, decodeOpi, field, field_above, field_below, field_whole, Nat.reduceSub, BitVec.reduceToNat, true_and, and_true, and_self, and_false, false_and, BitVec.reduceEq, BitVec.reduceExtractLsb', ↓reduceIte]
theorem RoundTrip.sub (d : BitVec 5) (a : BitVec 5) (b : BitVec 5) (w : BitVec 1) : RoundTrip.Statement (.sub d a b w) := by
  show decodeWord (0x1#6 ++ d ++ a ++ b ++ 0x0#2 ++ w ++ 0x1#8) = .ok (.sub d a b w)
  simp (disch := decide) only [decodeWord, decodeOpi, field, field_above, field_below, field_whole, Nat.reduceSub, BitVec.reduceToNat, true_and, and_true, and_self, and_false, false_and, BitVec.reduceEq, BitVec.reduceExtractLsb', ↓reduceIte]
theorem RoundTrip.and (d : BitVec 5) (a : BitVec 5) (b : BitVec 5) (w : BitVec 1) : RoundTrip.Statement (.and d a b w) := by
  show decodeWord (0x1#6 ++ d ++ a ++ b ++ 0x0#2 ++ w ++ 0x2#8) = .ok (.and d a b w)
  simp (disch := decide) only [decodeWord, decodeOpi, field, field_above, field_below, field_whole, Nat.reduceSub, BitVec.reduceToNat, true_and, and_true, and_self, and_false, false_and, BitVec.reduceEq, BitVec.reduceExtractLsb', ↓reduceIte]
theorem RoundTrip.or (d : BitVec 5) (a : BitVec 5) (b : BitVec 5) (w : BitVec 1) : RoundTrip.Statement (.or d a b w) := by
  show decodeWord (0x1#6 ++ d ++ a ++ b ++ 0x0#2 ++ w ++ 0x3#8) = .ok (.or d a b w)
  simp (disch := decide) only [decodeWord, decodeOpi, field, field_above, field_below, field_whole, Nat.reduceSub, BitVec.reduceToNat, true_and, and_true, and_self, and_false, false_and, BitVec.reduceEq, BitVec.reduceExtractLsb', ↓reduceIte]
theorem RoundTrip.xor (d : BitVec 5) (a : BitVec 5) (b : BitVec 5) (w : BitVec 1) : RoundTrip.Statement (.xor d a b w) := by
  show decodeWord (0x1#6 ++ d ++ a ++ b ++ 0x0#2 ++ w ++ 0x4#8) = .ok (.xor d a b w)
  simp (disch := decide) only [decodeWord, decodeOpi, field, field_above, field_below, field_whole, Nat.reduceSub, BitVec.reduceToNat, true_and, and_true, and_self, and_false, false_and, BitVec.reduceEq, BitVec.reduceExtractLsb', ↓reduceIte]
theorem RoundTrip.andn (d : BitVec 5) (a : BitVec 5) (b : BitVec 5) (w : BitVec 1) : RoundTrip.Statement (.andn d a b w) := by
  show decodeWord (0x1#6 ++ d ++ a ++ b ++ 0x0#2 ++ w ++ 0x5#8) = .ok (.andn d a b w)
  simp (disch := decide) only [decodeWord, decodeOpi, field, field_above, field_below, field_whole, Nat.reduceSub, BitVec.reduceToNat, true_and, and_true, and_self, and_false, false_and, BitVec.reduceEq, BitVec.reduceExtractLsb', ↓reduceIte]
theorem RoundTrip.sll (d : BitVec 5) (a : BitVec 5) (b : BitVec 5) (w : BitVec 1) : RoundTrip.Statement (.sll d a b w) := by
  show decodeWord (0x1#6 ++ d ++ a ++ b ++ 0x0#2 ++ w ++ 0x6#8) = .ok (.sll d a b w)
  simp (disch := decide) only [decodeWord, decodeOpi, field, field_above, field_below, field_whole, Nat.reduceSub, BitVec.reduceToNat, true_and, and_true, and_self, and_false, false_and, BitVec.reduceEq, BitVec.reduceExtractLsb', ↓reduceIte]
theorem RoundTrip.srl (d : BitVec 5) (a : BitVec 5) (b : BitVec 5) (w : BitVec 1) : RoundTrip.Statement (.srl d a b w) := by
  show decodeWord (0x1#6 ++ d ++ a ++ b ++ 0x0#2 ++ w ++ 0x7#8) = .ok (.srl d a b w)
  simp (disch := decide) only [decodeWord, decodeOpi, field, field_above, field_below, field_whole, Nat.reduceSub, BitVec.reduceToNat, true_and, and_true, and_self, and_false, false_and, BitVec.reduceEq, BitVec.reduceExtractLsb', ↓reduceIte]
theorem RoundTrip.sra (d : BitVec 5) (a : BitVec 5) (b : BitVec 5) (w : BitVec 1) : RoundTrip.Statement (.sra d a b w) := by
  show decodeWord (0x1#6 ++ d ++ a ++ b ++ 0x0#2 ++ w ++ 0x8#8) = .ok (.sra d a b w)
  simp (disch := decide) only [decodeWord, decodeOpi, field, field_above, field_below, field_whole, Nat.reduceSub, BitVec.reduceToNat, true_and, and_true, and_self, and_false, false_and, BitVec.reduceEq, BitVec.reduceExtractLsb', ↓reduceIte]
theorem RoundTrip.slt (d : BitVec 5) (a : BitVec 5) (b : BitVec 5) (w : BitVec 1) : RoundTrip.Statement (.slt d a b w) := by
  show decodeWord (0x1#6 ++ d ++ a ++ b ++ 0x0#2 ++ w ++ 0x9#8) = .ok (.slt d a b w)
  simp (disch := decide) only [decodeWord, decodeOpi, field, field_above, field_below, field_whole, Nat.reduceSub, BitVec.reduceToNat, true_and, and_true, and_self, and_false, false_and, BitVec.reduceEq, BitVec.reduceExtractLsb', ↓reduceIte]
theorem RoundTrip.sltu (d : BitVec 5) (a : BitVec 5) (b : BitVec 5) (w : BitVec 1) : RoundTrip.Statement (.sltu d a b w) := by
  show decodeWord (0x1#6 ++ d ++ a ++ b ++ 0x0#2 ++ w ++ 0xa#8) = .ok (.sltu d a b w)
  simp (disch := decide) only [decodeWord, decodeOpi, field, field_above, field_below, field_whole, Nat.reduceSub, BitVec.reduceToNat, true_and, and_true, and_self, and_false, false_and, BitVec.reduceEq, BitVec.reduceExtractLsb', ↓reduceIte]
theorem RoundTrip.min (d : BitVec 5) (a : BitVec 5) (b : BitVec 5) (w : BitVec 1) : RoundTrip.Statement (.min d a b w) := by
  show decodeWord (0x1#6 ++ d ++ a ++ b ++ 0x0#2 ++ w ++ 0xb#8) = .ok (.min d a b w)
  simp (disch := decide) only [decodeWord, decodeOpi, field, field_above, field_below, field_whole, Nat.reduceSub, BitVec.reduceToNat, true_and, and_true, and_self, and_false, false_and, BitVec.reduceEq, BitVec.reduceExtractLsb', ↓reduceIte]
theorem RoundTrip.max (d : BitVec 5) (a : BitVec 5) (b : BitVec 5) (w : BitVec 1) : RoundTrip.Statement (.max d a b w) := by
  show decodeWord (0x1#6 ++ d ++ a ++ b ++ 0x0#2 ++ w ++ 0xc#8) = .ok (.max d a b w)
  simp (disch := decide) only [decodeWord, decodeOpi, field, field_above, field_below, field_whole, Nat.reduceSub, BitVec.reduceToNat, true_and, and_true, and_self, and_false, false_and, BitVec.reduceEq, BitVec.reduceExtractLsb', ↓reduceIte]
theorem RoundTrip.minu (d : BitVec 5) (a : BitVec 5) (b : BitVec 5) (w : BitVec 1) : RoundTrip.Statement (.minu d a b w) := by
  show decodeWord (0x1#6 ++ d ++ a ++ b ++ 0x0#2 ++ w ++ 0xd#8) = .ok (.minu d a b w)
  simp (disch := decide) only [decodeWord, decodeOpi, field, field_above, field_below, field_whole, Nat.reduceSub, BitVec.reduceToNat, true_and, and_true, and_self, and_false, false_and, BitVec.reduceEq, BitVec.reduceExtractLsb', ↓reduceIte]
theorem RoundTrip.maxu (d : BitVec 5) (a : BitVec 5) (b : BitVec 5) (w : BitVec 1) : RoundTrip.Statement (.maxu d a b w) := by
  show decodeWord (0x1#6 ++ d ++ a ++ b ++ 0x0#2 ++ w ++ 0xe#8) = .ok (.maxu d a b w)
  simp (disch := decide) only [decodeWord, decodeOpi, field, field_above, field_below, field_whole, Nat.reduceSub, BitVec.reduceToNat, true_and, and_true, and_self, and_false, false_and, BitVec.reduceEq, BitVec.reduceExtractLsb', ↓reduceIte]
theorem RoundTrip.clz (d : BitVec 5) (a : BitVec 5) (w : BitVec 1) : RoundTrip.Statement (.clz d a w) := by
  show decodeWord (0x1#6 ++ d ++ a ++ 0x0#7 ++ w ++ 0xf#8) = .ok (.clz d a w)
  simp (disch := decide) only [decodeWord, decodeOpi, field, field_above, field_below, field_whole, Nat.reduceSub, BitVec.reduceToNat, true_and, and_true, and_self, and_false, false_and, BitVec.reduceEq, BitVec.reduceExtractLsb', ↓reduceIte]
theorem RoundTrip.ctz (d : BitVec 5) (a : BitVec 5) (w : BitVec 1) : RoundTrip.Statement (.ctz d a w) := by
  show decodeWord (0x1#6 ++ d ++ a ++ 0x0#7 ++ w ++ 0x10#8) = .ok (.ctz d a w)
  simp (disch := decide) only [decodeWord, decodeOpi, field, field_above, field_below, field_whole, Nat.reduceSub, BitVec.reduceToNat, true_and, and_true, and_self, and_false, false_and, BitVec.reduceEq, BitVec.reduceExtractLsb', ↓reduceIte]
theorem RoundTrip.popc (d : BitVec 5) (a : BitVec 5) (w : BitVec 1) : RoundTrip.Statement (.popc d a w) := by
  show decodeWord (0x1#6 ++ d ++ a ++ 0x0#7 ++ w ++ 0x11#8) = .ok (.popc d a w)
  simp (disch := decide) only [decodeWord, decodeOpi, field, field_above, field_below, field_whole, Nat.reduceSub, BitVec.reduceToNat, true_and, and_true, and_self, and_false, false_and, BitVec.reduceEq, BitVec.reduceExtractLsb', ↓reduceIte]
theorem RoundTrip.mul (d : BitVec 5) (a : BitVec 5) (b : BitVec 5) (w : BitVec 1) : RoundTrip.Statement (.mul d a b w) := by
  show decodeWord (0x2#6 ++ d ++ a ++ b ++ 0x0#2 ++ w ++ 0x0#8) = .ok (.mul d a b w)
  simp (disch := decide) only [decodeWord, decodeMulDiv, field, field_above, field_below, field_whole, Nat.reduceSub, BitVec.reduceToNat, true_and, and_true, and_self, and_false, false_and, BitVec.reduceEq, BitVec.reduceExtractLsb', ↓reduceIte]
theorem RoundTrip.mulh (d : BitVec 5) (a : BitVec 5) (b : BitVec 5) : RoundTrip.Statement (.mulh d a b) := by
  show decodeWord (0x2#6 ++ d ++ a ++ b ++ 0x1#11) = .ok (.mulh d a b)
  simp (disch := decide) only [decodeWord, decodeMulDiv, field, field_above, field_below, field_whole, Nat.reduceSub, BitVec.reduceToNat, true_and, and_true, and_self, and_false, false_and, BitVec.reduceEq, BitVec.reduceExtractLsb', ↓reduceIte]
theorem RoundTrip.mulhu (d : BitVec 5) (a : BitVec 5) (b : BitVec 5) : RoundTrip.Statement (.mulhu d a b) := by
  show decodeWord (0x2#6 ++ d ++ a ++ b ++ 0x2#11) = .ok (.mulhu d a b)
  simp (disch := decide) only [decodeWord, decodeMulDiv, field, field_above, field_below, field_whole, Nat.reduceSub, BitVec.reduceToNat, true_and, and_true, and_self, and_false, false_and, BitVec.reduceEq, BitVec.reduceExtractLsb', ↓reduceIte]
theorem RoundTrip.mulhsu (d : BitVec 5) (a : BitVec 5) (b : BitVec 5) : RoundTrip.Statement (.mulhsu d a b) := by
  show decodeWord (0x2#6 ++ d ++ a ++ b ++ 0x3#11) = .ok (.mulhsu d a b)
  simp (disch := decide) only [decodeWord, decodeMulDiv, field, field_above, field_below, field_whole, Nat.reduceSub, BitVec.reduceToNat, true_and, and_true, and_self, and_false, false_and, BitVec.reduceEq, BitVec.reduceExtractLsb', ↓reduceIte]
theorem RoundTrip.div (d : BitVec 5) (a : BitVec 5) (b : BitVec 5) (w : BitVec 1) : RoundTrip.Statement (.div d a b w) := by
  show decodeWord (0x2#6 ++ d ++ a ++ b ++ 0x0#2 ++ w ++ 0x4#8) = .ok (.div d a b w)
  simp (disch := decide) only [decodeWord, decodeMulDiv, field, field_above, field_below, field_whole, field_split _ 0 11 8 8 3 _ rfl rfl, Nat.reduceSub, BitVec.reduceToNat, true_and, and_true, and_self, and_false, false_and, BitVec.reduceEq, BitVec.reduceExtractLsb', ↓reduceIte]
theorem RoundTrip.divu (d : BitVec 5) (a : BitVec 5) (b : BitVec 5) (w : BitVec 1) : RoundTrip.Statement (.divu d a b w) := by
  show decodeWord (0x2#6 ++ d ++ a ++ b ++ 0x0#2 ++ w ++ 0x5#8) = .ok (.divu d a b w)
  simp (disch := decide) only [decodeWord, decodeMulDiv, field, field_above, field_below, field_whole, field_split _ 0 11 8 8 3 _ rfl rfl, Nat.reduceSub, BitVec.reduceToNat, true_and, and_true, and_self, and_false, false_and, BitVec.reduceEq, BitVec.reduceExtractLsb', ↓reduceIte]
theorem RoundTrip.rem (d : BitVec 5) (a : BitVec 5) (b : BitVec 5) (w : BitVec 1) : RoundTrip.Statement (.rem d a b w) := by
  show decodeWord (0x2#6 ++ d ++ a ++ b ++ 0x0#2 ++ w ++ 0x6#8) = .ok (.rem d a b w)
  simp (disch := decide) only [decodeWord, decodeMulDiv, field, field_above, field_below, field_whole, field_split _ 0 11 8 8 3 _ rfl rfl, Nat.reduceSub, BitVec.reduceToNat, true_and, and_true, and_self, and_false, false_and, BitVec.reduceEq, BitVec.reduceExtractLsb', ↓reduceIte]
theorem RoundTrip.remu (d : BitVec 5) (a : BitVec 5) (b : BitVec 5) (w : BitVec 1) : RoundTrip.Statement (.remu d a b w) := by
  show decodeWord (0x2#6 ++ d ++ a ++ b ++ 0x0#2 ++ w ++ 0x7#8) = .ok (.remu d a b w)
  simp (disch := decide) only [decodeWord, decodeMulDiv, field, field_above, field_below, field_whole, field_split _ 0 11 8 8 3 _ rfl rfl, Nat.reduceSub, BitVec.reduceToNat, true_and, and_true, and_self, and_false, false_and, BitVec.reduceEq, BitVec.reduceExtractLsb', ↓reduceIte]
theorem RoundTrip.addi (d : BitVec 5) (a : BitVec 5) (i : BitVec 16) : RoundTrip.Statement (.addi d a i) := by
  show decodeWord (0x3#6 ++ d ++ a ++ i) = .ok (.addi d a i)
  simp (disch := decide) only [decodeWord, field, field_above, field_below, field_whole, Nat.reduceSub, BitVec.reduceToNat, true_and, and_true, and_self, and_false, false_and, BitVec.reduceEq, BitVec.reduceExtractLsb', ↓reduceIte]
theorem RoundTrip.andi (d : BitVec 5) (a : BitVec 5) (i : BitVec 16) : RoundTrip.Statement (.andi d a i) := by
  show decodeWord (0x4#6 ++ d ++ a ++ i) = .ok (.andi d a i)
  simp (disch := decide) only [decodeWord, field, field_above, field_below, field_whole, Nat.reduceSub, BitVec.reduceToNat, true_and, and_true, and_self, and_false, false_and, BitVec.reduceEq, BitVec.reduceExtractLsb', ↓reduceIte]
theorem RoundTrip.ori (d : BitVec 5) (a : BitVec 5) (i : BitVec 16) : RoundTrip.Statement (.ori d a i) := by
  show decodeWord (0x5#6 ++ d ++ a ++ i) = .ok (.ori d a i)
  simp (disch := decide) only [decodeWord, field, field_above, field_below, field_whole, Nat.reduceSub, BitVec.reduceToNat, true_and, and_true, and_self, and_false, false_and, BitVec.reduceEq, BitVec.reduceExtractLsb', ↓reduceIte]
theorem RoundTrip.xori (d : BitVec 5) (a : BitVec 5) (i : BitVec 16) : RoundTrip.Statement (.xori d a i) := by
  show decodeWord (0x6#6 ++ d ++ a ++ i) = .ok (.xori d a i)
  simp (disch := decide) only [decodeWord, field, field_above, field_below, field_whole, Nat.reduceSub, BitVec.reduceToNat, true_and, and_true, and_self, and_false, false_and, BitVec.reduceEq, BitVec.reduceExtractLsb', ↓reduceIte]
theorem RoundTrip.slli (d : BitVec 5) (a : BitVec 5) (w : BitVec 1) (s : BitVec 6) : RoundTrip.Statement (.slli d a w s) := by
  show decodeWord (0x7#6 ++ d ++ a ++ 0x0#1 ++ w ++ 0x0#8 ++ s) = .ok (.slli d a w s)
  simp (disch := decide) only [decodeWord, decodeShiftI, field, field_above, field_below, field_whole, Nat.reduceSub, BitVec.reduceToNat, true_and, and_true, and_self, and_false, false_and, BitVec.reduceEq, BitVec.reduceExtractLsb', ↓reduceIte]
theorem RoundTrip.srli (d : BitVec 5) (a : BitVec 5) (w : BitVec 1) (s : BitVec 6) : RoundTrip.Statement (.srli d a w s) := by
  show decodeWord (0x7#6 ++ d ++ a ++ 0x0#1 ++ w ++ 0x40#8 ++ s) = .ok (.srli d a w s)
  simp (disch := decide) only [decodeWord, decodeShiftI, field, field_above, field_below, field_whole, Nat.reduceSub, BitVec.reduceToNat, true_and, and_true, and_self, and_false, false_and, BitVec.reduceEq, BitVec.reduceExtractLsb', ↓reduceIte]
theorem RoundTrip.srai (d : BitVec 5) (a : BitVec 5) (w : BitVec 1) (s : BitVec 6) : RoundTrip.Statement (.srai d a w s) := by
  show decodeWord (0x7#6 ++ d ++ a ++ 0x0#1 ++ w ++ 0x80#8 ++ s) = .ok (.srai d a w s)
  simp (disch := decide) only [decodeWord, decodeShiftI, field, field_above, field_below, field_whole, Nat.reduceSub, BitVec.reduceToNat, true_and, and_true, and_self, and_false, false_and, BitVec.reduceEq, BitVec.reduceExtractLsb', ↓reduceIte]
theorem RoundTrip.slti (d : BitVec 5) (a : BitVec 5) (i : BitVec 16) : RoundTrip.Statement (.slti d a i) := by
  show decodeWord (0x8#6 ++ d ++ a ++ i) = .ok (.slti d a i)
  simp (disch := decide) only [decodeWord, field, field_above, field_below, field_whole, Nat.reduceSub, BitVec.reduceToNat, true_and, and_true, and_self, and_false, false_and, BitVec.reduceEq, BitVec.reduceExtractLsb', ↓reduceIte]
theorem RoundTrip.sltiu (d : BitVec 5) (a : BitVec 5) (i : BitVec 16) : RoundTrip.Statement (.sltiu d a i) := by
  show decodeWord (0x9#6 ++ d ++ a ++ i) = .ok (.sltiu d a i)
  simp (disch := decide) only [decodeWord, field, field_above, field_below, field_whole, Nat.reduceSub, BitVec.reduceToNat, true_and, and_true, and_self, and_false, false_and, BitVec.reduceEq, BitVec.reduceExtractLsb', ↓reduceIte]
theorem RoundTrip.lui (d : BitVec 5) (i : BitVec 21) : RoundTrip.Statement (.lui d i) := by
  show decodeWord (0xa#6 ++ d ++ i) = .ok (.lui d i)
  simp (disch := decide) only [decodeWord, decodeLui, field, field_above, field_below, field_whole, Nat.reduceSub, BitVec.reduceToNat, true_and, and_true, and_self, and_false, false_and, BitVec.reduceEq, BitVec.reduceExtractLsb', ↓reduceIte]
theorem RoundTrip.auipc (d : BitVec 5) (i : BitVec 21) : RoundTrip.Statement (.auipc d i) := by
  show decodeWord (0xb#6 ++ d ++ i) = .ok (.auipc d i)
  simp (disch := decide) only [decodeWord, field, field_above, field_below, field_whole, Nat.reduceSub, BitVec.reduceToNat, true_and, and_true, and_self, and_false, false_and, BitVec.reduceEq, BitVec.reduceExtractLsb', ↓reduceIte]
theorem RoundTrip.ldx (d : BitVec 5) (a : BitVec 5) (b : BitVec 5) (w : BitVec 3) : RoundTrip.Statement (.ldx d a b w) := by
  show decodeWord (0xc#6 ++ d ++ a ++ b ++ 0x0#8 ++ w) = .ok (.ldx d a b w)
  simp (disch := decide) only [decodeWord, decodeLdx, field, field_above, field_below, field_whole, Nat.reduceSub, BitVec.reduceToNat, true_and, and_true, and_self, and_false, false_and, BitVec.reduceEq, BitVec.reduceExtractLsb', ↓reduceIte]
theorem RoundTrip.fadd (d : BitVec 5) (a : BitVec 5) (b : BitVec 5) (p : BitVec 1) : RoundTrip.Statement (.fadd d a b p) := by
  show decodeWord (0x10#6 ++ d ++ a ++ b ++ 0x0#10 ++ p) = .ok (.fadd d a b p)
  simp (disch := decide) only [decodeWord, decodeFop, field, field_above, field_below, field_whole, Nat.reduceSub, BitVec.reduceToNat, true_and, and_true, and_self, and_false, false_and, BitVec.reduceEq, BitVec.reduceExtractLsb', ↓reduceIte]
theorem RoundTrip.fsub (d : BitVec 5) (a : BitVec 5) (b : BitVec 5) (p : BitVec 1) : RoundTrip.Statement (.fsub d a b p) := by
  show decodeWord (0x10#6 ++ d ++ a ++ b ++ 0x1#10 ++ p) = .ok (.fsub d a b p)
  simp (disch := decide) only [decodeWord, decodeFop, field, field_above, field_below, field_whole, Nat.reduceSub, BitVec.reduceToNat, true_and, and_true, and_self, and_false, false_and, BitVec.reduceEq, BitVec.reduceExtractLsb', ↓reduceIte]
theorem RoundTrip.fmul (d : BitVec 5) (a : BitVec 5) (b : BitVec 5) (p : BitVec 1) : RoundTrip.Statement (.fmul d a b p) := by
  show decodeWord (0x10#6 ++ d ++ a ++ b ++ 0x2#10 ++ p) = .ok (.fmul d a b p)
  simp (disch := decide) only [decodeWord, decodeFop, field, field_above, field_below, field_whole, Nat.reduceSub, BitVec.reduceToNat, true_and, and_true, and_self, and_false, false_and, BitVec.reduceEq, BitVec.reduceExtractLsb', ↓reduceIte]
theorem RoundTrip.fdiv (d : BitVec 5) (a : BitVec 5) (b : BitVec 5) (p : BitVec 1) : RoundTrip.Statement (.fdiv d a b p) := by
  show decodeWord (0x10#6 ++ d ++ a ++ b ++ 0x3#10 ++ p) = .ok (.fdiv d a b p)
  simp (disch := decide) only [decodeWord, decodeFop, field, field_above, field_below, field_whole, Nat.reduceSub, BitVec.reduceToNat, true_and, and_true, and_self, and_false, false_and, BitVec.reduceEq, BitVec.reduceExtractLsb', ↓reduceIte]
theorem RoundTrip.fsqrt (d : BitVec 5) (a : BitVec 5) (p : BitVec 1) : RoundTrip.Statement (.fsqrt d a p) := by
  show decodeWord (0x10#6 ++ d ++ a ++ 0x4#15 ++ p) = .ok (.fsqrt d a p)
  simp (disch := decide) only [decodeWord, decodeFop, field, field_above, field_below, field_whole, Nat.reduceSub, BitVec.reduceToNat, true_and, and_true, and_self, and_false, false_and, BitVec.reduceEq, BitVec.reduceExtractLsb', ↓reduceIte]
theorem RoundTrip.fmin (d : BitVec 5) (a : BitVec 5) (b : BitVec 5) (p : BitVec 1) : RoundTrip.Statement (.fmin d a b p) := by
  show decodeWord (0x10#6 ++ d ++ a ++ b ++ 0x5#10 ++ p) = .ok (.fmin d a b p)
  simp (disch := decide) only [decodeWord, decodeFop, field, field_above, field_below, field_whole, field_split _ 0 15 10 10 5 _ rfl rfl, Nat.reduceSub, BitVec.reduceToNat, true_and, and_true, and_self, and_false, false_and, BitVec.reduceEq, BitVec.reduceExtractLsb', ↓reduceIte]
theorem RoundTrip.fmax (d : BitVec 5) (a : BitVec 5) (b : BitVec 5) (p : BitVec 1) : RoundTrip.Statement (.fmax d a b p) := by
  show decodeWord (0x10#6 ++ d ++ a ++ b ++ 0x6#10 ++ p) = .ok (.fmax d a b p)
  simp (disch := decide) only [decodeWord, decodeFop, field, field_above, field_below, field_whole, field_split _ 0 15 10 10 5 _ rfl rfl, Nat.reduceSub, BitVec.reduceToNat, true_and, and_true, and_self, and_false, false_and, BitVec.reduceEq, BitVec.reduceExtractLsb', ↓reduceIte]
theorem RoundTrip.fsgnj (d : BitVec 5) (a : BitVec 5) (b : BitVec 5) (p : BitVec 1) : RoundTrip.Statement (.fsgnj d a b p) := by
  show decodeWord (0x10#6 ++ d ++ a ++ b ++ 0x7#10 ++ p) = .ok (.fsgnj d a b p)
  simp (disch := decide) only [decodeWord, decodeFop, field, field_above, field_below, field_whole, field_split _ 0 15 10 10 5 _ rfl rfl, Nat.reduceSub, BitVec.reduceToNat, true_and, and_true, and_self, and_false, false_and, BitVec.reduceEq, BitVec.reduceExtractLsb', ↓reduceIte]
theorem RoundTrip.fsgnjn (d : BitVec 5) (a : BitVec 5) (b : BitVec 5) (p : BitVec 1) : RoundTrip.Statement (.fsgnjn d a b p) := by
  show decodeWord (0x10#6 ++ d ++ a ++ b ++ 0x8#10 ++ p) = .ok (.fsgnjn d a b p)
  simp (disch := decide) only [decodeWord, decodeFop, field, field_above, field_below, field_whole, field_split _ 0 15 10 10 5 _ rfl rfl, Nat.reduceSub, BitVec.reduceToNat, true_and, and_true, and_self, and_false, false_and, BitVec.reduceEq, BitVec.reduceExtractLsb', ↓reduceIte]
theorem RoundTrip.fsgnjx (d : BitVec 5) (a : BitVec 5) (b : BitVec 5) (p : BitVec 1) : RoundTrip.Statement (.fsgnjx d a b p) := by
  show decodeWord (0x10#6 ++ d ++ a ++ b ++ 0x9#10 ++ p) = .ok (.fsgnjx d a b p)
  simp (disch := decide) only [decodeWord, decodeFop, field, field_above, field_below, field_whole, field_split _ 0 15 10 10 5 _ rfl rfl, Nat.reduceSub, BitVec.reduceToNat, true_and, and_true, and_self, and_false, false_and, BitVec.reduceEq, BitVec.reduceExtractLsb', ↓reduceIte]
theorem RoundTrip.feq (d : BitVec 5) (a : BitVec 5) (b : BitVec 5) (p : BitVec 1) : RoundTrip.Statement (.feq d a b p) := by
  show decodeWord (0x10#6 ++ d ++ a ++ b ++ 0xa#10 ++ p) = .ok (.feq d a b p)
  simp (disch := decide) only [decodeWord, decodeFop, field, field_above, field_below, field_whole, field_split _ 0 15 10 10 5 _ rfl rfl, Nat.reduceSub, BitVec.reduceToNat, true_and, and_true, and_self, and_false, false_and, BitVec.reduceEq, BitVec.reduceExtractLsb', ↓reduceIte]
theorem RoundTrip.flt (d : BitVec 5) (a : BitVec 5) (b : BitVec 5) (p : BitVec 1) : RoundTrip.Statement (.flt d a b p) := by
  show decodeWord (0x10#6 ++ d ++ a ++ b ++ 0xb#10 ++ p) = .ok (.flt d a b p)
  simp (disch := decide) only [decodeWord, decodeFop, field, field_above, field_below, field_whole, field_split _ 0 15 10 10 5 _ rfl rfl, Nat.reduceSub, BitVec.reduceToNat, true_and, and_true, and_self, and_false, false_and, BitVec.reduceEq, BitVec.reduceExtractLsb', ↓reduceIte]
theorem RoundTrip.fle (d : BitVec 5) (a : BitVec 5) (b : BitVec 5) (p : BitVec 1) : RoundTrip.Statement (.fle d a b p) := by
  show decodeWord (0x10#6 ++ d ++ a ++ b ++ 0xc#10 ++ p) = .ok (.fle d a b p)
  simp (disch := decide) only [decodeWord, decodeFop, field, field_above, field_below, field_whole, field_split _ 0 15 10 10 5 _ rfl rfl, Nat.reduceSub, BitVec.reduceToNat, true_and, and_true, and_self, and_false, false_and, BitVec.reduceEq, BitVec.reduceExtractLsb', ↓reduceIte]
theorem RoundTrip.fmadd (d : BitVec 5) (a : BitVec 5) (b : BitVec 5) (c : BitVec 5) (p : BitVec 1) : RoundTrip.Statement (.fmadd d a b c p) := by
  show decodeWord (0x11#6 ++ d ++ a ++ b ++ c ++ 0x0#5 ++ p) = .ok (.fmadd d a b c p)
  simp (disch := decide) only [decodeWord, decodeFma, field, field_above, field_below, field_whole, Nat.reduceSub, BitVec.reduceToNat, true_and, and_true, and_self, and_false, false_and, BitVec.reduceEq, BitVec.reduceExtractLsb', ↓reduceIte]
theorem RoundTrip.fmsub (d : BitVec 5) (a : BitVec 5) (b : BitVec 5) (c : BitVec 5) (p : BitVec 1) : RoundTrip.Statement (.fmsub d a b c p) := by
  show decodeWord (0x11#6 ++ d ++ a ++ b ++ c ++ 0x1#5 ++ p) = .ok (.fmsub d a b c p)
  simp (disch := decide) only [decodeWord, decodeFma, field, field_above, field_below, field_whole, Nat.reduceSub, BitVec.reduceToNat, true_and, and_true, and_self, and_false, false_and, BitVec.reduceEq, BitVec.reduceExtractLsb', ↓reduceIte]
theorem RoundTrip.fnmadd (d : BitVec 5) (a : BitVec 5) (b : BitVec 5) (c : BitVec 5) (p : BitVec 1) : RoundTrip.Statement (.fnmadd d a b c p) := by
  show decodeWord (0x11#6 ++ d ++ a ++ b ++ c ++ 0x2#5 ++ p) = .ok (.fnmadd d a b c p)
  simp (disch := decide) only [decodeWord, decodeFma, field, field_above, field_below, field_whole, Nat.reduceSub, BitVec.reduceToNat, true_and, and_true, and_self, and_false, false_and, BitVec.reduceEq, BitVec.reduceExtractLsb', ↓reduceIte]
theorem RoundTrip.fnmsub (d : BitVec 5) (a : BitVec 5) (b : BitVec 5) (c : BitVec 5) (p : BitVec 1) : RoundTrip.Statement (.fnmsub d a b c p) := by
  show decodeWord (0x11#6 ++ d ++ a ++ b ++ c ++ 0x3#5 ++ p) = .ok (.fnmsub d a b c p)
  simp (disch := decide) only [decodeWord, decodeFma, field, field_above, field_below, field_whole, Nat.reduceSub, BitVec.reduceToNat, true_and, and_true, and_self, and_false, false_and, BitVec.reduceEq, BitVec.reduceExtractLsb', ↓reduceIte]
theorem RoundTrip.fcvt (d : BitVec 5) (a : BitVec 5) (t : BitVec 4) (s : BitVec 4) : RoundTrip.Statement (.fcvt d a t s) := by
  show decodeWord (0x12#6 ++ d ++ a ++ 0x0#6 ++ t ++ s ++ 0x0#2) = .ok (.fcvt d a t s)
  simp (disch := decide) only [decodeWord, decodeCvt, field, field_above, field_below, field_whole, Nat.reduceSub, BitVec.reduceToNat, true_and, and_true, and_self, and_false, false_and, BitVec.reduceEq, BitVec.reduceExtractLsb', ↓reduceIte]
theorem RoundTrip.fclass (d : BitVec 5) (a : BitVec 5) (s : BitVec 4) : RoundTrip.Statement (.fclass d a s) := by
  show decodeWord (0x12#6 ++ d ++ a ++ 0x0#10 ++ s ++ 0x1#2) = .ok (.fclass d a s)
  simp (disch := decide) only [decodeWord, decodeCvt, field, field_above, field_below, field_whole, Nat.reduceSub, BitVec.reduceToNat, true_and, and_true, and_self, and_false, false_and, BitVec.reduceEq, BitVec.reduceExtractLsb', ↓reduceIte]
theorem RoundTrip.beq (a : BitVec 5) (b : BitVec 5) (o : BitVec 13) : RoundTrip.Statement (.beq a b o) := by
  show decodeWord (0x18#6 ++ a ++ b ++ 0x0#3 ++ o) = .ok (.beq a b o)
  simp (disch := decide) only [decodeWord, decodeBr, field, field_above, field_below, field_whole, Nat.reduceSub, BitVec.reduceToNat, true_and, and_true, and_self, and_false, false_and, BitVec.reduceEq, BitVec.reduceExtractLsb', ↓reduceIte]
theorem RoundTrip.bne (a : BitVec 5) (b : BitVec 5) (o : BitVec 13) : RoundTrip.Statement (.bne a b o) := by
  show decodeWord (0x18#6 ++ a ++ b ++ 0x1#3 ++ o) = .ok (.bne a b o)
  simp (disch := decide) only [decodeWord, decodeBr, field, field_above, field_below, field_whole, Nat.reduceSub, BitVec.reduceToNat, true_and, and_true, and_self, and_false, false_and, BitVec.reduceEq, BitVec.reduceExtractLsb', ↓reduceIte]
theorem RoundTrip.blt (a : BitVec 5) (b : BitVec 5) (o : BitVec 13) : RoundTrip.Statement (.blt a b o) := by
  show decodeWord (0x18#6 ++ a ++ b ++ 0x2#3 ++ o) = .ok (.blt a b o)
  simp (disch := decide) only [decodeWord, decodeBr, field, field_above, field_below, field_whole, Nat.reduceSub, BitVec.reduceToNat, true_and, and_true, and_self, and_false, false_and, BitVec.reduceEq, BitVec.reduceExtractLsb', ↓reduceIte]
theorem RoundTrip.bge (a : BitVec 5) (b : BitVec 5) (o : BitVec 13) : RoundTrip.Statement (.bge a b o) := by
  show decodeWord (0x18#6 ++ a ++ b ++ 0x3#3 ++ o) = .ok (.bge a b o)
  simp (disch := decide) only [decodeWord, decodeBr, field, field_above, field_below, field_whole, Nat.reduceSub, BitVec.reduceToNat, true_and, and_true, and_self, and_false, false_and, BitVec.reduceEq, BitVec.reduceExtractLsb', ↓reduceIte]
theorem RoundTrip.bltu (a : BitVec 5) (b : BitVec 5) (o : BitVec 13) : RoundTrip.Statement (.bltu a b o) := by
  show decodeWord (0x18#6 ++ a ++ b ++ 0x4#3 ++ o) = .ok (.bltu a b o)
  simp (disch := decide) only [decodeWord, decodeBr, field, field_above, field_below, field_whole, Nat.reduceSub, BitVec.reduceToNat, true_and, and_true, and_self, and_false, false_and, BitVec.reduceEq, BitVec.reduceExtractLsb', ↓reduceIte]
theorem RoundTrip.bgeu (a : BitVec 5) (b : BitVec 5) (o : BitVec 13) : RoundTrip.Statement (.bgeu a b o) := by
  show decodeWord (0x18#6 ++ a ++ b ++ 0x5#3 ++ o) = .ok (.bgeu a b o)
  simp (disch := decide) only [decodeWord, decodeBr, field, field_above, field_below, field_whole, Nat.reduceSub, BitVec.reduceToNat, true_and, and_true, and_self, and_false, false_and, BitVec.reduceEq, BitVec.reduceExtractLsb', ↓reduceIte]
theorem RoundTrip.bmany (a : BitVec 5) (o : BitVec 13) : RoundTrip.Statement (.bmany a o) := by
  show decodeWord (0x18#6 ++ a ++ 0x6#8 ++ o) = .ok (.bmany a o)
  simp (disch := decide) only [decodeWord, decodeBr, field, field_above, field_below, field_whole, Nat.reduceSub, BitVec.reduceToNat, true_and, and_true, and_self, and_false, false_and, BitVec.reduceEq, BitVec.reduceExtractLsb', ↓reduceIte]
theorem RoundTrip.bmnone (a : BitVec 5) (o : BitVec 13) : RoundTrip.Statement (.bmnone a o) := by
  show decodeWord (0x18#6 ++ a ++ 0x7#8 ++ o) = .ok (.bmnone a o)
  simp (disch := decide) only [decodeWord, decodeBr, field, field_above, field_below, field_whole, Nat.reduceSub, BitVec.reduceToNat, true_and, and_true, and_self, and_false, false_and, BitVec.reduceEq, BitVec.reduceExtractLsb', ↓reduceIte]
theorem RoundTrip.jal (d : BitVec 5) (i : BitVec 21) : RoundTrip.Statement (.jal d i) := by
  show decodeWord (0x19#6 ++ d ++ i) = .ok (.jal d i)
  simp (disch := decide) only [decodeWord, field, field_above, field_below, field_whole, Nat.reduceSub, BitVec.reduceToNat, true_and, and_true, and_self, and_false, false_and, BitVec.reduceEq, BitVec.reduceExtractLsb', ↓reduceIte]
theorem RoundTrip.jalr (d : BitVec 5) (a : BitVec 5) (i : BitVec 16) : RoundTrip.Statement (.jalr d a i) := by
  show decodeWord (0x1a#6 ++ d ++ a ++ i) = .ok (.jalr d a i)
  simp (disch := decide) only [decodeWord, field, field_above, field_below, field_whole, Nat.reduceSub, BitVec.reduceToNat, true_and, and_true, and_self, and_false, false_and, BitVec.reduceEq, BitVec.reduceExtractLsb', ↓reduceIte]
theorem RoundTrip.sysc (d : BitVec 5) (a : BitVec 5) (c : BitVec 12) : RoundTrip.Statement (.sysc d a c) := by
  show decodeWord (0x1b#6 ++ d ++ a ++ 0x0#4 ++ c) = .ok (.sysc d a c)
  simp (disch := decide) only [decodeWord, decodeSys, field, field_above, field_below, field_whole, Nat.reduceSub, BitVec.reduceToNat, true_and, and_true, and_self, and_false, false_and, BitVec.reduceEq, BitVec.reduceExtractLsb', ↓reduceIte]
theorem RoundTrip.brk (c : BitVec 12) : RoundTrip.Statement (.brk c) := by
  show decodeWord (0x6c001#20 ++ c) = .ok (.brk c)
  simp (disch := decide) only [decodeWord, decodeSys, field, field_above, field_below, field_whole, Nat.reduceSub, BitVec.reduceToNat, true_and, and_true, and_self, and_false, false_and, BitVec.reduceEq, BitVec.reduceExtractLsb', ↓reduceIte]
theorem RoundTrip.exit : RoundTrip.Statement (.exit) := by
  show decodeWord (0x6c002000#32) = .ok (.exit)
  simp (disch := decide) only [decodeWord, decodeSys, field, field_above, field_below, field_whole, Nat.reduceSub, BitVec.reduceToNat, true_and, and_true, and_self, and_false, false_and, BitVec.reduceEq, BitVec.reduceExtractLsb', ↓reduceIte]
theorem RoundTrip.yield : RoundTrip.Statement (.yield) := by
  show decodeWord (0x6c003000#32) = .ok (.yield)
  simp (disch := decide) only [decodeWord, decodeSys, field, field_above, field_below, field_whole, Nat.reduceSub, BitVec.reduceToNat, true_and, and_true, and_self, and_false, false_and, BitVec.reduceEq, BitVec.reduceExtractLsb', ↓reduceIte]
theorem RoundTrip.svcRecv (d : BitVec 5) (a : BitVec 5) : RoundTrip.Statement (.svcRecv d a) := by
  show decodeWord (0x1b#6 ++ d ++ a ++ 0x4000#16) = .ok (.svcRecv d a)
  simp (disch := decide) only [decodeWord, decodeSys, field, field_above, field_below, field_whole, field_split _ 0 26 16 16 10 _ rfl rfl, field_split _ 12 14 4 16 10 _ rfl rfl, Nat.reduceSub, BitVec.reduceToNat, true_and, and_true, and_self, and_false, false_and, BitVec.reduceEq, BitVec.reduceExtractLsb', ↓reduceIte]
theorem RoundTrip.svcResume (d : BitVec 5) (a : BitVec 5) (c : BitVec 12) : RoundTrip.Statement (.svcResume d a c) := by
  show decodeWord (0x1b#6 ++ d ++ a ++ 0x5#4 ++ c) = .ok (.svcResume d a c)
  simp (disch := decide) only [decodeWord, decodeSys, field, field_above, field_below, field_whole, field_split _ 0 14 4 4 10 _ rfl rfl, field_split _ 0 16 12 12 4 _ rfl rfl, field_split _ 0 26 16 16 10 _ rfl rfl, Nat.reduceSub, BitVec.reduceToNat, true_and, and_true, and_self, and_false, false_and, BitVec.reduceEq, BitVec.reduceExtractLsb', ↓reduceIte]
theorem RoundTrip.svcKill (a : BitVec 5) : RoundTrip.Statement (.svcKill a) := by
  show decodeWord (0x360#11 ++ a ++ 0x6000#16) = .ok (.svcKill a)
  simp (disch := decide) only [decodeWord, decodeSys, field, field_above, field_below, field_whole, field_split _ 0 26 16 16 10 _ rfl rfl, field_split _ 12 14 4 16 10 _ rfl rfl, Nat.reduceSub, BitVec.reduceToNat, true_and, and_true, and_self, and_false, false_and, BitVec.reduceEq, BitVec.reduceExtractLsb', ↓reduceIte]
theorem RoundTrip.csrr (d : BitVec 5) (n : BitVec 12) : RoundTrip.Statement (.csrr d n) := by
  show decodeWord (0x1c#6 ++ d ++ 0x0#9 ++ n) = .ok (.csrr d n)
  simp (disch := decide) only [decodeWord, decodeCsr, field, field_above, field_below, field_whole, Nat.reduceSub, BitVec.reduceToNat, true_and, and_true, and_self, and_false, false_and, BitVec.reduceEq, BitVec.reduceExtractLsb', ↓reduceIte]
theorem RoundTrip.csrw (d : BitVec 5) (a : BitVec 5) (n : BitVec 12) : RoundTrip.Statement (.csrw d a n) := by
  show decodeWord (0x1c#6 ++ d ++ a ++ 0x1#4 ++ n) = .ok (.csrw d a n)
  simp (disch := decide) only [decodeWord, decodeCsr, field, field_above, field_below, field_whole, field_split _ 0 9 4 4 5 _ rfl rfl, Nat.reduceSub, BitVec.reduceToNat, true_and, and_true, and_self, and_false, false_and, BitVec.reduceEq, BitVec.reduceExtractLsb', ↓reduceIte]
theorem RoundTrip.csrs (d : BitVec 5) (a : BitVec 5) (n : BitVec 12) : RoundTrip.Statement (.csrs d a n) := by
  show decodeWord (0x1c#6 ++ d ++ a ++ 0x2#4 ++ n) = .ok (.csrs d a n)
  simp (disch := decide) only [decodeWord, decodeCsr, field, field_above, field_below, field_whole, field_split _ 0 9 4 4 5 _ rfl rfl, Nat.reduceSub, BitVec.reduceToNat, true_and, and_true, and_self, and_false, false_and, BitVec.reduceEq, BitVec.reduceExtractLsb', ↓reduceIte]
theorem RoundTrip.csrc (d : BitVec 5) (a : BitVec 5) (n : BitVec 12) : RoundTrip.Statement (.csrc d a n) := by
  show decodeWord (0x1c#6 ++ d ++ a ++ 0x3#4 ++ n) = .ok (.csrc d a n)
  simp (disch := decide) only [decodeWord, decodeCsr, field, field_above, field_below, field_whole, field_split _ 0 9 4 4 5 _ rfl rfl, Nat.reduceSub, BitVec.reduceToNat, true_and, and_true, and_self, and_false, false_and, BitVec.reduceEq, BitVec.reduceExtractLsb', ↓reduceIte]
theorem RoundTrip.gear (d : BitVec 5) (g : BitVec 1) : RoundTrip.Statement (.gear d g) := by
  show decodeWord (0x1d#6 ++ d ++ 0x0#20 ++ g) = .ok (.gear d g)
  simp (disch := decide) only [decodeWord, decodeGear, field, field_above, field_below, field_whole, Nat.reduceSub, BitVec.reduceToNat, true_and, and_true, and_self, and_false, false_and, BitVec.reduceEq, BitVec.reduceExtractLsb', ↓reduceIte]
theorem RoundTrip.send (d : BitVec 5) (a : BitVec 5) (b : BitVec 5) : RoundTrip.Statement (.send d a b) := by
  show decodeWord (0x1e#6 ++ d ++ a ++ b ++ 0x0#11) = .ok (.send d a b)
  simp (disch := decide) only [decodeWord, decodeMsg, field, field_above, field_below, field_whole, Nat.reduceSub, BitVec.reduceToNat, true_and, and_true, and_self, and_false, false_and, BitVec.reduceEq, BitVec.reduceExtractLsb', ↓reduceIte]
theorem RoundTrip.courier (a : BitVec 5) (b : BitVec 5) : RoundTrip.Statement (.courier a b) := by
  show decodeWord (0x3c0#11 ++ a ++ b ++ 0x1#11) = .ok (.courier a b)
  simp (disch := decide) only [decodeWord, decodeMsg, field, field_above, field_below, field_whole, Nat.reduceSub, BitVec.reduceToNat, true_and, and_true, and_self, and_false, false_and, BitVec.reduceEq, BitVec.reduceExtractLsb', ↓reduceIte]
theorem RoundTrip.bind (a : BitVec 5) (b : BitVec 5) : RoundTrip.Statement (.bind a b) := by
  show decodeWord (0x3c0#11 ++ a ++ b ++ 0x2#11) = .ok (.bind a b)
  simp (disch := decide) only [decodeWord, decodeMsg, field, field_above, field_below, field_whole, Nat.reduceSub, BitVec.reduceToNat, true_and, and_true, and_self, and_false, false_and, BitVec.reduceEq, BitVec.reduceExtractLsb', ↓reduceIte]
theorem RoundTrip.unbind (b : BitVec 5) : RoundTrip.Statement (.unbind b) := by
  show decodeWord (0x7800#16 ++ b ++ 0x3#11) = .ok (.unbind b)
  simp (disch := decide) only [decodeWord, decodeMsg, field, field_above, field_below, field_whole, Nat.reduceSub, BitVec.reduceToNat, true_and, and_true, and_self, and_false, false_and, BitVec.reduceEq, BitVec.reduceExtractLsb', ↓reduceIte]
theorem RoundTrip.launch (d : BitVec 5) (a : BitVec 5) (b : BitVec 5) : RoundTrip.Statement (.launch d a b) := by
  show decodeWord (0x1f#6 ++ d ++ a ++ b ++ 0x0#11) = .ok (.launch d a b)
  simp (disch := decide) only [decodeWord, decodeWork, field, field_above, field_below, field_whole, Nat.reduceSub, BitVec.reduceToNat, true_and, and_true, and_self, and_false, false_and, BitVec.reduceEq, BitVec.reduceExtractLsb', ↓reduceIte]
theorem RoundTrip.relaunch (d : BitVec 5) (a : BitVec 5) (b : BitVec 5) (l : BitVec 8) : RoundTrip.Statement (.relaunch d a b l) := by
  show decodeWord (0x1f#6 ++ d ++ a ++ b ++ l ++ 0x1#3) = .ok (.relaunch d a b l)
  simp (disch := decide) only [decodeWord, decodeWork, field, field_above, field_below, field_whole, field_split _ 0 11 3 3 8 _ rfl rfl, Nat.reduceSub, BitVec.reduceToNat, true_and, and_true, and_self, and_false, false_and, BitVec.reduceEq, BitVec.reduceExtractLsb', ↓reduceIte]
theorem RoundTrip.wbSkip (a : BitVec 5) (b : BitVec 5) : RoundTrip.Statement (.wbSkip a b) := by
  show decodeWord (0x3e0#11 ++ a ++ b ++ 0x2#11) = .ok (.wbSkip a b)
  simp (disch := decide) only [decodeWord, decodeWork, field, field_above, field_below, field_whole, Nat.reduceSub, BitVec.reduceToNat, true_and, and_true, and_self, and_false, false_and, BitVec.reduceEq, BitVec.reduceExtractLsb', ↓reduceIte]
theorem RoundTrip.wbAll : RoundTrip.Statement (.wbAll) := by
  show decodeWord (0x7c000003#32) = .ok (.wbAll)
  simp (disch := decide) only [decodeWord, decodeWork, field, field_above, field_below, field_whole, Nat.reduceSub, BitVec.reduceToNat, true_and, and_true, and_self, and_false, false_and, BitVec.reduceEq, BitVec.reduceExtractLsb', ↓reduceIte]
theorem RoundTrip.vadd (d : BitVec 5) (a : BitVec 5) (b : BitVec 5) (m : BitVec 3) (e : BitVec 2) (x : BitVec 1) : RoundTrip.Statement (.vadd d a b m e x) := by
  show decodeWord (0x20#6 ++ d ++ a ++ b ++ m ++ e ++ x ++ 0x0#5) = .ok (.vadd d a b m e x)
  simp (disch := decide) only [decodeWord, decodeVop, field, field_above, field_below, field_whole, Nat.reduceSub, BitVec.reduceToNat, true_and, and_true, and_self, and_false, false_and, BitVec.reduceEq, BitVec.reduceExtractLsb', ↓reduceIte]
theorem RoundTrip.vsub (d : BitVec 5) (a : BitVec 5) (b : BitVec 5) (m : BitVec 3) (e : BitVec 2) (x : BitVec 1) : RoundTrip.Statement (.vsub d a b m e x) := by
  show decodeWord (0x20#6 ++ d ++ a ++ b ++ m ++ e ++ x ++ 0x1#5) = .ok (.vsub d a b m e x)
  simp (disch := decide) only [decodeWord, decodeVop, field, field_above, field_below, field_whole, Nat.reduceSub, BitVec.reduceToNat, true_and, and_true, and_self, and_false, false_and, BitVec.reduceEq, BitVec.reduceExtractLsb', ↓reduceIte]
theorem RoundTrip.vand (d : BitVec 5) (a : BitVec 5) (b : BitVec 5) (m : BitVec 3) (e : BitVec 2) (x : BitVec 1) : RoundTrip.Statement (.vand d a b m e x) := by
  show decodeWord (0x20#6 ++ d ++ a ++ b ++ m ++ e ++ x ++ 0x2#5) = .ok (.vand d a b m e x)
  simp (disch := decide) only [decodeWord, decodeVop, field, field_above, field_below, field_whole, Nat.reduceSub, BitVec.reduceToNat, true_and, and_true, and_self, and_false, false_and, BitVec.reduceEq, BitVec.reduceExtractLsb', ↓reduceIte]
theorem RoundTrip.vor (d : BitVec 5) (a : BitVec 5) (b : BitVec 5) (m : BitVec 3) (e : BitVec 2) (x : BitVec 1) : RoundTrip.Statement (.vor d a b m e x) := by
  show decodeWord (0x20#6 ++ d ++ a ++ b ++ m ++ e ++ x ++ 0x3#5) = .ok (.vor d a b m e x)
  simp (disch := decide) only [decodeWord, decodeVop, field, field_above, field_below, field_whole, Nat.reduceSub, BitVec.reduceToNat, true_and, and_true, and_self, and_false, false_and, BitVec.reduceEq, BitVec.reduceExtractLsb', ↓reduceIte]
theorem RoundTrip.vxor (d : BitVec 5) (a : BitVec 5) (b : BitVec 5) (m : BitVec 3) (e : BitVec 2) (x : BitVec 1) : RoundTrip.Statement (.vxor d a b m e x) := by
  show decodeWord (0x20#6 ++ d ++ a ++ b ++ m ++ e ++ x ++ 0x4#5) = .ok (.vxor d a b m e x)
  simp (disch := decide) only [decodeWord, decodeVop, field, field_above, field_below, field_whole, Nat.reduceSub, BitVec.reduceToNat, true_and, and_true, and_self, and_false, false_and, BitVec.reduceEq, BitVec.reduceExtractLsb', ↓reduceIte]
theorem RoundTrip.vandn (d : BitVec 5) (a : BitVec 5) (b : BitVec 5) (m : BitVec 3) (e : BitVec 2) (x : BitVec 1) : RoundTrip.Statement (.vandn d a b m e x) := by
  show decodeWord (0x20#6 ++ d ++ a ++ b ++ m ++ e ++ x ++ 0x5#5) = .ok (.vandn d a b m e x)
  simp (disch := decide) only [decodeWord, decodeVop, field, field_above, field_below, field_whole, Nat.reduceSub, BitVec.reduceToNat, true_and, and_true, and_self, and_false, false_and, BitVec.reduceEq, BitVec.reduceExtractLsb', ↓reduceIte]
theorem RoundTrip.vsll (d : BitVec 5) (a : BitVec 5) (b : BitVec 5) (m : BitVec 3) (e : BitVec 2) (x : BitVec 1) : RoundTrip.Statement (.vsll d a b m e x) := by
  show decodeWord (0x20#6 ++ d ++ a ++ b ++ m ++ e ++ x ++ 0x6#5) = .ok (.vsll d a b m e x)
  simp (disch := decide) only [decodeWord, decodeVop, field, field_above, field_below, field_whole, Nat.reduceSub, BitVec.reduceToNat, true_and, and_true, and_self, and_false, false_and, BitVec.reduceEq, BitVec.reduceExtractLsb', ↓reduceIte]
theorem RoundTrip.vsrl (d : BitVec 5) (a : BitVec 5) (b : BitVec 5) (m : BitVec 3) (e : BitVec 2) (x : BitVec 1) : RoundTrip.Statement (.vsrl d a b m e x) := by
  show decodeWord (0x20#6 ++ d ++ a ++ b ++ m ++ e ++ x ++ 0x7#5) = .ok (.vsrl d a b m e x)
  simp (disch := decide) only [decodeWord, decodeVop, field, field_above, field_below, field_whole, Nat.reduceSub, BitVec.reduceToNat, true_and, and_true, and_self, and_false, false_and, BitVec.reduceEq, BitVec.reduceExtractLsb', ↓reduceIte]
theorem RoundTrip.vsra (d : BitVec 5) (a : BitVec 5) (b : BitVec 5) (m : BitVec 3) (e : BitVec 2) (x : BitVec 1) : RoundTrip.Statement (.vsra d a b m e x) := by
  show decodeWord (0x20#6 ++ d ++ a ++ b ++ m ++ e ++ x ++ 0x8#5) = .ok (.vsra d a b m e x)
  simp (disch := decide) only [decodeWord, decodeVop, field, field_above, field_below, field_whole, Nat.reduceSub, BitVec.reduceToNat, true_and, and_true, and_self, and_false, false_and, BitVec.reduceEq, BitVec.reduceExtractLsb', ↓reduceIte]
theorem RoundTrip.vmin (d : BitVec 5) (a : BitVec 5) (b : BitVec 5) (m : BitVec 3) (e : BitVec 2) (x : BitVec 1) : RoundTrip.Statement (.vmin d a b m e x) := by
  show decodeWord (0x20#6 ++ d ++ a ++ b ++ m ++ e ++ x ++ 0x9#5) = .ok (.vmin d a b m e x)
  simp (disch := decide) only [decodeWord, decodeVop, field, field_above, field_below, field_whole, Nat.reduceSub, BitVec.reduceToNat, true_and, and_true, and_self, and_false, false_and, BitVec.reduceEq, BitVec.reduceExtractLsb', ↓reduceIte]
theorem RoundTrip.vmax (d : BitVec 5) (a : BitVec 5) (b : BitVec 5) (m : BitVec 3) (e : BitVec 2) (x : BitVec 1) : RoundTrip.Statement (.vmax d a b m e x) := by
  show decodeWord (0x20#6 ++ d ++ a ++ b ++ m ++ e ++ x ++ 0xa#5) = .ok (.vmax d a b m e x)
  simp (disch := decide) only [decodeWord, decodeVop, field, field_above, field_below, field_whole, Nat.reduceSub, BitVec.reduceToNat, true_and, and_true, and_self, and_false, false_and, BitVec.reduceEq, BitVec.reduceExtractLsb', ↓reduceIte]
theorem RoundTrip.vminu (d : BitVec 5) (a : BitVec 5) (b : BitVec 5) (m : BitVec 3) (e : BitVec 2) (x : BitVec 1) : RoundTrip.Statement (.vminu d a b m e x) := by
  show decodeWord (0x20#6 ++ d ++ a ++ b ++ m ++ e ++ x ++ 0xb#5) = .ok (.vminu d a b m e x)
  simp (disch := decide) only [decodeWord, decodeVop, field, field_above, field_below, field_whole, Nat.reduceSub, BitVec.reduceToNat, true_and, and_true, and_self, and_false, false_and, BitVec.reduceEq, BitVec.reduceExtractLsb', ↓reduceIte]
theorem RoundTrip.vmaxu (d : BitVec 5) (a : BitVec 5) (b : BitVec 5) (m : BitVec 3) (e : BitVec 2) (x : BitVec 1) : RoundTrip.Statement (.vmaxu d a b m e x) := by
  show decodeWord (0x20#6 ++ d ++ a ++ b ++ m ++ e ++ x ++ 0xc#5) = .ok (.vmaxu d a b m e x)
  simp (disch := decide) only [decodeWord, decodeVop, field, field_above, field_below, field_whole, Nat.reduceSub, BitVec.reduceToNat, true_and, and_true, and_self, and_false, false_and, BitVec.reduceEq, BitVec.reduceExtractLsb', ↓reduceIte]
theorem RoundTrip.vmul (d : BitVec 5) (a : BitVec 5) (b : BitVec 5) (m : BitVec 3) (e : BitVec 2) (x : BitVec 1) : RoundTrip.Statement (.vmul d a b m e x) := by
  show decodeWord (0x20#6 ++ d ++ a ++ b ++ m ++ e ++ x ++ 0xd#5) = .ok (.vmul d a b m e x)
  simp (disch := decide) only [decodeWord, decodeVop, field, field_above, field_below, field_whole, Nat.reduceSub, BitVec.reduceToNat, true_and, and_true, and_self, and_false, false_and, BitVec.reduceEq, BitVec.reduceExtractLsb', ↓reduceIte]
theorem RoundTrip.vmulh (d : BitVec 5) (a : BitVec 5) (b : BitVec 5) (m : BitVec 3) (e : BitVec 2) (x : BitVec 1) : RoundTrip.Statement (.vmulh d a b m e x) := by
  show decodeWord (0x20#6 ++ d ++ a ++ b ++ m ++ e ++ x ++ 0xe#5) = .ok (.vmulh d a b m e x)
  simp (disch := decide) only [decodeWord, decodeVop, field, field_above, field_below, field_whole, Nat.reduceSub, BitVec.reduceToNat, true_and, and_true, and_self, and_false, false_and, BitVec.reduceEq, BitVec.reduceExtractLsb', ↓reduceIte]
theorem RoundTrip.vmulhu (d : BitVec 5) (a : BitVec 5) (b : BitVec 5) (m : BitVec 3) (e : BitVec 2) (x : BitVec 1) : RoundTrip.Statement (.vmulhu d a b m e x) := by
  show decodeWord (0x20#6 ++ d ++ a ++ b ++ m ++ e ++ x ++ 0xf#5) = .ok (.vmulhu d a b m e x)
  simp (disch := decide) only [decodeWord, decodeVop, field, field_above, field_below, field_whole, Nat.reduceSub, BitVec.reduceToNat, true_and, and_true, and_self, and_false, false_and, BitVec.reduceEq, BitVec.reduceExtractLsb', ↓reduceIte]
theorem RoundTrip.vsadd (d : BitVec 5) (a : BitVec 5) (b : BitVec 5) (m : BitVec 3) (e : BitVec 2) (x : BitVec 1) : RoundTrip.Statement (.vsadd d a b m e x) := by
  show decodeWord (0x20#6 ++ d ++ a ++ b ++ m ++ e ++ x ++ 0x10#5) = .ok (.vsadd d a b m e x)
  simp (disch := decide) only [decodeWord, decodeVop, field, field_above, field_below, field_whole, Nat.reduceSub, BitVec.reduceToNat, true_and, and_true, and_self, and_false, false_and, BitVec.reduceEq, BitVec.reduceExtractLsb', ↓reduceIte]
theorem RoundTrip.vsaddu (d : BitVec 5) (a : BitVec 5) (b : BitVec 5) (m : BitVec 3) (e : BitVec 2) (x : BitVec 1) : RoundTrip.Statement (.vsaddu d a b m e x) := by
  show decodeWord (0x20#6 ++ d ++ a ++ b ++ m ++ e ++ x ++ 0x11#5) = .ok (.vsaddu d a b m e x)
  simp (disch := decide) only [decodeWord, decodeVop, field, field_above, field_below, field_whole, Nat.reduceSub, BitVec.reduceToNat, true_and, and_true, and_self, and_false, false_and, BitVec.reduceEq, BitVec.reduceExtractLsb', ↓reduceIte]
theorem RoundTrip.vssub (d : BitVec 5) (a : BitVec 5) (b : BitVec 5) (m : BitVec 3) (e : BitVec 2) (x : BitVec 1) : RoundTrip.Statement (.vssub d a b m e x) := by
  show decodeWord (0x20#6 ++ d ++ a ++ b ++ m ++ e ++ x ++ 0x12#5) = .ok (.vssub d a b m e x)
  simp (disch := decide) only [decodeWord, decodeVop, field, field_above, field_below, field_whole, Nat.reduceSub, BitVec.reduceToNat, true_and, and_true, and_self, and_false, false_and, BitVec.reduceEq, BitVec.reduceExtractLsb', ↓reduceIte]
theorem RoundTrip.vssubu (d : BitVec 5) (a : BitVec 5) (b : BitVec 5) (m : BitVec 3) (e : BitVec 2) (x : BitVec 1) : RoundTrip.Statement (.vssubu d a b m e x) := by
  show decodeWord (0x20#6 ++ d ++ a ++ b ++ m ++ e ++ x ++ 0x13#5) = .ok (.vssubu d a b m e x)
  simp (disch := decide) only [decodeWord, decodeVop, field, field_above, field_below, field_whole, Nat.reduceSub, BitVec.reduceToNat, true_and, and_true, and_self, and_false, false_and, BitVec.reduceEq, BitVec.reduceExtractLsb', ↓reduceIte]
theorem RoundTrip.vfadd (d : BitVec 5) (a : BitVec 5) (b : BitVec 5) (m : BitVec 3) (e : BitVec 2) (x : BitVec 1) : RoundTrip.Statement (.vfadd d a b m e x) := by
  show decodeWord (0x21#6 ++ d ++ a ++ b ++ m ++ e ++ x ++ 0x0#5) = .ok (.vfadd d a b m e x)
  simp (disch := decide) only [decodeWord, decodeVfop, field, field_above, field_below, field_whole, Nat.reduceSub, BitVec.reduceToNat, true_and, and_true, and_self, and_false, false_and, BitVec.reduceEq, BitVec.reduceExtractLsb', ↓reduceIte]
theorem RoundTrip.vfsub (d : BitVec 5) (a : BitVec 5) (b : BitVec 5) (m : BitVec 3) (e : BitVec 2) (x : BitVec 1) : RoundTrip.Statement (.vfsub d a b m e x) := by
  show decodeWord (0x21#6 ++ d ++ a ++ b ++ m ++ e ++ x ++ 0x1#5) = .ok (.vfsub d a b m e x)
  simp (disch := decide) only [decodeWord, decodeVfop, field, field_above, field_below, field_whole, Nat.reduceSub, BitVec.reduceToNat, true_and, and_true, and_self, and_false, false_and, BitVec.reduceEq, BitVec.reduceExtractLsb', ↓reduceIte]
theorem RoundTrip.vfmul (d : BitVec 5) (a : BitVec 5) (b : BitVec 5) (m : BitVec 3) (e : BitVec 2) (x : BitVec 1) : RoundTrip.Statement (.vfmul d a b m e x) := by
  show decodeWord (0x21#6 ++ d ++ a ++ b ++ m ++ e ++ x ++ 0x2#5) = .ok (.vfmul d a b m e x)
  simp (disch := decide) only [decodeWord, decodeVfop, field, field_above, field_below, field_whole, Nat.reduceSub, BitVec.reduceToNat, true_and, and_true, and_self, and_false, false_and, BitVec.reduceEq, BitVec.reduceExtractLsb', ↓reduceIte]
theorem RoundTrip.vfdiv (d : BitVec 5) (a : BitVec 5) (b : BitVec 5) (m : BitVec 3) (e : BitVec 2) (x : BitVec 1) : RoundTrip.Statement (.vfdiv d a b m e x) := by
  show decodeWord (0x21#6 ++ d ++ a ++ b ++ m ++ e ++ x ++ 0x3#5) = .ok (.vfdiv d a b m e x)
  simp (disch := decide) only [decodeWord, decodeVfop, field, field_above, field_below, field_whole, Nat.reduceSub, BitVec.reduceToNat, true_and, and_true, and_self, and_false, false_and, BitVec.reduceEq, BitVec.reduceExtractLsb', ↓reduceIte]
theorem RoundTrip.vfsqrt (d : BitVec 5) (a : BitVec 5) (m : BitVec 3) (e : BitVec 2) : RoundTrip.Statement (.vfsqrt d a m e) := by
  show decodeWord (0x21#6 ++ d ++ a ++ 0x0#5 ++ m ++ e ++ 0x4#6) = .ok (.vfsqrt d a m e)
  simp (disch := decide) only [decodeWord, decodeVfop, field, field_above, field_below, field_whole, Nat.reduceSub, BitVec.reduceToNat, true_and, and_true, and_self, and_false, false_and, BitVec.reduceEq, BitVec.reduceExtractLsb', ↓reduceIte]
theorem RoundTrip.vfmin (d : BitVec 5) (a : BitVec 5) (b : BitVec 5) (m : BitVec 3) (e : BitVec 2) (x : BitVec 1) : RoundTrip.Statement (.vfmin d a b m e x) := by
  show decodeWord (0x21#6 ++ d ++ a ++ b ++ m ++ e ++ x ++ 0x5#5) = .ok (.vfmin d a b m e x)
  simp (disch := decide) only [decodeWord, decodeVfop, field, field_above, field_below, field_whole, field_split _ 0 6 5 5 1 _ rfl rfl, Nat.reduceSub, BitVec.reduceToNat, true_and, and_true, and_self, and_false, false_and, BitVec.reduceEq, BitVec.reduceExtractLsb', ↓reduceIte]
theorem RoundTrip.vfmax (d : BitVec 5) (a : BitVec 5) (b : BitVec 5) (m : BitVec 3) (e : BitVec 2) (x : BitVec 1) : RoundTrip.Statement (.vfmax d a b m e x) := by
  show decodeWord (0x21#6 ++ d ++ a ++ b ++ m ++ e ++ x ++ 0x6#5) = .ok (.vfmax d a b m e x)
  simp (disch := decide) only [decodeWord, decodeVfop, field, field_above, field_below, field_whole, field_split _ 0 6 5 5 1 _ rfl rfl, Nat.reduceSub, BitVec.reduceToNat, true_and, and_true, and_self, and_false, false_and, BitVec.reduceEq, BitVec.reduceExtractLsb', ↓reduceIte]
theorem RoundTrip.vfsgnj (d : BitVec 5) (a : BitVec 5) (b : BitVec 5) (m : BitVec 3) (e : BitVec 2) (x : BitVec 1) : RoundTrip.Statement (.vfsgnj d a b m e x) := by
  show decodeWord (0x21#6 ++ d ++ a ++ b ++ m ++ e ++ x ++ 0x7#5) = .ok (.vfsgnj d a b m e x)
  simp (disch := decide) only [decodeWord, decodeVfop, field, field_above, field_below, field_whole, field_split _ 0 6 5 5 1 _ rfl rfl, Nat.reduceSub, BitVec.reduceToNat, true_and, and_true, and_self, and_false, false_and, BitVec.reduceEq, BitVec.reduceExtractLsb', ↓reduceIte]
theorem RoundTrip.vfsgnjn (d : BitVec 5) (a : BitVec 5) (b : BitVec 5) (m : BitVec 3) (e : BitVec 2) (x : BitVec 1) : RoundTrip.Statement (.vfsgnjn d a b m e x) := by
  show decodeWord (0x21#6 ++ d ++ a ++ b ++ m ++ e ++ x ++ 0x8#5) = .ok (.vfsgnjn d a b m e x)
  simp (disch := decide) only [decodeWord, decodeVfop, field, field_above, field_below, field_whole, field_split _ 0 6 5 5 1 _ rfl rfl, Nat.reduceSub, BitVec.reduceToNat, true_and, and_true, and_self, and_false, false_and, BitVec.reduceEq, BitVec.reduceExtractLsb', ↓reduceIte]
theorem RoundTrip.vfsgnjx (d : BitVec 5) (a : BitVec 5) (b : BitVec 5) (m : BitVec 3) (e : BitVec 2) (x : BitVec 1) : RoundTrip.Statement (.vfsgnjx d a b m e x) := by
  show decodeWord (0x21#6 ++ d ++ a ++ b ++ m ++ e ++ x ++ 0x9#5) = .ok (.vfsgnjx d a b m e x)
  simp (disch := decide) only [decodeWord, decodeVfop, field, field_above, field_below, field_whole, field_split _ 0 6 5 5 1 _ rfl rfl, Nat.reduceSub, BitVec.reduceToNat, true_and, and_true, and_self, and_false, false_and, BitVec.reduceEq, BitVec.reduceExtractLsb', ↓reduceIte]
theorem RoundTrip.vfmadd (d : BitVec 5) (a : BitVec 5) (b : BitVec 5) (c : BitVec 5) (m : BitVec 3) (f : BitVec 2) : RoundTrip.Statement (.vfmadd d a b c m f) := by
  show decodeWord (0x22#6 ++ d ++ a ++ b ++ c ++ m ++ 0x0#1 ++ f) = .ok (.vfmadd d a b c m f)
  simp (disch := decide) only [decodeWord, decodeVfmaA, field, field_above, field_below, field_whole, Nat.reduceSub, BitVec.reduceToNat, true_and, and_true, and_self, and_false, false_and, BitVec.reduceEq, BitVec.reduceExtractLsb', ↓reduceIte]
theorem RoundTrip.vfmsub (d : BitVec 5) (a : BitVec 5) (b : BitVec 5) (c : BitVec 5) (m : BitVec 3) (f : BitVec 2) : RoundTrip.Statement (.vfmsub d a b c m f) := by
  show decodeWord (0x22#6 ++ d ++ a ++ b ++ c ++ m ++ 0x1#1 ++ f) = .ok (.vfmsub d a b c m f)
  simp (disch := decide) only [decodeWord, decodeVfmaA, field, field_above, field_below, field_whole, Nat.reduceSub, BitVec.reduceToNat, true_and, and_true, and_self, and_false, false_and, BitVec.reduceEq, BitVec.reduceExtractLsb', ↓reduceIte]
theorem RoundTrip.vfnmadd (d : BitVec 5) (a : BitVec 5) (b : BitVec 5) (c : BitVec 5) (m : BitVec 3) (f : BitVec 2) : RoundTrip.Statement (.vfnmadd d a b c m f) := by
  show decodeWord (0x23#6 ++ d ++ a ++ b ++ c ++ m ++ 0x0#1 ++ f) = .ok (.vfnmadd d a b c m f)
  simp (disch := decide) only [decodeWord, decodeVfmaB, field, field_above, field_below, field_whole, Nat.reduceSub, BitVec.reduceToNat, true_and, and_true, and_self, and_false, false_and, BitVec.reduceEq, BitVec.reduceExtractLsb', ↓reduceIte]
theorem RoundTrip.vfnmsub (d : BitVec 5) (a : BitVec 5) (b : BitVec 5) (c : BitVec 5) (m : BitVec 3) (f : BitVec 2) : RoundTrip.Statement (.vfnmsub d a b c m f) := by
  show decodeWord (0x23#6 ++ d ++ a ++ b ++ c ++ m ++ 0x1#1 ++ f) = .ok (.vfnmsub d a b c m f)
  simp (disch := decide) only [decodeWord, decodeVfmaB, field, field_above, field_below, field_whole, Nat.reduceSub, BitVec.reduceToNat, true_and, and_true, and_self, and_false, false_and, BitVec.reduceEq, BitVec.reduceExtractLsb', ↓reduceIte]
theorem RoundTrip.vcmpEq (d : BitVec 5) (a : BitVec 5) (b : BitVec 5) (m : BitVec 3) (e : BitVec 2) (x : BitVec 1) : RoundTrip.Statement (.vcmpEq d a b m e x) := by
  show decodeWord (0x24#6 ++ d ++ a ++ b ++ m ++ e ++ x ++ 0x0#5) = .ok (.vcmpEq d a b m e x)
  simp (disch := decide) only [decodeWord, decodeVcmp, field, field_above, field_below, field_whole, Nat.reduceSub, BitVec.reduceToNat, true_and, and_true, and_self, and_false, false_and, BitVec.reduceEq, BitVec.reduceExtractLsb', ↓reduceIte]
theorem RoundTrip.vcmpNe (d : BitVec 5) (a : BitVec 5) (b : BitVec 5) (m : BitVec 3) (e : BitVec 2) (x : BitVec 1) : RoundTrip.Statement (.vcmpNe d a b m e x) := by
  show decodeWord (0x24#6 ++ d ++ a ++ b ++ m ++ e ++ x ++ 0x1#5) = .ok (.vcmpNe d a b m e x)
  simp (disch := decide) only [decodeWord, decodeVcmp, field, field_above, field_below, field_whole, Nat.reduceSub, BitVec.reduceToNat, true_and, and_true, and_self, and_false, false_and, BitVec.reduceEq, BitVec.reduceExtractLsb', ↓reduceIte]
theorem RoundTrip.vcmpLt (d : BitVec 5) (a : BitVec 5) (b : BitVec 5) (m : BitVec 3) (e : BitVec 2) (x : BitVec 1) : RoundTrip.Statement (.vcmpLt d a b m e x) := by
  show decodeWord (0x24#6 ++ d ++ a ++ b ++ m ++ e ++ x ++ 0x2#5) = .ok (.vcmpLt d a b m e x)
  simp (disch := decide) only [decodeWord, decodeVcmp, field, field_above, field_below, field_whole, Nat.reduceSub, BitVec.reduceToNat, true_and, and_true, and_self, and_false, false_and, BitVec.reduceEq, BitVec.reduceExtractLsb', ↓reduceIte]
theorem RoundTrip.vcmpGe (d : BitVec 5) (a : BitVec 5) (b : BitVec 5) (m : BitVec 3) (e : BitVec 2) (x : BitVec 1) : RoundTrip.Statement (.vcmpGe d a b m e x) := by
  show decodeWord (0x24#6 ++ d ++ a ++ b ++ m ++ e ++ x ++ 0x3#5) = .ok (.vcmpGe d a b m e x)
  simp (disch := decide) only [decodeWord, decodeVcmp, field, field_above, field_below, field_whole, Nat.reduceSub, BitVec.reduceToNat, true_and, and_true, and_self, and_false, false_and, BitVec.reduceEq, BitVec.reduceExtractLsb', ↓reduceIte]
theorem RoundTrip.vcmpLtu (d : BitVec 5) (a : BitVec 5) (b : BitVec 5) (m : BitVec 3) (e : BitVec 2) (x : BitVec 1) : RoundTrip.Statement (.vcmpLtu d a b m e x) := by
  show decodeWord (0x24#6 ++ d ++ a ++ b ++ m ++ e ++ x ++ 0x4#5) = .ok (.vcmpLtu d a b m e x)
  simp (disch := decide) only [decodeWord, decodeVcmp, field, field_above, field_below, field_whole, Nat.reduceSub, BitVec.reduceToNat, true_and, and_true, and_self, and_false, false_and, BitVec.reduceEq, BitVec.reduceExtractLsb', ↓reduceIte]
theorem RoundTrip.vcmpGeu (d : BitVec 5) (a : BitVec 5) (b : BitVec 5) (m : BitVec 3) (e : BitVec 2) (x : BitVec 1) : RoundTrip.Statement (.vcmpGeu d a b m e x) := by
  show decodeWord (0x24#6 ++ d ++ a ++ b ++ m ++ e ++ x ++ 0x5#5) = .ok (.vcmpGeu d a b m e x)
  simp (disch := decide) only [decodeWord, decodeVcmp, field, field_above, field_below, field_whole, Nat.reduceSub, BitVec.reduceToNat, true_and, and_true, and_self, and_false, false_and, BitVec.reduceEq, BitVec.reduceExtractLsb', ↓reduceIte]
theorem RoundTrip.vfcmpEq (d : BitVec 5) (a : BitVec 5) (b : BitVec 5) (m : BitVec 3) (e : BitVec 2) (x : BitVec 1) : RoundTrip.Statement (.vfcmpEq d a b m e x) := by
  show decodeWord (0x24#6 ++ d ++ a ++ b ++ m ++ e ++ x ++ 0x10#5) = .ok (.vfcmpEq d a b m e x)
  simp (disch := decide) only [decodeWord, decodeVcmp, field, field_above, field_below, field_whole, Nat.reduceSub, BitVec.reduceToNat, true_and, and_true, and_self, and_false, false_and, BitVec.reduceEq, BitVec.reduceExtractLsb', ↓reduceIte]
theorem RoundTrip.vfcmpNe (d : BitVec 5) (a : BitVec 5) (b : BitVec 5) (m : BitVec 3) (e : BitVec 2) (x : BitVec 1) : RoundTrip.Statement (.vfcmpNe d a b m e x) := by
  show decodeWord (0x24#6 ++ d ++ a ++ b ++ m ++ e ++ x ++ 0x11#5) = .ok (.vfcmpNe d a b m e x)
  simp (disch := decide) only [decodeWord, decodeVcmp, field, field_above, field_below, field_whole, Nat.reduceSub, BitVec.reduceToNat, true_and, and_true, and_self, and_false, false_and, BitVec.reduceEq, BitVec.reduceExtractLsb', ↓reduceIte]
theorem RoundTrip.vfcmpLt (d : BitVec 5) (a : BitVec 5) (b : BitVec 5) (m : BitVec 3) (e : BitVec 2) (x : BitVec 1) : RoundTrip.Statement (.vfcmpLt d a b m e x) := by
  show decodeWord (0x24#6 ++ d ++ a ++ b ++ m ++ e ++ x ++ 0x12#5) = .ok (.vfcmpLt d a b m e x)
  simp (disch := decide) only [decodeWord, decodeVcmp, field, field_above, field_below, field_whole, Nat.reduceSub, BitVec.reduceToNat, true_and, and_true, and_self, and_false, false_and, BitVec.reduceEq, BitVec.reduceExtractLsb', ↓reduceIte]
theorem RoundTrip.vfcmpLe (d : BitVec 5) (a : BitVec 5) (b : BitVec 5) (m : BitVec 3) (e : BitVec 2) (x : BitVec 1) : RoundTrip.Statement (.vfcmpLe d a b m e x) := by
  show decodeWord (0x24#6 ++ d ++ a ++ b ++ m ++ e ++ x ++ 0x13#5) = .ok (.vfcmpLe d a b m e x)
  simp (disch := decide) only [decodeWord, decodeVcmp, field, field_above, field_below, field_whole, Nat.reduceSub, BitVec.reduceToNat, true_and, and_true, and_self, and_false, false_and, BitVec.reduceEq, BitVec.reduceExtractLsb', ↓reduceIte]
theorem RoundTrip.vfcmpUo (d : BitVec 5) (a : BitVec 5) (b : BitVec 5) (m : BitVec 3) (e : BitVec 2) (x : BitVec 1) : RoundTrip.Statement (.vfcmpUo d a b m e x) := by
  show decodeWord (0x24#6 ++ d ++ a ++ b ++ m ++ e ++ x ++ 0x14#5) = .ok (.vfcmpUo d a b m e x)
  simp (disch := decide) only [decodeWord, decodeVcmp, field, field_above, field_below, field_whole, Nat.reduceSub, BitVec.reduceToNat, true_and, and_true, and_self, and_false, false_and, BitVec.reduceEq, BitVec.reduceExtractLsb', ↓reduceIte]
theorem RoundTrip.vredsum (d : BitVec 5) (a : BitVec 5) (b : BitVec 5) (m : BitVec 3) (e : BitVec 2) : RoundTrip.Statement (.vredsum d a b m e) := by
  show decodeWord (0x25#6 ++ d ++ a ++ b ++ m ++ e ++ 0x0#6) = .ok (.vredsum d a b m e)
  simp (disch := decide) only [decodeWord, decodeVred, field, field_above, field_below, field_whole, Nat.reduceSub, BitVec.reduceToNat, true_and, and_true, and_self, and_false, false_and, BitVec.reduceEq, BitVec.reduceExtractLsb', ↓reduceIte]
theorem RoundTrip.vredmin (d : BitVec 5) (a : BitVec 5) (b : BitVec 5) (m : BitVec 3) (e : BitVec 2) : RoundTrip.Statement (.vredmin d a b m e) := by
  show decodeWord (0x25#6 ++ d ++ a ++ b ++ m ++ e ++ 0x1#6) = .ok (.vredmin d a b m e)
  simp (disch := decide) only [decodeWord, decodeVred, field, field_above, field_below, field_whole, Nat.reduceSub, BitVec.reduceToNat, true_and, and_true, and_self, and_false, false_and, BitVec.reduceEq, BitVec.reduceExtractLsb', ↓reduceIte]
theorem RoundTrip.vredmax (d : BitVec 5) (a : BitVec 5) (b : BitVec 5) (m : BitVec 3) (e : BitVec 2) : RoundTrip.Statement (.vredmax d a b m e) := by
  show decodeWord (0x25#6 ++ d ++ a ++ b ++ m ++ e ++ 0x2#6) = .ok (.vredmax d a b m e)
  simp (disch := decide) only [decodeWord, decodeVred, field, field_above, field_below, field_whole, Nat.reduceSub, BitVec.reduceToNat, true_and, and_true, and_self, and_false, false_and, BitVec.reduceEq, BitVec.reduceExtractLsb', ↓reduceIte]
theorem RoundTrip.vredminu (d : BitVec 5) (a : BitVec 5) (b : BitVec 5) (m : BitVec 3) (e : BitVec 2) : RoundTrip.Statement (.vredminu d a b m e) := by
  show decodeWord (0x25#6 ++ d ++ a ++ b ++ m ++ e ++ 0x3#6) = .ok (.vredminu d a b m e)
  simp (disch := decide) only [decodeWord, decodeVred, field, field_above, field_below, field_whole, Nat.reduceSub, BitVec.reduceToNat, true_and, and_true, and_self, and_false, false_and, BitVec.reduceEq, BitVec.reduceExtractLsb', ↓reduceIte]
theorem RoundTrip.vredmaxu (d : BitVec 5) (a : BitVec 5) (b : BitVec 5) (m : BitVec 3) (e : BitVec 2) : RoundTrip.Statement (.vredmaxu d a b m e) := by
  show decodeWord (0x25#6 ++ d ++ a ++ b ++ m ++ e ++ 0x4#6) = .ok (.vredmaxu d a b m e)
  simp (disch := decide) only [decodeWord, decodeVred, field, field_above, field_below, field_whole, Nat.reduceSub, BitVec.reduceToNat, true_and, and_true, and_self, and_false, false_and, BitVec.reduceEq, BitVec.reduceExtractLsb', ↓reduceIte]
theorem RoundTrip.vredand (d : BitVec 5) (a : BitVec 5) (b : BitVec 5) (m : BitVec 3) (e : BitVec 2) : RoundTrip.Statement (.vredand d a b m e) := by
  show decodeWord (0x25#6 ++ d ++ a ++ b ++ m ++ e ++ 0x5#6) = .ok (.vredand d a b m e)
  simp (disch := decide) only [decodeWord, decodeVred, field, field_above, field_below, field_whole, Nat.reduceSub, BitVec.reduceToNat, true_and, and_true, and_self, and_false, false_and, BitVec.reduceEq, BitVec.reduceExtractLsb', ↓reduceIte]
theorem RoundTrip.vredor (d : BitVec 5) (a : BitVec 5) (b : BitVec 5) (m : BitVec 3) (e : BitVec 2) : RoundTrip.Statement (.vredor d a b m e) := by
  show decodeWord (0x25#6 ++ d ++ a ++ b ++ m ++ e ++ 0x6#6) = .ok (.vredor d a b m e)
  simp (disch := decide) only [decodeWord, decodeVred, field, field_above, field_below, field_whole, Nat.reduceSub, BitVec.reduceToNat, true_and, and_true, and_self, and_false, false_and, BitVec.reduceEq, BitVec.reduceExtractLsb', ↓reduceIte]
theorem RoundTrip.vredxor (d : BitVec 5) (a : BitVec 5) (b : BitVec 5) (m : BitVec 3) (e : BitVec 2) : RoundTrip.Statement (.vredxor d a b m e) := by
  show decodeWord (0x25#6 ++ d ++ a ++ b ++ m ++ e ++ 0x7#6) = .ok (.vredxor d a b m e)
  simp (disch := decide) only [decodeWord, decodeVred, field, field_above, field_below, field_whole, Nat.reduceSub, BitVec.reduceToNat, true_and, and_true, and_self, and_false, false_and, BitVec.reduceEq, BitVec.reduceExtractLsb', ↓reduceIte]
theorem RoundTrip.vscan (d : BitVec 5) (a : BitVec 5) (b : BitVec 5) (m : BitVec 3) (e : BitVec 2) : RoundTrip.Statement (.vscan d a b m e) := by
  show decodeWord (0x25#6 ++ d ++ a ++ b ++ m ++ e ++ 0x8#6) = .ok (.vscan d a b m e)
  simp (disch := decide) only [decodeWord, decodeVred, field, field_above, field_below, field_whole, Nat.reduceSub, BitVec.reduceToNat, true_and, and_true, and_self, and_false, false_and, BitVec.reduceEq, BitVec.reduceExtractLsb', ↓reduceIte]
theorem RoundTrip.vfredo (d : BitVec 5) (a : BitVec 5) (b : BitVec 5) (m : BitVec 3) (e : BitVec 2) : RoundTrip.Statement (.vfredo d a b m e) := by
  show decodeWord (0x25#6 ++ d ++ a ++ b ++ m ++ e ++ 0x10#6) = .ok (.vfredo d a b m e)
  simp (disch := decide) only [decodeWord, decodeVred, field, field_above, field_below, field_whole, Nat.reduceSub, BitVec.reduceToNat, true_and, and_true, and_self, and_false, false_and, BitVec.reduceEq, BitVec.reduceExtractLsb', ↓reduceIte]
theorem RoundTrip.vfredp (d : BitVec 5) (a : BitVec 5) (b : BitVec 5) (m : BitVec 3) (e : BitVec 2) : RoundTrip.Statement (.vfredp d a b m e) := by
  show decodeWord (0x25#6 ++ d ++ a ++ b ++ m ++ e ++ 0x11#6) = .ok (.vfredp d a b m e)
  simp (disch := decide) only [decodeWord, decodeVred, field, field_above, field_below, field_whole, Nat.reduceSub, BitVec.reduceToNat, true_and, and_true, and_self, and_false, false_and, BitVec.reduceEq, BitVec.reduceExtractLsb', ↓reduceIte]
theorem RoundTrip.vfredmino (d : BitVec 5) (a : BitVec 5) (b : BitVec 5) (m : BitVec 3) (e : BitVec 2) : RoundTrip.Statement (.vfredmino d a b m e) := by
  show decodeWord (0x25#6 ++ d ++ a ++ b ++ m ++ e ++ 0x12#6) = .ok (.vfredmino d a b m e)
  simp (disch := decide) only [decodeWord, decodeVred, field, field_above, field_below, field_whole, Nat.reduceSub, BitVec.reduceToNat, true_and, and_true, and_self, and_false, false_and, BitVec.reduceEq, BitVec.reduceExtractLsb', ↓reduceIte]
theorem RoundTrip.vfredmaxo (d : BitVec 5) (a : BitVec 5) (b : BitVec 5) (m : BitVec 3) (e : BitVec 2) : RoundTrip.Statement (.vfredmaxo d a b m e) := by
  show decodeWord (0x25#6 ++ d ++ a ++ b ++ m ++ e ++ 0x13#6) = .ok (.vfredmaxo d a b m e)
  simp (disch := decide) only [decodeWord, decodeVred, field, field_above, field_below, field_whole, Nat.reduceSub, BitVec.reduceToNat, true_and, and_true, and_self, and_false, false_and, BitVec.reduceEq, BitVec.reduceExtractLsb', ↓reduceIte]
theorem RoundTrip.vfredminp (d : BitVec 5) (a : BitVec 5) (b : BitVec 5) (m : BitVec 3) (e : BitVec 2) : RoundTrip.Statement (.vfredminp d a b m e) := by
  show decodeWord (0x25#6 ++ d ++ a ++ b ++ m ++ e ++ 0x16#6) = .ok (.vfredminp d a b m e)
  simp (disch := decide) only [decodeWord, decodeVred, field, field_above, field_below, field_whole, Nat.reduceSub, BitVec.reduceToNat, true_and, and_true, and_self, and_false, false_and, BitVec.reduceEq, BitVec.reduceExtractLsb', ↓reduceIte]
theorem RoundTrip.vfredmaxp (d : BitVec 5) (a : BitVec 5) (b : BitVec 5) (m : BitVec 3) (e : BitVec 2) : RoundTrip.Statement (.vfredmaxp d a b m e) := by
  show decodeWord (0x25#6 ++ d ++ a ++ b ++ m ++ e ++ 0x17#6) = .ok (.vfredmaxp d a b m e)
  simp (disch := decide) only [decodeWord, decodeVred, field, field_above, field_below, field_whole, Nat.reduceSub, BitVec.reduceToNat, true_and, and_true, and_self, and_false, false_and, BitVec.reduceEq, BitVec.reduceExtractLsb', ↓reduceIte]
theorem RoundTrip.vfscano (d : BitVec 5) (a : BitVec 5) (b : BitVec 5) (m : BitVec 3) (e : BitVec 2) : RoundTrip.Statement (.vfscano d a b m e) := by
  show decodeWord (0x25#6 ++ d ++ a ++ b ++ m ++ e ++ 0x18#6) = .ok (.vfscano d a b m e)
  simp (disch := decide) only [decodeWord, decodeVred, field, field_above, field_below, field_whole, Nat.reduceSub, BitVec.reduceToNat, true_and, and_true, and_self, and_false, false_and, BitVec.reduceEq, BitVec.reduceExtractLsb', ↓reduceIte]
theorem RoundTrip.vbcast (d : BitVec 5) (a : BitVec 5) (m : BitVec 3) (e : BitVec 2) : RoundTrip.Statement (.vbcast d a m e) := by
  show decodeWord (0x26#6 ++ d ++ a ++ 0x0#5 ++ m ++ e ++ 0x0#6) = .ok (.vbcast d a m e)
  simp (disch := decide) only [decodeWord, decodeVperm, field, field_above, field_below, field_whole, Nat.reduceSub, BitVec.reduceToNat, true_and, and_true, and_self, and_false, false_and, BitVec.reduceEq, BitVec.reduceExtractLsb', ↓reduceIte]
theorem RoundTrip.vextract (d : BitVec 5) (a : BitVec 5) (b : BitVec 5) (e : BitVec 2) : RoundTrip.Statement (.vextract d a b e) := by
  show decodeWord (0x26#6 ++ d ++ a ++ b ++ 0x0#3 ++ e ++ 0x1#6) = .ok (.vextract d a b e)
  simp (disch := decide) only [decodeWord, decodeVperm, field, field_above, field_below, field_whole, Nat.reduceSub, BitVec.reduceToNat, true_and, and_true, and_self, and_false, false_and, BitVec.reduceEq, BitVec.reduceExtractLsb', ↓reduceIte]
theorem RoundTrip.vinsert (d : BitVec 5) (a : BitVec 5) (b : BitVec 5) (e : BitVec 2) : RoundTrip.Statement (.vinsert d a b e) := by
  show decodeWord (0x26#6 ++ d ++ a ++ b ++ 0x0#3 ++ e ++ 0x2#6) = .ok (.vinsert d a b e)
  simp (disch := decide) only [decodeWord, decodeVperm, field, field_above, field_below, field_whole, Nat.reduceSub, BitVec.reduceToNat, true_and, and_true, and_self, and_false, false_and, BitVec.reduceEq, BitVec.reduceExtractLsb', ↓reduceIte]
theorem RoundTrip.vslideup (d : BitVec 5) (a : BitVec 5) (b : BitVec 5) (m : BitVec 3) (e : BitVec 2) : RoundTrip.Statement (.vslideup d a b m e) := by
  show decodeWord (0x26#6 ++ d ++ a ++ b ++ m ++ e ++ 0x3#6) = .ok (.vslideup d a b m e)
  simp (disch := decide) only [decodeWord, decodeVperm, field, field_above, field_below, field_whole, Nat.reduceSub, BitVec.reduceToNat, true_and, and_true, and_self, and_false, false_and, BitVec.reduceEq, BitVec.reduceExtractLsb', ↓reduceIte]
theorem RoundTrip.vslidedown (d : BitVec 5) (a : BitVec 5) (b : BitVec 5) (m : BitVec 3) (e : BitVec 2) : RoundTrip.Statement (.vslidedown d a b m e) := by
  show decodeWord (0x26#6 ++ d ++ a ++ b ++ m ++ e ++ 0x4#6) = .ok (.vslidedown d a b m e)
  simp (disch := decide) only [decodeWord, decodeVperm, field, field_above, field_below, field_whole, Nat.reduceSub, BitVec.reduceToNat, true_and, and_true, and_self, and_false, false_and, BitVec.reduceEq, BitVec.reduceExtractLsb', ↓reduceIte]
theorem RoundTrip.vperm (d : BitVec 5) (a : BitVec 5) (b : BitVec 5) (m : BitVec 3) (e : BitVec 2) : RoundTrip.Statement (.vperm d a b m e) := by
  show decodeWord (0x26#6 ++ d ++ a ++ b ++ m ++ e ++ 0x5#6) = .ok (.vperm d a b m e)
  simp (disch := decide) only [decodeWord, decodeVperm, field, field_above, field_below, field_whole, Nat.reduceSub, BitVec.reduceToNat, true_and, and_true, and_self, and_false, false_and, BitVec.reduceEq, BitVec.reduceExtractLsb', ↓reduceIte]
theorem RoundTrip.vsel (d : BitVec 5) (a : BitVec 5) (b : BitVec 5) (m : BitVec 3) (e : BitVec 2) : RoundTrip.Statement (.vsel d a b m e) := by
  show decodeWord (0x26#6 ++ d ++ a ++ b ++ m ++ e ++ 0x6#6) = .ok (.vsel d a b m e)
  simp (disch := decide) only [decodeWord, decodeVperm, field, field_above, field_below, field_whole, Nat.reduceSub, BitVec.reduceToNat, true_and, and_true, and_self, and_false, false_and, BitVec.reduceEq, BitVec.reduceExtractLsb', ↓reduceIte]
theorem RoundTrip.vsext (d : BitVec 5) (a : BitVec 5) (m : BitVec 3) (e : BitVec 2) (h : BitVec 1) : RoundTrip.Statement (.vsext d a m e h) := by
  show decodeWord (0x27#6 ++ d ++ a ++ 0x0#5 ++ m ++ e ++ 0x0#5 ++ h) = .ok (.vsext d a m e h)
  simp (disch := decide) only [decodeWord, decodeVcvt, field, field_above, field_below, field_whole, Nat.reduceSub, BitVec.reduceToNat, true_and, and_true, and_self, and_false, false_and, BitVec.reduceEq, BitVec.reduceExtractLsb', ↓reduceIte]
theorem RoundTrip.vzext (d : BitVec 5) (a : BitVec 5) (m : BitVec 3) (e : BitVec 2) (h : BitVec 1) : RoundTrip.Statement (.vzext d a m e h) := by
  show decodeWord (0x27#6 ++ d ++ a ++ 0x0#5 ++ m ++ e ++ 0x1#5 ++ h) = .ok (.vzext d a m e h)
  simp (disch := decide) only [decodeWord, decodeVcvt, field, field_above, field_below, field_whole, Nat.reduceSub, BitVec.reduceToNat, true_and, and_true, and_self, and_false, false_and, BitVec.reduceEq, BitVec.reduceExtractLsb', ↓reduceIte]
theorem RoundTrip.vnarrow (d : BitVec 5) (a : BitVec 5) (b : BitVec 5) (m : BitVec 3) (e : BitVec 2) : RoundTrip.Statement (.vnarrow d a b m e) := by
  show decodeWord (0x27#6 ++ d ++ a ++ b ++ m ++ e ++ 0x4#6) = .ok (.vnarrow d a b m e)
  simp (disch := decide) only [decodeWord, decodeVcvt, field, field_above, field_below, field_whole, Nat.reduceSub, BitVec.reduceToNat, true_and, and_true, and_self, and_false, false_and, BitVec.reduceEq, BitVec.reduceExtractLsb', ↓reduceIte]
theorem RoundTrip.vnarrowsu (d : BitVec 5) (a : BitVec 5) (b : BitVec 5) (m : BitVec 3) (e : BitVec 2) : RoundTrip.Statement (.vnarrowsu d a b m e) := by
  show decodeWord (0x27#6 ++ d ++ a ++ b ++ m ++ e ++ 0x5#6) = .ok (.vnarrowsu d a b m e)
  simp (disch := decide) only [decodeWord, decodeVcvt, field, field_above, field_below, field_whole, Nat.reduceSub, BitVec.reduceToNat, true_and, and_true, and_self, and_false, false_and, BitVec.reduceEq, BitVec.reduceExtractLsb', ↓reduceIte]
theorem RoundTrip.vnarrowu (d : BitVec 5) (a : BitVec 5) (b : BitVec 5) (m : BitVec 3) (e : BitVec 2) : RoundTrip.Statement (.vnarrowu d a b m e) := by
  show decodeWord (0x27#6 ++ d ++ a ++ b ++ m ++ e ++ 0x6#6) = .ok (.vnarrowu d a b m e)
  simp (disch := decide) only [decodeWord, decodeVcvt, field, field_above, field_below, field_whole, Nat.reduceSub, BitVec.reduceToNat, true_and, and_true, and_self, and_false, false_and, BitVec.reduceEq, BitVec.reduceExtractLsb', ↓reduceIte]
theorem RoundTrip.vtrunc (d : BitVec 5) (a : BitVec 5) (b : BitVec 5) (m : BitVec 3) (e : BitVec 2) : RoundTrip.Statement (.vtrunc d a b m e) := by
  show decodeWord (0x27#6 ++ d ++ a ++ b ++ m ++ e ++ 0x7#6) = .ok (.vtrunc d a b m e)
  simp (disch := decide) only [decodeWord, decodeVcvt, field, field_above, field_below, field_whole, Nat.reduceSub, BitVec.reduceToNat, true_and, and_true, and_self, and_false, false_and, BitVec.reduceEq, BitVec.reduceExtractLsb', ↓reduceIte]
theorem RoundTrip.vfwiden (d : BitVec 5) (a : BitVec 5) (m : BitVec 3) (e : BitVec 2) (h : BitVec 1) : RoundTrip.Statement (.vfwiden d a m e h) := by
  show decodeWord (0x27#6 ++ d ++ a ++ 0x0#5 ++ m ++ e ++ 0x4#5 ++ h) = .ok (.vfwiden d a m e h)
  simp (disch := decide) only [decodeWord, decodeVcvt, field, field_above, field_below, field_whole, field_split _ 0 6 1 1 5 _ rfl rfl, Nat.reduceSub, BitVec.reduceToNat, true_and, and_true, and_self, and_false, false_and, BitVec.reduceEq, BitVec.reduceExtractLsb', ↓reduceIte]
theorem RoundTrip.vfwidenBf (d : BitVec 5) (a : BitVec 5) (m : BitVec 3) (e : BitVec 2) (h : BitVec 1) : RoundTrip.Statement (.vfwidenBf d a m e h) := by
  show decodeWord (0x27#6 ++ d ++ a ++ 0x0#5 ++ m ++ e ++ 0x5#5 ++ h) = .ok (.vfwidenBf d a m e h)
  simp (disch := decide) only [decodeWord, decodeVcvt, field, field_above, field_below, field_whole, field_split _ 0 6 1 1 5 _ rfl rfl, Nat.reduceSub, BitVec.reduceToNat, true_and, and_true, and_self, and_false, false_and, BitVec.reduceEq, BitVec.reduceExtractLsb', ↓reduceIte]
theorem RoundTrip.vfnarrow (d : BitVec 5) (a : BitVec 5) (b : BitVec 5) (m : BitVec 3) (e : BitVec 2) : RoundTrip.Statement (.vfnarrow d a b m e) := by
  show decodeWord (0x27#6 ++ d ++ a ++ b ++ m ++ e ++ 0xc#6) = .ok (.vfnarrow d a b m e)
  simp (disch := decide) only [decodeWord, decodeVcvt, field, field_above, field_below, field_whole, Nat.reduceSub, BitVec.reduceToNat, true_and, and_true, and_self, and_false, false_and, BitVec.reduceEq, BitVec.reduceExtractLsb', ↓reduceIte]
theorem RoundTrip.vfcvtFX (d : BitVec 5) (a : BitVec 5) (b : BitVec 5) (m : BitVec 3) (e : BitVec 2) : RoundTrip.Statement (.vfcvtFX d a b m e) := by
  show decodeWord (0x27#6 ++ d ++ a ++ b ++ m ++ e ++ 0x10#6) = .ok (.vfcvtFX d a b m e)
  simp (disch := decide) only [decodeWord, decodeVcvt, field, field_above, field_below, field_whole, Nat.reduceSub, BitVec.reduceToNat, true_and, and_true, and_self, and_false, false_and, BitVec.reduceEq, BitVec.reduceExtractLsb', ↓reduceIte]
theorem RoundTrip.vfcvtFXu (d : BitVec 5) (a : BitVec 5) (b : BitVec 5) (m : BitVec 3) (e : BitVec 2) : RoundTrip.Statement (.vfcvtFXu d a b m e) := by
  show decodeWord (0x27#6 ++ d ++ a ++ b ++ m ++ e ++ 0x11#6) = .ok (.vfcvtFXu d a b m e)
  simp (disch := decide) only [decodeWord, decodeVcvt, field, field_above, field_below, field_whole, Nat.reduceSub, BitVec.reduceToNat, true_and, and_true, and_self, and_false, false_and, BitVec.reduceEq, BitVec.reduceExtractLsb', ↓reduceIte]
theorem RoundTrip.vfcvtXF (d : BitVec 5) (a : BitVec 5) (b : BitVec 5) (m : BitVec 3) (e : BitVec 2) : RoundTrip.Statement (.vfcvtXF d a b m e) := by
  show decodeWord (0x27#6 ++ d ++ a ++ b ++ m ++ e ++ 0x12#6) = .ok (.vfcvtXF d a b m e)
  simp (disch := decide) only [decodeWord, decodeVcvt, field, field_above, field_below, field_whole, Nat.reduceSub, BitVec.reduceToNat, true_and, and_true, and_self, and_false, false_and, BitVec.reduceEq, BitVec.reduceExtractLsb', ↓reduceIte]
theorem RoundTrip.vfcvtXuF (d : BitVec 5) (a : BitVec 5) (b : BitVec 5) (m : BitVec 3) (e : BitVec 2) : RoundTrip.Statement (.vfcvtXuF d a b m e) := by
  show decodeWord (0x27#6 ++ d ++ a ++ b ++ m ++ e ++ 0x13#6) = .ok (.vfcvtXuF d a b m e)
  simp (disch := decide) only [decodeWord, decodeVcvt, field, field_above, field_below, field_whole, Nat.reduceSub, BitVec.reduceToNat, true_and, and_true, and_self, and_false, false_and, BitVec.reduceEq, BitVec.reduceExtractLsb', ↓reduceIte]
theorem RoundTrip.vps8 (d : BitVec 5) (a : BitVec 5) (m : BitVec 3) (e : BitVec 2) (p : BitVec 3) : RoundTrip.Statement (.vps8 d a m e p) := by
  show decodeWord (0x27#6 ++ d ++ a ++ 0x0#5 ++ m ++ e ++ 0x4#3 ++ p) = .ok (.vps8 d a m e p)
  simp (disch := decide) only [decodeWord, decodeVcvt, field, field_above, field_below, field_whole, field_split _ 0 6 3 3 3 _ rfl rfl, field_split _ 1 5 2 3 3 _ rfl rfl, Nat.reduceSub, BitVec.reduceToNat, true_and, and_true, and_self, and_false, false_and, BitVec.reduceEq, BitVec.reduceExtractLsb', ↓reduceIte]
theorem RoundTrip.mand (d : BitVec 5) (a : BitVec 5) (b : BitVec 5) : RoundTrip.Statement (.mand d a b) := by
  show decodeWord (0x33#6 ++ d ++ a ++ b ++ 0x0#11) = .ok (.mand d a b)
  simp (disch := decide) only [decodeWord, decodeMask, field, field_above, field_below, field_whole, Nat.reduceSub, BitVec.reduceToNat, true_and, and_true, and_self, and_false, false_and, BitVec.reduceEq, BitVec.reduceExtractLsb', ↓reduceIte]
theorem RoundTrip.mor (d : BitVec 5) (a : BitVec 5) (b : BitVec 5) : RoundTrip.Statement (.mor d a b) := by
  show decodeWord (0x33#6 ++ d ++ a ++ b ++ 0x1#11) = .ok (.mor d a b)
  simp (disch := decide) only [decodeWord, decodeMask, field, field_above, field_below, field_whole, Nat.reduceSub, BitVec.reduceToNat, true_and, and_true, and_self, and_false, false_and, BitVec.reduceEq, BitVec.reduceExtractLsb', ↓reduceIte]
theorem RoundTrip.mxor (d : BitVec 5) (a : BitVec 5) (b : BitVec 5) : RoundTrip.Statement (.mxor d a b) := by
  show decodeWord (0x33#6 ++ d ++ a ++ b ++ 0x2#11) = .ok (.mxor d a b)
  simp (disch := decide) only [decodeWord, decodeMask, field, field_above, field_below, field_whole, Nat.reduceSub, BitVec.reduceToNat, true_and, and_true, and_self, and_false, false_and, BitVec.reduceEq, BitVec.reduceExtractLsb', ↓reduceIte]
theorem RoundTrip.mandn (d : BitVec 5) (a : BitVec 5) (b : BitVec 5) : RoundTrip.Statement (.mandn d a b) := by
  show decodeWord (0x33#6 ++ d ++ a ++ b ++ 0x3#11) = .ok (.mandn d a b)
  simp (disch := decide) only [decodeWord, decodeMask, field, field_above, field_below, field_whole, Nat.reduceSub, BitVec.reduceToNat, true_and, and_true, and_self, and_false, false_and, BitVec.reduceEq, BitVec.reduceExtractLsb', ↓reduceIte]
theorem RoundTrip.mnot (d : BitVec 5) (a : BitVec 5) : RoundTrip.Statement (.mnot d a) := by
  show decodeWord (0x33#6 ++ d ++ a ++ 0x4#16) = .ok (.mnot d a)
  simp (disch := decide) only [decodeWord, decodeMask, field, field_above, field_below, field_whole, Nat.reduceSub, BitVec.reduceToNat, true_and, and_true, and_self, and_false, false_and, BitVec.reduceEq, BitVec.reduceExtractLsb', ↓reduceIte]
theorem RoundTrip.mset (d : BitVec 5) (a : BitVec 5) : RoundTrip.Statement (.mset d a) := by
  show decodeWord (0x33#6 ++ d ++ a ++ 0x5#16) = .ok (.mset d a)
  simp (disch := decide) only [decodeWord, decodeMask, field, field_above, field_below, field_whole, Nat.reduceSub, BitVec.reduceToNat, true_and, and_true, and_self, and_false, false_and, BitVec.reduceEq, BitVec.reduceExtractLsb', ↓reduceIte]
theorem RoundTrip.mget (d : BitVec 5) (a : BitVec 5) : RoundTrip.Statement (.mget d a) := by
  show decodeWord (0x33#6 ++ d ++ a ++ 0x6#16) = .ok (.mget d a)
  simp (disch := decide) only [decodeWord, decodeMask, field, field_above, field_below, field_whole, Nat.reduceSub, BitVec.reduceToNat, true_and, and_true, and_self, and_false, false_and, BitVec.reduceEq, BitVec.reduceExtractLsb', ↓reduceIte]
theorem RoundTrip.mpopc (d : BitVec 5) (a : BitVec 5) : RoundTrip.Statement (.mpopc d a) := by
  show decodeWord (0x33#6 ++ d ++ a ++ 0x7#16) = .ok (.mpopc d a)
  simp (disch := decide) only [decodeWord, decodeMask, field, field_above, field_below, field_whole, Nat.reduceSub, BitVec.reduceToNat, true_and, and_true, and_self, and_false, false_and, BitVec.reduceEq, BitVec.reduceExtractLsb', ↓reduceIte]
theorem RoundTrip.mfirst (d : BitVec 5) (a : BitVec 5) : RoundTrip.Statement (.mfirst d a) := by
  show decodeWord (0x33#6 ++ d ++ a ++ 0x8#16) = .ok (.mfirst d a)
  simp (disch := decide) only [decodeWord, decodeMask, field, field_above, field_below, field_whole, Nat.reduceSub, BitVec.reduceToNat, true_and, and_true, and_self, and_false, false_and, BitVec.reduceEq, BitVec.reduceExtractLsb', ↓reduceIte]
theorem RoundTrip.mfirstn (d : BitVec 5) (a : BitVec 5) : RoundTrip.Statement (.mfirstn d a) := by
  show decodeWord (0x33#6 ++ d ++ a ++ 0x9#16) = .ok (.mfirstn d a)
  simp (disch := decide) only [decodeWord, decodeMask, field, field_above, field_below, field_whole, Nat.reduceSub, BitVec.reduceToNat, true_and, and_true, and_self, and_false, false_and, BitVec.reduceEq, BitVec.reduceExtractLsb', ↓reduceIte]
theorem RoundTrip.vld (d : BitVec 5) (a : BitVec 5) (o : BitVec 13) : RoundTrip.Statement (.vld d a o) := by
  show decodeWord (0x28#6 ++ d ++ a ++ 0x0#3 ++ o) = .ok (.vld d a o)
  simp (disch := decide) only [decodeWord, decodeVld, field, field_above, field_below, field_whole, Nat.reduceSub, BitVec.reduceToNat, true_and, and_true, and_self, and_false, false_and, BitVec.reduceEq, BitVec.reduceExtractLsb', ↓reduceIte]
theorem RoundTrip.vst (s : BitVec 5) (a : BitVec 5) (o : BitVec 13) : RoundTrip.Statement (.vst s a o) := by
  show decodeWord (0x29#6 ++ s ++ a ++ 0x0#3 ++ o) = .ok (.vst s a o)
  simp (disch := decide) only [decodeWord, decodeVst, field, field_above, field_below, field_whole, Nat.reduceSub, BitVec.reduceToNat, true_and, and_true, and_self, and_false, false_and, BitVec.reduceEq, BitVec.reduceExtractLsb', ↓reduceIte]
theorem RoundTrip.vldm (d : BitVec 5) (a : BitVec 5) (m : BitVec 3) (e : BitVec 2) : RoundTrip.Statement (.vldm d a m e) := by
  show decodeWord (0x2a#6 ++ d ++ a ++ 0x0#5 ++ m ++ e ++ 0x0#6) = .ok (.vldm d a m e)
  simp (disch := decide) only [decodeWord, decodeVgath, field, field_above, field_below, field_whole, Nat.reduceSub, BitVec.reduceToNat, true_and, and_true, and_self, and_false, false_and, BitVec.reduceEq, BitVec.reduceExtractLsb', ↓reduceIte]
theorem RoundTrip.vlds (d : BitVec 5) (a : BitVec 5) (b : BitVec 5) (m : BitVec 3) (e : BitVec 2) : RoundTrip.Statement (.vlds d a b m e) := by
  show decodeWord (0x2a#6 ++ d ++ a ++ b ++ m ++ e ++ 0x1#6) = .ok (.vlds d a b m e)
  simp (disch := decide) only [decodeWord, decodeVgath, field, field_above, field_below, field_whole, Nat.reduceSub, BitVec.reduceToNat, true_and, and_true, and_self, and_false, false_and, BitVec.reduceEq, BitVec.reduceExtractLsb', ↓reduceIte]
theorem RoundTrip.vgath (d : BitVec 5) (a : BitVec 5) (b : BitVec 5) (m : BitVec 3) (e : BitVec 2) : RoundTrip.Statement (.vgath d a b m e) := by
  show decodeWord (0x2a#6 ++ d ++ a ++ b ++ m ++ e ++ 0x2#6) = .ok (.vgath d a b m e)
  simp (disch := decide) only [decodeWord, decodeVgath, field, field_above, field_below, field_whole, Nat.reduceSub, BitVec.reduceToNat, true_and, and_true, and_self, and_false, false_and, BitVec.reduceEq, BitVec.reduceExtractLsb', ↓reduceIte]
theorem RoundTrip.vstm (s : BitVec 5) (a : BitVec 5) (m : BitVec 3) (e : BitVec 2) : RoundTrip.Statement (.vstm s a m e) := by
  show decodeWord (0x2b#6 ++ s ++ a ++ 0x0#5 ++ m ++ e ++ 0x0#6) = .ok (.vstm s a m e)
  simp (disch := decide) only [decodeWord, decodeVscat, field, field_above, field_below, field_whole, Nat.reduceSub, BitVec.reduceToNat, true_and, and_true, and_self, and_false, false_and, BitVec.reduceEq, BitVec.reduceExtractLsb', ↓reduceIte]
theorem RoundTrip.vsts (s : BitVec 5) (a : BitVec 5) (b : BitVec 5) (m : BitVec 3) (e : BitVec 2) : RoundTrip.Statement (.vsts s a b m e) := by
  show decodeWord (0x2b#6 ++ s ++ a ++ b ++ m ++ e ++ 0x1#6) = .ok (.vsts s a b m e)
  simp (disch := decide) only [decodeWord, decodeVscat, field, field_above, field_below, field_whole, Nat.reduceSub, BitVec.reduceToNat, true_and, and_true, and_self, and_false, false_and, BitVec.reduceEq, BitVec.reduceExtractLsb', ↓reduceIte]
theorem RoundTrip.vscat (s : BitVec 5) (a : BitVec 5) (b : BitVec 5) (m : BitVec 3) (e : BitVec 2) : RoundTrip.Statement (.vscat s a b m e) := by
  show decodeWord (0x2b#6 ++ s ++ a ++ b ++ m ++ e ++ 0x2#6) = .ok (.vscat s a b m e)
  simp (disch := decide) only [decodeWord, decodeVscat, field, field_above, field_below, field_whole, Nat.reduceSub, BitVec.reduceToNat, true_and, and_true, and_self, and_false, false_and, BitVec.reduceEq, BitVec.reduceExtractLsb', ↓reduceIte]
theorem RoundTrip.ld (d : BitVec 5) (a : BitVec 5) (w : BitVec 3) (o : BitVec 13) : RoundTrip.Statement (.ld d a w o) := by
  show decodeWord (0x2c#6 ++ d ++ a ++ w ++ o) = .ok (.ld d a w o)
  simp (disch := decide) only [decodeWord, field, field_above, field_below, field_whole, Nat.reduceSub, BitVec.reduceToNat, true_and, and_true, and_self, and_false, false_and, BitVec.reduceEq, BitVec.reduceExtractLsb', ↓reduceIte]
theorem RoundTrip.st (s : BitVec 5) (a : BitVec 5) (w : BitVec 2) (o : BitVec 13) : RoundTrip.Statement (.st s a w o) := by
  show decodeWord (0x2d#6 ++ s ++ a ++ 0x0#1 ++ w ++ o) = .ok (.st s a w o)
  simp (disch := decide) only [decodeWord, decodeSt, field, field_above, field_below, field_whole, Nat.reduceSub, BitVec.reduceToNat, true_and, and_true, and_self, and_false, false_and, BitVec.reduceEq, BitVec.reduceExtractLsb', ↓reduceIte]
theorem RoundTrip.amoadd (d : BitVec 5) (a : BitVec 5) (b : BitVec 5) (s : BitVec 3) (r : BitVec 1) (q : BitVec 1) (z : BitVec 1) : RoundTrip.Statement (.amoadd d a b s r q z) := by
  show decodeWord (0x2e#6 ++ d ++ a ++ b ++ 0x0#1 ++ s ++ r ++ q ++ z ++ 0x0#4) = .ok (.amoadd d a b s r q z)
  simp (disch := decide) only [decodeWord, decodeAmo, field, field_above, field_below, field_whole, Nat.reduceSub, BitVec.reduceToNat, true_and, and_true, and_self, and_false, false_and, BitVec.reduceEq, BitVec.reduceExtractLsb', ↓reduceIte]
theorem RoundTrip.amoand (d : BitVec 5) (a : BitVec 5) (b : BitVec 5) (s : BitVec 3) (r : BitVec 1) (q : BitVec 1) (z : BitVec 1) : RoundTrip.Statement (.amoand d a b s r q z) := by
  show decodeWord (0x2e#6 ++ d ++ a ++ b ++ 0x0#1 ++ s ++ r ++ q ++ z ++ 0x1#4) = .ok (.amoand d a b s r q z)
  simp (disch := decide) only [decodeWord, decodeAmo, field, field_above, field_below, field_whole, Nat.reduceSub, BitVec.reduceToNat, true_and, and_true, and_self, and_false, false_and, BitVec.reduceEq, BitVec.reduceExtractLsb', ↓reduceIte]
theorem RoundTrip.amoor (d : BitVec 5) (a : BitVec 5) (b : BitVec 5) (s : BitVec 3) (r : BitVec 1) (q : BitVec 1) (z : BitVec 1) : RoundTrip.Statement (.amoor d a b s r q z) := by
  show decodeWord (0x2e#6 ++ d ++ a ++ b ++ 0x0#1 ++ s ++ r ++ q ++ z ++ 0x2#4) = .ok (.amoor d a b s r q z)
  simp (disch := decide) only [decodeWord, decodeAmo, field, field_above, field_below, field_whole, Nat.reduceSub, BitVec.reduceToNat, true_and, and_true, and_self, and_false, false_and, BitVec.reduceEq, BitVec.reduceExtractLsb', ↓reduceIte]
theorem RoundTrip.amoxor (d : BitVec 5) (a : BitVec 5) (b : BitVec 5) (s : BitVec 3) (r : BitVec 1) (q : BitVec 1) (z : BitVec 1) : RoundTrip.Statement (.amoxor d a b s r q z) := by
  show decodeWord (0x2e#6 ++ d ++ a ++ b ++ 0x0#1 ++ s ++ r ++ q ++ z ++ 0x3#4) = .ok (.amoxor d a b s r q z)
  simp (disch := decide) only [decodeWord, decodeAmo, field, field_above, field_below, field_whole, Nat.reduceSub, BitVec.reduceToNat, true_and, and_true, and_self, and_false, false_and, BitVec.reduceEq, BitVec.reduceExtractLsb', ↓reduceIte]
theorem RoundTrip.amomin (d : BitVec 5) (a : BitVec 5) (b : BitVec 5) (s : BitVec 3) (r : BitVec 1) (q : BitVec 1) (z : BitVec 1) : RoundTrip.Statement (.amomin d a b s r q z) := by
  show decodeWord (0x2e#6 ++ d ++ a ++ b ++ 0x0#1 ++ s ++ r ++ q ++ z ++ 0x4#4) = .ok (.amomin d a b s r q z)
  simp (disch := decide) only [decodeWord, decodeAmo, field, field_above, field_below, field_whole, Nat.reduceSub, BitVec.reduceToNat, true_and, and_true, and_self, and_false, false_and, BitVec.reduceEq, BitVec.reduceExtractLsb', ↓reduceIte]
theorem RoundTrip.amomax (d : BitVec 5) (a : BitVec 5) (b : BitVec 5) (s : BitVec 3) (r : BitVec 1) (q : BitVec 1) (z : BitVec 1) : RoundTrip.Statement (.amomax d a b s r q z) := by
  show decodeWord (0x2e#6 ++ d ++ a ++ b ++ 0x0#1 ++ s ++ r ++ q ++ z ++ 0x5#4) = .ok (.amomax d a b s r q z)
  simp (disch := decide) only [decodeWord, decodeAmo, field, field_above, field_below, field_whole, Nat.reduceSub, BitVec.reduceToNat, true_and, and_true, and_self, and_false, false_and, BitVec.reduceEq, BitVec.reduceExtractLsb', ↓reduceIte]
theorem RoundTrip.amominu (d : BitVec 5) (a : BitVec 5) (b : BitVec 5) (s : BitVec 3) (r : BitVec 1) (q : BitVec 1) (z : BitVec 1) : RoundTrip.Statement (.amominu d a b s r q z) := by
  show decodeWord (0x2e#6 ++ d ++ a ++ b ++ 0x0#1 ++ s ++ r ++ q ++ z ++ 0x6#4) = .ok (.amominu d a b s r q z)
  simp (disch := decide) only [decodeWord, decodeAmo, field, field_above, field_below, field_whole, Nat.reduceSub, BitVec.reduceToNat, true_and, and_true, and_self, and_false, false_and, BitVec.reduceEq, BitVec.reduceExtractLsb', ↓reduceIte]
theorem RoundTrip.amomaxu (d : BitVec 5) (a : BitVec 5) (b : BitVec 5) (s : BitVec 3) (r : BitVec 1) (q : BitVec 1) (z : BitVec 1) : RoundTrip.Statement (.amomaxu d a b s r q z) := by
  show decodeWord (0x2e#6 ++ d ++ a ++ b ++ 0x0#1 ++ s ++ r ++ q ++ z ++ 0x7#4) = .ok (.amomaxu d a b s r q z)
  simp (disch := decide) only [decodeWord, decodeAmo, field, field_above, field_below, field_whole, Nat.reduceSub, BitVec.reduceToNat, true_and, and_true, and_self, and_false, false_and, BitVec.reduceEq, BitVec.reduceExtractLsb', ↓reduceIte]
theorem RoundTrip.amoswap (d : BitVec 5) (a : BitVec 5) (b : BitVec 5) (s : BitVec 3) (r : BitVec 1) (q : BitVec 1) (z : BitVec 1) : RoundTrip.Statement (.amoswap d a b s r q z) := by
  show decodeWord (0x2e#6 ++ d ++ a ++ b ++ 0x0#1 ++ s ++ r ++ q ++ z ++ 0x8#4) = .ok (.amoswap d a b s r q z)
  simp (disch := decide) only [decodeWord, decodeAmo, field, field_above, field_below, field_whole, Nat.reduceSub, BitVec.reduceToNat, true_and, and_true, and_self, and_false, false_and, BitVec.reduceEq, BitVec.reduceExtractLsb', ↓reduceIte]
theorem RoundTrip.amocas (d : BitVec 5) (a : BitVec 5) (b : BitVec 5) (s : BitVec 3) (r : BitVec 1) (q : BitVec 1) (z : BitVec 1) : RoundTrip.Statement (.amocas d a b s r q z) := by
  show decodeWord (0x2e#6 ++ d ++ a ++ b ++ 0x0#1 ++ s ++ r ++ q ++ z ++ 0x9#4) = .ok (.amocas d a b s r q z)
  simp (disch := decide) only [decodeWord, decodeAmo, field, field_above, field_below, field_whole, Nat.reduceSub, BitVec.reduceToNat, true_and, and_true, and_self, and_false, false_and, BitVec.reduceEq, BitVec.reduceExtractLsb', ↓reduceIte]
theorem RoundTrip.fence (s : BitVec 3) (k : BitVec 4) : RoundTrip.Statement (.fence s k) := by
  show decodeWord (0x1780000#25 ++ s ++ k) = .ok (.fence s k)
  simp (disch := decide) only [decodeWord, decodeSync, field, field_above, field_below, field_whole, Nat.reduceSub, BitVec.reduceToNat, true_and, and_true, and_self, and_false, false_and, BitVec.reduceEq, BitVec.reduceExtractLsb', ↓reduceIte]
theorem RoundTrip.ldsync (d : BitVec 5) (a : BitVec 5) (w : BitVec 3) : RoundTrip.Statement (.ldsync d a w) := by
  show decodeWord (0x2f#6 ++ d ++ a ++ 0x10#13 ++ w) = .ok (.ldsync d a w)
  simp (disch := decide) only [decodeWord, decodeSync, field, field_above, field_below, field_whole, field_split _ 4 19 9 13 10 _ rfl rfl, Nat.reduceSub, BitVec.reduceToNat, true_and, and_true, and_self, and_false, false_and, BitVec.reduceEq, BitVec.reduceExtractLsb', ↓reduceIte]
theorem RoundTrip.stfe (a : BitVec 5) : RoundTrip.Statement (.stfe a) := by
  show decodeWord (0x5e0#11 ++ a ++ 0x100#16) = .ok (.stfe a)
  simp (disch := decide) only [decodeWord, decodeSync, field, field_above, field_below, field_whole, field_split _ 7 19 9 16 10 _ rfl rfl, Nat.reduceSub, BitVec.reduceToNat, true_and, and_true, and_self, and_false, false_and, BitVec.reduceEq, BitVec.reduceExtractLsb', ↓reduceIte]
theorem RoundTrip.feclr (a : BitVec 5) : RoundTrip.Statement (.feclr a) := by
  show decodeWord (0x5e0#11 ++ a ++ 0x180#16) = .ok (.feclr a)
  simp (disch := decide) only [decodeWord, decodeSync, field, field_above, field_below, field_whole, field_split _ 7 19 9 16 10 _ rfl rfl, Nat.reduceSub, BitVec.reduceToNat, true_and, and_true, and_self, and_false, false_and, BitVec.reduceEq, BitVec.reduceExtractLsb', ↓reduceIte]
theorem RoundTrip.waitv (d : BitVec 5) (a : BitVec 5) (b : BitVec 5) (s : BitVec 3) (c : BitVec 1) (w : BitVec 3) : RoundTrip.Statement (.waitv d a b s c w) := by
  show decodeWord (0x2f#6 ++ d ++ a ++ b ++ 0x4#4 ++ s ++ c ++ w) = .ok (.waitv d a b s c w)
  simp (disch := decide) only [decodeWord, decodeSync, field, field_above, field_below, field_whole, field_split _ 0 8 4 4 4 _ rfl rfl, field_split _ 0 11 7 7 4 _ rfl rfl, field_split _ 0 13 8 8 5 _ rfl rfl, field_split _ 0 16 11 11 5 _ rfl rfl, field_split _ 0 19 4 4 15 _ rfl rfl, Nat.reduceSub, BitVec.reduceToNat, true_and, and_true, and_self, and_false, false_and, BitVec.reduceEq, BitVec.reduceExtractLsb', ↓reduceIte]
theorem RoundTrip.ldAcq (d : BitVec 5) (a : BitVec 5) (s : BitVec 3) (w : BitVec 3) : RoundTrip.Statement (.ldAcq d a s w) := by
  show decodeWord (0x2f#6 ++ d ++ a ++ 0x5#9 ++ s ++ 0x0#1 ++ w) = .ok (.ldAcq d a s w)
  simp (disch := decide) only [decodeWord, decodeSync, field, field_above, field_below, field_whole, field_split _ 0 13 4 4 9 _ rfl rfl, field_split _ 0 16 7 7 9 _ rfl rfl, field_split _ 0 19 9 9 10 _ rfl rfl, Nat.reduceSub, BitVec.reduceToNat, true_and, and_true, and_self, and_false, false_and, BitVec.reduceEq, BitVec.reduceExtractLsb', ↓reduceIte]
theorem RoundTrip.stRel (d : BitVec 5) (a : BitVec 5) (s : BitVec 3) (w : BitVec 2) : RoundTrip.Statement (.stRel d a s w) := by
  show decodeWord (0x2f#6 ++ d ++ a ++ 0x6#9 ++ s ++ 0x0#2 ++ w) = .ok (.stRel d a s w)
  simp (disch := decide) only [decodeWord, decodeSync, field, field_above, field_below, field_whole, field_split _ 0 16 7 7 9 _ rfl rfl, field_split _ 0 19 9 9 10 _ rfl rfl, field_split _ 1 13 4 5 9 _ rfl rfl, Nat.reduceSub, BitVec.reduceToNat, true_and, and_true, and_self, and_false, false_and, BitVec.reduceEq, BitVec.reduceExtractLsb', ↓reduceIte]
theorem RoundTrip.barInit (a : BitVec 5) (b : BitVec 5) : RoundTrip.Statement (.barInit a b) := by
  show decodeWord (0x600#11 ++ a ++ b ++ 0x0#11) = .ok (.barInit a b)
  simp (disch := decide) only [decodeWord, decodeBar, field, field_above, field_below, field_whole, Nat.reduceSub, BitVec.reduceToNat, true_and, and_true, and_self, and_false, false_and, BitVec.reduceEq, BitVec.reduceExtractLsb', ↓reduceIte]
theorem RoundTrip.barExpect (a : BitVec 5) (b : BitVec 5) : RoundTrip.Statement (.barExpect a b) := by
  show decodeWord (0x600#11 ++ a ++ b ++ 0x1#11) = .ok (.barExpect a b)
  simp (disch := decide) only [decodeWord, decodeBar, field, field_above, field_below, field_whole, Nat.reduceSub, BitVec.reduceToNat, true_and, and_true, and_self, and_false, false_and, BitVec.reduceEq, BitVec.reduceExtractLsb', ↓reduceIte]
theorem RoundTrip.barArrive (d : BitVec 5) (a : BitVec 5) : RoundTrip.Statement (.barArrive d a) := by
  show decodeWord (0x30#6 ++ d ++ a ++ 0x2#16) = .ok (.barArrive d a)
  simp (disch := decide) only [decodeWord, decodeBar, field, field_above, field_below, field_whole, Nat.reduceSub, BitVec.reduceToNat, true_and, and_true, and_self, and_false, false_and, BitVec.reduceEq, BitVec.reduceExtractLsb', ↓reduceIte]
theorem RoundTrip.barArriveC (a : BitVec 5) (b : BitVec 5) : RoundTrip.Statement (.barArriveC a b) := by
  show decodeWord (0x600#11 ++ a ++ b ++ 0x3#11) = .ok (.barArriveC a b)
  simp (disch := decide) only [decodeWord, decodeBar, field, field_above, field_below, field_whole, field_split _ 0 16 11 11 5 _ rfl rfl, Nat.reduceSub, BitVec.reduceToNat, true_and, and_true, and_self, and_false, false_and, BitVec.reduceEq, BitVec.reduceExtractLsb', ↓reduceIte]
theorem RoundTrip.barWait (d : BitVec 5) (a : BitVec 5) (b : BitVec 5) : RoundTrip.Statement (.barWait d a b) := by
  show decodeWord (0x30#6 ++ d ++ a ++ b ++ 0x4#11) = .ok (.barWait d a b)
  simp (disch := decide) only [decodeWord, decodeBar, field, field_above, field_below, field_whole, field_split _ 0 16 11 11 5 _ rfl rfl, Nat.reduceSub, BitVec.reduceToNat, true_and, and_true, and_self, and_false, false_and, BitVec.reduceEq, BitVec.reduceExtractLsb', ↓reduceIte]
theorem RoundTrip.barWaitDoze (d : BitVec 5) (a : BitVec 5) (b : BitVec 5) : RoundTrip.Statement (.barWaitDoze d a b) := by
  show decodeWord (0x30#6 ++ d ++ a ++ b ++ 0x5#11) = .ok (.barWaitDoze d a b)
  simp (disch := decide) only [decodeWord, decodeBar, field, field_above, field_below, field_whole, field_split _ 0 16 11 11 5 _ rfl rfl, Nat.reduceSub, BitVec.reduceToNat, true_and, and_true, and_self, and_false, false_and, BitVec.reduceEq, BitVec.reduceExtractLsb', ↓reduceIte]
theorem RoundTrip.barTest (d : BitVec 5) (a : BitVec 5) (b : BitVec 5) : RoundTrip.Statement (.barTest d a b) := by
  show decodeWord (0x30#6 ++ d ++ a ++ b ++ 0x6#11) = .ok (.barTest d a b)
  simp (disch := decide) only [decodeWord, decodeBar, field, field_above, field_below, field_whole, field_split _ 0 16 11 11 5 _ rfl rfl, Nat.reduceSub, BitVec.reduceToNat, true_and, and_true, and_self, and_false, false_and, BitVec.reduceEq, BitVec.reduceExtractLsb', ↓reduceIte]
theorem RoundTrip.stashMap (d : BitVec 5) (a : BitVec 5) (b : BitVec 5) : RoundTrip.Statement (.stashMap d a b) := by
  show decodeWord (0x31#6 ++ d ++ a ++ b ++ 0x0#11) = .ok (.stashMap d a b)
  simp (disch := decide) only [decodeWord, decodeStash, field, field_above, field_below, field_whole, Nat.reduceSub, BitVec.reduceToNat, true_and, and_true, and_self, and_false, false_and, BitVec.reduceEq, BitVec.reduceExtractLsb', ↓reduceIte]
theorem RoundTrip.stashUnmap (a : BitVec 5) : RoundTrip.Statement (.stashUnmap a) := by
  show decodeWord (0x620#11 ++ a ++ 0x1#16) = .ok (.stashUnmap a)
  simp (disch := decide) only [decodeWord, decodeStash, field, field_above, field_below, field_whole, Nat.reduceSub, BitVec.reduceToNat, true_and, and_true, and_self, and_false, false_and, BitVec.reduceEq, BitVec.reduceExtractLsb', ↓reduceIte]
theorem RoundTrip.stashFlush (a : BitVec 5) : RoundTrip.Statement (.stashFlush a) := by
  show decodeWord (0x620#11 ++ a ++ 0x2#16) = .ok (.stashFlush a)
  simp (disch := decide) only [decodeWord, decodeStash, field, field_above, field_below, field_whole, Nat.reduceSub, BitVec.reduceToNat, true_and, and_true, and_self, and_false, false_and, BitVec.reduceEq, BitVec.reduceExtractLsb', ↓reduceIte]
theorem RoundTrip.cacheResize (d : BitVec 5) (a : BitVec 5) : RoundTrip.Statement (.cacheResize d a) := by
  show decodeWord (0x31#6 ++ d ++ a ++ 0x3#16) = .ok (.cacheResize d a)
  simp (disch := decide) only [decodeWord, decodeStash, field, field_above, field_below, field_whole, Nat.reduceSub, BitVec.reduceToNat, true_and, and_true, and_self, and_false, false_and, BitVec.reduceEq, BitVec.reduceExtractLsb', ↓reduceIte]
theorem RoundTrip.pref (a : BitVec 5) : RoundTrip.Statement (.pref a) := by
  show decodeWord (0x620#11 ++ a ++ 0x4#16) = .ok (.pref a)
  simp (disch := decide) only [decodeWord, decodeStash, field, field_above, field_below, field_whole, Nat.reduceSub, BitVec.reduceToNat, true_and, and_true, and_self, and_false, false_and, BitVec.reduceEq, BitVec.reduceExtractLsb', ↓reduceIte]
theorem RoundTrip.cflush (a : BitVec 5) : RoundTrip.Statement (.cflush a) := by
  show decodeWord (0x620#11 ++ a ++ 0x5#16) = .ok (.cflush a)
  simp (disch := decide) only [decodeWord, decodeStash, field, field_above, field_below, field_whole, Nat.reduceSub, BitVec.reduceToNat, true_and, and_true, and_self, and_false, false_and, BitVec.reduceEq, BitVec.reduceExtractLsb', ↓reduceIte]
theorem RoundTrip.cwait (d : BitVec 5) (a : BitVec 5) : RoundTrip.Statement (.cwait d a) := by
  show decodeWord (0x32#6 ++ d ++ a ++ 0x0#16) = .ok (.cwait d a)
  simp (disch := decide) only [decodeWord, decodeCarriage, field, field_above, field_below, field_whole, Nat.reduceSub, BitVec.reduceToNat, true_and, and_true, and_self, and_false, false_and, BitVec.reduceEq, BitVec.reduceExtractLsb', ↓reduceIte]
theorem RoundTrip.crel (a : BitVec 5) : RoundTrip.Statement (.crel a) := by
  show decodeWord (0x640#11 ++ a ++ 0x1#16) = .ok (.crel a)
  simp (disch := decide) only [decodeWord, decodeCarriage, field, field_above, field_below, field_whole, Nat.reduceSub, BitVec.reduceToNat, true_and, and_true, and_self, and_false, false_and, BitVec.reduceEq, BitVec.reduceExtractLsb', ↓reduceIte]
theorem RoundTrip.ctest (d : BitVec 5) (a : BitVec 5) : RoundTrip.Statement (.ctest d a) := by
  show decodeWord (0x32#6 ++ d ++ a ++ 0x2#16) = .ok (.ctest d a)
  simp (disch := decide) only [decodeWord, decodeCarriage, field, field_above, field_below, field_whole, Nat.reduceSub, BitVec.reduceToNat, true_and, and_true, and_self, and_false, false_and, BitVec.reduceEq, BitVec.reduceExtractLsb', ↓reduceIte]
theorem RoundTrip.accAlloc (d : BitVec 5) (a : BitVec 5) (k : BitVec 1) : RoundTrip.Statement (.accAlloc d a k) := by
  show decodeWord (0x34#6 ++ d ++ a ++ 0x0#9 ++ k ++ 0x0#6) = .ok (.accAlloc d a k)
  simp (disch := decide) only [decodeWord, decodeAcc, field, field_above, field_below, field_whole, Nat.reduceSub, BitVec.reduceToNat, true_and, and_true, and_self, and_false, false_and, BitVec.reduceEq, BitVec.reduceExtractLsb', ↓reduceIte]
theorem RoundTrip.accFree (a : BitVec 5) : RoundTrip.Statement (.accFree a) := by
  show decodeWord (0x680#11 ++ a ++ 0x1#16) = .ok (.accFree a)
  simp (disch := decide) only [decodeWord, decodeAcc, field, field_above, field_below, field_whole, Nat.reduceSub, BitVec.reduceToNat, true_and, and_true, and_self, and_false, false_and, BitVec.reduceEq, BitVec.reduceExtractLsb', ↓reduceIte]
theorem RoundTrip.accZero (a : BitVec 5) : RoundTrip.Statement (.accZero a) := by
  show decodeWord (0x680#11 ++ a ++ 0x2#16) = .ok (.accZero a)
  simp (disch := decide) only [decodeWord, decodeAcc, field, field_above, field_below, field_whole, Nat.reduceSub, BitVec.reduceToNat, true_and, and_true, and_self, and_false, false_and, BitVec.reduceEq, BitVec.reduceExtractLsb', ↓reduceIte]
theorem RoundTrip.accRd (d : BitVec 5) (a : BitVec 5) (b : BitVec 5) (e : BitVec 5) : RoundTrip.Statement (.accRd d a b e) := by
  show decodeWord (0x34#6 ++ d ++ a ++ b ++ e ++ 0x3#6) = .ok (.accRd d a b e)
  simp (disch := decide) only [decodeWord, decodeAcc, field, field_above, field_below, field_whole, field_split _ 0 16 6 6 10 _ rfl rfl, Nat.reduceSub, BitVec.reduceToNat, true_and, and_true, and_self, and_false, false_and, BitVec.reduceEq, BitVec.reduceExtractLsb', ↓reduceIte]
theorem RoundTrip.accWr (d : BitVec 5) (a : BitVec 5) (b : BitVec 5) : RoundTrip.Statement (.accWr d a b) := by
  show decodeWord (0x34#6 ++ d ++ a ++ b ++ 0x4#11) = .ok (.accWr d a b)
  simp (disch := decide) only [decodeWord, decodeAcc, field, field_above, field_below, field_whole, field_split _ 0 16 11 11 5 _ rfl rfl, Nat.reduceSub, BitVec.reduceToNat, true_and, and_true, and_self, and_false, false_and, BitVec.reduceEq, BitVec.reduceExtractLsb', ↓reduceIte]
theorem RoundTrip.accSt (d : BitVec 5) (a : BitVec 5) (b : BitVec 5) : RoundTrip.Statement (.accSt d a b) := by
  show decodeWord (0x34#6 ++ d ++ a ++ b ++ 0x5#11) = .ok (.accSt d a b)
  simp (disch := decide) only [decodeWord, decodeAcc, field, field_above, field_below, field_whole, field_split _ 0 16 11 11 5 _ rfl rfl, Nat.reduceSub, BitVec.reduceToNat, true_and, and_true, and_self, and_false, false_and, BitVec.reduceEq, BitVec.reduceExtractLsb', ↓reduceIte]
theorem RoundTrip.pld (d : BitVec 5) (a : BitVec 5) (b : BitVec 5) : RoundTrip.Statement (.pld d a b) := by
  show decodeWord (0x35#6 ++ d ++ a ++ b ++ 0x0#11) = .ok (.pld d a b)
  simp (disch := decide) only [decodeWord, decodePanel, field, field_above, field_below, field_whole, Nat.reduceSub, BitVec.reduceToNat, true_and, and_true, and_self, and_false, false_and, BitVec.reduceEq, BitVec.reduceExtractLsb', ↓reduceIte]
theorem RoundTrip.pst (d : BitVec 5) (a : BitVec 5) (b : BitVec 5) : RoundTrip.Statement (.pst d a b) := by
  show decodeWord (0x35#6 ++ d ++ a ++ b ++ 0x1#11) = .ok (.pst d a b)
  simp (disch := decide) only [decodeWord, decodePanel, field, field_above, field_below, field_whole, Nat.reduceSub, BitVec.reduceToNat, true_and, and_true, and_self, and_false, false_and, BitVec.reduceEq, BitVec.reduceExtractLsb', ↓reduceIte]
theorem RoundTrip.pzero (d : BitVec 5) : RoundTrip.Statement (.pzero d) := by
  show decodeWord (0x35#6 ++ d ++ 0x2#21) = .ok (.pzero d)
  simp (disch := decide) only [decodeWord, decodePanel, field, field_above, field_below, field_whole, Nat.reduceSub, BitVec.reduceToNat, true_and, and_true, and_self, and_false, false_and, BitVec.reduceEq, BitVec.reduceExtractLsb', ↓reduceIte]
theorem RoundTrip.mmaBf16 (c : BitVec 4) (a : BitVec 4) (b : BitVec 4) (z : BitVec 1) : RoundTrip.Statement (.mmaBf16 c a b z) := by
  show decodeWord (0x36#6 ++ c ++ a ++ b ++ 0x0#3 ++ z ++ 0x0#10) = .ok (.mmaBf16 c a b z)
  simp (disch := decide) only [decodeWord, decodeMma, field, field_above, field_below, field_whole, Nat.reduceSub, BitVec.reduceToNat, true_and, and_true, and_self, and_false, false_and, BitVec.reduceEq, BitVec.reduceExtractLsb', ↓reduceIte]
theorem RoundTrip.mmaFp16 (c : BitVec 4) (a : BitVec 4) (b : BitVec 4) (z : BitVec 1) : RoundTrip.Statement (.mmaFp16 c a b z) := by
  show decodeWord (0x36#6 ++ c ++ a ++ b ++ 0x1#3 ++ z ++ 0x0#10) = .ok (.mmaFp16 c a b z)
  simp (disch := decide) only [decodeWord, decodeMma, field, field_above, field_below, field_whole, Nat.reduceSub, BitVec.reduceToNat, true_and, and_true, and_self, and_false, false_and, BitVec.reduceEq, BitVec.reduceExtractLsb', ↓reduceIte]
theorem RoundTrip.mmaPs8 (c : BitVec 4) (a : BitVec 4) (b : BitVec 4) (z : BitVec 1) : RoundTrip.Statement (.mmaPs8 c a b z) := by
  show decodeWord (0x36#6 ++ c ++ a ++ b ++ 0x2#3 ++ z ++ 0x0#10) = .ok (.mmaPs8 c a b z)
  simp (disch := decide) only [decodeWord, decodeMma, field, field_above, field_below, field_whole, Nat.reduceSub, BitVec.reduceToNat, true_and, and_true, and_self, and_false, false_and, BitVec.reduceEq, BitVec.reduceExtractLsb', ↓reduceIte]
theorem RoundTrip.mmaPs4 (c : BitVec 4) (a : BitVec 4) (b : BitVec 4) (z : BitVec 1) : RoundTrip.Statement (.mmaPs4 c a b z) := by
  show decodeWord (0x36#6 ++ c ++ a ++ b ++ 0x3#3 ++ z ++ 0x0#10) = .ok (.mmaPs4 c a b z)
  simp (disch := decide) only [decodeWord, decodeMma, field, field_above, field_below, field_whole, Nat.reduceSub, BitVec.reduceToNat, true_and, and_true, and_self, and_false, false_and, BitVec.reduceEq, BitVec.reduceExtractLsb', ↓reduceIte]
theorem RoundTrip.mmaTern (c : BitVec 4) (a : BitVec 4) (b : BitVec 4) (z : BitVec 1) : RoundTrip.Statement (.mmaTern c a b z) := by
  show decodeWord (0x36#6 ++ c ++ a ++ b ++ 0x4#3 ++ z ++ 0x0#10) = .ok (.mmaTern c a b z)
  simp (disch := decide) only [decodeWord, decodeMma, field, field_above, field_below, field_whole, Nat.reduceSub, BitVec.reduceToNat, true_and, and_true, and_self, and_false, false_and, BitVec.reduceEq, BitVec.reduceExtractLsb', ↓reduceIte]
theorem RoundTrip.mmaFp64 (c : BitVec 4) (a : BitVec 4) (b : BitVec 4) (z : BitVec 1) : RoundTrip.Statement (.mmaFp64 c a b z) := by
  show decodeWord (0x36#6 ++ c ++ a ++ b ++ 0x5#3 ++ z ++ 0x0#10) = .ok (.mmaFp64 c a b z)
  simp (disch := decide) only [decodeWord, decodeMma, field, field_above, field_below, field_whole, Nat.reduceSub, BitVec.reduceToNat, true_and, and_true, and_self, and_false, false_and, BitVec.reduceEq, BitVec.reduceExtractLsb', ↓reduceIte]
theorem RoundTrip.mscale (d : BitVec 4) (a : BitVec 4) (r : BitVec 6) (s : BitVec 4) : RoundTrip.Statement (.mscale d a r s) := by
  show decodeWord (0x37#6 ++ d ++ a ++ 0x0#8 ++ r ++ s) = .ok (.mscale d a r s)
  simp (disch := decide) only [decodeWord, decodeMscale, field, field_above, field_below, field_whole, Nat.reduceSub, BitVec.reduceToNat, true_and, and_true, and_self, and_false, false_and, BitVec.reduceEq, BitVec.reduceExtractLsb', ↓reduceIte]
theorem RoundTrip.mout (d : BitVec 4) (a : BitVec 4) (o : BitVec 4) (n : BitVec 4) : RoundTrip.Statement (.mout d a o n) := by
  show decodeWord (0x37#6 ++ d ++ a ++ o ++ 0x1#3 ++ n ++ 0x0#7) = .ok (.mout d a o n)
  simp (disch := decide) only [decodeWord, decodeMscale, field, field_above, field_below, field_whole, field_split _ 3 4 1 4 3 _ rfl rfl, field_split _ 3 8 4 7 4 _ rfl rfl, Nat.reduceSub, BitVec.reduceToNat, true_and, and_true, and_self, and_false, false_and, BitVec.reduceEq, BitVec.reduceExtractLsb', ↓reduceIte]
theorem RoundTrip.msend (a : BitVec 5) : RoundTrip.Statement (.msend a) := by
  show decodeWord (0x700#11 ++ a ++ 0x0#16) = .ok (.msend a)
  simp (disch := decide) only [decodeWord, decodeMsend, field, field_above, field_below, field_whole, Nat.reduceSub, BitVec.reduceToNat, true_and, and_true, and_self, and_false, false_and, BitVec.reduceEq, BitVec.reduceExtractLsb', ↓reduceIte]
theorem RoundTrip.mwait (d : BitVec 5) : RoundTrip.Statement (.mwait d) := by
  show decodeWord (0x38#6 ++ d ++ 0x1#21) = .ok (.mwait d)
  simp (disch := decide) only [decodeWord, decodeMsend, field, field_above, field_below, field_whole, Nat.reduceSub, BitVec.reduceToNat, true_and, and_true, and_self, and_false, false_and, BitVec.reduceEq, BitVec.reduceExtractLsb', ↓reduceIte]
theorem RoundTrip.drayTpl (a : BitVec 5) (s : BitVec 6) : RoundTrip.Statement (.drayTpl a s) := by
  show decodeWord (0x740#11 ++ a ++ 0x0#10 ++ s) = .ok (.drayTpl a s)
  simp (disch := decide) only [decodeWord, decodeDray, field, field_above, field_below, field_whole, Nat.reduceSub, BitVec.reduceToNat, true_and, and_true, and_self, and_false, false_and, BitVec.reduceEq, BitVec.reduceExtractLsb', ↓reduceIte]
theorem RoundTrip.drayGo (d : BitVec 5) (a : BitVec 5) (b : BitVec 5) (c : BitVec 2) (s : BitVec 6) : RoundTrip.Statement (.drayGo d a b c s) := by
  show decodeWord (0x3a#6 ++ d ++ a ++ b ++ 0x1#3 ++ c ++ s) = .ok (.drayGo d a b c s)
  simp (disch := decide) only [decodeWord, decodeDray, field, field_above, field_below, field_whole, field_split _ 0 5 2 2 3 _ rfl rfl, field_split _ 0 10 5 5 5 _ rfl rfl, Nat.reduceSub, BitVec.reduceToNat, true_and, and_true, and_self, and_false, false_and, BitVec.reduceEq, BitVec.reduceExtractLsb', ↓reduceIte]
theorem RoundTrip.draySlack (a : BitVec 5) (b : BitVec 5) : RoundTrip.Statement (.draySlack a b) := by
  show decodeWord (0x740#11 ++ a ++ b ++ 0x200#11) = .ok (.draySlack a b)
  simp (disch := decide) only [decodeWord, decodeDray, field, field_above, field_below, field_whole, field_split _ 6 10 5 11 5 _ rfl rfl, Nat.reduceSub, BitVec.reduceToNat, true_and, and_true, and_self, and_false, false_and, BitVec.reduceEq, BitVec.reduceExtractLsb', ↓reduceIte]
theorem RoundTrip.drayCancel (a : BitVec 5) : RoundTrip.Statement (.drayCancel a) := by
  show decodeWord (0x740#11 ++ a ++ 0x300#16) = .ok (.drayCancel a)
  simp (disch := decide) only [decodeWord, decodeDray, field, field_above, field_below, field_whole, Nat.reduceSub, BitVec.reduceToNat, true_and, and_true, and_self, and_false, false_and, BitVec.reduceEq, BitVec.reduceExtractLsb', ↓reduceIte]
theorem RoundTrip.drayStat (d : BitVec 5) (a : BitVec 5) : RoundTrip.Statement (.drayStat d a) := by
  show decodeWord (0x3a#6 ++ d ++ a ++ 0x400#16) = .ok (.drayStat d a)
  simp (disch := decide) only [decodeWord, decodeDray, field, field_above, field_below, field_whole, Nat.reduceSub, BitVec.reduceToNat, true_and, and_true, and_self, and_false, false_and, BitVec.reduceEq, BitVec.reduceExtractLsb', ↓reduceIte]
theorem RoundTrip.drayAper (a : BitVec 5) : RoundTrip.Statement (.drayAper a) := by
  show decodeWord (0x740#11 ++ a ++ 0x500#16) = .ok (.drayAper a)
  simp (disch := decide) only [decodeWord, decodeDray, field, field_above, field_below, field_whole, Nat.reduceSub, BitVec.reduceToNat, true_and, and_true, and_self, and_false, false_and, BitVec.reduceEq, BitVec.reduceExtractLsb', ↓reduceIte]
theorem RoundTrip.strmBind (d : BitVec 5) (a : BitVec 5) : RoundTrip.Statement (.strmBind d a) := by
  show decodeWord (0x3b#6 ++ d ++ a ++ 0x0#16) = .ok (.strmBind d a)
  simp (disch := decide) only [decodeWord, decodeStrm, field, field_above, field_below, field_whole, Nat.reduceSub, BitVec.reduceToNat, true_and, and_true, and_self, and_false, false_and, BitVec.reduceEq, BitVec.reduceExtractLsb', ↓reduceIte]
theorem RoundTrip.strmUnbind (d : BitVec 5) : RoundTrip.Statement (.strmUnbind d) := by
  show decodeWord (0x3b#6 ++ d ++ 0x1#21) = .ok (.strmUnbind d)
  simp (disch := decide) only [decodeWord, decodeStrm, field, field_above, field_below, field_whole, Nat.reduceSub, BitVec.reduceToNat, true_and, and_true, and_self, and_false, false_and, BitVec.reduceEq, BitVec.reduceExtractLsb', ↓reduceIte]
theorem RoundTrip.strmPos (d : BitVec 5) (b : BitVec 5) : RoundTrip.Statement (.strmPos d b) := by
  show decodeWord (0x3b#6 ++ d ++ 0x0#5 ++ b ++ 0x2#11) = .ok (.strmPos d b)
  simp (disch := decide) only [decodeWord, decodeStrm, field, field_above, field_below, field_whole, field_split _ 0 16 11 11 5 _ rfl rfl, field_split _ 0 21 11 11 10 _ rfl rfl, Nat.reduceSub, BitVec.reduceToNat, true_and, and_true, and_self, and_false, false_and, BitVec.reduceEq, BitVec.reduceExtractLsb', ↓reduceIte]
theorem RoundTrip.feltCfg (a : BitVec 5) (b : BitVec 5) (k : BitVec 3) (s : BitVec 3) : RoundTrip.Statement (.feltCfg a b k s) := by
  show decodeWord (0x780#11 ++ a ++ b ++ k ++ 0x0#1 ++ s ++ 0x0#4) = .ok (.feltCfg a b k s)
  simp (disch := decide) only [decodeWord, decodeFelt, field, field_above, field_below, field_whole, Nat.reduceSub, BitVec.reduceToNat, true_and, and_true, and_self, and_false, false_and, BitVec.reduceEq, BitVec.reduceExtractLsb', ↓reduceIte]
theorem RoundTrip.feltScale (a : BitVec 5) (b : BitVec 5) (k : BitVec 3) (s : BitVec 3) : RoundTrip.Statement (.feltScale a b k s) := by
  show decodeWord (0x780#11 ++ a ++ b ++ k ++ 0x0#1 ++ s ++ 0x1#4) = .ok (.feltScale a b k s)
  simp (disch := decide) only [decodeWord, decodeFelt, field, field_above, field_below, field_whole, Nat.reduceSub, BitVec.reduceToNat, true_and, and_true, and_self, and_false, false_and, BitVec.reduceEq, BitVec.reduceExtractLsb', ↓reduceIte]
theorem RoundTrip.feltIc (a : BitVec 5) (b : BitVec 5) (k : BitVec 3) (s : BitVec 3) : RoundTrip.Statement (.feltIc a b k s) := by
  show decodeWord (0x780#11 ++ a ++ b ++ k ++ 0x0#1 ++ s ++ 0x2#4) = .ok (.feltIc a b k s)
  simp (disch := decide) only [decodeWord, decodeFelt, field, field_above, field_below, field_whole, Nat.reduceSub, BitVec.reduceToNat, true_and, and_true, and_self, and_false, false_and, BitVec.reduceEq, BitVec.reduceExtractLsb', ↓reduceIte]
theorem RoundTrip.feltRun (b : BitVec 5) (k : BitVec 3) (s : BitVec 3) : RoundTrip.Statement (.feltRun b k s) := by
  show decodeWord (0xf000#16 ++ b ++ k ++ 0x0#1 ++ s ++ 0x3#4) = .ok (.feltRun b k s)
  simp (disch := decide) only [decodeWord, decodeFelt, field, field_above, field_below, field_whole, Nat.reduceSub, BitVec.reduceToNat, true_and, and_true, and_self, and_false, false_and, BitVec.reduceEq, BitVec.reduceExtractLsb', ↓reduceIte]
theorem RoundTrip.feltSettle (d : BitVec 5) (a : BitVec 5) (k : BitVec 3) : RoundTrip.Statement (.feltSettle d a k) := by
  show decodeWord (0x3c#6 ++ d ++ a ++ 0x0#5 ++ k ++ 0x4#8) = .ok (.feltSettle d a k)
  simp (disch := decide) only [decodeWord, decodeFelt, field, field_above, field_below, field_whole, Nat.reduceSub, BitVec.reduceToNat, true_and, and_true, and_self, and_false, false_and, BitVec.reduceEq, BitVec.reduceExtractLsb', ↓reduceIte]
theorem RoundTrip.feltSample (a : BitVec 5) (b : BitVec 5) (k : BitVec 3) (g : BitVec 1) : RoundTrip.Statement (.feltSample a b k g) := by
  show decodeWord (0x780#11 ++ a ++ b ++ k ++ g ++ 0x5#7) = .ok (.feltSample a b k g)
  simp (disch := decide) only [decodeWord, decodeFelt, field, field_above, field_below, field_whole, field_split _ 0 8 7 7 1 _ rfl rfl, Nat.reduceSub, BitVec.reduceToNat, true_and, and_true, and_self, and_false, false_and, BitVec.reduceEq, BitVec.reduceExtractLsb', ↓reduceIte]
theorem RoundTrip.feltHalt (k : BitVec 3) : RoundTrip.Statement (.feltHalt k) := by
  show decodeWord (0x1e0000#21 ++ k ++ 0x6#8) = .ok (.feltHalt k)
  simp (disch := decide) only [decodeWord, decodeFelt, field, field_above, field_below, field_whole, Nat.reduceSub, BitVec.reduceToNat, true_and, and_true, and_self, and_false, false_and, BitVec.reduceEq, BitVec.reduceExtractLsb', ↓reduceIte]
theorem RoundTrip.feltStat (d : BitVec 5) (k : BitVec 3) : RoundTrip.Statement (.feltStat d k) := by
  show decodeWord (0x3c#6 ++ d ++ 0x0#10 ++ k ++ 0x7#8) = .ok (.feltStat d k)
  simp (disch := decide) only [decodeWord, decodeFelt, field, field_above, field_below, field_whole, Nat.reduceSub, BitVec.reduceToNat, true_and, and_true, and_self, and_false, false_and, BitVec.reduceEq, BitVec.reduceExtractLsb', ↓reduceIte]
theorem RoundTrip.ximm (p : BitVec 24) : RoundTrip.Statement (.ximm p) := by
  show decodeWord (0xfc#8 ++ p) = .ok (.ximm p)
  simp (disch := decide) only [decodeWord, decodeHint, field, field_above, field_below, field_whole, Nat.reduceSub, BitVec.reduceToNat, true_and, and_true, and_self, and_false, false_and, BitVec.reduceEq, BitVec.reduceExtractLsb', ↓reduceIte]
theorem RoundTrip.hintNop : RoundTrip.Statement (.hintNop) := by
  show decodeWord (0xfd000000#32) = .ok (.hintNop)
  simp (disch := decide) only [decodeWord, decodeHint, field, field_above, field_below, field_whole, Nat.reduceSub, BitVec.reduceToNat, true_and, and_true, and_self, and_false, false_and, BitVec.reduceEq, BitVec.reduceExtractLsb', ↓reduceIte]
theorem RoundTrip.hintTaken (t : BitVec 1) : RoundTrip.Statement (.hintTaken t) := by
  show decodeWord (0x7e880000#31 ++ t) = .ok (.hintTaken t)
  simp (disch := decide) only [decodeWord, decodeHint, field, field_above, field_below, field_whole, field_split _ 0 26 1 1 25 _ rfl rfl, Nat.reduceSub, BitVec.reduceToNat, true_and, and_true, and_self, and_false, false_and, BitVec.reduceEq, BitVec.reduceExtractLsb', ↓reduceIte]
theorem RoundTrip.hintSpin (n : BitVec 8) : RoundTrip.Statement (.hintSpin n) := by
  show decodeWord (0xfd2000#24 ++ n) = .ok (.hintSpin n)
  simp (disch := decide) only [decodeWord, decodeHint, field, field_above, field_below, field_whole, field_split _ 0 26 8 8 18 _ rfl rfl, field_split _ 1 25 7 8 18 _ rfl rfl, Nat.reduceSub, BitVec.reduceToNat, true_and, and_true, and_self, and_false, false_and, BitVec.reduceEq, BitVec.reduceExtractLsb', ↓reduceIte]
theorem RoundTrip.hintKeep : RoundTrip.Statement (.hintKeep) := by
  show decodeWord (0xfd300000#32) = .ok (.hintKeep)
  simp (disch := decide) only [decodeWord, decodeHint, field, field_above, field_below, field_whole, Nat.reduceSub, BitVec.reduceToNat, true_and, and_true, and_self, and_false, false_and, BitVec.reduceEq, BitVec.reduceExtractLsb', ↓reduceIte]
theorem RoundTrip.modFrm (r : BitVec 3) : RoundTrip.Statement (.modFrm r) := by
  show decodeWord (0x1fc02000#29 ++ r) = .ok (.modFrm r)
  simp (disch := decide) only [decodeWord, decodeHint, field, field_above, field_below, field_whole, field_split _ 0 26 3 3 23 _ rfl rfl, field_split _ 1 25 2 3 23 _ rfl rfl, Nat.reduceSub, BitVec.reduceToNat, true_and, and_true, and_self, and_false, false_and, BitVec.reduceEq, BitVec.reduceExtractLsb', ↓reduceIte]
theorem RoundTrip.modQsel (q : BitVec 4) : RoundTrip.Statement (.modQsel q) := by
  show decodeWord (0xfe02000#28 ++ q) = .ok (.modQsel q)
  simp (disch := decide) only [decodeWord, decodeHint, field, field_above, field_below, field_whole, field_split _ 0 26 4 4 22 _ rfl rfl, field_split _ 1 25 3 4 22 _ rfl rfl, field_split _ 3 23 1 4 22 _ rfl rfl, Nat.reduceSub, BitVec.reduceToNat, true_and, and_true, and_self, and_false, false_and, BitVec.reduceEq, BitVec.reduceExtractLsb', ↓reduceIte]

end Sys2Proof.Laws
end

