-- ==== Sys2Proof/Tests/Slice0.lean ====
section
/-! SUPPORT. Tests: words of the specification and what they decode to, ill-formed terms the checks refuse, a witness for the
hypotheses of every statement, and small steps with results worked from the specification. -/
namespace Sys2Proof.Tests
set_option Elab.async false
open Sys2Proof Sys2Proof.Machine

def win (off : Nat) : Word := BitVec.ofNat 64 (windowBase + off)
/-- A tile with a panel, scratchpad from 64 KiB to 256 KiB and a cache region above it. -/
def tile0 : Tile := { pbLo := 16, pbMid := 64, pbHi := 96, panCnt := 1, images := [(1, 7)] }
/-- Strand 0 holds block 0 of run 1, a run of context 7; the registers are as given. -/
def here (x : List (Nat × Word)) (f : Strand → Strand := id) (t : Tile := tile0) (g : State → State := id) : State :=
  let a : Strand := { act := .block 1 0, pc := 0x1000 }
  g { cur := .strand 0, strands := [(0, f { a with x := Vector.ofFn (fun i => (x.find? (fun e => e.1 = i.val)).elim 0 (·.2)) })], tiles := [(0, t)],
      runs := [(1, { ctx := 7, remaining := 2, blocks := [(0, .resident 0)] })] }
/-- The outcome is a value of which `p` holds. -/
def okWith {ε α : Type} (e : Except ε α) (p : α → Bool) : Bool :=
  match e with
  | .ok r => p r
  | .error _ => false
def servedWith {α : Type} (e : Served α) (p : α → State → Bool) : Bool :=
  match e with
  | .ok r s => p r s
  | _ => false
/-- Page tables that map the second GiB to itself; every right on it, by context 7's grant list and by core 0's lookaside. -/
def mapped (s : State) : State :=
  { s with hbm := memOver [(1, 0x10), (7, 0x80), (0x100B, 0x40), (0x100F, 0xC0), (0x4003, 0x40), (0x4007, 0x80), (0x4008, 0x1F), (0x400D, 0x40)] s.hbm
           contexts := [(7, { glBase := 4, glCount := 1, feltGrant := 1 })]
           cores := [(0, { plb := [{ base := 0x40000000, size := 0x40000000, rights := 31, pdom := 0 }] })] }
def put (pa : Nat) (bs : List Byte) (s : State) : State := { s with hbm := memWrite s.hbm pa bs }
def gib : Nat := 0x40000000

/-! ### Words of the specification and what they decode to -/

/-- Whether the table's word of 32 bits decodes to the instruction. -/
def reads (w : Nat) (i : Instr) : Prop := decodeTableWord 32 w = some i
theorem test_decode_formats : reads 0x04A63800 (.add 5 6 7 0) ∧ reads 0x0CA6FFFD (.addi 5 6 0xFFFD) ∧ reads 0xB1026002 (.ld 8 2 3 2) ∧
    reads 0xB5026002 (.st 8 2 3 2) := ⟨rfl, rfl, rfl, rfl⟩
theorem test_decode_branches : reads 0x60A03FFE (.bne 5 0 0x1FFE) ∧ reads 0x64200010 (.jal 1 16) ∧ reads 0x68010000 (.jalr 0 1 0) := ⟨rfl, rfl, rfl⟩
theorem test_decode_light : reads 0xFC001234 (.ximm 0x1234) ∧ reads 0xFE020002 (.modQsel 2) ∧ reads 0xFD200010 (.hintSpin 16) ∧
    reads 0xFD000000 .hintNop := ⟨rfl, rfl, rfl, rfl⟩
theorem test_decode_scalar : reads 0x1CA60003 (.slli 5 6 0 3) ∧ reads 0x1CA6601F (.srai 5 6 1 31) ∧ reads 0x28A01235 (.lui 5 0x1235) ∧
    reads 0x30A63803 (.ldx 5 6 7 3) := ⟨rfl, rfl, rfl, rfl⟩
theorem test_decode_vector : reads 0x80642A80 (.vadd 3 4 5 2 2 0) ∧ reads 0x80221A50 (.vsadd 1 2 3 2 1 0) ∧ reads 0x848530A0 (.vfadd 4 5 6 0 2 1) ∧
    reads 0x8822192A (.vfmadd 1 2 3 4 5 2) ∧ reads 0x90221882 (.vcmpLt 1 2 3 0 2 0) ∧ reads 0x94A63890 (.vfredo 5 6 7 0 2) := ⟨rfl, rfl, rfl, rfl, rfl, rfl⟩
theorem test_decode_permute : reads 0x98221C86 (.vsel 1 2 3 4 2) ∧ reads 0x9D090061 (.vps8 8 9 0 1 1) ∧ reads 0xCC221800 (.mand 1 2 3) := ⟨rfl, rfl, rfl⟩
theorem test_decode_memory : reads 0xB0A65FFE (.ld 5 6 2 0x1FFE) ∧ reads 0xB4E20003 (.st 7 2 0 3) ∧ reads 0xA0860002 (.vld 4 6 2) ∧
    reads 0xA4860002 (.vst 4 6 2) ∧ reads 0xA8251382 (.vgath 1 5 2 3 2) ∧ reads 0xB8A731B0 (.amoadd 5 7 6 3 0 1 1) := ⟨rfl, rfl, rfl, rfl, rfl, rfl⟩
theorem test_decode_sync : reads 0xBC000024 (.fence 2 4) ∧ reads 0xBCA60083 (.ldsync 5 6 3) ∧ reads 0xBCA602B3 (.ldAcq 5 6 3 3) ∧
    reads 0xBD060343 (.stRel 8 6 4 3) ∧ reads 0xBCA63A33 (.waitv 5 6 7 3 0 3) := ⟨rfl, rfl, rfl, rfl, rfl⟩
theorem test_decode_barriers : reads 0xC0063800 (.barInit 6 7) ∧ reads 0xC0063801 (.barExpect 6 7) ∧ reads 0xC0A60002 (.barArrive 5 6) ∧
    reads 0xC1062804 (.barWait 8 6 5) ∧ reads 0xC8A60000 (.cwait 5 6) := ⟨rfl, rfl, rfl, rfl, rfl⟩
theorem test_decode_matrix : reads 0xD42B3800 (.pld 1 11 7) ∧ reads 0xD0A00000 (.accAlloc 5 0 0) ∧ reads 0xD0404243 (.accRd 2 0 8 9) ∧
    reads 0xD1803005 (.accSt 12 0 6) ∧ reads 0xD8004400 (.mmaBf16 0 0 1 1) ∧ reads 0xD8491000 (.mmaPs8 1 2 4 0) := ⟨rfl, rfl, rfl, rfl, rfl, rfl⟩
theorem test_decode_epilogue : reads 0xDC980001 (.mscale 2 6 0 1) ∧ reads 0xDC89C880 (.mout 2 2 7 1) := ⟨rfl, rfl⟩
theorem test_decode_dray : reads 0xE8060003 (.drayTpl 6 3) ∧ reads 0xE8A63943 (.drayGo 5 6 7 1 3) ∧ reads 0xEC060000 (.strmBind 0 6) ∧
    reads 0xECA01002 (.strmPos 5 2) := ⟨rfl, rfl, rfl, rfl⟩
theorem test_decode_felt : reads 0xF0063830 (.feltCfg 6 7 0 3) ∧ reads 0xF0003833 (.feltRun 7 0 3) ∧ reads 0xF0A60004 (.feltSettle 5 6 0) ∧
    reads 0xF0063885 (.feltSample 6 7 0 1) ∧ reads 0xF0A00207 (.feltStat 5 2) := ⟨rfl, rfl, rfl, rfl, rfl⟩
theorem test_decode_system : reads 0x6D4B0005 (.sysc 10 11 5) ∧ reads 0x6C001000 (.brk 0) ∧ reads 0x6C002000 .exit ∧ reads 0x6CA64000 (.svcRecv 5 6) ∧
    reads 0x6CE85001 (.svcResume 7 8 1) ∧ reads 0x6C086000 (.svcKill 8) := ⟨rfl, rfl, rfl, rfl, rfl, rfl⟩
theorem test_decode_csr : reads 0x70A00001 (.csrr 5 1) ∧ reads 0x70061001 (.csrw 0 6 1) ∧ reads 0x74000001 (.gear 0 1) ∧ reads 0x74A00000 (.gear 5 0) :=
  ⟨rfl, rfl, rfl, rfl⟩
theorem test_decode_work : reads 0x78260000 (.send 1 6 0) ∧ reads 0x78063801 (.courier 6 7) ∧ reads 0x78074002 (.bind 7 8) ∧
    reads 0x7CA63800 (.launch 5 6 7) ∧ reads 0x7CA63811 (.relaunch 5 6 7 2) ∧ reads 0x7C063802 (.wbSkip 6 7) ∧ reads 0x7C000003 .wbAll :=
  ⟨rfl, rfl, rfl, rfl, rfl, rfl, rfl⟩

/-! ### Witnesses: scalar and float -/

theorem witness_OpiWritesItsResult : Passes (xForm [5, 6, 7]) (here []) ∧ Passes (xForm [0, 31]) (here []) ∧ opiRows ≠ [] := ⟨rfl, rfl, by simp [opiRows]⟩
theorem witness_MuldivWritesItsResult : Passes (xForm [5, 6, 7]) (here []) := rfl
theorem witness_ImmediatesWriteTheirResult : Passes (immForm [5, 6]) (here [] (fun t => { t with xlCount := 2 })) ∧ Passes (shiftForm 5 6 0 63) (here []) ∧
    Passes (immForm [0]) (here []) := ⟨rfl, rfl, rfl⟩
theorem witness_BranchesAndJumpsGo : Passes (branchForm 6 7 0x1FFF) (here [(6, 1)]) ∧ (me (here [(6, 1)])).pc.toNat % 4 = 0 ∧
    Passes (branchMaskForm 0 1) (here []) ∧ branchTarget (me (here [])) 13 1 ≠ 0 ∧ Passes (jalForm 1 0) (here []) ∧ Passes (jalrForm 1 6) (here []) :=
  ⟨rfl, rfl, rfl, by decide, rfl, rfl⟩
theorem witness_FloatWritesResultAndFlags : Passes (fForm true [5, 6, 7, 8]) (here [] (fun t => { t with frm := some 4 })) ∧
    Passes (fForm false [5, 6, 7]) (here []) ∧ Passes (fForm true [5, 6]) (here []) ∧ Passes (fcvtForm 5 6 0 2) (here []) ∧
    Passes (fclassForm 5 6 3) (here []) ∧ codeFmt 3 = some fp64 := ⟨rfl, rfl, rfl, rfl, rfl, rfl⟩
theorem witness_NanResultsAreCanonical : isNan (fdecode fp32 0x7FC00000) = true ∧ fp32 ∈ formats := by decide
theorem witness_IntegerConversionSaturates : fdecode fp32 0xFF800000 = .inf true ∧ isNan (fdecode fp16 0x7E00) = true := by decide

/-! ### Witnesses: memory -/

theorem local_scratch : Local (here [(6, win 0x10000)]) (win 0x10000) 8 := ⟨rfl, by decide, by decide, by decide, by decide⟩
theorem local_last : Local (here [(6, win 0x3FFF8)]) (win 0x3FFF8) 8 := ⟨rfl, by decide, by decide, by decide, by decide⟩
theorem loads_scratch : ∃ bs, loadBytes kLoad (win 0x10000) 8 (here [(6, win 0x10000)]) = .ok (bs, here [(6, win 0x10000)]) := ⟨_, by rfl⟩
theorem witness_LoadsWriteWhatTheyRead : let s := here [(6, win 0x10000)]
    Passes (ldForm [5, 6] 3) s ∧ Passes (ldxForm [5, 6, 0] 3) s ∧ Passes (syncForm [5, 6] (badScope 5 || decide ((3 : BitVec 3) = 7)) true) s ∧
    Passes (vmemForm 5 [6] none none true) s ∧ (∃ r, loadBytes kLoad (readX (me s) 6 + extended (me s) 13 0 * BitVec.ofNat 64 (bytesOf 3)) (bytesOf 3) (started s) = .ok r) ∧
    (∃ r, loadBytes kVload (readX (me s) 6 + extended (me s) 13 1 * 64) 64 (started s) = .ok r) :=
  ⟨rfl, rfl, rfl, rfl, ⟨_, rfl⟩, ⟨_, rfl⟩⟩
theorem witness_StoresStoreTheirData : let s := here [(6, win 0x10000), (5, 9)]
    Passes (immForm [5, 6]) s ∧ Passes (vmemForm 5 [6] none none true) s ∧ Passes (syncForm [5, 6] (badScope 5) true) s ∧
    (∃ t, storeBytes kStore (readX (me s) 6 + extended (me s) 13 0 * BitVec.ofNat 64 8) (leBytes 8 (readX (me s) 5).toNat) false (started s) = .ok ((), t)) ∧
    (∃ t, storeBytes kVstore (readX (me s) 6 + extended (me s) 13 0 * 64) (vecBytes (readV (me s) 5)) false (started s) = .ok ((), t)) ∧
    (∃ t, storeBytes kStore (readX (me s) 6) (leBytes 8 (readX (me s) 5).toNat) true (started s) = .ok ((), t)) ∧ (me s).acks = 0 ∧
    0 < (me (here [] (fun t => { t with acks := 1 }))).acks :=
  ⟨rfl, rfl, rfl, ⟨_, rfl⟩, ⟨_, rfl⟩, ⟨_, rfl⟩, rfl, by decide⟩
theorem witness_LocalAccessesReachThePool : Local (here [(6, win 0x10000)]) (win 0x10000) 8 ∧ Local (here [(6, win 0x3FFF8)]) (win 0x3FFF8) 8 ∧
    Passes (immForm [5, 6]) (here [(6, win 0x10000)]) ∧ (getTile (here [(6, win 0x10000)]) (localTile (here [(6, win 0x10000)]))).pool.wf = true ∧
    (∃ t, exec (.st 5 6 3 0) (here [(6, win 0x10000)]) = .next t) := ⟨local_scratch, local_last, rfl, rfl, _, rfl⟩
theorem witness_AccessChecksInOrder : let s := here []
    isCourier s.cur = false ∧ 2 ^ 57 ≤ (0x0200000000000000 : Word).toNat ∧ (0x1001 : Word).toNat % 8 ≠ 0 ∧
    (inWindow (win 0x40000).toNat = true ∧ inSpillOrScratch (getTile s (agentTile s.cur)) ((win 0x40000).toNat - windowBase) 8 = false) ∧
    (inOstler 0x01FFFFFFE0000000 = true ∧ ostlerMode s s.cur = false) := by decide
theorem witness_LocalAmosReadModifyWrite : let s := here [(6, win 0x10000)]
    Passes (amoForm 5 6 7 5 1 1) s ∧ Local s (readX (me s) 6) 8 ∧ (me s).acks = 0 := ⟨rfl, local_scratch, rfl⟩
theorem witness_GathersAndScattersByLane : let s := here [(6, win 0x10000), (7, 64)]
    Passes (vmemForm 5 [6] (some 0) none false) s ∧ Passes (vmemForm 5 [6, 7] (some 0) none false) s ∧ Passes (vmemForm 5 [6] (some 0) (some 7) false) s ∧
    (∃ r, gatherLanes 8 (fun l => readX (me s) 6 + BitVec.ofNat 64 (l * 8)) (lanesOf 64 (readM (me s) 0)) (started s) = .ok r) ∧
    (∃ r, eachLane (fun l => prepareLane 8 (readX (me s) 6 + BitVec.ofNat 64 l * readX (me s) 7)) (lanesOf 64 (readM (me s) 0)) (started s) = .ok r) ∧
    (∃ r, eachLane (fun l => storeBytes kScatter (readX (me s) 6 + BitVec.ofNat 64 l * readX (me s) 7) (leBytes 8 (lane (readV (me s) 5) 64 l)))
      (lanesOf 64 (readM (me s) 0)) (started s) = .ok r) := ⟨rfl, rfl, rfl, ⟨_, rfl⟩, ⟨_, rfl⟩, ⟨_, rfl⟩⟩
theorem witness_SyncFormsAct : let s := here [(6, win 0x10000)]
    Passes (syncForm [] (badScope 5 || decide ((15 : BitVec 4) = 0)) true) s ∧ Passes (syncForm [6] false true) s ∧
    inScratch (getTile s (localTile s)) (localOff (win 0x10000)) 1 = true ∧ Passes (syncForm [5, 6] (decide ((3 : BitVec 3) = 7)) false) s ∧
    Local s (readX (me s) 6) (bytesOf 3) ∧ Passes (syncForm [5, 6, 7] (badScope 5 || decide ((3 : BitVec 3) = 7)) false) s ∧
    (∃ r, loadBytes kWait (readX (me s) 6) (bytesOf 3) (started s) = .ok r) :=
  ⟨rfl, rfl, by decide, rfl, local_scratch, rfl, _, rfl⟩

/-! ### Witnesses: vectors, faults, registers -/

theorem witness_InactiveLanesAreKept : 63 < 512 / laneWidth 0 ∧ (0x8000000000000000 : Word).getLsbD 63 = true := by decide
/-- A bound stream of one group, at pool offset 65536: input or output, at a position, with a buffer. -/
def bound (out : Bool) (pos : Nat) (b : List Vec) : Stream := { bound := true, out := out, base := 65536, dims := [(1, 64)], position := pos, buffer := b }
def withStream (q : Stream) : State := here [] (fun t => { t with q := t.q.set 0 q, qsel := some 2 })
theorem witness_VectorOperandsReadAndLand :
    (let st := streamOf (me (withStream (bound false 0 []))) 0;
      st.bound = true ∧ st.position < patternLength st.dims ∧ patternOffset st.base st.dims st.position = some 65536 ∧ st.out = false ∧ st.buffer = [] ∧
      groupInside (getTile (withStream (bound false 0 [])) 0) 65536 = true) ∧
    (streamOf (me (withStream (bound false 0 [1]))) 0).buffer = [1] ∧ (streamOf (me (withStream (bound true 0 [1, 2, 3, 4]))) 0).buffer.length = 4 ∧
    (streamOf (me (withStream (bound true 0 [1, 2, 3]))) 0).out = true ∧
    patternLength (streamOf (me (withStream (bound true 1 []))) 0).dims ≤ (streamOf (me (withStream (bound true 1 []))) 0).position := by decide +kernel
theorem witness_VectorIntegerLanes : ∃ s2 s3, Passes (vbinForm false 1 2 3 0 0) (here []) ∧ Passes (vbinForm false 1 2 3 0 1) (here []) ∧
    ReadsAB (here []) 2 3 0 0 s2 ∧ ReadsA (here []) 2 0 s2 ∧ Lands (here []) 1 id s2 s3 := ⟨_, _, rfl, rfl, ⟨_, rfl, rfl⟩, rfl, rfl⟩
theorem witness_VectorFloatLanes : ∃ s2, Passes (vbinForm true 1 2 3 7 0) (here []) ∧ Passes (vunaryForm true false 1 2 0) (here []) ∧
    Passes (vfmaForm 1 2 3 4 0) (here []) ∧ ReadsABC (here []) 2 3 4 0 0 0 s2 := ⟨_, rfl, rfl, rfl, _, ⟨_, rfl, rfl⟩, rfl⟩
theorem witness_VectorComparisonsWriteAMask : ∃ s2, Passes (vcmpForm 1 2 3 0 0) (here []) ∧ Passes (vcmpForm 0 2 3 0 1) (here []) ∧
    ReadsAB (here []) 2 3 0 0 s2 := ⟨_, rfl, rfl, _, rfl, rfl⟩
theorem witness_VectorReductionsAndScans : ∃ s2 s3, Passes (vredForm false 5 6 7 0) (here []) ∧ Passes (vredForm true 5 6 7 0) (here []) ∧
    Passes (vscanForm false 5 6 7 0) (here []) ∧ Passes (vscanForm true 5 6 7 0) (here []) ∧ ReadsB (here []) 7 0 s2 ∧ Lands (here []) 5 id s2 s3 :=
  ⟨_, _, rfl, rfl, rfl, rfl, rfl, rfl⟩
theorem witness_VectorPermutes : ∃ s2, Passes (vbcastForm 1 2 0) (here []) ∧ Passes (vextractForm 1 2 3) (here []) ∧ Passes (vinsertForm 1 2 3) (here []) ∧
    Passes (vslideForm 1 2 3 0) (here []) ∧ Passes (vpairForm false false 1 2 3 0) (here []) ∧ ReadsA (here []) 2 0 s2 ∧
    Lands (here []) 1 id (started (here [])) s2 := ⟨_, rfl, rfl, rfl, rfl, rfl, rfl, rfl⟩
theorem witness_VectorConversions : ∃ s2, ReadsA (here []) 2 0 s2 ∧ ReadsAB (here []) 2 3 0 0 s2 ∧ Passes (vunaryForm false (decide ((1 : BitVec 2) = 0)) 1 2 0) (here []) ∧
    Passes (vunaryForm false (!(decide ((2 : BitVec 2) = 2))) 1 2 0) (here []) ∧ Passes (vunaryForm true (!(decide ((0 : BitVec 5) = 0))) 1 2 0) (here []) ∧
    Passes (vunaryForm false (decide (64 < (1 + 1) * laneCount 16)) 1 2 0) (here []) ∧ Passes (vpairForm false (decide ((2 : BitVec 2) = 3)) 1 2 3 0) (here []) ∧
    Passes (vpairForm true (decide ((2 : BitVec 2) = 3)) 1 2 3 0) (here []) := ⟨_, rfl, ⟨_, rfl, rfl⟩, rfl, rfl, rfl, rfl, rfl, rfl⟩
theorem witness_MaskRowsWriteTheirResult : Passes (maskForm [1, 2, 3] []) (here []) ∧ Passes (maskForm [0, 7] []) (here []) ∧
    Passes (maskForm [1] [31]) (here []) ∧ Passes (maskForm [7] [0]) (here []) := ⟨rfl, rfl, rfl, rfl⟩
theorem witness_LightWordsFillTheLatches : Passes lightForm (here []) ∧ Passes lightForm (here [] (fun t => { t with xlCount := 2, frm := some 1, qsel := some 1 })) :=
  ⟨rfl, rfl⟩
theorem witness_FaultsAreTakenPrecisely : (me (here [])).acks = 0 ∧ (getCtx (here []) (agentCtx (here []) (here []).cur)).service = 0 ∧
    Passes (noCourier [10, 11]) (here []) ∧ Passes (noCourier []) (here []) ∧ (me (here [])).deferred = none := ⟨rfl, rfl, rfl, rfl, rfl⟩
/-- Strand 0 has posted message 5 for a SYSC and waits for its reply. -/
def asked : State := here [] (fun t => { t with pending := some { faultInfo 0x0D 5 0 0 0 with dest := 10 }, status := .awaitReply 0 5 })
def reply1 : FaultReply := replyFor 0 (List.replicate 56 0 ++ [5, 0, 0, 0, 0, 0, 0, 0]) 1 9
theorem witness_RepliesResumeTheirPoster : posterAgent asked reply1.poster.toNat (reply1.posterFlags.getLsbD 0) = some (.strand 0) ∧ reply1.from? = none ∧
    reply1.mailbox = 0 ∧ (getAgent asked (.strand 0)).status = .awaitReply 0 reply1.seq ∧ reply1.disp = 1 ∧ (getAgent asked (.strand 0)).act ≠ .free ∧
    (getAgent asked (.strand 0)).pending ≠ none ∧ (getAgent (here []) (.strand 0)).status ≠ .awaitReply 0 reply1.seq := by decide +kernel
theorem witness_CsrFormsReadAndWrite : let s := here [(6, 1), (7, 0x1E0)]
    Passes (csrAccess 0xFFF [5] false) s ∧ csrValue (started s) s.cur 0xFFF = none ∧ Passes (csrAccess 1 [5] false) s ∧ csrValue (started s) s.cur 1 = some 0 ∧
    Passes (csrAccess 1 [5, 0] false) s ∧ Passes (csrAccess 1 [5, 6] true) s ∧ (∃ t, csrStore 1 1 (started s) = .ok ((), t)) ∧
    5 ≤ bits (readX (me s) 7).toNat 7 5 ∧
    Passes (csrAccess 2 [5, 6] true) (here [] id tile0 (fun s => { s with clusters := [(0, { ostMask := 1 })] })) :=
  ⟨rfl, rfl, rfl, rfl, rfl, rfl, ⟨_, rfl⟩, by decide, rfl⟩
theorem witness_CsrsHoldTheirRegisters : isCourier (here []).cur = false ∧ 5 ≤ bits 0x1FF 7 5 ∧ ¬5 ≤ bits 0x180 7 5 ∧
    ostlerMode (here []) (here []).cur = false ∧
    ostlerMode (here [] id tile0 (fun s => { s with clusters := [(0, { ostMask := 1 })] })) (here []).cur = true := by decide
theorem witness_ExitYieldAndGear : Passes plainForm (here []) ∧ (me (here [])).a.toList.any Option.isSome = false ∧ (∀ q < 8, (streamOf (me (here [])) q).bound = false) ∧
    (getRun (here []) (agentRun (here []) (here []).cur)).lr.record = false ∧
    (me (here [] (fun t => { t with a := t.a.set 0 (some { banks := [0], fp64 := false, status := 0, owner := 0 }) }))).a.toList.any Option.isSome = true ∧
    ((here []).strands.get {} 0).act = .block 1 0 ∧ 1 < (getRun (here []) 1).remaining ∧ Passes (noCourier []) (here []) ∧ Passes (noCourier [5]) (here []) :=
  ⟨rfl, by decide, by decide, rfl, by decide, rfl, by decide, rfl, rfl⟩

/-- The same message, posted to a mailbox in the second GiB: its reply clears slot 5 of it. -/
def posted : State := mapped (here [] (fun t => { t with pending := some (faultInfo 0x04 1 1 0 0), status := .awaitReply 0x40000000 5 }))
theorem witness_replies_clear_their_slot : servedWith (clearBusy posted 0x40000000 (reply1.seq.toNat % 64)) (fun _ s1 =>
      posterAgent s1 reply1.poster.toNat (reply1.posterFlags.getLsbD 0) == some (.strand 0)) = true ∧ reply1.seq.toNat % 64 = 5 ∧
    (getAgent posted (.strand 0)).pending = some (faultInfo 0x04 1 1 0 0) ∧ (faultInfo 0x04 1 1 0 0).kind.getLsbD 7 = false ∧
    ({ reply1 with from? := some { dest := 0, src := 1, key := 0, fareTag := 0, opcode := 0x11, flags := 1, length := 0, tag := 1, body := [] } } : FaultReply).from?.isSome = true := by
  decide +kernel

/-! ### Witnesses: work and messages -/

theorem witness_MessagesReachTheirCore : let s := here [(6, 4), (7, 0), (8, win 0x10000), (9, 0x2000)] id { tile0 with pool := memWrite [] 0x10000 [0, 0, 1] } (fun s => { s with runs := [(1, { ctx := 7, lr := { boots := [{ size := 0, share := 0, trig := 1 }] } })] })
    Passes (sendForm 1 6 7) s ∧ targetBad (readX (me s) 6).toNat true = false ∧ (targetOf (readX (me s) 6).toNat).dev = devnum s ∧
    ostlerTile s ((targetOf (readX (me s) 6).toNat).core / 4) = false ∧ (readX (me s) 7).toNat < 2 ^ 32 ∧ Passes (xForm [6, 8]) s ∧
    targetBad (readX (me s) 6).toNat false = false ∧ (readX (me s) 8).toNat % 128 = 0 ∧ inScratch (getTile s (localTile s)) (localOff (readX (me s) 8)) 128 = true ∧
    inboxUsed (getCore s 1) < 32 ∧ fieldAt (localBytes s (readX (me s) 8) 128) 2 1 = 1 ∧ zeroAt (localBytes s (readX (me s) 8) 128) 3 1 = true ∧
    zeroAt (localBytes s (readX (me s) 8) 128) 56 8 = true ∧ fieldAt (localBytes s (readX (me s) 8) 128) 8 8 = 0 ∧ Passes (noCourier [9, 7]) s ∧
    readX (me s) 9 ≠ 0 ∧ (readX (me s) 9).toNat % 4 = 0 ∧ (bootOfSlot (getRun s (agentRun s s.cur)).lr (readX (me s) 7).toNat).isSome = true := by
  decide +kernel
/-- A mailbox at the start of the second GiB: one message posted and not claimed, slot 0 busy. -/
def mail : State := put gib ([1, 0, 0, 0, 0, 0, 0, 0] ++ [1]) (mapped (here [(6, 0x40000000), (8, 0x40000080), (9, 1)]))
theorem witness_ServiceFormsUseTheMailbox : Passes (noCourier [5, 6]) mail ∧ (readX (me mail) 9).toNat % 8192 ≠ 0 ∧ (readX (me mail) 6).toNat % 8192 = 0 ∧
    okWith (mailboxCheck (readX (me mail) 6) (started mail)) (fun r => (me r.2).replyValue.isNone &&
      okWith (mailboxWord (readX (me mail) 6) r.2) (fun q => bits q.1 31 0 = 1 && bits q.1 63 32 = 0 &&
        okWith (mailboxSwap (readX (me mail) 6) r.1 q.1 (setBits q.1 63 32 1) q.2) (·.1))) = true ∧
    Passes (resumeForm 5 8 1) mail ∧ (me mail).acks = 0 ∧
    okWith (busySlot (readX (me mail) 8) (started mail)) (fun r => fieldAt r.1.2.2 36 2 = devnum r.2 && servedWith (clearBusy r.2 r.1.1 r.1.2.1) (fun _ _ => true)) = true := by
  decide +kernel
/-- A launch record of one block at address 0x1000, and a record of zeros. -/
def recordBytes : List Byte := patch (patch (patch (List.replicate 1024 0) 0 [0x44, 0x4C, 0x43, 0x56, 1, 1, 0, 0]) 8 (leBytes 8 0x1000)) 64 (leBytes 4 1 ++ [5, 0, 0, 0])
def work : State := put gib recordBytes (mapped (here [(6, 0x40000000), (8, 0x40000400), (9, 99)]))
theorem witness_WorkFormsStartRuns : Passes (noCourier [5, 6, 7]) work ∧ readX (me work) 7 = 0 ∧
    okWith (readRecord (readX (me work) 6) (started work)) (fun r => recordValid r.1 &&
      servedWith (regionHeld r.2 (agentCtx r.2 work.cur) (recordOf r.1)) (fun x _ => x)) = true ∧
    okWith (readRecord (readX (me work) 8) (started work)) (fun r => !recordValid r.1) = true ∧
    work.runs.has ((readX (me work) 9).setWidth 32).toNat = false ∧ Passes (noCourier []) work ∧ recording work work.cur = false := by decide +kernel
theorem barrier0 : BarrierAt (here [(6, win 0x10000)]) (win 0x10000) := ⟨by decide, by decide, by decide⟩
theorem witness_BarrierFormsActOnTheirWord : let s := here [(6, win 0x10000), (7, 0xFFFFFF), (8, win 0x10008), (9, 0x1000)]
    Passes (noCourier [6, 7]) s ∧ Passes (noCourier [5, 6]) s ∧ Passes (noCourier [5, 6, 7]) s ∧ (readX (me s) 8).toNat % 16 ≠ 0 ∧
    ((readX (me s) 9).toNat % 16 = 0 ∧ inWindow (readX (me s) 9).toNat = false) ∧ ostlerTile s 7 = false := by decide +kernel
theorem witness_BarrierStepsCountAndFlip : bits (barApply (2 ^ 32) .arrive) 55 32 = 0 ∧ bits (barApply (2 ^ 32) .arrive) 31 0 = 0 ∧
    bits (barApply (2 ^ 33) .arrive) 55 32 ≠ 0 := by decide +kernel

/-! ### Witnesses: carriages, matrix, engines -/

/-- Context 7 has one carriage whose flag word, at the start of the second GiB, is `w`. -/
def carriage0 : Carriage := { src := 0, eclass := 0, srcHi := 0, srcAddr := 0, devAddr := gib + 4096, length := 64, flag := gib }
def coach0 : Coach := { ctx := 7, priority := 0, autoFetch := false, carriages := [carriage0] }
def riding (w : Nat) : State := put gib (leBytes 8 w) { mapped (here [(6, 0x40000000)]) with coaches := [coach0] }
def flagShows (w : Nat) : Bool :=
  okWith (carriageCheck 0x40000000 (started (riding w))) (fun r => okWith (flagUpdate 0x40000000 r.1.1 (fun _ => none) r.2) (fun q => decide (q.1 = w)))
theorem witness_CarriagesFetchRideAndLeave :
    (∀ st ∈ [0, 1, 2, 3, 4], flagShows (st * 2 ^ 61) = true) ∧ flagShows (2 * 2 ^ 61 + (2 ^ 14 - 1) * 2 ^ 40) = true ∧ Passes (noCourier [5, 6]) (riding 0) ∧
    Passes (noCourier [6]) (riding 0) ∧ (riding 0).coaches = [coach0] ∧ flagState (flagGet (riding (3 * 2 ^ 61)) carriage0) = 3 ∧
    flagState (flagGet (riding (2 * 2 ^ 61)) carriage0) = 2 ∧ flagRiders (flagGet (riding (2 * 2 ^ 61 + 2 ^ 40)) carriage0) = 1 ∧ (here []).coaches = [] ∧
    (riding (2 ^ 61)).coaches[0]? = some coach0 ∧ coach0.carriages[0]? = some carriage0 ∧ coach0.autoFetch = false ∧ ({ coach0 with autoFetch := true }).autoFetch = true := by
  decide +kernel
/-- The flag word of the carriage is ready and holds a state; a piece of 64 bytes can be written. -/
def flagHolds (st : Nat) : Bool :=
  servedWith (flagReady (riding (st * 2 ^ 61)) carriage0) (fun _ s => decide (flagState (flagGet s carriage0) = st) && decide (fetchTotal s coach0 carriage0 = 64) &&
    (deepRange s (gib + 4096)).isNone && servedWith (ctxRights s 7 2 (gib + 4096) 64) (fun _ s1 =>
      servedWith (engineStores s1 { unit := coachUnit 0 0, tile := coachTile s (coachPart s coach0), ctx := 7, run := 0 } 0 (granuleParts 3 (gib + 4096) (List.replicate 64 1)))
        (fun _ _ => true)))
theorem witness_carriage_flags : (∀ st ∈ [0, 1, 2, 3], flagHolds st = true) ∧ carriage0.landed = [] ∧
    servedWith (flagsReady (riding (2 * 2 ^ 61)) [carriage0]) (fun _ s => decide (flagRiders (flagGet s carriage0) = 0) &&
      (victims s (coachPart s coach0)).all (fun o => !evictBefore o (0, 0, 0, 0, 0))) = true := by decide +kernel
theorem witness_StashAndCacheForms : let s := mapped (here [(6, 0x40000000), (7, 128), (8, win 0x10000), (9, BitVec.ofInt 64 (-25)), (10, 8)])
    let e : StashEntry := { ctx := 7, number := 0, base := gib, length := 128, firstLine := 2048 }
    Passes (noCourier [5, 6, 7]) s ∧ okWith (stashRange (readX (me s) 6) (readX (me s) 7) (started s)) (fun r => decide (r.2.cur = s.cur)) = true ∧
    Passes (noCourier [6]) s ∧ (entryNumber (here [] id { tile0 with stash := [e] }) s.cur 0).isSome = true ∧ entryNumber s s.cur 0 = none ∧
    inWindow (readX (me s) 8).toNat = true ∧ 192 < ((getTile s 0).pbHi : Int) - 4 * (readX (me s) 9).toInt ∧
    (((getTile s 0).pbMid : Int) ≤ (getTile s 0).pbHi - 4 * (readX (me s) 10).toInt ∧ (getTile s 0).stash = []) ∧ Passes (xForm [6]) s := by decide +kernel
def named (fp64 : Bool) (t : Strand) : Strand := { t with a := t.a.set 0 (some { banks := [0, 1, 2, 3, 4, 5, 6, 7], fp64 := fp64, status := 0, owner := 0 }) }
theorem bound0 (b : Bool) : Bound (here [] (named b)) 0 0 b := ⟨_, rfl, rfl⟩
theorem witness_MatrixWordsQueueTheirCommand : let s := here [(6, 255), (7, 256)] (named false)
    s.cur = .strand 0 ∧ Passes (matrixForm (decide (16 < (0 : BitVec 4).toNat + formPanels 0))) s ∧ panelIn (getTile s 0) 0 = true ∧ panelIn (getTile s 0) 1 = false ∧
    Passes (matrixForm (decide (8 < (8 : BitVec 4).toNat))) s ∧ Passes (numberForm 16 15 [] []) s ∧ nameOf s 0 15 = none ∧ (nameOf s 0 0).isSome = true ∧
    Passes (numberForm 16 0 [6] [2]) s ∧ (readX (me s) 6).toNat < accSize ((nameOf s 0 0).getD { banks := [], fp64 := false, status := 0, owner := 0 }) / 64 ∧
    ¬(readX (me s) 7).toNat < accSize ((nameOf s 0 0).getD { banks := [], fp64 := false, status := 0, owner := 0 }) / 64 ∧
    Passes (numberForm 16 0 [6, 7] [2]) s ∧ Passes (numberForm 16 15 [5] []) s ∧ Passes (noCourier [5]) s := by decide +kernel
/-- Registers with a base inside and outside the pool, a barrier, a descriptor of ACC.ZERO a0 for tile 1. -/
def moves : State := mapped (here [(6, win 0x10000), (7, 0x40000000), (8, win 0x20000), (9, win 0x20040)] (named false)
  { tile0 with pool := memOver (memWrite [] 0x20040 [0, 0, 0, 0, 0, 0, 0, 0, 1]) (memWrite [] 0x2004C (leBytes 4 0xD0000002)) })
theorem witness_PanelMovesQueueAndMsendSends : moves.cur = .strand 0 ∧ Passes (numberForm 16 0 [6, 8] []) moves ∧ panelIn (getTile moves 0) 0 = true ∧
    (readX (me moves) 6).toNat % 64 = 0 ∧ (readX (me moves) 7).toNat % 128 = 0 ∧
    (BarrierAt moves (readX (me moves) 8) ∧ inWindow (readX (me moves) 7).toNat = false ∧ readX (me moves) 8 ≠ 0) ∧
    okWith (engineSpan 0 1 true (readX (me moves) 6) 64 (started moves)) (fun r => decide (r.2.cur = moves.cur)) = true ∧
    okWith (engineSpan 1 2 false (readX (me moves) 7) 16384 (started moves)) (fun r => decide (r.2.cur = moves.cur)) = true ∧
    Passes (numberForm 16 0 [7, 8] []) moves ∧ Passes (noCourier [9]) moves ∧ inScratch (getTile moves 0) (localOff (readX (me moves) 9)) 64 = true ∧
    (let desc := localBytes moves (readX (me moves) 9) 64;
      (wordOp (fieldAt desc 12 4)).isSome = true ∧ zeroAt desc 10 2 = true ∧ zeroAt desc 24 40 = true ∧ fieldAt desc 8 2 < 2 ^ 14 ∧
      ostlerTile moves (msendTile desc) = false) ∧ MayName moves 0 := by
  refine ⟨rfl, rfl, by decide +kernel, by decide +kernel, by decide +kernel, ⟨⟨by decide +kernel, by decide +kernel, by decide +kernel⟩, by decide +kernel, by decide +kernel⟩,
    by decide +kernel, by decide +kernel, rfl, rfl, by decide +kernel, by decide +kernel, Or.inl rfl⟩
/-- A template table of one COPY record of one byte from the scratchpad to itself, and a copy in channel 0. -/
def record0 : List Byte := patch (patch (patch (List.replicate 128 0) 1 [1]) 8 (leBytes 8 (windowBase + 0x10000))) 16 (leBytes 8 (windowBase + 0x11000)) |> fun b => patch b 40 [1]
def drays : State := here [(6, 0), (7, win 0x12000), (8, 3)] id
  { tile0 with pool := memWrite [] 0x12000 record0, tables := [(7, { base := win 0x12000, count := 1 })]
               dray := (Vector.replicate 4 []).set 0 [{ tag := 3, core := 0, strand := some 0, run := 1, ctx := 7, tpl := ((templateOf record0).getD { kind := 0, esz := 0, slices := 0, src := 0, dst := 0, bar := 0, sstride := 0, dims := [] }), srcBase := 0, dstBase := 0, slack := 0 }] }
theorem witness_DrayWordsActOnCopies : Passes (noCourier [6]) drays ∧ ((readX (me drays) 7).toNat % 128 = 0 ∧ inWindow (readX (me drays) 7).toNat = true ∧
    inScratch (getTile drays 0) (localOff (readX (me drays) 7)) (128 * (63 + 1)) = true) ∧ readX (me drays) 6 = 0 ∧ copyNamed drays 0 0 = none ∧
    (copyNamed drays 0 (readX (me drays) 8)).isSome = true ∧ Passes (noCourier [6, 7]) drays ∧ Passes (noCourier [5, 6]) drays ∧ Passes (noCourier [5, 6, 6]) drays ∧
    okWith (goCopy 0 (some 0) 1 7 false 0 0 0 (started drays)) (fun r => decide (r.2.cur = drays.cur) && inWindow r.1.srcBase.toNat && inWindow r.1.dstBase.toNat &&
      decide ((me r.2).acks = 0) && decide ((copiesOf r.2 0).length < 128)) = true := by decide +kernel
/-- A pattern record of one group at pool offset 65536, and one that is not legal. -/
def streams (st : Stream) : State := here [(6, win 0x10000), (7, win 0x10020)] (fun t => { t with q := t.q.set 0 st })
  { tile0 with pool := memOver (memWrite [] 0x10000 (leBytes 4 65536)) (memWrite [] 0x10008 [1]) }
theorem witness_StreamWordsBindAndUnbind : let s := streams {}
    s.cur = .strand 0 ∧ Passes (strmForm [6] 0) s ∧ Passes (strmForm [] 7) s ∧ Passes (strmForm [5] 0) s ∧ (readX (me s) 6).toNat % 32 = 0 ∧
    inScratch (getTile s 0) (localOff (readX (me s) 6)) 32 = true ∧ patternRecord (localBytes s (readX (me s) 7) 32) = none ∧
    (patternRecord (localBytes s (readX (me s) 6) 32)).isSome = true ∧ (streamOf (me s) 0).bound = false ∧
    (streamOf (me (streams { bound := true, out := true, buffer := [1] })) 0).buffer ≠ [] := by decide +kernel
/-- Array 0 is granted to context 7. -/
def granted (s : State) : State := { s with felt := s.felt.set 0 { ctx := some 7 } }
theorem witness_FeltWordsJoinTheirArray : let s := granted (mapped (here [(6, win 0x10000), (7, 0)]))
    isCourier s.cur = false ∧ grantedArray s (agentCtx s s.cur) 1 = none ∧ grantedArray s (agentCtx s s.cur) 0 = some 0 ∧ Passes (noCourier [6, 7]) s ∧
    Passes (noCourier [7]) s ∧ Passes (noCourier []) s ∧ (readX (me s) 6).toNat % 128 = 0 ∧ inScratch (getTile s 0) (localOff (readX (me s) 6)) 128 = true ∧
    readX (me s) 7 = 0 ∧ (me s).acks = 0 ∧ (getArray s 0).queue.length < 8 ∧ (me s).replyValue = none ∧ (me s).sent = false ∧
    (me (here [] (fun t => { t with replyValue := some 5 }))).replyValue = some 5 ∧ (me (here [] (fun t => { t with sent := true }))).sent = true := by decide +kernel
def name0 : AccName := { banks := [0, 1, 2, 3, 4, 5, 6, 7], fp64 := false, status := 0, owner := 0 }
def cmd0 (op : MatrixOp) : MatrixCmd := { strand := 0, run := 1, op := op, barrier := 0 }
/-- A queue of one command and a running one; the tile holds its eight column groups. -/
def engine (q : List MatrixCmd) (r : Option MatrixRun) : State := here [] (fun t => { t with a := t.a.set 0 (some name0) })
  { tile0 with queue := q, running := r } (fun s => { s with clusters := [(0, { units := [(0, 8)] })] })
theorem witness_MatrixStepsDoTheirCommand :
    let s := engine [cmd0 (.mma 0 0 0 0 true 5)] none
    let r := engine [] (some { cmd := cmd0 (.mma 0 0 0 0 true 5), step := 6 })
    engineRuns s 0 = true ∧ family (.pzero 0) = false ∧ family (.mma 0 0 0 0 true 5) = true ∧ unitsHeld s 0 = 8 ∧ unitsHeld (here []) 0 ≠ 8 ∧
    nameOf s 0 0 = some name0 ∧ name0.owner ≠ 5 ∧ (name0.banks.Nodup ∧ name0.banks.length = accSize name0 / 2048) ∧ (getTile s 0).running = none ∧
    (getTile r 0).running.isSome = true ∧ nameOf r 0 0 = some name0 ∧ 6 + 1 < 8 ∧ (getTile r 0).queue = [] ∧ (getTile r 0).acc.wf = true := by decide +kernel
theorem witness_matrix_ends : ∀ op ∈ [MatrixOp.pzero 0, .accZero 0, .accWr 0 0 0, .mout 0 0 0 0],
    engineRuns (engine [] (some { cmd := cmd0 op, started := true })) 0 = true ∧ (getTile (engine [] (some { cmd := cmd0 op, started := true })) 0).running.isSome = true := by
  decide +kernel

/-- One byte from the scratchpad to the scratchpad, and a STORAGE copy with two segments outstanding. -/
def copy0 (kind : Nat) : Copy :=
  { tag := 0, core := 0, strand := some 0, run := 1, ctx := 7, srcBase := win 0x10000, dstBase := win 0x11000, slack := 0, started := true, outstanding := if kind = 2 then [(1, 512), (2, 512)] else []
    tpl := { kind := kind, esz := 0, slices := 1, src := 0, dst := 0, bar := win 0x12000, sstride := 0, dims := [(1, 0, 0)] } }
def draying (kind : Nat) : State := here [] id { tile0 with dray := (Vector.replicate 4 []).set 0 [copy0 kind] }
theorem witness_DrayAndStreamStepsMoveData :
    let s := draying 0
    let e : Engine := { unit := drayUnit 0 0, tile := 0, ctx := 7, run := 1 }
    engineRuns s 0 = true ∧ nextCopy s.now ((getTile s 0).dray.toList.getD 0 []) = some (copy0 0) ∧ nextCopy s.now ((getTile s 0).dray.toList.getD 1 []) = none ∧
    servedWith (segmentData s e (copy0 0) [0]) (fun bs s1 => servedWith (engineStores s1 e 0 (segmentWrites s1 e (copy0 0) [0] bs)) (fun _ _ => true)) = true ∧
    0 + [0].length = elementCount (copy0 0).tpl ∧ (copy0 0).tpl.kind ≠ 2 ∧ (copy0 2).tpl.kind = 2 ∧ nextCopy s.now ((getTile (draying 2) 0).dray.toList.getD 0 []) = some (copy0 2) ∧
    storageValid s (partOfDie s 0) = false ∧ (getTile State.reset 0).images = [] ∧ (getTile s 0).images.getLast? = some (1, 7) ∧
    storageCopy s 0 0 1 = none ∧ storageCopy (draying 2) 0 0 2 = some (copy0 2, 512) ∧ ((copy0 2).outstanding.filter (fun o => !(o.1 == 2))) ≠ [] ∧
    ((copy0 2).outstanding.takeWhile (fun o => !(o.1 == 2))) ≠ [] ∧ (copy0 2).tpl.bar ≠ 0 ∧ (streamOf (getAgent s (.strand 0)) 0).bound = false := by decide +kernel
def streaming (out : Bool) (b : List Vec) : State :=
  here [] (fun t => { t with q := t.q.set 0 { bound := true, out := out, base := 65536, dims := [(1, 1)], buffer := b } })
theorem witness_streams_move : patternOffset 65536 [(1, 1)] 0 = some 65536 ∧ groupInside (getTile (streaming false []) 0) 65536 = true ∧
    (streamOf (getAgent (streaming false []) (.strand 0)) 0).buffer.length < 4 ∧ 0 < patternLength [(1, 1)] ∧
    (streamOf (getAgent (streaming true [7]) (.strand 0)) 0).buffer = [7] ∧ (getTile (streaming true [7]) 0).changing = none ∧
    (getTile (streaming true [7]) 0).pool.wf = true := by decide +kernel
def image0 : List Byte := patch (patch (List.replicate 72 0) 6 [1]) 16 [1]
def slot0 : FeltSlot := { image := image0, sigma := [0], ic := [0], fingerprint := 0, admissible := true, gang := false }
def feltCmd (op : FeltOp) : FeltCmd := { op := op, strand := 0, run := 1, ctx := 7, pc := 0x1000, barrier := 0 }
def felt (state : Nat) (f : FeltArray → FeltArray) : State :=
  here [] (fun t => { t with sent := true }) tile0 (fun s => { s with felt := s.felt.set 0 (f { state := state, slots := (Vector.replicate 8 none).set 0 (some slot0) }), now := 2000000000 })
theorem witness_FeltStepsRunTheArrays :
    (getArray (felt 0 id) 0).queue = [] ∧ (∀ op ∈ [FeltOp.halt, .stat, .sample false (win 0x10000), .run 0, .run 1],
      let f := getArray (felt 0 (fun f => { f with queue := [feltCmd op] })) 0
      f.queue = [feltCmd op] ∧ f.converting = none ∧ inPhase f = false ∧ f.calibrating = false) ∧
    gangMember (felt 0 id) 0 = false ∧ feltWaits (felt 0 id) (feltCmd .stat) = true ∧ slotOf (getArray (felt 0 id) 0) 1 = none ∧
    slotOf (getArray (felt 0 id) 0) 0 = some slot0 ∧ (getArray (felt 1 id) 0).state = 1 ∧
    ((getArray (felt 2 id) 0).state = 2 ∧ (getArray (felt 2 id) 0).settlers = [] ∧ (getArray (felt 2 id) 0).runCmd = none ∧
      (getArray (felt 2 id) 0).startTick + runMax (getArray (felt 2 id) 0) ≤ (felt 2 id).now ∧ canSaturate (getArray (felt 2 id) 0) false 0 = true ∧
      (getArray (felt 2 id) 0).lastRun = none) ∧
    (felt 2 (fun f => { f with startTick := 2000000000 })).now < 2000000000 + runMax (getArray (felt 2 id) 0) ∧ (getArray (felt 3 id) 0).startTick + 1000000000 ≤ (felt 3 id).now ∧
    (getArray (felt 0 (fun f => { f with calibrating := true })) 0).startTick + 20000 ≤ (felt 0 id).now ∧
    (List.range 8).findSome? (fun k => ((getArray (felt 2 (fun f => { f with settlers := [(0, 9)] })) k).settlers.find? (fun e => e.1 == 0 && !(e.2 = 0))).map (fun e => (k, e.2))) =
      some (0, 9) ∧
    servedWith (replayed (felt 0 id) (feltCmd (.sample false (win 0x10000))) 0) (fun r _ => r.isNone) = true ∧ sampleFits (felt 0 id) (feltCmd .stat) (win 0x10000) 128 = true ∧
    sampleFits (felt 0 id) (feltCmd .stat) (win 0x3FFC0) 128 = false := by decide +kernel
def port (f : Port → Port) (s : State := here []) : State := { s with ports := s.ports.set 0 (f {}) }
def kept0 (seq : Nat) : KeptFlit := { seq := seq, cls := 1, hdrOff := 0, payload := [], since := none }
def notice0 : Notice := { t0 := 1, port := 0, cause := 3, gen := 0, live := 0, sec := 0, ns := 0 }
theorem witness_FlitsAreAcceptedInOrder : (getPort (here []) 0).state ≠ 2 ∧ (getPort (port (fun x => { x with state := 2 })) 0).state = 2 ∧
    (let x := getPort (port (fun x => { x with state := 2, acked := 4095, kept := [kept0 0, kept0 2047] })) 0;
      x.kept ≠ [] ∧ ∀ e ∈ x.kept, e.seq < 4096 ∧ (e.seq + 4096 - (x.acked + 1) % 4096) % 4096 < 2048) := by decide +kernel
theorem witness_PortsTrainAndFail : (∀ st ∈ [0, 1, 2, 3], (getPort (port (fun x => { x with state := st })) 0).state = st) ∧
    (getPort (port (fun x => { x with state := 2, kept := [kept0 0] })) 0).kept ≠ [] ∧ (getPort (port (fun x => { x with disable := true })) 0).disable = true ∧
    (∀ k < partCount State.reset, partIdle State.reset k = true) ∧
    ((getPort (port (fun x => { x with state := 1, step := 1 })) 0).step = 1 ∧ ((List.range 9).filter (fun l => (0x0FF : BitVec 16).getLsbD l)).length = 8 ∧
      ((List.range 9).filter (fun l => (0x07F : BitVec 16).getLsbD l)).length < 8) ∧
    ({ here [] with link := { notices := [notice0] } } : State).link.notices.find? (fun n => n.port = 0) = some notice0 ∧
    (∀ m ∈ [notice0], m.t0 = notice0.t0 → 0 ≤ m.port) ∧ (∃ m ∈ [notice0, { notice0 with port := 5 }], m.t0 = 1 ∧ m.port < 5) ∧ notice0.todo = none ∧ (here []).link.noticeB = 0 ∧ (here []).link.noticeA = 0 := by decide +kernel
def packet (key : BitVec 16) (dest : BitVec 16) (op : BitVec 8) (flags : BitVec 8) (body : List Byte) : Packet :=
  { dest := dest, src := 0, key := key, fareTag := 0, opcode := op, flags := flags, length := BitVec.ofNat 16 body.length, tag := 1, body := body }
/-- One valid key with MGMT set; device 3 is reached through port 0. -/
def linked : State := { port (fun x => { x with state := 2 }) with link := { keys0 := [(0, 0xC000000000000005)], bank0 := [(3, 0x8000000000000001)] } }
theorem witness_RoutesAndRegistersAreWritten :
    (0x120000 ≤ 0x120000 ∧ 0x12FFF8 < 0x130000 ∧ 0x12FFF8 % 8 = 0 ∧ (here []).link.pending = false ∧ (here []).link.active = false) ∧
    ({ here [] with link := { active := true, pending := true, swTime := 1, holds := [3] } } : State).now < 1 ∧ (here []).link.swTime.toNat ≤ (here []).now ∧
    (here []).requests = [] ∧ (here []).link.heldPackets = [] ∧ keyAccepted linked 6 = false ∧ keyAccepted linked 5 = true ∧ keyManages linked 5 = true ∧
    devnum linked = 0 ∧ classU 1 = false ∧ hasRoute linked 4 = false ∧
    (let p := packet 5 0 0x10 1 (leBytes 8 1 ++ leBytes 8 0x100000 ++ leBytes 8 0);
      fieldAt p.body 0 2 = 1 ∧ p.length = 24 ∧ zeroAt p.body 2 6 = true ∧ fieldAt p.body 8 8 = 0x100000) := by decide +kernel
/-- A request word for an address, with a size code, and what follows it. -/
def requestBody (pa : Nat) (size : Nat) (rest : List Byte) : List Byte := leBytes 8 pa ++ leBytes 7 0 ++ [BitVec.ofNat 8 size] ++ rest
def asks (pa : Nat) (size : Nat) (rest : List Byte) : Packet := packet 0 0 0 1 (requestBody pa size rest)
theorem servable0 : Servable (here []) (asks 0x40000000 6 []) false := ⟨by decide +kernel, by decide +kernel, by decide +kernel, by decide +kernel, Or.inl (by decide +kernel), nofun⟩
theorem servable1 (rest : List Byte) (h : rest = [64, 0] ++ List.replicate 86 0 ∨ rest = [0, 8] ++ List.replicate 86 0) : Servable (here []) (asks 0x40000000 6 rest) true := by
  rcases h with rfl | rfl <;>
  exact ⟨by decide +kernel, by decide +kernel, by decide +kernel, by decide +kernel, Or.inl (by decide +kernel), fun _ => by decide +kernel⟩
def owned (d : DirEntry) : State := { here [] with dir := [(0x1000000, d)] }
theorem witness_RequestsAreServedAtTheirHome :
    servedWith (settle (here []) 0x1000000 none) (fun _ s1 => servedWith (invalidate s1 0x1000000 none) (fun _ s2 => servedWith (readSector s2 0x1000000 0) (fun _ _ => true))) = true ∧
    servedWith (depotRead (here []) 0x1000000 0) (fun _ _ => true) = true ∧ servedWith (drayGranules (here []) 0x1000000 0 (List.replicate 64 0) 1) (fun _ _ => true) = true ∧
    amoNew 0 8 0 0 0 ≠ none ∧ amoNew 9 8 1 0 0 = none ∧ (dirOf (owned { st := .derelict }) 0x1000000).st = .derelict ∧
    (dirOf (owned { st := .owned, ownerDev := some 0 }) 0x1000000).ownerDev = some 0 ∧ (sectorOf (here []) 0x1000000).derelict = false ∧
    (1 ≠ (here []).ostler.epoch.toNat ∨ (2 : Nat) ≠ (here []).ostler.epoch.toNat) ∧ (here []).l2 = [] ∧ (here []).requests = [] ∧
    (dirOf (owned { st := .owned, ownerDev := some 5, snooping := true }) 0x1000000).snooping = true := by decide +kernel
def waited : State := { owned { st := .owned, ownerDev := some 0, snooping := true } with
  requests := [(1, { dev := 0, agent := none, kind := .snoop 0x1000000, addr := 0, ctx := 0, classO := false })], ostler := { gone := [0] } }
theorem witness_requests_wait : (waited.requests.find? (fun r => r.1 == 1 && r.2.dev == 0)).isSome = true ∧ (0 : Nat) ∈ waited.ostler.gone ∧
    (waited.requests.find? (fun r => r.1 == 1)).isSome = true := by decide +kernel
theorem witness_FabricMessagesAct : let s := here [] id tile0 (fun s => { s with runs := [(1, { ctx := 7, lr := { boots := [{ size := 128, share := 1, trig := 1 }] } })] })
    let m := (leBytes 8 4 ++ leBytes 4 1 ++ List.replicate 68 0 : List Byte)
    fieldAt (leBytes 8 1 ++ leBytes 8 5) 0 2 = 1 ∧ fieldAt (leBytes 8 1 ++ leBytes 8 5) 8 2 ≠ 0 ∧ fieldAt (leBytes 8 0x40000000) 0 8 % 32 = 0 ∧
    servedWith (depotWrite s 0x1000000 0 (granuleImage 0 (List.replicate 32 1)) (maskAt 0 32) 0) (fun _ _ => true) = true ∧
    targetBad 2 true = true ∧ targetBad (fieldAt m 0 8) true = false ∧ targetBad (fieldAt m 0 8) false = false ∧ ostlerTile s 0 = false ∧
    ostlerTile { s with clusters := [(0, { ostMask := 1 })] } 0 = true ∧
    (match sendArrives s (targetOf 4) 1 none 0 with | .held _ => true | _ => false) = true ∧ inboxUsed (getCore s 1) < 32 ∧ s.ostler.trAcks = [] ∧
    bits 0x3600000000000000 59 57 = 3 ∧ bits 0x3600000000000000 63 60 = 3 ∧ s.contexts = [] ∧ hbmSize ≤ 64 * 0x500000000 ∧
    (sectorOf s 0).key = 0 ∧ (sectorOf s 0).uncorrectable = false ∧ (dirOf s 0).st ≠ .derelict ∧ (dirOf (owned { st := .derelict }) 0x1000000).waiting = [] ∧
    (getAgent s s.cur).migReads = none ∧ (∀ until? ∈ [none, some 0, some 9], (me (here [] (fun t => { t with migReads := some (7, 30, until?) }))).migReads = some (7, 30, until?)) ∧
    (me (here [] (fun t => { t with status := .awaitPeer 0 8 0 0 }))).status = .awaitPeer 0 8 0 0 ∧
    (owned { st := .derelict }).hbm.wf = true := by decide +kernel

/-! ### Witnesses: power, controller, host -/

def withTile (f : Tile → Tile) : State := { State.reset with tiles := [(0, f {})] }
theorem witness_PowerHeatAndSparesStep :
    (withTile id |> fun s => (getTile s 0).changing = none ∧ clusterGallops s 0 = true) ∧ (getTile (withTile (fun t => { t with changing := some .walk })) 0).changing = some .walk ∧
    (clusterGallops { State.reset with tiles := (List.range 8).map (fun k => (k, { gear := .walk })) } 0 = false ∧ (getCluster State.reset 0).railLow = false) ∧
    ((getTile (withTile (fun t => { t with gear := .park, wakeAsked := true, parkTick := 1 })) 0).gear = .park ∧ (withTile id).now < 1 + 4000) ∧
    (4000 ≤ ({ withTile (fun t => { t with gear := .park, wakeAsked := true }) with now := 4000 } : State).now ∧ (getCluster State.reset 0).lastWake = none) ∧
    State.reset.mgmt.sampleSeconds + (State.reset.now - State.reset.mgmt.sampleTick) / 1000000000 + 1 ≤ 1 ∧ swapReady State.reset (.row 0 0 0 0) = true ∧
    Wear.row 0 0 0 0 ∉ State.reset.mgmt.pendingSpares ∧ Wear.tile 0 5 ∈ [Wear.tile 0 5] ∧ swapReady (here []) (.tile 0 5) = false ∧ (getDie State.reset 0).sparesUsed < 8 ∧
    5 ∈ (getDie { State.reset with dies := [(0, { fenced := [5] })] } 0).fenced ∧ 5 ∉ (getDie State.reset 0).fenced := by decide +kernel
def managed (f : Management → Management) : State := { State.reset with mgmt := f State.reset.mgmt, now := 2000000 }
theorem witness_TheControllerBootsAndCommits : (managed (fun m => { m with busy := true })).mgmt.busy = true ∧ State.reset.mgmt.busy = false ∧
    bits 0x0400000000000001 59 56 = 4 ∧ (bits 0x0000000000000001 59 56 = 0 ∧ bits 0x0000000000000001 31 0 = 1) ∧
    (managed (fun m => { m with target := some 0, image := [] })).mgmt.target = some 0 ∧ State.reset.mgmt.offset.toNat = 0 ∧ State.reset.mgmt.image = [] ∧
    State.reset.mgmt.patchBusy = false ∧ (managed (fun m => { m with patchBusy := true })).mgmt.patchBusy = true ∧ State.reset.mgmt.patchTick + 1000000 < (managed id).now :=
  ⟨rfl, rfl, by decide, by decide, rfl, rfl, rfl, rfl, rfl, by decide⟩
/-- A queue table at the start of the second GiB; slot 0 holds queue 0 of PASID 0, with a head and a tail; its packets. -/
def queue0 (state tail : Nat) (ps : List PacketRun) (rereads : Nat := 0) (draining : Option Bool := none) : State :=
  let b := patch (patch (patch (List.replicate 64 0) 4 [BitVec.ofNat 8 state, 6]) 24 [7]) 36 (leBytes 4 tail)
  let s := mapped (here [])
  { put gib b s with host := { s.host with qhEn := true, qhBase := 0x40000000 }, queues := [(0, { packets := ps, rereads := rereads, draining := draining })] }
def packet0 (b : List Byte) (done : Bool := false) : PacketRun := { seq := 0, bytes := b ++ List.replicate (64 - b.length) 0, workDone := done }
theorem witness_QueuesAndPacketsAct :
    (managed (fun m => { m with recovery := true })).mgmt.recovery = true ∧ (queue0 2 1 []).mgmt.recovery = false ∧ lookupQueue (queue0 2 1 []) 0 = some 0 ∧
    lookupQueue (queue0 2 1 []) 1 = none ∧ qcbState (qcb (queue0 2 1 []) 0) = 2 ∧ (2 + 2 ^ 32 - qcbTail (qcb (queue0 2 1 []) 0)) % 2 ^ 32 < 2 ^ 31 ∧
    (2 + 2 ^ 32 - qcbHead (qcb (queue0 2 1 []) 0)) % 2 ^ 32 ≤ qcbSlots (qcb (queue0 2 1 []) 0) ∧ qcbHead (qcb (queue0 2 1 []) 0) ≠ qcbTail (qcb (queue0 2 1 []) 0) ∧
    ((queue0 2 1 []).host.apertures.get (0, 0) 0).1.getLsbD 63 = false ∧ (queue0 2 1 []).host.qctlBusy = false ∧ State.reset.host.qhEn = false ∧
    mayFetch (queue0 2 0 []) 0 = false ∧ mayFetch (queue0 2 1 []) 0 = true ∧ qcbRmem (qcb (queue0 2 1 []) 0) = false ∧
    packetWhole (qcb (queue0 2 1 []) 0) (List.replicate 64 0) = false ∧ (getQueue (queue0 2 1 [] 15) 0).rereads = 15 ∧
    currentPacket (queue0 2 1 []) 0 = none ∧ currentPacket (queue0 2 1 [packet0 []]) 0 = some (packet0 []) ∧ zeroAt (packet0 []).bytes 24 36 = true ∧
    zeroAt (packet0 (List.replicate 25 1)).bytes 24 36 = false ∧ (getQueue (queue0 2 1 [packet0 []] 0 (some false)) 0).draining = some false ∧
    (getQueue (queue0 2 1 [packet0 [] true]) 0).packets = [packet0 [] true] ∧ packetCr (packet0 []).bytes = false ∧ packetSig (packet0 []).bytes = false ∧
    packetType (packet0 []).bytes ≠ 4 ∧ anyLive State.reset = false ∧ State.reset.host.errHead = State.reset.host.errTail ∧ storageV State.reset 0 = false ∧
    (1 : BitVec 2) ≠ State.reset.host.partMode ∧ (managed id).host.qctlBusy = false := by decide +kernel
theorem witness_storage_busy : let s : State := { State.reset with host := { storage := [(0, (Vector.replicate 8 0).set 5 0x10000)], storageRun := [(0, (1, 0, true))] } }
    storageV s 0 = true := by decide +kernel
/-- A packet that launches the record in the second GiB at 0x1000. -/
def launching : State :=
  let r := patch (patch (patch (List.replicate 1024 0) 0 [0x44, 0x4C, 0x43, 0x56, 1, 1, 0, 0]) 8 (leBytes 8 0x1000)) 64 (leBytes 4 1 ++ [5, 0, 0, 0])
  put (gib + 0x1000) r (queue0 2 1 [packet0 (List.replicate 24 0 ++ leBytes 8 0x40001000)])
theorem witness_launch_packet :
    let e := queueEngine launching 0 (qcbCtx (qcb launching 0)) (qcbPart (qcb launching 0))
    servedWith (ctxRead launching e 0x40001000 1024) (fun r _ => recordValid r && decide (0 < blockCount (recordOf r)) &&
      servedWith (regionHeld launching 7 (recordOf r)) (fun x _ => x)) = true := by decide +kernel
def waiting6 : List Byte := [6] ++ List.replicate 23 0 ++ leBytes 8 0x40002000
theorem witness_waitmem : let s := queue0 2 1 [packet0 waiting6]
    let e := queueEngine s 0 (qcbCtx (qcb s 0)) (qcbPart (qcb s 0))
    packetType (packet0 waiting6).bytes = 6 ∧ (getQueue s 0).draining = none ∧ fieldAt (packet0 waiting6).bytes 24 8 % 8 = 0 ∧ fieldAt (packet0 waiting6).bytes 48 1 ≤ 3 ∧
    zeroAt (packet0 waiting6).bytes 49 11 = true ∧ servedWith (ctxRead s e 0x40002000 8) (fun _ _ => true) = true := by decide +kernel
/-- A BOUND record for run 1 of context 7 on tile 1 of cluster 0, blocks 0 and 1. -/
def bound1 : BindRecord := { ctx := 7, run := 1, blkLast := 1, pbLo := 16, pbMid := 64, pbHi := 96, panCnt := 2, tileMask := 2, state := 1 }
def dispatching (f : Run → Run) (core : CoreUnit) : State :=
  { State.reset with clusters := [(0, { slots := [(0, bound1)] })], contexts := [(7, { bound := true })], cores := [(4, core)], tiles := [(1, { images := [(1, 7)] })],
                     runs := [(1, f { ctx := 7, last := 1, remaining := 2, lr := { levels := [{ count := 2, domain := 5, scope := 1 }], entry := 0x1000 } })] }
theorem witness_DispatchPreemptsAndKills :
    recordLive ((getCluster State.reset 0).slots.get {} 0) = false ∧ bindRefusal State.reset 0 { bound1 with pbLo := 65 } = some 1 ∧
    bindRefusal State.reset 0 bound1 = none ∧ placeable (dispatching id {}) 0 0 bound1 = none ∧ placeable (dispatching id {}) 0 4 bound1 = some 0 ∧
    betterRecord (dispatching id {}) 0 0 bound1 = false ∧ (here []).strands.has 0 = true ∧ tileReady (dispatching id {}) 1 = true ∧
    eligible (getCore (dispatching id { inbox := [.block 1 0 0 [1, 2, 3, 4, 5]] }) 4) = none ∧ (getRun (dispatching id {}) 1).relaunch = none ∧
    eligible (getCore (dispatching id { triggers := [(1, 0, win 0x10000)], handlers := [(1, 0, 0x2000)] }) 4) = some (1, 0, win 0x10000, 0x2000) ∧
    hasImage (dispatching id {}) 1 1 = true ∧ liveRun State.reset State.reset.ostler.dspRun = false ∧ liveRun (dispatching id {}) 1 = true ∧
    State.reset.ostler.dspCut = none ∧ State.reset.runs = [] ∧ State.reset.contexts = [] ∧ (getCtx State.reset 7).killing = false ∧
    (getCtx { State.reset with contexts := [(7, { killing := true })] } 7).killing = true ∧ fenceWaits { State.reset with contexts := [(7, { killing := true })] } 7 = false ∧
    fenceWaits { State.reset with contexts := [(7, { killing := true, killAcks := [1] })] } 7 = true ∧
    ({ State.reset with host := { resetting := 1 } } : State).host.resetting.getLsbD 0 = true ∧
    (let r := getRun (dispatching (fun r => { r with relaunch := some ([], 1, 2, .none), remaining := 0, faultCode := 4 }) {}) 1;
      r.relaunch = some ([], 1, 2, .none) ∧ r.remaining = 0 ∧ r.faultCode ≠ 0) ∧
    runBusy (dispatching id {}) 1 = false ∧ (getRun (cleanWatched (dispatching id {}) 1) 1).parked = [] ∧ (getRun (cleanWatched (dispatching id {}) 1) 1).ending = [] := by
  decide +kernel
/-- Run 1 relaunches: no block is left of the round before. -/
def relaunching (code : BitVec 8) (set : List Nat) (round : Nat) : State :=
  dispatching (fun r => { r with relaunch := some (set, round, 2, .none), remaining := 0, faultCode := code }) {}
theorem witness_relaunch_rounds : (∀ code ∈ [(0 : BitVec 8), 4],
      (getRun (relaunching code [0] 0) 1).faultCode = code ∧ (getRun (relaunching code [0] 0) 1).remaining = 0 ∧ runBusy (relaunching code [0] 0) 1 = false ∧
      (getRun (cleanWatched (relaunching code [0] 0) 1) 1).parked = [] ∧ (getRun (cleanWatched (relaunching code [0] 0) 1) 1).ending = []) ∧
    servedWith (nextSet (cleanWatched (relaunching 0 [0] 0) 1) 1 0 [0]) (fun set _ => decide (set = [0])) = true ∧
    (getRun (dispatching (fun r => { r with remaining := 1 }) {}) 1).remaining ≠ 0 := by decide +kernel
/-- Context 7 is held by DSPCMD: its record is HELD. -/
def heldRecord : State := { State.reset with clusters := [(0, { slots := [(3, { bound1 with state := 2 })] })], contexts := [(7, { bound := true })] }
theorem witness_holds_and_debits :
    heldRecord.clusters.flatMap (fun c => (c.2.slots.filter (fun e => e.2.ctx == 7 && e.2.state == 2)).map (fun e => (c.1, e))) = [(0, 3, { bound1 with state := 2 })] ∧
    bindRefusal heldRecord 0 { bound1 with state := 2 } = none ∧ billed { here [] with balances := [(0, 9)] } 0 = true ∧
    billed (here [] id { tile0 with gear := .park }) 0 = false ∧ (∀ r ∈ (here []).runs, (getCtx (here []) r.2.ctx).held = false) ∧
    overdrawn State.reset [] = [] := by decide +kernel
/-- Context 7 is bound, with nothing on account 0, and eight groups of tile 0 are started for it. -/
def paying : State := { State.reset with contexts := [(7, { bound := true })], clusters := [(0, { payers := [(0, 7)] })] }
theorem witness_fare_holds : paying.runs = [] ∧ (7, getCtx paying 7) ∈ paying.contexts ∧ (getCtx paying 7).bound = true ∧ (getCtx paying 7).held = false ∧
    (let debits := stepDebits paying [.wadding 0 3, .strand 0 0 9]
     debits = [{ ctx := 7, strand := none, energy := Config.fareWeight 2 * 3 }] ∧ 0 ∈ debits.map (fun d => (getCtx paying d.ctx).fareAcct.toNat) ∧
       (debits.foldl debit paying).balances.get 0 0 ≤ 0) := by
  refine ⟨rfl, List.mem_cons_self, rfl, rfl, rfl, List.mem_cons_self, ?_⟩
  show (0 : Int) - ((Config.fareWeight 2 * 3 : Nat) : Int) ≤ 0
  omega
theorem witness_cuts_and_resumes : resumeStep (dispatching (fun r => { r with floor := 0xffffffff }) {}) 1 0 = .over ∧ (0 : Nat) ≠ resuming ∧
    removeHighest (dispatching id {}) 1 0 1 = none := ⟨rfl, by decide, rfl⟩
theorem witness_kills_wait : killWaits State.reset 7 = false ∧ killWaits { here [] with tiles := [(0, { changing := some .walk })] } 7 = true ∧
    imageLeaves (dispatching id {}) 1 7 = false := by decide +kernel
theorem witness_slices_end : sliceHits { State.reset with queues := [(0, { slice := some (0, 1000, some 0) })], now := 1000 } = [0] ∧ sliceHits State.reset = [] ∧
    sliceRuns State.reset 0 = false := by decide +kernel
def couriered : State := dispatching id { inbox := [.courier { budget := 1, nword := 1, run := 1, barrier := 0, args := [], words := [], senderTile := 0, senderImage := 0, senderTag := none }] }
theorem witness_courier_start : couriered.couriers.has 4 = false ∧ (getCore couriered 4).inbox ≠ [] ∧ hasImage couriered 1 1 = true := by decide +kernel
/-- A fetch from the second GiB, mapped with every right: a word of zeros, which is ILL, at the strand's pc. -/
def fetching : State := mapped (here [] (fun t => { t with pc := 0x40000000 }))
theorem witness_AStepRunsTheNextWord : runnable fetching fetching.cur = true ∧ (me fetching).status ≠ .posting ∧ (me fetching).deferred = none ∧ (me fetching).replyFault = none ∧
    okWith (fetchBody (me fetching).pc fetching) (fun r => decide (r.1 = [0, 0, 0, 0])) = true ∧ fetching.urgent = [] ∧ fetching.agenda = [] ∧
    fetching.mgmt.fresh = [] ∧ (∀ r ∈ fetching.runs, r.2.parked = [] ∧ r.2.arming = none ∧ r.2.finishing = none) ∧
    encode .ppsEdge = none ∧ wellFormed .ppsEdge = true := by decide +kernel
theorem witness_fetched_word : decodeWord 0 = .ok (.ill 0) ∧ ∃ e, decodeWord 0xFF000000 = .error e := ⟨rfl, _, rfl⟩
theorem witness_MemoriesKeepTheirForm : (∀ m ∈ memories (mapped (here [])), m.wf = true) ∧ ∃ t, step State.reset = .next t :=
  ⟨by decide +kernel, _, rfl⟩

/-! ### Witnesses: further clauses of the statements about the device's steps -/

/-- Whether a step of a unit ends in a fault code. -/
def servedBad {α : Type} (e : Served α) : Bool :=
  match e with
  | .bad _ _ _ => true
  | _ => false
def name1 : AccName := { name0 with owner := 5 }
theorem witness_commands_start : let s := here [] (fun t => { t with a := (t.a.set 0 (some name1)).set 1 (some name0) }) { tile0 with queue := [cmd0 (.mma 0 0 0 0 true 5)] }
    nameOf s 0 0 = some name1 ∧ name1.owner = 5 ∧ nameOf s 0 1 = some name0 ∧ unitsHeld s 0 ≠ 8 ∧ (∀ r ∈ (getCluster s 0).requests, r.1 ≠ 0) ∧
    (∃ r ∈ (getCluster { s with clusters := [(0, { requests := [(0, 0, 8)] })] } 0).requests, r.1 = 0) ∧
    (getTile (engine [] (some { cmd := cmd0 (.mma 0 0 0 0 true 5), step := 7 })) 0).running.any (fun r => decide (8 ≤ r.step + 1)) = true := by
  refine ⟨rfl, rfl, rfl, by decide, by decide, ⟨_, List.mem_cons_self, rfl⟩, by decide⟩
theorem witness_copies_fail : let e : Engine := { unit := drayUnit 0 0, tile := 0, ctx := 7, run := 1 }
    servedBad (segmentData (draying 0) e { copy0 0 with srcBase := 8 } [0]) = true ∧
    servedWith (segmentData (draying 0) e (copy0 0) [0]) (fun bs s1 => servedBad (engineStores s1 e 0 (segmentWrites s1 e { copy0 0 with dstBase := 8 } [0] bs))) = true ∧
    ({ copy0 0 with tpl := { (copy0 0).tpl with dims := [(5000, 1, 1)] } }).element + 1 ≠ elementCount { (copy0 0).tpl with dims := [(5000, 1, 1)] } := by decide +kernel
/-- A storage block with its queues in the second GiB: 4 entries, blocks of 4,096 bytes. -/
def stored : State := let s := mapped (draying 2)
  { s with host := { storage := [(0, ((((Vector.replicate 8 0).set 0 0x40001000).set 1 0x40002000).set 5 0x10C02))] }
           tiles := [(0, { tile0 with dray := (Vector.replicate 4 []).set 0 [{ copy0 2 with outstanding := [] }] })] }
theorem witness_storage_submits : storageValid stored 0 = true ∧ storageOut stored 0 + 1 < 2 ^ storageQlog stored 0 ∧
    servedWith (engineStores stored { unit := drayUnit 0 0, tile := 0, ctx := 7, run := 1 } 0
      (writeParts stored { unit := drayUnit 0 0, tile := 0, ctx := 7, run := 1 } (storageField stored 0 0) (submission 0 1 0x40003000 0 1))) (fun _ _ => true) = true := by decide +kernel
theorem witness_apertures_start : okWith (goCopy 0 none 1 7 (ostlerTile drays 0) 0 0 0 drays) (fun r => decide ((copiesOf r.2 0).length < 128)) = true ∧
    (getTile drays 0).images.reverse.find? (fun i => i.2 == 7) = some (1, 7) ∧
    nextStream (streaming false []) 0 = some 0 ∧ nextStream (streaming true [7]) 0 = some 0 ∧ nextStream (here []) 0 = none ∧
    (getTile (here [] id { tile0 with changing := some .walk }) 0).changing ≠ none := by decide +kernel
theorem witness_arrays_go_on : (getArray (felt 0 id) 0).sats = [] ∧ (getArray (felt 0 id) 0).aslot ≠ 1 ∧
    ((getArray (felt 2 (fun f => { f with lastRun := some (feltCmd (.run 0)) })) 0).lastRun = some (feltCmd (.run 0)) ∧ (getCtx (felt 2 id) 7).service = 0 ∧
      canSaturate (getArray (felt 3 id) 0) false 0 = true ∧ canSaturate (getArray (felt 3 id) 0) false 1 = false) ∧
    ((getArray (felt 0 id) 0).calibrating = false ∧ (getArray (felt 0 id) 0).lastCal + 10000000 ≤ (felt 0 id).now) ∧ (felt 0 id).now < (getArray (felt 0 (fun f => { f with startTick := 1999999999 })) 0).startTick + 20000 ∧
    (getArray (felt 0 (fun f => { f with converting := some (feltCmd (.sample false (win 0x10000))) })) 0).converting = some (feltCmd (.sample false (win 0x10000))) ∧
    (let c := feltCmd (.sample false (win 0x10000))
     let s := felt 0 (fun f => { f with converting := some c, record := { bytes := List.replicate 128 0, logged := some false } })
     (getArray s 0).record.logged = some false ∧ sampleFits s c (win 0x10000) 128 = true ∧
       servedWith (sampleStore s 0 c (win 0x10000) (getArray s 0).record.bytes) (fun _ _ => true) = true ∧
       servedWith (replayed (felt 0 (fun f => { f with converting := some c })) c 0) (fun r _ => r.isNone) = true) ∧
    (let s := felt 2 (fun f => { f with slots := f.slots.set 0 (some { slot0 with image := patch image0 14 [9] }) })
     dwell (getArray s 0) = 9 ∧ (getArray s 0).startTick + dwell (getArray s 0) ≤ s.now ∧ ({ s with now := 0 } : State).now < (getArray s 0).startTick + dwell (getArray s 0)) := by
  decide +kernel
def sent0 : KeptFlit := { kept0 0 with since := some 0 }
theorem witness_flits_time_out : let s : State := { port (fun x => { x with state := 2, kept := [sent0] }) with now := 13000 }
    heldFor s 0 13000 = true ∧ heldFor s 0 13001 = false ∧ heldFor s 0 8001 = true ∧ heldFor (port (fun x => { x with kept := [kept0 0] })) 0 8001 = false ∧
    (getPort s 0).ackTick + 1000 ≤ s.now ∧ (getPort s 0).retrain = false ∧ (getPort s 0).queued = [] ∧ (∀ e ∈ (getPort s 0).kept, e.replays < 8 ∧ e.retrained = false) ∧
    (∃ e ∈ (getPort (port (fun x => { x with kept := [{ sent0 with replays := 8, retrained := true }] })) 0).kept, 8 ≤ e.replays ∧ e.retrained = true) ∧
    (getPort (port (fun x => { x with state := 2, retrain := true, step := 1 })) 0).retrain = true ∧ (here []).now < (getPort (here []) 0).ackTick + 1000 := by
  refine ⟨by decide, by decide, by decide, by decide, by decide, by decide, by decide, by decide, ⟨_, List.mem_cons_self, by decide, rfl⟩, by decide, by decide⟩
theorem witness_acknowledged_flits : let x := getPort (port (fun x => { x with txSeq := 1, kept := [kept0 0, kept0 1] })) 0
    0 < (0 + 4096 - x.acked) % 4096 ∧ (0 + 4096 - x.acked) % 4096 ≤ (x.txSeq + 4096 - x.acked) % 4096 ∧ (x.acked + 4096 - x.acked) % 4096 = 0 := by decide

/-- A routing entry for device 3 by port 0, which is UP; device 0 is this one. -/
theorem witness_routes : entryRoutes (routeEntry linked 3) = true ∧ livePorts linked (routeEntry linked 3) = [0] ∧ entryRoutes (routeEntry linked 4) = false ∧
    hasRoute linked 3 = true ∧ keyManages (here []) 5 = false ∧ (0x120000 % 8 = 0 ∧ (0x14007C : Nat) < 0x140080) ∧ (here []).link.transit = [] ∧
    classOOut { here [] with link := { transit := [{ src := 1, dest := 3, tag := 1, port := 0, since := 0 }] } } 3 = true ∧ classOOut (here []) 3 = false ∧
    (3 : Nat) ∈ [3] ∧ classU 0x10 = false ∧ classU 0x08 = true := by decide +kernel
def ask0 : Packet := asks 0x40000000 6 []
theorem witness_requests_in_order : (dirOf (owned { waiting := [ask0] }) 0x1000000).waiting = [ask0] ∧ ask0 ≠ { ask0 with tag := 2 } ∧
    requestWordLegal ask0.body = true ∧ requestWordLegal (requestBody 1 6 []) = false ∧
    (here []).l2.find? (fun l => l.dev == 0 && l.pa == 0x40000000) = none ∧
    waited.requests.find? (fun r => r.1 == 1 && r.2.dev == 0) = waited.requests[0]? ∧ waited.now < 0 + 100000 ∧
    (dirOf waited 0x1000000).snooping = true ∧ waited.now < (dirOf waited 0x1000000).snoopTick + 1000 * waited.depot.dtmo.toNat ∧
    (dirOf { waited with now := 20000 } 0x1000000).snoopTick + 1000 * waited.depot.dtmo.toNat ≤ ({ waited with now := 20000 } : State).now ∧
    (dirOf waited 0x1000000).ownerDev = some 0 ∧ fieldAt (List.replicate 16 (0 : Byte) ++ [5]) 16 1 = 5 ∧ 88 ≤ (List.replicate 88 (0 : Byte)).length ∧
    (makeGone { waited with ostler := {}, now := 100000, link := { devnum := 1 } } 0 3).requests.find? (fun r => r.1 == 1) = none := by decide +kernel
def trinving (f : OstlerRegs → OstlerRegs) : State := { here [] with ostler := f {} }
theorem witness_trinv_and_charges : trinvBusy (trinving id) = false ∧ trinvBusy (trinving (fun o => { o with trAcks := [3] })) = true ∧
    bits 0x3800000000000000 59 57 = 4 ∧ bits 0x3200000000000000 59 57 = 1 ∧ (trinving id).ostler.trinvHeld = [] ∧
    (let waits := trinvWaits (trinving id) 0x3600000000000000 0 0
     waitsOn (trinvPart (trinving id) 0x3600000000000000 0 0) waits.1 waits.2 = false) ∧
    (let s : State := { trinving id with requests := [(1, { dev := 3, agent := none, kind := .amo, addr := 0, ctx := 7, classO := true })] }
     let waits := trinvWaits s 0x3600000000000000 0 0
     waitsOn (trinvPart s 0x3600000000000000 0 0) waits.1 waits.2 = true) ∧
    ({ here [] with charges := [(3, 1, 9)] } : State).charges = [(3, 1, 9)] ∧ (here []).charges = [] ∧
    32 ≤ inboxUsed { (getCore (here []) 1) with inbox := List.replicate 32 (.block 1 0 0 []) } ∧
    (here []).peerReads.find? (fun r => r.1 == Agent.courier 4096) = none ∧ (getAgent (here []) (.courier 4096)).status = .ready ∧
    (getQueue { here [] with queues := [(0, { fetch := .first })] } 0).fetch = .first ∧ (getQueue { here [] with queues := [(0, { fetch := .reread })] } 0).fetch = .reread := by
  decide +kernel
theorem witness_rails_and_wakes :
    (getCluster { State.reset with clusters := [(0, { railLow := true })] } 0).railLow = true ∧ mayPark State.reset 0 = false ∧
    mayPark { State.reset with host := { lattol := Vector.replicate 8 4750 } } 0 = true ∧
    (let s : State := { withTile (fun t => { t with gear := .park, wakeAsked := true, parkTick := 1 }) with now := 4001 }
     (getTile s 0).gear = .park ∧ (getTile s 0).changing = none ∧ (getTile s 0).wakeAsked = true ∧ wakeReady (getTile s 0) ≤ s.now ∧ wakesFirst s 0 = false ∧
       (∀ k, (getCluster s 0).lastWake = some k → k + 50 ≤ s.now)) ∧
    (let s : State := { State.reset with tiles := [(0, { gear := .park, wakeAsked := true }), (1, { gear := .park, wakeAsked := true })] }
     wakesFirst s 1 = true ∧ s.now < wakeReady (getTile s 1)) ∧
    ((getTile (withTile (fun t => { t with gear := .walk })) 0).gear = .walk ∧ (getTile (withTile id) 0).gear = .gallop ∧ (0 : Nat) = 128 * 0 + 0) ∧
    (time1588 State.reset State.reset.now).1 < ({ State.reset with mgmt := { todSeconds := 1 } } : State).mgmt.todSeconds := by decide +kernel
def worn (used : Nat) (pending : List Wear) : State :=
  { State.reset with dies := [(0, { sparesUsed := used, column := [(5, 15)] })], mgmt := { pendingSpares := pending } }
theorem witness_wear : isColumn (worn 8 []) 0 5 = true ∧ 8 ≤ (getDie (worn 8 []) 0).sparesUsed ∧ Wear.tile 0 5 ∉ (worn 8 []).mgmt.pendingSpares ∧
    isColumn (worn 0 []) 0 6 = false ∧ (35 : Nat) < 36 ∧ Wear.lane 35 8 ∉ (worn 0 []).mgmt.pendingSpares ∧ Wear.tile 0 5 ∈ (worn 0 [.tile 0 5]).mgmt.pendingSpares ∧
    swapReady (worn 0 [.tile 0 5]) (.tile 0 5) = true ∧ (getDie (worn 0 [.tile 0 5]) 0).sparesUsed < 8 ∧ (worn 0 [.tile 0 5]).mgmt.pendingLogged = [] ∧
    ({ worn 0 [.tile 0 5] with mgmt := { pendingSpares := [.tile 0 5], pendingLogged := [.tile 0 5] } } : State).mgmt.pendingLogged = [.tile 0 5] ∧
    (∀ p l, Wear.row 0 0 0 0 ≠ .lane p l) ∧ (∀ x k, Wear.row 0 0 0 0 ≠ .tile x k) := by
  refine ⟨by decide, by decide, by decide, by decide, by decide, by decide, by decide, by decide, by decide, rfl, rfl, nofun, nofun⟩
theorem witness_management_commands :
    (managed (fun m => { m with target := some 1 })).mgmt.target ≠ some (BitVec.ofNat 4 0) ∧ (managed (fun m => { m with offset := 1 })).mgmt.offset ≠ 0 ∧
    imageLimit 0 < (67108864 : Word).toNat + 1 ∧ 0 + 1 ≤ imageLimit 0 ∧ bits 0x0300000000000000 59 56 = 3 ∧ bits 0x0200000000000000 59 56 = 2 ∧
    checkTable State.reset.mgmt [] ≠ 0 ∧ checkPatch State.reset.mgmt [] ≠ 0 ∧ (managed (fun m => { m with recovery := true })).mgmt.recovery = true ∧
    State.reset.mgmt.recovery = false ∧ (managed (fun m => { m with patchTick := 1000000 })).now ≤ (managed (fun m => { m with patchTick := 1000000 })).mgmt.patchTick + 1000000 ∧
    fieldAt [] 12 1 = 0 ∧ fieldAt (List.replicate 12 (0 : Byte) ++ [1]) 12 1 ≠ 0 := by decide +kernel

/-- A tile whose words at pool offset 0x10000 and in accumulator bank 0 have an uncorrectable error. -/
def erring : State := here [(6, win 0x10000), (7, 0)] (fun t => { t with a := t.a.set 0 (some name0), q := t.q.set 0 (bound false 0 []) })
  { tile0 with poolBad := [8192], accBad := [0] }
theorem witness_uncorrectable_errors : ¬ Sound erring (localTile erring) (localOff (win 0x10000)) 8 ∧ (1 : Nat) ∈ [1, 2, 4, 8, 64] ∧ 1 % 8 ≠ 0 ∧ 8 % 8 = 0 ∧
    (win 0x10000).toNat % 8 = 0 ∧ inSpillOrScratch (getTile erring (localTile erring)) (localOff (win 0x10000)) 8 = true ∧
    groupReadable (getTile erring 0) 65536 = false ∧ groupInside (getTile erring 0) 65536 = true ∧
    wordsHit (getTile erring 0).poolBad (localOff (win 0x10000)) 16 = true ∧ wordsHit (getTile erring 0).accBad (accAt name0 (64 * 0)) 64 = true ∧
    mmaSound (getTile erring 0) name0 0 0 0 0 = false ∧ mscaleSound (getTile erring 0) name0 name0 0 0 = false ∧ moutSound (getTile erring 0) name0 0 0 1 = false ∧
    mmaSound tile0 name0 0 0 0 6 = true ∧ mscaleSound tile0 name0 name0 0 0 = true ∧ moutSound tile0 name0 0 0 1 = true ∧
    Sound (here []) 0 0x10000 128 := by decide +kernel
/-- A queue whose next slot is asked for, and a whole NOP packet in it. -/
def asking (f : FetchStep) (tick : Nat := 0) (rereads : Nat := 0) : State :=
  { queue0 2 1 [] with queues := [(0, { fetch := f, fetchTick := tick, rereads := rereads })], clusters := [(0, { slots := [(0, bound1)] })], now := 300 }
def nop0 : List Byte :=
  let p := patch (List.replicate 60 0) 0 [7, 0x80]
  p ++ leBytes 4 (crc32 (p.drop 2))
theorem witness_fetched_slot : (∀ f ∈ [FetchStep.first, .pause, .reread], mayFetch (asking f) 0 = true ∧ (getQueue (asking f) 0).fetch = f) ∧
    mayFetch { asking .first with host := {} } 0 = false ∧ packetWhole (qcb (asking .first) 0) (padTo 64 nop0) = true ∧
    packetStep 0 (packetType (padTo 64 nop0)) = some (.nopPacket 0) ∧ fieldAt (padTo 64 nop0) 7 1 = 0 ∧ fieldAt (padTo 64 nop0) 6 1 < 8 ∧
    bits (fieldAt (padTo 64 nop0) 1 1) 6 0 = 0 ∧ (getQueue (asking .first) 0).packets = [] ∧
    (asking .pause 200).now < 200 + 250 * (0 + 1) ∧ 0 + 250 * (0 + 1) ≤ (asking .pause).now := by decide +kernel
set_option maxRecDepth 20000 in
theorem witness_slot_context : ensureContext (asking .first) 0 (qcb (asking .first) 0) = .ok none (asking .first) := rfl
set_option maxRecDepth 20000 in
theorem witness_doorbells : (queue0 2 1 []).host.tableWaits = [] ∧
    probeReady (queue0 2 1 []) (queue0 2 1 []).now 0 (probeSlots (queue0 2 1 []) 0) = .ok () (queue0 2 1 []) ∧
    probeReady (qctlStore (queue0 2 1 []) 0 0 true) (queue0 2 1 []).now 0 (probeSlots (queue0 2 1 []) 0) = .ok () (qctlStore (queue0 2 1 []) 0 0 true) ∧
    lookupQueue (qctlStore (queue0 2 1 []) 0 0 false) 0 = some 0 := ⟨rfl, rfl, rfl, by decide +kernel⟩
/-- The queue table's second queue is asked for while no slot holds it; the staged record is a good one. -/
def creating : State :=
  let s := queue0 2 1 []
  { s with host := { s.host with qStage := s.host.qStage.set 0 0x60000000000 } }
theorem witness_creates : lookupQueue (qctlStore creating 0x100000000 0 false) 1 = none ∧
    (let stage := stageBytes creating
     4 ≤ bits (fieldAt stage 5 1) 4 0 ∧ bits (fieldAt stage 5 1) 4 0 ≤ 16 ∧ bits (fieldAt stage 5 1) 6 5 = 0 ∧ qcbPart stage < partCount creating ∧
       zeroAt stage 41 23 = true) ∧
    (probeSlots creating 1).find? (fun x => !qcbLive (qcb (qctlStore creating 0x100000000 0 false) x)) ≠ none := by decide +kernel
/-- A RELAUNCH packet of a run that is LIVE, and a DESTROY packet whose target is its own queue, or none. -/
def relaunched : State :=
  { queue0 2 1 [packet0 (List.replicate 24 0 ++ leBytes 4 1)] with
    runs := [(1, { ctx := 7, wbWord := 0x2000000000000000, lr := { ({} : LaunchRecord) with record := true } })] }
def destroys (target : Nat) : State := queue0 2 1 [packet0 ([4] ++ List.replicate 23 0 ++ leBytes 2 target)]
theorem witness_relaunch_packet : relaunched.runs.has 1 = true ∧ (getRun relaunched 1).ctx = qcbCtx (qcb relaunched 0) ∧ relaunchRefused relaunched 1 = false ∧
    (queue0 2 1 [packet0 []]).runs.has 0 = false := by decide +kernel
set_option maxRecDepth 20000 in
theorem witness_destroy_packet : lookupQueue (destroys 0) 0 = some 0 ∧ lookupQueue (destroys 1) 1 = none ∧ (getQueue (destroys 0) 0).draining = none ∧
    probeReady (destroys 0) (destroys 0).now 0 (probeSlots (destroys 0) 0) = .ok () (destroys 0) := ⟨by decide +kernel, by decide +kernel, rfl, rfl⟩
/-- A COACH packet of one carriage. -/
def coaching (entry : List Byte) : State :=
  put (gib + 0x1000) entry (queue0 2 1 [packet0 ([3] ++ List.replicate 23 0 ++ leBytes 8 0x40001000 ++ [1, 0])])
def entry0 : List Byte := List.replicate 16 0 ++ leBytes 8 0x40010000 ++ leBytes 4 64 ++ leBytes 4 0x100
theorem witness_coach_packet :
    let s := coaching entry0
    let e := queueEngine s 0 (qcbCtx (qcb s 0)) (qcbPart (qcb s 0))
    (match (readTable s e 0 0x40001000 0 1).1 with
     | .ok (some cs) s1 => servedWith (flagsReady s1 cs) (fun _ _ => cs.length == 1)
     | _ => false) = true ∧
    servedWith (readTable (coaching (patch entry0 0 [3])) e 0 0x40001000 0 1).1 (fun x _ => x.isNone) = true := by decide +kernel
theorem witness_bar4 : let s : State := { queue0 2 1 [] with host := { (queue0 2 1 []).host with apertures := [(0, (0x8000000000000000, 0))] } }
    (match hostPlace s 0 with | .at _ _ => true | .invalid => false) = true := by decide +kernel

/-! ### Witnesses: more clauses of the statements -/

set_option maxRecDepth 100000 in
theorem witness_lanes : let s := here [(6, win 0x10000), (7, 64)]
    let addr := fun (l : Nat) => readX (me s) 6 + BitVec.ofNat 64 (l * 8)
    eachLane (fun l => do let _ ← laneCheck kGather (64 / 8) (addr l)) (lanesOf 64 (readM (me s) 0)) (started s) = .ok ((), started s) ∧
    ∃ t, eachLane (scatterLane (readV (me s) 5) 64 addr (lanesOf 64 (readM (me s) 0))) (lanesOf 64 (readM (me s) 0)) (started s) = .ok ((), t) := ⟨rfl, _, rfl⟩
/-- A line of the second GiB stands in the stash, touched before, and its full/empty bit is set or not. -/
def stashing (filled full : List Nat) : State :=
  mapped (here [(6, 0x40000000)] id { tile0 with stash := [{ ctx := 7, number := 0, base := gib, length := 128, firstLine := 2048 }], stashFilled := filled, full := full })
set_option maxRecDepth 100000 in
theorem witness_stash_lines : (∀ c ∈ [stashing [] [], stashing [2048] []],
      Passes (syncForm [5, 6] (decide ((3 : BitVec 3) = 7)) false) c ∧ Passes (syncForm [6] false true) c ∧
      okWith (check kWait (readX (me c) 6) 8 (started c)) (fun r => (match r.1 with | .global _ => true | _ => false) && decide (r.2.cur = c.cur) &&
        (stashOf r.2 (localTile c) (agentCtx r.2 c.cur) (readX (me c) 6).toNat).isSome) = true ∧
      okWith (flagLine (readX (me c) 6) (started c)) (fun r => r.1 == 2048) = true) ∧
    okWith (stashTouch 0x40000000 false (started (stashing [] []))) (fun r => isFull r.2 0 2048 && okWith (loadBytes kWait 0x40000000 8 r.2) (fun _ => true)) = true ∧
    okWith (stashTouch 0x40000000 false (started (stashing [] []))) (fun g =>
      okWith (stashTouch 0x40000000 false (clearFull g.2 0 2048)) (fun r => !isFull r.2 0 2048)) = true := by
  decide +kernel

/-- Infinities, zeros, a NaN and -1 in FP32. -/
theorem witness_invalid_cases :
    fdecode fp32 0x7F800000 = .inf false ∧ fdecode fp32 0xFF800000 = .inf true ∧ (∃ e, fdecode fp32 0 = .fin false 0 e) ∧
    (∃ m e, fdecode fp32 0xBF800000 = .fin true m e ∧ 0 < m) ∧ isNan (fdecode fp32 0x7FC00000) = true ∧
    mulV (fdecode fp32 0x7F800000) (fdecode fp32 0x3F800000) = some (.inf false) ∧ fdecode fp32 0xFF800000 = .inf true ∧ ((false ≠ false) ≠ (true ≠ false)) :=
  ⟨rfl, rfl, ⟨_, rfl⟩, ⟨_, _, rfl, by decide⟩, rfl, by decide, rfl, by decide⟩
/-- 2^31 + 256 and -2^32 are outside the 32-bit range, 2.5 is inside. -/
theorem witness_finite_conversions : (∃ m e, fdecode fp32 0x4F000001 = .fin false m e ∧ (2 ^ 31 - 1 : Int) < roundedInt 0 (exactly false m e)) ∧
    (∃ m e, fdecode fp32 0xCF800000 = .fin true m e ∧ roundedInt 0 (exactly true m e) < -(2 ^ 31 : Int)) ∧
    (∃ m e, fdecode fp32 0x40200000 = .fin false m e ∧ roundedInt 0 (exactly false m e) = 2) :=
  ⟨⟨_, _, rfl, by decide +kernel⟩, ⟨_, _, rfl, by decide +kernel⟩, ⟨_, _, rfl, by decide +kernel⟩⟩
theorem witness_dozes : let s := here [(6, win 0x10000), (7, 1 <<< 63)] (fun t => { t with sysValue := some 5 }) { tile0 with doze := true }
    BarrierAt s (win 0x10000) ∧ (me s).sysValue = some 5 ∧ (getTile s (localTile s)).doze = true ∧ (getTile (here []) 0).doze = false ∧
    phaseChanged 0 (readX (me s) 7) = true ∧ phaseChanged 0 0 = false ∧ wordsHit [8192] (localOff (win 0x10000)) 16 = true := by
  refine ⟨⟨by decide, by decide, by decide⟩, rfl, rfl, rfl, by decide, by decide, by decide⟩
/-- A fill of the stash entry's line is on its way for strand 0. -/
def filling : State := { stashing [] [] with requests := [(1, { dev := 3, agent := some (.strand 0), kind := .load 0 (gib / 64) 0 7, addr := 0, ctx := 7, classO := false })] }
theorem witness_stash_fills : let e : StashEntry := { ctx := 7, number := 0, base := gib, length := 128, firstLine := 2048 }
    entryNumber filling filling.cur 0 = some e ∧ fillsOut filling 0 e = true ∧ fillsOut (stashing [] []) 0 e = false ∧
    (let s := { stashing [] [] with tiles := [(0, { getTile (stashing [] []) 0 with pbHi := 96 })] }
     [e].any (fillsOut filling 0) = true ∧ [e].any (fillsOut s 0) = false) := by decide +kernel
/-- A carriage of an SK7 that device 3, reached by port 0, holds; one whose flag word is ABSENT. -/
def abroad : State :=
  { riding 0 with coaches := [{ coach0 with carriages := [{ carriage0 with src := 1, srcHi := 3 }] }], ports := linked.ports, link := linked.link }
theorem witness_carriage_abroad : let c : Carriage := { carriage0 with src := 1, srcHi := 3 }
    servedWith (flagReady abroad c) (fun _ s => decide (flagState (flagGet s c) = 0) && decide (c.srcHi.toNat ≠ devnum s) && decide (c.srcHi.toNat ∉ s.ostler.gone) &&
      hasRoute (modCarriage (flagPut s c (setBits (flagGet s c) 63 61 1)) 0 0 (fun c => c)) c.srcHi.toNat) = true ∧ (0 : Nat) ≠ noPiece + 0 := by decide +kernel
theorem witness_copies_cancelled : (copyNamed (draying 2) 0 0).any (fun x => x.2.outstanding.length == 2 && !x.2.settled && !x.2.active) = true ∧
    (copyNamed (draying 0) 0 0).any (fun x => x.2.outstanding.isEmpty && !x.2.active) = true ∧
    okWith (engineSpan 1 3 false 0x40000000 64 (started (mapped (here [])))) (fun r => decide (r.2.cur = (here []).cur)) = true := by decide +kernel

/-- The template's source is in the second GiB, and the strand has a store under way. -/
def draysOut : State :=
  let s := mapped drays
  { s with tiles := [(0, { getTile drays 0 with pool := memWrite [] 0x12000 (patch record0 8 (leBytes 8 gib)) })]
           strands := [(0, { s.strands.get {} 0 with acks := 1 })] }
theorem witness_copies_wait : okWith (goCopy 0 (some 0) 1 7 false 0 0 0 (started draysOut)) (fun r =>
      (sourceSpans r.1.tpl r.1.srcBase).any (fun p => !inWindow p.1) && decide (0 < (me r.2).acks) && decide (r.2.cur = drays.cur)) = true ∧
    okWith (eachLane (fun k => let p := [(gib, 1)].getD k (0, 1); if inWindow p.1 then pure () else noteRead (BitVec.ofNat 64 p.1) p.2) [0] (started draysOut))
      (fun r => decide (r.2.cur = drays.cur)) = true := by decide +kernel
theorem witness_felt_tables : let s := granted (mapped (here [(6, win 0x10000), (7, 0), (8, 0x40000000)] id
      { tile0 with stash := [{ ctx := 7, number := 0, base := gib, length := 128, firstLine := 2048 }] }))
    (∀ a ∈ [(6 : BitVec 5), 8], ∀ n ∈ [1, 2, 64], okWith (feltTableAt (readX (me s) a) n (started s)) (fun r => decide (r.2.cur = s.cur)) = true) ∧
    slotNodes s 0 0 = 1 ∧ MayName s (readX (me s) 7) ∧ (stashOf s (localTile s) (agentCtx s s.cur) (readX (me s) 8).toNat).isSome = true ∧
    okWith (spanRights 1 2 (readX (me s) 8) 128 (started s)) (fun r => decide ((me r.2).acks = 0) && decide ((getArray r.2 0).queue.length < 8)) = true ∧
    FeltMayJoin s .halt := by
  refine ⟨by decide +kernel, by decide +kernel, Or.inl rfl, by decide +kernel, by decide +kernel, nofun⟩
def removing : State :=
  let s := engine [] (some { cmd := cmd0 (.mma 0 0 0 0 true 5), step := 6 })
  { s with strands := [(0, { s.strands.get {} 0 with stopping := true })] }
theorem witness_removals_hold : mmaHeld removing 0 (cmd0 (.mma 0 0 0 0 true 5)) = true ∧ mmaHeld (engine [cmd0 (.mma 0 0 0 0 true 5)] none) 0 (cmd0 (.mma 0 0 0 0 true 5)) = false ∧
    engineRuns removing 0 = true ∧ nameFor removing (cmd0 (.pzero 0)) 0 = some name0 ∧ nameFor removing { cmd0 (.pzero 0) with own := [(0, name1)] } 0 = some name1 ∧
    (name0.banks.Nodup ∧ name0.banks.length = accSize name0 / 2048 ∧ (getTile removing 0).acc.wf = true) := by decide +kernel
/-- Arrays 0 and 1 have the same ganged slot active. -/
def ganged : State := here [] (fun t => { t with sent := true }) tile0 (fun s =>
  let f : FeltArray := { slots := (Vector.replicate 8 none).set 0 (some { slot0 with gang := true }) }
  { s with felt := (s.felt.set 0 f).set 1 { f with queue := [feltCmd .stat] } })
theorem witness_gangs : gangMember ganged 1 = true ∧ gangHead ganged 1 = 0 ∧ (getArray ganged 1).queue = [feltCmd .stat] ∧ feltWaits ganged (feltCmd .stat) = true ∧
    (getArray ganged 1).sats = [] ∧ (getArray ganged 1).converting = none ∧ (slotOf (getArray ganged 1) 0).isSome = true ∧ gangHead ganged 2 ≠ 0 := by decide +kernel
theorem witness_lanes_in_use : let x := getPort (port (fun x => { x with state := 2, retrain := true, lanes := 0xFF, myLanes := 0x1FF })) 0
    x.state = 2 ∧ x.retrain = true ∧ x.spare = false ∧ x.lanes.getLsbD 0 = true ∧ x.lanes.getLsbD 8 = false ∧ x.myLanes.getLsbD 0 = true ∧ x.myLanes.getLsbD 9 = false ∧
    ((List.range 9).filter (fun l => (x.myLanes &&& ~~~BitVec.ofNat 16 (2 ^ 0)).getLsbD l)).length = 8 ∧
    ((List.range 9).filter (fun l => ((0xFF : BitVec 16) &&& ~~~BitVec.ofNat 16 (2 ^ 0)).getLsbD l)).length < 8 ∧ heldFor (port id) 0 8001 = false ∧
    (partIdle (here []) 0 = true ∨ partIdle (here []) 0 = false) ∧ (flitOf (makeFlit (4 * 2 ^ 60) [1])).map (·.typ) = some 4 ∧ (flitOf [1]).isNone = true := by
  refine ⟨rfl, rfl, rfl, rfl, rfl, rfl, rfl, by decide, by decide, by decide, by decide, by decide +kernel, by decide +kernel⟩
theorem witness_notices_later : ({ here [] with now := 2, link := { notices := [notice0] } } : State).now > notice0.t0 ∧
    (∀ m ∈ [notice0, { notice0 with port := 5 }], (m.t0 = notice0.t0 → 0 ≤ m.port) ∧ (m.todo = none → notice0.t0 ≤ m.t0)) ∧
    ({ here [] with link := { notices := [notice0], noticeA := 0x20 } } : State).link.noticeA.toNat % 32 = 0 := by decide

/-- The same, but the entry of the second GiB has MIG set; and with MIG in the entry of the third GiB alone. -/
def moving (s : State) : State := put 0x100F [0xE0] s
def movingNext (s : State) : State := put 0x1017 [0xA0] s
def servedBusy {α : Type} (e : Served α) : Bool :=
  match e with
  | .busy _ => true
  | _ => false
/-- A slot whose address the walk finds, and whose granule no other holds, is readable. -/
def slotThere (s : State) (slot : Nat) : Bool :=
  match walk s (s.host.qhBase.toNat + 64 * slot) with
  | .ok dev pa _ _ _ => !(decide (dev = devnum s) && decide (pa < hbmSize) && heldElsewhere s (pa / 64))
  | _ => false
theorem slot_readable {s : State} {slot : Nat} (since : Nat) (h : slotThere s slot = true) : slotReady s since slot = .ok () s := by
  unfold slotThere at h
  unfold slotReady
  split at h
  next _ _ _ _ _ hw => simp only [hw]; rw [if_neg (by intro hc; rw [hc] at h; simp at h)]
  next => simp at h
def due (s : State) : State := { s with queues := [(0, { headDue := some (1, 0) })] }
theorem witness_slots_wait : servedBusy (slotReady (moving (due (queue0 2 1 []))) 0 0) = true ∧ slotThere (due (queue0 2 1 [])) 0 = true ∧
    (getQueue (due (queue0 2 1 [])) 0).headDue = some (1, 0) ∧ servedBusy (probeReady (moving (queue0 2 1 [])) 0 0 (probeSlots (queue0 2 1 []) 0)) = true ∧
    servedBusy (probeReady (qctlStore (moving (queue0 2 1 [])) 0 0 true) 0 0 (probeSlots (queue0 2 1 []) 0)) = true ∧
    (let s := { queue0 2 1 [packet0 []] with contexts := [(7, { killing := true })] }
     (getCtx s (qcbCtx (qcb s 0))).killing = true ∧ slotThere s 0 = true) ∧
    (getCtx (queue0 2 1 []) (qcbCtx (qcb (queue0 2 1 []) 0))).killing = false := by
  decide +kernel
/-- A packet that signals at the third GiB. -/
def signals : List Byte := patch (packet0 []).bytes 6 [2] |> fun b => patch b 8 (leBytes 8 0x80000000)
theorem witness_completions_wait : let s := movingNext (queue0 2 1 [packet0 signals true])
    (getQueue s 0).packets = [packet0 signals true] ∧ (packet0 signals true).workDone = true ∧ slotThere s 0 = true ∧ packetSig (packet0 signals).bytes = true ∧
    servedBusy (writeCompletion s 0 (packet0 signals true)) = true := by decide +kernel
set_option maxRecDepth 100000 in
theorem witness_launch_context : let s := { launching with clusters := [(0, { slots := [(0, bound1)] })] }
    ensureContext s 0 (qcb s 0) = .ok none s ∧ (currentPacket s 0).isSome = true ∧ (currentPacket s 0).all (fun p => p.run.isNone && zeroAt p.bytes 40 20) = true :=
  ⟨rfl, by decide +kernel, by decide +kernel⟩
theorem witness_host_accesses :
    let s : State := { queue0 2 1 [] with host := { (queue0 2 1 []).host with apertures := [(0, (0x8000000040000000, 0))] } }
    servedWith (hostAccess s false 0 1 8 (fun s e va => devRead s e va 8)).1 (fun bs _ => bs.length == 8) = true ∧
    servedWith (hostAccess { s with free := s.free + 1 } false 0 2 8 (fun s e va => engineStores s e 0 (granuleParts (8 / 64 + 2) va (List.replicate 8 1)))).1
      (fun _ _ => true) = true := by decide +kernel
/-- An RD for a carriage, which reads at the second GiB of device 0. -/
def fetches (va : Word) : Packet := packet 0 0 0x01 1 (fetchReadBody (mapped (here [])) 0 7 va 64)
theorem witness_carriage_reads :
    let b := (fetches 0x40000000).body
    b.length = 32 ∧ requestWordLegal b = true ∧ staleEpoch (mapped (here [])) b = false ∧
    (let serve := fun (s : State) (b : List Byte) => fetchServe s (2 ^ 50) (BitVec.ofNat 16 (fieldAt b 24 2)) (fieldAt b 16 8) (fieldAt b 26 2)
     servedWith (serve (mapped (here [])) b) (fun _ _ => true) = true ∧ servedBusy (serve (moving (mapped (here []))) b) = true ∧
       servedBad (serve (mapped (here [])) (fetches 0x80000000).body) = true) := by decide +kernel
/-- A posting to a mailbox of device 0's slot 1, whose granule has been asked for, or is held here. -/
def posting (st : PostStage) : State :=
  { here [] with outPosts := [{ id := 1, agent := none, ctx := 7, source := 0, fault := faultInfo 0x04 1 1 0 0, mailbox := 0x40000000, dev := 0, pa := 0x40000040, key := 0, message := [], stage := st }] }
theorem witness_postings_snooped : (∀ st ∈ [PostStage.asked, .slot, .update, .again], ((posting st).outPosts.find? (fun q =>
      q.dev = (asks 0x40000040 6 []).src.toNat && q.pa / 64 * 64 = 0x1000001 * 64 && !(q.stage = .queued))).map (·.stage) = some st) ∧ (posting .asked).l2.find? (fun _ => true) = none ∧
    requestWordLegal (asks 0x40000040 6 []).body = true ∧ staleEpoch (posting .asked) (asks 0x40000040 6 []).body = false := by decide +kernel
theorem witness_peer_reads : (getAgent (here []) (pieceAgent 0 0 0)).status = .ready ∧ (here []).peerReads.find? (fun r => r.1 == pieceAgent 0 0 0) = none ∧
    (let s : State := { here [] with peerReads := [(.courier 0, 5, 8)] }
     (getAgent s (.courier 0)).status = .ready ∧ s.peerReads.find? (fun r => r.1 == .courier 0) = some (.courier 0, 5, 8)) := by decide +kernel
theorem witness_wakes_settle : let s := withTile (fun t => { t with gear := .park, changing := some .walk })
    (getTile s 0).changing = some .walk ∧ (getTile s 0).gear = .park := by decide +kernel
/-- Run 1 is being cut down to block 0, with nothing resident; block 0 waits in core 4's inbox, or nothing does. -/
def cutting (core : CoreUnit) : State := setCut (dispatching id core) (some (1, 0))
theorem witness_cuts : (cutting {}).ostler.dspCut = some (1, 0) ∧ (0 : Nat) ≠ resuming ∧ removeHighest (recallInbox (cutting {}) 1 0) 1 0 1 = none ∧
    inboxBlocks (recallInbox (cutting {}) 1 0) 1 0 = [] ∧
    (removeHighest { here [] with ostler := { dspCut := some (1, 0) } } 1 0 1).isSome = true ∧
    (setCut State.reset (some (1, resuming))).ostler.dspCut = some (1, resuming) ∧ (getRun (dispatching (fun r => { r with parked := [{ off := 0, bytes := [] }] }) {}) 1).parked ≠ [] := by
  decide +kernel
theorem witness_coach_begun : let s := coachBegun (coaching entry0) 0
    (coachPacket s 0).isSome = true ∧ slotThere s 0 = true ∧
    (match (readTable s (queueEngine s 0 (qcbCtx (qcb s 0)) (qcbPart (qcb s 0))) 0 0x40001000 0 1).1 with
     | .ok (some cs) s1 => servedWith (flagsReady s1 cs) (fun _ _ => cs.length == 1)
     | _ => false) = true := by decide +kernel

/-! ### Witnesses: the machine as a whole -/

theorem witness_WordsHaveOneMeaning : encode (.slli 5 6 0 3) = some 0x1CA60003 ∧ encode (.packageReset false) = none := ⟨rfl, rfl⟩
theorem witness_CompletionChangesItsAgentAlone : (.courier 0 : Agent) ≠ (here []).cur ∧ (5 : BitVec 5) ≠ 0 ∧ (31 : BitVec 5) ≠ 5 ∧
    (7 : BitVec 3) ≠ 0 ∧ (0 : BitVec 3) ≠ 7 := by decide

/-! ### Ill-formed terms: each check of `WellFormed` refuses one -/

/-- A packet whose body has 65,536 bytes. -/
def longPacket (p : Packet) : Packet := { p with body := List.replicate 65536 0 }
theorem test_ill_formed_words : (shiftLegal 1 32 || widthLegal 7 || scopeLegal 6 || isMask 8 || isName 16 || floatCode 4 || integerCode 12 ||
    convertLegal 2 2 || convertLegal 8 9 || partLegal 1 2 || panelsLegal 4 9 || wellFormed (.ill 0xFF000000)) = false := by decide
theorem test_ill_formed_numbers : (isTile 1024 || isCluster 128 || isCore 4096 || isStrand 16384 || isLane 9 || isDevice 8192 || isSource 0x8000 ||
    isQueue 65536 || isAligned 4 || isPosition 8 0 || isPosition 0 128 || isBar4 (2 ^ 41) 1 || isBar4 0 0 || isAgent (.courier 131072) ||
    wearLegal (.row 16 0 0 0) || isFlit [0]) = false := by decide
theorem test_ill_formed_instructions : (wellFormed (.slli 5 6 1 32) || wellFormed (.ldx 5 6 7 7) || wellFormed (.fence 6 1) || wellFormed (.fence 2 0) ||
    wellFormed (.bmany 8 0) || wellFormed (.accAlloc 16 0 0) || wellFormed (.fclass 5 6 8) || wellFormed (.fcvt 5 6 3 3) || wellFormed (.vps8 8 9 0 0 2) ||
    wellFormed (.mmaTern 0 9 0 0) || wellFormed (.mout 0 0 0 9) || wellFormed (.modFrm 5) || wellFormed (.vnarrow 1 2 3 0 3) ||
    wellFormed (.vfwiden 1 2 0 1 0) || wellFormed (.svcResume 5 6 3) || wellFormed (.amoadd 5 6 7 1 0 0 0)) = false := by decide
theorem test_ill_formed_steps : (wellFormed (.timingReplay 1024) || wellFormed (.lossOfLock 0 9) || wellFormed (.goneClear 8192) ||
    wellFormed (.junctionThrottle 0x8000) || wellFormed (.signal 65536) || wellFormed (.blockActivation 16384) || wellFormed (.courierStart 4096) ||
    wellFormed (.dragStep 128) || wellFormed (.roleMove 0 128) || wellFormed (.wearTrigger (.lane 36 0)) || wellFormed (.doorbell 32768 4 none 0) ||
    wellFormed (.storageBlockWrite 0 4 0) || wellFormed (.routingBankWrite 0x11FFF8 0) || wellFormed (.eviction 0 4096) ||
    wellFormed (.carriagePiece 0 0 8 []) || wellFormed (.registerWrite .control 4 0)) = false := by decide

/-! ### Single steps, with the results that the specification prints -/

/-- What `p` says of strand 0 after the instruction. -/
def strandAfter (i : Instr) (s : State) (p : Strand → Bool) : Bool :=
  match exec i s with
  | .next t => p (getAgent t (.strand 0))
  | _ => false
def xAfter (i : Instr) (xs : List (Nat × Word)) (d : BitVec 5) : Word :=
  match exec i (here xs) with
  | .next t => readX (getAgent t (.strand 0)) d
  | _ => 0x5A5A5A5A5A5A5A5A
def both (r : Word) (fl : BitVec 9) (d : BitVec 5) (t : Strand) : Bool := decide (readX t d = r) && decide (t.fcsr = fl) && decide (t.pc = 0x1004)

/-- 12 R292's example of the 32-bit shifts. -/
theorem test_shift_w : xAfter (.srl 5 6 7 1) [(6, 0xFFFFFFFF80000000), (7, 4)] 5 = 0x08000000 ∧
    xAfter (.sra 5 6 7 1) [(6, 0x80000000), (7, 4)] 5 = 0xFFFFFFFFF8000000 := by decide +kernel
/-- 12 R293's table. -/
theorem test_divide : xAfter (.div 5 6 7 0) [(6, 0x8000000000000000), (7, 0xFFFFFFFFFFFFFFFF)] 5 = 0x8000000000000000 ∧
    xAfter (.rem 5 6 7 0) [(6, 0x8000000000000000), (7, 0xFFFFFFFFFFFFFFFF)] 5 = 0 ∧ xAfter (.div 5 6 7 0) [(6, 7)] 5 = 0xFFFFFFFFFFFFFFFF ∧
    xAfter (.remu 5 6 7 0) [(6, 7)] 5 = 7 := by decide +kernel
theorem test_divide_w : xAfter (.div 5 6 7 1) [(6, 0x80000000), (7, 0xFFFFFFFFFFFFFFFF)] 5 = 0xFFFFFFFF80000000 ∧
    xAfter (.divu 5 6 7 1) [(6, 0x100000005)] 5 = 0xFFFFFFFFFFFFFFFF ∧
    xAfter (.mulhsu 5 6 7) [(6, 0xFFFFFFFFFFFFFFFF), (7, 0xFFFFFFFFFFFFFFFF)] 5 = 0xFFFFFFFFFFFFFFFF := by decide +kernel
/-- 11 R276's first example: XIMM 0x1234, then addi x5, x0, 0x5678; and a destination x0 that discards (11 R266). -/
theorem test_ximm : strandAfter (.ximm 0x1234) (here []) (fun t => decide (t.xlBits = 0x1234) && decide (t.xlCount = 1)) = true ∧
    strandAfter (.addi 5 0 0x5678) (here [] (fun t => { t with xlCount := 1, xlBits := 0x1234 })) (fun t => both 0x12345678 0 5 t && decide (t.xlCount = 0)) = true ∧
    strandAfter (.addi 0 6 1) (here [(6, 7)]) (both 0 0 0) = true := by decide +kernel
/-- 12 R296's two examples. -/
theorem test_upper : xAfter (.lui 5 0x1235) [] 5 = 0x12350000 ∧ xAfter (.addi 5 5 0x89AB) [(5, 0x12350000)] 5 = 0x123489AB ∧
    strandAfter (.auipc 5 3) (here [] (fun t => { t with pc := 0x00100080 })) (fun t => decide (readX t 5 = 0x00130080)) = true := by decide +kernel
/-- 12 R299's table: one rounding keeps what two lose. -/
theorem test_fma : strandAfter (.fmadd 5 6 7 8 0) (here [(6, 0x3F800800), (7, 0x3F800800), (8, 0xBF800000)]) (both 0x3A000400 0 5) = true ∧
    strandAfter (.fmul 9 6 7 0) (here [(6, 0x3F800800), (7, 0x3F800800)]) (both 0x3F801000 1 9) = true ∧
    strandAfter (.fadd 9 9 8 0) (here [(9, 0x3F801000), (8, 0xBF800000)]) (both 0x3A000000 0 9) = true := by decide +kernel
/-- 12 R301's table: -2.5 rounded to the nearest even and away, -1 to unsigned, a NaN, and a tie in BF16. -/
theorem test_fcvt : strandAfter (.fcvt 10 11 8 2) (here [(11, 0xC0200000)]) (both 0xFFFFFFFFFFFFFFFE 1 10) = true ∧
    strandAfter (.fcvt 10 11 8 2) (here [(11, 0xC0200000)] (fun t => { t with frm := some 4 })) (both 0xFFFFFFFFFFFFFFFD 1 10) = true ∧
    strandAfter (.fcvt 10 11 9 2) (here [(11, 0xBF800000)]) (both 0 0x10 10) = true ∧
    strandAfter (.fcvt 10 11 8 3) (here [(11, 0x7FF8000000000000)]) (both 0x7FFFFFFF 0x10 10) = true ∧
    strandAfter (.fcvt 10 11 1 2) (here [(11, 0x3F808000)]) (both 0x3F80 1 10) = true := by decide +kernel
/-- 09 R235: minimum orders -0 below +0, a division by zero, and the exact zero sum under RDN. -/
theorem test_float_corners : strandAfter (.fmin 5 6 7 0) (here [(6, 0), (7, 0x80000000)]) (both 0x80000000 0 5) = true ∧
    strandAfter (.fdiv 5 6 7 0) (here [(6, 0x3F800000), (7, 0x80000000)]) (both 0xFF800000 8 5) = true ∧
    strandAfter (.fadd 5 6 7 0) (here [(6, 0x3F800000), (7, 0xBF800000)] (fun t => { t with fcsr := 0x40 })) (both 0x80000000 0x40 5) = true := by decide +kernel
/-- 12 R302: the classes of a negative subnormal and of a signaling NaN. -/
theorem test_fclass : xAfter (.fclass 5 6 2) [(6, 0x80000001)] 5 = 4 ∧ xAfter (.fclass 5 6 3) [(6, 0x7FF0000000000001)] 5 = 0x100 := by decide +kernel
/-- Lanes of strand 0's v2, v3, v1 and the mask m2. -/
def lanes (w : Nat) (a b d : List Nat) (m : Word) (t : Strand) : Strand := writeM (writeV (writeV (writeV t 2 (ofLanes w a)) 3 (ofLanes w b)) 1 (ofLanes w d)) 2 m
/-- 13 R311's example: vsadd.h v1, v2, v3, m2. -/
theorem test_vsadd : strandAfter (.vsadd 1 2 3 2 1 0) (here [] (lanes 16 [0x7FF0, 1, 0x8005, 0x1234] [0x20, 2, 0xFFF0, 1] (List.replicate 32 0xAAAA) 5))
    (fun t => decide (readV t 1 = ofLanes 16 ([0x7FFF, 0xAAAA, 0x8000] ++ List.replicate 29 0xAAAA)) && decide (t.fcsr = 0x100)) = true := by decide +kernel
/-- 09 R245: 1 and three times 2^-24, added from left to right (each tie goes to even) and in pairs. -/
theorem test_reduction_orders :
    strandAfter (.vfredo 5 6 3 2 2) (here [] (lanes 32 [] [0x3F800000, 0x33800000, 0x33800000, 0x33800000] [] 15)) (both 0x3F800000 1 5) = true ∧
    strandAfter (.vfredp 5 6 3 2 2) (here [] (lanes 32 [] [0x3F800000, 0x33800000, 0x33800000, 0x33800000] [] 15)) (both 0x3F800001 1 5) = true := by
  decide +kernel
/-- 13 R320's example: byte 32 of v9 is 0x13, byte 33 is 0x2A. -/
theorem test_vps8 : strandAfter (.vps8 8 9 0 1 1) (here [] (fun t => writeV t 9 (ofLanes 8 (List.replicate 32 0 ++ [0x13, 0x2A]))))
    (fun t => decide (lane (readV t 8) 16 0 = 0x3F20) && decide (lane (readV t 8) 16 1 = 0)) = true := by decide +kernel
/-- 07 R202's table: two arrivals in bits 55:32, the reload word, and one arrival, which answers the word from before it (14 R337). -/
def poolAfter (i : Instr) (s : State) (off : Nat) : Word :=
  match exec i s with
  | .next t => BitVec.ofNat 64 (ofBytes (memRead (getTile t 0).pool off 8))
  | _ => 0
theorem test_barrier_init : let s := here [(6, win 0x10000), (7, 2)]
    poolAfter (.barInit 6 7) s 0x10000 = 0x0000000200000000 ∧ poolAfter (.barInit 6 7) s 0x10008 = 2 := by decide +kernel
/-- 14 R340's last arrival but for its bytes: the phase flips and the count is loaded again. -/
theorem test_barrier_flips :
    let s := here [(6, win 0x10000)] id { tile0 with pool := memOver (memWrite [] 0x10000 (leBytes 8 0x0000000100000000)) (memWrite [] 0x10008 [2]) }
    poolAfter (.barArrive 5 6) s 0x10000 = 0x8000000200000000 ∧ strandAfter (.barArrive 5 6) s (fun t => decide (readX t 5 = 0x0000000100000000)) = true := by
  decide +kernel
/-- 14 R323: a signed byte, little-endian bytes of a store. -/
theorem test_load_store : let s := here [(6, win 0x10000), (7, 0x1122334455667788)]
    poolAfter (.st 7 6 2 1) s 0x10000 = 0x5566778800000000 ∧
    strandAfter (.ld 5 6 0 0) (here [(6, win 0x10000)] id { tile0 with pool := memWrite [] 0x10000 [0x80] }) (both 0xFFFFFFFFFFFFFF80 0 5) = true := by decide +kernel
/-- 01 R19: three wrong symbols of each codeword are corrected. -/
theorem test_fec : let flit := makeFlit (4 * 2 ^ 60) [1, 2, 3]
    fecCorrect (patch (patch flit 0 [9, 9, 9, 9]) 254 [0xAA, 0x55]) = flit := by decide +kernel
/-- 11 R274: one step from reset runs the word placed at the pc: addi x5, x6, -3 of 12 R294. -/
theorem test_step_runs : (match step (State.reset.withFetchWord 32 0x0CA6FFFD) with
    | .next t => decide (readX (getAgent t (State.reset.withFetchWord 32 0x0CA6FFFD).cur) 5 = 0xFFFFFFFFFFFFFFFD)
    | _ => false) = true := by decide +kernel

end Sys2Proof.Tests
end

section
/-!
The state right after reset, read through the accessors. The maps of `State.reset` list no entry and its vectors repeat one element, so
every unit that is read there is the unit of its structure's initial values; the values of the Reset columns follow unit by unit.
-/
namespace Sys2Proof.Machine

/-! ## What the accessors read right after reset -/

@[simp] theorem strands_get_reset (d : Strand) (n : Nat) : State.reset.strands.get d n = d := rfl

@[simp] theorem getCluster_reset (c : Nat) : getCluster State.reset c = {} := rfl

@[simp] theorem getPort_reset {k : Nat} (h : k < 36) : getPort State.reset k = {} := by
  have hports : State.reset.ports.toList = List.replicate 36 {} := Vector.toList_replicate
  rw [getPort, hports, List.getD_replicate _ h]

/-- 04 R114: LATTOL of each partition. -/
@[simp] theorem lattol_reset {k : Nat} (h : k < 8) : State.reset.host.lattol.toList.getD k 0 = 0 := by
  have hlattol : State.reset.host.lattol.toList = List.replicate 8 0 := Vector.toList_replicate
  rw [hlattol, List.getD_replicate _ h]

@[simp] theorem believed_reset (d : BitVec 16) (n : Nat) : State.reset.ostler.believed.get d n = d := rfl

/-! ## The memories right after reset -/

/-- No tile and no run is listed, so HBM and the staging buffer are the only memories. -/
theorem memories_reset : memories State.reset = [[], []] := rfl

theorem eq_nil_of_mem_memories_reset {m : Memory} (h : m ∈ memories State.reset) : m = [] := by
  rw [memories_reset] at h
  simpa using h

theorem wf_of_mem_memories_reset {m : Memory} (h : m ∈ memories State.reset) : m.wf = true :=
  List.all_eq_true.mp reset_memories_wf m h

/-! ## The Reset columns -/

/-- 01 R33, R40: every port is DOWN, with no cause, no count and no DISABLE. -/
theorem port_values_reset {k : Nat} (h : k < 36) : let p := getPort State.reset k
    p.state = 0 ∧ p.cause = 0 ∧ p.gen = 0 ∧ p.keyRej = 0 ∧ p.replays = 0 ∧ p.disable = false := by
  simp [h]

/-- 03 R83, 04 R119, 09 R238: the registers of a cluster. -/
theorem cluster_values_reset (c : Nat) : let x := getCluster State.reset c
    x.mfwLock = false ∧ x.ostMask = 0 ∧ x.dragTbl = 0x4444444444444444 ∧ x.flagOr = 0 := by
  simp

/-- 01 R32, R36: RTCTL, and the first notice's sequence number. SWTIME, DEVNUM, NOTICEA and NOTICEB stand in 01 R31, which has no Reset
column: their zero is the model's. -/
theorem link_values_reset : let l := State.reset.link
    l.active = false ∧ l.pending = false ∧ l.awErr = false ∧ l.swErr = false ∧ l.swTime = 0 ∧ l.devnum = 0 ∧
      l.noticeA = 0 ∧ l.noticeB = 0 ∧ l.noticeSeq = 1 :=
  ⟨rfl, rfl, rfl, rfl, rfl, rfl, rfl, rfl, rfl⟩

/-- 02 R59, R62, 04 R114: the host control window. The zero of QHBASE and CTXBASE is the model's (assumption log 14). -/
theorem host_values_reset : let h := State.reset.host
    h.qhBase = 0 ∧ h.qhEn = false ∧ h.qhLog = 6 ∧ h.ctxBase = 0 ∧ h.ctxEn = false ∧ h.ctxLog = 4 ∧
      (∀ k < 8, h.lattol.toList.getD k 0 = 0) ∧ h.pwrLimit = 3600 ∧ h.fselAcct = 0 :=
  ⟨rfl, rfl, rfl, rfl, rfl, rfl, fun _ hk => lattol_reset hk, rfl, rfl⟩

/-- 06 R167, R191: the translation control block, and the table of believed epochs. -/
theorem ostler_values_reset : let o := State.reset.ostler
    o.trBase = 0 ∧ o.dtVa = 0 ∧ o.dtPa = 0 ∧ o.trVa = 0 ∧ o.trLen = 0 ∧ (∀ d, o.believed.get 0 d = 0) :=
  ⟨rfl, rfl, rfl, rfl, rfl, believed_reset 0⟩

/-- Settles O60: each group of registers holds its Reset column, every strand is free, and the only two memories, HBM and the staging
buffer, list no byte. -/
theorem resetHoldsTheSpecsValues : Obligations.ResetHoldsTheSpecsValues := by
  unfold Obligations.ResetHoldsTheSpecsValues
  have hstrands : ∀ n, (State.reset.strands.get {} n).act = .free := fun n => by rw [strands_get_reset]
  have hmemories : ∀ m ∈ memories State.reset, m = [] ∧ m.wf = true := fun _ hm =>
    ⟨eq_nil_of_mem_memories_reset hm, wf_of_mem_memories_reset hm⟩
  exact ⟨rfl, hstrands, hmemories, fun _ hk => port_values_reset hk, link_values_reset, host_values_reset, cluster_values_reset,
    ostler_values_reset, rfl, rfl⟩

end Sys2Proof.Machine
end

section
/-!
Ports and their flits (01 R19 to R24): what a write of a port gives and leaves alone, what a flit that comes in does, and what the timers of
the replay buffer do.
-/
namespace Sys2Proof.Machine

/-! ## A port and its state -/

section
variable (s : State) (p : Nat) (f : Port → Port)

@[simp] theorem setPort_now : (setPort s p f).now = s.now := rfl
@[simp] theorem setPort_agenda : (setPort s p f).agenda = s.agenda := rfl
@[simp] theorem setPort_hbm : (setPort s p f).hbm = s.hbm := rfl
@[simp] theorem setPort_strands : (setPort s p f).strands = s.strands := rfl
@[simp] theorem setPort_link : (setPort s p f).link = s.link := rfl
@[simp] theorem setPort_mgmt : (setPort s p f).mgmt = s.mgmt := rfl
@[simp] theorem setPort_linkOut : (setPort s p f).linkOut = s.linkOut := rfl
@[simp] theorem getPort_later (l : List Instr) : getPort (later s l) p = getPort s p := rfl

end

@[simp] theorem getPort_setPort (s : State) (p : Fin 36) (f : Port → Port) :
    getPort (setPort s p.val f) p.val = f (getPort s p.val) := by
  simp [getPort, setPort, List.getD_eq_getElem?_getD]

/-- A flit that a port sends on its own changes what the port has acknowledged, and nothing else of it. -/
theorem getPort_plainFlit (s : State) (p : Fin 36) (typ : Nat) (payload : List Byte) :
    getPort (plainFlit s p.val typ payload) p.val =
      let x := getPort s p.val
      { x with ackSent := if typ = 4 then x.ackSent else x.rxSeq, ackDue := x.ackDue && decide (typ = 4) } :=
  getPort_setPort s p _

/-! ## A flit that comes in -/

section
variable {s : State} {p : Fin 36} {typ : Nat} {raw : List Byte} {f : Flit → State → State}

theorem withFlit_of_not_up (h : (getPort s p.val).state ≠ 2) : withFlit s p typ raw f = s := by
  simp [withFlit, h]

theorem withFlit_of_failed (h : (getPort s p.val).state = 2) (hraw : flitOf raw = none) : withFlit s p typ raw f = sendNak s p := by
  simp [withFlit, h, hraw]

theorem withFlit_of_passed {x : Flit} (h : (getPort s p.val).state = 2) (hraw : flitOf raw = some x) :
    withFlit s p typ raw f = if x.typ = typ then f x (takeAck s p.val x.ack) else s := by
  simp [withFlit, h, hraw]

theorem sendNak_of_up (h : (getPort s p.val).state = 2) :
    sendNak s p = if (getPort s p.val).nakOut = true ∨ (getPort s p.val).retrain = true then s
      else later (plainFlit (setPort s p.val (fun x => { x with nakOut := true })) p.val 3 (leBytes 2 (((getPort s p.val).rxSeq + 1) % 4096)))
        [.nakHoldoffExpiry p] := by
  simp [sendNak, h]

end

/-- 01 R33: a port that is not UP takes no flit and sends none. -/
theorem exec_flit_of_not_up {s : State} {p : Fin 36} {raw : List Byte} (h : (getPort s p.val).state ≠ 2) :
    ∀ i ∈ [Instr.idleFlit p raw, .dataFlit p raw, .ackFlit p raw, .nakFlit p raw, .ackTimer p, .replayTimeout p], exec i s = .next s := by
  simp [exec_idleFlit, exec_dataFlit, exec_ackFlit, exec_nakFlit, exec_ackTimer, exec_replayTimeout, execIdleFlit, execDataFlit, execAckFlit,
    execNakFlit, execAckTimer, execReplayTimeout, event, withFlit_of_not_up h, h]

/-! ## Acknowledgements (01 R22) -/

theorem takeAck_eq_self {s : State} {p ack : Nat} (h : let x := getPort s p; let d := (ack + 4096 - x.acked) % 4096
      d = 0 ∨ 2048 < d ∨ (x.txSeq + 4096 - x.acked) % 4096 < d) : takeAck s p ack = s := by
  have h' := or_assoc.mpr h
  simp only [takeAck, Bool.or_eq_true, decide_eq_true_eq, if_pos h']

theorem takeAck_of_queued_nil {s : State} {p ack : Nat} (hq : (getPort s p).queued = [])
    (h : let x := getPort s p; let d := (ack + 4096 - x.acked) % 4096; 0 < d ∧ d ≤ 2048 ∧ d ≤ (x.txSeq + 4096 - x.acked) % 4096) :
    let d := (ack + 4096 - (getPort s p).acked) % 4096
    takeAck s p ack = setPort s p (fun x =>
      { x with acked := ack, kept := x.kept.filter (fun e => decide (d < (e.seq + 4096 - x.acked) % 4096)), ackTick := s.now }) := by
  obtain ⟨hpos, hwindow, hsent⟩ := h
  simp [takeAck, hq, drainQueued, hpos.ne', hwindow.not_gt, hsent.not_gt]

/-! ## Replays (01 R22, R24) -/

theorem keptFrom_eq_kept {x : Port} {a : Nat} (h : ∀ e ∈ x.kept, (e.seq + 4096 - a) % 4096 < 2048) : keptFrom x a = x.kept :=
  List.filter_eq_self.mpr (fun e he => decide_eq_true (h e he))

/-- What a replay makes of a kept flit: it has been sent, now or before. -/
def resent (now : Nat) (e : KeptFlit) : KeptFlit :=
  { e with since := some (e.since.getD now), replays := if e.since.isSome then e.replays + 1 else e.replays }

section
variable {s : State} {p : Fin 36} {a : Nat} (hup : (getPort s p.val).state = 2) (hret : (getPort s p.val).retrain = false)
  (hkept : (getPort s p.val).kept ≠ []) (hall : keptFrom (getPort s p.val) a = (getPort s p.val).kept)
include hup hret hkept hall

/-- A replay of the whole buffer, seen at the port. -/
theorem getPort_replayFrom_of_all :
    let x := getPort s p.val
    getPort (replayFrom s p.val a) p.val =
      { x with replays := min 0xFFFF (x.replays + 1), ackTick := s.now, ackSent := x.rxSeq, ackDue := false, kept := x.kept.map (resent s.now) } := by
  have hgo : ¬((keptFrom (getPort s p.val) a).isEmpty || !decide ((getPort s p.val).state = 2) || (getPort s p.val).retrain) = true := by
    simp [hall, hkept, hup, hret]
  have hmap : (getPort s p.val).kept.map (fun e => if e ∈ keptFrom (getPort s p.val) a then resent s.now e else e)
      = (getPort s p.val).kept.map (resent s.now) := List.map_congr_left (fun e he => if_pos (hall ▸ he))
  simp only [← hmap]
  exact (congrArg (getPort · p.val) (if_neg hgo)).trans (getPort_setPort s p _)

theorem linkOut_replayFrom_of_all :
    (replayFrom s p.val a).linkOut = s.linkOut ++ (getPort s p.val).kept.map (fun e => .flit p.val (flitBytes (getPort s p.val) e)) := by
  simp [replayFrom, hall, hup, hret, hkept]

end

theorem agenda_replayFrom (s : State) (p a : Nat) : (replayFrom s p a).agenda = s.agenda := by
  simp only [replayFrom]
  split <;> rfl

section
variable {s : State} {p : Fin 36}

theorem exec_replayTimeout_of_kept_nil (h : (getPort s p.val).kept = []) : exec (.replayTimeout p) s = .next s := by
  simp [exec_replayTimeout, execReplayTimeout, event, h]

theorem exec_replayTimeout_waits (hup : (getPort s p.val).state = 2) (hkept : (getPort s p.val).kept ≠ [])
    (h : s.now < (getPort s p.val).ackTick + 1000 ∨ (getPort s p.val).retrain = true) :
    exec (.replayTimeout p) s = .next (later s [.replayTimeout p]) := by
  simp [exec_replayTimeout, execReplayTimeout, event, hup, hkept, h]

theorem exec_replayTimeout_runs (hup : (getPort s p.val).state = 2) (hkept : (getPort s p.val).kept ≠ [])
    (htick : (getPort s p.val).ackTick + 1000 ≤ s.now) (hret : (getPort s p.val).retrain = false) :
    exec (.replayTimeout p) s = .next (later (replayOrFail s p (((getPort s p.val).acked + 1) % 4096)) [.replayTimeout p]) := by
  simp [exec_replayTimeout, execReplayTimeout, event, hup, hkept, hret, htick.not_gt]

theorem replayOrFail_fails {a : Nat} (hup : (getPort s p.val).state = 2) (hret : (getPort s p.val).retrain = false)
    (h : ∃ e ∈ keptFrom (getPort s p.val) a, 8 ≤ e.replays) : replayOrFail s p a = failPort s p 1 := by
  simp [replayOrFail, hup, hret, h]

theorem replayOrFail_replays {a : Nat} (h : ∀ e ∈ keptFrom (getPort s p.val) a, e.replays < 8) :
    replayOrFail s p a = replayFrom s p.val a := by
  have hany : (keptFrom (getPort s p.val) a).any (fun e => decide (8 ≤ e.replays)) = false := by
    simpa using h
  simp [replayOrFail, hany]

/-- 01 R22: after 1 µs without an acknowledgement every kept flit goes out again, and stays kept. -/
theorem exec_replayTimeout_resends (hup : (getPort s p.val).state = 2) (hkept : (getPort s p.val).kept ≠ [])
    (htick : (getPort s p.val).ackTick + 1000 ≤ s.now) (hret : (getPort s p.val).retrain = false)
    (hall : keptFrom (getPort s p.val) (((getPort s p.val).acked + 1) % 4096) = (getPort s p.val).kept)
    (hfew : ∀ e ∈ (getPort s p.val).kept, e.replays < 8) :
    let x := getPort s p.val
    ∃ t, exec (.replayTimeout p) s = .next t ∧
      t.linkOut = s.linkOut ++ x.kept.map (fun e => .flit p.val (flitBytes x e)) ∧ (getPort t p.val).replays = min 0xFFFF (x.replays + 1) ∧
      (getPort t p.val).kept.map (fun e => (e.seq, e.payload)) = x.kept.map (fun e => (e.seq, e.payload)) ∧
      (∀ e ∈ (getPort t p.val).kept, e.since.isSome = true) ∧ t.agenda = s.agenda ++ [.replayTimeout p] := by
  have hrun := exec_replayTimeout_runs hup hkept htick hret
  rw [replayOrFail_replays (by rwa [hall])] at hrun
  have hport := getPort_replayFrom_of_all hup hret hkept hall
  refine ⟨_, hrun, linkOut_replayFrom_of_all hup hret hkept hall, ?_, ?_, ?_, ?_⟩
  · rw [getPort_later, hport]
  · rw [getPort_later, hport, List.map_map]
    rfl
  · rw [getPort_later, hport]
    intro e he
    obtain ⟨e', -, rfl⟩ := List.mem_map.mp he
    rfl
  · exact congrArg (· ++ _) (agenda_replayFrom s p.val _)

end

/-- Settles O45: a flit that fails asks for the first missing one, one that passes acknowledges before it acts, and the timers act on a port
that is UP and in no retrain. -/
theorem flitsAreAcceptedInOrder : Obligations.FlitsAreAcceptedInOrder := by
  unfold Obligations.FlitsAreAcceptedInOrder
  intro s p raw ack x nak got
  have hgot : x.state = 2 → ∀ typ good, withFlit s p typ raw good = got typ good := by
    intro hup typ good
    cases hraw : flitOf raw with
    | none => simp only [got, hraw, nak, withFlit_of_failed hup hraw, sendNak_of_up hup]
    | some f => simp only [got, hraw, withFlit_of_passed hup hraw]
  refine ⟨exec_flit_of_not_up, fun hup => ⟨?_, ?_, ?_, ?_⟩, ⟨takeAck_eq_self, fun hpos hwindow hsent hq => ?_⟩,
    exec_replayTimeout_of_kept_nil, exec_replayTimeout_waits, fun hup hkept htick hret hin => ⟨fun hmany => ?_, fun hfew => ?_⟩, fun hup => ?_, rfl⟩
  · rw [exec_idleFlit, execIdleFlit, hgot hup, event]
  · rw [exec_ackFlit, execAckFlit, hgot hup, event]
  · rw [exec_nakFlit, execNakFlit, hgot hup, event]
  · rw [exec_dataFlit, execDataFlit, hgot hup, event]
  · exact takeAck_of_queued_nil hq ⟨hpos, hwindow, hsent⟩
  · have hall := keptFrom_eq_kept (fun e he => (hin e he).2)
    rw [exec_replayTimeout_runs hup hkept htick hret, replayOrFail_fails hup hret (by rwa [hall])]
  · exact exec_replayTimeout_resends hup hkept htick hret (keptFrom_eq_kept (fun e he => (hin e he).2)) hfew
  · simp [exec_ackTimer, execAckTimer, event, x, hup]

end Sys2Proof.Machine
end

section
/-!
Ports that fail, train and retrain, PORTCTL, and the notices of failures (01 R17, R24, R34 to R40).
-/
namespace Sys2Proof.Machine

/-! ## Bounds and failures (01 R24, R34) -/

section
variable {s : State} {p : Fin 36}

theorem kept_ne_nil_of_heldFor {n : Nat} (h : heldFor s p.val n = true) : (getPort s p.val).kept ≠ [] := by
  intro hnil
  simp [heldFor, hnil] at h

theorem exec_linkRetryBound_fails (hup : (getPort s p.val).state = 2) (h : heldFor s p.val 13000 = true) :
    exec (.linkRetryBound p) s = .next (failPort s p 1) := by
  simp [exec_linkRetryBound, execLinkRetryBound, event, hup, h, kept_ne_nil_of_heldFor h]

theorem exec_linkRetryBound_waits (hup : (getPort s p.val).state = 2) (hkept : (getPort s p.val).kept ≠ []) (h : heldFor s p.val 13000 = false) :
    exec (.linkRetryBound p) s = .next (later s [.linkRetryBound p]) := by
  simp [exec_linkRetryBound, execLinkRetryBound, event, hup, h, hkept]

theorem exec_linkRetryBound_eq_self (h : (getPort s p.val).state ≠ 2 ∨ (getPort s p.val).kept = []) :
    exec (.linkRetryBound p) s = .next s := by
  simp [exec_linkRetryBound, execLinkRetryBound, event, h]

theorem exec_trainingTimeout_fails (h : (getPort s p.val).state = 1) (ht : (getPort s p.val).t0 + 100000 ≤ s.now) :
    exec (.trainingTimeout p) s = .next (failPort s p 3) := by
  simp [exec_trainingTimeout, execTrainingTimeout, event, h, ht]

theorem exec_trainingTimeout_waits (h : (getPort s p.val).state = 1) (ht : s.now < (getPort s p.val).t0 + 100000) :
    exec (.trainingTimeout p) s = .next (later s [.trainingTimeout p]) := by
  simp [exec_trainingTimeout, execTrainingTimeout, event, h, ht.not_ge]

theorem exec_trainingTimeout_eq_self (h : (getPort s p.val).state ≠ 1) : exec (.trainingTimeout p) s = .next s := by
  simp [exec_trainingTimeout, execTrainingTimeout, event, h]

theorem portActive_iff {k : Nat} : portActive s k = true ↔ (getPort s k).state = 1 ∨ (getPort s k).state = 2 := by
  simp [portActive]

theorem portActive_of_idle (h : (getPort s p.val).state = 0 ∨ (getPort s p.val).state = 3) : portActive s p.val = false := by
  rw [Bool.eq_false_iff, Ne, portActive_iff]
  omega

theorem exec_partnerReset_of_active (h : portActive s p.val = true) : exec (.partnerReset p) s = .next (failPort s p 4) := by
  simp [exec_partnerReset, execPartnerReset, event, h]

theorem exec_partnerReset_of_idle (h : portActive s p.val = false) : exec (.partnerReset p) s = .next s := by
  simp [exec_partnerReset, execPartnerReset, event, h]

end

/-! ## Lanes (01 R17, R39) -/

/-- TRAIN flits leave their port's record as it is. -/
@[simp] theorem getPort_sendTrain (s : State) (p : Fin 36) : getPort (sendTrain s p.val) p.val = getPort s p.val := by
  simp [sendTrain, getPort_plainFlit]

theorem exec_lossOfLock_cases (s : State) (p : Fin 36) (lane : Nat) : exec (.lossOfLock p lane) s = .next (
    if (getPort s p.val).state ≠ 2 then s else if (getPort s p.val).spare then failPort s p 2
    else if (getPort s p.val).retrain then retrainWithout s p lane else startRetrain s p (some lane)) := by
  simp [exec_lossOfLock, execLossOfLock, event]

section
variable {s : State} {p : Fin 36} {lane : Nat}

theorem retrainWithout_of_not_offered (h : (getPort s p.val).myLanes.getLsbD lane = false) : retrainWithout s p lane = s := by
  simp [retrainWithout, h]

theorem retrainWithout_of_offered (h : (getPort s p.val).myLanes.getLsbD lane = true) :
    let left := (getPort s p.val).myLanes &&& ~~~BitVec.ofNat 16 (2 ^ lane)
    retrainWithout s p lane = if ((List.range 9).filter (fun l => left.getLsbD l)).length < 8 then failPort s p 2
      else sendTrain (setPort s p.val (fun x => { x with step := 1, myLanes := left })) p.val := by
  simp only [retrainWithout, h, Bool.not_true, Bool.false_eq_true, if_false]

theorem exec_wearingLaneReplace_waits (h : (getPort s p.val).state ≠ 2 ∨ (getPort s p.val).retrain = true) :
    exec (.wearingLaneReplace p lane) s = .next (later s [.wearingLaneReplace p lane]) := by
  simp [exec_wearingLaneReplace, execWearingLaneReplace, event, h]

theorem exec_wearingLaneReplace_eq_self (hup : (getPort s p.val).state = 2) (hret : (getPort s p.val).retrain = false)
    (h : (getPort s p.val).spare = true ∨ (getPort s p.val).lanes.getLsbD lane = false) : exec (.wearingLaneReplace p lane) s = .next s := by
  simp [exec_wearingLaneReplace, execWearingLaneReplace, event, hup, hret, h]

theorem exec_wearingLaneReplace_of_used (hup : (getPort s p.val).state = 2) (hret : (getPort s p.val).retrain = false)
    (hspare : (getPort s p.val).spare = false) (hlane : (getPort s p.val).lanes.getLsbD lane = true) :
    exec (.wearingLaneReplace p lane) s = .next (
      if (List.range (partCount s)).all (partIdle s) = true then startRetrain s p (some lane) else later s [.wearingLaneReplace p lane]) := by
  simp [exec_wearingLaneReplace, execWearingLaneReplace, event, hup, hret, hspare, hlane]

end

/-! ## Retraining (01 R17, R24) -/

/-- The lanes that a retrain offers: those in use and the spare, lane 8, but for the one to be replaced. -/
theorem offered_getLsbD (lanes : BitVec 16) (lane : Nat) {l : Nat} (hl : l < 16) :
    ((lanes ||| 0x100) &&& ~~~BitVec.ofNat 16 (2 ^ lane)).getLsbD l = ((lanes.getLsbD l || decide (l = 8)) && decide (l ≠ lane)) := by
  have hspare : ∀ l < 16, (0x100 : BitVec 16).getLsbD l = decide (l = 8) := by decide
  rw [BitVec.getLsbD_and, BitVec.getLsbD_or, BitVec.getLsbD_not, BitVec.getLsbD_ofNat, hspare l hl, Nat.testBit_two_pow]
  simp [hl, eq_comm]

section
variable {s : State} {p : Fin 36}

theorem startRetrain_fails {worn : Option Nat} (h : heldFor s p.val 8001 = true ∨ ∃ e ∈ (getPort s p.val).kept, e.retrained = true) :
    startRetrain s p worn = failPort s p 1 := by
  simp [startRetrain, h]

theorem getPort_startRetrain {lane : Nat} (hheld : heldFor s p.val 8001 = false) (h : ∀ e ∈ (getPort s p.val).kept, e.retrained = false) :
    let x := getPort s p.val
    getPort (startRetrain s p (some lane)) p.val =
      { x with
        retrain := true, step := 1, t0 := s.now
        myLanes := (x.lanes ||| 0x100) &&& ~~~BitVec.ofNat 16 (2 ^ lane)
        kept := x.kept.map (fun e => { e with retrained := e.since.isSome }) } := by
  have hany : (getPort s p.val).kept.any (fun e => e.retrained) = false := by simpa using h
  simp [startRetrain, hheld, hany]

theorem getPort_startTraining (s : State) (p : Fin 36) : getPort (startTraining s p.val) p.val =
    { getPort s p.val with state := 1, step := 1, retrain := false, myLanes := 0, lanes := 0, t0 := s.now } := by
  simp [startTraining]

/-! ## TRAIN flits and locked lanes (01 R39) -/

section
variable {raw : List Byte}

theorem exec_trainFlit_of_disabled (h : (getPort s p.val).disable = true) : exec (.trainFlit p raw) s = .next s := by
  rw [exec_trainFlit, execTrainFlit, event]
  cases flitOf raw <;> simp [h]

theorem exec_trainFlit_of_failed (hraw : flitOf raw = none) : exec (.trainFlit p raw) s = .next s := by
  simp [exec_trainFlit, execTrainFlit, event, hraw]

theorem exec_trainFlit_of_passed {f : Flit} (hraw : flitOf raw = some f) (h : (getPort s p.val).disable = false) :
    let x := getPort s p.val
    exec (.trainFlit p raw) s = .next (if f.typ = 4 then
      (if x.state = 0 ∨ x.state = 3 then startTraining s p.val
       else if x.state = 1 ∨ x.retrain then trainWith s p f.payload
       else if fieldAt f.payload 0 1 = 1 then startRetrain s p none else s) else s) := by
  by_cases htyp : f.typ = 4 <;> simp [exec_trainFlit, execTrainFlit, event, hraw, h, htyp]

end

theorem exec_lockAcquired_of_lock {lanes : BitVec 16} (hstep : (getPort s p.val).step = 1)
    (h : (getPort s p.val).state = 1 ∨ (getPort s p.val).retrain = true) :
    let ls := lanes &&& 0x1FF &&& (if (getPort s p.val).retrain then (getPort s p.val).myLanes else 0x1FF)
    exec (.lockAcquired p lanes) s = .next (
      if ((List.range 9).filter (fun l => ls.getLsbD l)).length < 8 then s
      else sendTrain (setPort s p.val (fun x => { x with step := 2, myLanes := ls })) p.val) := by
  have hlock : (!decide ((getPort s p.val).step = 1) || !(decide ((getPort s p.val).state = 1) || (getPort s p.val).retrain)) = false := by
    rcases h with h | h <;> simp [hstep, h]
  simp only [exec_lockAcquired, execLockAcquired, event, hlock, Bool.false_or, decide_eq_true_eq]

theorem exec_lockAcquired_eq_self {lanes : BitVec 16}
    (h : (getPort s p.val).step ≠ 1 ∨ (getPort s p.val).state ≠ 1 ∧ (getPort s p.val).retrain = false) :
    exec (.lockAcquired p lanes) s = .next s := by
  have hstay : (!decide ((getPort s p.val).step = 1) || !(decide ((getPort s p.val).state = 1) || (getPort s p.val).retrain)) = true := by
    simpa using h
  simp only [exec_lockAcquired, execLockAcquired, event, hstay, Bool.true_or, if_true]

/-! ## PORTCTL (01 R40) -/

theorem exec_portTrain_starts (hdis : (getPort s p.val).disable = false) (h : (getPort s p.val).state = 0 ∨ (getPort s p.val).state = 3) :
    exec (.portTrain p) s = .next (startTraining s p.val) := by
  simp [exec_portTrain, execPortTrain, event, portTrain, hdis, h]

theorem exec_portTrain_eq_self (h : (getPort s p.val).disable = true ∨ (getPort s p.val).state = 1 ∨ (getPort s p.val).state = 2) :
    exec (.portTrain p) s = .next s := by
  rw [exec_portTrain, execPortTrain, event, portTrain]
  rcases h with h | h | h <;> simp [h]

theorem getPort_portDisable (s : State) (p : Fin 36) :
    (getPort (portDisable s p) p.val).state = 0 ∧ (getPort (portDisable s p) p.val).disable = true := by
  simp [portDisable]

theorem getPort_portReset (s : State) (p : Fin 36) : let y := getPort (portReset s p) p.val
    y.state = 0 ∧ y.keyRej = 0 ∧ y.replays = 0 := by
  simp [portReset]

theorem gen_portReset_of_idle (h : (getPort s p.val).state = 0 ∨ (getPort s p.val).state = 3) :
    (getPort (portReset s p) p.val).gen = (getPort s p.val).gen + 1 := by
  simp [portReset, portActive_of_idle h]

end

/-! ## Notices (01 R35 to R37) -/

@[simp] theorem writeNotice_zero (s : State) (bs : List Byte) (port cause : Nat) : writeNotice s 0#64 bs port cause = (s, true) := by
  simp [writeNotice]

/-- An address of 0 takes no notice; one of host memory takes it by a write of the bus. -/
theorem writeNotice_of_host {s : State} {addr : Word} {bs : List Byte} {port cause : Nat}
    (h : addr = 0 ∨ addr.getLsbD 63 = false ∧ addr.toNat % 32 = 0) :
    writeNotice s addr bs port cause = ({ s with busOut := s.busOut ++ if addr = 0 then [] else [.write addr bs] }, true) := by
  by_cases hzero : addr = 0
  · simp [hzero]
  · obtain ⟨hhost, halign⟩ := h.resolve_left hzero
    have hnat : addr.toNat ≠ 0 := fun h0 => hzero (BitVec.eq_of_toNat_eq h0)
    have hbit : addr.toNat.testBit 63 = false := hhost
    rw [if_neg hzero]
    simp [writeNotice, hnat, hbit, halign]

/-- No other notice goes before one: none of a lower port's at its tick, none of an earlier failure without a sequence number. -/
theorem notices_ahead_eq_false_iff (ns : List Notice) (n : Notice) :
    ns.any (fun m => (m.t0 = n.t0 && decide (m.port < n.port)) || (m.todo.isNone && decide (m.t0 < n.t0))) = false ↔
      ∀ m ∈ ns, (m.t0 = n.t0 → n.port ≤ m.port) ∧ (m.todo = none → n.t0 ≤ m.t0) := by
  simp

section
variable {s : State} {p : Fin 36}

theorem exec_noticeRecord_eq_self (h : ∀ n ∈ s.link.notices, n.port ≠ p.val) : exec (.noticeRecord p) s = .next s := by
  have hnone : s.link.notices.find? (fun n => n.port = p.val) = none := by simpa using h
  simp [exec_noticeRecord, execNoticeRecord, event, hnone]

variable {n : Notice} (hn : s.link.notices.find? (fun n => n.port = p.val) = some n)
include hn

theorem port_of_find_notice : n.port = p.val := by
  simpa using List.find?_some hn

theorem exec_noticeRecord_waits (h : s.now ≤ n.t0 ∨ ¬∀ m ∈ s.link.notices, (m.t0 = n.t0 → p.val ≤ m.port) ∧ (m.todo = none → n.t0 ≤ m.t0)) :
    exec (.noticeRecord p) s = .next (later s [.noticeRecord p]) := by
  rw [← port_of_find_notice hn, ← notices_ahead_eq_false_iff, Bool.not_eq_false] at h
  simp only [exec_noticeRecord, execNoticeRecord, event, hn, Bool.or_eq_true, decide_eq_true_eq] at h ⊢
  rw [if_pos h]

/-- 01 R36, R37: a notice whose turn it is goes to NOTICEA under the next sequence number. -/
theorem exec_noticeRecord_writes (htick : n.t0 < s.now)
    (hfirst : ∀ m ∈ s.link.notices, (m.t0 = n.t0 → p.val ≤ m.port) ∧ (m.todo = none → n.t0 ≤ m.t0)) (htodo : n.todo = none)
    (hb : s.link.noticeB = 0) (ha : s.link.noticeA = 0 ∨ s.link.noticeA.getLsbD 63 = false ∧ s.link.noticeA.toNat % 32 = 0) :
    exec (.noticeRecord p) s = .next { s with
      link := { s.link with noticeSeq := s.link.noticeSeq + 1, notices := s.link.notices.erase n }
      busOut := s.busOut ++ if s.link.noticeA = 0 then [] else [.write s.link.noticeA (noticeBytes s n s.link.noticeSeq)] } := by
  rw [← port_of_find_notice hn, ← notices_ahead_eq_false_iff] at hfirst
  simp [exec_noticeRecord, execNoticeRecord, event, hn, hfirst, htick.not_ge, htodo, writeNoticeTo, writeNotice_of_host ha, hb]

end

/-- Settles O46: event by event, with what each does to a port in each of its states. -/
theorem portsTrainAndFail : Obligations.PortsTrainAndFail := by
  unfold Obligations.PortsTrainAndFail
  intro s p raw lane lanes x fails idle locked
  refine ⟨exec_linkRetryBound_fails, exec_linkRetryBound_waits, exec_linkRetryBound_eq_self, exec_trainingTimeout_fails, exec_trainingTimeout_waits,
    exec_trainingTimeout_eq_self, fun h => exec_partnerReset_of_active (portActive_iff.mpr h),
    fun h => exec_partnerReset_of_idle (portActive_of_idle h), exec_lossOfLock_cases s p lane,
    ⟨retrainWithout_of_not_offered, fun hl hfew => ?_, fun hl hmany => ?_⟩,
    fun hup hret hspare hl => exec_wearingLaneReplace_of_used hup hret hspare hl, exec_wearingLaneReplace_eq_self,
    exec_wearingLaneReplace_waits, startRetrain_fails, fun hheld hfresh => ?_, fun hdis => ?_, exec_trainFlit_of_disabled,
    exec_lockAcquired_of_lock, exec_lockAcquired_eq_self, ⟨_, rfl, getPort_portDisable s p⟩, fun hdis hdown => ?_, exec_portTrain_eq_self,
    ?_, exec_noticeRecord_eq_self, fun n hn => ⟨exec_noticeRecord_waits hn, exec_noticeRecord_writes hn⟩⟩
  · exact (retrainWithout_of_offered hl).trans (if_pos hfew)
  · exact (retrainWithout_of_offered hl).trans (if_neg hmany.not_gt)
  · rw [getPort_startRetrain hheld hfresh]
    refine ⟨rfl, rfl, rfl, rfl, fun l hl => offered_getLsbD x.lanes lane hl, ?_⟩
    rw [List.map_map]
    rfl
  · cases hraw : flitOf raw with
    | none => simp only [exec_trainFlit_of_failed hraw, implies_true, and_self]
    | some f =>
      rw [exec_trainFlit_of_passed hraw hdis]
      refine ⟨fun hdown => ?_, fun htrains => ?_, fun hup hret => ?_⟩
      · rw [if_pos hdown]
      · rw [if_neg (show ¬(x.state = 0 ∨ x.state = 3) by omega), if_pos (htrains.imp_right And.right)]
      · rw [if_neg (show ¬(x.state = 0 ∨ x.state = 3) by omega), if_neg (show ¬(x.state = 1 ∨ x.retrain = true) by simp [hup, hret])]
  · refine ⟨_, exec_portTrain_starts hdis hdown, ?_⟩
    rw [getPort_startTraining]
    exact ⟨rfl, rfl, rfl, rfl⟩
  · obtain ⟨hstate, hrej, hreplays⟩ := getPort_portReset s p
    exact ⟨_, rfl, hstate, hrej, hreplays, gen_portReset_of_idle⟩

end Sys2Proof.Machine
end

section
/-!
The link configuration block: routing and key banks, their switch, holds, packets in transit, MGMT, and writes of registers (01 R25 to R32,
R35, R38; 00 R8, R9).
-/
namespace Sys2Proof.Machine

/-! ## Writes of the banks (01 R25, R26, R31) -/

section
variable {s : State} {off : Nat} {v : Word}

theorem exec_routingBankWrite_of_block (hlo : 0x120000 ≤ off) (hhi : off < 0x140080) :
    exec (.routingBankWrite off v) s = .next (bankWrite s off v) := by
  simp [exec_routingBankWrite, execRoutingBankWrite, event, hlo, hhi]

theorem bankWrite_of_pending (h : s.link.pending = true) : bankWrite s off v = awRefuse s := by
  simp [bankWrite, h]

/-- Which of the two banks an offset of the block lies in. -/
def secondBank (off : Nat) : Bool := if off < 0x140000 then decide (0x130000 ≤ off) else decide (0x140040 ≤ off)

/-- Which of its bank's entries an offset of the block is. -/
def bankIndex (off : Nat) : Nat := if off < 0x140000 then (off - 0x120000) % 0x10000 / 8 else (off - 0x140000) % 0x40 / 8

theorem secondBank_eq_false (h : off < 0x130000 ∨ 0x140000 ≤ off ∧ off < 0x140040) : secondBank off = false := by
  unfold secondBank
  split <;> rw [decide_eq_false_iff_not] <;> omega

theorem secondBank_eq_true (h : 0x130000 ≤ off ∧ off < 0x140000 ∨ 0x140040 ≤ off) : secondBank off = true := by
  unfold secondBank
  split <;> rw [decide_eq_true_iff] <;> omega

/-- The active bank takes no write. -/
theorem bankWrite_of_active (h : secondBank off = s.link.active) : bankWrite s off v = awRefuse s := by
  simp [bankWrite, ← h, secondBank]

variable (hoff : off % 8 = 0) (hpending : s.link.pending = false)
include hoff hpending

/-- The inactive bank takes a write of its routing entry or key entry. -/
theorem bankWrite_of_inactive (h : secondBank off ≠ s.link.active) : bankWrite s off v = { s with link :=
    if off < 0x130000 then { s.link with bank0 := s.link.bank0.set (bankIndex off) (v &&& 0xFE00000FFFFFFFFF) }
    else if off < 0x140000 then { s.link with bank1 := s.link.bank1.set (bankIndex off) (v &&& 0xFE00000FFFFFFFFF) }
    else if off < 0x140040 then { s.link with keys0 := s.link.keys0.set (bankIndex off) (v &&& 0xC00000000000FFFF) }
    else { s.link with keys1 := s.link.keys1.set (bankIndex off) (v &&& 0xC00000000000FFFF) } } := by
  have hgo : ¬(s.link.pending || secondBank off == s.link.active || off % 8 != 0) = true := by
    simp [hpending, h, hoff]
  exact if_neg hgo

end

/-! The four ranges of the block (01 R31). -/

section
variable {s : State} {off : Nat} {v : Word} (hoff : off % 8 = 0) (hpending : s.link.pending = false)
include hoff hpending

theorem bankWrite_bank0 (hlo : 0x120000 ≤ off) (hhi : off < 0x130000) : bankWrite s off v = if s.link.active then
    { s with link := { s.link with bank0 := s.link.bank0.set ((off - 0x120000) / 8) (v &&& 0xFE00000FFFFFFFFF) } } else awRefuse s := by
  have hfirst : secondBank off = false := secondBank_eq_false (by omega)
  have hindex : bankIndex off = (off - 0x120000) / 8 := by rw [bankIndex, if_pos (by omega)]; omega
  split
  · next hactive => rw [bankWrite_of_inactive hoff hpending (by simp [hfirst, hactive]), if_pos hhi, hindex]
  · next hactive => exact bankWrite_of_active (by simp [hfirst, hactive])

theorem bankWrite_bank1 (hlo : 0x130000 ≤ off) (hhi : off < 0x140000) : bankWrite s off v = if s.link.active then awRefuse s else
    { s with link := { s.link with bank1 := s.link.bank1.set ((off - 0x130000) / 8) (v &&& 0xFE00000FFFFFFFFF) } } := by
  have hsecond : secondBank off = true := secondBank_eq_true (by omega)
  have hindex : bankIndex off = (off - 0x130000) / 8 := by rw [bankIndex, if_pos (by omega)]; omega
  split
  · next hactive => exact bankWrite_of_active (by simp [hsecond, hactive])
  · next hactive =>
    rw [bankWrite_of_inactive hoff hpending (by simp [hsecond, hactive]), if_neg hlo.not_gt, if_pos hhi, hindex]

theorem bankWrite_keys0 (hlo : 0x140000 ≤ off) (hhi : off < 0x140040) : bankWrite s off v = if s.link.active then
    { s with link := { s.link with keys0 := s.link.keys0.set ((off - 0x140000) / 8) (v &&& 0xC00000000000FFFF) } } else awRefuse s := by
  have hfirst : secondBank off = false := secondBank_eq_false (by omega)
  have hindex : bankIndex off = (off - 0x140000) / 8 := by rw [bankIndex, if_neg (by omega)]; omega
  split
  · next hactive =>
    rw [bankWrite_of_inactive hoff hpending (by simp [hfirst, hactive]), if_neg (by omega), if_neg hlo.not_gt, if_pos hhi, hindex]
  · next hactive => exact bankWrite_of_active (by simp [hfirst, hactive])

theorem bankWrite_keys1 (hlo : 0x140040 ≤ off) (hhi : off < 0x140080) : bankWrite s off v = if s.link.active then awRefuse s else
    { s with link := { s.link with keys1 := s.link.keys1.set ((off - 0x140040) / 8) (v &&& 0xC00000000000FFFF) } } := by
  have hsecond : secondBank off = true := secondBank_eq_true (by omega)
  have hindex : bankIndex off = (off - 0x140040) / 8 := by rw [bankIndex, if_neg (by omega)]; omega
  split
  · next hactive => exact bankWrite_of_active (by simp [hsecond, hactive])
  · next hactive =>
    rw [bankWrite_of_inactive hoff hpending (by simp [hsecond, hactive]), if_neg (by omega), if_neg (by omega), if_neg hlo.not_gt, hindex]

end

/-! ## The switch (01 R30, R32) -/

theorem exec_swreq_cases (s : State) : exec .swreq s = .next (
    if s.link.pending ∨ s.link.holds ≠ [] then { s with link := { s.link with swErr := true } }
    else later { s with link := { s.link with pending := true } } [.bankSwitch]) := by
  simp [exec_swreq, execSwreq, event, switchRequest, routeBusy]

theorem classOOut_of_none_out {s : State} (hreq : s.requests = []) (htransit : s.link.transit = []) (dest : Nat) :
    classOOut s dest = false := by
  simp [classOOut, hreq, htransit]

/-- No hold opens while no class-O packet is out. -/
theorem holds_changeRoutes_of_none_out {s : State} {f : State → State} (hreq : s.requests = []) (htransit : s.link.transit = []) :
    (changeRoutes s f).link.holds = (f s).link.holds := by
  simp [changeRoutes, classOOut_of_none_out hreq htransit]

section
variable {s : State}

theorem exec_bankSwitch_of_not_pending (h : s.link.pending = false) : exec .bankSwitch s = .next s := by
  simp [exec_bankSwitch, execBankSwitch, event, h]

theorem exec_bankSwitch_waits (h : s.link.pending = true) (ht : s.now < s.link.swTime.toNat) :
    exec .bankSwitch s = .next (later s [.bankSwitch]) := by
  simp [exec_bankSwitch, execBankSwitch, event, h, ht.not_ge]

theorem exec_bankSwitch_switches (h : s.link.pending = true) (ht : s.link.swTime.toNat ≤ s.now) : exec .bankSwitch s = .next (
    changeRoutes s (fun s => { s with link := { s.link with active := !s.link.active, pending := false } })) := by
  simp [exec_bankSwitch, execBankSwitch, event, h, ht]

end

/-! ## Holds (01 R27, R30) -/

theorem length_takeWhile_eq_iff {α : Type} (f : α → Bool) (l : List α) :
    (l.takeWhile f).length = l.length ↔ l.drop (l.takeWhile f).length = [] := by
  rw [List.drop_eq_nil_iff]
  exact ⟨Nat.le_of_eq ∘ Eq.symm, Nat.le_antisymm (List.takeWhile_sublist f).length_le⟩

section
variable {s : State} {dest : Nat}

theorem exec_classOHoldEnd_of_no_hold (h : dest ∉ s.link.holds) : exec (.classOHoldEnd dest) s = .next (dropOldTransit s) := by
  simp [exec_classOHoldEnd, execClassOHoldEnd, event, dropOldTransit, h]

theorem exec_classOHoldEnd_waits (h : dest ∈ s.link.holds) (hout : classOOut (dropOldTransit s) dest = true) :
    exec (.classOHoldEnd dest) s = .next (later (dropOldTransit s) [.classOHoldEnd dest]) := by
  have h0 : dest ∈ (dropOldTransit s).link.holds := h
  simp [exec_classOHoldEnd, execClassOHoldEnd, event, h0, hout]

/-- The packets of a hold leave with their first entry's port, and the hold ends when that leaves none and is the port now. -/
theorem exec_classOHoldEnd_leaves (h : dest ∈ s.link.holds) (hout : classOOut (dropOldTransit s) dest = false) :
    let s0 := dropOldTransit s
    let mine := s.link.heldPackets.filter (fun x => x.2.dest.toNat % 8192 = dest)
    let others := s.link.heldPackets.filter (fun x => x.2.dest.toNat % 8192 ≠ dest)
    let way := (mine.head?.map (fun x => entryPort s0 x.1)).getD (classOPort s0 dest)
    let go := mine.takeWhile (fun x => entryPort s0 x.1 == way)
    let left := mine.drop go.length
    let sent := fun (holds : List Nat) =>
      go.foldl sendHeld { s0 with link := { s0.link with holds := holds, heldPackets := others ++ left } }
    exec (.classOHoldEnd dest) s = .next (
      if left = [] ∧ way = classOPort s0 dest then sent (without s.link.holds dest) else later (sent s.link.holds) [.classOHoldEnd dest]) := by
  intro s0 mine others way go left sent
  have h0 : dest ∈ s0.link.holds := h
  have hended : (go.length == mine.length && way == classOPort s0 dest) = decide (left = [] ∧ way = classOPort s0 dest) := by
    rw [Bool.eq_iff_iff]
    simp [go, left, length_takeWhile_eq_iff]
  have hsent : ∀ ended, ended = decide (left = [] ∧ way = classOPort s0 dest) →
      (if ended then sent (if ended then without s.link.holds dest else s.link.holds)
        else later (sent (if ended then without s.link.holds dest else s.link.holds)) [.classOHoldEnd dest]) =
      if left = [] ∧ way = classOPort s0 dest then sent (without s.link.holds dest) else later (sent s.link.holds) [.classOHoldEnd dest] := by
    rintro _ rfl
    by_cases hend : left = [] ∧ way = classOPort s0 dest
    · simp only [decide_eq_true hend, if_pos hend, if_true]
    · simp only [decide_eq_false hend, if_neg hend, Bool.false_eq_true, if_false]
  have hothers : s.link.heldPackets.filter (fun x => !decide (x.2.dest.toNat % 8192 = dest)) = others := by simp [others]
  have hstays : ¬(!decide (dest ∈ s0.link.holds)) = true := by simp [h0]
  rw [← hsent _ hended]
  simp only [sent, ← hothers]
  exact congrArg Host.Outcome.next ((if_neg hstays).trans (if_neg (hout ▸ Bool.false_ne_true)))

end

/-! ## DEVNUM, and packets in transit (01 R28, R30, R31) -/

theorem exec_devnumWrite_cases (s : State) (v : Word) : exec (.devnumWrite v) s = .next (
    if (List.range 36).any (portUp s) then awRefuse s else { s with link := { s.link with devnum := v.setWidth 13 } }) := by
  simp [exec_devnumWrite, execDevnumWrite, event, devnumWrite]

section
variable {s : State} {port : Fin 36} {p : Packet}

theorem exec_transitPacket_of_bad_key (h : keyAccepted s p.key.toNat = false) : exec (.transitPacket port p) s = .next (
    reject (setPort s port.val (fun x => { x with keyRej := min 0xFFFF (x.keyRej + 1) })) p 7) := by
  simp [exec_transitPacket, execTransitPacket, event, h]

variable (hkey : keyAccepted s p.key.toNat = true)
include hkey

theorem exec_transitPacket_arrives (h : p.dest.toNat % 8192 = devnum s) :
    exec (.transitPacket port p) s = .next (soon s [packetArrives p]) := by
  simp [exec_transitPacket, execTransitPacket, event, hkey, h]

variable (h : p.dest.toNat % 8192 ≠ devnum s)
include h

theorem exec_transitPacket_classO (hclass : classU p.opcode.toNat = false) : exec (.transitPacket port p) s = .next (
    if hasRoute s (p.dest.toNat % 8192) then sendPacket (transitEnded s p) p else reject s p 6) := by
  cases hroute : hasRoute s (p.dest.toNat % 8192) <;> simp [exec_transitPacket, execTransitPacket, event, hkey, h, hclass, hroute]

theorem exec_transitPacket_classU (hclass : classU p.opcode.toNat = true) :
    let entry := routeEntry s (p.dest.toNat % 8192)
    exec (.transitPacket port p) s = .next (
      if entryRoutes entry = true ∧ livePorts s entry ≠ [] then sendPacket (transitEnded s p) p else reject s p 6) := by
  intro entry
  by_cases hroute : entryRoutes entry = true ∧ livePorts s entry ≠ []
  · simp [exec_transitPacket, execTransitPacket, event, hkey, h, hclass, entry, hroute]
  · have hnone : (!entryRoutes entry || (livePorts s entry).isEmpty) = true := by simpa [Decidable.imp_iff_not_or] using hroute
    rw [if_neg hroute]
    simp only [exec_transitPacket, execTransitPacket, event, hkey, h, hclass, entry, hnone, Bool.not_true, Bool.false_eq_true, if_true, if_false]

end

/-! ## MGMT (01 R38) -/

section
variable {s : State} {p : Packet}

theorem exec_mgmt_of_bad_key (h : keyManages s p.key.toNat = false) : exec (.mgmt p) s = .next (acknowledge s p [] 9 0 0x04 0) := by
  simp [exec_mgmt, execMgmt, event, h]

variable (hkey : keyManages s p.key.toNat = true) (hn : fieldAt p.body 0 2 = 1)
include hkey hn

theorem exec_mgmt_one_below (h : fieldAt p.body 8 8 < 0x100000) : exec (.mgmt p) s = .next (acknowledge s p [] 9 0 0x01 0) := by
  simp [exec_mgmt, execMgmt, event, hkey, hn, h]

theorem exec_mgmt_one_written (hlen : p.length = 24) (hzero : zeroAt p.body 2 6 = true) (hlo : 0x100000 ≤ fieldAt p.body 8 8)
    (hhi : fieldAt p.body 8 8 < 0x150000) (halign : fieldAt p.body 8 8 % 8 = 0) :
    exec (.mgmt p) s = .next (
      acknowledge (linkWrite s (fieldAt p.body 8 8) (BitVec.ofNat 64 (fieldAt p.body 16 8))) p [] 0 0 0 0) := by
  simp [exec_mgmt, execMgmt, event, hkey, hn, hlen, hzero, hlo.not_gt, hhi.not_ge, halign]

end

/-! ## Writes of registers (00 R8, R9) -/

section
variable {s : State} {off : Nat} {v : Word}

theorem exec_registerWrite_control_stored (h : controlEvents off v = none) :
    exec (.registerWrite .control off v) s = .next (controlStore s off v) := by
  simp [exec_registerWrite, execRegisterWrite, event, h]

/-- A write of SWTIME is a plain write of the block. -/
theorem exec_registerWrite_swtime : exec (.registerWrite .control 0x100008 v) s = .next { s with link := { s.link with swTime := v } } :=
  exec_registerWrite_control_stored rfl

theorem exec_registerWrite_trlen :
    exec (.registerWrite .ostler 0x150020 v) s = .next { s with ostler := { s.ostler with trLen := v.setWidth 32 } } := by
  simp [exec_registerWrite, execRegisterWrite, event, ostlerEvents, ostlerStore]

end

/-- Settles O47: register by register and packet by packet, each by the lemma of its step. -/
theorem routesAndRegistersAreWritten : Obligations.RoutesAndRegistersAreWritten := by
  unfold Obligations.RoutesAndRegistersAreWritten
  intro s port p off dest v k d n refused route key old s0
  refine ⟨fun hoff hpending => ⟨fun hlo hhi => ?_, fun hlo hhi => ?_, fun hlo hhi => ?_, fun hlo hhi => ?_⟩, fun hpending hlo hhi => ?_,
    exec_swreq_cases s, exec_bankSwitch_of_not_pending, exec_bankSwitch_waits, fun hpending ht => ?_, exec_classOHoldEnd_of_no_hold,
    exec_classOHoldEnd_waits, exec_classOHoldEnd_leaves, exec_devnumWrite_cases s v, exec_transitPacket_of_bad_key,
    fun hkey => ⟨exec_transitPacket_arrives hkey, exec_transitPacket_classO hkey, exec_transitPacket_classU hkey⟩, exec_mgmt_of_bad_key,
    fun hkey hn hlen hzero => ⟨exec_mgmt_one_written hkey hn hlen hzero, exec_mgmt_one_below hkey hn⟩,
    exec_registerWrite_control_stored rfl, exec_registerWrite_control_stored rfl, exec_registerWrite_swtime, rfl, rfl,
    exec_registerWrite_trlen, rfl⟩
  · rw [exec_routingBankWrite_of_block (by omega) (by omega), bankWrite_bank0 hoff hpending hlo hhi]
    rfl
  · rw [exec_routingBankWrite_of_block (by omega) (by omega), bankWrite_bank1 hoff hpending hlo hhi]
    rfl
  · rw [exec_routingBankWrite_of_block (by omega) (by omega), bankWrite_keys0 hoff hpending hlo hhi]
    rfl
  · rw [exec_routingBankWrite_of_block (by omega) (by omega), bankWrite_keys1 hoff hpending hlo hhi]
    rfl
  · rw [exec_routingBankWrite_of_block hlo hhi, bankWrite_of_pending hpending]
    rfl
  · exact ⟨_, exec_bankSwitch_switches hpending ht, rfl, rfl, rfl, rfl, fun hreq htransit => holds_changeRoutes_of_none_out hreq htransit⟩

end Sys2Proof.Machine
end

section
/-!
The management controller: package reset and boot, the commands of its block, and hot patches (01 R49 to R53; 03 R79, R103 to R105; 00 R7).
-/
namespace Sys2Proof.Machine

/-! ## What boot leaves alone -/

/-- What every step of boot leaves: the time, HBM, the strands, the strap, the slots' images and the configuration table. -/
structure BootFrame (s u : State) : Prop where
  now : u.now = s.now
  hbm : u.hbm = s.hbm
  strands : u.strands = s.strands
  strapHigh : u.mgmt.strapHigh = s.mgmt.strapHigh
  slotA : u.mgmt.slotA = s.mgmt.slotA
  slotB : u.mgmt.slotB = s.mgmt.slotB
  table : u.mgmt.table = s.mgmt.table

theorem BootFrame.refl (s : State) : BootFrame s s := ⟨rfl, rfl, rfl, rfl, rfl, rfl, rfl⟩

theorem BootFrame.trans {s t u : State} (h : BootFrame s t) (h' : BootFrame t u) : BootFrame s u :=
  ⟨h'.now.trans h.now, h'.hbm.trans h.hbm, h'.strands.trans h.strands, h'.strapHigh.trans h.strapHigh, h'.slotA.trans h.slotA,
    h'.slotB.trans h.slotB, h'.table.trans h.table⟩

theorem BootFrame.foldl {α : Type} {f : State → α → State} (h : ∀ s a, BootFrame s (f s a)) (l : List α) (s : State) :
    BootFrame s (l.foldl f s) :=
  List.foldlRecOn l f (.refl s) (fun u hu a _ => hu.trans (h u a))

theorem bootFrame_securityRecord (s : State) (sub : Nat) : BootFrame s (securityRecord s sub) := ⟨rfl, rfl, rfl, rfl, rfl, rfl, rfl⟩

theorem bootFrame_enterRecovery (s : State) : BootFrame s (enterRecovery s) := ⟨rfl, rfl, rfl, rfl, rfl, rfl, rfl⟩

theorem bootFrame_modDie (s : State) (d : Nat) (f : Die → Die) : BootFrame s (modDie s d f) := ⟨rfl, rfl, rfl, rfl, rfl, rfl, rfl⟩

theorem bootFrame_modCluster (s : State) (c : Nat) (f : Cluster → Cluster) : BootFrame s (modCluster s c f) :=
  ⟨rfl, rfl, rfl, rfl, rfl, rfl, rfl⟩

theorem bootFrame_moveRoles (s : State) (die pos : Nat) : BootFrame s (moveRoles s die pos) := by
  unfold moveRoles
  extract_lets d left s1 bit
  split
  · exact .refl s
  · split
    · have h1 : BootFrame s s1 := (bootFrame_modDie ..).trans (bootFrame_modCluster ..)
      split
      · exact h1.trans (bootFrame_enterRecovery s1)
      · exact h1
    · exact ⟨rfl, rfl, rfl, rfl, rfl, rfl, rfl⟩

theorem bootFrame_chooseColumn (s : State) (t : List Byte) : BootFrame s (chooseColumn s t) :=
  (BootFrame.foldl (fun s d => bootFrame_modDie s d _) _ s).trans
    (BootFrame.foldl (fun s d => BootFrame.foldl (fun s p => bootFrame_moveRoles s d p) _ s) _ _)

theorem bootFrame_lockMesh (s : State) : BootFrame s (lockMesh s) := BootFrame.foldl (fun s c => bootFrame_modCluster s c _) _ s

theorem bootFrame_portTrain (s : State) (p : Fin 36) : BootFrame s (portTrain s p) := by
  unfold portTrain
  extract_lets x
  split
  · exact ⟨rfl, rfl, rfl, rfl, rfl, rfl, rfl⟩
  · exact .refl s

theorem bootFrame_trainPorts (s : State) : BootFrame s (trainPorts s) :=
  BootFrame.foldl (fun s p => by
    split
    · exact bootFrame_portTrain s _
    · exact .refl s) _ s

/-! ## Boot (01 R50) -/

/-- The state in which boot looks for a slot. -/
def bootStart (s : State) : State :=
  modMgmt s (fun m =>
    { m with
      busy := false, patchBusy := false, patches := [], functions := [], patchArea := [], runningTable := m.table
      running := slotImage m m.strapHigh })

/-- Whether a slot's image raises the fused minimum. -/
def bootRaises (m : Management) (b : Bool) : Bool :=
  Config.imageRaises (slotImage m b) && decide (m.fused.toNat < (Config.imageSvn (slotImage m b)).toNat)

/-- The fused minimum once a slot's image has booted. -/
def bootFused (m : Management) (b : Bool) : BitVec 8 := if bootRaises m b then Config.imageSvn (slotImage m b) else m.fused

/-- The state in which boot has loaded a slot's image, and is to check the configuration table. -/
def bootLoaded (s : State) (b : Bool) : State :=
  let s0 := bootStart s
  let s1 := modMgmt s0 (fun m =>
    { m with
      bootSlot := b, running := slotImage s0.mgmt b
      fused := if bootRaises s0.mgmt b then Config.imageSvn (slotImage s0.mgmt b) else m.fused })
  if bootRaises s0.mgmt b then securityRecord s1 6 else s1

/-- The state in which boot has checked the configuration table, and is to choose the column. -/
def bootChecked (s : State) (b : Bool) : State :=
  let img := slotImage (bootStart s).mgmt b
  modMgmt (bootLoaded s b) (fun m => { m with recovery := false, svn := Config.imageSvn img, version := Config.imageVersion img })

theorem mgmt_bootLoaded (s : State) (b : Bool) : (bootLoaded s b).mgmt.bootSlot = b ∧ (bootLoaded s b).mgmt.running = slotImage s.mgmt b ∧
    (bootLoaded s b).mgmt.fused = bootFused s.mgmt b ∧ (bootLoaded s b).mgmt.table = s.mgmt.table := by
  unfold bootLoaded
  extract_lets s0 s1
  split <;> exact ⟨rfl, rfl, rfl, rfl⟩

theorem bootFrame_bootLoaded (s : State) (b : Bool) : BootFrame s (bootLoaded s b) := by
  unfold bootLoaded
  extract_lets s0 s1
  split <;> exact ⟨rfl, rfl, rfl, rfl, rfl, rfl, rfl⟩

theorem getDie_bootChecked (s : State) (b : Bool) (d : Nat) : getDie (bootChecked s b) d = getDie s d := by
  change getDie (bootLoaded s b) d = getDie s d
  unfold bootLoaded
  extract_lets s0 s1
  split <;> rfl

theorem bootFrom2_of_no_slot {s : State} (h : bootSlotOf s.mgmt = none) : bootFrom2 s = enterRecovery (bootStart s) := by
  have h0 : bootSlotOf (bootStart s).mgmt = none := h
  unfold bootFrom2
  extract_lets s0
  split
  · rfl
  · next b hb => exact absurd (h0.symm.trans hb) nofun

theorem bootFrom2_of_slot {s : State} {b : Bool} (h : bootSlotOf s.mgmt = some b) :
    let s2 := bootLoaded s b
    let s4 := chooseColumn (bootChecked s b) s2.mgmt.table
    bootFrom2 s = if !(tableSigned s2.mgmt.table && tableValid s2.mgmt.table s2.mgmt.fused) then enterRecovery s2
      else if s4.mgmt.recovery then s4 else trainPorts (lockMesh s4) := by
  have h0 : bootSlotOf (bootStart s).mgmt = some b := h
  unfold bootFrom2
  extract_lets s2 s4 s0
  split
  · next hb => exact absurd (h0.symm.trans hb) nofun
  · next b' hb =>
    obtain rfl : b = b' := Option.some.inj (h0.symm.trans hb)
    extract_lets img raise s1 s2' s3 s4'
    have h2 : s2' = s2 := rfl
    have h3 : s3 = bootChecked s b := rfl
    have h4 : s4' = s4 := by simp only [s4', s4, h2, h3]
    rw [h4, h2]

theorem bootFrame_bootFrom2 (s : State) : BootFrame s (bootFrom2 s) := by
  cases h : bootSlotOf s.mgmt with
  | none =>
    rw [bootFrom2_of_no_slot h]
    exact ⟨rfl, rfl, rfl, rfl, rfl, rfl, rfl⟩
  | some b =>
    have hloaded := bootFrame_bootLoaded s b
    have hchecked : BootFrame s (bootChecked s b) := hloaded.trans ⟨rfl, rfl, rfl, rfl, rfl, rfl, rfl⟩
    have hchosen := hchecked.trans (bootFrame_chooseColumn _ (bootLoaded s b).mgmt.table)
    rw [bootFrom2_of_slot h]
    split
    · exact hloaded.trans (bootFrame_enterRecovery _)
    · split
      · exact hchosen
      · exact (hchosen.trans (bootFrame_lockMesh _)).trans (bootFrame_trainPorts _)

theorem slotBoots_of_bootSlotOf {m : Management} {b : Bool} (h : bootSlotOf m = some b) : slotBoots m b = true := by
  unfold bootSlotOf at h
  split at h
  · next hstrap => exact Option.some.inj h ▸ hstrap
  · split at h
    · next hother => exact Option.some.inj h ▸ hother
    · cases h

/-- 01 R50: where boot does not end in RECOVERY, a slot has booted. -/
theorem recovery_or_slotBoots (s : State) : (bootFrom2 s).mgmt.recovery = true ∨ slotBoots s.mgmt false = true ∨ slotBoots s.mgmt true = true := by
  cases h : bootSlotOf s.mgmt with
  | none =>
    rw [bootFrom2_of_no_slot h]
    exact .inl rfl
  | some b =>
    right
    cases b with
    | false => exact .inl (slotBoots_of_bootSlotOf h)
    | true => exact .inr (slotBoots_of_bootSlotOf h)

/-! ## A boot that succeeds -/

theorem mgmt_lockMesh (s : State) : (lockMesh s).mgmt = s.mgmt :=
  List.foldlRecOn (motive := fun (u : State) => u.mgmt = s.mgmt) _ _ rfl (fun _ hu _ _ => hu)

theorem mgmt_portTrain (s : State) (p : Fin 36) : (portTrain s p).mgmt = s.mgmt := by
  unfold portTrain
  extract_lets x
  split <;> rfl

theorem mgmt_trainPorts (s : State) : (trainPorts s).mgmt = s.mgmt := by
  refine List.foldlRecOn (motive := fun (u : State) => u.mgmt = s.mgmt) _ _ rfl (fun u hu p _ => ?_)
  split
  · exact (mgmt_portTrain u _).trans hu
  · exact hu

/-- A change of a die that keeps its fenced positions keeps those of all. -/
theorem fenced_modDie {s : State} {d : Nat} {f : Die → Die} (h : (f (getDie s d)).fenced = (getDie s d).fenced) (e : Nat) :
    (getDie (modDie s d f) e).fenced = (getDie s e).fenced := by
  by_cases he : e = d
  · rw [he, getDie_modDie, h]
  · rw [getDie_modDie_ne s f he]

/-- With no position fenced, the column is the table's, and no role moves. -/
theorem mgmt_chooseColumn_of_unfenced {s : State} (h : ∀ d < 8, (getDie s d).fenced = []) (t : List Byte) :
    (chooseColumn s t).mgmt = s.mgmt := by
  unfold chooseColumn
  extract_lets s1
  have hmgmt : s1.mgmt = s.mgmt := List.foldlRecOn (motive := fun (u : State) => u.mgmt = s.mgmt) _ _ rfl (fun _ hu _ _ => hu)
  have hfenced : ∀ d, (getDie s1 d).fenced = (getDie s d).fenced :=
    List.foldlRecOn (motive := fun (u : State) => ∀ d, (getDie u d).fenced = (getDie s d).fenced) _ _ (fun _ => rfl)
      (fun u hu d _ e => (fenced_modDie rfl e).trans (hu e))
  refine (congrArg State.mgmt ?_).trans hmgmt
  refine List.foldlRecOn (motive := fun (u : State) => u = s1) _ _ rfl (fun u hu d hd => ?_)
  rw [hu, hfenced, h d (List.mem_range.mp hd)]
  rfl

/-- 01 R50: the strap's slot boots, under a configuration table that passes, on a package without fenced tiles. -/
theorem bootFrom2_boots {s : State} (hslot : slotBoots s.mgmt s.mgmt.strapHigh = true) (hsigned : tableSigned s.mgmt.table = true)
    (hvalid : tableValid s.mgmt.table (bootFused s.mgmt s.mgmt.strapHigh) = true) (hfenced : ∀ d < 8, (getDie s d).fenced = []) :
    (bootFrom2 s).mgmt = (bootChecked s s.mgmt.strapHigh).mgmt := by
  have hboot : bootSlotOf s.mgmt = some s.mgmt.strapHigh := if_pos hslot
  obtain ⟨-, -, hfused, htable⟩ := mgmt_bootLoaded s s.mgmt.strapHigh
  have hchosen : (chooseColumn (bootChecked s s.mgmt.strapHigh) (bootLoaded s s.mgmt.strapHigh).mgmt.table).mgmt = (bootChecked s s.mgmt.strapHigh).mgmt :=
    mgmt_chooseColumn_of_unfenced (fun d hd => by rw [getDie_bootChecked, hfenced d hd]) _
  have hok : ¬(chooseColumn (bootChecked s s.mgmt.strapHigh) (bootLoaded s s.mgmt.strapHigh).mgmt.table).mgmt.recovery = true := by
    rw [hchosen]
    exact Bool.false_ne_true
  rw [bootFrom2_of_slot hboot, if_neg (by simp [hfused, htable, hsigned, hvalid]), if_neg hok, mgmt_trainPorts, mgmt_lockMesh, hchosen]

end Sys2Proof.Machine
end

section
/-!
The steps of the management controller: PACKAGE_RESET, CHUNK, COMMIT, ABORT, ATTEST, REBOOT and hot patches (01 R49 to R53; 03 R103 to R105).
-/
namespace Sys2Proof.Machine

/-! ## Package reset (01 R50) -/

theorem smap_get_map {α : Type} (m : SMap α) (g : α → α) (d : α) (k : Nat) :
    SMap.get (m.map (fun e => (e.1, g e.2))) (g d) k = g (m.get d k) := by
  induction m with
  | nil => rfl
  | cons e rest ih =>
    obtain ⟨j, v⟩ := e
    simp only [List.map_cons, SMap.get, ih]
    exact (apply_ite g _ _ _).symm

/-- A record that is written changes the log and its sequence number, and what the host has of it. -/
theorem recordOut_eq (s : State) (r : Fresh) : ∃ log bus host, recordOut s r =
    { s with mgmt := { s.mgmt with log := log, sequence := s.mgmt.sequence + 1 }, busOut := bus, host := host } := by
  unfold recordOut
  extract_lets h full toRing bytes log mgmt
  split
  · exact ⟨_, _, _, rfl⟩
  · exact ⟨_, s.busOut, _, rfl⟩

/-- Writing records changes only the log, its sequence number and the error ring. -/
theorem allRecordsOut_keeps (s : State) : (allRecordsOut s).dies = s.dies ∧ (allRecordsOut s).mgmt.fused = s.mgmt.fused ∧
    (allRecordsOut s).mgmt.slotA = s.mgmt.slotA ∧ (allRecordsOut s).mgmt.slotB = s.mgmt.slotB ∧ (allRecordsOut s).mgmt.table = s.mgmt.table := by
  refine List.foldlRecOn (motive := fun (u : State) => u.dies = s.dies ∧ u.mgmt.fused = s.mgmt.fused ∧ u.mgmt.slotA = s.mgmt.slotA ∧
    u.mgmt.slotB = s.mgmt.slotB ∧ u.mgmt.table = s.mgmt.table) _ _ ⟨rfl, rfl, rfl, rfl, rfl⟩ (fun u hu r _ => ?_)
  obtain ⟨log, bus, host, hout⟩ := recordOut_eq u r
  rw [hout]
  exact hu

/-- What a package reset keeps of a die. -/
def resetDie (d : Die) : Die := { moved := d.moved, fenced := d.fenced, sparesUsed := d.sparesUsed }

section
variable (s : State) (strap : Bool)

theorem mgmt_resetPackage : (resetPackage s strap).mgmt.strapHigh = strap ∧ (resetPackage s strap).mgmt.fused = s.mgmt.fused ∧
    (resetPackage s strap).mgmt.slotA = s.mgmt.slotA ∧ (resetPackage s strap).mgmt.slotB = s.mgmt.slotB ∧
    (resetPackage s strap).mgmt.table = s.mgmt.table :=
  ⟨rfl, (allRecordsOut_keeps s).2⟩

theorem getDie_resetPackage (d : Nat) : getDie (resetPackage s strap) d = resetDie (getDie s d) := by
  have hdies : (resetPackage s strap).dies = s.dies.map (fun d => (d.1, resetDie d.2)) :=
    congrArg (List.map (fun d : Nat × Die => (d.1, resetDie d.2))) (allRecordsOut_keeps s).1
  rw [getDie, hdies]
  exact smap_get_map s.dies resetDie {} d

theorem slotImage_resetPackage (b : Bool) : slotImage (resetPackage s strap).mgmt b = slotImage s.mgmt b := by
  obtain ⟨-, -, ha, hb, -⟩ := mgmt_resetPackage s strap
  simp only [slotImage, ha, hb]

theorem slotBoots_resetPackage (b : Bool) : slotBoots (resetPackage s strap).mgmt b = slotBoots s.mgmt b := by
  obtain ⟨-, hfused, -⟩ := mgmt_resetPackage s strap
  simp only [slotBoots, slotImage_resetPackage, hfused]

theorem bootFused_resetPackage (b : Bool) : bootFused (resetPackage s strap).mgmt b =
    if Config.imageRaises (slotImage s.mgmt b) = true ∧ s.mgmt.fused.toNat < (Config.imageSvn (slotImage s.mgmt b)).toNat
    then Config.imageSvn (slotImage s.mgmt b) else s.mgmt.fused := by
  obtain ⟨-, hfused, -⟩ := mgmt_resetPackage s strap
  simp [bootFused, bootRaises, slotImage_resetPackage, hfused]

/-- PACKAGE_RESET ends in boot's frame of the package that has just been reset. -/
theorem exec_packageReset_frame : ∃ u, exec (.packageReset strap) s = .next u ∧ BootFrame (resetPackage s strap) u ∧
    (u.mgmt.recovery = true ∨ (Config.controllerOk = true ∧ (slotBoots s.mgmt false = true ∨ slotBoots s.mgmt true = true))) := by
  simp only [exec_packageReset, execPackageReset, event]
  refine ⟨_, rfl, ?_⟩
  split
  · next hok =>
    have hboots := recovery_or_slotBoots (resetPackage s strap)
    rw [slotBoots_resetPackage, slotBoots_resetPackage] at hboots
    exact ⟨bootFrame_bootFrom2 _, hboots.imp_right (And.intro hok)⟩
  · exact ⟨⟨rfl, rfl, rfl, rfl, rfl, rfl, rfl⟩, .inl rfl⟩

variable {s strap}

theorem exec_packageReset_boots (hok : Config.controllerOk = true) (hslot : slotBoots s.mgmt strap = true)
    (hsigned : tableSigned s.mgmt.table = true) (hfenced : ∀ d < 8, (getDie s d).fenced = [])
    (hvalid : tableValid s.mgmt.table (bootFused (resetPackage s strap).mgmt strap) = true) :
    ∃ u, exec (.packageReset strap) s = .next u ∧ u.mgmt = (bootChecked (resetPackage s strap) strap).mgmt := by
  obtain ⟨hstrap, -, -, -, htable⟩ := mgmt_resetPackage s strap
  refine ⟨bootFrom2 (resetPackage s strap), by simp [exec_packageReset, execPackageReset, event, hok], ?_⟩
  have hboots := bootFrom2_boots (s := resetPackage s strap) (by rw [hstrap, slotBoots_resetPackage, hslot]) (by rw [htable, hsigned])
    (by rw [hstrap, htable, hvalid]) (fun d hd => by rw [getDie_resetPackage]; exact hfenced d hd)
  rwa [hstrap] at hboots

end

/-! ## Commands of the management block (01 R51) -/

theorem mgmtCommand_of_busy {s : State} {f : State → State} (h : s.mgmt.busy = true) : mgmtCommand s f = s := if_pos h

theorem mgmtCommand_of_idle {s : State} {f : State → State} (h : s.mgmt.busy = false) : mgmtCommand s f = f s :=
  if_neg (h ▸ Bool.false_ne_true)

theorem exec_command_of_busy {s : State} {cmd : Word} {mctp : Option (List Byte)} (h : s.mgmt.busy = true) :
    ∀ i ∈ [Instr.chunk cmd mctp, .commit cmd, .attest mctp, .reboot, .abort], exec i s = .next s := by
  simp [exec_chunk, exec_commit, exec_attest, exec_reboot, exec_abort, execChunk, execCommit, execAttest, execReboot, execAbort, event,
    mgmtCommand_of_busy h]

/-! ## CHUNK -/

theorem padTo_of_length {n : Nat} {bs : List Byte} (h : bs.length = n) : padTo n bs = bs := by
  simp [padTo, h]

/-- A chunk that starts at the end of the image is appended to it. -/
theorem patch_padTo_append (l new : List Byte) :
    Sys2Proof.Machine.patch (padTo (max l.length (l.length + new.length)) l) l.length new = l ++ new := by
  simp [Sys2Proof.Machine.patch, padTo, List.take_of_length_le]

/-- The state once a chunk of `data` has been taken at `off`. -/
def chunkTaken (s : State) (t off len : Nat) (data : List Byte) : State :=
  mgmtResult (modMgmt s (fun m =>
    { m with
      target := some (BitVec.ofNat 4 t)
      image := Sys2Proof.Machine.patch (padTo (max m.image.length (off + len)) m.image) off data
      offset := BitVec.ofNat 64 (off + len) })) 0

theorem chunk_command_ok {t len : Nat} (ht3 : t ≤ 3) (hpos : 0 < len) (hmax : len ≤ 4 * 2 ^ 20) : (decide (3 < t) || decide (len = 0) || decide (4 * 2 ^ 20 < len)) = false := by
  simp only [Bool.or_eq_false_iff, decide_eq_false_iff_not]
  omega

section
variable {s : State} {cmd : Word} {mctp : Option (List Byte)} {t len : Nat} (hbusy : s.mgmt.busy = false)
  (ht : bits cmd.toNat 59 56 = t) (hlen : bits cmd.toNat 31 0 = len)
include hbusy ht hlen

theorem exec_chunk_of_bad_command (h : 3 < t ∨ len = 0 ∨ 4 * 2 ^ 20 < len) : exec (.chunk cmd mctp) s = .next (mgmtResult s 4) := by
  have hbad : (decide (3 < t) || decide (len = 0) || decide (4 * 2 ^ 20 < len)) = true := by simpa [or_assoc] using h
  simp only [exec_chunk, execChunk, event, mgmtCommand_of_idle hbusy, ht, hlen, hbad, if_true]

variable (ht3 : t ≤ 3) (hpos : 0 < len) (hmax : len ≤ 4 * 2 ^ 20)
include ht3 hpos hmax

theorem exec_chunk_of_new_target_and_offset (htarget : s.mgmt.target ≠ some (BitVec.ofNat 4 t)) (hoffset : s.mgmt.offset ≠ 0) :
    exec (.chunk cmd mctp) s = .next (mgmtResult (discardImage s) 6) := by
  have hoff : s.mgmt.offset.toNat ≠ 0 := fun h0 => hoffset (BitVec.eq_of_toNat_eq h0)
  simp only [exec_chunk, execChunk, event, mgmtCommand_of_idle hbusy, ht, hlen, chunk_command_ok ht3 hpos hmax]
  simp [htarget, hoff]

theorem exec_chunk_past_limit (htarget : s.mgmt.target = some (BitVec.ofNat 4 t)) (hlimit : imageLimit t < s.mgmt.offset.toNat + len) :
    exec (.chunk cmd mctp) s = .next (mgmtResult s 7) := by
  simp only [exec_chunk, execChunk, event, mgmtCommand_of_idle hbusy, ht, hlen, chunk_command_ok ht3 hpos hmax]
  simp [htarget, hlimit]

variable {data : List Byte} (hdata : data.length = len)
include hdata

theorem exec_chunk_continues (htarget : s.mgmt.target = some (BitVec.ofNat 4 t)) (hlimit : s.mgmt.offset.toNat + len ≤ imageLimit t) :
    exec (.chunk cmd (some data)) s = .next (chunkTaken s t s.mgmt.offset.toNat len data) := by
  simp only [exec_chunk, execChunk, event, mgmtCommand_of_idle hbusy, ht, hlen, chunk_command_ok ht3 hpos hmax]
  simp [htarget, hlimit.not_gt, padTo_of_length hdata, chunkTaken]

theorem exec_chunk_begins (htarget : s.mgmt.target ≠ some (BitVec.ofNat 4 t)) (hoffset : s.mgmt.offset = 0) (hlimit : len ≤ imageLimit t) :
    exec (.chunk cmd (some data)) s = .next (chunkTaken (discardImage s) t 0 len data) := by
  simp only [exec_chunk, execChunk, event, mgmtCommand_of_idle hbusy, ht, hlen, chunk_command_ok ht3 hpos hmax]
  simp [htarget, hoffset, hlimit.not_gt, padTo_of_length hdata, chunkTaken]

end

section
variable {s : State} {t len : Nat} {data : List Byte} (hdata : data.length = len)
include hdata

/-- What a chunk that continues an image makes of it. -/
theorem image_chunkTaken (h : s.mgmt.offset.toNat = s.mgmt.image.length) :
    (chunkTaken s t s.mgmt.offset.toNat len data).mgmt.image = s.mgmt.image ++ data := by
  rw [h, ← hdata]
  exact patch_padTo_append s.mgmt.image data

theorem image_chunkTaken_first : (chunkTaken (discardImage s) t 0 len data).mgmt.image = data := by
  have himage := patch_padTo_append [] data
  rw [List.length_nil, List.nil_append] at himage
  rw [← hdata]
  exact himage

end

theorem offset_chunkTaken (s : State) (t len : Nat) (data : List Byte) :
    (chunkTaken s t s.mgmt.offset.toNat len data).mgmt.offset = s.mgmt.offset + BitVec.ofNat 64 len := by
  change BitVec.ofNat 64 (s.mgmt.offset.toNat + len) = _
  rw [BitVec.ofNat_add, BitVec.ofNat_toNat, BitVec.setWidth_eq]

/-! ## COMMIT -/

/-- The image that a command for a target commits: the one under assembly, if it is for that target. -/
def sentImage (m : Management) (t : Nat) : List Byte := if m.target = some (BitVec.ofNat 4 t) then m.image else []

/-- The check that an image for slot A or B, or a configuration table, is to pass. -/
def commitCheck (m : Management) (t : Nat) : Nat := if t = 2 then checkTable m (sentImage m t) else checkFirmware m (sentImage m t)

section
variable {s : State} {cmd : Word} {t : Nat} (hbusy : s.mgmt.busy = false) (ht : bits cmd.toNat 59 56 = t)
include hbusy ht

theorem exec_commit_of_idle : exec (.commit cmd) s = .next (
    if 3 < t then securityRecord (mgmtResult (discardImage s) 4) 3
    else if t = 3 then commitPatch (discardImage s) (sentImage s.mgmt t)
    else if !(commitCheck s.mgmt t = 0) then securityRecord (mgmtResult (discardImage s) (commitCheck s.mgmt t)) 3
    else securityRecord (mgmtResult (modMgmt (discardImage s) (fun m =>
      { m with
        slotA := if t = 0 then sentImage s.mgmt t else m.slotA
        slotB := if t = 1 then sentImage s.mgmt t else m.slotB
        table := if t = 2 then sentImage s.mgmt t else m.table })) 0) 2) := by
  have hsent : (if s.mgmt.target == some (BitVec.ofNat 4 t) then s.mgmt.image else []) = sentImage s.mgmt t := by
    simp [sentImage]
  simp only [exec_commit, execCommit, event, mgmtCommand_of_idle hbusy, ht, hsent]
  rfl

theorem exec_commit_of_bad_target (h : 3 < t) : exec (.commit cmd) s = .next (securityRecord (mgmtResult (discardImage s) 4) 3) := by
  rw [exec_commit_of_idle hbusy ht, if_pos h]

theorem exec_commit_refused (h : t ≤ 2) (hcheck : commitCheck s.mgmt t ≠ 0) :
    exec (.commit cmd) s = .next (securityRecord (mgmtResult (discardImage s) (commitCheck s.mgmt t)) 3) := by
  rw [exec_commit_of_idle hbusy ht, if_neg (by omega), if_neg (by omega), if_pos (by simp [hcheck])]

theorem exec_commit_taken (h : t ≤ 2) (hcheck : commitCheck s.mgmt t = 0) : ∃ u, exec (.commit cmd) s = .next u ∧
    u.mgmt.target = none ∧ u.mgmt.image = [] ∧ u.mgmt.result = 0 ∧ u.mgmt.slotA = (if t = 0 then sentImage s.mgmt t else s.mgmt.slotA) ∧
    u.mgmt.slotB = (if t = 1 then sentImage s.mgmt t else s.mgmt.slotB) ∧ u.mgmt.table = (if t = 2 then sentImage s.mgmt t else s.mgmt.table) := by
  rw [exec_commit_of_idle hbusy ht, if_neg (by omega), if_neg (by omega), if_neg (by simp [hcheck])]
  exact ⟨_, rfl, rfl, rfl, rfl, rfl, rfl, rfl⟩

variable (h3 : t = 3)
include h3

theorem exec_commit_patch : exec (.commit cmd) s = .next (commitPatch (discardImage s) (sentImage s.mgmt t)) := by
  rw [exec_commit_of_idle hbusy ht, if_neg (by omega), if_pos h3]

theorem exec_commit_patch_of_recovery (hrec : s.mgmt.recovery = true) :
    exec (.commit cmd) s = .next (securityRecord (mgmtResult (discardImage s) 6) 5) := by
  have hrec' : (discardImage s).mgmt.recovery = true := hrec
  rw [exec_commit_patch hbusy ht h3, commitPatch, if_pos hrec']

variable (hrec : s.mgmt.recovery = false)
include hrec

theorem exec_commit_patch_refused (hcheck : checkPatch s.mgmt (sentImage s.mgmt t) ≠ 0) :
    exec (.commit cmd) s = .next (patchEnds (discardImage s) (checkPatch s.mgmt (sentImage s.mgmt t))) := by
  have hrec' : (discardImage s).mgmt.recovery = false := hrec
  have hcheck' : checkPatch (discardImage s).mgmt (sentImage s.mgmt t) = checkPatch s.mgmt (sentImage s.mgmt t) := rfl
  rw [exec_commit_patch hbusy ht h3]
  simp [commitPatch, hrec', hcheck', hcheck]

theorem exec_commit_patch_taken (hcheck : checkPatch s.mgmt (sentImage s.mgmt t) = 0) : ∃ u, exec (.commit cmd) s = .next u ∧
    u.mgmt.busy = true ∧ u.mgmt.patchBusy = true ∧ u.mgmt.patch = sentImage s.mgmt t ∧ u.mgmt.patchTick = s.now ∧ .hotPatchApply ∈ u.agenda := by
  have hrec' : (discardImage s).mgmt.recovery = false := hrec
  have hcheck' : checkPatch (discardImage s).mgmt (sentImage s.mgmt t) = 0 := hcheck
  refine ⟨commitPatch (discardImage s) (sentImage s.mgmt t), exec_commit_patch hbusy ht h3, ?_⟩
  simp only [commitPatch, hrec', hcheck', Bool.false_eq_true, if_false, decide_true, Bool.not_true]
  exact ⟨rfl, rfl, rfl, rfl, List.mem_append_right _ (List.mem_cons_self ..)⟩

end

/-! ## ABORT, ATTEST and REBOOT (01 R51 to R53) -/

section
variable {s : State} (hbusy : s.mgmt.busy = false)
include hbusy

theorem exec_abort_of_idle : exec .abort s = .next { s with mgmt := { s.mgmt with target := none, image := [], result := 0 } } :=
  congrArg Host.Outcome.next (mgmtCommand_of_idle hbusy)

theorem exec_attest_by_message (nonce : List Byte) : exec (.attest (some nonce)) s = .next
    { s with mgmt := { s.mgmt with reports := s.mgmt.reports ++ [attestation s.mgmt nonce], result := 0 } } :=
  congrArg Host.Outcome.next (mgmtCommand_of_idle hbusy)

theorem exec_attest_by_staging : exec (.attest none) s = .next { s with mgmt :=
    { s.mgmt with staging := memWrite s.mgmt.staging 0 (attestation s.mgmt (memRead s.mgmt.staging 0 64)), length := 404, result := 0 } } := by
  simp only [exec_attest, execAttest, event, mgmtCommand_of_idle hbusy, mgmtResult, modMgmt, BitVec.ofNat_eq_ofNat]

theorem exec_reboot_of_idle : exec .reboot s = .next (bootFrom2 ((List.range (partCount s)).foldl (fun s p => resetPartition s p [])
    (dropHostPort (securityRecord (mgmtResult s 0) 7)))) :=
  congrArg Host.Outcome.next (mgmtCommand_of_idle hbusy)

end

/-! ## Hot patches (03 R105) -/

section
variable {s : State}

theorem exec_patch_of_idle (h : s.mgmt.patchBusy = false) : exec .hotPatchApply s = .next s ∧ exec .patchTimeout s = .next s := by
  simp [exec_hotPatchApply, exec_patchTimeout, execHotPatchApply, execPatchTimeout, event, h]

variable (hbusy : s.mgmt.patchBusy = true)
include hbusy

theorem exec_patch_of_late (h : s.mgmt.patchTick + 1000000 < s.now) :
    exec .hotPatchApply s = .next (patchEnds s 3) ∧ exec .patchTimeout s = .next (patchEnds s 3) := by
  simp [exec_hotPatchApply, exec_patchTimeout, execHotPatchApply, execPatchTimeout, event, hbusy, h, h.not_ge]

variable (htime : s.now ≤ s.mgmt.patchTick + 1000000)
include htime

theorem exec_patchTimeout_waits : exec .patchTimeout s = .next (later s [.patchTimeout]) := by
  simp [exec_patchTimeout, execPatchTimeout, event, hbusy, htime]

theorem exec_hotPatchApply_waits (hlists : fieldAt s.mgmt.patch 12 1 ≠ 0) (hin : Config.freeTurn s.free = true) :
    exec .hotPatchApply s = .next (later { s with free := s.free + 1 } [.hotPatchApply]) := by
  simp [exec_hotPatchApply, execHotPatchApply, event, hbusy, htime.not_gt, hlists, hin]

theorem exec_hotPatchApply_applies (h : fieldAt s.mgmt.patch 12 1 = 0 ∨ Config.freeTurn s.free = false) :
    ∃ u, exec .hotPatchApply s = .next u ∧ u.mgmt.patchBusy = false ∧ u.mgmt.patchResult = 0 ∧
      u.mgmt.version = BitVec.ofNat 32 (fieldAt s.mgmt.patch 8 4) ∧ u.mgmt.patches = s.mgmt.patches ++ [digestOf s.mgmt.patch] := by
  have hgo : (!decide (fieldAt s.mgmt.patch 12 1 = 0) && Config.freeTurn s.free) = false := by
    rcases h with h | h <;> simp [h]
  simp only [exec_hotPatchApply, execHotPatchApply, event, hbusy, if_neg htime.not_gt, hgo, Bool.not_true, Bool.false_eq_true, if_false]
  exact ⟨_, rfl, rfl, rfl, rfl, rfl⟩

end

/-- Settles O51: reset and boot by their frame and by the boot that succeeds, then the commands one by one. -/
theorem theControllerBootsAndCommits : Obligations.TheControllerBootsAndCommits := by
  unfold Obligations.TheControllerBootsAndCommits
  intro s strap cmd mctp nonce m t len img fused sent check
  refine ⟨?_, fun hok hslot hsigned hvalid hfenced => ?_, exec_command_of_busy, fun hbusy => ⟨exec_chunk_of_bad_command hbusy rfl rfl,
      fun ht hpos hmax => ⟨exec_chunk_of_new_target_and_offset hbusy rfl rfl ht hpos hmax, exec_chunk_past_limit hbusy rfl rfl ht hpos hmax,
        fun htarget hoff hlimit hdata => ?_, fun htarget hoff hlimit hdata => ?_⟩,
      exec_commit_of_bad_target hbusy rfl, exec_commit_refused hbusy rfl, exec_commit_taken hbusy rfl, exec_commit_patch_of_recovery hbusy rfl,
      exec_commit_patch_refused hbusy rfl, exec_commit_patch_taken hbusy rfl, exec_abort_of_idle hbusy, exec_attest_by_message hbusy nonce,
      exec_attest_by_staging hbusy, exec_reboot_of_idle hbusy⟩,
    exec_patch_of_idle, fun hbusy hlate => ?_,
    fun hbusy htime => ⟨exec_patchTimeout_waits hbusy htime, exec_hotPatchApply_waits hbusy htime, exec_hotPatchApply_applies hbusy htime⟩⟩
  · obtain ⟨u, hu, hframe, hboots⟩ := exec_packageReset_frame s strap
    obtain ⟨hstrap, -, ha, hb, htable⟩ := mgmt_resetPackage s strap
    exact ⟨u, hu, hframe.strapHigh.trans hstrap, hframe.slotA.trans ha, hframe.slotB.trans hb, hframe.table.trans htable, hframe.now,
      hframe.hbm, hframe.strands, hboots⟩
  · have hfused := bootFused_resetPackage s strap strap
    obtain ⟨u, hu, hmgmt⟩ := exec_packageReset_boots hok hslot hsigned hfenced (hfused ▸ hvalid)
    obtain ⟨hbootSlot, hrunning, hraised, -⟩ := mgmt_bootLoaded (resetPackage s strap) strap
    have himg := slotImage_resetPackage s strap strap
    refine ⟨u, hu, ?_⟩
    rw [hmgmt]
    exact ⟨rfl, hbootSlot, hrunning.trans himg, congrArg Config.imageSvn himg, hraised.trans hfused⟩
  · have hroom := (Nat.add_le_add_right hoff.le len).trans hlimit
    exact ⟨_, exec_chunk_continues hbusy rfl rfl ht hpos hmax hdata htarget hroom, image_chunkTaken hdata hoff, rfl,
      offset_chunkTaken s t len nonce⟩
  · exact ⟨_, exec_chunk_begins hbusy rfl rfl ht hpos hmax hdata htarget hoff hlimit, image_chunkTaken_first hdata, rfl, rfl,
      congrArg (BitVec.ofNat 64) (Nat.zero_add len)⟩
  · obtain ⟨happly, htimeout⟩ := exec_patch_of_late hbusy hlate
    exact ⟨happly, htimeout, rfl, rfl, rfl⟩

end Sys2Proof.Machine
end

section
/-!
What a depot's service leaves of the queues: snoops, invalidations and write-backs send packets and change lines, sectors and directory
entries, and no queue's run time (06 R185, R186; 02 R63).
-/
namespace Sys2Proof.Machine

/-! ## Packets that leave -/

theorem queues_foldl {α : Type} {f : State → α → State} (h : ∀ u a, (f u a).queues = u.queues) (l : List α) (s : State) :
    (l.foldl f s).queues = s.queues :=
  List.foldlRecOn l f (motive := fun u => u.queues = s.queues) rfl (fun u hu a _ => (h u a).trans hu)

@[simp] theorem queues_putFlit (s : State) (p cls off : Nat) (bs : List Byte) : (putFlit s p cls off bs).queues = s.queues := by
  unfold putFlit
  extract_lets port f s1 s2
  split
  · exact later_queues ..
  · rfl

@[simp] theorem queues_sendFlit (s : State) (p cls off : Nat) (bs : List Byte) : (sendFlit s p cls off bs).queues = s.queues := by
  unfold sendFlit
  extract_lets port
  split
  · exact queues_putFlit ..
  · rfl

@[simp] theorem queues_noteSent (s : State) (p : Nat) (pk : Packet) : (noteSent s p pk).queues = s.queues := by
  unfold noteSent
  repeat' split
  all_goals rfl

@[simp] theorem queues_sendFrom (s : State) (p : Nat) (pk : Packet) : (sendFrom s p pk).queues = s.queues := by
  unfold sendFrom
  extract_lets s1 cls
  have hs1 : s1.queues = s.queues := queues_noteSent ..
  exact List.foldlRecOn (pieces 20 (packetBytes pk)) _ (motive := fun acc : State × Bool => acc.1.queues = s.queues) hs1
    (fun acc hacc bs _ => (queues_sendFlit ..).trans hacc)

@[simp] theorem queues_sendPacket (s : State) (pk : Packet) : (sendPacket s pk).queues = s.queues := by
  unfold sendPacket
  extract_lets dest live
  split
  · split
    · exact queues_sendFrom ..
    · rfl
  · split
    · rfl
    · split
      · exact queues_sendFrom ..
      · rfl

@[simp] theorem queues_sendRequest (s : State) (dev : Nat) (agent : Option Agent) (kind : ReqKind) (addr : Word) (ctx : BitVec 32) (op : Nat)
    (body : List Byte) : (sendRequest s dev agent kind addr ctx op body).1.queues = s.queues :=
  queues_sendPacket ..

/-! ## The directory and its snoops -/

@[simp] theorem queues_acknowledge (s : State) (p : Packet) (reqWord : List Byte) (status sub code value : Nat) :
    (acknowledge s p reqWord status sub code value).queues = s.queues :=
  queues_sendPacket ..

@[simp] theorem queues_poisonWaiting (s : State) (ps : List Packet) : (poisonWaiting s ps).queues = s.queues :=
  queues_foldl (fun _ _ => queues_acknowledge ..) ps s

@[simp] theorem queues_makeDerelict (s : State) (g owner : Nat) : (makeDerelict s g owner).queues = s.queues := by
  unfold makeDerelict
  extract_lets d s1 s2 s3 s4
  split
  · rfl
  · exact queues_poisonWaiting ..

@[simp] theorem queues_markRun (s : State) (run : BitVec 32) (r : Run) (g : Nat) (tag : BitVec 32) : (markRun s run r g tag).queues = s.queues := by
  unfold markRun
  split
  · rfl
  · refine queues_foldl (fun u e => ?_) r.armed s
    repeat' split
    all_goals rfl

@[simp] theorem queues_markMaps (s : State) (g : Nat) (tag : BitVec 32) : (markMaps s g tag).queues = s.queues :=
  queues_foldl (fun _ _ => queues_markRun ..) s.runs s

@[simp] theorem queues_writeSector (s : State) (g : Nat) (key : BitVec 8) (v : Vec) : (writeSector s g key v).queues = s.queues := by
  simp only [writeSector, modSector]

@[simp] theorem queues_writeBack (s : State) (l : L2Line) : (writeBack s l).queues = s.queues := by
  unfold writeBack
  extract_lets g s1
  split
  · rfl
  · rw [queues_foldl (fun u tag => queues_markMaps u g tag)]
    split
    · simp only [s1, modSector, queues_writeSector]
    · exact queues_writeSector ..

/-- The state that a depot's service leaves. -/
def Served.state {α : Type} (r : Served α) : State :=
  match r with
  | .ok _ s => s
  | .bad _ _ s => s
  | .busy s => s

@[simp] theorem queues_snoopLocal (s : State) (g c : Nat) : (snoopLocal s g c).state.queues = s.queues := by
  unfold snoopLocal
  split
  · rfl
  · split
    · exact queues_writeBack ..
    · exact queues_makeDerelict ..

@[simp] theorem queues_snoopRemote (s : State) (g dev : Nat) : (snoopRemote s g dev).state.queues = s.queues :=
  queues_sendRequest ..

@[simp] theorem queues_settle (s : State) (g : Nat) (keep : Option Nat) : (settle s g keep).state.queues = s.queues := by
  unfold settle
  extract_lets d
  split
  · rfl
  · split
    · rfl
    · split
      · exact queues_snoopRemote ..
      · split
        · split
          · split
            · rfl
            · exact queues_snoopLocal ..
          · rfl
        · rfl

@[simp] theorem queues_slotReady (s : State) (since slot : Nat) : (slotReady s since slot).state.queues = s.queues := by
  unfold slotReady
  extract_lets va held
  have hheld : ∀ g, (held g).state.queues = s.queues := by
    intro g
    have hsettle := queues_settle s g none
    simp only [held]
    split <;> next hs => simpa [hs, Served.state] using hsettle
  split
  · split
    · exact hheld _
    · rfl
  · split <;> rfl
  · exact hheld _
  · rfl

end Sys2Proof.Machine
end

section
/-!
The queue table and the run time of its queues: when an operation on slots goes on, what each update of a queue leaves of the others, and
what a drain of other queues leaves of a queue without packets (02 R63, R68, R75).
-/
namespace Sys2Proof.Machine

/-! ## Operations on slots of the table (02 R63) -/

theorem eq_with_tableWaits_nil {s : State} (h : s.host.tableWaits = []) : { s with host := { s.host with tableWaits := [] } } = s := by
  rw [← h]

section
variable {s : State} {i : Instr} {f : State → State}

theorem whenTable_of_disabled {ready : Nat → Served Unit} (h : s.host.qhEn = false) : whenTable s i ready f = f s := by
  simp [whenTable, h]

theorem whenTable_of_ready {ready : Nat → Served Unit} (hw : s.host.tableWaits = []) (hr : ready s.now = .ok () s) :
    whenTable s i ready f = f s := by
  cases hen : s.host.qhEn with
  | false => exact whenTable_of_disabled hen
  | true =>
    have hopen : ¬(!s.host.qhEn) = true := by simp [hen]
    simp only [whenTable, if_neg hopen, hw, List.find?_nil, Option.map_none, Option.getD_none, List.filter_nil, hr, eq_with_tableWaits_nil hw]

theorem whenTable_of_busy {ready : Nat → Served Unit} {s1 : State} (hen : s.host.qhEn = true) (hw : s.host.tableWaits = [])
    (hr : ready s.now = .busy s1) :
    whenTable s i ready f = later { s1 with host := { s1.host with tableWaits := [(i, s.now)] } } [i] := by
  simp [whenTable, hen, hw, hr]

/-- A slot can be read at once, or the table is disabled and an operation on the slot does not read it. -/
def SlotReadable (s : State) (slot : Nat) : Prop :=
  s.host.qhEn = false ∨ (s.host.tableWaits = [] ∧ slotReady s s.now slot = .ok () s)

theorem whenSlot_of_readable {slot : Nat} (h : SlotReadable s slot) : whenSlot s i slot f = f s := by
  rcases h with hen | ⟨hw, hr⟩
  · exact whenTable_of_disabled hen
  · exact whenTable_of_ready hw hr

/-- The slots that a lookup of a key reads can be read at once. -/
def KeyReadable (s : State) (key : Nat) : Prop := s.host.tableWaits = [] ∧ probeReady s s.now key (probeSlots s key) = .ok () s

theorem whenReady_of_readable {key : Nat} (h : KeyReadable s key) : whenReady s i key f = f s :=
  whenTable_of_ready h.1 h.2

theorem lookupQueue_of_disabled {key : Nat} (h : s.host.qhEn = false) : lookupQueue s key = none := by
  simp [lookupQueue, h]

end

/-! ## Run time of the queues -/

theorem smap_get_del_ne {α : Type} (m : SMap α) (d : α) {k j : Nat} (hj : j ≠ k) : (m.del k).get d j = m.get d j := by
  induction m with
  | nil => rfl
  | cons e rest ih =>
    obtain ⟨k', v⟩ := e
    simp only [SMap.del] at ih
    by_cases hk : k' = k
    · subst hk
      simp [SMap.del, SMap.get, ih, Ne.symm hj]
    · simp [SMap.del, SMap.get, hk, ih]

theorem getQueue_of_queues_eq {s u : State} (h : u.queues = s.queues) (k : Nat) : getQueue u k = getQueue s k := by
  rw [getQueue, getQueue, h]

@[simp] theorem getQueue_modQueue (s : State) (slot : Nat) (f : QueueRun → QueueRun) : getQueue (modQueue s slot f) slot = f (getQueue s slot) := by
  simp [getQueue, modQueue]

theorem getQueue_packetDone_ne (s : State) (seq : Nat) (f : PacketRun → PacketRun) {d k : Nat} (h : k ≠ d) :
    getQueue (packetDone s d seq f) k = getQueue s k := by
  simp [getQueue, packetDone, smap_get_set_ne _ _ _ h]

@[simp] theorem queues_physWriteKey (s : State) (pa : Nat) (key : BitVec 8) (bs : List Byte) : (physWriteKey s pa key bs).queues = s.queues := by
  rw [physWriteKey, physWrite, queues_foldl, queues_foldl] <;> exact fun _ _ => rfl

@[simp] theorem queues_qcbWrite (s : State) (slot : Nat) (b : List Byte) : (qcbWrite s slot b).queues = s.queues := by
  unfold qcbWrite
  split
  · exact queues_physWriteKey ..
  · rfl

theorem getQueue_tombQueue_ne (s : State) {d k : Nat} (h : k ≠ d) : getQueue (tombQueue s d) k = getQueue s k := by
  simp [getQueue, tombQueue, smap_get_del_ne _ _ h]

/-- An operation on a slot leaves of a queue what the operation itself leaves: waiting for the slot changes no queue. -/
theorem getQueue_whenSlot {s : State} {i : Instr} {slot k : Nat} {f : State → State} (hf : ∀ u, getQueue (f u) k = getQueue u k) :
    getQueue (whenSlot s i slot f) k = getQueue s k := by
  unfold whenSlot whenTable
  extract_lets since left
  split
  · exact hf s
  · have hsame := getQueue_of_queues_eq (queues_slotReady s since slot) k
    split <;> rename_i hready <;> rw [show slotReady s since slot = _ from hready] at hsame
    · exact (hf _).trans hsame
    · exact (hf _).trans hsame
    · exact hsame

/-! ## A queue without packets -/

/-- A queue with no packet that is not complete, and no destroy under way. -/
def NoPackets (s : State) (slot : Nat) : Prop := (getQueue s slot).packets = [] ∧ (getQueue s slot).draining = none

theorem drainCheck_of_not_draining {s : State} {slot : Nat} (h : (getQueue s slot).draining = none) : drainCheck s slot = s := by
  simp [drainCheck, h]

theorem getQueue_drainCheck_of_noPackets {s : State} {slot : Nat} (h : NoPackets s slot) (d : Nat) :
    getQueue (drainCheck s d) slot = getQueue s slot := by
  obtain ⟨hpackets, hdraining⟩ := h
  by_cases hd : slot = d
  · rw [← hd, drainCheck_of_not_draining hdraining]
  · have htomb : ∀ u, getQueue (tombQueue u d) slot = getQueue u slot := fun u => getQueue_tombQueue_ne u hd
    unfold drainCheck
    extract_lets q
    split
    · rfl
    · split
      · exact getQueue_whenSlot htomb
      · next e seq _ =>
        split
        · next p hp =>
          have he : slot ≠ e := by
            rintro rfl
            simp [hpackets] at hp
          split
          · rfl
          · exact getQueue_packetDone_ne s seq _ he
        · exact getQueue_whenSlot htomb

theorem getQueue_afterRecord_of_noPackets {s : State} {slot : Nat} (h : NoPackets s slot) (d seq : Nat) :
    getQueue (afterRecord s d seq) slot = getQueue s slot := by
  refine List.foldlRecOn _ _ (motive := fun u => getQueue u slot = getQueue s slot) rfl (fun u hu e _ => ?_)
  have hnone : NoPackets u slot := by rwa [NoPackets, hu]
  exact (getQueue_drainCheck_of_noPackets hnone e.1).trans hu

/-- The fetcher's start changes no packet. -/
theorem noPackets_fetchMore {s : State} {slot : Nat} (h : NoPackets s slot) : NoPackets (fetchMore s slot) slot := by
  obtain ⟨hpackets, hdraining⟩ := h
  unfold fetchMore askSlot busSlot
  extract_lets s1
  have hs1 : NoPackets s1 slot := by simp [NoPackets, s1, hpackets, hdraining]
  split
  · split
    · exact hs1
    · exact hs1
  · exact ⟨hpackets, hdraining⟩

end Sys2Proof.Machine
end

section
/-!
Host accesses through BAR4, doorbells, and QCTL (02 R54 to R56, R60, R64, R66, R75).
-/
namespace Sys2Proof.Machine

/-- 02 R54: in RECOVERY neither window responds. -/
theorem exec_of_recovery {s : State} (h : s.mgmt.recovery = true) (off size : Nat) (pasid : Option (BitVec 20)) (v : Word) (bytes : List Byte) :
    ∀ i ∈ [Instr.doorbell off size pasid v, .bar4Read off size, .bar4Write off bytes false], exec i s = .next s := by
  simp [exec_doorbell, exec_bar4Read, exec_bar4Write, execDoorbell, execBar4Read, execBar4Write, event, h]

/-! ## Doorbells (02 R66) -/

/-- The key of a doorbell: the PASID and the page of the window. -/
def bellKey (pasid : BitVec 20) (off : Nat) : Nat := pasid.toNat * 4096 + off / 8 % 4096

/-- What a doorbell does once its lookup can be read. -/
def bellRings (key off : Nat) (v : Word) (s : State) : State :=
  (lookupQueue s key).elim (queueRecord s 0x03 0 off) (fun slot => ringQueue s slot off v)

section
variable {s : State} {off size : Nat} {pasid : BitVec 20} {v : Word} (hrec : s.mgmt.recovery = false)
include hrec

theorem exec_doorbell_misshapen (h : size ≠ 8 ∨ off % 8 ≠ 0) (pasid : Option (BitVec 20)) :
    exec (.doorbell off size pasid v) s = .next (queueRecord s 1 0 off) := by
  have hbad : (!decide (size = 8) || !decide (off % 8 = 0)) = true := by simpa using h
  simp only [exec_doorbell, execDoorbell, event, hrec, hbad, Bool.false_eq_true, if_false, if_true]

variable (hsize : size = 8) (hoff : off % 8 = 0)
include hsize hoff

theorem exec_doorbell_without_pasid : exec (.doorbell off size none v) s = .next (queueRecord s 2 0 off) := by
  simp [exec_doorbell, execDoorbell, event, hrec, hsize, hoff]

theorem exec_doorbell_of_pasid : exec (.doorbell off size (some pasid) v) s = .next
    (whenReady s (.doorbell off size (some pasid) v) (bellKey pasid off) (bellRings (bellKey pasid off) off v)) := by
  simp only [exec_doorbell, execDoorbell, event, hrec, hsize, hoff, Bool.false_eq_true, if_false, decide_true, Bool.not_true, Bool.or_false, bellKey]
  refine congrArg (fun f => Host.Outcome.next (whenReady s _ _ f)) (funext fun u => ?_)
  unfold bellRings
  cases lookupQueue u (pasid.toNat * 4096 + off / 8 % 4096) <;> rfl

theorem exec_doorbell_waits {s1 : State} (hen : s.host.qhEn = true) (hw : s.host.tableWaits = [])
    (hr : probeReady s s.now (bellKey pasid off) (probeSlots s (bellKey pasid off)) = .busy s1) :
    exec (.doorbell off size (some pasid) v) s = .next (later { s1 with host := { s1.host with
      tableWaits := [(.doorbell off size (some pasid) v, s.now)] } } [.doorbell off size (some pasid) v]) := by
  rw [exec_doorbell_of_pasid hrec hsize hoff, whenReady, whenTable_of_busy hen hw hr]

theorem exec_doorbell_of_disabled (hen : s.host.qhEn = false) :
    exec (.doorbell off size (some pasid) v) s = .next (queueRecord s 3 0 off) := by
  rw [exec_doorbell_of_pasid hrec hsize hoff, whenReady, whenTable_of_disabled hen, bellRings, lookupQueue_of_disabled hen, Option.elim_none]

variable (hready : KeyReadable s (bellKey pasid off))
include hready

theorem exec_doorbell_of_no_queue (h : lookupQueue s (bellKey pasid off) = none) :
    exec (.doorbell off size (some pasid) v) s = .next (queueRecord s 3 0 off) := by
  rw [exec_doorbell_of_pasid hrec hsize hoff, whenReady_of_readable hready, bellRings, h, Option.elim_none]

theorem exec_doorbell_of_queue {slot : Nat} (h : lookupQueue s (bellKey pasid off) = some slot) :
    exec (.doorbell off size (some pasid) v) s = .next (ringQueue s slot off v) := by
  rw [exec_doorbell_of_pasid hrec hsize hoff, whenReady_of_readable hready, bellRings, h, Option.elim_some]

end

/-! What a queue makes of its doorbell. -/

section
variable {s : State} {slot off : Nat} {v : Word}

theorem ringQueue_of_draining (h : qcbState (qcb s slot) = 3) : ringQueue s slot off v = queueRecord s 4 (qcbCtx (qcb s slot)).toNat off := by
  simp only [ringQueue, h, if_true]

variable (h : qcbState (qcb s slot) ≠ 3)
include h

theorem ringQueue_moves_tail (hforward : (v.toNat % 2 ^ 32 + 2 ^ 32 - qcbTail (qcb s slot)) % 2 ^ 32 < 2 ^ 31)
    (hfits : (v.toNat % 2 ^ 32 + 2 ^ 32 - qcbHead (qcb s slot)) % 2 ^ 32 ≤ qcbSlots (qcb s slot)) :
    ringQueue s slot off v = fetchMore (qcbWrite s slot (putTail (qcb s slot) (v.toNat % 2 ^ 32))) slot := by
  rw [ringQueue, if_neg h, if_neg (by simpa using ⟨hforward, hfits⟩)]

theorem ringQueue_of_bad_tail (hbad : 2 ^ 31 ≤ (v.toNat % 2 ^ 32 + 2 ^ 32 - qcbTail (qcb s slot)) % 2 ^ 32 ∨
    qcbSlots (qcb s slot) < (v.toNat % 2 ^ 32 + 2 ^ 32 - qcbHead (qcb s slot)) % 2 ^ 32) :
    ringQueue s slot off v = queueRecord s 5 (qcbCtx (qcb s slot)).toNat off := by
  rw [ringQueue, if_neg h, if_pos (by simpa using hbad)]

end

/-! ## Accesses through BAR4 (02 R55, R56) -/

section
variable {s : State} {off : Nat}

theorem hostAccess_of_invalid {α : Type} {relaxed : Bool} {need n : Nat} {f : State → Engine → Nat → Served α}
    (h : (s.host.apertures.get (0, 0) (off / 2 ^ 30 % 2048)).1.getLsbD 63 = false) :
    hostAccess s relaxed off need n f = (.bad 0x05 0x01 s, off) := by
  have hplace : hostPlace s off = .invalid := by simp only [hostPlace, h, Bool.not_false, if_true]
  rw [hostAccess, hplace]

variable {bytes : List Byte} {relaxed : Bool}

/-- A write with Relaxed Ordering that has begun, or that does not stand back, is made as another is. -/
theorem bar4Write_not_put_back (h : relaxed = false ∨ relaxedBegun s = true ∨ Config.freeTurn s.free = false) :
    (relaxed && !relaxedBegun s && Config.freeTurn s.free) = false := by
  rcases h with h | h | h <;> simp [h]

variable (hrec : s.mgmt.recovery = false)
include hrec

theorem exec_bar4Read_served {size n : Nat} {s1 : State}
    (h : hostAccess s false off 1 size (fun s e va => devRead s e va size) = (.ok bytes s1, n)) :
    exec (.bar4Read off size) s = .next (clearPieces { s1 with busOut := s1.busOut ++ [.complete off (some bytes)] } 24576) := by
  simp only [exec_bar4Read, execBar4Read, event, hrec, h, Bool.false_eq_true, if_false]

theorem exec_bar4Read_fails {size n code sub : Nat} {s1 : State}
    (h : hostAccess s false off 1 size (fun s e va => devRead s e va size) = (.bad code sub s1, n)) :
    exec (.bar4Read off size) s = .next (clearPieces { faultRecord s1 code sub 0 n with
      busOut := (faultRecord s1 code sub 0 n).busOut ++ [.complete off none] } 24576) := by
  simp only [exec_bar4Read, execBar4Read, event, hrec, h, Bool.false_eq_true, if_false]

variable (hnow : relaxed = false ∨ relaxedBegun s = true ∨ Config.freeTurn s.free = false)
include hnow

theorem exec_bar4Write_served {n : Nat} {s1 : State}
    (h : hostAccess { s with free := s.free + 1 } relaxed off 2 bytes.length (fun s e va =>
      engineStores s e 0 (granuleParts (bytes.length / 64 + 2) va bytes)) = (.ok () s1, n)) :
    exec (.bar4Write off bytes relaxed) s = .next (clearPieces s1 (if relaxed then 24577 else 24576)) := by
  simp only [exec_bar4Write, execBar4Write, event, hrec, bar4Write_not_put_back hnow, h, Bool.false_eq_true, if_false]

theorem exec_bar4Write_fails {n code sub : Nat} {s1 : State}
    (h : hostAccess { s with free := s.free + 1 } relaxed off 2 bytes.length (fun s e va =>
      engineStores s e 0 (granuleParts (bytes.length / 64 + 2) va bytes)) = (.bad code sub s1, n)) :
    exec (.bar4Write off bytes relaxed) s = .next (clearPieces (faultRecord s1 code sub 0 n) (if relaxed then 24577 else 24576)) := by
  simp only [exec_bar4Write, execBar4Write, event, hrec, bar4Write_not_put_back hnow, h, Bool.false_eq_true, if_false]

end

/-! ## QCTL (02 R60, R64) -/

/-- The key that a QCTL command names. -/
def commandKey (v : Word) : Nat := bits v.toNat 31 12 * 4096 + bits v.toNat 43 32

theorem qctlKey_qctlStore (s : State) (v : Word) (r : Nat) (busy : Bool) : qctlKey (qctlStore s v r busy) = commandKey v := by
  have hpasid : bits v.toNat 31 12 < 2 ^ 20 := Nat.mod_lt _ (by decide)
  have hnum : bits v.toNat 43 32 < 2 ^ 12 := Nat.mod_lt _ (by decide)
  simp only [qctlKey, qctlStore, commandKey, BitVec.toNat_ofNat, Nat.mod_eq_of_lt hpasid, Nat.mod_eq_of_lt hnum]

/-- Each command is QCTL's command with work of its own. -/
theorem exec_command_eq_qctlCommand (v : Word) :
    ∀ i ∈ [Instr.queueCreate v, .queueResume v, .destroy v, .destroyKill v], ∃ f, ∀ s, exec i s = .next (qctlCommand s i v f) := by
  simp only [List.forall_mem_cons]
  exact ⟨⟨_, fun _ => rfl⟩, ⟨_, fun _ => rfl⟩, ⟨_, fun _ => rfl⟩, ⟨_, fun _ => rfl⟩, List.forall_mem_nil _⟩

section
variable {s : State} {i : Instr} {v : Word} {f : State → State}

theorem qctlCommand_of_busy (hbusy : s.host.qctlBusy = true) (hw : s.host.tableWaits = []) :
    qctlCommand s i v f = { s with host := { s.host with qctlResult := 6 } } := by
  simp [qctlCommand, hbusy, hw]

variable (hidle : s.host.qctlBusy = false)
include hidle

theorem qctlCommand_of_idle :
    qctlCommand s i v f = whenReady (qctlStore s v 0 true) i (commandKey v) (fun u => f (qctlStore u v 0 false)) := by
  simp [qctlCommand, hidle, commandKey]

theorem qctlCommand_waits {s1 : State} (hen : s.host.qhEn = true) (hw : s.host.tableWaits = [])
    (hr : probeReady (qctlStore s v 0 true) s.now (commandKey v) (probeSlots s (commandKey v)) = .busy s1) :
    qctlCommand s i v f = later { s1 with host := { s1.host with tableWaits := [(i, s.now)] } } [i] := by
  rw [qctlCommand_of_idle hidle, whenReady]
  exact whenTable_of_busy (s := qctlStore s v 0 true) hen hw hr

/-- A command works on the state with its fields stored and RESULT and BUSY clear. -/
theorem qctlCommand_of_readable (h : s.host.qhEn = false ∨ KeyReadable (qctlStore s v 0 true) (commandKey v)) :
    qctlCommand s i v f = f (qctlStore s v 0 false) := by
  rw [qctlCommand_of_idle hidle]
  rcases h with hen | hready
  · exact whenTable_of_disabled (s := qctlStore s v 0 true) hen
  · exact whenReady_of_readable hready

end

/-! What each command does at its queue, or without one. -/

section
variable {s : State} {v : Word} (hrun : ∀ i f, qctlCommand s i v f = f (qctlStore s v 0 false))
include hrun

theorem exec_queueCreate_of_disabled (h : s.host.qhEn = false) : exec (.queueCreate v) s = .next (qctlResult (qctlStore s v 0 false) 4) := by
  have hstaged : (qctlStore s v 0 false).host.qhEn = false := h
  simp only [exec_queueCreate, execQueueCreate, event, hrun, hstaged, Bool.not_false, if_true]

theorem exec_command_of_no_queue (h : lookupQueue (qctlStore s v 0 false) (commandKey v) = none) :
    ∀ i ∈ [Instr.queueResume v, .destroy v, .destroyKill v], exec i s = .next (qctlResult (qctlStore s v 0 false) 3) := by
  simp [exec_queueResume, exec_destroy, exec_destroyKill, execQueueResume, execDestroy, execDestroyKill, qctlDestroy, event, hrun,
    qctlKey_qctlStore, h]

section
variable {slot : Nat} (hqueue : lookupQueue (qctlStore s v 0 false) (commandKey v) = some slot)
include hqueue

theorem exec_queueCreate_of_queue (hen : s.host.qhEn = true) : exec (.queueCreate v) s = .next (qctlResult (qctlStore s v 0 false) 2) := by
  have hstaged : (qctlStore s v 0 false).host.qhEn = true := hen
  simp [exec_queueCreate, execQueueCreate, event, hrun, hstaged, qctlKey_qctlStore, hqueue]

theorem exec_queueResume_of_running (h : qcbState (qcb (qctlStore s v 0 false) slot) ≠ 4) :
    exec (.queueResume v) s = .next (qctlResult (qctlStore s v 0 false) 4) := by
  simp [exec_queueResume, execQueueResume, event, hrun, qctlKey_qctlStore, hqueue, h]

theorem exec_queueResume_of_error {staged : State} (hs : staged = qctlStore s v 0 false) (h : qcbState (qcb staged slot) = 4) :
    exec (.queueResume v) s = .next (fetchMore (resumeSlice (qcbWrite staged slot (putState (qcb staged slot) 2)) slot) slot) := by
  subst hs
  simp [exec_queueResume, execQueueResume, event, hrun, qctlKey_qctlStore, hqueue, h]

theorem exec_destroy_of_draining (h : (getQueue s slot).draining.isSome = true) :
    exec (.destroy v) s = .next (qctlResult (qctlStore s v 0 false) 4) ∧ exec (.destroyKill v) s = .next (qctlResult (qctlStore s v 0 false) 4) := by
  have hstaged : (getQueue (qctlStore s v 0 false) slot).draining.isSome = true := h
  simp [exec_destroy, exec_destroyKill, execDestroy, execDestroyKill, qctlDestroy, event, hrun, qctlKey_qctlStore, hqueue, hstaged]

theorem exec_destroy_starts (h : (getQueue s slot).draining = none) {staged : State} (hs : staged = qctlStore s v 0 false) (kill : Bool) :
    exec (if kill then .destroyKill v else .destroy v) s =
      .next (startDestroy { staged with host := { staged.host with qctlBusy := true } } slot kill none) := by
  subst hs
  have hstaged : (getQueue (qctlStore s v 0 false) slot).draining = none := h
  cases kill <;>
    simp [exec_destroy, exec_destroyKill, execDestroy, execDestroyKill, qctlDestroy, event, hrun, qctlKey_qctlStore, hqueue, hstaged]

end

/-! CREATE of a key that the table does not hold (02 R64). -/

section
variable (hen : s.host.qhEn = true) (hqueue : lookupQueue (qctlStore s v 0 false) (commandKey v) = none)
include hen hqueue

theorem exec_queueCreate_refused
    (h : bits (fieldAt (stageBytes s) 5 1) 4 0 < 4 ∨ 16 < bits (fieldAt (stageBytes s) 5 1) 4 0 ∨ partCount s ≤ qcbPart (stageBytes s) ∨
      zeroAt (stageBytes s) 41 23 = false) :
    exec (.queueCreate v) s = .next (qctlResult (qctlStore s v 0 false) 4) := by
  have hstaged : (qctlStore s v 0 false).host.qhEn = true := hen
  have hstage : stageBytes (qctlStore s v 0 false) = stageBytes s := rfl
  have hparts : partCount (qctlStore s v 0 false) = partCount s := rfl
  simp only [exec_queueCreate, execQueueCreate, event, hrun, hstaged, qctlKey_qctlStore, hqueue, hstage, hparts]
  rcases h with h | h | h | h <;> simp [h]

variable (hlow : 4 ≤ bits (fieldAt (stageBytes s) 5 1) 4 0) (hhigh : bits (fieldAt (stageBytes s) 5 1) 4 0 ≤ 16)
  (hreserved : bits (fieldAt (stageBytes s) 5 1) 6 5 = 0) (hpart : qcbPart (stageBytes s) < partCount s)
  (hzero : zeroAt (stageBytes s) 41 23 = true)
include hlow hhigh hreserved hpart hzero

theorem exec_queueCreate_of_full (h : ∀ x ∈ probeSlots s (commandKey v), qcbLive (qcb (qctlStore s v 0 false) x) = true) :
    exec (.queueCreate v) s = .next (qctlResult (qctlStore s v 0 false) 1) := by
  have hstaged : (qctlStore s v 0 false).host.qhEn = true := hen
  have hstage : stageBytes (qctlStore s v 0 false) = stageBytes s := rfl
  have hparts : partCount (qctlStore s v 0 false) = partCount s := rfl
  have hnone : (probeSlots (qctlStore s v 0 false) (commandKey v)).find? (fun x => !qcbLive (qcb (qctlStore s v 0 false) x)) = none :=
    List.find?_eq_none.mpr (fun x hx => by simp [h x hx])
  simp only [exec_queueCreate, execQueueCreate, event, hrun, hstaged, qctlKey_qctlStore, hqueue, hstage, hparts, hnone]
  simp [hreserved, hzero, hlow.not_gt, hhigh.not_gt, hpart.not_ge]

theorem exec_queueCreate_creates {slot : Nat}
    (h : (probeSlots s (commandKey v)).find? (fun x => !qcbLive (qcb (qctlStore s v 0 false) x)) = some slot) :
    exec (.queueCreate v) s = .next { qcbWrite (qctlStore s v 0 false) slot
      (putErr (putTail (putState (patch (stageBytes s) 0 (leBytes 4 (commandKey v))) 2) (qcbHead (stageBytes s))) 0) with
        queues := s.queues.set slot {} } := by
  have hstaged : (qctlStore s v 0 false).host.qhEn = true := hen
  have hstage : stageBytes (qctlStore s v 0 false) = stageBytes s := rfl
  have hparts : partCount (qctlStore s v 0 false) = partCount s := rfl
  have hfirst : (probeSlots (qctlStore s v 0 false) (commandKey v)).find? (fun x => !qcbLive (qcb (qctlStore s v 0 false) x)) = some slot := h
  simp only [exec_queueCreate, execQueueCreate, event, hrun, hstaged, qctlKey_qctlStore, hqueue, hstage, hparts, hfirst]
  simp [hreserved, hzero, hlow.not_gt, hhigh.not_gt, hpart.not_ge]
  rfl

end

end

end Sys2Proof.Machine
end

section
/-!
Fetching packets, what each type of packet does, and completion (02 R65 to R75; 03 R95).
-/
namespace Sys2Proof.Machine

/-! ## Fetching (02 R68) -/

theorem headDue_of_mayFetch {s : State} {slot : Nat} (h : mayFetch s slot = true) : (getQueue s slot).headDue = none := by
  simp only [mayFetch, Bool.and_eq_true, Option.isNone_iff_eq_none] at h
  obtain ⟨⟨-, hhead⟩, -⟩ := h
  exact hhead

section
variable {s : State} {slot : Nat}

/-- The table takes a HEAD that is due once the slot can be read; until then the fetch comes again. -/
theorem advanceHead_of_busy {head since : Nat} {s1 : State} (hdue : (getQueue s slot).headDue = some (head, since))
    (hr : slotReady s since slot = .busy s1) : advanceHead s slot = later s1 [.packetFetch slot []] := by
  simp [advanceHead, hdue, hr]

theorem advanceHead_of_ready {head since : Nat} {s1 : State} (hdue : (getQueue s slot).headDue = some (head, since))
    (hr : slotReady s since slot = .ok () s1) : advanceHead s slot =
      qcbWrite (modQueue s1 slot (fun q => { q with headDue := none })) slot
        (putHead (qcb (modQueue s1 slot (fun q => { q with headDue := none })) slot) head) := by
  simp [advanceHead, hdue, hr, advanceHead.put]

variable {bytes : List Byte}

theorem slotBytes_of_host (h : qcbRmem (qcb s slot) = false) : slotBytes s slot bytes = .ok (padTo 64 bytes) s := by
  simp [slotBytes, h]

theorem exec_packetFetch_eq_self (hdue : (getQueue s slot).headDue = none) (h : (getQueue s slot).fetch ≠ .first) :
    exec (.packetFetch slot bytes) s = .next s := by
  simp [exec_packetFetch, execPacketFetch, event, hdue, h]

theorem exec_packetFetch_of_headDue (h : (getQueue s slot).headDue.isSome = true) :
    exec (.packetFetch slot bytes) s = .next (fetchMore (advanceHead s slot) slot) := by
  simp only [exec_packetFetch, execPacketFetch, event, h, if_true]

theorem exec_packetFetch_stops (hdue : (getQueue s slot).headDue = none) (hfetch : (getQueue s slot).fetch = .first) (hread : SlotReadable s slot)
    (hmay : mayFetch s slot = false) : exec (.packetFetch slot bytes) s = .next (fetchStops s slot) := by
  simp [exec_packetFetch, execPacketFetch, event, hdue, hfetch, whenSlot_of_readable hread, hmay]

theorem exec_packetFetch_of_bytes (hfetch : (getQueue s slot).fetch = .first) (hread : SlotReadable s slot) (hmay : mayFetch s slot = true)
    (hhost : qcbRmem (qcb s slot) = false) :
    exec (.packetFetch slot bytes) s = .next (slotRead s slot (padTo 64 bytes) (fun u => askAgain u slot)) := by
  simp [exec_packetFetch, execPacketFetch, event, headDue_of_mayFetch hmay, hfetch, whenSlot_of_readable hread, hmay, slotBytes_of_host hhost]

theorem exec_fetchReread_eq_self (hpause : (getQueue s slot).fetch ≠ .pause) (hreread : (getQueue s slot).fetch ≠ .reread) :
    exec (.fetchReread slot bytes) s = .next s := by
  simp [exec_fetchReread, execFetchReread, event, hpause, hreread]

section
variable (hread : SlotReadable s slot) (hmay : mayFetch s slot = true) (hhost : qcbRmem (qcb s slot) = false)
include hread hmay

theorem exec_fetchReread_waits (hpause : (getQueue s slot).fetch = .pause)
    (hearly : s.now < (getQueue s slot).fetchTick + 250 * ((getQueue s slot).rereads + 1)) :
    exec (.fetchReread slot bytes) s = .next (later s [.fetchReread slot []]) := by
  simp [exec_fetchReread, execFetchReread, event, hpause, whenSlot_of_readable hread, hmay, hearly]

include hhost

theorem exec_fetchReread_asks (hpause : (getQueue s slot).fetch = .pause)
    (hdue : (getQueue s slot).fetchTick + 250 * ((getQueue s slot).rereads + 1) ≤ s.now) :
    exec (.fetchReread slot bytes) s = .next (busSlot (modQueue s slot (fun q => { q with fetch := .reread })) slot) := by
  simp [exec_fetchReread, execFetchReread, event, hpause, whenSlot_of_readable hread, hmay, hdue.not_gt, hhost]

theorem exec_fetchReread_of_bytes (hreread : (getQueue s slot).fetch = .reread) :
    exec (.fetchReread slot bytes) s = .next (slotRead s slot (padTo 64 bytes) (fun u => rereadFailed u slot)) := by
  simp [exec_fetchReread, execFetchReread, event, hreread, whenSlot_of_readable hread, hmay, rereadDone, slotBytes_of_host hhost]

end

/-- The sixteenth re-read that fails puts the queue into ERROR. -/
theorem rereadFailed_of_last (h : (getQueue s slot).rereads = 15) : rereadFailed s slot = queueError s slot 6 := by
  simp [rereadFailed, h]

theorem rereadFailed_of_earlier (h : (getQueue s slot).rereads < 15) :
    rereadFailed s slot = askAgain (modQueue s slot (fun q => { q with rereads := q.rereads + 1 })) slot := by
  have hfew : ¬16 ≤ (getQueue s slot).rereads + 1 := by omega
  rw [rereadFailed, if_neg hfew]
  rfl

section
variable {packet : List Byte} {torn : State → State}

theorem slotRead_of_torn (h : packetWhole (qcb s slot) packet = false) : slotRead s slot packet torn = torn s := by
  simp [slotRead, h]

/-- A whole slot whose fields are legal, that no fence holds back and whose context stands becomes the current packet. -/
theorem slotRead_becomes_current {i : Instr} {s1 : State} (hwhole : packetWhole (qcb s slot) packet = true)
    (htype : packetStep slot (packetType packet) = some i) (hzero : fieldAt packet 7 1 = 0) (hflags : fieldAt packet 6 1 < 8)
    (hphase : bits (fieldAt packet 1 1) 6 0 = 0) (hfence : packetFence packet = false ∨ (getQueue s slot).packets = [])
    (hctx : ensureContext s slot (qcb s slot) = .ok none s1) :
    slotRead s slot packet torn = soon (becomesCurrent s1 slot (qcb s slot) packet) [i] := by
  have hgo : (packetFence packet && !(getQueue s slot).packets.isEmpty) = false := by
    rcases hfence with h | h <;> simp [h]
  simp only [slotRead, hwhole, htype, hzero, hphase, hgo, hctx]
  simp [hflags.not_ge]

end

end

/-! ## The types of packets (02 R70, R71) -/

section
variable {s : State} {slot : Nat}

theorem withPacket_of_none {f : PacketRun → List Byte → State} (h : currentPacket s slot = none) : withPacket s slot f = s := by
  rw [withPacket, h]

theorem exec_packet_of_none (h : currentPacket s slot = none) (hread : SlotReadable s slot) :
    ∀ i ∈ [Instr.launchPacket slot, .relaunchPacket slot, .destroyPacket slot, .signal slot, .waitmem slot, .waitmemPoll slot, .nopPacket slot],
      exec i s = .next s := by
  have hlaunch : exec (.launchPacket slot) s = .next s := by
    simp only [exec_launchPacket, execLaunchPacket, event, whenSlot_of_readable hread, h]
  simp [hlaunch, exec_relaunchPacket, exec_destroyPacket, exec_signal, exec_waitmem, exec_waitmemPoll, exec_nopPacket, execRelaunchPacket,
    execDestroyPacket, execSignal, execWaitmem, execWaitmemPoll, execNopPacket, waitmemRead, event, withPacket_of_none h]

theorem ensureContext_of_killed (h : ((getCtx s (qcbCtx (qcb s slot))).killing || (getCtx s (qcbCtx (qcb s slot))).killAsked) = true) :
    ensureContext s slot (qcb s slot) = .busy s := by
  simp only [ensureContext, h, if_true]

variable {p : PacketRun} (hcur : currentPacket s slot = some p)
include hcur

theorem withPacket_of_some {f : PacketRun → List Byte → State} : withPacket s slot f = f p (qcb s slot) := by
  rw [withPacket, hcur]

theorem exec_signal_or_nop : ∀ i ∈ [Instr.signal slot, .nopPacket slot],
    exec i s = .next (if zeroAt p.bytes 24 36 then packetEnds s slot p.seq 0 0 else packetEnds s slot p.seq 1 1) := by
  simp [exec_signal, exec_nopPacket, execSignal, execNopPacket, event, withPacket_of_some hcur]

/-! LAUNCH. -/

theorem exec_launchPacket_of_killed (hread : SlotReadable s slot)
    (h : ((getCtx s (qcbCtx (qcb s slot))).killing || (getCtx s (qcbCtx (qcb s slot))).killAsked) = true) :
    exec (.launchPacket slot) s = .next (later s [.launchPacket slot]) := by
  simp only [exec_launchPacket, execLaunchPacket, event, whenSlot_of_readable hread, hcur, ensureContext_of_killed h]

theorem exec_launchPacket_of_context {s0 : State} (hread : SlotReadable s slot) (hctx : ensureContext s slot (qcb s slot) = .ok none s0) :
    exec (.launchPacket slot) s = .next (launchPacket slot s0) := by
  simp only [exec_launchPacket, execLaunchPacket, event, whenSlot_of_readable hread, hcur, hctx]

/-- A launch of all further blocks of a record, from the packet's first block on. -/
theorem launchPacket_starts {b r : List Byte} {s1 s2 : State} (hb : qcb s slot = b) (hrun : p.run = none) (hzero : zeroAt p.bytes 40 20 = true)
    (halign : fieldAt p.bytes 24 8 % 64 = 0)
    (hrecord : ctxRead s (queueEngine s slot (qcbCtx b) (qcbPart b)) (fieldAt p.bytes 24 8) 1024 = .ok r s1)
    (hvalid : recordValid r = true) (hfirst : fieldAt p.bytes 32 4 < blockCount (recordOf r)) (hcount : fieldAt p.bytes 36 4 = 0)
    (hregion : regionHeld s1 (qcbCtx b) (recordOf r) = .ok true s2) :
    let run := startRun s2 (qcbCtx b) (recordOf r) (fieldAt p.bytes 32 4) (blockCount (recordOf r) - fieldAt p.bytes 32 4) (.queue slot p.seq)
    launchPacket slot s =
      bindRun (modPacket run.1 slot p.seq (fun p => { p with run := some run.2 })) run.2 (BitVec.ofNat 3 (fieldAt b 7 1)) := by
  subst hb
  simp only [launchPacket, withPacket_of_some hcur, hrun, hzero, halign, hrecord, hvalid, hcount, hregion]
  simp [hfirst.not_ge]

/-! RELAUNCH. -/

theorem exec_relaunchPacket_of_killed
    (h : ((getCtx s (qcbCtx (qcb s slot))).killing || (getCtx s (qcbCtx (qcb s slot))).killAsked) = true) :
    exec (.relaunchPacket slot) s = .next (later s [.relaunchPacket slot]) := by
  simp only [exec_relaunchPacket, execRelaunchPacket, event, withPacket_of_some hcur, h, if_true]

section
variable (hlive : ((getCtx s (qcbCtx (qcb s slot))).killing || (getCtx s (qcbCtx (qcb s slot))).killAsked) = false)
include hlive

theorem exec_relaunchPacket_of_no_run (h : s.runs.has (BitVec.ofNat 32 (fieldAt p.bytes 24 4)).toNat = false) :
    exec (.relaunchPacket slot) s = .next (packetEnds s slot p.seq 1 1) := by
  simp only [exec_relaunchPacket, execRelaunchPacket, event, withPacket_of_some hcur, hlive, h]
  simp

theorem exec_relaunchPacket_begins {run : BitVec 32} (hrun : run = BitVec.ofNat 32 (fieldAt p.bytes 24 4)) (hzero : zeroAt p.bytes 29 31 = true)
    (hhas : s.runs.has run.toNat = true) (hctx : (getRun s run).ctx = qcbCtx (qcb s slot)) (hgo : relaunchRefused s run = false) :
    exec (.relaunchPacket slot) s = .next (beginRelaunch (dispatchEnded (modPacket s slot p.seq (fun p => { p with run := some run })) slot p.seq)
      run (fieldAt p.bytes 28 1) (.queue slot p.seq)) := by
  subst hrun
  simp only [exec_relaunchPacket, execRelaunchPacket, event, withPacket_of_some hcur, hlive, hzero, hhas, hctx, hgo]
  simp

end

/-! DESTROY. -/

section
variable (hqueue : fieldAt p.bytes 24 2 < 4096) (hkill : fieldAt p.bytes 26 1 < 2) (hzero : zeroAt p.bytes 27 33 = true)
  {other : Nat} (hother : other = qcbKey (qcb s slot) / 4096 * 4096 + fieldAt p.bytes 24 2) (hready : KeyReadable s other)
include hqueue hkill hzero hother hready

theorem exec_destroyPacket_of_no_queue (h : lookupQueue s other = none) : exec (.destroyPacket slot) s = .next (packetEnds s slot p.seq 1 0) := by
  subst hother
  simp only [exec_destroyPacket, execDestroyPacket, event, withPacket_of_some hcur, hzero, whenReady_of_readable hready, h]
  simp [hqueue.not_ge, hkill.not_ge]

theorem exec_destroyPacket_starts {target : Nat} (h : lookupQueue s other = some target) (hdrain : (getQueue s target).draining = none) :
    exec (.destroyPacket slot) s =
      .next (fetchMore (startDestroy (endDispatch s slot p.seq) target (fieldAt p.bytes 26 1 = 1) (some (slot, p.seq))) slot) := by
  subst hother
  simp only [exec_destroyPacket, execDestroyPacket, event, withPacket_of_some hcur, hzero, whenReady_of_readable hready, h]
  simp [hqueue.not_ge, hkill.not_ge, hdrain]

end

/-! WAITMEM. -/

theorem exec_waitmem_reads {w : List Byte} {s1 : State} (htype : packetType p.bytes = 6) (hdrain : (getQueue s slot).draining = none)
    (halign : fieldAt p.bytes 24 8 % 8 = 0) (hcond : fieldAt p.bytes 48 1 ≤ 3) (hzero : zeroAt p.bytes 49 11 = true)
    (hword : ctxRead s (queueEngine s slot (qcbCtx (qcb s slot)) (qcbPart (qcb s slot))) (fieldAt p.bytes 24 8) 8 = .ok w s1) :
    ∀ i ∈ [Instr.waitmem slot, .waitmemPoll slot], exec i s = .next (
      if waitmemHolds (fieldAt p.bytes 48 1) (ofBytes w &&& fieldAt p.bytes 40 8) (fieldAt p.bytes 32 8) then packetEnds s1 slot p.seq 0 0
      else later s1 [.waitmemPoll slot]) := by
  simp only [List.forall_mem_cons, exec_waitmem, exec_waitmemPoll, execWaitmem, execWaitmemPoll, event, waitmemRead, withPacket_of_some hcur,
    htype, hdrain, halign, hzero, hword]
  simp [hcond.not_gt]

end

/-! COACH (03 R95). -/

section
variable {s : State} {slot : Nat}

theorem coachBegun_of_none (h : currentPacket s slot = none) : coachBegun s slot = s := by
  rw [coachBegun, h]

theorem coachBegun_of_coach {p : PacketRun} (h : currentPacket s slot = some p) (htype : packetType p.bytes = 3) :
    coachBegun s slot = dispatchEnded s slot p.seq := by
  simp only [coachBegun, h, htype, if_true]

theorem exec_coach_of_none (h : coachPacket (coachBegun s slot) slot = none) : exec (.coach slot) s = .next (coachBegun s slot) := by
  simp only [exec_coach, execCoach, event, h]

theorem exec_coach_of_readable {p : PacketRun} (h : coachPacket (coachBegun s slot) slot = some p) (hread : SlotReadable (coachBegun s slot) slot) :
    exec (.coach slot) s = .next (coachStep slot p (coachBegun s slot)) := by
  simp only [exec_coach, execCoach, event, h, whenSlot_of_readable hread]

variable {p : PacketRun}

theorem coachStep_of_no_entries (h : fieldAt p.bytes 32 2 = 0) : coachStep slot p s = packetEnds s slot p.seq 1 1 := by
  simp [coachStep, h]

variable (hsome : 0 < fieldAt p.bytes 32 2) (hmax : fieldAt p.bytes 32 2 ≤ 4096) (hreserved : bits (fieldAt p.bytes 34 1) 6 3 = 0)
  (hzero : zeroAt p.bytes 35 25 = true) {e : Engine} (he : e = queueEngine s slot (qcbCtx (qcb s slot)) (qcbPart (qcb s slot)))
include hsome hmax hreserved hzero he

theorem coachStep_registers {s1 s2 : State} {cs : List Carriage} {table : Nat}
    (htable : readTable s e (qcbPart (qcb s slot)) (fieldAt p.bytes 24 8) 0 (fieldAt p.bytes 32 2) = (.ok (some cs) s1, table))
    (hflags : flagsReady s1 cs = .ok () s2) :
    coachStep slot p s = packetEnds (addCoach (clearFlags s2 cs)
      { ctx := e.ctx, priority := bits (fieldAt p.bytes 34 1) 2 0, autoFetch := (fieldAt p.bytes 34 1).testBit 7, carriages := cs })
      slot p.seq 0 0 (BitVec.ofNat 64 e.ctx.toNat) := by
  subst he
  have hctx : (queueEngine s slot (qcbCtx (qcb s slot)) (qcbPart (qcb s slot))).ctx = qcbCtx (qcb s slot) := rfl
  simp only [coachStep, coachStep.registers, hreserved, hzero, htable, hflags, hctx]
  simp [hsome.ne', hmax.not_gt]

theorem coachStep_of_bad_entry {s1 : State} {table : Nat}
    (htable : readTable s e (qcbPart (qcb s slot)) (fieldAt p.bytes 24 8) 0 (fieldAt p.bytes 32 2) = (.ok none s1, table)) :
    coachStep slot p s = packetEnds s1 slot p.seq 1 0x13 := by
  subst he
  simp only [coachStep, hreserved, hzero, htable]
  simp [hsome.ne', hmax.not_gt]

end

/-! ## Completion (02 R74) -/

@[simp] theorem getQueue_clearPieces (s : State) (unit k : Nat) : getQueue (clearPieces s unit) k = getQueue s k := rfl

theorem completing_of_none_done {q : QueueRun} (h : ∀ x ∈ q.packets, x.workDone = false) : completing q = none := by
  have hbegun : q.packets.find? (fun p => p.workDone && q.writing == some p.seq) = none :=
    List.find?_eq_none.mpr (fun x hx => by simp [h x hx])
  have hdone : q.packets.find? (fun p => p.workDone) = none := List.find?_eq_none.mpr (fun x hx => by simp [h x hx])
  rw [completing, hbegun, hdone]

theorem completing_of_only {q : QueueRun} {p : PacketRun} (h : q.packets = [p]) (hdone : p.workDone = true) : completing q = some p := by
  cases hw : q.writing == some p.seq <;> simp [completing, h, hdone, hw]

section
variable {s : State} {slot : Nat}

theorem exec_packetCompletion_of_none_done (h : ∀ x ∈ (getQueue s slot).packets, x.workDone = false) :
    exec (.packetCompletion slot) s = .next (drainCheck s slot) := by
  simp only [exec_packetCompletion, execPacketCompletion, event, completing_of_none_done h]

/-- The packet without its place in the queue: its pieces are forgotten and its record is no longer under way. -/
def packetRemoved (s : State) (slot : Nat) (p : PacketRun) : State :=
  modQueue (clearPieces s (16384 + slot)) slot (fun q => { q with packets := q.packets.filter (fun x => !(x.seq = p.seq)), writing := none })

variable {p : PacketRun} (honly : (getQueue s slot).packets = [p]) (hdone : p.workDone = true) (hread : SlotReadable s slot)
include honly

theorem packets_packetRemoved : (getQueue (packetRemoved s slot p) slot).packets = [] := by
  simp [packetRemoved, honly]

include hdone hread

theorem exec_packetCompletion_waits {s1 : State} (h : writeCompletion s slot p = .busy s1) :
    exec (.packetCompletion slot) s =
      .next (later (modQueue s1 slot (fun q => { q with writing := some p.seq })) [.packetCompletion slot]) := by
  simp only [exec_packetCompletion, execPacketCompletion, event, completing_of_only honly hdone, whenSlot_of_readable hread, h]

theorem exec_packetCompletion_removes (h : writeCompletion s slot p = .ok () s) :
    exec (.packetCompletion slot) s =
      .next (drainCheck (afterRecord (fetchMore (packetRemoved s slot p) slot) slot p.seq) slot) := by
  have hempty := packets_packetRemoved honly
  unfold packetRemoved at hempty
  simp only [exec_packetCompletion, execPacketCompletion, event, completing_of_only honly hdone, whenSlot_of_readable hread, h, packetRemoved,
    hempty, List.any_nil, Bool.false_eq_true, if_false]

end

theorem writeCompletion_of_silent {s : State} {slot : Nat} {p : PacketRun} (hcr : packetCr p.bytes = false) (hsig : packetSig p.bytes = false)
    (htype : packetType p.bytes ≠ 4) : writeCompletion s slot p = .ok () s := by
  simp [writeCompletion, hcr, hsig, htype]

/-- A queue whose only packet asks for no record and no signal has no packet after its completion. -/
theorem packets_of_silent_completion {s : State} {slot : Nat} {p : PacketRun} (honly : (getQueue s slot).packets = [p])
    (hdrain : (getQueue s slot).draining = none) :
    (getQueue (drainCheck (afterRecord (fetchMore (packetRemoved s slot p) slot) slot p.seq) slot) slot).packets = [] := by
  have hremoved : NoPackets (packetRemoved s slot p) slot := by
    refine ⟨packets_packetRemoved honly, ?_⟩
    simpa [packetRemoved] using hdrain
  have hfetch := noPackets_fetchMore hremoved
  have hafter : NoPackets (afterRecord (fetchMore (packetRemoved s slot p) slot) slot p.seq) slot := by
    rwa [NoPackets, getQueue_afterRecord_of_noPackets hfetch]
  rw [getQueue_drainCheck_of_noPackets hafter]
  exact hafter.1

end Sys2Proof.Machine
end

section
/-!
The registers of the host control window with rules of their own, and the queues as a whole (02 R47, R59, R62, R72, R76).
-/
namespace Sys2Proof.Machine

/-! ## QHCTL and CTXCTL (02 R59, R62) -/

section
variable {s : State} {v : Word}

theorem exec_qhctlWrite_of_disabled (h : s.host.qhEn = false) : exec (.qhctlWrite v) s = .next { s with host := { s.host with
    qhEn := v.getLsbD 31
    qhLog := if 6 ≤ bits v.toNat 4 0 ∧ bits v.toNat 4 0 ≤ 16 then BitVec.ofNat 5 (bits v.toNat 4 0) else 6 } } := by
  simp [exec_qhctlWrite, execQhctlWrite, event, h]

theorem exec_qhctlWrite_of_live (hen : s.host.qhEn = true) (hclear : v.getLsbD 31 = false) (hlive : anyLive s = true) :
    exec (.qhctlWrite v) s = .next s := by
  simp only [exec_qhctlWrite, execQhctlWrite, event, hen, hclear, hlive, Bool.not_false, Bool.and_self, if_true]

theorem exec_ctxctlWrite_stores (s : State) (v : Word) : exec (.ctxctlWrite v) s = .next { s with host := { s.host with
    ctxEn := v.getLsbD 31
    ctxLog := if anyLive s then s.host.ctxLog else if 4 ≤ bits v.toNat 4 0 ∧ bits v.toNat 4 0 ≤ 16 then BitVec.ofNat 5 (bits v.toNat 4 0)
      else 4 } } := by
  simp [exec_ctxctlWrite, execCtxctlWrite, event]

end

/-! ## The error ring (02 R47) -/

theorem exec_errorRingSetup_base (s : State) (v : Word) : exec (.errorRingSetup false v) s = .next { s with host := { s.host with
    errBase := v &&& ~~~63, errHead := 0, errTail := 0, lost := decide (s.host.errHead ≠ s.host.errTail) || s.host.lost } } := by
  simp [exec_errorRingSetup, execErrorRingSetup, event]

theorem exec_errorRingSetup_size (s : State) (v : Word) : exec (.errorRingSetup true v) s = .next { s with host := { s.host with
    errSize := if ringSizeValid v.toNat then v else 16, errHead := 0, errTail := 0,
    lost := decide (s.host.errHead ≠ s.host.errTail) || s.host.lost } } := by
  simp [exec_errorRingSetup, execErrorRingSetup, event]

/-! ## Storage blocks and PARTCFG (02 R72, R76) -/

section
variable {s : State} {part : Fin 8} {off : Nat} {v : Word}

theorem exec_storageBlockWrite_of_busy (hvalid : storageV s part.val = true) (hbusy : storageBusy s part.val = true) :
    exec (.storageBlockWrite part off v) s = .next s := by
  simp only [exec_storageBlockWrite, execStorageBlockWrite, event, hvalid, hbusy, Bool.and_self, if_true]

theorem exec_storageBlockWrite_stores (h : storageV s part.val = false ∨ storageBusy s part.val = false) :
    ∃ t, exec (.storageBlockWrite part off v) s = .next t ∧
      t.host.storage = s.host.storage.set part.val ((s.host.storage.get (Vector.replicate 8 0) part.val).mapIdx (fun k w =>
        if k = off / 8 then storageKept k v else w)) := by
  have hgo : (storageV s part.val && storageBusy s part.val) = false := by
    rcases h with h | h <;> simp [h]
  simp only [exec_storageBlockWrite, execStorageBlockWrite, event, hgo, Bool.false_eq_true, if_false]
  exact ⟨_, rfl, by split <;> rfl⟩

theorem exec_partcfgWrite_of_same_mode (h : v.setWidth 2 = s.host.partMode) :
    exec (.partcfgWrite v) s = .next { s with host := { s.host with cfgErr := s.host.cfgErr && !v.getLsbD 2 } } := by
  have hmode : BitVec.ofNat 2 v.toNat = s.host.partMode := (BitVec.ofNat_toNat 2 v).trans h
  simp only [exec_partcfgWrite, execPartcfgWrite, event, hmode, if_true]

theorem exec_partcfgWrite_of_new_mode (h : v.setWidth 2 ≠ s.host.partMode) :
    exec (.partcfgWrite v) s = .next (if (List.range (partCount s)).all (partIdle s) && !anyLive s
      then
        let t := { s with host := { s.host with cfgErr := s.host.cfgErr && !v.getLsbD 2, partMode := v.setWidth 2 } }
        followTolerance t ((List.range 1024).filter (fun k => !(tolerance t k = tolerance s k)))
      else { s with host := { s.host with cfgErr := true } }) := by
  simp only [exec_partcfgWrite, execPartcfgWrite, event, BitVec.ofNat_toNat, if_neg h]

end

/-- Settles O52: access by access, command by command and packet by packet, each case by the lemma that states it. -/
theorem queuesAndPacketsAct : Obligations.QueuesAndPacketsAct := by
  unfold Obligations.QueuesAndPacketsAct
  intro s s0 s1 s2 slot off size target pasid v p part bytes i cs table h q b bell key staged answer ready canRead readable begun coaching
    killed stage engine packet counted
  refine ⟨fun hrec => exec_of_recovery hrec off size (some pasid) v bytes, fun hrec => ?bar4, fun c hc => ?commands, fun hidle hen => ?disabled,
    fun hidle hen hready => ?lookups, exec_packetFetch_eq_self, fun head since hdue => ?headDue, exec_packetFetch_stops,
    fun hfetch hread hmay hhost => ?firstRead, exec_fetchReread_eq_self, fun hpause hread hmay hhost => ?pause,
    fun hreread hread hmay hhost => ?reread, exec_packet_of_none, coachBegun_of_none, coachBegun_of_coach, exec_coach_of_none,
    fun hcoach hread => ?coach, fun hcur => ?packets, exec_packetCompletion_of_none_done,
    fun honly hdone hread hwrite => exec_packetCompletion_waits honly hdone hread hwrite,
    fun honly hdone hread hcr hsig htype hdrain => ?removed,
    exec_qhctlWrite_of_disabled, exec_qhctlWrite_of_live, exec_ctxctlWrite_stores s v, exec_errorRingSetup_base s v, exec_errorRingSetup_size s v,
    exec_storageBlockWrite_of_busy, exec_storageBlockWrite_stores, exec_partcfgWrite_of_same_mode, exec_partcfgWrite_of_new_mode⟩
  case bar4 =>
    refine ⟨fun h => exec_doorbell_misshapen hrec h (some pasid), exec_doorbell_without_pasid hrec, exec_doorbell_of_disabled hrec,
      fun hsize hoff hen hw hbusy => exec_doorbell_waits hrec hsize hoff hen hw hbusy,
      fun hsize hoff _ hready => ⟨exec_doorbell_of_no_queue hrec hsize hoff hready, fun hqueue => ?_⟩, fun hinvalid => ⟨?_, ?_⟩,
      fun n h => exec_bar4Read_served hrec h, fun n relaxed hnow h => exec_bar4Write_served hrec hnow h⟩
    · rw [exec_doorbell_of_queue hrec hsize hoff hready hqueue]
      exact ⟨fun h => congrArg _ (ringQueue_of_draining h), fun h hforward hfits => congrArg _ (ringQueue_moves_tail h hforward hfits),
        fun h hbad => congrArg _ (ringQueue_of_bad_tail h hbad)⟩
    · exact ⟨_, exec_bar4Read_fails hrec (hostAccess_of_invalid hinvalid), rfl, rfl⟩
    · exact exec_bar4Write_fails hrec (.inl rfl) (hostAccess_of_invalid hinvalid)
  case commands =>
    obtain ⟨f, hf⟩ := exec_command_eq_qctlCommand v c hc
    rw [hf]
    exact ⟨fun hbusy hw => congrArg _ (qctlCommand_of_busy hbusy hw), fun hidle hen hw hbusy => congrArg _ (qctlCommand_waits hidle hen hw hbusy)⟩
  case disabled =>
    have hrun : ∀ i f, qctlCommand s i v f = f staged := fun i f => qctlCommand_of_readable hidle (.inl hen)
    exact ⟨exec_queueCreate_of_disabled hrun hen, exec_command_of_no_queue hrun (lookupQueue_of_disabled hen)⟩
  case lookups =>
    have hrun : ∀ i f, qctlCommand s i v f = f staged := fun i f => qctlCommand_of_readable hidle (.inr hready)
    exact ⟨fun hqueue => ⟨exec_queueCreate_of_queue hrun hqueue hen, exec_queueResume_of_running hrun hqueue,
        exec_queueResume_of_error hrun hqueue rfl, exec_destroy_of_draining hrun hqueue,
        fun hdrain => exec_destroy_starts hrun hqueue hdrain rfl⟩,
      fun hqueue => ⟨exec_command_of_no_queue hrun hqueue, exec_queueCreate_refused hrun hen hqueue,
        fun hlow hhigh hreserved hpart hzero => ⟨exec_queueCreate_of_full hrun hen hqueue hlow hhigh hreserved hpart hzero,
          exec_queueCreate_creates hrun hen hqueue hlow hhigh hreserved hpart hzero⟩⟩⟩
  case headDue =>
    rw [exec_packetFetch_of_headDue (Option.isSome_of_eq_some hdue)]
    exact ⟨fun hbusy => by rw [advanceHead_of_busy hdue hbusy], fun hready => by rw [advanceHead_of_ready hdue hready]⟩
  case firstRead =>
    rw [exec_packetFetch_of_bytes hfetch hread hmay hhost]
    exact ⟨fun htorn => congrArg _ (slotRead_of_torn htorn), fun hwhole htype hzero hflags hphase hfence hctx =>
      congrArg _ (slotRead_becomes_current hwhole htype hzero hflags hphase hfence hctx)⟩
  case pause => exact ⟨exec_fetchReread_waits hread hmay hpause, exec_fetchReread_asks hread hmay hhost hpause⟩
  case reread =>
    rw [exec_fetchReread_of_bytes hread hmay hhost hreread]
    exact ⟨fun htorn hlast => congrArg _ ((slotRead_of_torn htorn).trans (rereadFailed_of_last hlast)),
      fun htorn hearlier => congrArg _ ((slotRead_of_torn htorn).trans (rereadFailed_of_earlier hearlier)),
      fun hwhole htype hzero hflags hphase hfence hctx =>
        congrArg _ (slotRead_becomes_current hwhole htype hzero hflags hphase hfence hctx)⟩
  case coach =>
    rw [exec_coach_of_readable hcoach hread]
    exact ⟨fun hnone => congrArg _ (coachStep_of_no_entries hnone), fun hsome hmax hreserved hzero =>
      ⟨fun htable hflags => congrArg _ (coachStep_registers hsome hmax hreserved hzero rfl htable hflags),
        fun htable => congrArg _ (coachStep_of_bad_entry hsome hmax hreserved hzero rfl htable)⟩⟩
  case packets =>
    intro run other
    refine ⟨fun hzero => ?_, fun hzero => ?_, fun r hrun hzero halign hread hctx hcur0 hqcb0 hrecord hvalid hfirst hcount hregion => ?_,
      fun hkilled => ⟨exec_relaunchPacket_of_killed hcur hkilled, fun hread => exec_launchPacket_of_killed hcur hread hkilled⟩,
      exec_relaunchPacket_of_no_run hcur, fun hlive hzero hhas hctx hgo => exec_relaunchPacket_begins hcur hlive rfl hzero hhas hctx hgo,
      fun hqueue hkill hzero _ hready => ⟨exec_destroyPacket_of_no_queue hcur hqueue hkill hzero rfl hready,
        exec_destroyPacket_starts hcur hqueue hkill hzero rfl hready⟩,
      fun w htype hdrain halign hcond hzero hword => exec_waitmem_reads hcur htype hdrain halign hcond hzero hword⟩
    · simpa only [hzero, if_true] using exec_signal_or_nop hcur
    · simpa only [hzero, Bool.false_eq_true, if_false] using exec_signal_or_nop hcur
    · rw [exec_launchPacket_of_context hcur hread hctx]
      exact congrArg _ (launchPacket_starts hcur0 hqcb0 hrun hzero halign hrecord hvalid hfirst hcount hregion)
  case removed =>
    exact ⟨_, exec_packetCompletion_removes honly hdone hread (writeCompletion_of_silent hcr hsig htype), packets_of_silent_completion honly hdrain⟩

end Sys2Proof.Machine
end

section
/-!
The end of a kill fence can leave a run of the killed context (03 R102 step 4): a refutation of the claim that it never does. The claim
speaks of every state, also of one whose map of runs has a key that is no run identifier.
-/
namespace Sys2Proof.Machine

/-! ## A state whose map of runs has the key 2^32 -/

/-- A run of context 1 that watches swatch 0 at physical address 0. It is armed, so a write of granule 0 marks its map (08 R218). -/
def watchingRun : Run := { ctx := 1, lr := { watch := [(0, 1)] }, wbWord := 0x2000000000000000, armed := [(0, some 0)] }

/-- Cluster 0's dirty copy of granule 0. -/
def dirtyLine : L2Line :=
  { cluster := 0, vline := 0, dev := 0, pa := 0, key := 0, owned := true, dirty := true, poison := false, tags := [0], data := 0 }

/-- Context 0 is being killed, and nothing holds its fence back. Queue 0 awaits that fence with its destroy, and its slot cannot be read yet:
the root of the page table is in granule 0, which cluster 0 owns together with cluster 64, whose partition is under reset. The only run is
listed under 2^32, one more than the largest identifier. -/
def strayRun : State :=
  { contexts := [(0, { killing := true })]
    runs := [(2 ^ 32, watchingRun)]
    queues := [(0, { draining := some true, killWait := some 0 })]
    host := { partMode := 1, resetting := 2, qhEn := true }
    dir := [(0, { st := .owned, clusters := [0, 64] })]
    l2 := [dirtyLine] }

/-! ## What the end of the fence does there -/

theorem strayRun_fence_over : (getCtx strayRun 0).killing = true ∧ fenceWaits strayRun 0 = false := by decide

/-- A mark for the key 2^32 goes to run 2^32 mod 2^32 = 0. The map does not list that run, so the mark makes it, with the default context 0. -/
theorem markMaps_strayRun_lists_run_of_context_zero : ∃ r ∈ (markMaps strayRun 0 0).runs, r.2.ctx = 0 :=
  ⟨_, List.mem_cons_self, rfl⟩

/-- The only run is context 1's and stays. The destroy that goes on reads its slot, for which cluster 0's copy is written back, and the
write is marked. -/
theorem runs_killFenceEnd_strayRun : ∃ t, exec (.killFenceEnd 0) strayRun = .next t ∧ t.runs = (markMaps strayRun 0 0).runs :=
  ⟨_, rfl, by decide +kernel⟩

/-- Refutes O53: in `strayRun` the end of context 0's kill fence lists a run of context 0, which the clause about the fence excludes. -/
theorem not_dispatchPreemptsAndKills : ¬ Obligations.DispatchPreemptsAndKills := by
  intro h
  obtain ⟨-, -, -, -, -, -, -, -, -, -, -, -, -, -, -, -, -, -, -, -, -, -, -, -, -, -, -, -, -, -, -, hfence, -⟩ :=
    h strayRun strayRun 0 0 0 0 0 0 [] 0 0 0 0 0 [] {} []
  obtain ⟨hkilling, hover⟩ := strayRun_fence_over
  obtain ⟨t, ht, -, -, hnone⟩ := hfence hkilling hover
  obtain ⟨u, hu, hruns⟩ := runs_killFenceEnd_strayRun
  obtain ⟨r, hr, hctx⟩ := markMaps_strayRun_lists_run_of_context_zero
  obtain rfl : t = u := Host.Outcome.next.inj (ht.symm.trans hu)
  exact hnone r (hruns ▸ hr) hctx

end Sys2Proof.Machine
end

section
/-!
Gears, park, the drag, the clock mask, replays, heat, spares and time of day (04 R106 to R124; 01 R14 to R16, R43): what each of these
steps does in each of its cases.
-/
namespace Sys2Proof.Machine

/-! ## A rail that settles (04 R109, R110, R113) -/

section
variable {s : State} {tile : Nat} {g : Gear}

theorem exec_gearRailSettled_eq_self (h : (getTile s tile).changing = none) : exec (.gearRailSettled tile) s = .next s := by
  simp [exec_gearRailSettled, execGearRailSettled, event, h]

variable (hchanging : (getTile s tile).changing = some g)
include hchanging

theorem exec_gearRailSettled_of_powered (h : (getTile s tile).gear ≠ .park) : exec (.gearRailSettled tile) s =
    .next (gearCheck (resumeTile (modTile s tile (fun t => { t with gear := g, changing := none })) tile) tile) := by
  simp [exec_gearRailSettled, execGearRailSettled, event, hchanging, h]

theorem exec_gearRailSettled_of_parked (h : (getTile s tile).gear = .park) : exec (.gearRailSettled tile) s =
    .next (gearCheck (resumeTile (modTile s tile (fun t =>
      { t with gear := g, changing := none, wakeAsked := false, wakeGear := none })) tile) tile) := by
  simp [exec_gearRailSettled, execGearRailSettled, event, hchanging, h]

end

/-! ## The L2 rail (04 R107) -/

section
variable {s : State} {cluster : Nat}

theorem exec_l2RailLower_eq_self (h : clusterGallops s cluster = true ∨ (getCluster s cluster).railLow = true) :
    exec (.l2RailLower cluster) s = .next s := by
  simp [exec_l2RailLower, execL2RailLower, event, h]

theorem exec_l2RailLower_lowers (hslow : clusterGallops s cluster = false) (hhigh : (getCluster s cluster).railLow = false) :
    ∃ u, exec (.l2RailLower cluster) s = .next u ∧ (getCluster u cluster).railLow = true ∧ (getCluster u cluster).decTed = true := by
  simp [exec_l2RailLower, execL2RailLower, event, hslow, hhigh]

theorem exec_l2RailRisen_eq_self (h : (getCluster s cluster).railLow = true) : exec (.l2RailRisen cluster) s = .next s := by
  simp [exec_l2RailRisen, execL2RailRisen, event, h]

theorem exec_l2RailRisen_rises (h : (getCluster s cluster).railLow = false) :
    exec (.l2RailRisen cluster) s = .next (modCluster s cluster (fun c => { c with decTed := false })) := by
  simp [exec_l2RailRisen, execL2RailRisen, event, h]

end

/-! ## A change of gear that begins (04 R107, R109) -/

section
variable (s : State) (k : Nat) (g : Gear)

theorem getTile_beginChange : getTile (beginChange s k g) k = { getTile s k with changing := some g } := by
  unfold beginChange
  split <;> simp

theorem agenda_beginChange : .gearRailSettled k ∈ (beginChange s k g).agenda := by
  unfold beginChange
  split <;> simp [later]

theorem lastWake_beginChange (c : Nat) : (getCluster (beginChange s k g) c).lastWake = (getCluster s c).lastWake := by
  unfold beginChange
  split
  · by_cases h : c = k / 8
    · subst h
      simp
    · simp [getCluster_modCluster_ne _ _ h]
  · simp

end

/-! ## PARK and WAKE (04 R112, R113) -/

section
variable {s : State} {tile : Nat}

theorem exec_park_parks (h : mayPark s tile = true) :
    exec (.park tile) s = .next (modTile s tile (fun t => { t with gear := .park, parkTick := s.now })) := by
  simp [exec_park, execPark, event, h]

theorem exec_park_of_busy (h : mayPark s tile = false) : exec (.park tile) s = .next (idleCheck s tile) := by
  simp [exec_park, execPark, event, h]

theorem exec_wake_of_powered (h : (getTile s tile).gear ≠ .park) :
    exec (.wake tile) s = .next (modTile s tile (fun t => { t with wakeAsked := false, wakeGear := none })) := by
  simp [exec_wake, execWake, event, h]

variable (hpark : (getTile s tile).gear = .park) (hstill : (getTile s tile).changing = none) (hasked : (getTile s tile).wakeAsked = true)
include hpark hstill hasked

theorem exec_wake_waits (h : s.now < wakeReady (getTile s tile) ∨ wakesFirst s tile = true) :
    exec (.wake tile) s = .next (later s [.wake tile]) := by
  rcases h with h | h <;> simp [exec_wake, execWake, event, hpark, hstill, hasked, h]

/-- 04 R113: the wake of a tile whose turn it is begins the change to the gear that the work asks for. -/
theorem exec_wake_begins (hready : wakeReady (getTile s tile) ≤ s.now)
    (hrush : ∀ k, (getCluster s (tile / 8)).lastWake = some k → k + 50 ≤ s.now) (hfirst : wakesFirst s tile = false) :
    exec (.wake tile) s = .next (beginChange
      (modTile (modCluster s (tile / 8) (fun c => { c with lastWake := some s.now })) tile (fun t => { t with wakeAsked := false, wakeGear := none }))
      tile ((getTile s tile).wakeGear.getD (if 240 ≤ tolerance s tile then .walk else .gallop))) := by
  have hgap : (getCluster s (tile / 8)).lastWake.any (fun w => decide (s.now < w + 50)) = false := by
    cases hlast : (getCluster s (tile / 8)).lastWake with
    | none => rfl
    | some k => simpa using hrush k hlast
  simp [exec_wake, execWake, event, hpark, hstill, hasked, hready.not_gt, hgap, hfirst]

theorem exec_wake_effect (hready : wakeReady (getTile s tile) ≤ s.now)
    (hrush : ∀ k, (getCluster s (tile / 8)).lastWake = some k → k + 50 ≤ s.now) (hfirst : wakesFirst s tile = false) :
    ∃ u, exec (.wake tile) s = .next u ∧ (getTile u tile).wakeAsked = false ∧ .gearRailSettled tile ∈ u.agenda ∧
      (getCluster u (tile / 8)).lastWake = some s.now ∧
      (getTile u tile).changing = some ((getTile s tile).wakeGear.getD (if 240 ≤ tolerance s tile then .walk else .gallop)) := by
  refine ⟨_, exec_wake_begins hpark hstill hasked hready hrush hfirst, ?_, agenda_beginChange .., ?_, ?_⟩
  · simp [getTile_beginChange]
  · simp [lastWake_beginChange]
  · simp [getTile_beginChange]

end

/-! ## LATTOL (04 R114, R115) -/

theorem followTolerance_host (s : State) (tiles : List Nat) : (followTolerance s tiles).host = s.host := by
  unfold followTolerance
  refine List.foldlRecOn (motive := fun u : State => u.host = s.host) _ _ rfl (fun u hu t _ => ?_)
  split
  · exact hu
  · exact (gearCheck_host u t).trans hu

theorem exec_lattolWrite_stores (s : State) (part : Fin 8) (v : Word) :
    ∃ u, exec (.lattolWrite part v) s = .next u ∧ u.host.lattol.get part = v.setWidth 32 := by
  refine ⟨_, rfl, ?_⟩
  rw [followTolerance_host]
  exact Vector.getElem_set_self part.isLt

/-! ## The drag (04 R117, R118) -/

theorem getCluster_foldl_idleCheck (l : List Nat) (s : State) (c : Nat) : getCluster (l.foldl idleCheck s) c = getCluster s c := by
  refine List.foldlRecOn (motive := fun u => getCluster u c = getCluster s c) l idleCheck rfl (fun u hu t _ => ?_)
  rcases idleCheck_cases u t with h | h
  · rw [h, hu]
  · rw [h, getCluster_later_other, hu]

theorem exec_dragStep_counts (s : State) (cluster : Nat) : let c := getCluster s cluster
    ∃ u, exec (.dragStep cluster) s = .next u ∧ (getCluster u cluster).dragStep = c.dragStep + 1 ∧
      (c.finished = [] → c.requests = [] → (getCluster u cluster).units = c.units ∧ u.agenda = s.agenda) := by
  refine ⟨_, rfl, ?_, fun hfinished hrequests => ⟨?_, ?_⟩⟩
  · simp [getCluster_foldl_idleCheck]
  · simp [hfinished, hrequests, releaseUnits, grantUnits]
  · simp [hfinished, hrequests, releaseUnits, grantUnits, later]

/-! ## The clock mask and heat (04 R121; 01 R14) -/

theorem exec_clockMaskAdjust_follows_power (s : State) (cluster powerW : Nat) (hot : Bool) :
    let c := getCluster s cluster
    let limit := s.host.pwrLimit.toNat
    ∃ u, exec (.clockMaskAdjust cluster powerW hot) s = .next u ∧ (getCluster u cluster).hot = false ∧
      (getCluster u cluster).maskN = if limit < powerW ∨ hot ∨ c.hot then min 24 (c.maskN + 1)
        else if powerW * 100 < 97 * limit then c.maskN - 1 else c.maskN := by
  refine ⟨_, rfl, ?_, ?_⟩
  · simp
  · simp [or_assoc]

theorem hot_foldl_modCluster (l : List Nat) (s : State) {k : Nat} (h : k ∈ l ∨ (getCluster s k).hot = true) :
    (getCluster (l.foldl (fun s c => modCluster s c (fun x => { x with hot := true })) s) k).hot = true := by
  induction l generalizing s with
  | nil => simpa using h
  | cons c l ih =>
    refine ih _ ?_
    by_cases hk : k = c
    · subst hk
      simp
    · simpa [hk, getCluster_modCluster_ne] using h

theorem exec_junctionThrottle_heats (s : State) (source : Nat) :
    ∃ u, exec (.junctionThrottle source) s = .next (logRecord u { cls := .thermal, sub := 1, source := source }) ∧
      ∀ k < 128, (getCluster u k).hot = true :=
  ⟨_, rfl, fun _ hk => hot_foldl_modCluster _ s (.inl (List.mem_range.mpr hk))⟩

/-! ## Timing replays and wear (04 R122, R123; 01 R15) -/

section
variable {s : State} {tile : Nat}

theorem exec_timingReplay_of_walk (h : (getTile s tile).gear = .walk) :
    exec (.timingReplay tile) s = .next (modDie (modTile s tile (fun t => { t with winWalk := t.winWalk + 1 })) (tile / 128) (fun d =>
      let n := (getDie s (tile / 128)).replays.get (0, 0) (physTile s tile)
      { d with replays := d.replays.set (physTile s tile) (n.1 + 1, n.2) })) := by
  simp [exec_timingReplay, execTimingReplay, event, h]

theorem exec_timingReplay_of_gallop (h : (getTile s tile).gear = .gallop) :
    exec (.timingReplay tile) s = .next (modDie (modTile s tile (fun t => { t with winGallop := t.winGallop + 1 })) (tile / 128) (fun d =>
      let n := (getDie s (tile / 128)).replays.get (0, 0) (physTile s tile)
      { d with replays := d.replays.set (physTile s tile) (n.1, n.2 + 1) })) := by
  simp [exec_timingReplay, execTimingReplay, event, h]

theorem exec_timingReplay_of_park (h : (getTile s tile).gear = .park) : exec (.timingReplay tile) s = .next s := by
  simp [exec_timingReplay, execTimingReplay, event, h]

end

/-- Each replay counts for the physical tile that serves the position, in the counter of its gear. -/
theorem exec_timingReplay_counts_walk {s : State} {tile die : Nat} (hdie : tile / 128 = die) (h : (getTile s tile).gear = .walk) :
    let n := (getDie s die).replays.get (0, 0) (physTile s tile)
    ∃ u, exec (.timingReplay tile) s = .next u ∧ (getDie u die).replays.get (0, 0) (physTile s tile) = (n.1 + 1, n.2) := by
  subst hdie
  exact ⟨_, exec_timingReplay_of_walk h, by simp⟩

theorem exec_timingReplay_counts_gallop {s : State} {tile die : Nat} (hdie : tile / 128 = die) (h : (getTile s tile).gear = .gallop) :
    let n := (getDie s die).replays.get (0, 0) (physTile s tile)
    ∃ u, exec (.timingReplay tile) s = .next u ∧ (getDie u die).replays.get (0, 0) (physTile s tile) = (n.1, n.2 + 1) := by
  subst hdie
  exact ⟨_, exec_timingReplay_of_gallop h, by simp⟩

theorem exec_timingReplay_counts_window (s : State) (tile : Nat) : let t := getTile s tile
    ∃ u, exec (.timingReplay tile) s = .next u ∧
      (getTile u tile).winWalk = t.winWalk + (if t.gear = .walk then 1 else 0) ∧
      (getTile u tile).winGallop = t.winGallop + (if t.gear = .gallop then 1 else 0) := by
  intro t
  cases hgear : t.gear with
  | park => exact ⟨_, exec_timingReplay_of_park hgear, rfl, rfl⟩
  | walk => exact ⟨_, exec_timingReplay_of_walk hgear, by simp [t], by simp [t]⟩
  | gallop => exact ⟨_, exec_timingReplay_of_gallop hgear, by simp [t], by simp [t]⟩

theorem exec_healthWindow_triggers (s : State) (tile : Nat) (cycles : List (Nat × Nat × Nat)) :
    ∃ u, exec (.healthWindow cycles) s = .next u ∧ (getTile u tile).winWalk = 0 ∧ (getTile u tile).winGallop = 0 ∧
      ∀ e ∈ cycles, e.2.1 < (getTile s e.1).winWalk * 2 ^ 12 ∨ e.2.2 < (getTile s e.1).winGallop * 2 ^ 16 →
        .wearTrigger (.tile (e.1 / 128) (e.1 % 128)) ∈ u.agenda := by
  have hcleared := smap_get_map s.tiles (fun t => { t with winWalk := 0, winGallop := 0 }) {} tile
  refine ⟨_, rfl, congrArg Tile.winWalk hcleared, congrArg Tile.winGallop hcleared, fun e he hworn => ?_⟩
  exact List.mem_append_right _ (List.mem_map.mpr ⟨e, List.mem_filter.mpr ⟨he, by simpa using hworn⟩, rfl⟩)

/-! ## Time (01 R43) -/

theorem time1588_at_sample {s : State} (h : s.mgmt.sampleFloor.1 < s.mgmt.sampleSeconds) :
    time1588 s s.mgmt.sampleTick = (s.mgmt.sampleSeconds, 0) := by
  simp [time1588, h.not_gt, h.ne']

/-- At the edge, 1588 time is the edge's own second, unless the pair before already gave a later time. -/
theorem exec_ppsEdge_samples (s : State) :
    ∃ u, exec .ppsEdge s = .next u ∧ u.mgmt.todSeconds = s.mgmt.todSeconds + 1 ∧ u.mgmt.sampleTick = s.now ∧
      u.mgmt.sampleSeconds = s.mgmt.todSeconds ∧
      ((time1588 s s.now).1 < s.mgmt.todSeconds → time1588 u s.now = (s.mgmt.todSeconds, 0)) :=
  ⟨_, rfl, rfl, rfl, rfl, fun hfloor => time1588_at_sample hfloor⟩

/-! ## Wear triggers (01 R15, R16) -/

/-- The swap of what is worn is now pending. -/
def swapPending (s : State) (w : Wear) : State := modMgmt s (fun m => { m with pendingSpares := m.pendingSpares ++ [w] })

section
variable {s : State} {w : Wear}

theorem exec_wearTrigger_of_pending (h : w ∈ s.mgmt.pendingSpares) : exec (.wearTrigger w) s = .next s :=
  congrArg Host.Outcome.next (if_pos h)

theorem exec_wearTrigger_of_lane {port lane : Nat} (hport : port < 36) (h : .lane port lane ∉ s.mgmt.pendingSpares) :
    exec (.wearTrigger (.lane port lane)) s = .next (soon s [.wearingLaneReplace ⟨port, hport⟩ lane]) :=
  congrArg Host.Outcome.next ((if_neg h).trans (dif_pos hport))

theorem exec_wearTrigger_of_tile {die pos : Nat} (h : .tile die pos ∉ s.mgmt.pendingSpares) :
    exec (.wearTrigger (.tile die pos)) s =
      .next (soon (swapPending s (.tile die pos))
        ((if isColumn s die pos && decide (8 ≤ (getDie s die).sparesUsed) then [.roleMove die pos] else []) ++ [.spareSwap (.tile die pos)])) :=
  congrArg Host.Outcome.next (if_neg h)

theorem exec_wearTrigger_swaps (h : w ∉ s.mgmt.pendingSpares) (hlane : ∀ p l, w ≠ .lane p l)
    (hspare : ∀ x k, w = .tile x k → isColumn s x k = false ∨ (getDie s x).sparesUsed < 8) :
    exec (.wearTrigger w) s = .next (soon (swapPending s w) [.spareSwap w]) := by
  cases w with
  | tile die pos =>
    have hstay : (isColumn s die pos && decide (8 ≤ (getDie s die).sparesUsed)) = false := by
      rcases hspare die pos rfl with hcol | hused
      · simp [hcol]
      · simp [hused]
    rw [exec_wearTrigger_of_tile h, hstay]
    rfl
  | lane port lane => exact absurd rfl (hlane port lane)
  | row stack pc bank row => exact congrArg Host.Outcome.next (if_neg h)
  | channel stack pc => exact congrArg Host.Outcome.next (if_neg h)
  | feltColumn array column => exact congrArg Host.Outcome.next (if_neg h)

theorem exec_wearTrigger_moves_roles {die pos : Nat} (h : .tile die pos ∉ s.mgmt.pendingSpares) (hcol : isColumn s die pos = true)
    (hused : 8 ≤ (getDie s die).sparesUsed) : exec (.wearTrigger (.tile die pos)) s =
      .next (soon (swapPending s (.tile die pos)) [.roleMove die pos, .spareSwap (.tile die pos)]) := by
  simp [exec_wearTrigger_of_tile h, hcol, hused]

end

/-! ## Spare swaps (01 R15, R16) -/

section
variable (s : State) (sub source used total : Nat) (detail : List Byte)

@[simp] theorem getDie_spareUsed (d : Nat) : getDie (spareUsed s sub source used total detail) d = getDie s d := by
  unfold spareUsed
  split <;> rfl

@[simp] theorem spareUsed_pendingSpares : (spareUsed s sub source used total detail).mgmt.pendingSpares = s.mgmt.pendingSpares := by
  unfold spareUsed
  split <;> rfl

end

/-- A tile that is worn while its die has a spare: the spare serves its position, and what is pending stays. -/
theorem swapTile_of_spare {s : State} {die : Nat} (pos : Nat) (h : (getDie s die).sparesUsed < 8) :
    (getDie (swapTile s die pos) die).moved.get pos pos = 128 + (getDie s die).sparesUsed ∧
      (getDie (swapTile s die pos) die).sparesUsed = (getDie s die).sparesUsed + 1 ∧
      (swapTile s die pos).mgmt.pendingSpares = s.mgmt.pendingSpares := by
  simp [swapTile, h]

/-- The swap of what is worn is no longer pending: it is made. -/
def swapTaken (s : State) (w : Wear) : State :=
  modMgmt s (fun m => { m with pendingSpares := without m.pendingSpares w, pendingLogged := without m.pendingLogged w })

theorem not_mem_without {α : Type} [DecidableEq α] (l : List α) (x : α) : x ∉ without l x := by
  simp [without]

section
variable {s : State} {w : Wear}

theorem exec_spareSwap_eq_self (h : w ∉ s.mgmt.pendingSpares) : exec (.spareSwap w) s = .next s := by
  simp [exec_spareSwap, execSpareSwap, event, h]

variable (hpending : w ∈ s.mgmt.pendingSpares)
include hpending

theorem exec_spareSwap_waits_logged (hbusy : swapReady s w = false) (h : w ∈ s.mgmt.pendingLogged) :
    exec (.spareSwap w) s = .next (later s [.spareSwap w]) := by
  simp [exec_spareSwap, execSpareSwap, event, hpending, hbusy, h]

/-- 01 R16: the first time that a swap must wait, one record says so. -/
theorem exec_spareSwap_waits_first (hbusy : swapReady s w = false) (h : w ∉ s.mgmt.pendingLogged) :
    exec (.spareSwap w) s = .next (later
      (spareRecordOf (modMgmt s (fun m => { m with pendingLogged := m.pendingLogged ++ [w] })) 7 (wearSource s w)) [.spareSwap w]) := by
  simp [exec_spareSwap, execSpareSwap, event, hpending, hbusy, h]

end

section
variable {s : State} {die pos : Nat} (hpending : .tile die pos ∈ s.mgmt.pendingSpares) (hready : swapReady s (.tile die pos) = true)
include hpending hready

theorem exec_spareSwap_of_tile : exec (.spareSwap (.tile die pos)) s = .next (swapTile (swapTaken s (.tile die pos)) die pos) := by
  simp [exec_spareSwap, execSpareSwap, event, hpending, hready, swapTaken]

theorem exec_spareSwap_takes_spare (h : (getDie s die).sparesUsed < 8) :
    ∃ u, exec (.spareSwap (.tile die pos)) s = .next u ∧ (getDie u die).moved.get pos pos = 128 + (getDie s die).sparesUsed ∧
      (getDie u die).sparesUsed = (getDie s die).sparesUsed + 1 ∧ .tile die pos ∉ u.mgmt.pendingSpares := by
  obtain ⟨hmoved, hused, hleft⟩ := swapTile_of_spare (s := swapTaken s (.tile die pos)) pos h
  refine ⟨_, exec_spareSwap_of_tile hpending hready, hmoved, hused, ?_⟩
  rw [hleft]
  exact not_mem_without _ _

end

/-! ## Role moves (03 R80) -/

section
variable {s : State} {die pos : Nat}

theorem exec_roleMove_moves
    (h : pos ∈ (getDie s die).fenced ∨ (.tile die pos ∈ s.mgmt.pendingSpares ∧ 8 ≤ (getDie s die).sparesUsed)) :
    exec (.roleMove die pos) s = .next (moveRoles s die pos) := by
  simp [exec_roleMove, execRoleMove, event, h]

theorem exec_roleMove_eq_self (hserves : pos ∉ (getDie s die).fenced) (hsound : .tile die pos ∉ s.mgmt.pendingSpares) :
    exec (.roleMove die pos) s = .next s := by
  simp [exec_roleMove, execRoleMove, event, hserves, hsound]

end

/-- Settles O50: step by step, each case by the lemma that states it. -/
theorem powerHeatAndSparesStep : Obligations.PowerHeatAndSparesStep := by
  unfold Obligations.PowerHeatAndSparesStep
  intro s tile cluster powerW source seconds die pos port lane part hot g v cycles w t c owner d counts pending taken record
  refine ⟨exec_gearRailSettled_eq_self, exec_gearRailSettled_of_powered, exec_gearRailSettled_of_parked, exec_l2RailLower_eq_self,
    exec_l2RailLower_lowers, exec_l2RailRisen_eq_self, exec_l2RailRisen_rises, exec_park_parks, exec_park_of_busy, exec_wake_of_powered,
    fun hpark hstill hasked => ⟨exec_wake_waits hpark hstill hasked, exec_wake_effect hpark hstill hasked⟩, exec_lattolWrite_stores s part v,
    exec_dragStep_counts s cluster, exec_clockMaskAdjust_follows_power s cluster powerW hot, exec_timingReplay_counts_window s tile,
    ?_, ?_,
    exec_healthWindow_triggers s tile cycles, exec_junctionThrottle_heats s source, rfl, rfl, exec_ppsEdge_samples s,
    exec_wearTrigger_of_pending, exec_wearTrigger_of_lane, exec_wearTrigger_swaps, ?_, exec_spareSwap_eq_self,
    exec_spareSwap_waits_logged, exec_spareSwap_waits_first, ?_, ?_, exec_roleMove_moves, exec_roleMove_eq_self⟩
  · rintro rfl hpos
    exact exec_timingReplay_counts_walk (by omega)
  · rintro rfl hpos
    exact exec_timingReplay_counts_gallop (by omega)
  · rintro rfl
    exact exec_wearTrigger_moves_roles
  · rintro rfl
    exact exec_spareSwap_of_tile
  · rintro rfl
    exact exec_spareSwap_takes_spare

end Sys2Proof.Machine
end

section
/-!
A local store need not read back from the tile of the agent that issues next (14 R324): a refutation of the claim that it does. A store ends
with the choice of the next agent (05 R140, assumption log 2), and the claim reads the stored bytes back at that agent's tile. Where two
strands on different tiles can issue, whichever is chosen, the store of the other one refutes it.
-/
namespace Sys2Proof.Machine

/-! ## Two strands on two tiles, each about to store a byte -/

/-- The first byte of a scratchpad that begins 64 KiB into the pool. -/
def scratchAddress : Word := BitVec.ofNat 64 (windowBase + 0x10000)

/-- A strand in a block, with the byte 9 in X5 and its address in X6. -/
def storingStrand : Strand :=
  { act := .block 1 0, pc := 0x1000, x := Vector.ofFn (fun r => if r = 5 then 9 else if r = 6 then scratchAddress else 0) }

/-- A tile whose scratchpad reaches from 64 KiB to 256 KiB, with nothing written in its pool. -/
def emptyScratch : Tile := { pbLo := 16, pbMid := 64, pbHi := 96, panCnt := 1 }

/-- Strands 0 and 16, of tiles 0 and 1, are both ready; `a` issues. -/
def twoStorers (a : Agent) : State :=
  { cur := a, strands := [(0, storingStrand), (16, storingStrand)], tiles := [(0, emptyScratch), (1, emptyScratch)] }

/-- The two agents of `twoStorers`. -/
abbrev storers : List Agent := [.strand 0, .strand 16]

/-! ## What the store of either does -/

theorem passes_twoStorers : ∀ a ∈ storers, Passes (immForm [5, 6]) (twoStorers a) := by decide

theorem address_twoStorers : ∀ a ∈ storers,
    readX (me (twoStorers a)) 6 + extended (me (twoStorers a)) 13 0 * BitVec.ofNat 64 (2 ^ (0 : BitVec 2).toNat) = scratchAddress := by decide

theorem local_twoStorers : ∀ a ∈ storers, Local (twoStorers a) scratchAddress 1 := by
  intro a ha
  have hchecks : ∀ a ∈ storers, isCourier (twoStorers a).cur = false ∧
      inSpillOrScratch (getTile (twoStorers a) (agentTile (twoStorers a).cur)) (scratchAddress.toNat - windowBase) 1 = true ∧
      Sound (twoStorers a) (agentTile (twoStorers a).cur) (scratchAddress.toNat - windowBase) 1 := by decide
  obtain ⟨hstrand, hinside, hsound⟩ := hchecks a ha
  exact ⟨hstrand, Nat.mod_one _, by decide, hinside, hsound⟩

theorem pool_wf_twoStorers : ∀ a ∈ storers, (getTile (twoStorers a) (localTile (twoStorers a))).pool.wf = true := by decide

theorem memGet_pool_twoStorers (a b : Agent) (hb : b ∈ storers) (x : Nat) : memGet (getTile (twoStorers a) (agentTile b)).pool x = 0 := by
  rcases List.mem_pair.mp hb with rfl | rfl <;> rfl

/-- The store completes. Both strands can issue then, so the free choice takes one of them whichever has stored. -/
theorem exec_st_twoStorers : ∀ a ∈ storers, ∃ t, exec (.st 5 6 0 0) (twoStorers a) = .next t ∧
    t.cur = storers.getD (Config.freePick 1 % 2) a := by
  intro a ha
  rcases List.mem_pair.mp ha with rfl | rfl <;> exact ⟨_, rfl, rfl⟩

/-- Some strand's store is followed by the strand of the other tile. -/
theorem exists_storer_before_other_tile : ∃ a ∈ storers, ∃ b ∈ storers, agentTile b ≠ agentTile a ∧
    ∃ t, exec (.st 5 6 0 0) (twoStorers a) = .next t ∧ t.cur = b := by
  obtain hpick | hpick : Config.freePick 1 % 2 = 0 ∨ Config.freePick 1 % 2 = 1 := Nat.mod_two_eq_zero_or_one _
  · obtain ⟨t, ht, hcur⟩ := exec_st_twoStorers (.strand 16) (by decide)
    exact ⟨.strand 16, by decide, .strand 0, by decide, by decide, t, ht, by rw [hcur, hpick]; rfl⟩
  · obtain ⟨t, ht, hcur⟩ := exec_st_twoStorers (.strand 0) (by decide)
    exact ⟨.strand 0, by decide, .strand 16, by decide, by decide, t, ht, by rw [hcur, hpick]; rfl⟩

/-- Refutes O10: after the store in `twoStorers` the issuing agent is on the other tile, whose pool the claim's own frame keeps at zero,
while its first part would have the stored 9 there. The bytes do stand in the pool of the tile that stored them, `localTile s`. -/
theorem not_localAccessesReachThePool : ¬ Obligations.LocalAccessesReachThePool := by
  intro h
  obtain ⟨-, -, hstore⟩ := h
  obtain ⟨a, ha, b, hb, htile, t, ht, hcur⟩ := exists_storer_before_other_tile
  have hst := hstore (twoStorers a) t 5 6 0 0
  simp only [address_twoStorers a ha] at hst
  obtain ⟨hread, hframe, -⟩ := hst (passes_twoStorers a ha) (local_twoStorers a ha) (pool_wf_twoStorers a ha) ht
  have hzero : memGet (getTile t (agentTile b)).pool (localOff scratchAddress) = 0 :=
    (hframe (agentTile b) _ (Or.inl htile)).trans (memGet_pool_twoStorers a b hb _)
  have hnine : memGet (getTile t (agentTile b)).pool (localOff scratchAddress) = 9 := by
    have hbyte : ∀ a ∈ storers, leBytes 1 (readX (me (twoStorers a)) 5).toNat = [9] := by decide
    have hbytes : [memGet (getTile t (agentTile t.cur)).pool (localOff scratchAddress)] = [9] := hread.trans (hbyte a ha)
    exact hcur ▸ List.head_eq_of_cons_eq hbytes
  exact absurd (hzero.symm.trans hnine) (by decide)

end Sys2Proof.Machine
end

section
/-!
PROOFS. The form of the memories of a state, and the operations on the state that keep it (O59): HBM, the staging buffer, pools and
accumulators, and what removals saved. Each operation writes a memory with the writers of the memory or leaves it, so its lemma cites those
of the operations that it calls.
-/
namespace Sys2Proof.Machine

/-! ## States whose memories have their form -/

/-- Both memories of a tile have their form. -/
def TileFormed (t : Tile) : Prop := t.pool.wf = true ∧ t.acc.wf = true

/-- The banks that a removal kept have their form. -/
def BanksFormed (bs : List (Nat × Memory)) : Prop := ∀ e ∈ bs, e.2.wf = true

def BlocksFormed (bs : List SavedBlock) : Prop := ∀ b ∈ bs, BanksFormed b.banks

def ImageFormed (i : SavedImage) : Prop := i.pool.wf = true ∧ BlocksFormed i.active

def ImagesFormed (is : List SavedImage) : Prop := ∀ i ∈ is, ImageFormed i

def RunFormed (r : Run) : Prop := BlocksFormed r.saved ∧ ImagesFormed r.images

def TilesFormed (m : SMap Tile) : Prop := ∀ e ∈ m, TileFormed e.2

def RunsFormed (m : SMap Run) : Prop := ∀ e ∈ m, RunFormed e.2

theorem blocksFormed_nil : BlocksFormed [] := List.forall_mem_nil _

theorem imagesFormed_nil : ImagesFormed [] := List.forall_mem_nil _

/-- Every memory of a state has its form: what O59 says of a state, part by part of the state (`formed_iff`). -/
def Formed (s : State) : Prop := s.hbm.wf = true ∧ s.mgmt.staging.wf = true ∧ TilesFormed s.tiles ∧ RunsFormed s.runs

theorem formed_iff (s : State) : Formed s ↔ ∀ m ∈ memories s, m.wf = true := by
  simp only [Formed, TilesFormed, RunsFormed, TileFormed, RunFormed, BlocksFormed, ImagesFormed, ImageFormed, BanksFormed, memories,
    imageMemories, List.forall_mem_append, List.forall_mem_cons, List.forall_mem_flatMap, List.forall_mem_map, List.not_mem_nil,
    IsEmpty.forall_iff, implies_true, and_true, and_assoc]

/-! ## The parts of a formed state -/

section

variable {s : State} (h : Formed s)

include h

@[simp] theorem hbm_wf : s.hbm.wf = true := h.1

@[simp] theorem staging_wf : s.mgmt.staging.wf = true := h.2.1

@[simp] theorem tiles_formed : TilesFormed s.tiles := h.2.2.1

@[simp] theorem runs_formed : RunsFormed s.runs := h.2.2.2

end

/-- A state made anew from its fields is formed when the four of them that hold memories are. -/
@[simp] theorem formed_mk (urgent agenda cur turns now free strands couriers cores tiles clusters dies hbm sectors dir l2 contexts runs coaches
    generations queues ports requests nextTag nextImage host link ostler depot mgmt felt balances fareTags charges migWaits svcInbox svcPosted
    outPosts engineDone peerReads peerData busOut linkOut) :
    Formed (.mk urgent agenda cur turns now free strands couriers cores tiles clusters dies hbm sectors dir l2 contexts runs coaches
      generations queues ports requests nextTag nextImage host link ostler depot mgmt felt balances fareTags charges migWaits svcInbox svcPosted
      outPosts engineDone peerReads peerData busOut linkOut) ↔
    hbm.wf = true ∧ mgmt.staging.wf = true ∧ TilesFormed tiles ∧ RunsFormed runs := Iff.rfl

/-! ## Maps of tiles and of runs -/

theorem smap_get_of_forall {α : Type} {P : α → Prop} (m : SMap α) (d : α) (k : Nat) (hm : ∀ e ∈ m, P e.2) (hd : P d) : P (m.get d k) := by
  induction m with
  | nil => exact hd
  | cons e rest ih =>
    obtain ⟨he, hrest⟩ := List.forall_mem_cons.mp hm
    unfold SMap.get
    split
    · exact he
    · exact ih hrest

theorem smap_forall_set {α : Type} {P : α → Prop} (m : SMap α) (k : Nat) (v : α) (hm : ∀ e ∈ m, P e.2) (hv : P v) : ∀ e ∈ m.set k v, P e.2 := by
  induction m with
  | nil => exact List.forall_mem_singleton.mpr hv
  | cons e rest ih =>
    obtain ⟨he, hrest⟩ := List.forall_mem_cons.mp hm
    unfold SMap.set
    split
    · exact List.forall_mem_cons.mpr ⟨hv, hrest⟩
    · split
      · exact List.forall_mem_cons.mpr ⟨hv, hm⟩
      · exact List.forall_mem_cons.mpr ⟨he, ih hrest⟩

theorem tileFormed_default : TileFormed {} := ⟨rfl, rfl⟩

theorem runFormed_default : RunFormed {} := ⟨blocksFormed_nil, imagesFormed_nil⟩

@[simp] theorem tile_formed {s : State} (h : Formed s) (k : Nat) : TileFormed (getTile s k) :=
  smap_get_of_forall _ _ _ (tiles_formed h) tileFormed_default

@[simp] theorem pool_wf {s : State} (h : Formed s) (k : Nat) : (getTile s k).pool.wf = true := (tile_formed h k).1

@[simp] theorem acc_wf {s : State} (h : Formed s) (k : Nat) : (getTile s k).acc.wf = true := (tile_formed h k).2

@[simp] theorem run_formed {s : State} (h : Formed s) (r : BitVec 32) : RunFormed (getRun s r) :=
  smap_get_of_forall _ _ _ (runs_formed h) runFormed_default

@[simp] theorem saved_formed {s : State} (h : Formed s) (r : BitVec 32) : BlocksFormed (getRun s r).saved := (run_formed h r).1

@[simp] theorem images_formed {s : State} (h : Formed s) (r : BitVec 32) : ImagesFormed (getRun s r).images := (run_formed h r).2

theorem tilesFormed_set {m : SMap Tile} (hm : TilesFormed m) (k : Nat) {t : Tile} (ht : TileFormed t) : TilesFormed (m.set k t) :=
  smap_forall_set m k t hm ht

theorem runsFormed_set {m : SMap Run} (hm : RunsFormed m) (k : Nat) {r : Run} (hr : RunFormed r) : RunsFormed (m.set k r) :=
  smap_forall_set m k r hm hr

@[simp] theorem tileFormed_iff (t : Tile) : TileFormed t ↔ t.pool.wf = true ∧ t.acc.wf = true := Iff.rfl

@[simp] theorem runFormed_iff (r : Run) : RunFormed r ↔ BlocksFormed r.saved ∧ ImagesFormed r.images := Iff.rfl

@[simp] theorem servedState_ok {α : Type} (a : α) (s : State) : servedState (.ok a s) = s := rfl

@[simp] theorem servedState_bad {α : Type} (code sub : Nat) (s : State) : servedState (.bad code sub s : Served α) = s := rfl

@[simp] theorem servedState_busy {α : Type} (s : State) : servedState (.busy s : Served α) = s := rfl

theorem formed_foldl {α : Type} {f : State → α → State} (hf : ∀ s a, Formed s → Formed (f s a)) (l : List α) {s : State} (h : Formed s) :
    Formed (l.foldl f s) := by
  induction l generalizing s with
  | nil => exact h
  | cons a rest ih => exact ih (hf s a h)

section

variable {s : State}

/-! ### Base -/

@[simp] theorem formed_putAgent (h : Formed s) (a : Agent) (t : Strand) : Formed (putAgent s a t) := by
  unfold putAgent
  split <;> simp [h]

@[simp] theorem formed_modAgent (h : Formed s) (a : Agent) (f : Strand → Strand) : Formed (modAgent s a f) := by
  simp [modAgent, h]

@[simp] theorem formed_modMe (h : Formed s) (f : Strand → Strand) : Formed (modMe s f) := by
  simp [modMe, h]

@[simp] theorem formed_modCore (h : Formed s) (c : Nat) (f : CoreUnit → CoreUnit) : Formed (modCore s c f) := by
  exact h

@[simp] theorem formed_modTile (h : Formed s) (t : Nat) (f : Tile → Tile) (hf : TileFormed (f (getTile s t))) : Formed (modTile s t f) := by
  obtain ⟨hhbm, hstaging, htiles, hruns⟩ := h
  exact ⟨hhbm, hstaging, tilesFormed_set htiles t hf, hruns⟩

@[simp] theorem formed_modCluster (h : Formed s) (c : Nat) (f : Cluster → Cluster) : Formed (modCluster s c f) := by
  exact h

@[simp] theorem formed_modDie (h : Formed s) (d : Nat) (f : Die → Die) : Formed (modDie s d f) := by
  exact h

@[simp] theorem formed_modRun (h : Formed s) (r : BitVec 32) (f : Run → Run) (hf : RunFormed (f (getRun s r))) : Formed (modRun s r f) := by
  obtain ⟨hhbm, hstaging, htiles, hruns⟩ := h
  exact ⟨hhbm, hstaging, htiles, runsFormed_set hruns r.toNat hf⟩

/-- An update of a run that leaves what it has saved. -/
theorem formed_modRun_frame (h : Formed s) (r : BitVec 32) (f : Run → Run) (hs : (f (getRun s r)).saved = (getRun s r).saved)
    (hi : (f (getRun s r)).images = (getRun s r).images) : Formed (modRun s r f) :=
  formed_modRun h r f (by simp [hs, hi, h])

@[simp] theorem formed_modCtx (h : Formed s) (c : BitVec 32) (f : Context → Context) : Formed (modCtx s c f) := by
  exact h

@[simp] theorem formed_soon (h : Formed s) (evs : List Instr) : Formed (soon s evs) := by
  exact h

@[simp] theorem formed_later (h : Formed s) (evs : List Instr) : Formed (later s evs) := by
  exact h

@[simp] theorem formed_wakeCore (h : Formed s) (core : Nat) : Formed (wakeCore s core) := by
  exact h

@[simp] theorem formed_packetDone (h : Formed s) (slot seq : Nat) (f : PacketRun → PacketRun) : Formed (packetDone s slot seq f) := by
  exact h

@[simp] theorem formed_logRecord (h : Formed s) (r : Report) : Formed (logRecord s r) := by
  exact h

@[simp] theorem formed_recordOut (h : Formed s) (r : Fresh) : Formed (recordOut s r) := by
  unfold recordOut
  simp only
  repeat' split
  all_goals simp [h]

@[simp] theorem formed_recordsOut (h : Formed s) : Formed (recordsOut s) := by
  refine formed_foldl (fun s a h => ?_) _ ?_
  · simp [h]
  · simp [h]

@[simp] theorem formed_setFull (h : Formed s) (tile line : Nat) : Formed (setFull s tile line) := by
  grind [setFull, !formed_modTile, !formed_wakeCore, !formed_modCore, tile_formed, = tileFormed_iff]

@[simp] theorem formed_poolWrite (h : Formed s) (tile off : Nat) (bs : List Byte) : Formed (poolWrite s tile off bs) := by
  refine formed_modTile h _ _ ?_
  simp [memWrite_wf, h]

@[simp] theorem formed_landHeld (h : Formed s) (tile line : Nat) : Formed (landHeld s tile line) := by
  grind [landHeld, !formed_modCore, !formed_setFull, !formed_poolWrite]

@[simp] theorem formed_clearFull (h : Formed s) (tile line : Nat) : Formed (clearFull s tile line) := by
  grind [clearFull, !formed_landHeld, !formed_modTile, tile_formed, = tileFormed_iff]

@[simp] theorem formed_barUpdate (h : Formed s) (tile : Nat) (va : Word) (u : BarUpdate) : Formed (barUpdate s tile va u) := by
  unfold barUpdate
  split <;> simp [h]

@[simp] theorem formed_barOrRecord (h : Formed s) (tile : Nat) (va : Word) (u : BarUpdate) (sub : Nat) : Formed (barOrRecord s tile va u sub) := by
  unfold barOrRecord
  split <;> simp [h]

/-! ### Depot -/

@[simp] theorem formed_setPort (h : Formed s) (p : Nat) (f : Port → Port) : Formed (setPort s p f) := by
  exact h

@[simp] theorem formed_putFlit (h : Formed s) (p : Nat) (cls hdrOff : Nat) (payload : List Byte) : Formed (putFlit s p cls hdrOff payload) := by
  grind [putFlit, !formed_setPort, !formed_later, Formed]

@[simp] theorem formed_sendFlit (h : Formed s) (p : Nat) (cls hdrOff : Nat) (payload : List Byte) : Formed (sendFlit s p cls hdrOff payload) := by
  unfold sendFlit
  simp only
  repeat' split
  all_goals simp [h]

@[simp] theorem formed_noteSent (h : Formed s) (p : Nat) (pk : Packet) : Formed (noteSent s p pk) := by
  unfold noteSent
  simp only
  repeat' split
  all_goals simp [h]

@[simp] theorem formed_sendFrom (h : Formed s) (p : Nat) (pk : Packet) : Formed (sendFrom s p pk) := by
  unfold sendFrom
  refine List.foldlRecOn (motive := fun acc : State × Bool => Formed acc.1) _ _ ?_ fun acc hacc b _ => ?_
  · simp [h]
  · simp [hacc]

@[simp] theorem formed_sendPacket (h : Formed s) (pk : Packet) : Formed (sendPacket s pk) := by
  unfold sendPacket
  simp only
  repeat' split
  all_goals simp [h]

@[simp] theorem formed_sendRequest (h : Formed s) (dev : Nat) (agent : Option Agent) (kind : ReqKind) (addr : Word) (ctx : BitVec 32) (op : Nat)
    (body : List Byte) : Formed (sendRequest s dev agent kind addr ctx op body).1 := by
  grind [sendRequest, !formed_later, !formed_modCtx, !formed_sendPacket, Formed]

@[simp] theorem formed_replyTo (h : Formed s) (p : Packet) (op : Nat) (body : List Byte) : Formed (replyTo s p op body) := by
  simp [replyTo, h]

@[simp] theorem formed_acknowledge (h : Formed s) (p : Packet) (reqWord : List Byte) (status sub code value : Nat)
    : Formed (acknowledge s p reqWord status sub code value) := by
  simp [acknowledge, h]

@[simp] theorem formed_staleReads (h : Formed s) (p : Request → Bool) : Formed (staleReads s p) := by
  exact h

@[simp] theorem formed_forgetFar (h : Formed s) (dev pa n : Nat) : Formed (forgetFar s dev pa n) := by
  exact h

@[simp] theorem formed_modSector (h : Formed s) (g : Nat) (f : Sector → Sector) : Formed (modSector s g f) := by
  exact h

@[simp] theorem formed_modDir (h : Formed s) (g : Nat) (f : DirEntry → DirEntry) : Formed (modDir s g f) := by
  exact h

@[simp] theorem formed_readSector (h : Formed s) (g : Nat) (key : BitVec 8) : Formed (servedState (readSector s g key)) := by
  unfold readSector
  simp only
  repeat' split
  all_goals simp [h]

@[simp] theorem formed_writeSector (h : Formed s) (g : Nat) (key : BitVec 8) (v : Vec) : Formed (writeSector s g key v) := by
  refine formed_modSector ?_ _ _
  simp [memWrite_wf, h]

@[simp] theorem formed_physPoke (h : Formed s) (pa : Nat) (b : Byte) : Formed (physPoke s pa b) := by
  obtain ⟨hhbm, hrest⟩ := h
  exact ⟨memSet_wf _ _ _ hhbm, hrest⟩

@[simp] theorem formed_physWrite (h : Formed s) (pa : Nat) (bs : List Byte) : Formed (physWrite s pa bs) := by
  refine formed_foldl (fun s a h => ?_) _ ?_
  · simp [h]
  · simp [h]

@[simp] theorem formed_physWriteKey (h : Formed s) (pa : Nat) (key : BitVec 8) (bs : List Byte) : Formed (physWriteKey s pa key bs) := by
  refine formed_foldl (fun s a h => ?_) _ ?_
  · simp [h]
  · simp [h]

@[simp] theorem formed_homeRead (h : Formed s) (g : Nat) (key : BitVec 8) : Formed (servedState (homeRead s g key)) := by
  grind [homeRead, !formed_readSector, !formed_logRecord, servedState, Formed]

@[simp] theorem formed_nodeNote (h : Formed s) (g : Nat) : Formed (nodeNote s g) := by
  grind [nodeNote, !formed_homeRead, servedState]

@[simp] theorem formed_nodeFault (h : Formed s) (g : Nat) : Formed (nodeFault s g).2.2 := by
  grind [nodeFault, !formed_homeRead, servedState]

@[simp] theorem formed_walkNotes (h : Formed s) (va node : Nat) (levels : List (Nat × Nat)) : Formed (walkNotes s va node levels) := by
  induction levels generalizing s node with
  | nil => exact h
  | cons l rest ih => grind [walkNotes, !formed_nodeNote]

@[simp] theorem formed_walked (h : Formed s) (va : Nat) : Formed (walked s va) := by
  simp [walked, h]

@[simp] theorem formed_parkWrite (h : Formed s) (run : BitVec 32) (off : Nat) (bs : List Byte) (into : Bool)
    : Formed (parkWrite s run off bs into) := by
  simp [parkWrite, h]

@[simp] theorem formed_regionWrite (h : Formed s) (run : BitVec 32) (off : Nat) (bs : List Byte) : Formed (regionWrite s run off bs) := by
  simp [regionWrite, h]

@[simp] theorem formed_regionOr (h : Formed s) (run : BitVec 32) (off : Nat) (bs : List Byte) : Formed (regionOr s run off bs) := by
  simp [regionOr, h]

@[simp] theorem formed_markBit (h : Formed s) (run : BitVec 32) (k j : Nat) : Formed (markBit s run k j) := by
  simp [markBit, h]

@[simp] theorem formed_markRun (h : Formed s) (run : BitVec 32) (r : Run) (g : Nat) (tag : BitVec 32) : Formed (markRun s run r g tag) := by
  unfold markRun
  split
  · exact h
  · refine formed_foldl (fun s a h => ?_) _ h
    grind [!formed_markBit]

@[simp] theorem formed_markMaps (h : Formed s) (g : Nat) (tag : BitVec 32) : Formed (markMaps s g tag) := by
  refine formed_foldl (fun s a h => ?_) _ ?_
  · simp [h]
  · simp [h]

@[simp] theorem formed_poisonWaiting (h : Formed s) (ps : List Packet) : Formed (poisonWaiting s ps) := by
  refine formed_foldl (fun s a h => ?_) _ ?_
  · simp [h]
  · simp [h]

@[simp] theorem formed_makeDerelict (h : Formed s) (g : Nat) (owner : Nat) : Formed (makeDerelict s g owner) := by
  grind [makeDerelict, !formed_modSector, !formed_modDir, !formed_poisonWaiting, !formed_logRecord, Formed]

@[simp] theorem formed_writeBack (h : Formed s) (l : L2Line) : Formed (writeBack s l) := by
  unfold writeBack
  simp only
  split
  · exact h
  · refine formed_foldl (fun s a h => ?_) _ ?_
    · simp [h]
    · split <;> simp [h]

@[simp] theorem formed_dropLine (h : Formed s) (c g dev : Nat) : Formed (dropLine s c g dev) := by
  exact h

@[simp] theorem formed_evictLine (h : Formed s) (l : L2Line) : Formed (evictLine s l) := by
  grind [evictLine, !formed_dropLine, !formed_writeBack, !formed_modDir]

@[simp] theorem formed_awaitSnoop (h : Formed s) (g : Nat) : Formed (awaitSnoop s g) := by
  exact h

@[simp] theorem formed_snoopLocal (h : Formed s) (g c : Nat) : Formed (servedState (snoopLocal s g c)) := by
  grind [snoopLocal, !formed_awaitSnoop, !formed_writeBack, !formed_modDir, !formed_makeDerelict, servedState, Formed]

@[simp] theorem formed_snoopRemote (h : Formed s) (g dev : Nat) : Formed (servedState (snoopRemote s g dev)) := by
  simp [snoopRemote, h]

end

section

variable {s : State}

@[simp] theorem formed_settle (h : Formed s) (g : Nat) (keep : Option Nat) : Formed (servedState (settle s g keep)) := by
  unfold settle
  simp only
  repeat' split
  all_goals simp [h]

@[simp] theorem formed_invalidate (h : Formed s) (g : Nat) (keep : Option Nat) : Formed (servedState (invalidate s g keep)) := by
  unfold invalidate
  extract_lets d s1 cl others s2
  have hs1 : Formed s1 := h
  have hs2 : Formed s2 := formed_foldl (fun s dev h => by simp [h]) _ hs1
  split
  · exact h
  · split
    · simp [hs1]
    · simp [hs2]

@[simp] theorem formed_nodeWait {α : Type} (h : Formed s) (g : Nat) : Formed (servedState (nodeWait s g : Served α)) := by
  grind [nodeWait, !formed_settle, servedState]

@[simp] theorem formed_tableRead (h : Formed s) (pa n : Nat) : Formed (servedState (tableRead s pa n)) := by
  grind [tableRead, !formed_nodeWait, !formed_homeRead, servedState]

@[simp] theorem formed_depotTakes (h : Formed s) (write : Bool) (gs : List Nat) : Formed (servedState (depotTakes s write gs)) := by
  induction gs generalizing s with
  | nil => exact h
  | cons g rest ih => grind [depotTakes, !formed_settle, !formed_invalidate, servedState]

@[simp] theorem formed_depotRead (h : Formed s) (g : Nat) (key : BitVec 8) : Formed (servedState (depotRead s g key)) := by
  grind [depotRead, !formed_settle, !formed_readSector, servedState]

@[simp] theorem formed_depotApply (h : Formed s) (g : Nat) (key : BitVec 8) (mask : Nat) (f : Vec → Vec)
    : Formed (servedState (depotApply s g key mask f)) := by
  grind [depotApply, !formed_settle, !formed_invalidate, !formed_writeSector, !formed_readSector, servedState]

@[simp] theorem formed_depotWrite (h : Formed s) (g : Nat) (key : BitVec 8) (v : Vec) (mask : Nat) (tag : BitVec 32)
    : Formed (servedState (depotWrite s g key v mask tag)) := by
  grind [depotWrite, !formed_depotApply, !formed_markMaps, servedState]

@[simp] theorem formed_spanApply (h : Formed s) (pa : Nat) (key : BitVec 8) (bs : List Byte) (into : Bool) (gs : List Nat)
    : Formed (servedState (spanApply s pa key bs into gs)) := by
  induction gs generalizing s with
  | nil => exact h
  | cons g rest ih => grind [spanApply, !formed_depotApply, servedState]

@[simp] theorem formed_hardwareWalk (h : Formed s) (va : Nat) (since : Option Nat) : Formed (servedState (hardwareWalk s va since)) := by
  unfold hardwareWalk
  simp only
  repeat' split
  all_goals simp [h]

@[simp] theorem formed_unitWalk (h : Formed s) (unit va : Nat) : Formed (servedState (unitWalk s unit va)) := by
  unfold unitWalk
  simp only
  repeat' split
  all_goals simp [h]

@[simp] theorem formed_regionPlace (h : Formed s) (run : BitVec 32) (off : Nat) (since : Option Nat)
    : Formed (servedState (regionPlace s run off since)) := by
  grind [regionPlace, !formed_hardwareWalk, servedState]

@[simp] theorem formed_regionTry (h : Formed s) (run : BitVec 32) (w : RegionWrite) : Formed (servedState (regionTry s run w)) := by
  grind [regionTry, !formed_regionPlace, !formed_spanApply, servedState]

@[simp] theorem formed_regionFlush (h : Formed s) (run : BitVec 32) (fuel : Nat) : Formed (regionFlush s run fuel) := by
  induction fuel generalizing s with
  | zero => exact h
  | succ k ih => grind [regionFlush, !formed_regionTry, !formed_logRecord, !formed_modRun, = runFormed_iff, saved_formed, images_formed, servedState]

@[simp] theorem formed_regionsFlush (h : Formed s) : Formed (regionsFlush s) := by
  refine formed_foldl (fun s a h => ?_) _ ?_
  · simp [h]
  · simp [h]

theorem formed_andThen {α β : Type} {x : Served α} {f : α → State → Served β} (hx : Formed (servedState x))
    (hf : ∀ a s, Formed s → Formed (servedState (f a s))) : Formed (servedState (x.andThen f)) := by
  cases x with
  | ok a s => exact hf a s hx
  | bad code sub s => exact hx
  | busy s => exact hx

@[simp] theorem formed_granulesRead (h : Formed s) (key : BitVec 8) (gs : List Nat) : Formed (servedState (granulesRead s key gs)) := by
  induction gs generalizing s with
  | nil => exact h
  | cons g rest ih =>
    exact formed_andThen (formed_depotRead h g key) fun v s1 h1 => formed_andThen (ih h1) fun bs s2 h2 => h2

@[simp] theorem formed_regionRead (h : Formed s) (run : BitVec 32) (fuel off n : Nat) : Formed (servedState (regionRead s run fuel off n)) := by
  induction fuel generalizing s off n with
  | zero => unfold regionRead; split <;> exact h
  | succ k ih =>
    have hplace := formed_regionPlace h run off (getRun s run).regionSince
    unfold regionRead
    dsimp only
    split
    · exact h
    · split
      · exact h
      · split
        · rename_i p s1 e
          rw [e] at hplace
          refine formed_andThen (formed_granulesRead hplace _ _) fun bs s2 h2 => formed_andThen (ih ?_ _ _) fun rest s3 h3 => h3
          simp [h2]
        · rename_i code sub s1 e
          rw [e] at hplace
          exact hplace
        · rename_i s1 e
          rw [e] at hplace
          simp only [servedState_busy] at hplace ⊢
          exact formed_modRun_frame hplace _ _ rfl rfl

@[simp] theorem formed_regionBytes (h : Formed s) (run : BitVec 32) (off n : Nat) : Formed (servedState (regionBytes s run off n)) := by
  simp [regionBytes, h]

@[simp] theorem formed_l2Fill (h : Formed s) (l : L2Line) : Formed (l2Fill s l) := by
  unfold l2Fill
  simp only
  have hold : ∀ (ls : List L2Line) {s : State}, Formed s → Formed (ls.foldl evictLine s) := fun ls s h =>
    formed_foldl (fun s a h => formed_evictLine h a) ls h
  split
  · exact hold _ h
  · exact hold _ (hold _ h)

@[simp] theorem formed_unmapEntries (h : Formed s) (tile : Nat) (p : StashEntry → Bool) : Formed (unmapEntries s tile p) := by
  refine formed_foldl (fun s a h => ?_) _ ?_
  · simp [h]
  · simp [h]

@[simp] theorem formed_l2Scrub (h : Formed s) (c vline : Nat) : Formed (l2Scrub s c vline) := by
  grind [l2Scrub, !formed_logRecord, !formed_evictLine, Formed]

@[simp] theorem formed_clusterFill (h : Formed s) (c vline g : Nat) (key : BitVec 8) : Formed (servedState (clusterFill s c vline g key)) := by
  grind [clusterFill, !formed_depotRead, !formed_l2Fill, !formed_modDir, servedState]

theorem formed_clusterOwn_own (h : Formed s) (c vline g : Nat) (key : BitVec 8) (whole : Bool) (tag : BitVec 32) :
    Formed (servedState (clusterOwn.own c vline g key whole tag s)) := by
  grind [clusterOwn.own, !formed_settle, !formed_invalidate, !formed_readSector, !formed_l2Fill, !formed_modDir, !formed_markMaps, servedState]

@[simp] theorem formed_clusterOwn (h : Formed s) (c vline g : Nat) (key : BitVec 8) (whole : Bool) (tag : BitVec 32)
    : Formed (servedState (clusterOwn s c vline g key whole tag)) := by
  grind [clusterOwn, !formed_clusterOwn_own, servedState]

@[simp] theorem formed_l2Write (h : Formed s) (c vline off : Nat) (bs : List Byte) (tag : BitVec 32) : Formed (l2Write s c vline off bs tag) := by
  exact h

/-! ### Registers -/

@[simp] theorem formed_clearDepotErr (h : Formed s) (off : Nat) (v : Word) : Formed (clearDepotErr s off v) := by
  unfold clearDepotErr
  split <;> simp [h]

@[simp] theorem formed_depotPut (h : Formed s) (off : Nat) (v : Word) : Formed (depotPut s off v) := by
  simp [depotPut, h]

/-! ### Access -/

@[simp] theorem formed_rolledBack (s : State) {s1 : State} (hs1 : Formed s1) : Formed (rolledBack s s1) := by
  simp [rolledBack, hs1]

@[simp] theorem formed_searchGrants (h : Formed s) (pdom : BitVec 16) (base i count va n : Nat)
    : Formed (servedState (searchGrants s pdom base i count va n)) := by
  induction count generalizing s i with
  | zero => exact h
  | succ k ih => grind [searchGrants, !formed_tableRead, servedState]

@[simp] theorem formed_plbLookup (h : Formed s) (core : Nat) (ctx : BitVec 32) (va n : Nat) : Formed (servedState (plbLookup s core ctx va n)) := by
  grind [plbLookup, !formed_searchGrants, !formed_modCore, servedState]

@[simp] theorem formed_deepProbe (h : Formed s) (va : Nat) (zs : List Nat) : Formed (servedState (deepProbe s va zs)) := by
  induction zs generalizing s with
  | nil => exact h
  | cons g rest ih => grind [deepProbe, !formed_tableRead, servedState]

@[simp] theorem formed_deepFind (h : Formed s) (va : Nat) : Formed (servedState (deepFind s va)) := by
  unfold deepFind
  split <;> simp [h]

theorem formed_ostler (h : Formed s) (o : OstlerRegs) : Formed { s with ostler := o } := h

@[simp] theorem formed_deepInsert (h : Formed s) (va size pte : Nat) : Formed (deepInsert s va size pte) := by
  unfold deepInsert
  split
  · exact h
  · exact formed_ostler (formed_physWriteKey h _ _ _) _

@[simp] theorem formed_tlbInsert (h : Formed s) (c va size pte : Nat) : Formed (tlbInsert s c va size pte) := by
  unfold tlbInsert
  split <;> simp [h]

@[simp] theorem formed_unitLeaf (h : Formed s) (c unit va : Nat) : Formed (servedState (unitLeaf s c unit va)) := by
  grind [unitLeaf, !formed_deepFind, !formed_tlbInsert, !formed_unitWalk, !formed_deepInsert, servedState]

@[simp] theorem formed_depotPages (h : Formed s) (c unit : Nat) (pages : List Nat) : Formed (servedState (depotPages s c unit pages)) := by
  induction pages generalizing s with
  | nil => exact h
  | cons g rest ih => grind [depotPages, !formed_unitLeaf, servedState]

@[simp] theorem formed_depotInSpan (h : Formed s) (c unit va n : Nat) : Formed (servedState (depotInSpan s c unit va n)) := by
  simp [depotInSpan, h]

@[simp] theorem formed_modBuffer (h : Formed s) (run : BitVec 32) (block : Nat) (f : ReadBuffer → ReadBuffer) : Formed (modBuffer s run block f) := by
  unfold modBuffer
  split
  · simp [h]
  · refine formed_modRun h run _ ⟨List.forall_mem_map.mpr fun b hb => ?_, images_formed h run⟩
    split <;> exact saved_formed h run b hb
  · split
    · simp [h]
    · exact h

@[simp] theorem formed_recordEngineRead (h : Formed s) (run : BitVec 32) (block : Nat) (va n : Nat) : Formed (recordEngineRead s run block va n) := by
  grind [recordEngineRead, !formed_modBuffer]

@[simp] theorem formed_recordRead (h : Formed s) (a : Agent) (va n : Nat) : Formed (recordRead s a va n) := by
  unfold recordRead
  simp only
  repeat' split
  all_goals simp [h]

@[simp] theorem formed_awaitRemote (h : Formed s) (a : Agent) (dev : Nat) (kind : ReqKind) (addr : Word) (op : Nat) (body : List Byte)
    : Formed (awaitRemote s a dev kind addr op body) := by
  simp [awaitRemote, h]

@[simp] theorem formed_apertureStarts (h : Formed s) (hit : Nat → Bool) (off : Nat) (bs : List Byte) : Formed (apertureStarts s hit off bs) := by
  unfold apertureStarts
  split <;> simp [h]

@[simp] theorem formed_apertureStart (h : Formed s) (va : Nat) (bs : List Byte) : Formed (apertureStart s va bs) := by
  simp [apertureStart, h]

@[simp] theorem formed_storeRemote (kind : Nat) (a : Agent) (dev pa : Nat) (key : BitVec 8) (va : Word) (bs : List Byte) (rel : Bool) (h : Formed s)
    : Formed (storeRemote kind a dev pa key va bs rel s) := by
  grind [storeRemote, !formed_sendRequest, !formed_forgetFar, !formed_modAgent]

/-! ### Blocks -/

@[simp] theorem formed_idleCheck (h : Formed s) (tile : Nat) : Formed (idleCheck s tile) := by
  unfold idleCheck
  split <;> simp [h]

@[simp] theorem formed_beginChange (h : Formed s) (tile : Nat) (want : Gear) : Formed (beginChange s tile want) := by
  grind [beginChange, !formed_later, !formed_modTile, !formed_modCluster, tile_formed, = tileFormed_iff]

@[simp] theorem formed_gearCheck (h : Formed s) (tile : Nat) : Formed (gearCheck s tile) := by
  grind [gearCheck, !formed_modTile, !formed_idleCheck, !formed_beginChange, tile_formed, = tileFormed_iff]

@[simp] theorem formed_askWake (h : Formed s) (tile : Nat) (gear : Option Gear) : Formed (askWake s tile gear) := by
  grind [askWake, !formed_later, !formed_modTile, tile_formed, = tileFormed_iff]

@[simp] theorem formed_followTolerance (h : Formed s) (tiles : List Nat) : Formed (followTolerance s tiles) := by
  refine formed_foldl (fun s t h => ?_) _ h
  split <;> simp [h]

@[simp] theorem formed_writeEntry (h : Formed s) (run : BitVec 32) (block : Nat) (b : ReadBuffer) (valid : Bool)
    : Formed (writeEntry s run block b valid) := by
  unfold writeEntry
  simp only
  repeat' split
  all_goals simp [h]

@[simp] theorem formed_endEntry (h : Formed s) (run : BitVec 32) (block : Nat) (b : ReadBuffer) (valid : Bool)
    : Formed (endEntry s run block b valid) := by
  unfold endEntry
  split <;> simp [h]

@[simp] theorem formed_closeEntries (h : Formed s) (run : BitVec 32) : Formed (closeEntries s run) :=
  formed_foldl (fun _ _ h => formed_writeEntry (formed_modRun_frame h _ _ rfl rfl) _ _ _ _) _ h

@[simp] theorem formed_setWbWord (h : Formed s) (run : BitVec 32) (w : Nat) : Formed (setWbWord s run w) := by
  grind [setWbWord, !formed_regionWrite, !formed_modRun, saved_formed, images_formed, = runFormed_iff]

@[simp] theorem formed_armWaits (h : Formed s) (run : BitVec 32) : Formed (servedState (armWaits s run)) := by
  refine List.foldlRecOn (motive := fun r : Served Unit => Formed (servedState r)) _ _ h fun r hr vp _ => ?_
  grind [!formed_settle, servedState]

@[simp] theorem formed_cleanPage (h : Formed s) (pa : Nat) : Formed (cleanPage s pa) := by
  refine formed_foldl (fun s l h => ?_) _ h
  grind [!formed_snoopLocal, servedState]

@[simp] theorem formed_cleanWatched (h : Formed s) (run : BitVec 32) : Formed (cleanWatched s run) := by
  refine formed_foldl (fun s e h => ?_) _ h
  split
  · simp [h]
  · exact h

@[simp] theorem formed_armRun (h : Formed s) (run : BitVec 32) : Formed (armRun s run) := by
  unfold armRun
  extract_lets r pages s1 w w'
  have hs1 : Formed s1 := formed_foldl (fun s e h => by split <;> simp [h]) _ h
  split
  · exact h
  · exact formed_setWbWord (formed_modRun_frame hs1 _ _ rfl rfl) _ _

theorem formed_modSaved (h : Formed s) (image : Nat) {f : SavedImage → SavedImage} (hf : ∀ i, ImageFormed i → ImageFormed (f i)) :
    Formed (modSaved s image f) := by
  obtain ⟨hhbm, hstaging, htiles, hruns⟩ := h
  refine ⟨hhbm, hstaging, htiles, List.forall_mem_map.mpr fun e he => ?_⟩
  obtain ⟨hsaved, himages⟩ := hruns e he
  refine ⟨hsaved, List.forall_mem_map.mpr fun i hi => ?_⟩
  split
  · exact hf i (himages i hi)
  · exact himages i hi

@[simp] theorem formed_savedWrite (h : Formed s) (image off : Nat) (bs : List Byte) : Formed (savedWrite s image off bs) := by
  have h1 : Formed (modSaved s image (fun i => { i with pool := memWrite i.pool off bs })) :=
    formed_modSaved h image fun i ⟨hpool, hactive⟩ => ⟨memWrite_wf _ _ _ hpool, hactive⟩
  unfold savedWrite
  dsimp only
  split
  · simp [h1]
  · exact h1

@[simp] theorem formed_savedBar (h : Formed s) (image : Nat) (va : Word) (u : BarUpdate) : Formed (savedBar s image va u) := by
  simp [savedBar, h]

end

section

variable {s : State}

@[simp] theorem formed_barAt (h : Formed s) (image : Nat) (va : Word) (u : BarUpdate) : Formed (barAt s image va u) := by
  grind [barAt, !formed_barUpdate, !formed_savedBar]

@[simp] theorem formed_arriveAt (h : Formed s) (tile image : Nat) (va : Word) (u : BarUpdate) (sub : Nat)
    : Formed (arriveAt s tile image va u sub) := by
  unfold arriveAt
  split <;> simp [h]

@[simp] theorem formed_dropImage (h : Formed s) (run : BitVec 32) (tile : Nat) : Formed (dropImage s run tile) := by
  unfold dropImage
  extract_lets t ctx left last s1
  have hs1 : Formed s1 := formed_modTile h _ _ ⟨pool_wf h tile, acc_wf h tile⟩
  split
  · refine formed_foldl (fun s c h => formed_modCore h _ _) _ ?_
    split
    · exact formed_unmapEntries hs1 _ _
    · exact hs1
  · exact h

@[simp] theorem formed_dropImages (h : Formed s) (run : BitVec 32) : Formed (dropImages s run) := by
  refine formed_foldl (fun s a h => ?_) _ ?_
  · simp [h]
  · simp [h]

@[simp] theorem formed_releaseRun (h : Formed s) (run : BitVec 32) : Formed (releaseRun s run) := by
  grind [releaseRun, !formed_dropImages, !formed_modRun, !formed_packetDone, !formed_arriveAt, saved_formed, images_formed, = runFormed_iff]

@[simp] theorem formed_completeRun (h : Formed s) (run : BitVec 32) : Formed (completeRun s run) := by
  grind [completeRun, !formed_releaseRun, !formed_modRun, saved_formed, images_formed, = runFormed_iff]

@[simp] theorem formed_armStep (h : Formed s) (run : BitVec 32) : Formed (armStep s run) := by
  grind [armStep, !formed_armWaits, !formed_armRun, !formed_releaseRun, !formed_modRun, servedState, saved_formed, images_formed, = runFormed_iff]

@[simp] theorem formed_releaseRelaunch (h : Formed s) (run : BitVec 32) (origin : Origin) (status code rounds : Nat)
    : Formed (releaseRelaunch s run origin status code rounds) := by
  unfold releaseRelaunch
  extract_lets s1 r s2
  have hs2 : Formed s2 := formed_modRun (formed_dropImages h run) _ _ ⟨blocksFormed_nil, imagesFormed_nil⟩
  split <;> simp [hs2]

@[simp] theorem formed_finishStep (h : Formed s) (run : BitVec 32) : Formed (finishStep s run) := by
  grind [finishStep, !formed_releaseRelaunch]

@[simp] theorem formed_regionsOut (h : Formed s) : Formed (regionsOut s) := by
  refine formed_foldl (fun s a h => ?_) _ ?_
  · simp [h]
  · simp [h]

@[simp] theorem formed_checkRun (h : Formed s) (run : BitVec 32) : Formed (checkRun s run) := by
  unfold checkRun
  simp only
  repeat' split
  all_goals simp [h]

@[simp] theorem formed_freeBanks (h : Formed s) (n : Nat) : Formed (freeBanks s n) := by
  simp [freeBanks, h]

@[simp] theorem formed_freeStrand (h : Formed s) (n : Nat) : Formed (freeStrand s n) := by
  grind [freeStrand, !formed_modCore, !formed_gearCheck, !formed_wakeCore, Formed]

@[simp] theorem formed_abandonRound (h : Formed s) (run : BitVec 32) : Formed (abandonRound s run) := by
  grind [abandonRound, !formed_modRun, saved_formed, images_formed, = runFormed_iff, Formed]

@[simp] theorem formed_relaunchFails (h : Formed s) (run : BitVec 32) (code : Nat) : Formed (relaunchFails s run code) := by
  grind [relaunchFails, !formed_abandonRound, !formed_modRun, saved_formed, images_formed, = runFormed_iff]

@[simp] theorem formed_finishBlock (h : Formed s) (n : Nat) (code : BitVec 8) : Formed (finishBlock s n code) := by
  grind [finishBlock, !formed_endEntry, !formed_modRun, !formed_abandonRound, !formed_checkRun, !formed_freeStrand, !formed_freeBanks, saved_formed,
    images_formed, = runFormed_iff]

@[simp] theorem formed_endCourier (h : Formed s) (core : Nat) (code : Nat) : Formed (endCourier s core code) := by
  grind [endCourier, !formed_wakeCore, !formed_acknowledge, !formed_checkRun, !formed_arriveAt, Formed]

@[simp] theorem formed_endActivation (h : Formed s) (a : Agent) (code : BitVec 8) : Formed (endActivation s a code) := by
  unfold endActivation
  split <;> simp [h]

/-! ### Ops -/

@[simp] theorem formed_tick (h : Formed s) : Formed (tick s) := by
  exact h

@[simp] theorem formed_noteIssue (h : Formed s) : Formed (noteIssue s) := by
  grind [noteIssue, !formed_modCore]

@[simp] theorem formed_leaveDoze (h : Formed s) (dozed : Bool) (a : Agent) : Formed (leaveDoze s dozed a) := by
  unfold leaveDoze
  split <;> simp [h]

@[simp] theorem formed_retire (h : Formed s) (npc : Word) : Formed (retire s npc) := by
  grind [retire, !formed_tick, !formed_noteIssue, !formed_leaveDoze, !formed_modMe]

/-! ## Postings -/

/-- The state that a posting leaves. -/
def postedState (r : Posted) : State :=
  match r with
  | .done s _ => s
  | .sent s _ => s
  | .again s => s
  | .failed s _ _ => s

theorem formed_postLocal (h : Formed s) (pa : Nat) (key : BitVec 8) (msg : BitVec 32 → List Byte) : Formed (postedState (postLocal s pa key msg)) :=
    by
  grind [postLocal, !formed_depotRead, !formed_depotWrite, servedState, postedState]

@[simp] theorem formed_modPost (h : Formed s) (id : Nat) (f : OutPost → OutPost) : Formed (modPost s id f) := h

@[simp] theorem formed_sendPost (h : Formed s) (p : OutPost) (op off : Nat) (body : List Byte) : Formed (sendPost s p op off body) := by
  simp [sendPost, h]

@[simp] theorem formed_askPost (h : Formed s) (p : OutPost) : Formed (askPost s p) := by
  grind [askPost, formed_modPost, formed_sendPost]

@[simp] theorem formed_dropPost (h : Formed s) (p : OutPost) : Formed (dropPost s p) := by
  grind [dropPost, formed_askPost, Formed]

@[simp] theorem formed_returnPost (h : Formed s) (p : OutPost) (stage : PostStage) (head : List Byte) : Formed (returnPost s p stage head) := by
  grind [returnPost, formed_modPost, formed_sendPost, formed_replyTo]

theorem formed_postMessage (h : Formed s) (unit : Nat) (agent : Option Agent) (ctx : BitVec 32) (source : Nat) (f : FaultInfo) (mb : Word)
    (msg : BitVec 32 → List Byte) : Formed (postedState (postMessage s unit agent ctx source f mb msg)) := by
  grind [postMessage, !formed_postLocal, !formed_unitWalk, !formed_askPost, servedState, postedState, Formed]

@[simp] theorem formed_postFailed (h : Formed s) (ctx : BitVec 32) (source : Nat) (f : FaultInfo) (mb : Word) (code sub : Nat) (kill : Bool)
    : Formed (postFailed s ctx source f mb code sub kill) := by
  grind [postFailed, !formed_logRecord, !formed_later]

@[simp] theorem formed_postStep (h : Formed s) (id code sub : Nat) (data : Option Vec) : Formed (postStep s id code sub data) := by
  grind [postStep, formed_modPost, formed_sendPost, formed_returnPost, formed_askPost, formed_dropPost, formed_postFailed, formed_modAgent]

@[simp] theorem formed_postPending (h : Formed s) (a : Agent) : Formed (postPending s a) := by
  grind [postPending, formed_postMessage, formed_postFailed, formed_modAgent, postedState]

@[simp] theorem formed_takeFault (h : Formed s) (f : FaultInfo) : Formed (takeFault s f) := by
  grind [takeFault, !formed_tick, !formed_postPending, !formed_leaveDoze, !formed_modMe]

@[simp] theorem formed_actOnReply (h : Formed s) (a : Agent) (disp : BitVec 8) (value : Word) : Formed (actOnReply s a disp value) := by
  grind [actOnReply, !formed_putAgent, !formed_modAgent, !formed_freeBanks, !formed_endActivation]

@[simp] theorem formed_deliverReply (h : Formed s) (a : Agent) (mb : Word) (seq : BitVec 32) (disp : BitVec 8) (value : Word)
    : Formed (deliverReply s a mb seq disp value) := by
  unfold deliverReply
  split <;> simp [h]

@[simp] theorem formed_waiting (h : Formed s) : Formed (waiting s) := by
  unfold waiting
  split <;> simp [h]

/-! ### Flags -/

@[simp] theorem formed_setFlags (h : Formed s) (fl : Nat) : Formed (setFlags s fl) := by
  unfold setFlags
  split <;> simp [h]

@[simp] theorem formed_engineFlags (h : Formed s) (tile fl : Nat) : Formed (engineFlags s tile fl) := by
  unfold engineFlags
  split <;> simp [h]

/-! ### SyncOps -/

@[simp] theorem formed_flushRange (h : Formed s) (c base len : Nat) : Formed (flushRange s c base len) := by
  refine formed_foldl (fun s l h => ?_) _ h
  grind [!formed_snoopLocal, servedState]

@[simp] theorem formed_unmapEntry (h : Formed s) (tile : Nat) (e : StashEntry) : Formed (unmapEntry s tile e) := by
  simp [unmapEntry, h]

@[simp] theorem formed_modCarriage (h : Formed s) (i j : Nat) (f : Carriage → Carriage) : Formed (modCarriage s i j f) := by
  exact h

/-! ### Engine -/

@[simp] theorem formed_engineTranslate (h : Formed s) (c unit va : Nat) : Formed (servedState (engineTranslate s c unit va)) := by
  grind [engineTranslate, !formed_unitLeaf, servedState]

@[simp] theorem formed_notePiece (h : Formed s) (unit piece code sub : Nat) : Formed (notePiece s unit piece code sub) := by
  exact h

@[simp] theorem formed_clearPieces (h : Formed s) (unit : Nat) : Formed (clearPieces s unit) := by
  exact h

@[simp] theorem formed_peerLoad (h : Formed s) (a : Agent) (bus n : Nat) : Formed (servedState (peerLoad s a bus n)) := by
  grind [peerLoad, servedState, Formed]

@[simp] theorem formed_engineLoad (h : Formed s) (e : Engine) (va n : Nat) : Formed (servedState (engineLoad s e va n)) := by
  unfold engineLoad
  split
  · exact h
  · split <;> exact h
  · exact formed_tableRead h _ _
  · exact formed_peerLoad h _ _ _
  · grind [!formed_l2Scrub, !formed_engineTranslate, !formed_depotRead, !formed_sendRequest, servedState]

theorem formed_pieceServed (e : Engine) (piece : Nat) {after : State → State} (hafter : ∀ s, Formed s → Formed (after s)) {r : Served Unit}
    (hr : Formed (servedState r)) : Formed (servedState (pieceServed e piece after r)) := by
  cases r with
  | ok a s1 => exact formed_notePiece (hafter s1 hr) _ _ _ _
  | bad code sub s1 => exact formed_notePiece hr _ _ _ _
  | busy s1 => exact hr

@[simp] theorem formed_engineFar (h : Formed s) (e : Engine) (piece va dev pa : Nat) (key : BitVec 8) (bs : List Byte)
    : Formed (engineFar s e piece va dev pa key bs) := by
  unfold engineFar
  split <;> simp [h]

@[simp] theorem formed_engineStore (h : Formed s) (e : Engine) (piece va : Nat) (bs : List Byte)
    : Formed (servedState (engineStore s e piece va bs)) := by
  grind [engineStore, !formed_notePiece, !formed_poolWrite, !formed_pieceServed, !formed_depotWrite, !formed_engineTranslate, !formed_apertureStart,
    !formed_engineFar, servedState, Formed]

@[simp] theorem formed_storePieces (h : Formed s) (e : Engine) (pick : Nat → Bool) (piece : Nat) (ws : List (Nat × List Byte))
    : Formed (servedState (storePieces s e pick piece ws)) := by
  induction ws generalizing s piece with
  | nil => exact h
  | cons g rest ih => grind [storePieces, !formed_engineStore, servedState]

@[simp] theorem formed_engineStores (h : Formed s) (e : Engine) (piece : Nat) (ws : List (Nat × List Byte))
    : Formed (servedState (engineStores s e piece ws)) := by
  unfold engineStores
  split <;> simp [h]

@[simp] theorem formed_engineLoads (h : Formed s) (e : Engine) (rs : List (Nat × Nat)) : Formed (servedState (engineLoads s e rs)) := by
  induction rs generalizing s with
  | nil => exact h
  | cons g rest ih => grind [engineLoads, !formed_engineLoad, servedState]

@[simp] theorem formed_fillLines (h : Formed s) (tile : Nat) (ls : List Nat) : Formed (fillLines s tile ls) := by
  refine formed_foldl (fun s a h => ?_) _ ?_
  · simp [h]
  · simp [h]

@[simp] theorem formed_fillStashes (h : Formed s) (va n : Nat) : Formed (fillStashes s va n) := by
  refine formed_foldl (fun s e h => ?_) _ h
  exact formed_foldl (fun s x h => formed_fillLines h _ _) _ h

@[simp] theorem formed_engineFail (h : Formed s) (tile : Nat) (bar : Word) (code left sub : Nat) : Formed (engineFail s tile bar code left sub) := by
  simp [engineFail, h]

/-! ### Matrix -/

@[simp] theorem formed_setName (h : Formed s) (strand n : Nat) (x : Option AccName) : Formed (setName s strand n x) := by
  unfold setName
  split <;> simp [h]

@[simp] theorem formed_setNameFor (h : Formed s) (cmd : MatrixCmd) (n : Nat) (x : AccName) : Formed (setNameFor s cmd n x) := by
  unfold setNameFor
  split <;> simp [h]

@[simp] theorem formed_requestUnits (h : Formed s) (tile : Nat) (ctx : BitVec 32) : Formed (requestUnits s tile ctx) := by
  exact h

@[simp] theorem formed_giveUpUnits (h : Formed s) (tile : Nat) (ctx : BitVec 32) : Formed (giveUpUnits s tile ctx) := by
  unfold giveUpUnits
  split <;> simp [h]

@[simp] theorem formed_settleUnits (h : Formed s) (tile : Nat) (ctx : BitVec 32) : Formed (settleUnits s tile ctx) := by
  unfold settleUnits
  split <;> simp [h]

@[simp] theorem formed_departUnits (h : Formed s) (tile : Nat) (ctx : BitVec 32) : Formed (departUnits s tile ctx) := by
  grind [departUnits, !formed_settleUnits, !formed_giveUpUnits]

end

section

variable {s : State}

@[simp] theorem formed_joinQueue (h : Formed s) (tile : Nat) (cmd : MatrixCmd) : Formed (joinQueue s tile cmd) := by
  grind [joinQueue, !formed_modTile, !formed_later, !formed_requestUnits, tile_formed, = tileFormed_iff]

@[simp] theorem formed_msendArrive (h : Formed s) (fromTile image : Nat) (tag : Option Packet) (bar : Word) (code : Nat)
    : Formed (msendArrive s fromTile image tag bar code) := by
  unfold msendArrive
  split
  · simp [h]
  · split
    · exact h
    · simp [h]

@[simp] theorem formed_msendArrives (h : Formed s) (fromTile image : Nat) (tag : Option Packet) (desc : List Byte)
    : Formed (msendArrives s fromTile image tag desc) := by
  unfold msendArrives
  simp only
  repeat' split
  all_goals simp [h]

@[simp] theorem formed_admitSome (h : Formed s) (tile fuel : Nat) : Formed (admitSome s tile fuel) := by
  induction fuel generalizing s with
  | zero => exact h
  | succ k ih => grind [admitSome, !formed_msendArrives, !formed_modTile, = tileFormed_iff, pool_wf, acc_wf]

@[simp] theorem formed_admitHeld (h : Formed s) (tile : Nat) : Formed (admitHeld s tile) := by
  simp [admitHeld, h]

theorem ownBanksFree_formed {t : Tile} (ht : TileFormed t) (cmd : MatrixCmd) : TileFormed (ownBanksFree t cmd) := ht

@[simp] theorem formed_matrixDone (h : Formed s) (tile : Nat) (cmd : MatrixCmd) : Formed (matrixDone s tile cmd) := by
  unfold matrixDone
  extract_lets s1 s2 s3
  have hs1 : Formed s1 := formed_modTile (formed_clearPieces h _) _ _ (ownBanksFree_formed (tile_formed (formed_clearPieces h _) tile) cmd)
  have hs2 : Formed s2 := by
    simp only [s2]
    split <;> simp [hs1]
  have hs3 : Formed s3 := by
    simp only [s3]
    split <;> simp [hs2]
  exact formed_idleCheck (formed_checkRun (formed_later (formed_admitHeld hs3 _) _) _) _

@[simp] theorem formed_setMmaAside (h : Formed s) (tile : Nat) (r : MatrixRun) : Formed (setMmaAside s tile r) := by
  grind [setMmaAside, !formed_later, !formed_modTile, tile_formed, = tileFormed_iff]

@[simp] theorem formed_matrixFails (h : Formed s) (tile : Nat) (cmd : MatrixCmd) : Formed (matrixFails s tile cmd) := by
  grind [matrixFails, !formed_setNameFor, !formed_matrixDone, !formed_engineFail]

@[simp] theorem formed_setMoved (h : Formed s) (tile n : Nat) : Formed (setMoved s tile n) := by
  simp [setMoved, h]

@[simp] theorem formed_pldGroups (h : Formed s) (e : Engine) (panel : Nat) (gs : List (Nat × Nat × Option Nat)) (moved : Nat)
    : Formed (servedState (pldGroups s e panel gs moved)) := by
  induction gs generalizing s moved with
  | nil => exact h
  | cons g rest ih =>
    obtain ⟨r, g, _ | va⟩ := g
    · refine ih (formed_modTile h _ _ ⟨memClear_wf _ _ _ (pool_wf h _), acc_wf h _⟩) _
    · grind [pldGroups, !formed_engineLoad, !formed_recordEngineRead, !formed_poolWrite, !formed_setMoved, servedState]

@[simp] theorem formed_pstGroups (h : Formed s) (e : Engine) (panel : Nat) (gs : List (Nat × Nat × Nat)) (moved : Nat)
    : Formed (servedState (pstGroups s e panel gs moved)) := by
  induction gs generalizing s moved with
  | nil => exact h
  | cons g rest ih => grind [pstGroups, !formed_engineStore, !formed_fillLines, !formed_setMoved, servedState]

@[simp] theorem formed_drainRows (h : Formed s) (e : Engine) (n : AccName) (base : Nat) (bar : Word) (rows : List Nat)
    : Formed (servedState (drainRows s e n base bar rows)) := by
  induction rows generalizing s with
  | nil => exact h
  | cons g rest ih => grind [drainRows, !formed_engineStores, !formed_fillLines, !formed_barUpdate, !formed_setMoved, servedState]

theorem formed_matrixServed (tile : Nat) (cmd : MatrixCmd) (left : Nat) {r : Served Unit} {after : State → State}
    (hr : Formed (servedState r)) (hafter : ∀ s, Formed s → Formed (after s)) : Formed (matrixServed s tile cmd left r after) := by
  cases r with
  | ok a s1 => exact formed_matrixDone (hafter s1 hr) _ _
  | busy s1 => exact formed_later hr _
  | bad code sub s1 => exact formed_matrixDone (formed_engineFail hr _ _ _ _ _) _ _

/-! ### Dray -/

@[simp] theorem formed_setTable (h : Formed s) (tile : Nat) (ctx : BitVec 32) (f : DrayTable → DrayTable) : Formed (setTable s tile ctx f) := by
  simp [setTable, h]

@[simp] theorem formed_modChannel (h : Formed s) (tile : Nat) (ch : Nat) (f : List Copy → List Copy) : Formed (modChannel s tile ch f) := by
  simp [modChannel, h]

@[simp] theorem formed_startCopy (h : Formed s) (tile : Nat) (ch : Fin 4) (c : Copy) : Formed (startCopy s tile ch c).1 := by
  grind [startCopy, !formed_modCore, !formed_later, !formed_modChannel]

@[simp] theorem formed_modCopy (h : Formed s) (tile ch : Nat) (c : Copy) (f : Copy → Copy) : Formed (modCopy s tile ch c f) := by
  simp [modCopy, h]

@[simp] theorem formed_dropCopy (h : Formed s) (tile ch : Nat) (c : Copy) : Formed (dropCopy s tile ch c) := by
  simp [dropCopy, h]

@[simp] theorem formed_endCopy (h : Formed s) (tile ch : Nat) (c : Copy) : Formed (endCopy s tile ch c) := by
  simp [endCopy, h]

@[simp] theorem formed_settleCopy (h : Formed s) (tile ch : Nat) (c : Copy) : Formed (settleCopy s tile ch c) := by
  unfold settleCopy
  simp only
  repeat' split
  all_goals simp [h]

@[simp] theorem formed_segmentData (h : Formed s) (e : Engine) (c : Copy) (is : List Nat) : Formed (servedState (segmentData s e c is)) := by
  grind [segmentData, !formed_engineLoads, servedState]

@[simp] theorem formed_tellCoach (h : Formed s) (c : Copy) (code : Nat) : Formed (tellCoach s c code) := by
  unfold tellCoach
  split <;> simp [h]

@[simp] theorem formed_failCopy (h : Formed s) (tile ch : Nat) (c : Copy) (code : Nat) : Formed (failCopy s tile ch c code) := by
  grind [failCopy, !formed_tellCoach, !formed_endCopy, !formed_engineFail, !formed_clearPieces]

@[simp] theorem formed_runSegment (h : Formed s) (tile : Nat) (ch : Fin 4) (c : Copy) : Formed (runSegment s tile ch c) := by
  grind [runSegment, !formed_later, !formed_modCopy, !formed_segmentData, !formed_failCopy, !formed_engineStores, !formed_barUpdate,
    !formed_fillLines, !formed_clearPieces, !formed_endCopy, servedState]

@[simp] theorem formed_storageStops (h : Formed s) (tile : Nat) (ch : Fin 4) (c : Copy) (code : Nat) : Formed (storageStops s tile ch c code) := by
  grind [storageStops, !formed_tellCoach, !formed_engineFail, !formed_clearPieces, !formed_settleCopy]

@[simp] theorem formed_storageSegment (h : Formed s) (tile : Nat) (ch : Fin 4) (c : Copy) : Formed (storageSegment s tile ch c) := by
  grind [storageSegment, !formed_storageStops, !formed_later, !formed_engineStores, !formed_modCopy, !formed_clearPieces, !formed_settleCopy,
    servedState, Formed]

@[simp] theorem formed_storageFail (h : Formed s) (tile : Nat) (ch : Fin 4) (c : Copy) (cid code : Nat)
    : Formed (storageFail s tile ch c cid code) := by
  grind [storageFail, !formed_tellCoach, !formed_engineFail, !formed_endCopy, !formed_modCopy]

@[simp] theorem formed_carriageLands (h : Formed s) (c : Copy) (cid bytes : Nat) : Formed (carriageLands s c cid bytes) := by
  grind [carriageLands, !formed_soon, !formed_modCarriage, !formed_fillStashes]

/-! ### Streams -/

@[simp] theorem formed_unbound (h : Formed s) (a : Agent) (q : Nat) : Formed (unbound s a q) := by
  unfold unbound
  simp only
  repeat' split
  all_goals simp [h]

@[simp] theorem formed_inputTransfer (h : Formed s) (n q : Nat) (st : Stream) : Formed (inputTransfer s n q st) := by
  unfold inputTransfer
  simp only
  repeat' split
  all_goals simp [h]

@[simp] theorem formed_outputTransfer (h : Formed s) (n q : Nat) (st : Stream) : Formed (outputTransfer s n q st) := by
  grind [outputTransfer, !formed_setFull, !formed_poolWrite, !formed_modAgent]

/-! ### Runs -/

@[simp] theorem formed_spanHeld (h : Formed s) (ctx : BitVec 32) (va : Nat) (pages : Nat) : Formed (servedState (spanHeld s ctx va pages)) := by
  induction pages generalizing s va with
  | zero => exact h
  | succ k ih => grind [spanHeld, !formed_unitWalk, !formed_searchGrants, servedState]

@[simp] theorem formed_regionHeld (h : Formed s) (ctx : BitVec 32) (lr : LaunchRecord) : Formed (servedState (regionHeld s ctx lr)) := by
  unfold regionHeld
  split <;> simp [h]

@[simp] theorem formed_regionZero (h : Formed s) (run : BitVec 32) (off n : Nat) : Formed (regionZero s run off n) := by
  refine formed_foldl (fun s a h => ?_) _ ?_
  · simp [h]
  · simp [h]

@[simp] theorem formed_regionInit (h : Formed s) (run : BitVec 32) (lr : LaunchRecord) : Formed (regionInit s run lr) := by
  grind [regionInit, !formed_regionZero, !formed_setWbWord, !formed_regionWrite]

@[simp] theorem formed_startRun (h : Formed s) (ctx : BitVec 32) (lr : LaunchRecord) (first count : Nat) (origin : Origin)
    : Formed (startRun s ctx lr first count origin).1 := by
  unfold startRun
  extract_lets run r s1
  have hs1 : Formed s1 := by
    obtain ⟨hhbm, hstaging, htiles, hruns⟩ := h
    exact ⟨hhbm, hstaging, htiles, runsFormed_set hruns _ ⟨blocksFormed_nil, imagesFormed_nil⟩⟩
  exact formed_regionInit hs1 _ _

@[simp] theorem formed_bindRun (h : Formed s) (run : BitVec 32) (prio : BitVec 3) : Formed (bindRun s run prio) := by
  exact h

@[simp] theorem formed_mapSwatches (h : Formed s) (run : BitVec 32) (k : Nat) : Formed (servedState (mapSwatches s run k)) :=
  formed_andThen (formed_regionBytes h _ _ _) fun _ _ h1 => h1

@[simp] theorem formed_blocksWhere (h : Formed s) (run : BitVec 32) (p : List Byte → Bool) (n : Nat)
    : Formed (servedState (blocksWhere s run p n)) := by
  induction n generalizing s with
  | zero => exact h
  | succ k ih => exact formed_andThen (ih h) fun rest s1 h1 => formed_andThen (formed_regionBytes h1 _ _ _) fun e s2 h2 => h2

@[simp] theorem formed_endRelaunch (h : Formed s) (run : BitVec 32) (origin : Origin) (status code rounds : Nat)
    : Formed (endRelaunch s run origin status code rounds) := by
  simp [endRelaunch, h]

@[simp] theorem formed_mapBytes (h : Formed s) (run : BitVec 32) (k : Nat) : Formed (servedState (mapBytes s run k)) := by
  grind [mapBytes, !formed_regionBytes, servedState]

@[simp] theorem formed_orInto (h : Formed s) (run : BitVec 32) (k : Nat) (bs : List Byte) : Formed (orInto s run k bs) := by
  refine formed_foldl (fun s a h => ?_) _ ?_
  · simp [h]
  · simp [h]

@[simp] theorem formed_relaunchWaits (h : Formed s) (run : BitVec 32) : Formed (relaunchWaits s run) := by
  exact h

@[simp] theorem formed_faultRelaunch (h : Formed s) (run : BitVec 32) (origin : Origin) (round code : Nat)
    : Formed (faultRelaunch s run origin round code) := by
  unfold faultRelaunch
  extract_lets live maps
  have hmaps : Formed (servedState maps) := by
    refine formed_andThen (formed_mapBytes h _ _) fun d s1 h1 => formed_andThen ?_ fun m s2 h2 => h2
    split
    · exact h1
    · exact formed_mapBytes h1 _ _
  clear_value maps
  cases maps with
  | ok p s1 =>
    have hor : Formed (orInto (orInto s1 run live (p.1.getD [])) run live (p.2.getD [])) := formed_orInto (formed_orInto hmaps _ _ _) _ _ _
    have hlost : Formed (if p.1.isNone || p.2.isNone then modRun (orInto (orInto s1 run live (p.1.getD [])) run live (p.2.getD [])) run
        (fun r => { r with wbLost := true }) else orInto (orInto s1 run live (p.1.getD [])) run live (p.2.getD [])) := by
      split
      · exact formed_modRun_frame hor _ _ rfl rfl
      · exact hor
    exact formed_endRelaunch (formed_setWbWord hlost _ _) _ _ _ _ _
  | bad code sub s1 => exact hmaps
  | busy s1 => exact formed_relaunchWaits hmaps _

@[simp] theorem formed_nextRound (h : Formed s) (run : BitVec 32) (origin : Origin) (lim round : Nat) (set : List Nat)
    : Formed (nextRound s run origin lim round set) := by
  grind [nextRound, !formed_endRelaunch, !formed_setWbWord, !formed_regionZero, !formed_modRun, !formed_later, saved_formed, images_formed,
    = runFormed_iff]

@[simp] theorem formed_beginRelaunch (h : Formed s) (run : BitVec 32) (lim : Nat) (origin : Origin) : Formed (beginRelaunch s run lim origin) := by
  grind [beginRelaunch, !formed_cleanWatched, !formed_regionZero, !formed_modRun, !formed_relaunchWaits, !formed_setWbWord, saved_formed,
    images_formed, = runFormed_iff]

@[simp] theorem formed_nextSet (h : Formed s) (run : BitVec 32) (round : Nat) (all : List Nat) : Formed (servedState (nextSet s run round all)) := by
  unfold nextSet
  extract_lets r n
  split
  · split
    · exact h
    · exact formed_andThen (formed_mapSwatches h _ _) fun b s1 h1 => formed_blocksWhere h1 _ _ _
  · exact formed_andThen (formed_mapSwatches h _ _) fun b s1 h1 => formed_blocksWhere h1 _ _ _

/-! ### System -/

@[simp] theorem formed_completed (h : Formed s) : Formed (completed s) := by
  grind [completed, !formed_noteIssue, !formed_leaveDoze, !formed_modMe]

@[simp] theorem formed_clearBusy (h : Formed s) (mb : Word) (slot : Nat) : Formed (servedState (clearBusy s mb slot)) := by
  grind [clearBusy, !formed_nodeFault, !formed_settle, !formed_depotRead, !formed_depotWrite, !formed_sendRequest, servedState]

@[simp] theorem formed_inboxCourier (h : Formed s) (core : Nat) (m : CourierMsg) : Formed (inboxCourier s core m) := by
  exact h

/-! ### FeltOps -/

@[simp] theorem formed_modArray (h : Formed s) (k : Nat) (f : FeltArray → FeltArray) : Formed (modArray s k f) := by
  exact h

@[simp] theorem formed_feltArrive (h : Formed s) (c : FeltCmd) (code : Nat) : Formed (feltArrive s c code) := by
  unfold feltArrive
  split <;> simp [h]

@[simp] theorem formed_feltRefused (h : Formed s) (k : Nat) : Formed (feltRefused s k) := by
  exact h

@[simp] theorem formed_feltAnswer (h : Formed s) (strand : Nat) (w : Word) : Formed (feltAnswer s strand w) := by
  exact h

@[simp] theorem formed_feltNext (h : Formed s) (k : Nat) : Formed (feltNext s k) := by
  exact h

@[simp] theorem formed_calibrate (h : Formed s) (k : Nat) : Formed (calibrate s k) := by
  exact h

@[simp] theorem formed_idleCalibration (h : Formed s) (k : Nat) : Formed (idleCalibration s k) := by
  refine formed_foldl (fun s g h => ?_) _ h
  split <;> simp [h]

@[simp] theorem formed_endPhase (h : Formed s) (k result : Nat) : Formed (endPhase s k result) := by
  unfold endPhase
  extract_lets f hold us f1 s1 s2 s3
  have hs1 : Formed s1 := formed_modArray h _ _
  have hs2 : Formed s2 := formed_foldl (fun s e h => formed_feltAnswer h _ _) _ hs1
  have hs3 : Formed s3 := by
    simp only [s3]
    split
    · simp [hs2]
    · exact hs2
  refine formed_feltNext ?_ _
  split <;> simp [hs3]

@[simp] theorem formed_endHold (h : Formed s) (k : Nat) : Formed (endHold s k) := by
  unfold endHold
  split <;> simp [h]

@[simp] theorem formed_feltRights (h : Formed s) (c : FeltCmd) (va n : Nat) : Formed (servedState (feltRights s c va n)) := by
  grind [feltRights, !formed_plbLookup, servedState]

end

section

variable {s : State}

@[simp] theorem formed_feltRead (h : Formed s) (k : Nat) (c : FeltCmd) (va n : Nat) : Formed (servedState (feltRead s k c va n)) := by
  grind [feltRead, !formed_feltRights, !formed_engineLoads, servedState]

@[simp] theorem formed_popCmd (h : Formed s) (k : Nat) : Formed (popCmd s k) := by
  exact h

@[simp] theorem formed_cmdDone (h : Formed s) (k : Nat) (c : FeltCmd) (code : Nat) : Formed (cmdDone s k c code) := by
  grind [cmdDone, !formed_checkRun, !formed_feltRefused, !formed_popCmd, !formed_feltArrive]

@[simp] theorem formed_dropGang (h : Formed s) (k slot : Nat) : Formed (dropGang s k slot) := by
  unfold dropGang
  split
  · exact formed_foldl (fun s g h => formed_modArray h _ _) _ h
  · exact h

@[simp] theorem formed_awaitPhases (h : Formed s) (heads : List Nat) : Formed (awaitPhases s heads) := by
  refine formed_foldl (fun s a h => ?_) _ ?_
  · simp [h]
  · simp [h]

@[simp] theorem formed_feltLoad (h : Formed s) (k : Nat) (c : FeltCmd) (slot : Nat) (b : List Byte) : Formed (feltLoad s k c slot b) := by
  unfold feltLoad
  extract_lets gang granted targets meets s1 s2 s3
  have hs1 : Formed s1 := formed_foldl (fun s g h => by split <;> simp [h]) _ h
  have hs2 : Formed s2 := formed_foldl (fun s g h => formed_dropGang h _ _) _ hs1
  have hs3 : Formed s3 := formed_modArray hs2 _ _
  split
  · simp [h]
  · split
    · simp [h]
    · exact formed_cmdDone (formed_foldl (fun s g h => formed_modArray h _ _) _ hs3) _ _ _

@[simp] theorem formed_feltCfg (h : Formed s) (k : Nat) (c : FeltCmd) (slot : Nat) (addr : Word) : Formed (feltCfg s k c slot addr) := by
  grind [feltCfg, !formed_feltRead, !formed_cmdDone, !formed_feltNext, !formed_feltLoad, servedState]

@[simp] theorem formed_feltTable (h : Formed s) (k : Nat) (c : FeltCmd) (slot : Nat) (addr : Word) (width : Nat) (lo hi : Int)
    (put : FeltSlot → List Int → FeltSlot) : Formed (feltTable s k c slot addr width lo hi put) := by
  unfold feltTable
  split
  · simp [h]
  · rename_i x _
    have hread := formed_feltRead h k c addr.toNat (width * imageNodes x.image)
    dsimp only
    split <;> rename_i e <;> simp only [e, servedState] at hread
    · simp [hread]
    · simp [hread]
    · split
      · simp [hread]
      · exact formed_cmdDone (formed_foldl (fun s g h => formed_modArray h _ _) _ hread) _ _ _

@[simp] theorem formed_feltRunCmd (h : Formed s) (k : Nat) (c : FeltCmd) (slot : Nat) : Formed (feltRunCmd s k c slot) := by
  unfold feltRunCmd
  split
  · simp [h]
  · extract_lets all meets s1 s2 s3
    have hs1 : Formed s1 := formed_foldl (fun s g h => formed_endHold h g) _ h
    have hs2 : Formed s2 := formed_foldl (fun s g h => formed_modArray h _ _) _ hs1
    have hs3 : Formed s3 := formed_modArray hs2 _ _
    split
    · simp [h]
    · split
      · simp [h]
      · split
        · simp [hs1]
        · simp [hs3]

@[simp] theorem formed_feltHalt (h : Formed s) (k : Nat) : Formed (feltHalt s k) := by
  unfold feltHalt
  split <;> simp [h]

@[simp] theorem formed_placeSample (h : Formed s) (run : BitVec 32) (block k : Nat) (fp : Word) (bytes : List Byte)
    : Formed (placeSample s run block k fp bytes) := by
  unfold placeSample
  simp only
  repeat' split
  all_goals simp [h]

@[simp] theorem formed_settleSamples (h : Formed s) (run : BitVec 32) (block fuel : Nat) : Formed (settleSamples s run block fuel) := by
  induction fuel generalizing s with
  | zero => exact h
  | succ j ih => grind [settleSamples, !formed_modBuffer, !formed_placeSample]

@[simp] theorem formed_sampleOver (h : Formed s) (c : FeltCmd) (m : Option (Word × List Byte)) : Formed (sampleOver s c m) := by
  unfold sampleOver
  split <;> simp [h]

@[simp] theorem formed_replayed (h : Formed s) (c : FeltCmd) (fp : Word) : Formed (servedState (replayed s c fp)) := by
  grind [replayed, !formed_regionBytes, !formed_relaunchFails, servedState]

@[simp] theorem formed_beginConversion (h : Formed s) (k : Nat) (c : FeltCmd) : Formed (beginConversion s k c) := by
  exact h

@[simp] theorem formed_postSat (h : Formed s) (k : Nat) : Formed (postSat s k) := by
  grind [postSat, !formed_postMessage, formed_modArray, formed_feltNext, formed_postFailed, postedState]

@[simp] theorem formed_sampleStore (h : Formed s) (k : Nat) (c : FeltCmd) (dst : Word) (bytes : List Byte)
    : Formed (servedState (sampleStore s k c dst bytes)) := by
  unfold sampleStore
  extract_lets e
  split
  · exact formed_foldl (fun s j h => formed_savedWrite h _ _ _) _ h
  · exact formed_engineStores h _ _ _

@[simp] theorem formed_sampleLands (h : Formed s) (k : Nat) (c : FeltCmd) (dst : Word) (n : Nat) : Formed (sampleLands s k c dst n) := by
  unfold sampleLands
  extract_lets lines s1
  have hs1 : Formed s1 := by
    simp only [s1]
    split
    · simp [h]
    · split
      · exact formed_modSaved h _ fun i hi => hi
      · exact h
  split <;> simp [hs1]

@[simp] theorem formed_sampleFails (h : Formed s) (c : FeltCmd) (code n : Nat) : Formed (sampleFails s c code n) := by
  simp [sampleFails, h]

/-! ### Queues -/

@[simp] theorem formed_qcbWrite (h : Formed s) (slot : Nat) (b : List Byte) : Formed (qcbWrite s slot b) := by
  unfold qcbWrite
  split <;> simp [h]

@[simp] theorem formed_slotReady (h : Formed s) (since slot : Nat) : Formed (servedState (slotReady s since slot)) := by
  grind [slotReady, !formed_settle, servedState]

@[simp] theorem formed_probeReady (h : Formed s) (since key : Nat) (slots : List Nat) : Formed (servedState (probeReady s since key slots)) := by
  induction slots generalizing s with
  | nil => exact h
  | cons g rest ih => grind [probeReady, !formed_slotReady, servedState]

@[simp] theorem formed_whenTable (h : Formed s) (i : Instr) (ready : Nat → Served Unit) (hready : ∀ x0, Formed (servedState (ready x0)))
    (f : State → State) (hf : ∀ x0, Formed x0 → Formed (f x0)) : Formed (whenTable s i ready f) := by
  grind [whenTable, = formed_mk, !formed_later, servedState, hbm_wf, staging_wf, tiles_formed, runs_formed]

@[simp] theorem formed_whenReady (h : Formed s) (i : Instr) (key : Nat) (f : State → State) (hf : ∀ x0, Formed x0 → Formed (f x0))
    : Formed (whenReady s i key f) := by
  grind [whenReady, !formed_whenTable, !formed_probeReady]

@[simp] theorem formed_whenSlot (h : Formed s) (i : Instr) (slot : Nat) (f : State → State) (hf : ∀ x0, Formed x0 → Formed (f x0))
    : Formed (whenSlot s i slot f) := by
  grind [whenSlot, !formed_whenTable, !formed_slotReady]

@[simp] theorem formed_modQueue (h : Formed s) (slot : Nat) (f : QueueRun → QueueRun) : Formed (modQueue s slot f) := by
  exact h

@[simp] theorem formed_modPacket (h : Formed s) (slot seq : Nat) (f : PacketRun → PacketRun) : Formed (modPacket s slot seq f) := by
  exact h

@[simp] theorem formed_queueRecord (h : Formed s) (sub ctx addr : Nat) : Formed (queueRecord s sub ctx addr) := by
  exact h

@[simp] theorem formed_pauseSlice (h : Formed s) (slot : Nat) : Formed (pauseSlice s slot) := by
  exact h

@[simp] theorem formed_queueError (h : Formed s) (slot sub : Nat) : Formed (queueError s slot sub) := by
  grind [queueError, !formed_modQueue, !formed_pauseSlice, !formed_queueRecord, !formed_qcbWrite]

@[simp] theorem formed_faultRecord (h : Formed s) (code sub ctx addr : Nat) : Formed (faultRecord s code sub ctx addr) := by
  exact h

@[simp] theorem formed_devRead (h : Formed s) (e : Engine) (va n : Nat) : Formed (servedState (devRead s e va n)) := by
  grind [devRead, !formed_engineLoads, servedState]

@[simp] theorem formed_ctxRights (h : Formed s) (ctx : BitVec 32) (need va n : Nat) : Formed (servedState (ctxRights s ctx need va n)) := by
  grind [ctxRights, !formed_searchGrants, servedState]

@[simp] theorem formed_ctxRead (h : Formed s) (e : Engine) (va n : Nat) : Formed (servedState (ctxRead s e va n)) := by
  grind [ctxRead, !formed_ctxRights, !formed_devRead, servedState]

@[simp] theorem formed_devWrite (h : Formed s) (e : Engine) (bus : Bool) (piece va : Nat) (bs : List Byte)
    : Formed (servedState (devWrite s e bus piece va bs)) := by
  grind [devWrite, !formed_notePiece, !formed_engineStores, servedState, Formed]

@[simp] theorem formed_busSlot (h : Formed s) (slot : Nat) : Formed (busSlot s slot) := by
  exact h

@[simp] theorem formed_askSlot (h : Formed s) (slot : Nat) : Formed (askSlot s slot) := by
  unfold askSlot
  split <;> simp [h]

@[simp] theorem formed_askAgain (h : Formed s) (slot : Nat) : Formed (askAgain s slot) := by
  exact h

@[simp] theorem formed_fetchMore (h : Formed s) (slot : Nat) : Formed (fetchMore s slot) := by
  unfold fetchMore
  split <;> simp [h]

theorem formed_advanceHead_put (h : Formed s) (slot head : Nat) : Formed (advanceHead.put slot s head) := by
  simp [advanceHead.put, h]

@[simp] theorem formed_advanceHead (h : Formed s) (slot : Nat) : Formed (advanceHead s slot) := by
  grind [advanceHead, !formed_slotReady, formed_advanceHead_put, formed_later, servedState]

@[simp] theorem formed_endDispatch (h : Formed s) (slot seq : Nat) : Formed (endDispatch s slot seq) := by
  grind [endDispatch, !formed_advanceHead, !formed_modQueue, !formed_modPacket]

@[simp] theorem formed_dispatchEnded (h : Formed s) (slot seq : Nat) : Formed (dispatchEnded s slot seq) := by
  simp [dispatchEnded, h]

@[simp] theorem formed_packetEnds (h : Formed s) (slot seq status code : Nat) (result : Word) : Formed (packetEnds s slot seq status code result) :=
    by
  simp [packetEnds, h]

@[simp] theorem formed_launchPlaced (h : Formed s) (run : BitVec 32) : Formed (launchPlaced s run) := by
  grind [launchPlaced, !formed_dispatchEnded]

@[simp] theorem formed_ensureContext (h : Formed s) (slot : Nat) (b : List Byte) : Formed (servedState (ensureContext s slot b)) := by
  grind [ensureContext, !formed_devRead, !formed_faultRecord, !formed_modCtx, servedState]

@[simp] theorem formed_becomesCurrent (h : Formed s) (slot : Nat) (b p : List Byte) : Formed (becomesCurrent s slot b p) := by
  unfold becomesCurrent
  split <;> simp [h]

@[simp] theorem formed_slotRead (h : Formed s) (slot : Nat) (p : List Byte) (torn : State → State) (htorn : ∀ x0, Formed x0 → Formed (torn x0))
    : Formed (slotRead s slot p torn) := by
  grind [slotRead, !formed_queueError, !formed_modQueue, !formed_ensureContext, !formed_later, !formed_becomesCurrent, !formed_packetEnds,
    !formed_soon, servedState]

@[simp] theorem formed_slotBytes (h : Formed s) (slot : Nat) (hostBytes : List Byte) : Formed (servedState (slotBytes s slot hostBytes)) := by
  unfold slotBytes
  simp only
  repeat' split
  all_goals simp [h]

@[simp] theorem formed_fetchStops (h : Formed s) (slot : Nat) : Formed (fetchStops s slot) := by
  exact h

@[simp] theorem formed_rereadFailed (h : Formed s) (slot : Nat) : Formed (rereadFailed s slot) := by
  unfold rereadFailed
  simp only
  repeat' split
  all_goals simp [h]

@[simp] theorem formed_rereadDone (h : Formed s) (slot : Nat) (hostBytes : List Byte) : Formed (rereadDone s slot hostBytes) := by
  grind [rereadDone, !formed_slotBytes, !formed_later, !formed_rereadFailed, !formed_slotRead, servedState]

@[simp] theorem formed_ringQueue (h : Formed s) (slot offset : Nat) (value : Word) : Formed (ringQueue s slot offset value) := by
  unfold ringQueue
  simp only
  repeat' split
  all_goals simp [h]

@[simp] theorem formed_qctlStore (h : Formed s) (v : Word) (result : Nat) (busy : Bool) : Formed (qctlStore s v result busy) := by
  exact h

@[simp] theorem formed_qctlCommand (h : Formed s) (i : Instr) (v : Word) (f : State → State) (hf : ∀ x0, Formed x0 → Formed (f x0))
    : Formed (qctlCommand s i v f) := by
  grind [qctlCommand, !formed_whenReady, !formed_qctlStore, Formed]

@[simp] theorem formed_qctlResult (h : Formed s) (r : Nat) : Formed (qctlResult s r) := by
  exact h

@[simp] theorem formed_resumeSlice (h : Formed s) (slot : Nat) : Formed (resumeSlice s slot) := by
  unfold resumeSlice
  split <;> simp [h]

@[simp] theorem formed_tombQueue (h : Formed s) (slot : Nat) : Formed (tombQueue s slot) := by
  simp [tombQueue, h]

@[simp] theorem formed_drainCheck (h : Formed s) (slot : Nat) : Formed (drainCheck s slot) := by
  grind [drainCheck, !formed_whenSlot, !formed_tombQueue, !formed_packetDone, Formed]

@[simp] theorem formed_afterRecord (h : Formed s) (slot seq : Nat) : Formed (afterRecord s slot seq) := by
  refine formed_foldl (fun s a h => ?_) _ ?_
  · simp [h]
  · simp [h]

@[simp] theorem formed_discardUndispatched (h : Formed s) (slot : Nat) (p : PacketRun) : Formed (discardUndispatched s slot p) := by
  grind [discardUndispatched, !formed_modPacket, !formed_packetDone, !formed_checkRun, !formed_modRun, saved_formed, images_formed, = runFormed_iff]

end

section

variable {s : State}

@[simp] theorem formed_startDestroy (h : Formed s) (slot : Nat) (kill : Bool) (destroyer : Option (Nat × Nat))
    : Formed (startDestroy s slot kill destroyer) := by
  grind [startDestroy.eq_def, formed_qcbWrite, formed_modQueue, formed_discardUndispatched, formed_soon, formed_drainCheck]

@[simp] theorem formed_qctlDestroy (i : Instr) (v : Word) (kill : Bool) (h : Formed s) : Formed (qctlDestroy i v kill s) := by
  grind [qctlDestroy, !formed_qctlCommand, !formed_qctlResult, !formed_startDestroy, Formed]

@[simp] theorem formed_withPacket (h : Formed s) (slot : Nat) (f : PacketRun → List Byte → State) (hf : ∀ x0 x1, Formed (f x0 x1))
    : Formed (withPacket s slot f) := by
  unfold withPacket
  split <;> simp [h, hf]

@[simp] theorem formed_launchPacket (slot : Nat) (h : Formed s) : Formed (launchPacket slot s) := by
  grind [launchPacket, !formed_withPacket, !formed_packetEnds, !formed_ctxRead, !formed_later, !formed_faultRecord, !formed_regionHeld,
    !formed_startRun, !formed_bindRun, !formed_modPacket, servedState]

@[simp] theorem formed_waitmemRead (h : Formed s) (slot : Nat) : Formed (waitmemRead s slot) := by
  grind [waitmemRead, !formed_withPacket, !formed_packetEnds, !formed_faultRecord, !formed_ctxRead, !formed_later, servedState]

@[simp] theorem formed_writeCompletion (h : Formed s) (slot : Nat) (p : PacketRun) : Formed (servedState (writeCompletion s slot p)) := by
  grind [writeCompletion, !formed_devWrite, servedState]

/-! ### Sched -/

@[simp] theorem formed_regrant (h : Formed s) : Formed (regrant s) := by
  refine formed_foldl (fun s g h => ?_) _ h
  dsimp only
  split
  · exact h
  · exact formed_modArray h _ _

@[simp] theorem formed_bindContext (h : Formed s) (cluster : Nat) (r : BindRecord) : Formed (bindContext s cluster r) := by
  exact h

@[simp] theorem formed_setRecord (h : Formed s) (cluster slot : Nat) (r : BindRecord) : Formed (setRecord s cluster slot r) := by
  exact h

@[simp] theorem formed_placeBlock (h : Formed s) (core : Nat) (r : BindRecord) (i : Nat) : Formed (placeBlock s core r i) := by
  grind [placeBlock, !formed_modTile, !formed_modCore, !formed_modRun, !formed_launchPlaced, !formed_wakeCore, !formed_askWake, tile_formed,
    saved_formed, images_formed, = tileFormed_iff, = runFormed_iff]

@[simp] theorem formed_grantCapability (h : Formed s) (tile : Nat) (ctx : BitVec 32) : Formed (grantCapability s tile ctx) := by
  grind [grantCapability, !formed_modTile, tile_formed, = tileFormed_iff, Formed]

@[simp] theorem formed_makeImage (h : Formed s) (tile : Nat) (run : BitVec 32) : Formed (makeImage s tile run) := by
  unfold makeImage
  extract_lets lr n s1
  have hs1 : Formed s1 := by
    refine formed_modTile h _ _ ?_
    exact ⟨memClear_wf _ _ _ (pool_wf h tile), acc_wf h tile⟩
  split
  · exact h
  · exact formed_foldl (fun s c h => formed_modCore h _ _) _ hs1

@[simp] theorem formed_logRecords (h : Formed s) (run : BitVec 32) (i off n : Nat) : Formed (servedState (logRecords s run i off n)) := by
  induction n generalizing s off with
  | zero => exact h
  | succ k ih => exact formed_andThen (formed_regionBytes h _ _ _) fun b s1 h1 => formed_andThen (ih h1 _) fun rest s2 h2 => h2

@[simp] theorem formed_replayLog (h : Formed s) (run : BitVec 32) (i : Nat) : Formed (servedState (replayLog s run i)) := by
  unfold replayLog
  extract_lets r
  split
  · exact h
  · exact formed_andThen (formed_regionBytes h _ _ _) fun e s1 h1 => formed_logRecords h1 _ _ _ _

@[simp] theorem formed_startBlock (h : Formed s) (n : Nat) (run : BitVec 32) (i : Nat) (args : List Word) (log : List (Nat × Nat × Nat))
    : Formed (startBlock s n run i args log) := by
  grind [startBlock, !formed_grantCapability, !formed_makeImage, !formed_gearCheck, !formed_modRun, saved_formed, images_formed, = runFormed_iff,
    Formed]

/-! ### Preempt -/

@[simp] theorem formed_pauseCopies (h : Formed s) (n : Nat) (on : Bool) : Formed (pauseCopies s n on) := by
  simp [pauseCopies, h]

@[simp] theorem formed_stopUnits (h : Formed s) (n : Nat) : Formed (stopUnits s n) := by
  simp [stopUnits, h]

@[simp] theorem formed_unitsGoOn (h : Formed s) (n : Nat) : Formed (unitsGoOn s n) := by
  simp [unitsGoOn, h]

@[simp] theorem formed_goUnits (h : Formed s) (n : Nat) : Formed (goUnits s n) := by
  grind [goUnits, !formed_wakeCore, !formed_unitsGoOn, !formed_modAgent]

@[simp] theorem formed_stopStrand (h : Formed s) (n : Nat) : Formed (stopStrand s n) := by
  refine formed_foldl (fun s a h => ?_) _ ?_
  · simp [h]
  · simp [h]

@[simp] theorem formed_pagesReady (h : Formed s) (ctx : BitVec 32) (write : Bool) (pages : List Nat)
    : Formed (servedState (pagesReady s ctx write pages)) := by
  induction pages generalizing s with
  | nil => exact h
  | cons p rest ih =>
    have hwalk := formed_hardwareWalk h ((getCtx s ctx).saveArea.toNat + 0x1000 * p) (getCtx s ctx).saveSince
    unfold pagesReady
    split <;> rename_i e <;> simp only [e, servedState] at hwalk
    · split
      · exact formed_andThen (formed_depotTakes hwalk _ _) fun u s2 h2 => ih h2
      · exact ih hwalk
    · exact ih hwalk
    · simp [hwalk]

@[simp] theorem formed_writePages (h : Formed s) (ctx : BitVec 32) (page : Nat) (bs : List Byte) : Formed (writePages s ctx page bs) := by
  refine formed_foldl (fun s k h => ?_) _ h
  split
  · simp [h]
  · exact h

theorem bankCells_wf (t : Tile) (n : AccName) : (bankCells t n).wf = true := memOver_wf _ _ memory_wf_nil

theorem saved_banksFormed (s : State) (n block : Nat) (stop : BitVec 8) : BanksFormed (saved s n block stop).banks := by
  intro e he
  obtain ⟨⟨k, a⟩, -, ha⟩ := List.mem_filterMap.mp he
  obtain ⟨a', -, rfl⟩ := Option.map_eq_some_iff.mp ha
  exact bankCells_wf _ _

@[simp] theorem formed_takeOff (h : Formed s) (n : Nat) : Formed (takeOff s n) := by
  grind [takeOff, !formed_modTile, !formed_later, !formed_admitHeld, !formed_settleUnits, !formed_pauseCopies, !formed_freeStrand, !formed_freeBanks,
    tile_formed, = tileFormed_iff, Formed]

@[simp] theorem formed_recallInbox (h : Formed s) (run : BitVec 32) (lo : Nat) : Formed (recallInbox s run lo) := by
  grind [recallInbox, !formed_modRun, saved_formed, images_formed, = runFormed_iff, Formed]

@[simp] theorem formed_saveImage (h : Formed s) (tile : Nat) (ctx run : BitVec 32) (cause : Nat) : Formed (saveImage s tile ctx run cause) := by
  unfold saveImage
  extract_lets handlers active s1 s2 t below cores mine image s3 s4
  have hs1 : Formed s1 := formed_foldl (fun s n h => formed_takeOff h n) _ h
  have hs2 : Formed s2 := formed_flushRange hs1 _ _ _
  have hunmapped := formed_unmapEntries hs2 tile (fun e => e.ctx == ctx)
  have hs3 : Formed s3 := formed_modTile hunmapped _ _ ⟨pool_wf hunmapped _, acc_wf hunmapped _⟩
  have hs4 : Formed s4 := formed_foldl (fun s c h => formed_modCore h _ _) _ hs3
  have himage : ImageFormed image := ⟨filter_wf _ _ (pool_wf hs2 tile), List.forall_mem_map.mpr fun n _ => saved_banksFormed _ _ _ _⟩
  have hwritten := formed_writePages hs4 ctx image.page (memRead t.pool 0 below)
  exact formed_modRun hwritten _ _ ⟨saved_formed hwritten run, List.forall_mem_append.mpr ⟨images_formed hwritten run,
    List.forall_mem_singleton.mpr himage⟩⟩

@[simp] theorem formed_removeBlock (h : Formed s) (n cause : Nat) : Formed (removeBlock s n cause) := by
  unfold removeBlock
  split
  · rename_i run i _
    extract_lets ctx slot stop names page src kept banks s1 s2 s3
    have hs1 : Formed s1 := formed_writePages (formed_writePages h _ _ _) _ _ _
    have hoff := formed_takeOff hs1 n
    have hkept : BanksFormed kept.banks := saved_banksFormed s n i stop
    have hs2 : Formed s2 := formed_modRun hoff _ _
      ⟨List.forall_mem_append.mpr ⟨saved_formed hoff _, List.forall_mem_singleton.mpr hkept⟩, images_formed hoff _⟩
    have hs3 : Formed s3 := formed_recallInbox hs2 _ _
    split
    · exact formed_saveImage hs3 _ _ _ _
    · exact hs3
  · exact h

theorem removeHighest_formed (h : Formed s) (run : BitVec 32) (lo cause : Nat) {s1 : State} (e : removeHighest s run lo cause = some s1)
    : Formed s1 := by
  grind [removeHighest, !formed_stopStrand, !formed_pagesReady, !formed_removeBlock, servedState]

theorem accClear_formed {t : Tile} (ht : TileFormed t) (n : AccName) : TileFormed (accClear t n) := by
  obtain ⟨hpool, hacc⟩ := ht
  exact ⟨hpool, List.foldlRecOn (motive := fun m : Memory => m.wf = true) _ _ hacc fun m hm b _ => memClear_wf _ _ _ hm⟩

@[simp] theorem formed_restoreName (h : Formed s) (n k : Nat) (cells : Memory) : Formed (restoreName s n k cells) := by
  unfold restoreName
  split
  · exact h
  · extract_lets free name s1
    have hs1 : Formed s1 := by
      obtain ⟨hpool, hacc⟩ := accClear_formed (t := { getTile s (n / 16) with banks := (getTile s (n / 16)).banks ++ free }) (tile_formed h _) name
      exact formed_modTile h _ _ ⟨hpool, memOver_wf _ _ hacc⟩
    exact formed_setName hs1 _ _ _

theorem formed_returnBlock (h : Formed s) (n : Nat) (b : SavedBlock) (t : Strand) : Formed (returnBlock s n b t) := by
  unfold returnBlock
  extract_lets tile s1 s2
  have hs1 : Formed s1 := formed_foldl (fun s e h => formed_restoreName h _ _ _) _ h
  have hs2 : Formed s2 := by
    simp only [s2]
    split
    · simp [hs1]
    · exact hs1
  exact formed_unitsGoOn (formed_gearCheck hs2 _) _

theorem formed_restoreImage (h : Formed s) (ctx run : BitVec 32) (i : SavedImage) (tile : Nat) :
    Formed (restoreImage s ctx run i tile) := by
  unfold restoreImage
  extract_lets s1 lines below copy s2 s3 s4
  have hs1 : Formed s1 := formed_modRun h _ _ ⟨saved_formed h run, fun x hx => images_formed h run x (List.mem_of_mem_erase hx)⟩
  have hs2 : Formed s2 := by
    refine formed_modTile hs1 _ _ ⟨?_, acc_wf hs1 tile⟩
    dsimp only
    split
    · exact memWrite_wf _ _ _ (filter_wf _ _ (pool_wf hs1 tile))
    · exact memOver_wf _ _ (filter_wf _ _ (pool_wf hs1 tile))
  have hs3 : Formed s3 := formed_foldl (fun s c h => formed_modCore h _ _) _ hs2
  have hs4 : Formed s4 := formed_foldl (fun s b h => formed_returnBlock h _ _ _) _ hs3
  exact formed_foldl (fun s c h => formed_wakeCore h _) _ (formed_grantCapability hs4 _ _)

/-- A resumption leaves a formed state, where it leaves one. -/
def ResumedFormed (r : Resumed) : Prop := ∀ s, r = .wait s ∨ r = .went s → Formed s

@[simp] theorem formed_dspRefuse (h : Formed s) : Formed (dspRefuse s) := by
  exact h

@[simp] theorem formed_setCut (h : Formed s) (c : Option (BitVec 32 × Nat)) : Formed (setCut s c) := by
  exact h

@[simp] theorem formed_modRecords (h : Formed s) (ctx : BitVec 32) (f : BindRecord → BindRecord) : Formed (modRecords s ctx f) := by
  exact h

@[simp] theorem formed_holdRecords (h : Formed s) (ctx : BitVec 32) : Formed (holdRecords s ctx) := by
  exact h

@[simp] theorem formed_releaseRecords (h : Formed s) (ctx : BitVec 32) : Formed (releaseRecords s ctx) := by
  refine formed_foldl (fun s e h => ?_) _ h
  split
  · exact formed_regrant (formed_setRecord (formed_logRecord h _) _ _ _)
  · exact formed_later (formed_bindContext (formed_setRecord h _ _ _) _ _) _

@[simp] theorem formed_debit (h : Formed s) (d : Debit) : Formed (debit s d) := by
  unfold debit
  split <;> simp [h]

@[simp] theorem formed_stopBlocks (h : Formed s) (ctx : BitVec 32) (stop : Bool) : Formed (stopBlocks s ctx stop) := by
  refine formed_foldl (fun s n h => ?_) _ h
  split
  · exact formed_stopUnits h n
  · exact formed_goUnits h n

@[simp] theorem formed_beginHold (h : Formed s) (ctx : BitVec 32) : Formed (beginHold s ctx) := by
  unfold beginHold
  extract_lets s1 s2
  have hs1 : Formed s1 := formed_modCtx (formed_holdRecords h _) _ _
  have hs2 : Formed s2 := formed_stopBlocks (formed_foldl (fun s r h => formed_recallInbox h _ _) _ hs1) _ _
  refine formed_foldl (fun s g h => ?_) _ hs2
  grind [formed_endHold, formed_modArray]

@[simp] theorem formed_holdAccounts (h : Formed s) (accts : List Nat) : Formed (holdAccounts s accts) := by
  unfold holdAccounts
  extract_lets out
  split
  · exact h
  · exact formed_later (formed_foldl (fun s c h => formed_beginHold h c) _ h) _

@[simp] theorem formed_removeHeld (h : Formed s) : Formed (removeHeld s) := by
  refine formed_foldl (fun s r h => ?_) _ h
  have h1 := formed_recallInbox h (BitVec.ofNat 32 r.1) 0
  dsimp only
  cases e : removeHighest (recallInbox s (BitVec.ofNat 32 r.1) 0) (BitVec.ofNat 32 r.1) 0 2 with
  | none => exact h1
  | some s2 => exact removeHighest_formed h1 _ _ _ e

theorem resumeBlock_formed (h : Formed s) (run : BitVec 32) (b : SavedBlock) (tile : Nat) : ResumedFormed (resumeBlock s run b tile) := by
  unfold resumeBlock
  extract_lets r bytes k n t s1 s2 s3
  have hs1 : Formed s1 := formed_returnBlock h _ _ _
  have hs2 : Formed s2 := formed_modRun hs1 _ _ ⟨fun x hx => saved_formed hs1 run x (List.mem_of_mem_erase hx), images_formed hs1 run⟩
  have hs3 : Formed s3 := formed_modRun_frame hs2 _ _ rfl rfl
  unfold ResumedFormed
  split
  · simp [h]
  · split
    · simp [h]
    · simp [hs3]

theorem resumeStep_formed (h : Formed s) (run : BitVec 32) (pick : Nat) : ResumedFormed (resumeStep s run pick) := by
  have hready : ∀ (ctx : BitVec 32) (pages : List Nat) (f : State → Resumed), (∀ s, Formed s → ResumedFormed (f s)) →
      ResumedFormed (match pagesReady s ctx false pages with
        | .ok _ s1 => f s1
        | .bad _ _ s1 => f s1
        | .busy s1 => .wait s1) := by
    intro ctx pages f hf
    have hpages := formed_pagesReady h ctx false pages
    split <;> rename_i e <;> simp only [e, servedState] at hpages
    · exact hf _ hpages
    · exact hf _ hpages
    · simp [ResumedFormed, hpages]
  have hover : ResumedFormed .over := by simp [ResumedFormed]
  unfold resumeStep
  dsimp only
  split
  · exact hover
  · split
    · exact hover
    · split
      · exact hready _ _ _ fun s hs => resumeBlock_formed hs _ _ _
      · split
        · exact hover
        · split
          · split
            · simp [ResumedFormed, h]
            · exact hover
          · split
            · simp [ResumedFormed, h]
            · exact hready _ _ _ fun s hs => by simp [ResumedFormed, formed_restoreImage hs]

@[simp] theorem formed_resumeAll (h : Formed s) (runs : List (BitVec 32)) : Formed (resumeAll s runs).1 := by
  refine List.foldlRecOn (motive := fun acc : State × Bool => Formed acc.1) _ _ h fun acc hacc r _ => ?_
  have hstep := resumeStep_formed hacc r (Config.freePick acc.1.free)
  split
  · exact hacc
  · rename_i s1 e
    exact hstep s1 (.inl e)
  · rename_i s1 e
    exact hstep s1 (.inr e)

/-! ### Kill -/

@[simp] theorem formed_courierGone (h : Formed s) (m : CourierMsg) : Formed (courierGone s m) := by
  unfold courierGone
  split <;> simp [h]

@[simp] theorem formed_dropMessages (h : Formed s) (ctx : BitVec 32) : Formed (dropMessages s ctx) := by
  unfold dropMessages
  extract_lets mine gone s1 s2
  have hs1 : Formed s1 := h
  have hs2 : Formed s2 := formed_foldl (fun s c h => formed_endCourier h _ _) _ hs1
  exact formed_foldl (fun s m h => formed_courierGone h m) _ hs2

@[simp] theorem formed_dropCommands (h : Formed s) (ctx : BitVec 32) (tile : Nat) : Formed (dropCommands s ctx tile) := by
  unfold dropCommands
  extract_lets t mine gone run s1 s2
  have hclear : Formed (if run then clearPieces s (matrixUnit tile) else s) := by split <;> simp [h]
  have hs1 : Formed s1 := formed_modTile hclear _ _ ⟨pool_wf hclear _, acc_wf hclear _⟩
  have hs2 : Formed s2 := formed_foldl (fun s c h => by split <;> simp [h]) _ hs1
  split
  · exact h
  · exact formed_admitHeld (formed_later (formed_settleUnits hs2 _ _) _) _

@[simp] theorem formed_dropCopies (h : Formed s) (ctx : BitVec 32) : Formed (dropCopies s ctx) := by
  obtain ⟨hhbm, hstaging, htiles, hruns⟩ := h
  exact ⟨hhbm, hstaging, List.forall_mem_map.mpr htiles, hruns⟩

@[simp] theorem formed_dropFelt (h : Formed s) (ctx : BitVec 32) : Formed (dropFelt s ctx) := by
  unfold dropFelt
  refine formed_foldl (fun s k h => ?_) _ h
  split <;> simp [h]

@[simp] theorem formed_dropTriggers (h : Formed s) (ctx : BitVec 32) (tile : Nat) : Formed (dropTriggers s ctx tile) := by
  exact h

@[simp] theorem formed_sendGenerations (h : Formed s) (ctx : BitVec 32) (devs : List Nat) : Formed (sendGenerations s ctx devs) :=
  formed_foldl (fun _ _ h => formed_sendRequest h _ _ _ _ _ _ _) _ h

theorem runsFormed_map {m : SMap Run} (hm : RunsFormed m) {f : Nat × Run → Run} (hf : ∀ e, RunFormed e.2 → RunFormed (f e)) :
    RunsFormed (m.map (fun e => (e.1, f e))) := List.forall_mem_map.mpr fun e he => hf e (hm e he)

@[simp] theorem formed_startKill (h : Formed s) (ctx : BitVec 32) : Formed (startKill s ctx) := by
  unfold startKill
  extract_lets strands tiles banks s1 s2 s3 s4 s5 s6 s7
  have hs1 : Formed s1 := formed_modCtx h _ _
  have hs2 : Formed s2 := formed_regrant (formed_modRecords hs1 _ _)
  have hs3 : Formed s3 := formed_dropFelt (formed_dropCopies (formed_dropMessages hs2 _) _) _
  have hs4 : Formed s4 := formed_foldl (fun s t h => formed_dropCommands h _ _) _ hs3
  have hs5 : Formed s5 := formed_foldl (fun s t h => formed_dropTriggers h _ _) _ hs4
  have hs6 : Formed s6 := by
    obtain ⟨hhbm, hstaging, htiles, hruns⟩ := hs5
    refine ⟨hhbm, hstaging, htiles, runsFormed_map hruns fun e he => ?_⟩
    split
    · exact ⟨blocksFormed_nil, imagesFormed_nil⟩
    · exact he
  have hs7 : Formed s7 := formed_foldl (fun s n h => formed_freeStrand h n) _ hs6
  split
  · exact h
  · split
    · exact formed_later (formed_foldl (fun s n h => formed_stopUnits h n) _ (formed_regrant (formed_modRecords (formed_modCtx h _ _) _ _))) _
    · exact formed_later (formed_sendGenerations hs7 _ _) _

@[simp] theorem formed_killedPacket (h : Formed s) (r : Run) : Formed (killedPacket s r) := by
  unfold killedPacket
  simp only
  repeat' split
  all_goals simp [h]

@[simp] theorem formed_clearTiles (h : Formed s) (ctx : BitVec 32) : Formed (clearTiles s ctx) := by
  unfold clearTiles
  extract_lets c s1
  have hs1 : Formed s1 := formed_foldl (fun s b h => formed_modTile h _ _ ⟨pool_wf h _, memClear_wf _ _ _ (acc_wf h _)⟩) _ h
  refine formed_foldl (fun s tile h => ?_) _ hs1
  have hunmapped := formed_unmapEntries h tile (fun e => e.ctx == ctx)
  exact formed_modTile hunmapped _ _ ⟨memClear_wf _ _ _ (pool_wf hunmapped _), acc_wf hunmapped _⟩

@[simp] theorem formed_handOn (h : Formed s) : Formed (handOn s) := by
  exact h

@[simp] theorem formed_destroysGoOn (ctx : BitVec 32) (h : Formed s) : Formed (destroysGoOn ctx s) := by
  refine formed_foldl (fun s a h => ?_) _ ?_
  · simp [h]
  · simp [h]

@[simp] theorem formed_resetPacket (h : Formed s) (slot : Nat) (p : PacketRun) : Formed (resetPacket s slot p) := by
  unfold resetPacket
  split <;> simp [h]

@[simp] theorem formed_resetRecords (h : Formed s) : Formed (resetRecords s) := by
  refine formed_foldl (fun s q h => ?_) _ h
  split
  · exact h
  · exact formed_foldl (fun s p h => formed_packetDone h _ _ _) _ h

@[simp] theorem formed_resetQueue (h : Formed s) (slot sub : Nat) : Formed (resetQueue s slot sub) := by
  unfold resetQueue
  extract_lets b q s1 src s2 s3 s4
  have hs1 : Formed s1 := formed_qcbWrite h _ _
  have hs2 : Formed s2 := by
    simp only [s2]
    split <;> exact hs1
  have hs3 : Formed s3 := formed_foldl (fun s p h => formed_resetPacket h _ _) _ hs2
  have hs4 : Formed s4 := by
    simp only [s4]
    split
    · exact formed_foldl (fun s p h => formed_resetPacket h _ _) _ hs3
    · exact hs3
  exact formed_modQueue hs4 _ _

@[simp] theorem formed_resetPartition (h : Formed s) (part : Nat) (expired : List Nat) : Formed (resetPartition s part expired) := by
  unfold resetPartition
  extract_lets src s1 s2 slots s3
  have hs1 : Formed s1 := h
  have hs2 : Formed s2 := formed_foldl (fun s c h => formed_startKill h _) _ hs1
  have hs3 : Formed s3 := formed_foldl (fun s i h => formed_resetQueue h _ _) _ hs2
  split
  · exact formed_foldl (fun s i h => formed_resetQueue h _ _) _ h
  · exact formed_later hs3 _

@[simp] theorem formed_missWaiting (h : Formed s) (part : Nat) : Formed (missWaiting s part) := by
  refine formed_foldl (fun s a h => ?_) _ ?_
  · simp [h]
  · simp [h]

/-! ### Fabric -/

@[simp] theorem formed_dropTlb (h : Formed s) (p : Nat → Nat → Nat → Bool) : Formed (dropTlb s p) := by
  unfold dropTlb
  extract_lets s1
  have hs1 : Formed s1 := h
  refine formed_foldl (fun s ea h => ?_) _ hs1
  dsimp only
  split <;> simp [h]

@[simp] theorem formed_wakeAgent (h : Formed s) (a : Option Agent) (tag : Nat) (f : Strand → Strand) : Formed (wakeAgent s a tag f) := by
  unfold wakeAgent
  split
  · exact h
  · split <;> simp [h]

@[simp] theorem formed_storeAnswered (h : Formed s) (r : Request) (kind : Nat) (x : Answer) : Formed (storeAnswered s r kind x) := by
  unfold storeAnswered
  split <;> simp [h]

end

section

variable {s : State}

@[simp] theorem formed_checkRuns (h : Formed s) (ctx : BitVec 32) : Formed (checkRuns s ctx) := by
  refine formed_foldl (fun s a h => ?_) _ ?_
  · simp [h]
  · simp [h]

@[simp] theorem formed_arriveReply (h : Formed s) (tile image : Nat) (va : Word) (code : Nat) : Formed (arriveReply s tile image va code) := by
  unfold arriveReply
  split <;> simp [h]

@[simp] theorem formed_releaseWaiting (h : Formed s) (g : Nat) : Formed (releaseWaiting s g) := by
  unfold releaseWaiting
  split <;> simp [h]

@[simp] theorem formed_answered (h : Formed s) (tag : Nat) (r : Request) (x : Answer) : Formed (answered s tag r x) := by
  unfold answered
  extract_lets src s1 fault fill s2 s3 value src'
  have hs1 : Formed s1 := h
  have hfill : ∀ {s : State}, Formed s → ∀ c v k, Formed (fill s c v k) := by
    intro s hs c v k
    simp only [fill]
    split
    · split <;> simp [hs]
    · exact hs
  have hs2 : Formed s2 := by
    simp only [s2]
    split <;> simp [hs1]
  have hs3 : Formed s3 := by
    simp only [s3]
    split <;> simp [hs2]
  have hwake : ∀ {s : State}, Formed s → ∀ (P : Prop) [Decidable P] (f g : Strand → Strand),
      Formed (if P then wakeAgent s r.agent tag f else wakeAgent s r.agent tag g) := by
    intro s hs P _ f g
    split <;> simp [hs]
  clear_value s1 fill s2 s3
  generalize r.kind = kind
  cases kind with
  | load cluster vline key kind =>
    dsimp only
    split <;> simp [hs1, hfill]
  | store kind => simp [hs1]
  | amo => exact formed_checkRuns hs3 _
  | register kind => exact hwake hs1 _ _ _
  | send => exact hwake hs1 _ _ _
  | invalidate g =>
    have hdir := formed_modDir hs1 g (fun d => { d with invs := d.invs - 1 })
    dsimp only
    split
    · exact formed_releaseWaiting hdir _
    · exact hdir
  | generation ctx =>
    dsimp only
    split
    · exact formed_modCtx hs1 _ _
    · exact hs1
  | trinv => exact formed_ostler hs1 _
  | courier tile image barrier => exact formed_arriveReply hs1 _ _ _ _
  | msend tile image barrier => exact formed_arriveReply hs1 _ _ _ _
  | replyMsg mailbox slot =>
    have hclear := formed_clearBusy hs1 mailbox slot
    dsimp only
    split <;> rename_i e <;> simp only [e, servedState] at hclear
    · exact hclear
    · exact hclear
    · exact formed_later hclear _
  | engine unit piece => exact formed_notePiece hs1 _ _ _ _
  | post id => exact formed_postStep hs1 _ _ _ _
  | carriage i j got =>
    dsimp only
    split
    · split <;> exact formed_later hs1 _
    · exact formed_later hs1 _
  | engineLoad unit cluster vline key =>
    dsimp only
    split
    · exact hfill hs1 _ _ _
    · exact formed_notePiece hs1 _ _ _ _
  | writeback | snoop | message | notice | killReq | charge => exact hs1

@[simp] theorem formed_abandonOwner (h : Formed s) (dev : Nat) : Formed (abandonOwner s dev) := by
  refine formed_foldl (fun s a h => ?_) _ ?_
  · simp [h]
  · simp [h]

@[simp] theorem formed_makeGone (h : Formed s) (dev sub : Nat) : Formed (makeGone s dev sub) := by
  unfold makeGone
  extract_lets src s1 s2 s3
  have hs1 : Formed s1 := h
  have hs2 : Formed s2 := formed_dropTlb hs1 _
  have hl2 : Formed { s2 with l2 := s2.l2.filter (fun l => !(l.dev == dev)) } := hs2
  have hs3 : Formed s3 := formed_abandonOwner hl2 _
  split
  · exact h
  · exact formed_foldl (fun s r h => formed_answered h _ _ _) _ hs3

@[simp] theorem formed_goneByLink (h : Formed s) (routed : List Nat) : Formed (goneByLink s routed) := by
  refine formed_foldl (fun s a h => ?_) _ ?_
  · simp [h]
  · simp [h]

@[simp] theorem formed_charged (h : Formed s) (p : Packet) : Formed (charged s p) := by
  unfold charged
  split <;> simp [h]

@[simp] theorem formed_refuse (h : Formed s) (p : Packet) (code sub : Nat) : Formed (refuse s p code sub) := by
  unfold refuse
  split <;> simp [h]

@[simp] theorem formed_refuseWord (h : Formed s) (p : Packet) : Formed (refuseWord s p) := by
  simp [refuseWord, h]

@[simp] theorem formed_believes (h : Formed s) (dev epoch : Nat) : Formed (believes s dev epoch) := by
  unfold believes
  split <;> simp [h]

@[simp] theorem formed_waitGranule (h : Formed s) (g : Nat) (p : Packet) : Formed (waitGranule s g p) := by
  exact h

@[simp] theorem formed_setAside (h : Formed s) (g : Nat) : Formed (setAside s g) := by
  unfold setAside
  split <;> simp [h]

@[simp] theorem formed_putBack (h : Formed s) (g : Nat) (rest : List Packet) : Formed (putBack s g rest) := by
  unfold putBack
  simp only
  repeat' split
  all_goals simp [h]

theorem formed_withTurn (h : Formed s) (gs : List Nat) (p : Packet) {serve : State → State} (hserve : ∀ s, Formed s → Formed (serve s)) :
    Formed (withTurn s gs p serve) := by
  unfold withTurn
  split
  · split <;> simp [h]
  · extract_lets rests
    exact formed_foldl (fun s r h => formed_putBack h _ _) _ (hserve _ (formed_foldl (fun s g h => formed_setAside h g) _ h))

@[simp] theorem formed_windowRequest (h : Formed s) (p : Packet) (pa : Nat) : Formed (windowRequest s p pa) := by
  unfold windowRequest
  simp only
  repeat' split
  all_goals simp [h]

theorem formed_withRequest (h : Formed s) (p : Packet) (write : Bool) (n : Nat) {f : State → Nat → BitVec 8 → State}
    (hf : ∀ s pa key, Formed s → Formed (f s pa key)) : Formed (withRequest s p write n f) := by
  unfold withRequest
  extract_lets b pa gs s1
  have hs1 : Formed s1 := by
    simp only [s1]
    split <;> simp [h]
  have hturn : Formed (withTurn s1 gs p (fun s => f s pa (BitVec.ofNat 8 (fieldAt b 14 1)))) := formed_withTurn hs1 _ _ fun s hs => hf s _ _ hs
  have hwindow := formed_windowRequest (formed_charged h p) p pa
  clear_value s1
  grind [formed_refuseWord, formed_acknowledge]

@[simp] theorem formed_sendData (h : Formed s) (p : Packet) (v : Vec) : Formed (sendData s p v) := by
  simp [sendData, h]

@[simp] theorem formed_fetchServe (h : Formed s) (unit : Nat) (pdom : BitVec 16) (va n : Nat) : Formed (servedState (fetchServe s unit pdom va n)) :=
    by
  unfold fetchServe
  split
  · exact h
  · refine formed_andThen (formed_searchGrants h _ _ _ _ _ _) fun e s1 h1 => ?_
    split
    · exact h1
    · refine formed_andThen (formed_unitWalk h1 _ _) fun leaf s2 h2 => ?_
      dsimp only
      split
      · exact h2
      · exact formed_depotRead h2 _ _

@[simp] theorem formed_fetchPacket (h : Formed s) (p : Packet) : Formed (fetchPacket s p) := by
  grind [fetchPacket, !formed_refuseWord, !formed_fetchServe, !formed_sendData, !formed_charged, !formed_refuse, !formed_later, servedState]

@[simp] theorem formed_apertureLanding (h : Formed s) (pa : Nat) (mask : Nat) (v : Vec) : Formed (apertureLanding s pa mask v) := by
  unfold apertureLanding
  split <;> simp [h]

@[simp] theorem formed_flushLines (h : Formed s) (p : Nat → Bool) : Formed (flushLines s p) := by
  refine formed_foldl (fun s a h => ?_) _ ?_
  · simp [h]
  · simp [h]

@[simp] theorem formed_markRange (h : Formed s) (lo hi : Nat) : Formed (markRange s lo hi) := by
  refine formed_foldl (fun s e h => ?_) _ h
  dsimp only
  split
  · exact h
  · refine formed_foldl (fun s w h => formed_foldl (fun s sw h => ?_) _ h) _ h
    split <;> simp [h]

@[simp] theorem formed_rearmRange (h : Formed s) (lo hi : Nat) : Formed (rearmRange s lo hi) := by
  obtain ⟨hhbm, hstaging, htiles, hruns⟩ := h
  exact ⟨hhbm, hstaging, htiles, runsFormed_map hruns fun e he => he⟩

@[simp] theorem formed_trinvHere (h : Formed s) (cmd va len : Nat) : Formed (trinvHere s cmd va len) := by
  grind [trinvHere, !formed_rearmRange, !formed_markRange, !formed_dropTlb, !formed_flushLines, Formed]

@[simp] theorem formed_trinvRefuse (h : Formed s) : Formed (trinvRefuse s) := by
  exact h

@[simp] theorem formed_trinvPart (h : Formed s) (cmd va len : Nat) : Formed (trinvPart s cmd va len) := by
  simp [trinvPart, h]

@[simp] theorem formed_trinvStore (h : Formed s) (v : Word) : Formed (trinvStore s v) := by
  exact h

@[simp] theorem formed_trinv (h : Formed s) (v : Word) : Formed (trinv s v) := by
  unfold trinv
  extract_lets scope s0 waits s1 devs body s2
  have hs1 : Formed s1 := formed_trinvPart (formed_trinvStore h _) _ _ _
  have hs2 : Formed s2 := formed_foldl (fun s d h => formed_sendRequest h _ _ _ _ _ _ _) _ hs1
  split
  · simp [h]
  · split
    · simp [h]
    · exact formed_ostler hs2 _

@[simp] theorem formed_sendCharges (h : Formed s) (dev fuel : Nat) (cs : List (Nat × Nat)) : Formed (sendCharges s dev fuel cs) := by
  induction fuel generalizing s cs with
  | zero => exact h
  | succ k ih =>
    unfold sendCharges
    split
    · exact h
    · exact ih (formed_sendRequest h _ _ _ _ _ _ _) _

@[simp] theorem formed_drayGranules (h : Formed s) (g : Nat) (key : BitVec 8) (bs : List Byte) (n : Nat)
    : Formed (servedState (drayGranules s g key bs n)) := by
  induction n generalizing s g bs with
  | zero => exact h
  | succ k ih => grind [drayGranules, !formed_depotWrite, servedState]

@[simp] theorem formed_depotRefuse (h : Formed s) : Formed (depotRefuse s) := by
  exact h

@[simp] theorem formed_reclaim (h : Formed s) (f : State → Nat → State) (hf : ∀ x0 x1, Formed x0 → Formed (f x0 x1)) : Formed (reclaim s f) := by
  grind [reclaim, !formed_depotRefuse, !formed_modSector, !formed_modDir, !formed_releaseWaiting, Formed]

@[simp] theorem formed_slotAnswer (h : Formed s) (slot : Nat) (bs : List Byte) : Formed (slotAnswer s slot bs) := by
  unfold slotAnswer
  split <;> simp [h]

@[simp] theorem formed_pieceAnswer (h : Formed s) (n : Nat) (bs : Option (List Byte)) : Formed (pieceAnswer s n bs) := by
  exact h

@[simp] theorem formed_peerAnswer (h : Formed s) (a : Agent) (bs : Option (List Byte)) : Formed (peerAnswer s a bs) := by
  grind [peerAnswer.eq_def, formed_modAgent, formed_pieceAnswer, formed_slotAnswer, Formed]

/-! ### Power -/

@[simp] theorem formed_resumeTile (h : Formed s) (tile : Nat) : Formed (resumeTile s tile) := by
  exact h

/-! ### Links -/

@[simp] theorem formed_plainFlit (h : Formed s) (p typ : Nat) (payload : List Byte) : Formed (plainFlit s p typ payload) := by
  exact h

@[simp] theorem formed_sendNak (h : Formed s) (p : Fin 36) : Formed (sendNak s p) := by
  grind [sendNak, !formed_later, !formed_plainFlit, !formed_setPort]

@[simp] theorem formed_drainQueued (h : Formed s) (p fuel : Nat) : Formed (drainQueued s p fuel) := by
  induction fuel generalizing s with
  | zero => exact h
  | succ k ih => grind [drainQueued, !formed_setPort, !formed_putFlit]

@[simp] theorem formed_takeAck (h : Formed s) (p ack : Nat) : Formed (takeAck s p ack) := by
  unfold takeAck
  simp only
  repeat' split
  all_goals simp [h]

@[simp] theorem formed_replayFrom (h : Formed s) (p from' : Nat) : Formed (replayFrom s p from') := by
  unfold replayFrom
  simp only
  repeat' split
  all_goals simp [h]

@[simp] theorem formed_withFlit (h : Formed s) (p : Fin 36) (typ : Nat) (raw : List Byte) (f : Flit → State → State) (hf : ∀ x0 x1,
    Formed x1 → Formed (f x0 x1)) : Formed (withFlit s p typ raw f) := by
  grind [withFlit, !formed_sendNak, !formed_takeAck]

@[simp] theorem formed_takePayload (h : Formed s) (p : Fin 36) (f : Flit) : Formed (takePayload s p f) := by
  exact h

@[simp] theorem formed_changeRoutes (h : Formed s) {f : State → State} (hf : ∀ s, Formed s → Formed (f s)) : Formed (changeRoutes s f) := by
  grind [changeRoutes, !formed_later, Formed]

@[simp] theorem formed_reject (h : Formed s) (p : Packet) (status : Nat) : Formed (reject s p status) := by
  unfold reject
  split <;> simp [h]

@[simp] theorem formed_sendHeld (h : Formed s) (x : Nat × Packet) : Formed (sendHeld s x) := by
  grind [sendHeld, !formed_sendFrom, !formed_reject]

@[simp] theorem formed_dropOldTransit (h : Formed s) : Formed (dropOldTransit s) := by
  exact h

@[simp] theorem formed_failPort (h : Formed s) (p : Fin 36) (cause : Nat) : Formed (failPort s p cause) := by
  unfold failPort
  extract_lets routed s1 src s2 s3 s4 live time n
  have hs1 : Formed s1 := formed_changeRoutes h fun s h => formed_setPort h _ _
  have hlink : Formed { s1 with link := { src with transit := s1.link.transit.filter (fun x => !(x.port = p.val)) } } := hs1
  have hs2 : Formed s2 := formed_goneByLink hlink _
  have hs3 : Formed s3 := formed_foldl (fun s r h => formed_answered h _ _ _) _ hs2
  have hs4 : Formed s4 := formed_logRecord hs3 _
  clear_value s4
  refine formed_later ?_ _
  exact hs4

@[simp] theorem formed_writeNotice (h : Formed s) (addr : Word) (bs : List Byte) (port cause : Nat) : Formed (writeNotice s addr bs port cause).1 :=
    by
  grind [writeNotice, !formed_logRecord, !formed_depotWrite, !formed_later, !formed_sendPacket, servedState, Formed]

@[simp] theorem formed_writeNoticeTo (n : Notice) (bs : List Byte) {acc : State × List Word} (h : Formed acc.1) (addr : Word)
    : Formed (writeNoticeTo n bs acc addr).1 :=
  formed_writeNotice h _ _ _ _

@[simp] theorem formed_replayOrFail (h : Formed s) (p : Fin 36) (from' : Nat) : Formed (replayOrFail s p from') := by
  unfold replayOrFail
  simp only
  repeat' split
  all_goals simp [h]

@[simp] theorem formed_sendTrain (h : Formed s) (p : Nat) : Formed (sendTrain s p) := by
  exact h

@[simp] theorem formed_startTraining (h : Formed s) (p : Nat) : Formed (startTraining s p) := by
  exact h

@[simp] theorem formed_startRetrain (h : Formed s) (p : Fin 36) (worn : Option Nat) : Formed (startRetrain s p worn) := by
  unfold startRetrain
  simp only
  repeat' split
  all_goals simp [h]

@[simp] theorem formed_portUpNow (h : Formed s) (p : Nat) : Formed (portUpNow s p) := by
  unfold portUpNow
  extract_lets s1
  have hs1 : Formed s1 := formed_changeRoutes h fun s h => formed_setPort h _ _
  exact formed_foldl (fun s c h => formed_sendGenerations h _ _) _ hs1

@[simp] theorem formed_spareRecord (h : Formed s) (p : Nat) : Formed (spareRecord s p) := by
  exact h

@[simp] theorem formed_trainWith (h : Formed s) (p : Fin 36) (r : List Byte) : Formed (trainWith s p r) := by
  grind [trainWith, !formed_failPort, !formed_setPort, !formed_spareRecord, !formed_replayFrom, !formed_sendTrain, !formed_portUpNow]

@[simp] theorem formed_retrainWithout (h : Formed s) (p : Fin 36) (lane : Nat) : Formed (retrainWithout s p lane) := by
  unfold retrainWithout
  simp only
  repeat' split
  all_goals simp [h]

@[simp] theorem formed_portDisable (h : Formed s) (p : Fin 36) : Formed (portDisable s p) := by
  unfold portDisable
  split <;> simp [h]

end

section

variable {s : State}

@[simp] theorem formed_portTrain (h : Formed s) (p : Fin 36) : Formed (portTrain s p) := by
  unfold portTrain
  simp only
  repeat' split
  all_goals simp [h]

@[simp] theorem formed_portReset (h : Formed s) (p : Fin 36) : Formed (portReset s p) := by
  unfold portReset
  split <;> simp [h]

@[simp] theorem formed_switchRequest (h : Formed s) : Formed (switchRequest s) := by
  unfold switchRequest
  split <;> simp [h]

@[simp] theorem formed_awRefuse (h : Formed s) : Formed (awRefuse s) := by
  exact h

@[simp] theorem formed_bankWrite (h : Formed s) (off : Nat) (v : Word) : Formed (bankWrite s off v) := by
  unfold bankWrite
  simp only
  repeat' split
  all_goals simp [h]

@[simp] theorem formed_devnumWrite (h : Formed s) (v : Word) : Formed (devnumWrite s v) := by
  unfold devnumWrite
  split <;> simp [h]

@[simp] theorem formed_linkWrite (h : Formed s) (off : Nat) (v : Word) : Formed (linkWrite s off v) := by
  grind [linkWrite, !formed_switchRequest, !formed_devnumWrite, !formed_portDisable, !formed_setPort, !formed_portReset, !formed_portTrain,
    !formed_bankWrite, Formed]

@[simp] theorem formed_transitEnded (h : Formed s) (p : Packet) : Formed (transitEnded s p) := by
  unfold transitEnded
  split <;> simp [h]

theorem formed_ite {P : Prop} [Decidable P] {a b : State} (ha : Formed a) (hb : Formed b) : Formed (if P then a else b) := by
  split
  · exact ha
  · exact hb

@[simp] theorem formed_controlStore (h : Formed s) (off : Nat) (v : Word) : Formed (controlStore s off v) := by
  have hstaging : Formed { s with mgmt := { s.mgmt with staging := memWrite s.mgmt.staging (off - 0x400000) (leBytes 8 v.toNat) } } := by
    simp [h, memWrite_wf]
  have hlink := formed_linkWrite h off v
  unfold controlStore
  dsimp only
  refine formed_ite h (formed_ite h (formed_ite (formed_ite h h) (formed_ite h (formed_ite h (formed_ite (formed_ite h h)
    (formed_ite h (formed_ite h ?_)))))))
  exact formed_ite h (formed_ite hlink (formed_ite h (formed_ite h (formed_ite hstaging h))))

@[simp] theorem formed_ostlerStore (h : Formed s) (off : Nat) (v : Word) : Formed (ostlerStore s off v) := by
  unfold ostlerStore
  dsimp only
  repeat' apply formed_ite
  all_goals simp [h]

@[simp] theorem formed_depotStore (h : Formed s) (off : Nat) (v : Word) : Formed (depotStore s off v) := by
  unfold depotStore
  simp only
  repeat' split
  all_goals simp [h]

/-! ### Boot -/

@[simp] theorem formed_modMgmt (h : Formed s) (f : Management → Management) (hf : (f s.mgmt).staging.wf = true) : Formed (modMgmt s f) := by
  obtain ⟨hhbm, -, htiles, hruns⟩ := h
  exact ⟨hhbm, hf, htiles, hruns⟩

@[simp] theorem formed_securityRecord (h : Formed s) (sub : Nat) : Formed (securityRecord s sub) := by
  exact h

@[simp] theorem formed_spareRecordOf (h : Formed s) (sub source : Nat) (detail : List Byte) : Formed (spareRecordOf s sub source detail) := by
  exact h

@[simp] theorem formed_spareUsed (h : Formed s) (sub source used total : Nat) (detail : List Byte)
    : Formed (spareUsed s sub source used total detail) := by
  unfold spareUsed
  split <;> simp [h]

@[simp] theorem formed_swapTile (h : Formed s) (die pos : Nat) : Formed (swapTile s die pos) := by
  grind [swapTile, !formed_spareUsed, !formed_modDie, !formed_modCluster, !formed_spareRecordOf, !formed_soon]

@[simp] theorem formed_loseRow (h : Formed s) (stack pc bank row : Nat) : Formed (loseRow s stack pc bank row) := by
  refine formed_foldl (fun s a h => ?_) _ ?_
  · simp [h]
  · simp [h]

@[simp] theorem formed_swapRow (h : Formed s) (stack pc bank row : Nat) : Formed (swapRow s stack pc bank row) := by
  grind [swapRow, !formed_spareUsed, !formed_modMgmt, !formed_later, !formed_loseRow, !formed_spareRecordOf, staging_wf]

@[simp] theorem formed_swapChannel (h : Formed s) (stack pc : Nat) : Formed (swapChannel s stack pc) := by
  grind [swapChannel, !formed_spareUsed, !formed_modMgmt, !formed_spareRecordOf, staging_wf]

@[simp] theorem formed_swapColumn (h : Formed s) (array : Nat) : Formed (swapColumn s array) := by
  unfold swapColumn
  simp only
  repeat' split
  all_goals simp [h]

@[simp] theorem formed_enterRecovery (h : Formed s) : Formed (enterRecovery s) := by
  exact h

@[simp] theorem formed_moveRoles (h : Formed s) (die pos : Nat) : Formed (moveRoles s die pos) := by
  grind [moveRoles, !formed_modCluster, !formed_modDie, !formed_enterRecovery, !formed_spareRecordOf]

@[simp] theorem formed_chooseColumn (h : Formed s) (t : List Byte) : Formed (chooseColumn s t) := by
  unfold chooseColumn
  extract_lets s1
  have hs1 : Formed s1 := formed_foldl (fun s d h => formed_modDie h _ _) _ h
  exact formed_foldl (fun s d h => formed_foldl (fun s p h => formed_moveRoles h _ _) _ h) _ hs1

@[simp] theorem formed_lockMesh (h : Formed s) : Formed (lockMesh s) :=
  formed_foldl (fun _ _ h => formed_modCluster h _ _) _ h

@[simp] theorem formed_trainPorts (h : Formed s) : Formed (trainPorts s) := by
  refine formed_foldl (fun s p h => ?_) _ h
  split
  · exact formed_portTrain h _
  · exact h

@[simp] theorem formed_bootFrom2 (h : Formed s) : Formed (bootFrom2 s) := by
  grind [bootFrom2, !formed_modMgmt, !formed_enterRecovery, !formed_securityRecord, !formed_chooseColumn, !formed_trainPorts, !formed_lockMesh,
    staging_wf]

@[simp] theorem formed_resetPackage (s : State) (strapHigh : Bool) : Formed (resetPackage s strapHigh) :=
  ⟨rfl, rfl, List.forall_mem_nil _, List.forall_mem_nil _⟩

@[simp] theorem formed_mgmtCommand (h : Formed s) (f : State → State) (hf : ∀ x0, Formed x0 → Formed (f x0)) : Formed (mgmtCommand s f) := by
  unfold mgmtCommand
  split <;> simp [h, hf]

@[simp] theorem formed_mgmtResult (h : Formed s) (r : Nat) : Formed (mgmtResult s r) := by
  exact h

@[simp] theorem formed_discardImage (h : Formed s) : Formed (discardImage s) := by
  exact h

@[simp] theorem formed_patchEnds (h : Formed s) (r : Nat) : Formed (patchEnds s r) := by
  exact h

@[simp] theorem formed_commitPatch (h : Formed s) (p : List Byte) : Formed (commitPatch s p) := by
  grind [commitPatch, !formed_securityRecord, !formed_mgmtResult, !formed_patchEnds, !formed_later, !formed_modMgmt, staging_wf]

@[simp] theorem formed_dropHostPort (h : Formed s) : Formed (dropHostPort s) := by
  exact h

/-! ### HostPort -/

@[simp] theorem formed_hostCheck (h : Formed s) (ctx : Option (BitVec 32)) (need va n : Nat) : Formed (servedState (hostCheck s ctx need va n)) := by
  grind [hostCheck.eq_def, !formed_ctxRights, servedState]

theorem formed_hostAccess {α : Type} (h : Formed s) (relaxed : Bool) (offset need n : Nat) {f : State → Engine → Nat → Served α}
    (hf : ∀ s e va, Formed s → Formed (servedState (f s e va))) : Formed (servedState (hostAccess s relaxed offset need n f).1) := by
  grind [hostAccess, !formed_hostCheck, servedState]

@[simp] theorem formed_putBefore (h : Formed s) (i : Instr) (p : Instr → Bool) : Formed (putBefore s i p) := by
  exact h

@[simp] theorem formed_bar4Again (h : Formed s) (i : Instr) : Formed (bar4Again s i) := by
  grind [bar4Again, !formed_putBefore, Formed]

/-! ### Coaches -/

@[simp] theorem formed_flagReady (h : Formed s) (c : Carriage) : Formed (servedState (flagReady s c)) := by
  grind [flagReady, !formed_settle, !formed_invalidate, servedState]

@[simp] theorem formed_flagsReady (h : Formed s) (cs : List Carriage) : Formed (servedState (flagsReady s cs)) := by
  induction cs generalizing s with
  | nil => exact h
  | cons g rest ih => grind [flagsReady, !formed_flagReady, servedState]

@[simp] theorem formed_flagPut (h : Formed s) (c : Carriage) (w : Nat) : Formed (flagPut s c w) := by
  grind [flagPut, !formed_depotWrite, servedState]

@[simp] theorem formed_withFlag (h : Formed s) (c : Carriage) (again : Instr) (f : State → Nat → State) (hf : ∀ x0 x1, Formed x0 → Formed (f x0 x1))
    : Formed (withFlag s c again f) := by
  grind [withFlag, !formed_flagReady, !formed_later, servedState]

@[simp] theorem formed_clearFlags (h : Formed s) (cs : List Carriage) : Formed (clearFlags s cs) := by
  refine formed_foldl (fun s c h => ?_) _ h
  split
  · exact h
  · exact formed_flagPut h _ _

@[simp] theorem formed_forgetFetches (h : Formed s) (i : Nat) : Formed (forgetFetches s i) := by
  obtain ⟨hhbm, hstaging, htiles, hruns⟩ := h
  exact ⟨hhbm, hstaging, List.forall_mem_map.mpr htiles, hruns⟩

@[simp] theorem formed_addCoach (h : Formed s) (k : Coach) : Formed (addCoach s k) := by
  unfold addCoach
  extract_lets same old k1 s1
  have hs1 : Formed s1 := formed_foldl (fun s i h => by split <;> simp [h]) _ h
  split <;> exact hs1

@[simp] theorem formed_coachBegun (h : Formed s) (slot : Nat) : Formed (coachBegun s slot) := by
  grind [coachBegun, !formed_dispatchEnded]

theorem formed_coachStep_registers (h : Formed s) (slot : Nat) (p : PacketRun) (ctx : BitVec 32) (prio : Nat) (cs : List Carriage) :
    Formed (coachStep.registers slot p s ctx prio cs) :=
  formed_packetEnds (formed_addCoach (formed_clearFlags h _) _) _ _ _ _ _

theorem formed_readTable (h : Formed s) (e : Engine) (part table i count : Nat) : Formed (servedState (readTable s e part table i count).1) := by
  induction count generalizing s i with
  | zero => exact h
  | succ k ih => grind [readTable, !formed_ctxRead, !formed_ctxRights, servedState]

@[simp] theorem formed_coachStep (slot : Nat) (p : PacketRun) (h : Formed s) : Formed (coachStep slot p s) := by
  grind [coachStep, !formed_readTable, !formed_flagsReady, formed_coachStep_registers, formed_packetEnds, formed_faultRecord, formed_later,
    servedState]

@[simp] theorem formed_withCarriage (h : Formed s) (i j : Nat) (f : Coach → Carriage → State) (hf : ∀ x0 x1, Formed (f x0 x1))
    : Formed (withCarriage s i j f) := by
  grind [withCarriage]

@[simp] theorem formed_fetchFails (h : Formed s) (i j : Nat) (c : Carriage) (code : Nat) : Formed (fetchFails s i j c code) := by
  unfold fetchFails
  simp only
  repeat' split
  all_goals simp [h]

@[simp] theorem formed_askBlocks (h : Formed s) (i j : Nat) (k : Coach) (c : Carriage) : Formed (askBlocks s i j k c) := by
  grind [askBlocks, !formed_fetchFails, !formed_ctxRights, !formed_later, !formed_startCopy, !formed_modCarriage, servedState]

@[simp] theorem formed_askPeer (h : Formed s) (i j : Nat) (k : Coach) (c : Carriage) : Formed (askPeer s i j k c) := by
  grind [askPeer, !formed_fetchFails, !formed_fetchServe, !formed_later, !formed_sendRequest, servedState]

@[simp] theorem formed_peerGranule (h : Formed s) (i j : Nat) (k : Coach) (c : Carriage) (w : Nat) (bytes : List Byte)
    : Formed (peerGranule s i j k c w bytes) := by
  grind [peerGranule, !formed_modCarriage, !formed_later, !formed_askPeer]

@[simp] theorem formed_askSource (h : Formed s) (i j : Nat) (k : Coach) (c : Carriage) : Formed (askSource s i j k c) := by
  unfold askSource
  simp only
  repeat' split
  all_goals simp [h]

@[simp] theorem formed_fetchGoesOn (h : Formed s) (i j : Nat) (k : Coach) (c : Carriage) (w : Nat) : Formed (fetchGoesOn s i j k c w) := by
  unfold fetchGoesOn
  simp only
  repeat' split
  all_goals simp [h]

/-! ### Turn -/

end

end Sys2Proof.Machine
end

section
/-!
PROOFS. Executions that keep the form of the memories (O59): the state that an execution ends in, the one that a refusal leaves and the one
in which an instruction waits.
-/
namespace Sys2Proof.Machine

/-- What an instruction's execution leaves is formed: the state after it, the state of a refusal, the state of a wait. -/
def ResultFormed {α : Type} : Except Stop (α × State) → Prop
  | .ok r => Formed r.2
  | .error (.fault _) => True
  | .error (.failed _ s) => Formed s
  | .error (.wait s) => Formed s

/-- An execution that leaves every memory's form. -/
structure Keeps {α : Type} (e : Exec α) : Prop where
  result_formed : ∀ s, Formed s → ResultFormed (e s)

section

variable {α β : Type}

theorem keeps_pure (a : α) : Keeps (pure a : Exec α) := ⟨fun _ h => h⟩

theorem keeps_bind {e : Exec α} {k : α → Exec β} (he : Keeps e) (hk : ∀ a, Keeps (k a)) : Keeps (e >>= k) := by
  refine ⟨fun s h => ?_⟩
  have h1 := he.result_formed s h
  change ResultFormed (Except.bind (e s) fun r => k r.1 r.2)
  match e s, h1 with
  | .error (.fault _), _ => trivial
  | .error (.failed _ _), h2 => exact h2
  | .error (.wait _), h2 => exact h2
  | .ok (a, s1), h2 => exact (hk a).result_formed s1 h2

theorem keeps_theState_bind {k : State → Exec β} (hk : ∀ s, Formed s → Keeps (k s)) : Keeps (theState >>= k) :=
  ⟨fun s h => (hk s h).result_formed s h⟩

theorem keeps_theAgent_bind {k : Agent → Exec β} (hk : ∀ a, Keeps (k a)) : Keeps (theAgent >>= k) := ⟨fun s h => (hk s.cur).result_formed s h⟩

theorem keeps_self_bind {k : Strand → Exec β} (hk : ∀ t, Keeps (k t)) : Keeps (self >>= k) := ⟨fun s h => (hk (me s)).result_formed s h⟩

/-! ### Access -/

theorem keeps_raise (code sub kind : Nat) (addr : Word) (entry : Nat) : Keeps (raise code sub kind addr entry : Exec α) := ⟨fun _ _ => trivial⟩

/-- A check that raises a fault, and the work after it. -/
theorem keeps_guard {c : Prop} [Decidable c] {code sub kind : Nat} {addr : Word} {entry : Nat} {j : α → Exec β} {e : Exec β} (he : Keeps e) :
    Keeps (if c then raise code sub kind addr entry >>= j else e) := by
  split
  · exact ⟨fun _ _ => trivial⟩
  · exact he

theorem keeps_ite {c : Prop} [Decidable c] {e e' : Exec α} (he : Keeps e) (he' : Keeps e') : Keeps (if c then e else e') := by
  split <;> assumption

/-- A step that is taken on a condition, and the work after it. -/
theorem keeps_when {c : Prop} [Decidable c] {e : Exec Unit} {j : Unit → Exec β} (he : Keeps e) (hj : ∀ r, Keeps (j r)) :
    Keeps (if c then e >>= j else j ()) := by
  split
  · exact keeps_bind he hj
  · exact hj ()

theorem keeps_raised {c : Prop} [Decidable c] {code sub kind : Nat} {addr : Word} {entry : Nat} {e : Exec α} (he : Keeps e) :
    Keeps (if c then raise code sub kind addr entry else e) := by
  split
  · exact ⟨fun _ _ => trivial⟩
  · exact he

theorem keeps_stall : Keeps (stall : Exec α) := ⟨fun _ h => h⟩

theorem keeps_waitIn {s : State} (h : Formed s) : Keeps (waitIn s : Exec α) := ⟨fun _ _ => h⟩

theorem keeps_failIn (code sub kind : Nat) (va : Word) (entry : Nat) {s : State} (h : Formed s) :
    Keeps (failIn code sub kind va entry s : Exec α) := ⟨fun _ _ => h⟩

theorem keeps_update {f : State → State} (hf : ∀ s, Formed s → Formed (f s)) : Keeps (update f) := ⟨hf⟩

theorem keeps_setSelf (f : Strand → Strand) : Keeps (setSelf f) := ⟨fun _ h => formed_modMe h _⟩

theorem keeps_self : Keeps self := ⟨fun _ h => h⟩

theorem keeps_theAgent : Keeps theAgent := ⟨fun _ h => h⟩

theorem keeps_getX (r : BitVec 5) : Keeps (getX r) := ⟨fun _ h => h⟩

theorem keeps_setX (r : BitVec 5) (v : Word) : Keeps (setX r v) := keeps_setSelf _

theorem keeps_getV (r : BitVec 5) : Keeps (getV r) := ⟨fun _ h => h⟩

theorem keeps_setV (r : BitVec 5) (v : Vec) : Keeps (setV r v) := keeps_setSelf _

theorem keeps_getM (r : BitVec 3) : Keeps (getM r) := ⟨fun _ h => h⟩

theorem keeps_setM (r : BitVec 3) (v : Word) : Keeps (setM r v) := keeps_setSelf _

theorem keeps_served (kind : Nat) (addr : Word) {f : State → Served α} (hf : ∀ s, Formed s → Formed (servedState (f s))) :
    Keeps (served kind addr f) := by
  refine ⟨fun s h => ?_⟩
  have h1 := hf s h
  unfold served
  cases hfs : f s <;> simpa [ResultFormed, hfs] using h1

/-! ### Vector -/

theorem keeps_together {e : Exec α} (he : Keeps e) : Keeps (together e) := by
  refine ⟨fun s h => ?_⟩
  have h1 := he.result_formed s h
  unfold together
  split
  · exact h
  · exact h1

theorem keeps_foldlM {f : β → Nat → Exec β} (hf : ∀ b n, Keeps (f b n)) (l : List Nat) (b : β) : Keeps (l.foldlM f b) := by
  induction l generalizing b with
  | nil => exact keeps_pure b
  | cons n rest ih => exact keeps_bind (hf b n) fun _ => ih _

/-! ### LoadStore -/

theorem keeps_eachLane {f : Nat → Exec Unit} (hf : ∀ l, Keeps (f l)) (ls : List Nat) : Keeps (eachLane f ls) := by
  induction ls with
  | nil => exact keeps_pure ()
  | cons l rest ih => exact keeps_bind (hf l) fun _ => ih

end

/-! ### Access -/

theorem formed_migWait {s s1 : State} (h : Formed s) (a : Agent) (ea : Nat) (h1 : migWait s a ea = some s1) : Formed s1 := by
  grind [migWait, !formed_later, !formed_modAgent, !formed_nodeNote]

section

variable {α : Type}

theorem keeps_spanRights (kind need : Nat) (va : Word) (n : Nat) : Keeps (spanRights kind need va n) := by
  grind [spanRights, keeps_bind, keeps_theAgent_bind, keeps_served, keeps_raise, keeps_pure, !formed_plbLookup]

theorem keeps_windowForm (k : Kind) (va : Word) (n : Nat) : Keeps (windowForm k va n) := by
  grind [windowForm, keeps_raise, keeps_pure]

theorem keeps_canonical (kind : Nat) (va : Word) : Keeps (canonical kind va) := by
  grind [canonical, keeps_raise, keeps_pure]

theorem keeps_check (k : Kind) (va : Word) (n : Nat) : Keeps (check k va n) := by
  refine keeps_theAgent_bind fun a => keeps_theState_bind fun s h => keeps_bind (keeps_canonical ..) fun _ => keeps_guard (keeps_guard ?_)
  split
  · grind [keeps_pure, keeps_raise]
  · split
    · grind [keeps_bind, keeps_windowForm, keeps_pure, keeps_raise]
    · grind [keeps_bind, keeps_spanRights, keeps_theState_bind, keeps_pure, keeps_raise]

theorem keeps_leafOf (kind : Nat) (va : Word) : Keeps (leafOf kind va) := by
  refine keeps_theAgent_bind fun a => keeps_theState_bind fun s0 h0 => ?_
  dsimp only
  split
  · exact keeps_pure _
  · refine keeps_bind (keeps_served _ _ fun s h => formed_deepFind h _) fun found => ?_
    split
    · exact keeps_bind (keeps_update fun s h => formed_tlbInsert h ..) fun _ => keeps_pure _
    · refine keeps_theState_bind fun s h => ?_
      split
      · exact keeps_waitIn h
      · cases walk s va.toNat with
        | ok dev pa key size pte =>
          exact keeps_bind (keeps_update fun s h => formed_tlbInsert (formed_deepInsert (formed_walked h _) ..) ..) fun _ =>
            keeps_bind (keeps_setSelf _) fun _ => keeps_pure _
        | fault code sub e => exact keeps_failIn _ _ _ _ _ (formed_walked h _)
        | mig e ea =>
          simp only
          split
          · exact keeps_waitIn (formed_migWait h a ea ‹_›)
          · exact keeps_failIn _ _ _ _ _ h
        | bad g => exact keeps_failIn _ _ _ _ _ (formed_nodeFault h g)
        | busy g => exact keeps_served _ _ fun s h => formed_nodeWait h g

theorem keeps_translate (kind : Nat) (va : Word) : Keeps (translate kind va) := by
  grind [translate, keeps_bind, keeps_leafOf, keeps_theState_bind, keeps_raise, keeps_pure]

theorem keeps_noteRead (va : Word) (n : Nat) : Keeps (noteRead va n) := by
  grind [noteRead, keeps_update, !formed_recordRead]

theorem keeps_granule (kind : Nat) (va : Word) (acq : Bool) : Keeps (granule kind va acq) := by
  refine keeps_theAgent_bind fun a => keeps_bind (keeps_update fun s h => formed_l2Scrub h ..) fun _ => keeps_theState_bind fun s h => ?_
  dsimp only
  split
  · grind [keeps_pure, keeps_raise]
  · refine keeps_bind (keeps_translate ..) fun p => keeps_theState_bind fun s h => ?_
    grind [keeps_served, keeps_raise, keeps_stall, keeps_waitIn, !formed_clusterFill, !formed_awaitRemote]

theorem keeps_stashTouch (va : Word) (acq : Bool) : Keeps (stashTouch va acq) := by
  refine keeps_theAgent_bind fun a => keeps_theState_bind fun s h => ?_
  split
  · exact keeps_pure _
  · split
    · exact keeps_pure _
    · exact keeps_bind (keeps_spanRights ..) fun _ => keeps_bind (keeps_granule ..) fun _ => keeps_bind (keeps_granule ..) fun _ =>
        keeps_bind (keeps_noteRead ..) fun _ => keeps_update fun s h => formed_setFull (formed_modTile h _ _ ⟨pool_wf h _, acc_wf h _⟩) ..

theorem keeps_depotPlace (kind : Nat) (va : Word) : Keeps (depotPlace kind va) := by
  grind [depotPlace, keeps_bind, keeps_theAgent_bind, keeps_theState_bind, keeps_translate, keeps_pure]

theorem keeps_depotRemote (kind dev off : Nat) (va : Word) (acq : Bool) : Keeps (depotRemote kind dev off va acq) := by
  grind [depotRemote, keeps_theAgent_bind, keeps_self_bind, keeps_theState_bind, keeps_raise, keeps_stall, keeps_waitIn, keeps_pure,
    !formed_modAgent, !formed_awaitRemote]

theorem keeps_poolSound (kind : Nat) (va : Word) (tile off n : Nat) : Keeps (poolSound kind va tile off n) := by
  grind [poolSound, keeps_theState_bind, keeps_raise, keeps_pure]

theorem keeps_readTarget (k : Kind) (va : Word) (n : Nat) (t : Target) : Keeps (readTarget k va n t) := by
  refine keeps_theAgent_bind fun a => keeps_theState_bind fun s h => ?_
  cases t with
  | pool off => exact keeps_bind (keeps_poolSound ..) fun _ => keeps_pure _
  | ostler off => exact keeps_pure _
  | direct pa => exact keeps_bind (keeps_noteRead ..) fun _ => keeps_served _ _ fun s h => formed_tableRead h ..
  | peer bus =>
    dsimp only
    split
    · exact keeps_bind (keeps_noteRead ..) fun _ => keeps_pure _
    · have hbus : Formed { s with busOut := s.busOut ++ [.read (BitVec.ofNat 64 bus) n a] } := h
      exact keeps_waitIn (formed_modMe hbus _)
  | global rights =>
    refine keeps_bind (keeps_depotPlace ..) fun place => ?_
    split
    · grind [keeps_bind, keeps_windowForm, keeps_noteRead, keeps_theState_bind, keeps_pure, keeps_raise, keeps_depotRemote]
    · exact keeps_bind (keeps_stashTouch ..) fun _ => keeps_bind (keeps_granule ..) fun _ => keeps_bind (keeps_noteRead ..) fun _ => keeps_pure _

theorem keeps_loadBytes (k : Kind) (va : Word) (n : Nat) : Keeps (loadBytes k va n) := by
  grind [loadBytes, keeps_bind, keeps_check, keeps_readTarget]

theorem keeps_deferStore (kind code sub : Nat) (va : Word) (entry : Nat) : Keeps (deferStore kind code sub va entry) := by
  grind [deferStore, keeps_setSelf]

theorem keeps_writeTarget_directWrite (k : Kind) (va : Word) (bs : List Byte) (pa : Nat) : Keeps (writeTarget.directWrite k va bs pa) := by
  refine keeps_theState_bind fun s h => ?_
  have hw := formed_depotWrite h (pa / 64) 0 (granuleImage (pa % 64) bs) (maskAt (pa % 64) bs.length) 0
  split <;> simp only [*, servedState_ok, servedState_bad, servedState_busy] at hw
  · exact keeps_update fun _ _ => hw
  · exact keeps_bind (keeps_update fun _ _ => hw) fun _ => keeps_deferStore ..
  · exact keeps_waitIn hw

theorem keeps_writeTarget_storeHome (k : Kind) (va : Word) (bs : List Byte) (rel : Bool) (a : Agent) (tag : BitVec 32) (c vline dev pa : Nat)
    (key : BitVec 8) : Keeps (writeTarget.storeHome k va bs rel a tag c vline dev pa key) := by
  refine keeps_theState_bind fun s h => ?_
  split
  · have hw := formed_clusterOwn h c vline (pa / 64) key (decide (bs.length = 64)) tag
    split <;> simp only [*, servedState_ok, servedState_bad, servedState_busy] at hw
    · exact keeps_update fun _ _ => formed_apertureStart (formed_l2Write hw ..) ..
    · exact keeps_bind (keeps_update fun _ _ => hw) fun _ => keeps_deferStore ..
    · exact keeps_waitIn hw
  · grind [keeps_deferStore, keeps_stall, keeps_update, !formed_apertureStart, !formed_storeRemote]

theorem keeps_writeTarget (k : Kind) (va : Word) (bs : List Byte) (rel : Bool) (t : Target) : Keeps (writeTarget k va bs rel t) := by
  refine keeps_theAgent_bind fun a => keeps_theState_bind fun s h => ?_
  dsimp only
  cases t with
  | pool off => grind [keeps_raise, keeps_update, !formed_poolWrite]
  | ostler off => exact keeps_update fun s h => formed_soon h _
  | direct pa => exact keeps_writeTarget_directWrite ..
  | peer bus => exact keeps_update fun s h => h
  | global rights =>
    refine keeps_bind (keeps_depotPlace ..) fun place => ?_
    split
    · grind [keeps_bind, keeps_windowForm, keeps_theState_bind, keeps_raise, keeps_update, !formed_depotPut, keeps_writeTarget_storeHome]
    · refine keeps_bind (keeps_stashTouch ..) fun _ => keeps_bind (keeps_update fun s h => formed_l2Scrub h ..) fun _ =>
        keeps_theState_bind fun s h => ?_
      grind [keeps_bind, keeps_translate, keeps_update, !formed_apertureStart, !formed_l2Write, keeps_writeTarget_storeHome]

theorem keeps_storeBytes (k : Kind) (va : Word) (bs : List Byte) (rel : Bool) : Keeps (storeBytes k va bs rel) := by
  grind [storeBytes, keeps_bind, keeps_check, keeps_writeTarget]

theorem keeps_rmwLocal (k : Kind) (va : Word) (n : Nat) (t : Target) (f : Nat → Option Nat) (recorded : Bool) :
    Keeps (rmwLocal k va n t f recorded) := by
  refine keeps_theAgent_bind fun a => keeps_theState_bind fun s h => ?_
  cases t with
  | pool off => grind [keeps_bind, keeps_poolSound, keeps_update, keeps_pure, !formed_poolWrite]
  | direct pa => grind [keeps_bind, keeps_served, keeps_pure, !formed_tableRead, !formed_depotWrite]
  | _ =>
    refine keeps_bind (keeps_depotPlace ..) fun place => ?_
    split
    · exact keeps_raise ..
    · refine keeps_bind (keeps_stashTouch ..) fun _ => keeps_bind (keeps_update fun s h => formed_l2Scrub h ..) fun _ =>
        keeps_theState_bind fun s h => keeps_bind ?_ fun home => keeps_theState_bind fun s h => keeps_guard
          (keeps_bind (keeps_served _ _ fun s h => formed_clusterOwn h ..) fun _ => keeps_bind (keeps_granule ..) fun v => ?_)
      · grind [keeps_raise, keeps_pure, keeps_translate]
      · grind [keeps_bind, keeps_noteRead, keeps_update, keeps_pure, !formed_l2Write]

theorem keeps_homeOf (k : Kind) (va : Word) : Keeps (homeOf k va) := by
  grind [homeOf, keeps_theAgent_bind, keeps_theState_bind, keeps_translate, keeps_pure]

/-! ### Ops -/

theorem keeps_fetchBody (va : Word) : Keeps (fetchBody va) := by
  refine keeps_theAgent_bind fun a => keeps_theState_bind fun s h => keeps_guard (keeps_guard (keeps_guard (keeps_guard ?_)))
  split
  · grind [keeps_bind, keeps_spanRights, keeps_served, keeps_raise, !formed_tableRead]
  · grind [keeps_bind, keeps_spanRights, keeps_theState_bind, keeps_raise, keeps_depotPlace, keeps_granule, keeps_pure]

/-! ### Flags -/

theorem keeps_orFlags (fl : Nat) : Keeps (orFlags fl) := by
  grind [orFlags, keeps_update, !formed_setFlags]

/-! ### Operands -/

theorem keeps_raiseStream : Keeps (raiseStream : Exec α) := by
  grind [raiseStream, keeps_raise]

theorem keeps_streamWork (q : Nat) : Keeps (streamWork q) := by
  grind [streamWork, keeps_theAgent_bind, keeps_update, keeps_pure, !formed_later]

theorem keeps_streamRead (q : Nat) : Keeps (streamRead q) := by
  refine keeps_self_bind fun t => ?_
  dsimp only
  split
  · exact keeps_raiseStream
  · refine keeps_theAgent_bind fun a => keeps_theState_bind fun s h => ?_
    grind [keeps_bind, keeps_raiseStream, keeps_raise, keeps_stall, keeps_setSelf, keeps_streamWork, keeps_pure]

theorem keeps_streamReady (q : Nat) : Keeps (streamReady q) := by
  grind [streamReady, keeps_self_bind, keeps_raiseStream, keeps_theAgent_bind, keeps_theState_bind, keeps_stall, keeps_pure]

theorem keeps_streamWrite (q : Nat) (v : Vec) : Keeps (streamWrite q v) := by
  grind [streamWrite, keeps_bind, keeps_setSelf, keeps_streamWork]

theorem keeps_vsource (marked : Bool) (r : BitVec 5) : Keeps (vsource marked r) := by
  grind [vsource, keeps_streamRead, keeps_getV]

theorem keeps_vdest (marked : Bool) (r : BitVec 5) (f : Vec → Vec) : Keeps (vdest marked r f) := by
  grind [vdest, keeps_bind, keeps_streamReady, keeps_streamWrite, keeps_setSelf]

/-! ### Scalar -/

theorem keeps_jumpTo (target : Word) : Keeps (jumpTo target) := by
  grind [jumpTo, keeps_raise, keeps_pure]

/-! ### FloatOps -/

theorem keeps_putF (d : BitVec 5) (r : Nat × Nat) : Keeps (putF d r) := by
  grind [putF, keeps_bind, keeps_setX, keeps_orFlags]

/-! ### Vector -/

theorem keeps_putLanes (w : Nat) (marked : Bool) (d : BitVec 5) (mask : Word) (f : LaneOp) : Keeps (putLanes w marked d mask f) := by
  grind [putLanes, keeps_bind, keeps_vdest, keeps_orFlags]

theorem keeps_secondLanes (x : BitVec 1) (marked : Bool) (b : BitVec 5) (w : Nat) : Keeps (secondLanes x marked b w) := by
  grind [secondLanes, keeps_bind, keeps_getX, keeps_vsource, keeps_pure]

/-! ### LoadStore -/

theorem keeps_loadInto (k : Kind) (d : BitVec 5) (w : BitVec 3) (va : Word) : Keeps (loadInto k d w va) := by
  grind [loadInto, keeps_bind, keeps_loadBytes, keeps_setX]

theorem keeps_laneCheck (k : Kind) (n : Nat) (va : Word) : Keeps (laneCheck k n va) := by
  grind [laneCheck, keeps_bind, keeps_check, keeps_depotPlace, keeps_raise, keeps_pure]

theorem keeps_gatherLanes (n : Nat) (addr : Nat → Word) (ls : List Nat) : Keeps (gatherLanes n addr ls) := by
  induction ls with
  | nil => exact keeps_pure _
  | cons l rest ih => exact keeps_bind (keeps_loadBytes ..) fun _ => keeps_bind ih fun _ => keeps_pure _

theorem keeps_prepareLane (n : Nat) (va : Word) : Keeps (prepareLane n va) := by
  refine keeps_theAgent_bind fun a => keeps_bind (keeps_laneCheck ..) fun t => ?_
  cases t with
  | global rights =>
    refine keeps_bind (keeps_stashTouch ..) fun _ => keeps_bind (keeps_homeOf ..) fun home => keeps_theState_bind fun s h => ?_
    have hw := formed_clusterOwn h (agentCluster a) (va.toNat / 64) (home.2.1 / 64) home.2.2 false (actRun (me s).act)
    split
    · split <;> simp only [*, servedState_ok, servedState_bad, servedState_busy] at hw
      · exact keeps_update fun _ _ => hw
      · exact keeps_pure _
      · exact keeps_waitIn hw
    · grind [keeps_stall, keeps_pure]
  | _ => exact keeps_pure _

theorem keeps_farAway (n : Nat) (va : Word) : Keeps (farAway n va) := by
  grind [farAway, keeps_bind, keeps_check, keeps_homeOf, keeps_theState_bind, keeps_pure]

theorem keeps_scatterLane (v : Vec) (w : Nat) (addr : Nat → Word) (ls : List Nat) (l : Nat) : Keeps (scatterLane v w addr ls l) := by
  grind [scatterLane, keeps_bind, keeps_storeBytes, keeps_farAway, keeps_pure]

theorem keeps_gather (d : BitVec 5) (w : Nat) (mask : Word) (addr : Nat → Word) : Keeps (gather d w mask addr) := by
  grind [gather, keeps_bind, keeps_eachLane, keeps_laneCheck, keeps_gatherLanes, keeps_setSelf, keeps_pure]

theorem keeps_scatter (v : Vec) (w : Nat) (mask : Word) (addr : Nat → Word) : Keeps (scatter v w mask addr) := by
  grind [scatter, keeps_bind, keeps_eachLane, keeps_prepareLane, keeps_scatterLane]

theorem keeps_waitAcks : Keeps (waitAcks) := by
  grind [waitAcks, keeps_self_bind, keeps_stall, keeps_pure]

theorem keeps_amoRemote (dev pa : Nat) (key : BitVec 8) (va : Word) (op n b c : Nat) (rel acq : Bool)
    : Keeps (amoRemote dev pa key va op n b c rel acq) := by
  grind [amoRemote, keeps_bind, keeps_theAgent_bind, keeps_self_bind, keeps_theState_bind, keeps_noteRead, keeps_raise, keeps_stall, keeps_waitIn,
    keeps_pure, !formed_modAgent, !formed_awaitRemote, !formed_forgetFar]

theorem keeps_noFullBit (kind : Nat) (va : Word) : Keeps (noFullBit kind va : Exec α) := by
  grind [noFullBit, keeps_bind, keeps_depotPlace, keeps_raise]

theorem keeps_flagLine (va : Word) : Keeps (flagLine va) := by
  grind [flagLine, keeps_bind, keeps_theAgent_bind, keeps_theState_bind, keeps_canonical, keeps_raise, keeps_noFullBit, keeps_pure]

/-! ### SyncOps -/

theorem keeps_barCheck (va : Word) : Keeps (barCheck va) := by
  grind [barCheck, keeps_bind, keeps_theAgent_bind, keeps_theState_bind, keeps_canonical, keeps_raise, keeps_pure]

theorem keeps_namedBarrier (va : Word) : Keeps (namedBarrier va) := by
  grind [namedBarrier, keeps_barCheck, keeps_pure]

theorem keeps_barSound (va : Word) (tile : Nat) : Keeps (barSound va tile) := by
  grind [barSound, keeps_poolSound]

theorem keeps_illegalOperand : Keeps (illegalOperand : Exec α) := by
  grind [illegalOperand, keeps_raise]

theorem keeps_barHere (va : Word) (u : BarUpdate) : Keeps (barHere va u) := by
  grind [barHere, keeps_theAgent_bind, keeps_update, !formed_barUpdate]

theorem keeps_stashRange (va len : Word) : Keeps (stashRange va len) := by
  refine keeps_theAgent_bind fun a => keeps_theState_bind fun s h => keeps_bind (keeps_canonical ..) fun _ => keeps_guard
    (keeps_bind (keeps_canonical ..) fun _ => keeps_guard (keeps_guard (keeps_guard (keeps_bind (keeps_spanRights ..) fun _ =>
      keeps_bind (keeps_served _ _ fun s h => formed_depotInSpan h ..) fun b => ?_))))
  grind [keeps_raise, keeps_pure]

theorem keeps_carriageCheck (va : Word) : Keeps (carriageCheck va) := by
  refine keeps_theAgent_bind fun a => keeps_bind (keeps_check ..) fun t => keeps_theState_bind fun s h => ?_
  cases t with
  | global rights => grind [keeps_bind, keeps_depotPlace, keeps_raise, keeps_pure]
  | _ => exact keeps_raise ..

theorem keeps_flagLoad (va : Word) : Keeps (flagLoad va) := by
  grind [flagLoad, keeps_bind, keeps_homeOf, keeps_theState_bind, keeps_stashTouch, keeps_granule, keeps_raise, keeps_pure]

theorem keeps_flagUpdate (va : Word) (target : Target) (f : Nat → Option Nat) : Keeps (flagUpdate va target f) := by
  grind [flagUpdate, keeps_bind, keeps_flagLoad, keeps_rmwLocal, keeps_pure]

/-! ### Engine -/

theorem keeps_spanFor (core : Nat) (ctx : BitVec 32) (ostler : Bool) (kind need : Nat) (spill : Bool) (va n : Nat) :
    Keeps (spanFor core ctx ostler kind need spill va n) := by
  refine keeps_theState_bind fun s h => keeps_guard ?_
  split
  · grind [keeps_raise, keeps_pure]
  · refine keeps_raised (keeps_raised (keeps_bind (keeps_served _ _ fun s h => formed_plbLookup h ..) fun g => ?_))
    grind [keeps_bind, keeps_served, keeps_raise, keeps_pure, !formed_depotInSpan]

theorem keeps_engineSpan (kind need : Nat) (spill : Bool) (va : Word) (n : Nat) : Keeps (engineSpan kind need spill va n) := by
  grind [engineSpan, keeps_bind, keeps_theAgent_bind, keeps_theState_bind, keeps_spanFor, keeps_waitAcks, keeps_pure]

/-! ### Matrix -/

theorem keeps_enqueue (op : MatrixOp) (bar : Word) : Keeps (enqueue op bar) := by
  grind [enqueue, keeps_theAgent_bind, keeps_theState_bind, keeps_illegalOperand, keeps_stall, keeps_update, !formed_joinQueue]

theorem keeps_panelCheck (p : Nat) : Keeps (panelCheck p) := by
  grind [panelCheck, keeps_theAgent_bind, keeps_theState_bind, keeps_raise, keeps_pure]

theorem keeps_boundName (n : Nat) (kind : Option Bool) : Keeps (boundName n kind) := by
  grind [boundName, keeps_self_bind, keeps_raise, keeps_pure]

theorem keeps_groupCheck (n : AccName) (g : Word) : Keeps (groupCheck n g) := by
  grind [groupCheck, keeps_illegalOperand, keeps_pure]

/-! ### Dray -/

theorem keeps_spanWindow (core : Nat) (kind va n : Nat) : Keeps (spanWindow core kind va n) := by
  grind [spanWindow, keeps_theState_bind, keeps_raise, keeps_pure]

theorem keeps_spanCanonical (kind va n : Nat) : Keeps (spanCanonical kind va n) := by
  grind [spanCanonical, keeps_bind, keeps_canonical]

theorem keeps_barrierFor (core : Nat) (va : Word) : Keeps (barrierFor core va) := by
  grind [barrierFor, keeps_theState_bind, keeps_raise, keeps_pure]

theorem keeps_goCopy (core : Nat) (strand : Option Nat) (run ctx : BitVec 32) (ostler : Bool) (slot : Nat) (xa xb : Word) :
    Keeps (goCopy core strand run ctx ostler slot xa xb) := by
  refine keeps_theState_bind fun s h => keeps_when (keeps_poolSound ..) fun _ => ?_
  split
  · exact keeps_illegalOperand
  · exact keeps_when keeps_illegalOperand fun _ => keeps_when keeps_illegalOperand fun _ => keeps_when keeps_illegalOperand fun _ =>
      keeps_bind (keeps_eachLane (fun _ => keeps_spanCanonical ..) _) fun _ => keeps_bind (keeps_spanCanonical ..) fun _ => keeps_guard
        (keeps_guard (keeps_bind (keeps_eachLane (fun _ => keeps_spanWindow ..) _) fun _ => keeps_bind (keeps_spanWindow ..) fun _ =>
          keeps_bind (keeps_eachLane (fun _ => keeps_spanFor ..) _) fun _ => keeps_bind (keeps_spanFor ..) fun _ =>
            keeps_bind (keeps_barrierFor ..) fun _ => keeps_pure _))

/-! ### Streams -/

theorem keeps_unbindStream (q : Nat) : Keeps (unbindStream q) := by
  grind [unbindStream, keeps_theAgent_bind, keeps_self_bind, keeps_stall, keeps_update, keeps_pure, !formed_unbound]

/-! ### System -/

theorem keeps_mailboxCheck (va : Word) : Keeps (mailboxCheck va) := by
  grind [mailboxCheck, keeps_bind, keeps_check, keeps_depotPlace, keeps_raise, keeps_pure]

theorem keeps_mailboxWord (va : Word) : Keeps (mailboxWord va) := by
  grind [mailboxWord, keeps_bind, keeps_granule, keeps_pure]

theorem keeps_mailboxSwap (va : Word) (t : Target) (old new : Nat) : Keeps (mailboxSwap va t old new) := by
  grind [mailboxSwap, keeps_bind, keeps_homeOf, keeps_theState_bind, keeps_rmwLocal, keeps_self_bind, keeps_amoRemote, keeps_setSelf, keeps_pure]

theorem keeps_busySlot (va : Word) : Keeps (busySlot va) := by
  refine keeps_bind (keeps_canonical ..) fun _ => keeps_guard (keeps_bind (keeps_mailboxCheck ..) fun _ =>
    keeps_bind (keeps_mailboxWord ..) fun busy =>
    keeps_guard (keeps_bind (keeps_granule ..) fun m => keeps_pure _))

theorem keeps_csrStore (n v : Nat) : Keeps (csrStore n v) := by
  refine keeps_theAgent_bind fun a => keeps_theState_bind fun s h => ?_
  dsimp only
  have htile (f : Tile → Tile) (hf : ∀ t, (f t).pool = t.pool ∧ (f t).acc = t.acc) : Keeps (update fun s => modTile s (agentTile a) f) :=
    keeps_update fun s h => formed_modTile h _ _ (by simp [hf, h])
  refine keeps_ite (keeps_raise ..) (keeps_ite (keeps_ite (keeps_raise ..) (keeps_setSelf _))
    (keeps_ite (keeps_ite keeps_illegalOperand (keeps_setSelf _)) (keeps_ite (keeps_setSelf _)
      (keeps_ite (htile _ fun t => ⟨rfl, rfl⟩) (keeps_ite (htile _ fun t => ⟨rfl, rfl⟩) (keeps_ite (htile _ fun t => ⟨rfl, rfl⟩)
        (keeps_ite (keeps_update fun s h => formed_modCtx h ..) (keeps_raise ..))))))))

theorem keeps_slotChecked (v : Word) : Keeps (slotChecked v) := by
  grind [slotChecked, keeps_theAgent_bind, keeps_theState_bind, keeps_illegalOperand, keeps_pure]

theorem keeps_readRecord (va : Word) : Keeps (readRecord va) := by
  refine keeps_theAgent_bind fun a => keeps_theState_bind fun s h => keeps_guard (keeps_guard (keeps_guard (keeps_guard (keeps_guard
    (keeps_bind (keeps_spanRights ..) fun _ => keeps_bind (keeps_depotPlace ..) fun _ => keeps_guard (keeps_bind keeps_waitAcks fun _ =>
      keeps_foldlM (fun acc k => keeps_bind (keeps_granule ..) fun _ => keeps_pure _) _ _))))))

/-! ### FeltOps -/

theorem keeps_feltNamed (k : BitVec 3) : Keeps (feltNamed k) := by
  grind [feltNamed, keeps_theAgent_bind, keeps_theState_bind, keeps_raise, keeps_pure]

theorem keeps_feltIssue (g : Nat) (op : FeltOp) (bar : Word) : Keeps (feltIssue g op bar) := by
  grind [feltIssue, keeps_bind, keeps_theAgent_bind, keeps_self_bind, keeps_theState_bind, keeps_update, keeps_stall, keeps_waitAcks,
    !formed_feltNext, !formed_modArray]

theorem keeps_feltTableAt (va : Word) (n : Nat) : Keeps (feltTableAt va n) := by
  grind [feltTableAt, keeps_bind, keeps_theAgent_bind, keeps_theState_bind, keeps_canonical, keeps_raise, keeps_served, keeps_pure,
    !formed_depotInSpan]

end

end Sys2Proof.Machine
end

section
/-!
PROOFS. Instructions and events that keep the form of the memories (O59): an instruction by its execution (`formed_issueTo`,
`formed_issueState`), an event by the operations that it is made of.
-/
namespace Sys2Proof.Machine

/-- A step whose next state, if it has one, is formed. -/
structure OutFormed (o : Out) : Prop where
  next_formed : ∀ t, o = .next t → Formed t

theorem outFormed_next {t : State} (h : Formed t) : OutFormed (.next t) := ⟨fun _ ht => Host.Outcome.next.inj ht ▸ h⟩

theorem outFormed_event {t : State} (h : Formed t) : OutFormed (event t) := outFormed_next h

/-- An execution that leaves every memory's form and gives a formed state. -/
structure Yields (e : Exec State) : Prop where
  result_formed : ∀ s, Formed s → ResultFormed (e s)
  value_formed : ∀ s, Formed s → ∀ t s1, e s = .ok (t, s1) → Formed t

section

variable {α β : Type} {s : State}

theorem exec_pure_ok {a b : α} {s s1 : State} (h : (pure a : Exec α) s = .ok (b, s1)) : a = b :=
  congrArg Prod.fst (Except.ok.inj h)

theorem yields_pure {t : State} (ht : Formed t) : Yields (pure t) :=
  ⟨(keeps_pure t).result_formed, fun _ _ _ _ he => exec_pure_ok he ▸ ht⟩

theorem exec_bind_value {e : Exec α} {k : α → Exec β} {s s2 : State} {b : β} (h : (e >>= k) s = .ok (b, s2)) :
    ∃ a s1, e s = .ok (a, s1) ∧ k a s1 = .ok (b, s2) := by
  cases he : e s with
  | ok p => exact ⟨p.1, p.2, rfl, (exec_bind_ok he).symm.trans h⟩
  | error x => exact absurd ((exec_bind_error he).symm.trans h) nofun

theorem yields_bind {e : Exec α} {k : α → Exec State} (he : Keeps e) (hk : ∀ a, Yields (k a)) : Yields (e >>= k) where
  result_formed := (keeps_bind he fun a => ⟨(hk a).result_formed⟩).result_formed
  value_formed s h t s1 hs := by
    obtain ⟨a, s2, ha, hb⟩ := exec_bind_value hs
    have h2 := he.result_formed s h
    rw [ha] at h2
    exact (hk a).value_formed s2 h2 t s1 hb

theorem yields_theState_bind {k : State → Exec State} (hk : ∀ s, Formed s → Yields (k s)) : Yields (theState >>= k) where
  result_formed s h := (hk s h).result_formed s h
  value_formed s h := (hk s h).value_formed s h

theorem yields_raise (code sub kind : Nat) (addr : Word) (entry : Nat) : Yields (raise code sub kind addr entry) :=
  ⟨fun _ _ => trivial, fun _ _ _ _ hs => nomatch hs⟩

theorem yields_when {c : Prop} [Decidable c] {e : Exec Unit} {j : Unit → Exec State} (he : Keeps e) (hj : ∀ r, Yields (j r)) :
    Yields (if c then e >>= j else j ()) := by
  split
  · exact yields_bind he hj
  · exact hj ()

theorem yields_guard {c : Prop} [Decidable c] {code sub kind : Nat} {addr : Word} {entry : Nat} {j : α → Exec State} {e : Exec State}
    (he : Yields e) : Yields (if c then raise code sub kind addr entry >>= j else e) := by
  split
  · exact ⟨fun _ _ => trivial, fun _ _ _ _ hs => nomatch hs⟩
  · exact he

/-- An update of a tile that leaves its memories. -/
theorem formed_modTile_frame (h : Formed s) (k : Nat) {f : Tile → Tile} (hp : (f (getTile s k)).pool = (getTile s k).pool)
    (ha : (f (getTile s k)).acc = (getTile s k).acc) : Formed (modTile s k f) :=
  formed_modTile h k f (by simp [hp, ha, h])

/-! ### Ops -/

theorem formed_issueTo (h : Formed s) (form : Strand → Form) {body : Exec Word} (hb : Keeps body) : OutFormed (issueTo form body s) := by
  unfold issueTo
  split
  · exact outFormed_next (formed_takeFault h _)
  · have hr := hb.result_formed _ (formed_modMe h fun t => { t with status := .ready })
    split <;> simp only [*, ResultFormed] at hr
    · exact outFormed_next (formed_retire hr _)
    · exact outFormed_next (formed_takeFault h _)
    · exact outFormed_next (formed_takeFault (formed_rolledBack _ hr) _)
    · exact outFormed_next (formed_waiting hr)

theorem formed_issue (h : Formed s) (form : Strand → Form) {body : Exec Unit} (hb : Keeps body) : OutFormed (issue form body s) :=
  formed_issueTo h form (keeps_bind hb fun _ => keeps_self_bind fun _ => keeps_pure _)

theorem formed_issueState (h : Formed s) (form : Strand → Form) {body : Exec State} (hb : Yields body) : OutFormed (issueState form body s) := by
  unfold issueState
  split
  · exact outFormed_next (formed_takeFault h _)
  · have hs := formed_modMe h fun t => { t with status := .ready }
    have hr := hb.result_formed _ hs
    have hv := hb.value_formed _ hs
    split <;> simp only [*, ResultFormed] at hr
    · exact outFormed_next (formed_tick (hv _ _ ‹_›))
    · exact outFormed_next (formed_takeFault h _)
    · exact outFormed_next (formed_takeFault (formed_rolledBack _ hr) _)
    · exact outFormed_next (formed_waiting hr)

end

section

variable {s : State}

/-! ### Scalar -/

theorem formed_binary (h : Formed s) (d a b : BitVec 5) (f : Word → Word → Word) : OutFormed (binary d a b f s) := by
  grind [binary, formed_issue, keeps_getX, keeps_setX, keeps_bind]

theorem formed_unary (h : Formed s) (d a : BitVec 5) (f : Word → Word) : OutFormed (unary d a f s) := by
  grind [unary, formed_issue, keeps_getX, keeps_setX, keeps_bind]

theorem formed_immediate (h : Formed s) (d a : BitVec 5) (i : BitVec 16) (f : Word → Word → Word) : OutFormed (immediate d a i f s) := by
  grind [immediate, formed_issue, keeps_self_bind, keeps_getX, keeps_setX, keeps_bind]

theorem formed_shiftImm (h : Formed s) (d a : BitVec 5) (w : BitVec 1) (sh : BitVec 6) (f : Word → Word → Word)
    : OutFormed (shiftImm d a w sh f s) := by
  grind [shiftImm, formed_issue, keeps_getX, keeps_setX, keeps_bind]

theorem formed_execSlti (h : Formed s) (d a : BitVec 5) (i : BitVec 16) : OutFormed (execSlti d a i s) := by
  exact formed_immediate h ..

theorem formed_execSltiu (h : Formed s) (d a : BitVec 5) (i : BitVec 16) : OutFormed (execSltiu d a i s) := by
  exact formed_immediate h ..

theorem formed_execLui (h : Formed s) (d : BitVec 5) (i : BitVec 21) : OutFormed (execLui d i s) := by
  grind [execLui, formed_issue, keeps_self_bind, keeps_setX]

theorem formed_execAuipc (h : Formed s) (d : BitVec 5) (i : BitVec 21) : OutFormed (execAuipc d i s) := by
  grind [execAuipc, formed_issue, keeps_self_bind, keeps_setX]

theorem formed_branch (h : Formed s) (a b : BitVec 5) (o : BitVec 13) (taken : Word → Word → Bool) : OutFormed (branch a b o taken s) := by
  grind [branch, formed_issueTo, keeps_self_bind, keeps_getX, keeps_jumpTo, keeps_bind, keeps_pure]

theorem formed_branchMask (h : Formed s) (a : BitVec 5) (o : BitVec 13) (any : Bool) : OutFormed (branchMask a o any s) := by
  grind [branchMask, formed_issueTo, keeps_self_bind, keeps_getM, keeps_jumpTo, keeps_bind, keeps_pure]

theorem formed_execJal (h : Formed s) (d : BitVec 5) (i : BitVec 21) : OutFormed (execJal d i s) := by
  grind [execJal, formed_issueTo, keeps_self_bind, keeps_jumpTo, keeps_setX, keeps_bind, keeps_pure]

theorem formed_execJalr (h : Formed s) (d a : BitVec 5) (i : BitVec 16) : OutFormed (execJalr d a i s) := by
  grind [execJalr, formed_issueTo, keeps_self_bind, keeps_getX, keeps_jumpTo, keeps_setX, keeps_bind, keeps_pure]

/-! ### FloatOps -/

theorem formed_fbinary (h : Formed s) (frm : Bool) (d a b : BitVec 5) (p : BitVec 1) (f : Fmt → Nat → Nat → Nat → Nat × Nat)
    : OutFormed (fbinary frm d a b p f s) := by
  grind [fbinary, formed_issue, keeps_self_bind, keeps_getX, keeps_putF, keeps_bind]

theorem formed_fternary (h : Formed s) (d a b c : BitVec 5) (p : BitVec 1) (np nc : Bool) : OutFormed (fternary d a b c p np nc s) := by
  grind [fternary, formed_issue, keeps_self_bind, keeps_getX, keeps_putF, keeps_bind]

theorem formed_execFmin (h : Formed s) (d a b : BitVec 5) (p : BitVec 1) : OutFormed (execFmin d a b p s) := by
  exact formed_fbinary h ..

theorem formed_execFmax (h : Formed s) (d a b : BitVec 5) (p : BitVec 1) : OutFormed (execFmax d a b p s) := by
  exact formed_fbinary h ..

theorem formed_execFsgnj (h : Formed s) (d a b : BitVec 5) (p : BitVec 1) : OutFormed (execFsgnj d a b p s) := by
  exact formed_fbinary h ..

theorem formed_execFsgnjn (h : Formed s) (d a b : BitVec 5) (p : BitVec 1) : OutFormed (execFsgnjn d a b p s) := by
  exact formed_fbinary h ..

theorem formed_execFsgnjx (h : Formed s) (d a b : BitVec 5) (p : BitVec 1) : OutFormed (execFsgnjx d a b p s) := by
  exact formed_fbinary h ..

theorem formed_execFsqrt (h : Formed s) (d a : BitVec 5) (p : BitVec 1) : OutFormed (execFsqrt d a p s) := by
  grind [execFsqrt, formed_issue, keeps_self_bind, keeps_getX, keeps_putF, keeps_bind]

theorem formed_execFcvt (h : Formed s) (d a : BitVec 5) (t k : BitVec 4) : OutFormed (execFcvt d a t k s) := by
  grind [execFcvt, formed_issue, keeps_self_bind, keeps_getX, keeps_setX, keeps_orFlags, keeps_bind]

theorem formed_execFclass (h : Formed s) (d a : BitVec 5) (k : BitVec 4) : OutFormed (execFclass d a k s) := by
  grind [execFclass, formed_issue, keeps_getX, keeps_setX, keeps_bind, keeps_pure]

/-! ### Vector -/

theorem formed_vlaneOp (h : Formed s) (frm : Bool) (w : Nat) (d a b : BitVec 5) (m : BitVec 3) (x : BitVec 1) (f : Nat → Nat → Nat → Nat × Nat)
    : OutFormed (vlaneOp frm w d a b m x f s) := by
  grind [vlaneOp, formed_issue, keeps_together, keeps_self_bind, keeps_vsource, keeps_secondLanes, keeps_getM, keeps_putLanes, keeps_bind]

theorem formed_vintOp (h : Formed s) (d a b : BitVec 5) (m : BitVec 3) (e : BitVec 2) (x : BitVec 1) (f : Nat → Nat → Nat → Int → Int → Int)
    : OutFormed (vintOp d a b m e x f s) := by
  unfold vintOp
  exact formed_vlaneOp h ..

theorem formed_vsatOp (h : Formed s) (d a b : BitVec 5) (m : BitVec 3) (e : BitVec 2) (x : BitVec 1) (signed : Bool) (f : Int → Int → Int)
    : OutFormed (vsatOp d a b m e x signed f s) := by
  unfold vsatOp
  exact formed_vlaneOp h ..

theorem formed_vfloatOp (h : Formed s) (frm : Bool) (d a b : BitVec 5) (m : BitVec 3) (e : BitVec 2) (x : BitVec 1)
    (f : Fmt → Nat → Nat → Nat → Nat × Nat) : OutFormed (vfloatOp frm d a b m e x f s) := by
  exact formed_vlaneOp h ..

theorem formed_execVadd (h : Formed s) (d a b : BitVec 5) (m : BitVec 3) (e : BitVec 2) (x : BitVec 1) : OutFormed (execVadd d a b m e x s) := by
  exact formed_vintOp h ..

theorem formed_execVsub (h : Formed s) (d a b : BitVec 5) (m : BitVec 3) (e : BitVec 2) (x : BitVec 1) : OutFormed (execVsub d a b m e x s) := by
  exact formed_vintOp h ..

theorem formed_execVand (h : Formed s) (d a b : BitVec 5) (m : BitVec 3) (e : BitVec 2) (x : BitVec 1) : OutFormed (execVand d a b m e x s) := by
  exact formed_vintOp h ..

theorem formed_execVor (h : Formed s) (d a b : BitVec 5) (m : BitVec 3) (e : BitVec 2) (x : BitVec 1) : OutFormed (execVor d a b m e x s) := by
  exact formed_vintOp h ..

theorem formed_execVxor (h : Formed s) (d a b : BitVec 5) (m : BitVec 3) (e : BitVec 2) (x : BitVec 1) : OutFormed (execVxor d a b m e x s) := by
  exact formed_vintOp h ..

theorem formed_execVandn (h : Formed s) (d a b : BitVec 5) (m : BitVec 3) (e : BitVec 2) (x : BitVec 1) : OutFormed (execVandn d a b m e x s) := by
  exact formed_vintOp h ..

theorem formed_execVsll (h : Formed s) (d a b : BitVec 5) (m : BitVec 3) (e : BitVec 2) (x : BitVec 1) : OutFormed (execVsll d a b m e x s) := by
  exact formed_vintOp h ..

theorem formed_execVsrl (h : Formed s) (d a b : BitVec 5) (m : BitVec 3) (e : BitVec 2) (x : BitVec 1) : OutFormed (execVsrl d a b m e x s) := by
  exact formed_vintOp h ..

theorem formed_execVsra (h : Formed s) (d a b : BitVec 5) (m : BitVec 3) (e : BitVec 2) (x : BitVec 1) : OutFormed (execVsra d a b m e x s) := by
  exact formed_vintOp h ..

theorem formed_execVmin (h : Formed s) (d a b : BitVec 5) (m : BitVec 3) (e : BitVec 2) (x : BitVec 1) : OutFormed (execVmin d a b m e x s) := by
  exact formed_vintOp h ..

theorem formed_execVmax (h : Formed s) (d a b : BitVec 5) (m : BitVec 3) (e : BitVec 2) (x : BitVec 1) : OutFormed (execVmax d a b m e x s) := by
  exact formed_vintOp h ..

theorem formed_execVminu (h : Formed s) (d a b : BitVec 5) (m : BitVec 3) (e : BitVec 2) (x : BitVec 1) : OutFormed (execVminu d a b m e x s) := by
  exact formed_vintOp h ..

end

section

variable {s : State}

theorem formed_execVmaxu (h : Formed s) (d a b : BitVec 5) (m : BitVec 3) (e : BitVec 2) (x : BitVec 1) : OutFormed (execVmaxu d a b m e x s) := by
  exact formed_vintOp h ..

theorem formed_execVmul (h : Formed s) (d a b : BitVec 5) (m : BitVec 3) (e : BitVec 2) (x : BitVec 1) : OutFormed (execVmul d a b m e x s) := by
  exact formed_vintOp h ..

theorem formed_execVmulh (h : Formed s) (d a b : BitVec 5) (m : BitVec 3) (e : BitVec 2) (x : BitVec 1) : OutFormed (execVmulh d a b m e x s) := by
  exact formed_vintOp h ..

theorem formed_execVmulhu (h : Formed s) (d a b : BitVec 5) (m : BitVec 3) (e : BitVec 2) (x : BitVec 1) : OutFormed (execVmulhu d a b m e x s) := by
  exact formed_vintOp h ..

theorem formed_execVsadd (h : Formed s) (d a b : BitVec 5) (m : BitVec 3) (e : BitVec 2) (x : BitVec 1) : OutFormed (execVsadd d a b m e x s) := by
  exact formed_vsatOp h ..

theorem formed_execVsaddu (h : Formed s) (d a b : BitVec 5) (m : BitVec 3) (e : BitVec 2) (x : BitVec 1) : OutFormed (execVsaddu d a b m e x s) := by
  exact formed_vsatOp h ..

theorem formed_execVssub (h : Formed s) (d a b : BitVec 5) (m : BitVec 3) (e : BitVec 2) (x : BitVec 1) : OutFormed (execVssub d a b m e x s) := by
  exact formed_vsatOp h ..

theorem formed_execVssubu (h : Formed s) (d a b : BitVec 5) (m : BitVec 3) (e : BitVec 2) (x : BitVec 1) : OutFormed (execVssubu d a b m e x s) := by
  exact formed_vsatOp h ..

theorem formed_execVfadd (h : Formed s) (d a b : BitVec 5) (m : BitVec 3) (e : BitVec 2) (x : BitVec 1) : OutFormed (execVfadd d a b m e x s) := by
  exact formed_vfloatOp h ..

theorem formed_execVfsub (h : Formed s) (d a b : BitVec 5) (m : BitVec 3) (e : BitVec 2) (x : BitVec 1) : OutFormed (execVfsub d a b m e x s) := by
  exact formed_vfloatOp h ..

theorem formed_execVfmul (h : Formed s) (d a b : BitVec 5) (m : BitVec 3) (e : BitVec 2) (x : BitVec 1) : OutFormed (execVfmul d a b m e x s) := by
  exact formed_vfloatOp h ..

theorem formed_execVfdiv (h : Formed s) (d a b : BitVec 5) (m : BitVec 3) (e : BitVec 2) (x : BitVec 1) : OutFormed (execVfdiv d a b m e x s) := by
  exact formed_vfloatOp h ..

theorem formed_execVfmin (h : Formed s) (d a b : BitVec 5) (m : BitVec 3) (e : BitVec 2) (x : BitVec 1) : OutFormed (execVfmin d a b m e x s) := by
  exact formed_vfloatOp h ..

theorem formed_execVfmax (h : Formed s) (d a b : BitVec 5) (m : BitVec 3) (e : BitVec 2) (x : BitVec 1) : OutFormed (execVfmax d a b m e x s) := by
  exact formed_vfloatOp h ..

theorem formed_execVfsgnj (h : Formed s) (d a b : BitVec 5) (m : BitVec 3) (e : BitVec 2) (x : BitVec 1) : OutFormed (execVfsgnj d a b m e x s) := by
  exact formed_vfloatOp h ..

theorem formed_execVfsgnjn (h : Formed s) (d a b : BitVec 5) (m : BitVec 3) (e : BitVec 2) (x : BitVec 1) : OutFormed (execVfsgnjn d a b m e x s) :=
    by
  exact formed_vfloatOp h ..

theorem formed_execVfsgnjx (h : Formed s) (d a b : BitVec 5) (m : BitVec 3) (e : BitVec 2) (x : BitVec 1) : OutFormed (execVfsgnjx d a b m e x s) :=
    by
  exact formed_vfloatOp h ..

theorem formed_vunary (h : Formed s) (frm reserved : Bool) (w : Nat) (d a : BitVec 5) (m : BitVec 3) (f : Nat → Vec → LaneOp)
    : OutFormed (vunary frm reserved w d a m f s) := by
  grind [vunary, formed_issue, keeps_together, keeps_self_bind, keeps_vsource, keeps_getM, keeps_putLanes, keeps_bind]

theorem formed_execVfsqrt (h : Formed s) (d a : BitVec 5) (m : BitVec 3) (e : BitVec 2) : OutFormed (execVfsqrt d a m e s) := by
  exact formed_vunary h ..

theorem formed_vfma (h : Formed s) (d a b c : BitVec 5) (m : BitVec 3) (f : BitVec 2) (np nc : Bool) : OutFormed (vfma d a b c m f np nc s) := by
  grind [vfma, formed_issue, keeps_together, keeps_self_bind, keeps_vsource, keeps_getM, keeps_putLanes, keeps_bind]

theorem formed_execVfmadd (h : Formed s) (d a b c : BitVec 5) (m : BitVec 3) (f : BitVec 2) : OutFormed (execVfmadd d a b c m f s) := by
  exact formed_vfma h ..

theorem formed_execVfmsub (h : Formed s) (d a b c : BitVec 5) (m : BitVec 3) (f : BitVec 2) : OutFormed (execVfmsub d a b c m f s) := by
  exact formed_vfma h ..

theorem formed_execVfnmadd (h : Formed s) (d a b c : BitVec 5) (m : BitVec 3) (f : BitVec 2) : OutFormed (execVfnmadd d a b c m f s) := by
  exact formed_vfma h ..

theorem formed_execVfnmsub (h : Formed s) (d a b c : BitVec 5) (m : BitVec 3) (f : BitVec 2) : OutFormed (execVfnmsub d a b c m f s) := by
  exact formed_vfma h ..

theorem formed_vcompare (h : Formed s) (w : Nat) (d a b : BitVec 5) (m : BitVec 3) (x : BitVec 1) (f : Nat → Nat → Bool × Nat)
    : OutFormed (vcompare w d a b m x f s) := by
  grind [vcompare, formed_issue, keeps_together, keeps_self_bind, keeps_vsource, keeps_secondLanes, keeps_getM, keeps_setM, keeps_orFlags, keeps_bind]

theorem formed_vintCmp (h : Formed s) (d a b : BitVec 5) (m : BitVec 3) (e : BitVec 2) (x : BitVec 1) (f : Nat → Nat → Int → Int → Bool)
    : OutFormed (vintCmp d a b m e x f s) := by
  unfold vintCmp
  exact formed_vcompare h ..

theorem formed_vfloatCmp (h : Formed s) (d a b : BitVec 5) (m : BitVec 3) (e : BitVec 2) (x : BitVec 1) (f : Fmt → Nat → Nat → Bool × Nat)
    : OutFormed (vfloatCmp d a b m e x f s) := by
  exact formed_vcompare h ..

theorem formed_execVcmpEq (h : Formed s) (d a b : BitVec 5) (m : BitVec 3) (e : BitVec 2) (x : BitVec 1) : OutFormed (execVcmpEq d a b m e x s) := by
  exact formed_vintCmp h ..

theorem formed_execVcmpNe (h : Formed s) (d a b : BitVec 5) (m : BitVec 3) (e : BitVec 2) (x : BitVec 1) : OutFormed (execVcmpNe d a b m e x s) := by
  exact formed_vintCmp h ..

theorem formed_execVcmpLt (h : Formed s) (d a b : BitVec 5) (m : BitVec 3) (e : BitVec 2) (x : BitVec 1) : OutFormed (execVcmpLt d a b m e x s) := by
  exact formed_vintCmp h ..

theorem formed_execVcmpGe (h : Formed s) (d a b : BitVec 5) (m : BitVec 3) (e : BitVec 2) (x : BitVec 1) : OutFormed (execVcmpGe d a b m e x s) := by
  exact formed_vintCmp h ..

theorem formed_execVcmpLtu (h : Formed s) (d a b : BitVec 5) (m : BitVec 3) (e : BitVec 2) (x : BitVec 1) : OutFormed (execVcmpLtu d a b m e x s) :=
    by
  exact formed_vintCmp h ..

theorem formed_execVcmpGeu (h : Formed s) (d a b : BitVec 5) (m : BitVec 3) (e : BitVec 2) (x : BitVec 1) : OutFormed (execVcmpGeu d a b m e x s) :=
    by
  exact formed_vintCmp h ..

theorem formed_execVfcmpEq (h : Formed s) (d a b : BitVec 5) (m : BitVec 3) (e : BitVec 2) (x : BitVec 1) : OutFormed (execVfcmpEq d a b m e x s) :=
    by
  exact formed_vfloatCmp h ..

theorem formed_execVfcmpNe (h : Formed s) (d a b : BitVec 5) (m : BitVec 3) (e : BitVec 2) (x : BitVec 1) : OutFormed (execVfcmpNe d a b m e x s) :=
    by
  exact formed_vfloatCmp h ..

theorem formed_execVfcmpLt (h : Formed s) (d a b : BitVec 5) (m : BitVec 3) (e : BitVec 2) (x : BitVec 1) : OutFormed (execVfcmpLt d a b m e x s) :=
    by
  exact formed_vfloatCmp h ..

theorem formed_execVfcmpLe (h : Formed s) (d a b : BitVec 5) (m : BitVec 3) (e : BitVec 2) (x : BitVec 1) : OutFormed (execVfcmpLe d a b m e x s) :=
    by
  exact formed_vfloatCmp h ..

theorem formed_execVfcmpUo (h : Formed s) (d a b : BitVec 5) (m : BitVec 3) (e : BitVec 2) (x : BitVec 1) : OutFormed (execVfcmpUo d a b m e x s) :=
    by
  exact formed_vfloatCmp h ..

theorem formed_vreduce (h : Formed s) (frm : Bool) (w : Nat) (d a b : BitVec 5) (m : BitVec 3) (f : Nat → Word → Nat → Vec → Word × Nat)
    : OutFormed (vreduce frm w d a b m f s) := by
  grind [vreduce, formed_issue, keeps_together, keeps_self_bind, keeps_getX, keeps_vsource, keeps_getM, keeps_setX, keeps_orFlags, keeps_bind]

theorem formed_vintRed (h : Formed s) (d a b : BitVec 5) (m : BitVec 3) (e : BitVec 2) (signed : Bool) (f : Nat → Nat → Nat → Nat)
    : OutFormed (vintRed d a b m e signed f s) := by
  unfold vintRed
  exact formed_vreduce h ..

theorem formed_execVredsum (h : Formed s) (d a b : BitVec 5) (m : BitVec 3) (e : BitVec 2) : OutFormed (execVredsum d a b m e s) := by
  exact formed_vintRed h ..

theorem formed_execVredmin (h : Formed s) (d a b : BitVec 5) (m : BitVec 3) (e : BitVec 2) : OutFormed (execVredmin d a b m e s) := by
  exact formed_vintRed h ..

theorem formed_execVredmax (h : Formed s) (d a b : BitVec 5) (m : BitVec 3) (e : BitVec 2) : OutFormed (execVredmax d a b m e s) := by
  exact formed_vintRed h ..

theorem formed_execVredminu (h : Formed s) (d a b : BitVec 5) (m : BitVec 3) (e : BitVec 2) : OutFormed (execVredminu d a b m e s) := by
  exact formed_vintRed h ..

theorem formed_execVredmaxu (h : Formed s) (d a b : BitVec 5) (m : BitVec 3) (e : BitVec 2) : OutFormed (execVredmaxu d a b m e s) := by
  exact formed_vintRed h ..

theorem formed_execVredand (h : Formed s) (d a b : BitVec 5) (m : BitVec 3) (e : BitVec 2) : OutFormed (execVredand d a b m e s) := by
  exact formed_vintRed h ..

theorem formed_execVredor (h : Formed s) (d a b : BitVec 5) (m : BitVec 3) (e : BitVec 2) : OutFormed (execVredor d a b m e s) := by
  exact formed_vintRed h ..

theorem formed_execVredxor (h : Formed s) (d a b : BitVec 5) (m : BitVec 3) (e : BitVec 2) : OutFormed (execVredxor d a b m e s) := by
  exact formed_vintRed h ..

theorem formed_vfloatRed (h : Formed s) (frm pairwise : Bool) (d a b : BitVec 5) (m : BitVec 3) (e : BitVec 2)
    (f : Fmt → Nat → Nat → Nat → Nat × Nat) : OutFormed (vfloatRed frm pairwise d a b m e f s) := by
  unfold vfloatRed
  exact formed_vreduce h ..

theorem formed_execVfredo (h : Formed s) (d a b : BitVec 5) (m : BitVec 3) (e : BitVec 2) : OutFormed (execVfredo d a b m e s) := by
  exact formed_vfloatRed h ..

theorem formed_execVfredp (h : Formed s) (d a b : BitVec 5) (m : BitVec 3) (e : BitVec 2) : OutFormed (execVfredp d a b m e s) := by
  exact formed_vfloatRed h ..

theorem formed_execVfredmino (h : Formed s) (d a b : BitVec 5) (m : BitVec 3) (e : BitVec 2) : OutFormed (execVfredmino d a b m e s) := by
  exact formed_vfloatRed h ..

theorem formed_execVfredmaxo (h : Formed s) (d a b : BitVec 5) (m : BitVec 3) (e : BitVec 2) : OutFormed (execVfredmaxo d a b m e s) := by
  exact formed_vfloatRed h ..

theorem formed_execVfredminp (h : Formed s) (d a b : BitVec 5) (m : BitVec 3) (e : BitVec 2) : OutFormed (execVfredminp d a b m e s) := by
  exact formed_vfloatRed h ..

theorem formed_execVfredmaxp (h : Formed s) (d a b : BitVec 5) (m : BitVec 3) (e : BitVec 2) : OutFormed (execVfredmaxp d a b m e s) := by
  exact formed_vfloatRed h ..

theorem formed_vscanOp (h : Formed s) (frm : Bool) (w : Nat) (d a b : BitVec 5) (m : BitVec 3) (f : Nat → Nat → Nat → Nat × Nat)
    : OutFormed (vscanOp frm w d a b m f s) := by
  grind [vscanOp, formed_issue, keeps_together, keeps_self_bind, keeps_getX, keeps_vsource, keeps_getM, keeps_vdest, keeps_orFlags, keeps_bind]

theorem formed_execVscan (h : Formed s) (d a b : BitVec 5) (m : BitVec 3) (e : BitVec 2) : OutFormed (execVscan d a b m e s) := by
  exact formed_vscanOp h ..

theorem formed_execVfscano (h : Formed s) (d a b : BitVec 5) (m : BitVec 3) (e : BitVec 2) : OutFormed (execVfscano d a b m e s) := by
  exact formed_vscanOp h ..

theorem formed_execVbcast (h : Formed s) (d a : BitVec 5) (m : BitVec 3) (e : BitVec 2) : OutFormed (execVbcast d a m e s) := by
  grind [execVbcast, formed_issue, keeps_together, keeps_self_bind, keeps_getX, keeps_getM, keeps_putLanes, keeps_bind]

theorem formed_execVextract (h : Formed s) (d a b : BitVec 5) (e : BitVec 2) : OutFormed (execVextract d a b e s) := by
  grind [execVextract, formed_issue, keeps_together, keeps_self_bind, keeps_vsource, keeps_getX, keeps_setX, keeps_bind]

theorem formed_execVinsert (h : Formed s) (d a b : BitVec 5) (e : BitVec 2) : OutFormed (execVinsert d a b e s) := by
  grind [execVinsert, formed_issue, keeps_together, keeps_self_bind, keeps_getX, keeps_vdest, keeps_bind]

theorem formed_execVslideup (h : Formed s) (d a b : BitVec 5) (m : BitVec 3) (e : BitVec 2) : OutFormed (execVslideup d a b m e s) := by
  grind [execVslideup, formed_issue, keeps_together, keeps_self_bind, keeps_vsource, keeps_getX, keeps_getM, keeps_putLanes, keeps_bind]

theorem formed_execVslidedown (h : Formed s) (d a b : BitVec 5) (m : BitVec 3) (e : BitVec 2) : OutFormed (execVslidedown d a b m e s) := by
  grind [execVslidedown, formed_issue, keeps_together, keeps_self_bind, keeps_vsource, keeps_getX, keeps_getM, keeps_putLanes, keeps_bind]

theorem formed_execVperm (h : Formed s) (d a b : BitVec 5) (m : BitVec 3) (e : BitVec 2) : OutFormed (execVperm d a b m e s) := by
  grind [execVperm, formed_issue, keeps_together, keeps_self_bind, keeps_vsource, keeps_getM, keeps_putLanes, keeps_bind]

theorem formed_execVsel (h : Formed s) (d a b : BitVec 5) (m : BitVec 3) (e : BitVec 2) : OutFormed (execVsel d a b m e s) := by
  grind [execVsel, formed_issue, keeps_together, keeps_self_bind, keeps_vsource, keeps_getM, keeps_vdest, keeps_bind]

theorem formed_execVsext (h : Formed s) (d a : BitVec 5) (m : BitVec 3) (e : BitVec 2) (h : BitVec 1) : OutFormed (execVsext d a m e h s) := by
  grind [execVsext, !formed_vunary]

theorem formed_execVzext (h : Formed s) (d a : BitVec 5) (m : BitVec 3) (e : BitVec 2) (h : BitVec 1) : OutFormed (execVzext d a m e h s) := by
  grind [execVzext, !formed_vunary]

theorem formed_vnarrowOp (h : Formed s) (frm reserved : Bool) (w : Nat) (d a b : BitVec 5) (m : BitVec 3) (f : Nat → Nat → Nat × Nat)
    : OutFormed (vnarrowOp frm reserved w d a b m f s) := by
  grind [vnarrowOp, formed_issue, keeps_together, keeps_self_bind, keeps_vsource, keeps_getM, keeps_putLanes, keeps_bind]

theorem formed_execVnarrow (h : Formed s) (d a b : BitVec 5) (m : BitVec 3) (e : BitVec 2) : OutFormed (execVnarrow d a b m e s) := by
  unfold execVnarrow
  exact formed_vnarrowOp h ..

theorem formed_execVnarrowsu (h : Formed s) (d a b : BitVec 5) (m : BitVec 3) (e : BitVec 2) : OutFormed (execVnarrowsu d a b m e s) := by
  unfold execVnarrowsu
  exact formed_vnarrowOp h ..

theorem formed_execVnarrowu (h : Formed s) (d a b : BitVec 5) (m : BitVec 3) (e : BitVec 2) : OutFormed (execVnarrowu d a b m e s) := by
  unfold execVnarrowu
  exact formed_vnarrowOp h ..

theorem formed_execVtrunc (h : Formed s) (d a b : BitVec 5) (m : BitVec 3) (e : BitVec 2) : OutFormed (execVtrunc d a b m e s) := by
  unfold execVtrunc
  exact formed_vnarrowOp h ..

theorem formed_execVfwiden (h : Formed s) (d a : BitVec 5) (m : BitVec 3) (e : BitVec 2) (h : BitVec 1) : OutFormed (execVfwiden d a m e h s) := by
  grind [execVfwiden, !formed_vunary]

theorem formed_execVfwidenBf (h : Formed s) (d a : BitVec 5) (m : BitVec 3) (e : BitVec 2) (h : BitVec 1) : OutFormed (execVfwidenBf d a m e h s) :=
    by
  grind [execVfwidenBf, !formed_vunary]

theorem formed_execVfnarrow (h : Formed s) (d a b : BitVec 5) (m : BitVec 3) (e : BitVec 2) : OutFormed (execVfnarrow d a b m e s) := by
  exact formed_vnarrowOp h ..

theorem formed_vconvert (h : Formed s) (d a b : BitVec 5) (m : BitVec 3) (e : BitVec 2) (f : Fmt → Nat → Nat → Nat × Nat)
    : OutFormed (vconvert d a b m e f s) := by
  unfold vconvert
  exact formed_vunary h ..

theorem formed_execVfcvtFX (h : Formed s) (d a b : BitVec 5) (m : BitVec 3) (e : BitVec 2) : OutFormed (execVfcvtFX d a b m e s) := by
  exact formed_vconvert h ..

theorem formed_execVfcvtFXu (h : Formed s) (d a b : BitVec 5) (m : BitVec 3) (e : BitVec 2) : OutFormed (execVfcvtFXu d a b m e s) := by
  exact formed_vconvert h ..

theorem formed_execVfcvtXF (h : Formed s) (d a b : BitVec 5) (m : BitVec 3) (e : BitVec 2) : OutFormed (execVfcvtXF d a b m e s) := by
  exact formed_vconvert h ..

theorem formed_execVfcvtXuF (h : Formed s) (d a b : BitVec 5) (m : BitVec 3) (e : BitVec 2) : OutFormed (execVfcvtXuF d a b m e s) := by
  exact formed_vconvert h ..

theorem formed_execVps8 (h : Formed s) (d a : BitVec 5) (m : BitVec 3) (e : BitVec 2) (p : BitVec 3) : OutFormed (execVps8 d a m e p s) := by
  unfold execVps8
  exact formed_vunary h ..

theorem formed_maskBinary (h : Formed s) (d a b : BitVec 5) (f : Word → Word → Word) : OutFormed (maskBinary d a b f s) := by
  grind [maskBinary, formed_issue, keeps_getM, keeps_setM, keeps_bind]

theorem formed_execMand (h : Formed s) (d a b : BitVec 5) : OutFormed (execMand d a b s) := by
  exact formed_maskBinary h ..

theorem formed_execMor (h : Formed s) (d a b : BitVec 5) : OutFormed (execMor d a b s) := by
  exact formed_maskBinary h ..

theorem formed_execMxor (h : Formed s) (d a b : BitVec 5) : OutFormed (execMxor d a b s) := by
  exact formed_maskBinary h ..

theorem formed_execMandn (h : Formed s) (d a b : BitVec 5) : OutFormed (execMandn d a b s) := by
  exact formed_maskBinary h ..

theorem formed_execMnot (h : Formed s) (d a : BitVec 5) : OutFormed (execMnot d a s) := by
  grind [execMnot, formed_issue, keeps_getM, keeps_setM, keeps_bind]

theorem formed_execMset (h : Formed s) (d a : BitVec 5) : OutFormed (execMset d a s) := by
  grind [execMset, formed_issue, keeps_getX, keeps_setM, keeps_bind]

theorem formed_execMget (h : Formed s) (d a : BitVec 5) : OutFormed (execMget d a s) := by
  grind [execMget, formed_issue, keeps_getM, keeps_setX, keeps_bind]

theorem formed_execMpopc (h : Formed s) (d a : BitVec 5) : OutFormed (execMpopc d a s) := by
  grind [execMpopc, formed_issue, keeps_getM, keeps_setX, keeps_bind]

end

section

variable {s : State}

theorem formed_execMfirst (h : Formed s) (d a : BitVec 5) : OutFormed (execMfirst d a s) := by
  grind [execMfirst, formed_issue, keeps_getM, keeps_setX, keeps_bind]

theorem formed_execMfirstn (h : Formed s) (d a : BitVec 5) : OutFormed (execMfirstn d a s) := by
  grind [execMfirstn, formed_issue, keeps_getX, keeps_setM, keeps_bind]

/-! ### LoadStore -/

theorem formed_execLdx (h : Formed s) (d a b : BitVec 5) (w : BitVec 3) : OutFormed (execLdx d a b w s) := by
  grind [execLdx, formed_issue, keeps_getX, keeps_loadInto, keeps_bind]

theorem formed_execLd (h : Formed s) (d a : BitVec 5) (w : BitVec 3) (o : BitVec 13) : OutFormed (execLd d a w o s) := by
  grind [execLd, formed_issue, keeps_self_bind, keeps_getX, keeps_loadInto, keeps_bind]

theorem formed_execSt (h : Formed s) (ds a : BitVec 5) (w : BitVec 2) (o : BitVec 13) : OutFormed (execSt ds a w o s) := by
  grind [execSt, formed_issue, keeps_self_bind, keeps_getX, keeps_storeBytes, keeps_bind]

theorem formed_execVld (h : Formed s) (d a : BitVec 5) (o : BitVec 13) : OutFormed (execVld d a o s) := by
  grind [execVld, formed_issue, keeps_self_bind, keeps_getX, keeps_loadBytes, keeps_setV, keeps_bind]

theorem formed_execVst (h : Formed s) (ds a : BitVec 5) (o : BitVec 13) : OutFormed (execVst ds a o s) := by
  grind [execVst, formed_issue, keeps_self_bind, keeps_getX, keeps_getV, keeps_storeBytes, keeps_bind]

theorem formed_execVldm (h : Formed s) (d a : BitVec 5) (m : BitVec 3) (e : BitVec 2) : OutFormed (execVldm d a m e s) := by
  grind [execVldm, formed_issue, keeps_getX, keeps_getM, keeps_gather, keeps_bind]

theorem formed_execVlds (h : Formed s) (d a b : BitVec 5) (m : BitVec 3) (e : BitVec 2) : OutFormed (execVlds d a b m e s) := by
  grind [execVlds, formed_issue, keeps_getX, keeps_getM, keeps_gather, keeps_bind]

theorem formed_execVgath (h : Formed s) (d a b : BitVec 5) (m : BitVec 3) (e : BitVec 2) : OutFormed (execVgath d a b m e s) := by
  grind [execVgath, formed_issue, keeps_getX, keeps_getV, keeps_getM, keeps_gather, keeps_bind]

theorem formed_execVstm (h : Formed s) (ds a : BitVec 5) (m : BitVec 3) (e : BitVec 2) : OutFormed (execVstm ds a m e s) := by
  grind [execVstm, formed_issue, keeps_getX, keeps_getV, keeps_getM, keeps_scatter, keeps_bind]

theorem formed_execVsts (h : Formed s) (ds a b : BitVec 5) (m : BitVec 3) (e : BitVec 2) : OutFormed (execVsts ds a b m e s) := by
  grind [execVsts, formed_issue, keeps_getX, keeps_getV, keeps_getM, keeps_scatter, keeps_bind]

theorem formed_execVscat (h : Formed s) (ds a b : BitVec 5) (m : BitVec 3) (e : BitVec 2) : OutFormed (execVscat ds a b m e s) := by
  grind [execVscat, formed_issue, keeps_getX, keeps_getV, keeps_getM, keeps_scatter, keeps_bind]

theorem formed_amo (h : Formed s) (op : Nat) (d a b : BitVec 5) (sc : BitVec 3) (r q z : BitVec 1) : OutFormed (amo op d a b sc r q z s) := by
  refine formed_issue h _ (keeps_self_bind fun t => keeps_when keeps_waitAcks fun _ => keeps_bind (keeps_getX _) fun va =>
    keeps_bind (keeps_getX _) fun y =>
    keeps_bind (keeps_getX _) fun c => keeps_bind (keeps_check ..) fun target => keeps_bind ?_ fun old => keeps_setX ..)
  cases target with
  | global rights =>
    grind [keeps_bind, keeps_depotPlace, keeps_raise, keeps_homeOf, keeps_theState_bind, keeps_rmwLocal, keeps_amoRemote]
  | _ => exact keeps_rmwLocal ..

theorem formed_execFence (h : Formed s) (sc : BitVec 3) (k : BitVec 4) : OutFormed (execFence sc k s) := by
  grind [execFence, formed_issue, keeps_waitAcks, keeps_pure]

theorem formed_execLdsync (h : Formed s) (d a : BitVec 5) (w : BitVec 3) : OutFormed (execLdsync d a w s) := by
  refine formed_issue h _ (keeps_theAgent_bind fun ag => keeps_bind (keeps_getX _) fun va => keeps_bind (keeps_check ..) fun target =>
    keeps_theState_bind fun s hs => ?_)
  cases target with
  | pool off => grind [keeps_bind, keeps_raise, keeps_stall, keeps_poolSound, keeps_setX]
  | global rights =>
    grind [keeps_bind, keeps_noFullBit, keeps_stashTouch, keeps_theState_bind, keeps_stall, keeps_loadInto]
  | _ => exact keeps_raise ..

theorem formed_execStfe (h : Formed s) (a : BitVec 5) : OutFormed (execStfe a s) := by
  grind [execStfe, formed_issue, keeps_theAgent_bind, keeps_getX, keeps_flagLine, keeps_update, keeps_bind, !formed_setFull]

theorem formed_execFeclr (h : Formed s) (a : BitVec 5) : OutFormed (execFeclr a s) := by
  grind [execFeclr, formed_issue, keeps_theAgent_bind, keeps_getX, keeps_flagLine, keeps_update, keeps_bind, !formed_clearFull]

theorem formed_execWaitv (h : Formed s) (d a b : BitVec 5) (sc : BitVec 3) (c : BitVec 1) (w : BitVec 3) : OutFormed (execWaitv d a b sc c w s) := by
  grind [execWaitv, formed_issue, keeps_theState_bind, keeps_getX, keeps_loadBytes, keeps_setX, keeps_waitIn, keeps_bind]

theorem formed_execLdAcq (h : Formed s) (d a : BitVec 5) (sc : BitVec 3) (w : BitVec 3) : OutFormed (execLdAcq d a sc w s) := by
  grind [execLdAcq, formed_issue, keeps_getX, keeps_loadInto, keeps_bind]

theorem formed_execStRel (h : Formed s) (ds a : BitVec 5) (sc : BitVec 3) (w : BitVec 2) : OutFormed (execStRel ds a sc w s) := by
  grind [execStRel, formed_issue, keeps_getX, keeps_storeBytes, keeps_waitAcks, keeps_bind]

/-! ### SyncOps -/

theorem formed_execBarInit (h : Formed s) (a b : BitVec 5) : OutFormed (execBarInit a b s) := by
  grind [execBarInit, formed_issue, keeps_theAgent_bind, keeps_getX, keeps_barCheck, keeps_update, keeps_illegalOperand, keeps_bind,
    !formed_poolWrite]

theorem formed_execBarExpect (h : Formed s) (a b : BitVec 5) : OutFormed (execBarExpect a b s) := by
  grind [execBarExpect, formed_issue, keeps_getX, keeps_barCheck, keeps_theAgent_bind, keeps_barSound, keeps_barHere, keeps_illegalOperand,
    keeps_bind]

theorem formed_execBarArrive (h : Formed s) (d a : BitVec 5) : OutFormed (execBarArrive d a s) := by
  grind [execBarArrive, formed_issue, keeps_theAgent_bind, keeps_getX, keeps_barCheck, keeps_barSound, keeps_theState_bind, keeps_barHere,
    keeps_setX, keeps_bind]

theorem formed_execBarArriveC (h : Formed s) (a b : BitVec 5) : OutFormed (execBarArriveC a b s) := by
  refine formed_issue h _ (keeps_theAgent_bind fun ag => keeps_bind (keeps_getX _) fun va => keeps_bind (keeps_getX _) fun y =>
    keeps_bind (keeps_barCheck _) fun _ => keeps_theState_bind fun s hs => keeps_raised (keeps_raised
      (keeps_bind (keeps_barSound ..) fun _ => keeps_update fun s hs => formed_barUpdate hs ..)))

theorem formed_execBarWait (h : Formed s) (d a b : BitVec 5) : OutFormed (execBarWait d a b s) := by
  grind [execBarWait, formed_issue, keeps_theAgent_bind, keeps_getX, keeps_barCheck, keeps_barSound, keeps_theState_bind, keeps_setX, keeps_stall,
    keeps_bind]

theorem formed_execBarWaitDoze (h : Formed s) (d a b : BitVec 5) : OutFormed (execBarWaitDoze d a b s) := by
  refine formed_issue h _ (keeps_theAgent_bind fun ag => keeps_bind (keeps_getX _) fun va => keeps_bind (keeps_getX _) fun y =>
    keeps_bind (keeps_barCheck _) fun _ => keeps_bind (keeps_barSound ..) fun _ => keeps_theState_bind fun s hs => ?_)
  grind [keeps_setX, keeps_waitIn, !formed_gearCheck, !formed_modMe]

theorem formed_execBarTest (h : Formed s) (d a b : BitVec 5) : OutFormed (execBarTest d a b s) := by
  grind [execBarTest, formed_issue, keeps_theAgent_bind, keeps_getX, keeps_barCheck, keeps_barSound, keeps_theState_bind, keeps_setX, keeps_bind]

theorem formed_execStashMap (h : Formed s) (d a b : BitVec 5) : OutFormed (execStashMap d a b s) := by
  refine formed_issue h _ (keeps_theAgent_bind fun ag => keeps_bind (keeps_getX _) fun va => keeps_bind (keeps_getX _) fun len =>
    keeps_bind (keeps_stashRange ..) fun _ => keeps_theState_bind fun s hs => keeps_ite (keeps_setX ..) ?_)
  split
  · exact keeps_bind (keeps_update fun s hs => formed_modTile_frame hs _ rfl rfl) fun _ => keeps_setX ..
  · exact keeps_setX ..

theorem formed_execStashUnmap (h : Formed s) (a : BitVec 5) : OutFormed (execStashUnmap a s) := by
  grind [execStashUnmap, formed_issue, keeps_theAgent_bind, keeps_getX, keeps_theState_bind, keeps_stall, keeps_update, keeps_bind, keeps_pure,
    !formed_unmapEntry]

theorem formed_execStashFlush (h : Formed s) (a : BitVec 5) : OutFormed (execStashFlush a s) := by
  grind [execStashFlush, formed_issue, keeps_theAgent_bind, keeps_getX, keeps_theState_bind, keeps_update, keeps_bind, keeps_pure, !formed_flushRange]

theorem formed_execCacheResize (h : Formed s) (d a : BitVec 5) : OutFormed (execCacheResize d a s) := by
  refine formed_issue h _ (keeps_theAgent_bind fun ag => keeps_bind (keeps_getX _) fun k => keeps_theState_bind fun s hs => keeps_ite (keeps_setX ..)
    (keeps_when keeps_stall fun _ => keeps_bind (keeps_update fun s hs => formed_modTile_frame ?_ _ rfl rfl) fun _ => keeps_setX ..))
  exact formed_foldl (fun s e hs => formed_unmapEntry hs ..) _ hs

theorem formed_execPref (h : Formed s) (a : BitVec 5) : OutFormed (execPref a s) := formed_issue h _ (keeps_pure ())

theorem formed_execCflush (h : Formed s) (a : BitVec 5) : OutFormed (execCflush a s) := by
  refine formed_issue h _ (keeps_theAgent_bind fun ag => keeps_bind (keeps_getX _) fun va => keeps_theState_bind fun s hs =>
    keeps_bind (keeps_canonical ..) fun _ => keeps_ite (keeps_pure ()) (keeps_bind (keeps_spanRights ..) fun _ => keeps_update fun s hs => ?_))
  exact formed_foldl (fun s l hs => formed_evictLine hs l) _ hs

theorem formed_execCwait (h : Formed s) (d a : BitVec 5) : OutFormed (execCwait d a s) := by
  refine formed_issue h _ (keeps_bind (keeps_getX _) fun va => keeps_bind (keeps_carriageCheck va) fun p => keeps_self_bind fun t =>
    keeps_theState_bind fun s hs => keeps_bind (keeps_flagUpdate ..) fun w => keeps_ite ?_ (keeps_ite (keeps_setX ..) (keeps_ite ?_ keeps_stall)))
  · refine keeps_theState_bind fun s hs => ?_
    have hlast : Keeps (update fun s => modCarriage s p.2.1 p.2.2 fun k => { k with lastWait := s.now }) :=
      keeps_update fun s hs => formed_modCarriage hs ..
    split
    · exact keeps_bind (keeps_noteRead ..) fun _ => keeps_bind hlast fun _ => keeps_setX ..
    · exact keeps_bind hlast fun _ => keeps_setX ..
  · exact keeps_theState_bind fun s hs => keeps_waitIn (formed_later (formed_modMe hs _) _)

theorem formed_execCrel (h : Formed s) (a : BitVec 5) : OutFormed (execCrel a s) := by
  grind [execCrel, formed_issue, keeps_getX, keeps_carriageCheck, keeps_flagUpdate, keeps_raise, keeps_bind, keeps_pure]

theorem formed_execCtest (h : Formed s) (d a : BitVec 5) : OutFormed (execCtest d a s) := by
  grind [execCtest, formed_issue, keeps_getX, keeps_carriageCheck, keeps_flagUpdate, keeps_setX, keeps_bind]

/-! ### Matrix -/

theorem formed_panelMove (h : Formed s) (d a b : BitVec 5) (load : Bool) : OutFormed (panelMove d a b load s) :=
  formed_issue h _ (keeps_self_bind fun _ => keeps_bind (keeps_getX _) fun _ => keeps_bind (keeps_getX _) fun _ =>
    keeps_bind (keeps_panelCheck _) fun _ => keeps_guard (keeps_guard (keeps_when keeps_illegalOperand fun _ =>
      keeps_bind (keeps_engineSpan ..) fun _ =>
      keeps_when keeps_illegalOperand fun _ => keeps_bind (keeps_namedBarrier _) fun _ => keeps_enqueue ..)))

theorem formed_execPzero (h : Formed s) (d : BitVec 5) : OutFormed (execPzero d s) := by
  grind [execPzero, formed_issue, keeps_panelCheck, keeps_enqueue, keeps_bind]

theorem formed_execAccAlloc (h : Formed s) (d a : BitVec 5) (k : BitVec 1) : OutFormed (execAccAlloc d a k s) := by
  refine formed_issue h _ (keeps_theAgent_bind fun ag => keeps_self_bind fun t => keeps_theState_bind fun s hs =>
    keeps_guard (keeps_ite (keeps_setX ..)
    (keeps_bind (keeps_update fun s hs => formed_modTile hs _ _ ?_) fun _ => keeps_bind (keeps_setSelf _) fun _ => keeps_setX ..)))
  exact accClear_formed (tile_formed hs _) _

theorem formed_execAccFree (h : Formed s) (a : BitVec 5) : OutFormed (execAccFree a s) := by
  refine formed_issue h _ (keeps_theAgent_bind fun ag => keeps_self_bind fun t => keeps_theState_bind fun s hs => ?_)
  dsimp only
  split
  · exact keeps_pure ()
  · exact keeps_ite keeps_stall (keeps_bind (keeps_update fun s hs => formed_modTile_frame hs _ rfl rfl) fun _ => keeps_setSelf _)

theorem formed_execAccZero (h : Formed s) (a : BitVec 5) : OutFormed (execAccZero a s) := by
  grind [execAccZero, formed_issue, keeps_boundName, keeps_enqueue, keeps_bind]

theorem formed_execAccRd (h : Formed s) (d a b e : BitVec 5) : OutFormed (execAccRd d a b e s) :=
  formed_issue h _ (keeps_theAgent_bind fun _ => keeps_bind (keeps_boundName ..) fun _ => keeps_bind (keeps_getX _) fun _ =>
    keeps_bind (keeps_groupCheck ..) fun _ =>
    keeps_theState_bind fun _ _ => keeps_guard (keeps_bind (keeps_setV ..) fun _ => keeps_setX ..))

theorem formed_execAccWr (h : Formed s) (vs a b : BitVec 5) : OutFormed (execAccWr vs a b s) := by
  grind [execAccWr, formed_issue, keeps_boundName, keeps_getX, keeps_groupCheck, keeps_getV, keeps_enqueue, keeps_bind]

theorem formed_execAccSt (h : Formed s) (d a b : BitVec 5) : OutFormed (execAccSt d a b s) :=
  formed_issue h _ (keeps_bind (keeps_boundName ..) fun _ => keeps_bind (keeps_getX _) fun _ => keeps_bind (keeps_getX _) fun _ =>
    keeps_guard (keeps_guard
    (keeps_bind (keeps_engineSpan ..) fun _ => keeps_when keeps_illegalOperand fun _ => keeps_bind (keeps_namedBarrier _) fun _ => keeps_enqueue ..)))

theorem formed_mma (h : Formed s) (form : Nat) (c pa pb : BitVec 4) (z : BitVec 1) : OutFormed (mma form c pa pb z s) := by
  grind [mma, formed_issue, keeps_boundName, keeps_eachLane, keeps_panelCheck, keeps_enqueue, keeps_bind]

theorem formed_execMscale (h : Formed s) (d a : BitVec 4) (r : BitVec 6) (p : BitVec 4) : OutFormed (execMscale d a r p s) := by
  grind [execMscale, formed_issue, keeps_boundName, keeps_panelCheck, keeps_enqueue, keeps_bind]

theorem formed_execMout (h : Formed s) (d a o n : BitVec 4) : OutFormed (execMout d a o n s) := by
  grind [execMout, formed_issue, keeps_boundName, keeps_panelCheck, keeps_enqueue, keeps_bind]

theorem formed_execMsend (h : Formed s) (a : BitVec 5) : OutFormed (execMsend a s) :=
  formed_issue h _ (keeps_theAgent_bind fun _ => keeps_bind (keeps_getX _) fun _ => keeps_theState_bind fun _ _ =>
    keeps_guard (keeps_guard (keeps_guard
    (keeps_bind (keeps_poolSound ..) fun _ => keeps_when keeps_illegalOperand fun _ => keeps_guard (keeps_bind (keeps_namedBarrier _) fun _ =>
      keeps_update fun _ hs => formed_msendArrives hs ..)))))

theorem formed_execMwait (h : Formed s) (d : BitVec 5) : OutFormed (execMwait d s) := by
  grind [execMwait, formed_issue, keeps_theAgent_bind, keeps_theState_bind, keeps_stall, keeps_setX]

theorem accPut_formed {t : Tile} (ht : TileFormed t) (n : AccName) (vs : List (Nat × Nat × Nat)) : TileFormed (accPut t n vs) := by
  obtain ⟨hpool, hacc⟩ := ht
  exact ⟨hpool, List.foldlRecOn (motive := fun m : Memory => m.wf = true) _ _ hacc fun m hm _ _ => memWrite_wf _ _ _ hm⟩

theorem tileFormed_running {t : Tile} (ht : TileFormed t) (r : Option MatrixRun) : TileFormed { t with running := r } := ht

theorem tileFormed_acc {t : Tile} (ht : TileFormed t) {m : Memory} (hm : m.wf = true) (bad : List Nat) :
    TileFormed { t with acc := m, accBad := bad } := ⟨ht.1, hm⟩

theorem poolClear_formed {t : Tile} (ht : TileFormed t) (off n : Nat) : TileFormed (poolClear t off n) :=
  ⟨memClear_wf _ _ _ ht.1, ht.2⟩

theorem mmaOperand_formed {t : Tile} (ht : TileFormed t) (x : AccName) (z : Bool) (step : Nat) : TileFormed (mmaOperand t x z step).1 := by
  unfold mmaOperand
  split
  · exact accClear_formed ht x
  · exact ht

theorem mmaStep_formed {t : Tile} (ht : TileFormed t) (n : AccName) (form pa pb st : Nat) (fa fb : List Nat) :
    TileFormed (mmaStep t n form pa pb st fa fb).1 := accPut_formed ht ..

theorem mscaleStep_formed {t : Tile} (ht : TileFormed t) (d p : AccName) (panel row : Nat) : TileFormed (mscaleStep t d p panel row).1 :=
  accPut_formed ht ..

theorem moutStep_formed {t : Tile} (ht : TileFormed t) (d : AccName) (pa panel n : Nat) : TileFormed (moutStep t d pa panel n).1 := by
  unfold moutStep
  split
  · exact ht
  · exact accPut_formed ht ..

theorem formed_execMatrixCommandStart (h : Formed s) (tile : Nat) : OutFormed (execMatrixCommandStart tile s) := by
  refine outFormed_event ?_
  dsimp only
  split
  · exact h
  · rename_i cmd _
    have hstart (r : MatrixRun) (q : List MatrixCmd) : Formed (modTile s tile fun t => { t with queue := q, running := some r }) :=
      formed_modTile_frame h _ rfl rfl
    have hs1 : Formed (modTile s tile fun t => { t with queue := t.queue.erase cmd, running := some { cmd := cmd, started := true } }) :=
      formed_modTile_frame h _ rfl rfl
    refine formed_ite h (formed_ite (formed_ite h (formed_requestUnits h ..)) ?_)
    split
    · split
      · exact formed_matrixDone hs1 ..
      · exact formed_ite (formed_later (formed_modTile_frame hs1 _ rfl rfl) _) (formed_later (formed_setNameFor hs1 ..) _)
    · exact formed_later hs1 _

theorem formed_execKStep (h : Formed s) (tile : Nat) : OutFormed (execKStep tile s) := by
  refine outFormed_event ?_
  dsimp only
  split
  · exact h
  · refine formed_ite h (formed_ite (formed_setMmaAside h ..) ?_)
    split
    · split
      · exact formed_matrixDone h ..
      · rename_i r _ _ form n pa pb z word _ _ x0 _
        have ht0 := mmaOperand_formed (tile_formed h tile) x0 z r.step
        generalize mmaOperand (getTile s tile) x0 z r.step = op at ht0 ⊢
        have ht1 := mmaStep_formed ht0 op.2 form pa pb r.step r.flagA r.flagB
        generalize mmaStep op.1 op.2 form pa pb r.step r.flagA r.flagB = out at ht1 ⊢
        have ht2 := tileFormed_running ht1 (some { r with step := r.step + 1, flagA := out.2.1, flagB := out.2.2.1 })
        have hs1 := formed_engineFlags (formed_modTile h tile (fun _ => _) ht2) tile out.2.2.2
        exact formed_ite (formed_matrixFails h ..)
          (formed_ite (formed_later (formed_setNameFor hs1 ..) _) (formed_matrixDone (formed_setNameFor hs1 ..) ..))
    · exact h

theorem formed_execMatrixCommandEnd (h : Formed s) (tile : Nat) : OutFormed (execMatrixCommandEnd tile s) := by
  refine outFormed_event ?_
  dsimp only
  split
  · exact h
  · rename_i r _
    refine formed_ite h ?_
    cases r.cmd.op with
    | pld panel base shape =>
      exact formed_matrixServed _ _ _ (formed_pldGroups h ..) fun s hs => formed_barUpdate hs ..
    | pst panel base shape =>
      exact formed_matrixServed _ _ _ (formed_pstGroups h ..) fun s hs => formed_barUpdate hs ..
    | pzero panel => exact formed_matrixDone (formed_modTile h _ _ (poolClear_formed (tile_formed h _) ..)) ..
    | accZero n =>
      dsimp only
      split
      · exact formed_matrixDone h ..
      · exact formed_matrixDone (formed_setNameFor (formed_modTile h _ _ (accClear_formed (tile_formed h _) _)) ..) ..
    | accWr n g v =>
      dsimp only
      split
      · exact formed_matrixDone h ..
      · exact formed_matrixDone (formed_modTile h _ _ (tileFormed_acc (tile_formed h _) (memWrite_wf _ _ _ (acc_wf h _)) _)) ..
    | accSt n base =>
      dsimp only
      split
      · exact formed_matrixDone h ..
      · exact formed_matrixServed _ _ _ (formed_drainRows h ..) fun s hs => hs
    | mscale d p panel row =>
      dsimp only
      split
      · exact formed_ite (formed_matrixFails h ..)
          (formed_matrixDone (formed_engineFlags (formed_setNameFor (formed_modTile h _ _ (mscaleStep_formed (tile_formed h _) ..)) ..) ..) ..)
      · exact formed_matrixDone h ..
    | mout d pa panel n =>
      dsimp only
      split
      · exact formed_ite (formed_matrixFails h ..)
          (formed_matrixDone (formed_engineFlags (formed_setNameFor (formed_modTile h _ _ (moutStep_formed (tile_formed h _) ..)) ..) ..) ..)
      · exact formed_matrixDone h ..
    | mma => exact h

/-! ### Dray -/

theorem formed_execDrayGo (h : Formed s) (d a b : BitVec 5) (c : BitVec 2) (sl : BitVec 6) : OutFormed (execDrayGo d a b c sl s) := by
  refine formed_issue h _ (keeps_theAgent_bind fun ag => keeps_bind (keeps_getX _) fun xa => keeps_bind (keeps_getX _) fun xb =>
    keeps_theState_bind fun s hs =>
    keeps_bind (keeps_goCopy ..) fun copy => keeps_when keeps_waitAcks fun _ => keeps_theState_bind fun s hs => keeps_when keeps_stall fun _ =>
      keeps_bind (keeps_eachLane (fun k => keeps_ite (keeps_pure ()) (keeps_noteRead ..)) _) fun _ => keeps_theState_bind fun s hs =>
        keeps_bind (keeps_update fun _ _ => formed_startCopy hs ..) fun _ => keeps_setX ..)

theorem formed_execDrayTpl (h : Formed s) (a : BitVec 5) (sl : BitVec 6) : OutFormed (execDrayTpl a sl s) :=
  formed_issue h _ (keeps_theAgent_bind fun _ => keeps_bind (keeps_getX _) fun _ => keeps_theState_bind fun _ _ =>
    keeps_bind (keeps_canonical ..) fun _ =>
    keeps_guard (keeps_guard (keeps_update fun _ hs => formed_setTable hs ..)))

theorem formed_execDraySlack (h : Formed s) (a b : BitVec 5) : OutFormed (execDraySlack a b s) := by
  refine formed_issue h _ (keeps_theAgent_bind fun ag => keeps_bind (keeps_getX _) fun tag => keeps_bind (keeps_getX _) fun v =>
    keeps_theState_bind fun s hs => ?_)
  split
  · exact keeps_update fun s hs => formed_modCopy hs ..
  · exact keeps_pure ()

theorem formed_execDrayCancel (h : Formed s) (a : BitVec 5) : OutFormed (execDrayCancel a s) := by
  grind [execDrayCancel, formed_issue, keeps_theAgent_bind, keeps_getX, keeps_theState_bind, keeps_update, keeps_bind, keeps_pure, !formed_modCopy,
    !formed_settleCopy]

theorem formed_execDrayStat (h : Formed s) (d a : BitVec 5) : OutFormed (execDrayStat d a s) := by
  grind [execDrayStat, formed_issue, keeps_theAgent_bind, keeps_getX, keeps_theState_bind, keeps_setX, keeps_bind]

theorem formed_execDrayAper (h : Formed s) (a : BitVec 5) : OutFormed (execDrayAper a s) :=
  formed_issue h _ (keeps_theAgent_bind fun _ => keeps_bind (keeps_getX _) fun _ => keeps_ite (keeps_update fun _ hs => formed_setTable hs ..)
    (keeps_bind (keeps_canonical ..) fun _ => keeps_guard (keeps_guard (keeps_bind (keeps_engineSpan ..) fun _ =>
      keeps_update fun _ hs => formed_setTable hs ..))))

theorem formed_execDrayApertureStart_dropped (h : Formed s) (line : Nat × BitVec 32) : Formed (execDrayApertureStart.dropped line s) :=
  formed_logRecord h _

theorem formed_execDrayApertureStart_refused (h : Formed s) (line : Nat × BitVec 32) (data : Word) (f : FaultInfo) :
    Formed (execDrayApertureStart.refused line data s f) := by
  have hd := formed_execDrayApertureStart_dropped h line
  unfold execDrayApertureStart.refused
  split
  · split
    · exact formed_barUpdate hd ..
    · exact hd
  · exact hd

theorem formed_execDrayApertureStart (h : Formed s) (line : Nat × BitVec 32) (ch : Fin 4) (data : Word)
    : OutFormed (execDrayApertureStart line ch data s) := by
  refine outFormed_event ?_
  dsimp only
  split
  · exact formed_execDrayApertureStart_dropped h _
  · rename_i run ctx _
    refine formed_ite (formed_execDrayApertureStart_dropped h _) ?_
    have hgo := (keeps_goCopy (4 * line.1) none run line.2 (ostlerTile s line.1) (data.toNat % 64) 0 0).result_formed s h
    split <;> simp only [*, ResultFormed] at hgo
    · exact formed_ite (formed_later hgo _) (formed_startCopy hgo ..)
    · exact formed_later hgo _
    · exact formed_execDrayApertureStart_refused hgo ..
    · exact formed_execDrayApertureStart_refused h ..

theorem formed_execDraySegment (h : Formed s) (tile : Nat) (ch : Fin 4) : OutFormed (execDraySegment tile ch s) := by
  grind [execDraySegment, outFormed_event, !formed_storageSegment, !formed_runSegment]

theorem formed_execStorageCompletion (h : Formed s) (tile : Nat) (ch : Fin 4) (cid : Nat) (statusOk : Bool)
    : OutFormed (execStorageCompletion tile ch cid statusOk s) := by
  grind [execStorageCompletion, outFormed_event, !formed_storageFail, !formed_carriageLands, !formed_barUpdate, !formed_fillLines, !formed_endCopy,
    !formed_modCopy, Formed]

theorem formed_execStorageTimeout (h : Formed s) (tile : Nat) (ch : Fin 4) (cid : Nat) : OutFormed (execStorageTimeout tile ch cid s) := by
  unfold execStorageTimeout
  refine outFormed_event ?_
  repeat' split
  all_goals simp [h]

/-! ### Streams -/

theorem formed_execStrmBind (h : Formed s) (d a : BitVec 5) : OutFormed (execStrmBind d a s) := by
  refine formed_issue h _ (keeps_theAgent_bind fun ag => keeps_bind (keeps_getX _) fun va => keeps_theState_bind fun s hs =>
    keeps_guard (keeps_guard (keeps_guard
    (keeps_bind (keeps_poolSound ..) fun _ => ?_))))
  split
  · exact keeps_illegalOperand
  · exact keeps_bind (keeps_unbindStream _) fun _ => keeps_bind (keeps_setSelf _) fun _ =>
      keeps_ite (keeps_pure ()) (keeps_eachLane (fun _ => keeps_streamWork _) _)

theorem formed_execStrmUnbind (h : Formed s) (d : BitVec 5) : OutFormed (execStrmUnbind d s) := by
  grind [execStrmUnbind, formed_issue, keeps_unbindStream]

theorem formed_execStrmPos (h : Formed s) (d b : BitVec 5) : OutFormed (execStrmPos d b s) := by
  grind [execStrmPos, formed_issue, keeps_self_bind, keeps_setX]

theorem formed_execStreamTransfer (h : Formed s) (n : Nat) (q : Fin 8) : OutFormed (execStreamTransfer n q s) := by
  grind [execStreamTransfer, outFormed_event, !formed_later, !formed_modTile, !formed_outputTransfer, !formed_inputTransfer, tile_formed,
    = tileFormed_iff]

/-! ### Runs -/

theorem formed_execRelaunchRound (h : Formed s) (run : BitVec 32) : OutFormed (execRelaunchRound run s) := by
  grind [execRelaunchRound, outFormed_event, !formed_cleanWatched, !formed_relaunchWaits, !formed_faultRelaunch, !formed_nextSet, !formed_nextRound,
    servedState]

/-! ### System -/

theorem formed_execSysc (h : Formed s) (d a : BitVec 5) (c : BitVec 12) : OutFormed (execSysc d a c s) :=
    formed_issue h _ (keeps_bind (keeps_getX _) fun _ => ⟨fun _ _ => trivial⟩)

theorem formed_execBrk (h : Formed s) (c : BitVec 12) : OutFormed (execBrk c s) := by
  grind [execBrk, formed_issue, keeps_raise]

theorem formed_execExit (h : Formed s) : OutFormed (execExit s) :=
  formed_issueState h _ (yields_bind keeps_theAgent fun _ => yields_bind keeps_self fun _ => yields_guard
    (yields_bind (keeps_eachLane (fun q => keeps_unbindStream q) _) fun _ => yields_theState_bind fun _ hs =>
      yields_pure (formed_endActivation hs ..)))

theorem formed_execYield (h : Formed s) : OutFormed (execYield s) := by
  refine formed_issueState h _ (yields_bind keeps_theAgent fun a => yields_theState_bind fun s hs => ?_)
  have hc := formed_completed hs
  cases a with
  | strand n => exact yields_pure (formed_ite hc (formed_modCore hc ..))
  | courier n => exact yields_pure hc

end

section

variable {s : State}

theorem formed_execSvcRecv (h : Formed s) (d a : BitVec 5) : OutFormed (execSvcRecv d a s) := by
  refine formed_issue h _ (keeps_bind (keeps_getX _) fun va => keeps_bind (keeps_canonical ..) fun _ =>
    keeps_guard (keeps_bind (keeps_mailboxCheck _) fun t =>
    keeps_self_bind fun u => keeps_bind ?_ fun old => keeps_when keeps_stall fun _ => keeps_bind (keeps_mailboxSwap ..) fun won =>
      keeps_ite (keeps_setX ..) (keeps_bind (keeps_setSelf _) fun _ => keeps_stall)))
  split
  · exact keeps_pure _
  · exact keeps_mailboxWord _

theorem formed_execSvcResume (h : Formed s) (d a : BitVec 5) (c : BitVec 12) : OutFormed (execSvcResume d a c s) := by
  refine formed_issue h _ (keeps_bind keeps_waitAcks fun _ => keeps_bind (keeps_getX _) fun va => keeps_bind (keeps_getX _) fun v =>
    keeps_theAgent_bind fun ag =>
    keeps_bind (keeps_busySlot va) fun p => keeps_update fun s hs => formed_ite (formed_later hs _) (formed_ite ?_ (formed_sendRequest hs ..)))
  have hb := formed_clearBusy hs p.1 p.2.1
  split <;> simp only [*, servedState_ok, servedState_bad, servedState_busy] at hb
  · exact hb
  · exact hb
  · exact formed_later hb _

theorem formed_execSvcKill (h : Formed s) (a : BitVec 5) : OutFormed (execSvcKill a s) := by
  grind [execSvcKill, formed_issue, keeps_getX, keeps_theAgent_bind, keeps_busySlot, keeps_served, keeps_update, keeps_bind, !formed_clearBusy,
    !formed_later, !formed_sendRequest]

theorem formed_execReply (h : Formed s) (r : FaultReply) : OutFormed (execReply r s) := by
  grind [execReply, outFormed_event, !formed_deliverReply, !formed_acknowledge, !formed_clearBusy, !formed_later, servedState]

theorem formed_csrForm (h : Formed s) (n : BitVec 12) (xs : List (BitVec 5)) (write : Bool) (d : BitVec 5) {new : Nat → Exec Nat} (hnew : ∀ v,
    Keeps (new v)) :
    OutFormed (csrForm n xs write d new s) := by
  refine formed_issueState h _ (yields_bind keeps_theAgent fun a => yields_theState_bind fun s hs => ?_)
  split
  · exact yields_raise ..
  · refine yields_bind (hnew _) fun v => yields_when (keeps_csrStore ..) fun _ => yields_bind keeps_self fun t =>
      yields_bind (keeps_setX ..) fun _ => yields_theState_bind fun s hs => yields_pure ?_
    exact formed_ite (formed_modMe (formed_completed hs) _) (formed_completed hs)

theorem formed_execCsrr (h : Formed s) (d : BitVec 5) (n : BitVec 12) : OutFormed (execCsrr d n s) := formed_csrForm h _ _ _ _ fun _ => keeps_pure _

theorem formed_execCsrw (h : Formed s) (d a : BitVec 5) (n : BitVec 12) : OutFormed (execCsrw d a n s) := formed_csrForm h _ _ _ _ fun _ =>
    keeps_bind (keeps_getX _) fun _ => keeps_pure _

theorem formed_execCsrs (h : Formed s) (d a : BitVec 5) (n : BitVec 12) : OutFormed (execCsrs d a n s) := formed_csrForm h _ _ _ _ fun _ =>
    keeps_bind (keeps_getX _) fun _ => keeps_pure _

theorem formed_execCsrc (h : Formed s) (d a : BitVec 5) (n : BitVec 12) : OutFormed (execCsrc d a n s) := formed_csrForm h _ _ _ _ fun _ =>
    keeps_bind (keeps_getX _) fun _ => keeps_pure _

theorem formed_execGear (h : Formed s) (d : BitVec 5) (g : BitVec 1) : OutFormed (execGear d g s) := by
  grind [execGear, formed_issue, keeps_theAgent_bind, keeps_self_bind, keeps_setX, keeps_setSelf, keeps_update, keeps_bind, !formed_gearCheck]

/-- A SEND that its core holds leaves a formed state. -/
theorem sendArrives_formed (h : Formed s) {m : MsgTarget} {run : BitVec 32} {ctx : Option (BitVec 32)} {payload : Vec} {s1 : State}
    (hs : sendArrives s m run ctx payload = .held s1) : Formed s1 := by
  grind [sendArrives, !formed_modCore, !formed_landHeld]

theorem formed_execSend (h : Formed s) (d a b : BitVec 5) : OutFormed (execSend d a b s) := by
  refine formed_issue h _ (keeps_theAgent_bind fun ag => keeps_bind (keeps_getX _) fun w => keeps_bind (keeps_getX _) fun r =>
    keeps_bind (keeps_getV _) fun v =>
    keeps_self_bind fun t => keeps_theState_bind fun s hs => keeps_when keeps_illegalOperand fun _ => keeps_ite (keeps_raised (keeps_raised ?_)) ?_)
  · split
    · exact keeps_update fun _ _ => sendArrives_formed hs ‹_›
    · exact keeps_raise ..
    · exact keeps_stall
  · split
    · exact keeps_pure ()
    · exact keeps_raised (keeps_raised (keeps_ite keeps_stall (keeps_waitIn (formed_awaitRemote hs ..))))

theorem formed_execCourier (h : Formed s) (a b : BitVec 5) : OutFormed (execCourier a b s) := by
  refine formed_issue h _ (keeps_theAgent_bind fun ag => keeps_bind (keeps_getX _) fun w => keeps_bind (keeps_getX _) fun va =>
    keeps_self_bind fun t =>
    keeps_theState_bind fun s hs => keeps_bind (keeps_canonical ..) fun _ => keeps_guard (keeps_when keeps_illegalOperand fun _ =>
      keeps_guard (keeps_guard
      (keeps_bind (keeps_poolSound ..) fun _ => keeps_when keeps_illegalOperand fun _ => keeps_bind (keeps_namedBarrier _) fun _ =>
        keeps_ite ?_ ?_))))
  · exact keeps_raised (keeps_ite keeps_stall (keeps_update fun s hs => formed_inboxCourier hs ..))
  · exact keeps_raised (keeps_raised (keeps_update fun s hs => formed_sendRequest hs ..))

theorem formed_execBind (h : Formed s) (a b : BitVec 5) : OutFormed (execBind a b s) :=
  formed_issue h _ (keeps_theAgent_bind fun _ => keeps_bind (keeps_getX _) fun _ => keeps_bind (keeps_getX _) fun v =>
    keeps_when keeps_illegalOperand fun _ =>
    keeps_guard (keeps_bind (keeps_slotChecked v) fun _ => keeps_update fun _ hs => formed_wakeCore (formed_modCore hs ..) _))

theorem formed_execUnbind (h : Formed s) (b : BitVec 5) : OutFormed (execUnbind b s) := by
  grind [execUnbind, formed_issue, keeps_theAgent_bind, keeps_getX, keeps_slotChecked, keeps_update, keeps_bind, !formed_modCore]

theorem formed_execLaunch (h : Formed s) (d a b : BitVec 5) : OutFormed (execLaunch d a b s) :=
  formed_issue h _ (keeps_theAgent_bind fun _ => keeps_bind (keeps_getX _) fun va => keeps_bind (keeps_getX _) fun _ =>
    keeps_bind (keeps_namedBarrier _) fun _ =>
    keeps_bind (keeps_readRecord va) fun _ => keeps_theState_bind fun _ _ => keeps_ite (keeps_setX ..)
      (keeps_bind (keeps_served _ _ fun _ hs => formed_regionHeld hs ..) fun _ => keeps_ite (keeps_setX ..)
        (keeps_theState_bind fun _ hs => keeps_bind (keeps_update fun _ _ => formed_bindRun (formed_startRun hs ..) ..) fun _ => keeps_setX ..)))

theorem formed_execRelaunch (h : Formed s) (d a b : BitVec 5) (l : BitVec 8) : OutFormed (execRelaunch d a b l s) :=
  formed_issue h _ (keeps_theAgent_bind fun _ => keeps_bind (keeps_getX _) fun _ => keeps_bind (keeps_getX _) fun _ =>
    keeps_bind (keeps_namedBarrier _) fun _ =>
    keeps_theState_bind fun _ _ => keeps_ite (keeps_setX ..)
      (keeps_bind (keeps_update fun _ hs => formed_beginRelaunch hs ..) fun _ => keeps_setX ..))

theorem formed_execWbSkip (h : Formed s) (a b : BitVec 5) : OutFormed (execWbSkip a b s) := by
  grind [execWbSkip, formed_issue, keeps_theAgent_bind, keeps_getX, keeps_theState_bind, keeps_illegalOperand, keeps_setSelf, keeps_bind, keeps_pure]

theorem formed_execWbAll (h : Formed s) : OutFormed (execWbAll s) := by
  grind [execWbAll, formed_issue, keeps_theAgent_bind, keeps_theState_bind, keeps_setSelf, keeps_pure]

theorem formed_lightWord (h : Formed s) (form : Strand → Form) {body : Exec Unit} (hb : Keeps body) : OutFormed (lightWord form body s) :=
  formed_issueState h _ (yields_bind hb fun _ => yields_theState_bind fun _ hs => yields_pure (formed_noteIssue (formed_modMe hs _)))

theorem formed_execIll (h : Formed s) (_x : BitVec 26) : OutFormed (execIll _x s) := formed_issue h _ (keeps_pure ())

theorem formed_execXimm (h : Formed s) (p : BitVec 24) : OutFormed (execXimm p s) := formed_lightWord h _ (keeps_setSelf _)

theorem formed_execHintNop (h : Formed s) : OutFormed (execHintNop s) := formed_lightWord h _ (keeps_pure ())

theorem formed_execHintTaken (h : Formed s) (_t : BitVec 1) : OutFormed (execHintTaken _t s) := formed_lightWord h _ (keeps_pure ())

theorem formed_execHintSpin (h : Formed s) (_n : BitVec 8) : OutFormed (execHintSpin _n s) := formed_lightWord h _ (keeps_pure ())

theorem formed_execHintKeep (h : Formed s) : OutFormed (execHintKeep s) := formed_lightWord h _ (keeps_pure ())

theorem formed_execModFrm (h : Formed s) (r : BitVec 3) : OutFormed (execModFrm r s) := formed_lightWord h _ (keeps_setSelf _)

theorem formed_execModQsel (h : Formed s) (q : BitVec 4) : OutFormed (execModQsel q s) := formed_lightWord h _ (keeps_setSelf _)

/-! ### FeltOps -/

theorem formed_execFeltCommandExecute (h : Formed s) (k : Fin 8) : OutFormed (execFeltCommandExecute k s) := by
  grind [execFeltCommandExecute, outFormed_event, !formed_postSat, !formed_feltNext, !formed_awaitPhases, !formed_feltCfg, !formed_endHold,
    !formed_feltTable, !formed_feltRunCmd, !formed_cmdDone, !formed_feltHalt, !formed_sampleOver, !formed_later, !formed_beginConversion,
    !formed_popCmd, !formed_feltAnswer, !formed_feltRefused, !formed_modArray]

theorem formed_execFeltLoadEnd (h : Formed s) (k : Fin 8) : OutFormed (execFeltLoadEnd k s) := by
  unfold execFeltLoadEnd
  refine outFormed_event ?_
  repeat' split
  all_goals simp [h]

theorem formed_execSettleDetect (h : Formed s) (k : Fin 8) : OutFormed (execSettleDetect k s) := by
  grind [execSettleDetect, outFormed_event, !formed_endPhase]

theorem formed_execFeltRunmax (h : Formed s) (k : Fin 8) : OutFormed (execFeltRunmax k s) := by
  grind [execFeltRunmax, outFormed_event, !formed_later, !formed_endPhase]

theorem formed_execSettleTimeout (h : Formed s) (a : Agent) : OutFormed (execSettleTimeout a s) := by
  unfold execSettleTimeout
  refine outFormed_event ?_
  repeat' split
  all_goals simp [h]

theorem formed_execHoldTimeout (h : Formed s) (k : Fin 8) : OutFormed (execHoldTimeout k s) := by
  unfold execHoldTimeout
  refine outFormed_event ?_
  repeat' split
  all_goals simp [h]

theorem formed_execCalibration (h : Formed s) (k : Fin 8) : OutFormed (execCalibration k s) := by
  grind [execCalibration, outFormed_event, !formed_later, !formed_feltNext, !formed_modArray, !formed_calibrate]

theorem formed_execFeltSaturation (h : Formed s) (k : Fin 8) (summer : Bool) (element : Nat) : OutFormed (execFeltSaturation k summer element s) := by
  grind [execFeltSaturation, outFormed_event, !formed_endPhase, !formed_feltNext, !formed_idleCalibration, !formed_modArray, !formed_postSat]

theorem formed_execFeltConversion (h : Formed s) (k : Fin 8) : OutFormed (execFeltConversion k s) := by
  refine outFormed_event ?_
  dsimp only
  split
  · exact h
  · rename_i c _
    have hfinish {s : State} (hs : Formed s) : Formed (checkRun (feltNext (modArray (clearPieces s (feltUnit k.val)) k.val fun f =>
        { f with converting := none }) k.val) c.run) :=
      formed_checkRun (formed_feltNext (formed_modArray (formed_clearPieces hs _) ..) _) _
    split
    · split
      · refine formed_later ?_ _
        have hr := formed_replayed h c (getArray s k.val).record.fp
        split <;> simp only [*, servedState_ok, servedState_bad, servedState_busy] at hr
        · exact hr
        · exact hr
        · exact formed_modArray hr ..
      · refine formed_ite (hfinish (formed_sampleOver (formed_sampleFails h ..) ..)) ?_
        rename_i dst _ _ logged _
        have hr := formed_sampleStore h k.val c dst (getArray s k.val).record.bytes
        split <;> simp only [*, servedState_ok, servedState_bad, servedState_busy] at hr
        · exact formed_later hr _
        · exact hfinish (formed_sampleOver (formed_sampleFails hr ..) ..)
        · exact hfinish (formed_sampleOver (formed_sampleLands hr ..) ..)
    · exact formed_modArray h ..

theorem formed_execFeltCfg (h : Formed s) (a b : BitVec 5) (k : BitVec 3) (sl : BitVec 3) : OutFormed (execFeltCfg a b k sl s) :=
  formed_issue h _ (keeps_bind (keeps_feltNamed k) fun _ => keeps_bind (keeps_getX _) fun _ => keeps_bind (keeps_getX _) fun _ =>
    keeps_bind (keeps_canonical ..) fun _ =>
    keeps_guard (keeps_bind (keeps_feltTableAt ..) fun _ => keeps_bind (keeps_namedBarrier _) fun _ => keeps_feltIssue ..))

theorem formed_execFeltScale (h : Formed s) (a b : BitVec 5) (k : BitVec 3) (sl : BitVec 3) : OutFormed (execFeltScale a b k sl s) := by
  grind [execFeltScale, formed_issue, keeps_feltNamed, keeps_getX, keeps_theState_bind, keeps_feltTableAt, keeps_namedBarrier, keeps_feltIssue,
    keeps_bind]

theorem formed_execFeltIc (h : Formed s) (a b : BitVec 5) (k : BitVec 3) (sl : BitVec 3) : OutFormed (execFeltIc a b k sl s) := by
  grind [execFeltIc, formed_issue, keeps_feltNamed, keeps_getX, keeps_theState_bind, keeps_feltTableAt, keeps_namedBarrier, keeps_feltIssue,
    keeps_bind]

theorem formed_execFeltRun (h : Formed s) (b : BitVec 5) (k : BitVec 3) (sl : BitVec 3) : OutFormed (execFeltRun b k sl s) := by
  grind [execFeltRun, formed_issue, keeps_feltNamed, keeps_getX, keeps_namedBarrier, keeps_feltIssue, keeps_bind]

theorem formed_execFeltSettle (h : Formed s) (d a : BitVec 5) (k : BitVec 3) : OutFormed (execFeltSettle d a k s) := by
  grind [execFeltSettle, formed_issue, keeps_feltNamed, keeps_getX, keeps_self_bind, keeps_setX, keeps_feltIssue, keeps_setSelf, keeps_stall,
    keeps_bind]

theorem formed_execFeltSample (h : Formed s) (a b : BitVec 5) (k : BitVec 3) (g : BitVec 1) : OutFormed (execFeltSample a b k g s) := by
  have hissue (f : Nat) (va bar : Word) : Keeps (do
      namedBarrier bar
      feltIssue f (.sample (g = 1) va) bar
      setSelf (fun t => { t with buffer := { t.buffer with issued := t.buffer.issued + 1 } })) :=
    keeps_bind (keeps_namedBarrier _) fun _ => keeps_bind (keeps_feltIssue ..) fun _ => keeps_setSelf _
  refine formed_issue h _ (keeps_theAgent_bind fun ag => keeps_bind (keeps_feltNamed k) fun f => keeps_bind (keeps_getX _) fun va =>
    keeps_bind (keeps_getX _) fun bar =>
    keeps_theState_bind fun s hs => keeps_bind (keeps_canonical ..) fun _ => keeps_guard (keeps_ite (keeps_guard (hissue ..)) (keeps_guard
      (keeps_bind (keeps_spanRights ..) fun _ => hissue ..))))

theorem formed_execFeltHalt (h : Formed s) (k : BitVec 3) : OutFormed (execFeltHalt k s) := by
  grind [execFeltHalt, formed_issue, keeps_feltNamed, keeps_feltIssue, keeps_bind]

theorem formed_execFeltStat (h : Formed s) (d : BitVec 5) (k : BitVec 3) : OutFormed (execFeltStat d k s) := by
  grind [execFeltStat, formed_issue, keeps_feltNamed, keeps_self_bind, keeps_setX, keeps_feltIssue, keeps_setSelf, keeps_stall, keeps_bind]

/-! ### Queues -/

theorem formed_execPacketFetch (h : Formed s) (slot : Nat) (hostBytes : List Byte) : OutFormed (execPacketFetch slot hostBytes s) := by
  grind [execPacketFetch, outFormed_event, !formed_fetchMore, !formed_advanceHead, !formed_whenSlot, !formed_fetchStops, !formed_slotBytes,
    !formed_later, !formed_askAgain, !formed_slotRead, servedState]

theorem formed_execFetchReread (h : Formed s) (slot : Nat) (hostBytes : List Byte) : OutFormed (execFetchReread slot hostBytes s) := by
  grind [execFetchReread, outFormed_event, !formed_whenSlot, !formed_fetchStops, !formed_later, !formed_rereadDone, !formed_busSlot, !formed_modQueue]

theorem formed_execDoorbell (h : Formed s) (offset size : Nat) (pasid : Option (BitVec 20)) (value : Word)
    : OutFormed (execDoorbell offset size pasid value s) := by
  refine outFormed_event (formed_ite h (formed_ite (formed_queueRecord h ..) ?_))
  split
  · exact formed_queueRecord h ..
  · refine formed_whenReady h _ _ _ fun s hs => ?_
    split
    · exact formed_queueRecord hs ..
    · exact formed_ringQueue hs ..

theorem formed_execQueueCreate (h : Formed s) (v : Word) : OutFormed (execQueueCreate v s) := by
  grind [execQueueCreate, outFormed_event, !formed_qctlCommand, !formed_qctlResult, !formed_qcbWrite, Formed]

theorem formed_execQueueResume (h : Formed s) (v : Word) : OutFormed (execQueueResume v s) := by
  grind [execQueueResume, outFormed_event, !formed_qctlCommand, !formed_qctlResult, !formed_fetchMore, !formed_resumeSlice, !formed_qcbWrite]

theorem formed_execDestroy (h : Formed s) (v : Word) : OutFormed (execDestroy v s) := by
  refine outFormed_event ?_
  simp [h]

theorem formed_execDestroyKill (h : Formed s) (v : Word) : OutFormed (execDestroyKill v s) := by
  refine outFormed_event ?_
  simp [h]

theorem formed_execLaunchPacket (h : Formed s) (slot : Nat) : OutFormed (execLaunchPacket slot s) := by
  grind [execLaunchPacket, outFormed_event, !formed_whenSlot, !formed_ensureContext, !formed_later, !formed_launchPacket, !formed_packetEnds,
    servedState]

theorem formed_execRelaunchPacket (h : Formed s) (slot : Nat) : OutFormed (execRelaunchPacket slot s) := by
  grind [execRelaunchPacket, outFormed_event, !formed_withPacket, !formed_later, !formed_packetEnds, !formed_modPacket, !formed_beginRelaunch,
    !formed_dispatchEnded]

theorem formed_execDestroyPacket (h : Formed s) (slot : Nat) : OutFormed (execDestroyPacket slot s) := by
  grind [execDestroyPacket, outFormed_event, !formed_withPacket, !formed_packetEnds, !formed_whenReady, !formed_fetchMore, !formed_startDestroy,
    !formed_endDispatch]

theorem formed_execSignal (h : Formed s) (slot : Nat) : OutFormed (execSignal slot s) := by
  grind [execSignal, outFormed_event, !formed_withPacket, !formed_packetEnds]

theorem formed_execNopPacket (h : Formed s) (slot : Nat) : OutFormed (execNopPacket slot s) := by
  grind [execNopPacket, outFormed_event, !formed_withPacket, !formed_packetEnds]

theorem formed_execWaitmem (h : Formed s) (slot : Nat) : OutFormed (execWaitmem slot s) := by
  refine outFormed_event ?_
  simp [h]

theorem formed_execWaitmemPoll (h : Formed s) (slot : Nat) : OutFormed (execWaitmemPoll slot s) := by
  refine outFormed_event ?_
  simp [h]

theorem formed_execPacketCompletion (h : Formed s) (slot : Nat) : OutFormed (execPacketCompletion slot s) := by
  grind [execPacketCompletion, outFormed_event, !formed_drainCheck, !formed_modQueue, !formed_clearPieces, !formed_later, !formed_afterRecord,
    !formed_fetchMore, !formed_whenSlot, !formed_writeCompletion, !formed_faultRecord, servedState]

theorem formed_execQhctlWrite (h : Formed s) (v : Word) : OutFormed (execQhctlWrite v s) := by
  grind [execQhctlWrite, outFormed_event, Formed]

theorem formed_execCtxctlWrite (h : Formed s) (v : Word) : OutFormed (execCtxctlWrite v s) := by
  refine outFormed_event ?_
  simp [h]

theorem formed_execErrorRingSetup (h : Formed s) (toSize : Bool) (v : Word) : OutFormed (execErrorRingSetup toSize v s) := by
  refine outFormed_event ?_
  simp [h]

theorem formed_execStorageBlockWrite (h : Formed s) (part : Fin 8) (offset : Nat) (v : Word) : OutFormed (execStorageBlockWrite part offset v s) := by
  grind [execStorageBlockWrite, outFormed_event, Formed]

theorem formed_execPartcfgWrite (h : Formed s) (v : Word) : OutFormed (execPartcfgWrite v s) := by
  grind [execPartcfgWrite, outFormed_event, !formed_followTolerance, Formed]

/-! ### Sched -/

theorem formed_execMfwWrite (h : Formed s) (cluster : Nat) (v : Word) : OutFormed (execMfwWrite cluster v s) := by
  unfold execMfwWrite
  refine outFormed_event ?_
  repeat' split
  all_goals simp [h]

theorem formed_execBindRecordWrite (h : Formed s) (cluster slot offset : Nat) (bytes : List Byte)
    : OutFormed (execBindRecordWrite cluster slot offset bytes s) := by
  grind [execBindRecordWrite, outFormed_event, !formed_logRecord, !formed_regrant, !formed_setRecord, !formed_bindContext, !formed_later]

theorem formed_execBlockDispatch (h : Formed s) (cluster slot core : Nat) : OutFormed (execBlockDispatch cluster slot core s) := by
  grind [execBlockDispatch, outFormed_event, !formed_later, !formed_placeBlock]

theorem formed_execBlockActivation (h : Formed s) (n : Nat) : OutFormed (execBlockActivation n s) := by
  grind [execBlockActivation, outFormed_event, !formed_later, !formed_modCore, !formed_replayLog, !formed_checkRun, !formed_relaunchFails,
    !formed_startBlock, servedState]

theorem formed_execTriggerLatch (h : Formed s) (n : Nat) : OutFormed (execTriggerLatch n s) := by
  grind [execTriggerLatch, outFormed_event, !formed_askWake, !formed_modCore, !formed_gearCheck, Formed]

theorem formed_execCourierStart (h : Formed s) (core : Nat) : OutFormed (execCourierStart core s) := by
  unfold execCourierStart
  refine outFormed_event ?_
  repeat' split
  all_goals simp [h]

/-! ### Preempt -/

theorem formed_execCut (h : Formed s) (arg : BitVec 32) : OutFormed (execCut arg s) := by
  refine outFormed_event ?_
  split
  · exact formed_ite (formed_soon (formed_setCut (formed_recallInbox h ..) _) _) (formed_dspRefuse h)
  · rename_i run c _
    refine formed_ite h ?_
    have h0 := formed_recallInbox h run c
    dsimp only
    split
    · exact formed_ite (formed_setCut h0 _) (formed_later h0 _)
    · exact formed_later (removeHighest_formed h0 _ _ _ ‹_›) _

theorem formed_execDispatchResume (h : Formed s) (tile : Nat) : OutFormed (execDispatchResume tile s) := by
  refine outFormed_event ?_
  split
  · exact formed_ite (formed_soon (formed_setCut h _) _) (formed_dspRefuse h)
  · rename_i run c _
    refine formed_ite h ?_
    have hstep := resumeStep_formed h run tile
    split
    · exact formed_setCut h _
    · exact formed_later (hstep _ (.inl ‹_›)) _
    · exact formed_later (hstep _ (.inr ‹_›)) _

theorem formed_execHold (h : Formed s) (ctx : BitVec 32) : OutFormed (execHold ctx s) := by
  refine outFormed_event ?_
  simp [h]

theorem formed_execRelease (h : Formed s) (ctx : BitVec 32) : OutFormed (execRelease ctx s) := by
  refine outFormed_event ?_
  simp [h]

theorem formed_execFareEstimate (h : Formed s) (counted : Option (List FareEvent)) : OutFormed (execFareEstimate counted s) := by
  refine outFormed_event ?_
  have h0 : Formed (if counted.isSome then { s with felt := s.felt.map (fun f => { f with loaded := 0 }) } else s) := formed_ite h h
  have h1 := formed_foldl (fun s d hs => formed_debit hs d) ((counted.map (stepDebits s)).getD []) h0
  have h3 (l : List (BitVec 32)) := formed_removeHeld (formed_foldl (fun s c hs => formed_beginHold hs c) l h1)
  exact formed_ite (formed_later (h3 _) _) (h3 _)

theorem formed_execFgrant (h : Formed s) (v : Word) : OutFormed (execFgrant v s) := by
  refine outFormed_event ?_
  extract_lets acct s1 back s2
  have h1 : Formed s1 := h
  have h2 : Formed s2 := formed_foldl (fun s c hs => formed_releaseRecords (formed_stopBlocks (formed_modCtx hs ..) ..) _) _ h1
  exact formed_ite (formed_later (formed_resumeAll h2 _) _) (formed_resumeAll h2 _)

/-! ### Kill -/

theorem formed_execKill (h : Formed s) (ctx : BitVec 32) : OutFormed (execKill ctx s) := by
  refine outFormed_event ?_
  simp [h]

theorem formed_execKillFenceEnd (h : Formed s) (ctx : BitVec 32) : OutFormed (execKillFenceEnd ctx s) := by
  refine outFormed_event (formed_ite h (formed_ite (formed_later h _) ?_))
  extract_lets s1 s2 mine s3 c
  have h1 : Formed s1 := formed_clearTiles h ctx
  have h2 : Formed s2 := h1
  have h3 : Formed s3 := formed_foldl (fun s r hs => formed_killedPacket hs r.2) _ h2
  clear_value s3
  refine formed_destroysGoOn _ (formed_handOn (formed_regrant ?_))
  obtain ⟨hhbm, hstaging, htiles, hruns⟩ := h3
  exact ⟨hhbm, hstaging, htiles, fun e he => hruns e (List.mem_of_mem_filter he)⟩

theorem formed_execPartitionReset (h : Formed s) (mask : BitVec 8) : OutFormed (execPartitionReset mask s) :=
    outFormed_event (formed_foldl (fun _ p hs => formed_resetPartition hs p []) _ h)

theorem formed_execTimesliceExpiry (h : Formed s) (queues : List Nat) : OutFormed (execTimesliceExpiry queues s) := by
  refine outFormed_event ?_
  extract_lets hit recs s1 again
  have hrecs {s : State} (hs : Formed s) : Formed (recs s) := formed_foldl (fun s i hs => formed_queueRecord hs ..) _ hs
  have h1 : Formed s1 := hrecs (formed_foldl (fun s p hs => formed_resetPartition hs p hit) _ h)
  exact formed_ite h1 (formed_later h1 _)

theorem formed_execPartitionResetEnd (h : Formed s) (part : Fin 8) : OutFormed (execPartitionResetEnd part s) := by
  refine outFormed_event (formed_ite h (formed_ite (formed_later h _) ?_))
  extract_lets s1 host s2 s3
  have h1 : Formed s1 := formed_missWaiting h _
  have h2 : Formed s2 := h1
  have h3 : Formed s3 := formed_resetRecords h2
  refine formed_later (formed_foldl (fun s q hs => ?_) _ h3) _
  exact formed_ite (formed_fetchMore hs _) hs

/-! ### Fabric -/

theorem formed_execGoneClear (h : Formed s) (dev : Nat) : OutFormed (execGoneClear dev s) := by
  refine outFormed_event ?_
  have h1 : Formed { s with ostler := { s.ostler with gone := without s.ostler.gone dev } } := h
  exact formed_foldl (fun s c hs => formed_sendGenerations hs _ _) _ h1

theorem formed_execRequestTimeout (h : Formed s) (tag : Nat) : OutFormed (execRequestTimeout tag s) := by
  grind [execRequestTimeout, outFormed_event, !formed_later, !formed_makeGone, !formed_answered]

theorem formed_execRd (h : Formed s) (p : Packet) : OutFormed (execRd p s) := by
  grind [execRd, outFormed_event, !formed_fetchPacket, !formed_withRequest, !formed_depotRead, !formed_sendData, !formed_modDir, !formed_refuse,
    !formed_waitGranule, servedState]

theorem formed_execRdx (h : Formed s) (p : Packet) : OutFormed (execRdx p s) := by
  refine outFormed_event (formed_withRequest h _ _ _ fun s pa key hs => ?_)
  have hsettle := formed_settle hs (pa / 64) none
  dsimp only
  split <;> simp only [*, servedState_ok, servedState_bad, servedState_busy] at hsettle
  · exact formed_refuse hsettle ..
  · exact formed_waitGranule hsettle ..
  · rename_i s1 _
    have hinv := formed_invalidate hsettle (pa / 64) none
    split <;> simp only [*, servedState_ok, servedState_bad, servedState_busy] at hinv
    · exact formed_refuse hinv ..
    · exact formed_waitGranule hinv ..
    · have hread := formed_readSector hinv (pa / 64) key
      split <;> simp only [*, servedState_ok, servedState_bad, servedState_busy] at hread
      · exact formed_sendData (formed_markMaps (formed_modDir hread ..) ..) ..
      · exact formed_refuse hread ..
      · exact formed_waitGranule hread ..

theorem formed_execWr (h : Formed s) (p : Packet) : OutFormed (execWr p s) := by
  grind [execWr, outFormed_event, !formed_withRequest, !formed_depotWrite, !formed_acknowledge, !formed_apertureLanding, !formed_refuse,
    !formed_waitGranule, servedState]

theorem formed_execAmoPacket (h : Formed s) (p : Packet) : OutFormed (execAmoPacket p s) := by
  refine outFormed_event (formed_withRequest h _ _ _ fun s pa key hs => formed_ite (formed_acknowledge hs ..) ?_)
  dsimp only
  have hread := formed_depotRead hs (pa / 64) key
  split <;> simp only [*, servedState_ok, servedState_bad, servedState_busy] at hread
  · exact formed_refuse hread ..
  · exact formed_waitGranule hread ..
  · split
    · exact formed_acknowledge hread ..
    · rename_i s1 _ _ x _
      have hwrite := formed_depotWrite hread (pa / 64) key (granuleImage (pa % 64) (leBytes (fieldAt p.body 17 1) x)) (maskAt (pa % 64)
        (fieldAt p.body 17 1)) 0
      split <;> simp only [*, servedState_ok, servedState_bad, servedState_busy] at hwrite
      · exact formed_acknowledge hwrite ..
      · exact formed_refuse hwrite ..
      · exact formed_waitGranule hwrite ..

theorem formed_execWb (h : Formed s) (p : Packet) : OutFormed (execWb p s) := by
  grind [execWb, outFormed_event, !formed_withRequest, !formed_refuse, !formed_markMaps, !formed_writeSector, !formed_acknowledge,
    !formed_releaseWaiting, !formed_modDir]

theorem formed_execSnp (h : Formed s) (p : Packet) : OutFormed (execSnp p s) := by
  grind [execSnp, outFormed_event, !formed_refuseWord, !formed_replyTo, !formed_modPost, Formed]

theorem formed_execSnprsp (h : Formed s) (p : Packet) : OutFormed (execSnprsp p s) := by
  grind [execSnprsp, outFormed_event, !formed_refuseWord, !formed_believes, !formed_markMaps, !formed_writeSector, !formed_releaseWaiting,
    !formed_modDir, !formed_makeDerelict, !formed_sendRequest, Formed]

end

section

variable {s : State}

theorem formed_execSnoopTimeout (h : Formed s) (g : Nat) : OutFormed (execSnoopTimeout g s) := by
  grind [execSnoopTimeout, outFormed_event, !formed_later, !formed_makeDerelict, Formed]

theorem formed_execInv (h : Formed s) (p : Packet) : OutFormed (execInv p s) := by
  grind [execInv, outFormed_event, !formed_refuseWord, !formed_staleReads, !formed_acknowledge, Formed]

theorem formed_execDataPacket (h : Formed s) (p : Packet) : OutFormed (execDataPacket p s) := by
  unfold execDataPacket
  refine outFormed_event ?_
  repeat' split
  all_goals simp [h]

theorem formed_execAckPacket (h : Formed s) (p : Packet) : OutFormed (execAckPacket p s) := by
  unfold execAckPacket
  refine outFormed_event ?_
  repeat' split
  all_goals simp [h]

theorem formed_execTrinvRange (h : Formed s) (v : Word) : OutFormed (execTrinvRange v s) := by
  refine outFormed_event ?_
  simp [h]

theorem formed_execTrinvAll (h : Formed s) (v : Word) : OutFormed (execTrinvAll v s) := by
  refine outFormed_event ?_
  simp [h]

theorem formed_execTrinvGrants (h : Formed s) (v : Word) : OutFormed (execTrinvGrants v s) := by
  refine outFormed_event ?_
  simp [h]

theorem formed_execTrinvPacket (h : Formed s) (p : Packet) : OutFormed (execTrinvPacket p s) := by
  grind [execTrinvPacket, outFormed_event, !formed_later, !formed_acknowledge, !formed_trinvPart, Formed]

theorem formed_execGen (h : Formed s) (p : Packet) : OutFormed (execGen p s) := by
  refine outFormed_event ?_
  simp [h]

theorem formed_execCharge (h : Formed s) (p : Packet) : OutFormed (execCharge p s) := by
  refine outFormed_event (formed_acknowledge (formed_holdAccounts (formed_foldl (fun s k hs => formed_ite hs ?_) _ h) _) ..)
  exact hs

theorem formed_execChargeSend (h : Formed s) : OutFormed (execChargeSend s) := by
  refine outFormed_event ?_
  extract_lets devs s1
  have h1 : Formed s1 := formed_foldl (fun s d hs => formed_sendCharges hs ..) _ h
  exact h1

theorem formed_execNotice (h : Formed s) (p : Packet) : OutFormed (execNotice p s) := by
  grind [execNotice, outFormed_event, !formed_acknowledge, !formed_withTurn, !formed_depotWrite, !formed_refuse, !formed_waitGranule, servedState]

theorem formed_execSendPacket (h : Formed s) (p : Packet) : OutFormed (execSendPacket p s) := by
  refine outFormed_event (formed_ite (formed_refuse h ..) (formed_ite (formed_refuse h ..) ?_))
  split
  · exact formed_acknowledge (formed_charged (sendArrives_formed h ‹_›) _) ..
  · exact formed_refuse h ..
  · exact formed_later h _

theorem formed_execCourierPacket (h : Formed s) (p : Packet) : OutFormed (execCourierPacket p s) := by
  grind [execCourierPacket, outFormed_event, !formed_refuse, !formed_later, !formed_inboxCourier, !formed_charged]

theorem formed_execMsendPacket (h : Formed s) (p : Packet) : OutFormed (execMsendPacket p s) := by
  unfold execMsendPacket
  refine outFormed_event ?_
  repeat' split
  all_goals simp [h]

theorem formed_execDraywr (h : Formed s) (p : Packet) : OutFormed (execDraywr p s) := by
  refine outFormed_event (formed_withRequest h _ _ _ fun s pa key hs => formed_ite (formed_acknowledge hs ..)
    (formed_ite (formed_acknowledge hs ..) ?_))
  have hw := formed_andThen (formed_depotTakes hs true (numbersFrom (pa / 64) (fieldAt p.body 16 2 / 64))) fun _ s hs =>
    formed_drayGranules hs (pa / 64) key (p.body.drop 24) (fieldAt p.body 16 2 / 64)
  split <;> simp only [*, servedState_ok, servedState_bad, servedState_busy] at hw
  · exact formed_acknowledge hw ..
  · exact formed_refuse hw ..
  · exact formed_waitGranule hw ..

theorem formed_execKillPacket (h : Formed s) (p : Packet) : OutFormed (execKillPacket p s) := by
  refine outFormed_event ?_
  simp [h]

theorem formed_execReservedOpcode (h : Formed s) (p : Packet) : OutFormed (execReservedOpcode p s) := by
  unfold execReservedOpcode
  refine outFormed_event ?_
  repeat' split
  all_goals simp [h]

theorem formed_execPeek (h : Formed s) (keyid : BitVec 8) : OutFormed (execPeek keyid s) := by
  grind [execPeek, outFormed_event, !formed_depotRefuse, Formed]

theorem formed_execReclaimKeep (h : Formed s) : OutFormed (execReclaimKeep s) := by
  refine outFormed_event ?_
  simp [h]

theorem formed_execReclaimData (h : Formed s) (keyid : BitVec 8) : OutFormed (execReclaimData keyid s) := by
  grind [execReclaimData, outFormed_event, !formed_reclaim, !formed_writeSector]

theorem formed_execMigReread (h : Formed s) (a : Agent) : OutFormed (execMigReread a s) := by
  unfold execMigReread
  refine outFormed_event ?_
  repeat' split
  all_goals simp [h]

theorem formed_execPeerReadCompletion (h : Formed s) (a : Agent) (ok : Bool) (bytes : List Byte) : OutFormed (execPeerReadCompletion a ok bytes s) :=
    by
  refine outFormed_event ?_
  simp [h]

theorem formed_execPeerLoadTimeout (h : Formed s) (a : Agent) : OutFormed (execPeerLoadTimeout a s) := by
  refine outFormed_event ?_
  simp [h]

/-! ### Power -/

theorem formed_execGearRailSettled (h : Formed s) (tile : Nat) : OutFormed (execGearRailSettled tile s) := by
  grind [execGearRailSettled, outFormed_event, !formed_gearCheck, !formed_resumeTile, !formed_modTile, tile_formed, = tileFormed_iff]

theorem formed_execL2RailLower (h : Formed s) (cluster : Nat) : OutFormed (execL2RailLower cluster s) := by
  refine outFormed_event (formed_ite h ?_)
  exact formed_modCluster (formed_foldl (fun s l hs => formed_evictLine hs l) _ h) ..

theorem formed_execL2RailRisen (h : Formed s) (cluster : Nat) : OutFormed (execL2RailRisen cluster s) := by
  unfold execL2RailRisen
  refine outFormed_event ?_
  repeat' split
  all_goals simp [h]

theorem formed_execPark (h : Formed s) (tile : Nat) : OutFormed (execPark tile s) := by
  unfold execPark
  refine outFormed_event ?_
  repeat' split
  all_goals simp [h]

theorem formed_execWake (h : Formed s) (tile : Nat) : OutFormed (execWake tile s) := by
  grind [execWake, outFormed_event, !formed_modTile, !formed_later, !formed_modCluster, !formed_beginChange, tile_formed, = tileFormed_iff]

theorem formed_execLattolWrite (h : Formed s) (part : Fin 8) (v : Word) : OutFormed (execLattolWrite part v s) := by
  refine outFormed_event ?_
  simp [h]

theorem formed_execDragStep (h : Formed s) (cluster : Nat) : OutFormed (execDragStep cluster s) :=
  outFormed_event (formed_foldl (fun _ t hs => formed_idleCheck hs t) _ (formed_later (formed_modCluster h ..) _))

theorem formed_execClockMaskAdjust (h : Formed s) (cluster powerW : Nat) (hot : Bool) : OutFormed (execClockMaskAdjust cluster powerW hot s) := by
  refine outFormed_event ?_
  simp [h]

theorem formed_execTimingReplay (h : Formed s) (tile : Nat) : OutFormed (execTimingReplay tile s) := by
  grind [execTimingReplay, outFormed_event, !formed_modDie, !formed_modTile, tile_formed, = tileFormed_iff]

theorem formed_execHealthWindow (h : Formed s) (cycles : List (Nat × Nat × Nat)) : OutFormed (execHealthWindow cycles s) := by
  refine outFormed_event (formed_later ?_ _)
  obtain ⟨hhbm, hstaging, htiles, hruns⟩ := h
  exact ⟨hhbm, hstaging, List.forall_mem_map.mpr fun t ht => htiles t ht, hruns⟩

/-! ### Links -/

theorem formed_execDataFlit (h : Formed s) (p : Fin 36) (raw : List Byte) : OutFormed (execDataFlit p raw s) := by
  grind [execDataFlit, outFormed_event, !formed_withFlit, !formed_later, !formed_takePayload, !formed_setPort, !formed_sendNak]

theorem formed_execIdleFlit (h : Formed s) (p : Fin 36) (raw : List Byte) : OutFormed (execIdleFlit p raw s) := by
  refine outFormed_event ?_
  simp [h]

theorem formed_execAckFlit (h : Formed s) (p : Fin 36) (raw : List Byte) : OutFormed (execAckFlit p raw s) := by
  refine outFormed_event ?_
  simp [h]

theorem formed_execAckTimer (h : Formed s) (p : Fin 36) : OutFormed (execAckTimer p s) := by
  grind [execAckTimer, outFormed_event, !formed_later, !formed_plainFlit]

theorem formed_execNakHoldoffExpiry (h : Formed s) (p : Fin 36) : OutFormed (execNakHoldoffExpiry p s) := by
  refine outFormed_event ?_
  simp [h]

theorem formed_execClassOHoldEnd (h : Formed s) (dest : Nat) : OutFormed (execClassOHoldEnd dest s) := by
  refine outFormed_event ?_
  extract_lets s0
  have h0 : Formed s0 := formed_dropOldTransit h
  refine formed_ite h0 (formed_ite (formed_later h0 _) (formed_ite ?_ (formed_later ?_ _))) <;>
    exact formed_foldl (fun s x hs => formed_sendHeld hs x) _ h0

theorem formed_execNoticeRecord (h : Formed s) (p : Fin 36) : OutFormed (execNoticeRecord p s) := by
  refine outFormed_event ?_
  split
  · exact h
  · rename_i n _
    refine formed_ite (formed_later h _) ?_
    dsimp only
    generalize n.todo.getD (s.link.noticeSeq, [s.link.noticeA, s.link.noticeB]) = todo
    obtain ⟨seq, addrs⟩ := todo
    have hr : Formed (addrs.foldl (writeNoticeTo n (noticeBytes s n seq)) (s, [])).1 :=
      List.foldlRecOn (motive := fun acc : State × List Word => Formed acc.1) _ _ h fun acc hacc a _ => formed_writeNoticeTo _ _ hacc a
    dsimp only
    generalize addrs.foldl (writeNoticeTo n (noticeBytes s n seq)) (s, []) = r at hr ⊢
    refine formed_ite ?_ (formed_later ?_ _) <;> exact hr

theorem formed_execNakFlit (h : Formed s) (p : Fin 36) (raw : List Byte) : OutFormed (execNakFlit p raw s) := by
  grind [execNakFlit, outFormed_event, !formed_withFlit, !formed_replayOrFail]

theorem formed_execReplayTimeout (h : Formed s) (p : Fin 36) : OutFormed (execReplayTimeout p s) := by
  grind [execReplayTimeout, outFormed_event, !formed_later, !formed_replayOrFail]

theorem formed_execLinkRetryBound (h : Formed s) (p : Fin 36) : OutFormed (execLinkRetryBound p s) := by
  grind [execLinkRetryBound, outFormed_event, !formed_failPort, !formed_later]

theorem formed_execTrainingTimeout (h : Formed s) (p : Fin 36) : OutFormed (execTrainingTimeout p s) :=
  outFormed_event (formed_ite h (formed_ite (formed_failPort h ..) (formed_later h _)))

theorem formed_execPartnerReset (h : Formed s) (p : Fin 36) : OutFormed (execPartnerReset p s) := by
  unfold execPartnerReset
  refine outFormed_event ?_
  repeat' split
  all_goals simp [h]

theorem formed_execTrainFlit (h : Formed s) (p : Fin 36) (raw : List Byte) : OutFormed (execTrainFlit p raw s) := by
  grind [execTrainFlit, outFormed_event, !formed_startTraining, !formed_trainWith, !formed_startRetrain]

theorem formed_execLockAcquired (h : Formed s) (p : Fin 36) (lanes : BitVec 16) : OutFormed (execLockAcquired p lanes s) := by
  grind [execLockAcquired, outFormed_event, !formed_sendTrain, !formed_setPort]

theorem formed_execLossOfLock (h : Formed s) (p : Fin 36) (lane : Nat) : OutFormed (execLossOfLock p lane s) := by
  grind [execLossOfLock, outFormed_event, !formed_failPort, !formed_retrainWithout, !formed_startRetrain]

theorem formed_execWearingLaneReplace (h : Formed s) (p : Fin 36) (lane : Nat) : OutFormed (execWearingLaneReplace p lane s) := by
  grind [execWearingLaneReplace, outFormed_event, !formed_later, !formed_startRetrain]

theorem formed_execPortDisable (h : Formed s) (p : Fin 36) : OutFormed (execPortDisable p s) := by
  refine outFormed_event ?_
  simp [h]

theorem formed_execPortTrain (h : Formed s) (p : Fin 36) : OutFormed (execPortTrain p s) := by
  refine outFormed_event ?_
  simp [h]

theorem formed_execPortReset (h : Formed s) (p : Fin 36) : OutFormed (execPortReset p s) := by
  refine outFormed_event ?_
  simp [h]

theorem formed_execSwreq (h : Formed s) : OutFormed (execSwreq s) := by
  refine outFormed_event ?_
  simp [h]

theorem formed_execBankSwitch (h : Formed s) : OutFormed (execBankSwitch s) := by
  grind [execBankSwitch, outFormed_event, !formed_changeRoutes, !formed_later, Formed]

theorem formed_execRoutingBankWrite (h : Formed s) (off : Nat) (v : Word) : OutFormed (execRoutingBankWrite off v s) := by
  unfold execRoutingBankWrite
  refine outFormed_event ?_
  repeat' split
  all_goals simp [h]

theorem formed_execDevnumWrite (h : Formed s) (v : Word) : OutFormed (execDevnumWrite v s) := by
  refine outFormed_event ?_
  simp [h]

theorem formed_execTransitPacket (h : Formed s) (port : Fin 36) (p : Packet) : OutFormed (execTransitPacket port p s) := by
  grind [execTransitPacket, outFormed_event, !formed_reject, !formed_setPort, !formed_soon, !formed_sendPacket, !formed_transitEnded]

theorem formed_execMgmt (h : Formed s) (p : Packet) : OutFormed (execMgmt p s) :=
  outFormed_event (formed_ite (formed_acknowledge h ..) (formed_ite (formed_acknowledge h ..)
    (formed_acknowledge (formed_foldl (fun _ _ hs => formed_linkWrite hs ..) _ h) ..)))

theorem formed_execRegisterWrite (h : Formed s) (window : RegWindow) (off : Nat) (v : Word) : OutFormed (execRegisterWrite window off v s) := by
  unfold execRegisterWrite
  refine outFormed_event ?_
  repeat' split
  all_goals simp [h]

/-! ### Boot -/

theorem formed_execPpsEdge (h : Formed s) : OutFormed (execPpsEdge s) := by
  refine outFormed_event ?_
  simp [h]

theorem formed_execTimeOfDayMessage (h : Formed s) (seconds : Nat) : OutFormed (execTimeOfDayMessage seconds s) := by
  refine outFormed_event ?_
  simp [h]

theorem formed_execJunctionThrottle (h : Formed s) (source : Nat) : OutFormed (execJunctionThrottle source s) :=
    outFormed_event (formed_logRecord (formed_foldl (fun _ _ hs => formed_modCluster hs ..) _ h) _)

theorem formed_execJunctionShutdown (h : Formed s) (source : Nat) : OutFormed (execJunctionShutdown source s) :=
    outFormed_event (formed_logRecord (formed_foldl (fun _ _ hs => formed_resetPartition hs ..) _ h) _)

theorem formed_execWearTrigger (h : Formed s) (w : Wear) : OutFormed (execWearTrigger w s) := by
  refine outFormed_event (formed_ite h ?_)
  split
  · split
    · exact formed_soon h _
    · exact h
  · exact formed_soon (formed_modMgmt h _ (staging_wf h)) _

theorem formed_execSpareSwap (h : Formed s) (w : Wear) : OutFormed (execSpareSwap w s) := by
  grind [execSpareSwap, outFormed_event, !formed_later, !formed_spareRecordOf, !formed_modMgmt, !formed_swapTile, !formed_swapRow,
    !formed_swapChannel, !formed_swapColumn, staging_wf]

theorem formed_execRoleMove (h : Formed s) (die pos : Nat) : OutFormed (execRoleMove die pos s) := by
  grind [execRoleMove, outFormed_event, !formed_moveRoles]

theorem formed_execPackageReset (s : State) (strapHigh : Bool) : OutFormed (execPackageReset strapHigh s) := by
  grind [execPackageReset, outFormed_event, !formed_resetPackage, !formed_bootFrom2, !formed_enterRecovery, !formed_modMgmt, staging_wf]

theorem formed_execChunk (h : Formed s) (cmd : Word) (mctp : Option (List Byte)) : OutFormed (execChunk cmd mctp s) := by
  grind [execChunk, outFormed_event, !formed_mgmtCommand, !formed_mgmtResult, !formed_discardImage, !formed_modMgmt, staging_wf]

theorem formed_execCommit (h : Formed s) (cmd : Word) : OutFormed (execCommit cmd s) := by
  grind [execCommit, outFormed_event, !formed_mgmtCommand, !formed_discardImage, !formed_securityRecord, !formed_mgmtResult, !formed_commitPatch,
    !formed_modMgmt, staging_wf]

theorem formed_execHotPatchApply (h : Formed s) : OutFormed (execHotPatchApply s) :=
  outFormed_event (formed_ite h (formed_ite (formed_patchEnds h _) (formed_ite (formed_later (s := { s with free := s.free + 1 }) h [.hotPatchApply])
    (formed_patchEnds (formed_modMgmt (s := { s with free := s.free + 1 }) h _ (staging_wf h)) _))))

theorem formed_execPatchTimeout (h : Formed s) : OutFormed (execPatchTimeout s) := by
  unfold execPatchTimeout
  refine outFormed_event ?_
  repeat' split
  all_goals simp [h]

theorem formed_execAttest (h : Formed s) (mctpNonce : Option (List Byte)) : OutFormed (execAttest mctpNonce s) := by
  refine outFormed_event (formed_mgmtCommand h _ fun s hs => ?_)
  split
  · exact formed_mgmtResult (formed_modMgmt hs _ (staging_wf hs)) _
  · exact formed_mgmtResult (formed_modMgmt hs _ (memWrite_wf _ _ _ (staging_wf hs))) _

theorem formed_execReboot (h : Formed s) : OutFormed (execReboot s) :=
  outFormed_event (formed_mgmtCommand h _ fun _ hs => formed_bootFrom2 (formed_foldl (fun _ _ hs => formed_resetPartition hs ..) _
    (formed_dropHostPort (formed_securityRecord (formed_mgmtResult hs _) _))))

theorem formed_execAbort (h : Formed s) : OutFormed (execAbort s) := by
  grind [execAbort, outFormed_event, !formed_mgmtCommand, !formed_mgmtResult, !formed_discardImage]

/-! ### HostPort -/

theorem formed_execBar4Read (h : Formed s) (offset length : Nat) : OutFormed (execBar4Read offset length s) := by
  grind [execBar4Read, outFormed_event, !formed_hostAccess, !formed_devRead, !formed_clearPieces, !formed_faultRecord, !formed_bar4Again,
    servedState, Formed]

theorem formed_execBar4Write (h : Formed s) (offset : Nat) (bytes : List Byte) (relaxed : Bool) : OutFormed (execBar4Write offset bytes relaxed s) :=
    by
  grind [execBar4Write, outFormed_event, !formed_putBefore, !formed_hostAccess, !formed_engineStores, !formed_clearPieces, !formed_faultRecord,
    !formed_bar4Again, servedState, Formed]

/-! ### Coaches -/

theorem formed_execCoach (h : Formed s) (slot : Nat) : OutFormed (execCoach slot s) := by
  grind [execCoach, outFormed_event, !formed_coachBegun, !formed_whenSlot, !formed_coachStep]

theorem formed_execCarriagePiece (h : Formed s) (coach index offset : Nat) (bytes : List Byte)
    : OutFormed (execCarriagePiece coach index offset bytes s) := by
  grind [execCarriagePiece, outFormed_event, !formed_withCarriage, !formed_withFlag, !formed_fetchGoesOn, !formed_peerGranule, !formed_ctxRights,
    !formed_engineStores, !formed_later, !formed_fetchFails, !formed_clearPieces, !formed_modCarriage, !formed_fillStashes, !formed_flagPut,
    servedState]

theorem formed_execCarriageFetchFail (h : Formed s) (coach index : Nat) (code : BitVec 7) : OutFormed (execCarriageFetchFail coach index code s) := by
  grind [execCarriageFetchFail, outFormed_event, !formed_withCarriage, !formed_withFlag, !formed_fetchFails]

theorem formed_execEviction (h : Formed s) (coach index : Nat) : OutFormed (execEviction coach index s) := by
  grind [execEviction, outFormed_event, !formed_withCarriage, !formed_flagsReady, !formed_later, !formed_flagPut, servedState]

theorem formed_execCarriageEvicted (h : Formed s) (coach index : Nat) : OutFormed (execCarriageEvicted coach index s) := by
  grind [execCarriageEvicted, outFormed_event, !formed_withCarriage, !formed_withFlag, !formed_modCarriage, !formed_flagPut]

end

end Sys2Proof.Machine
end

section
/-!
PROOFS. Every step keeps the form of the memories (O59).
-/
namespace Sys2Proof.Machine

section

variable {s : State}

/-! ### Dispatch -/

theorem formed_exec (h : Formed s) (i : Instr) : OutFormed (exec i s) := by
  cases i with
  | packageReset => exact formed_execPackageReset ..
  | ppsEdge => exact formed_execPpsEdge h ..
  | timeOfDayMessage => exact formed_execTimeOfDayMessage h ..
  | junctionThrottle => exact formed_execJunctionThrottle h ..
  | junctionShutdown => exact formed_execJunctionShutdown h ..
  | wearTrigger => exact formed_execWearTrigger h ..
  | spareSwap => exact formed_execSpareSwap h ..
  | roleMove => exact formed_execRoleMove h ..
  | lossOfLock => exact formed_execLossOfLock h ..
  | healthWindow => exact formed_execHealthWindow h ..
  | timingReplay => exact formed_execTimingReplay h ..
  | idleFlit => exact formed_execIdleFlit h ..
  | dataFlit => exact formed_execDataFlit h ..
  | ackFlit => exact formed_execAckFlit h ..
  | nakFlit => exact formed_execNakFlit h ..
  | trainFlit => exact formed_execTrainFlit h ..
  | replayTimeout => exact formed_execReplayTimeout h ..
  | ackTimer => exact formed_execAckTimer h ..
  | nakHoldoffExpiry => exact formed_execNakHoldoffExpiry h ..
  | linkRetryBound => exact formed_execLinkRetryBound h ..
  | trainingTimeout => exact formed_execTrainingTimeout h ..
  | partnerReset => exact formed_execPartnerReset h ..
  | noticeRecord => exact formed_execNoticeRecord h ..
  | classOHoldEnd => exact formed_execClassOHoldEnd h ..
  | portDisable => exact formed_execPortDisable h ..
  | portTrain => exact formed_execPortTrain h ..
  | portReset => exact formed_execPortReset h ..
  | swreq => exact formed_execSwreq h ..
  | bankSwitch => exact formed_execBankSwitch h ..
  | routingBankWrite => exact formed_execRoutingBankWrite h ..
  | devnumWrite => exact formed_execDevnumWrite h ..
  | transitPacket => exact formed_execTransitPacket h ..
  | rd => exact formed_execRd h ..
  | rdx => exact formed_execRdx h ..
  | wr => exact formed_execWr h ..
  | amoPacket => exact formed_execAmoPacket h ..
  | wb => exact formed_execWb h ..
  | snp => exact formed_execSnp h ..
  | snprsp => exact formed_execSnprsp h ..
  | dataPacket => exact formed_execDataPacket h ..
  | ackPacket => exact formed_execAckPacket h ..
  | inv => exact formed_execInv h ..
  | trinvPacket => exact formed_execTrinvPacket h ..
  | gen => exact formed_execGen h ..
  | charge => exact formed_execCharge h ..
  | mgmt => exact formed_execMgmt h ..
  | notice => exact formed_execNotice h ..
  | sendPacket => exact formed_execSendPacket h ..
  | courierPacket => exact formed_execCourierPacket h ..
  | msendPacket => exact formed_execMsendPacket h ..
  | draywr => exact formed_execDraywr h ..
  | killPacket => exact formed_execKillPacket h ..
  | reply => exact formed_execReply h ..
  | reservedOpcode => exact formed_execReservedOpcode h ..
  | requestTimeout => exact formed_execRequestTimeout h ..
  | goneClear => exact formed_execGoneClear h ..
  | chargeSend => exact formed_execChargeSend h ..
  | snoopTimeout => exact formed_execSnoopTimeout h ..
  | peek => exact formed_execPeek h ..
  | reclaimKeep => exact formed_execReclaimKeep h ..
  | reclaimData => exact formed_execReclaimData h ..
  | doorbell => exact formed_execDoorbell h ..
  | queueCreate => exact formed_execQueueCreate h ..
  | destroy => exact formed_execDestroy h ..
  | destroyKill => exact formed_execDestroyKill h ..
  | queueResume => exact formed_execQueueResume h ..
  | packetFetch => exact formed_execPacketFetch h ..
  | fetchReread => exact formed_execFetchReread h ..
  | launchPacket => exact formed_execLaunchPacket h ..
  | relaunchPacket => exact formed_execRelaunchPacket h ..
  | coach => exact formed_execCoach h ..
  | destroyPacket => exact formed_execDestroyPacket h ..
  | signal => exact formed_execSignal h ..
  | waitmem => exact formed_execWaitmem h ..
  | waitmemPoll => exact formed_execWaitmemPoll h ..
  | nopPacket => exact formed_execNopPacket h ..
  | packetCompletion => exact formed_execPacketCompletion h ..
  | timesliceExpiry => exact formed_execTimesliceExpiry h ..
  | partitionReset => exact formed_execPartitionReset h ..
  | partcfgWrite => exact formed_execPartcfgWrite h ..
  | qhctlWrite => exact formed_execQhctlWrite h ..
  | ctxctlWrite => exact formed_execCtxctlWrite h ..
  | errorRingSetup => exact formed_execErrorRingSetup h ..
  | storageBlockWrite => exact formed_execStorageBlockWrite h ..
  | bar4Read => exact formed_execBar4Read h ..
  | bar4Write => exact formed_execBar4Write h ..
  | peerLoadTimeout => exact formed_execPeerLoadTimeout h ..
  | chunk => exact formed_execChunk h ..
  | commit => exact formed_execCommit h ..
  | attest => exact formed_execAttest h ..
  | reboot => exact formed_execReboot h ..
  | abort => exact formed_execAbort h ..
  | hotPatchApply => exact formed_execHotPatchApply h ..
  | patchTimeout => exact formed_execPatchTimeout h ..
  | bindRecordWrite => exact formed_execBindRecordWrite h ..
  | blockDispatch => exact formed_execBlockDispatch h ..
  | blockActivation => exact formed_execBlockActivation h ..
  | mfwWrite => exact formed_execMfwWrite h ..
  | cut => exact formed_execCut h ..
  | dispatchResume => exact formed_execDispatchResume h ..
  | kill => exact formed_execKill h ..
  | killFenceEnd => exact formed_execKillFenceEnd h ..
  | hold => exact formed_execHold h ..
  | release => exact formed_execRelease h ..
  | fareEstimate => exact formed_execFareEstimate h ..
  | fgrant => exact formed_execFgrant h ..
  | trinvRange => exact formed_execTrinvRange h ..
  | trinvAll => exact formed_execTrinvAll h ..
  | trinvGrants => exact formed_execTrinvGrants h ..
  | migReread => exact formed_execMigReread h ..
  | gearRailSettled => exact formed_execGearRailSettled h ..
  | l2RailLower => exact formed_execL2RailLower h ..
  | park => exact formed_execPark h ..
  | wake => exact formed_execWake h ..
  | lattolWrite => exact formed_execLattolWrite h ..
  | dragStep => exact formed_execDragStep h ..
  | clockMaskAdjust => exact formed_execClockMaskAdjust h ..
  | triggerLatch => exact formed_execTriggerLatch h ..
  | courierStart => exact formed_execCourierStart h ..
  | matrixCommandStart => exact formed_execMatrixCommandStart h ..
  | kStep => exact formed_execKStep h ..
  | draySegment => exact formed_execDraySegment h ..
  | drayApertureStart => exact formed_execDrayApertureStart h ..
  | storageCompletion => exact formed_execStorageCompletion h ..
  | storageTimeout => exact formed_execStorageTimeout h ..
  | streamTransfer => exact formed_execStreamTransfer h ..
  | feltCommandExecute => exact formed_execFeltCommandExecute h ..
  | feltLoadEnd => exact formed_execFeltLoadEnd h ..
  | settleDetect => exact formed_execSettleDetect h ..
  | feltRunmax => exact formed_execFeltRunmax h ..
  | feltSaturation => exact formed_execFeltSaturation h ..
  | holdTimeout => exact formed_execHoldTimeout h ..
  | feltConversion => exact formed_execFeltConversion h ..
  | calibration => exact formed_execCalibration h ..
  | carriagePiece => exact formed_execCarriagePiece h ..
  | carriageFetchFail => exact formed_execCarriageFetchFail h ..
  | eviction => exact formed_execEviction h ..
  | relaunchRound => exact formed_execRelaunchRound h ..
  | registerWrite => exact formed_execRegisterWrite h ..
  | settleTimeout => exact formed_execSettleTimeout h ..
  | peerReadCompletion => exact formed_execPeerReadCompletion h ..
  | partitionResetEnd => exact formed_execPartitionResetEnd h ..
  | matrixCommandEnd => exact formed_execMatrixCommandEnd h ..
  | carriageEvicted => exact formed_execCarriageEvicted h ..
  | l2RailRisen => exact formed_execL2RailRisen h ..
  | wearingLaneReplace => exact formed_execWearingLaneReplace h ..
  | lockAcquired => exact formed_execLockAcquired h ..
  | ill x => exact formed_execIll h x
  | add => exact formed_binary h ..
  | sub => exact formed_binary h ..
  | and => exact formed_binary h ..
  | or => exact formed_binary h ..
  | xor => exact formed_binary h ..
  | andn => exact formed_binary h ..
  | sll => exact formed_binary h ..
  | srl => exact formed_binary h ..
  | sra => exact formed_binary h ..
  | slt => exact formed_binary h ..
  | sltu => exact formed_binary h ..
  | min => exact formed_binary h ..
  | max => exact formed_binary h ..
  | minu => exact formed_binary h ..
  | maxu => exact formed_binary h ..
  | clz => exact formed_unary h ..
  | ctz => exact formed_unary h ..
  | popc => exact formed_unary h ..
  | mul => exact formed_binary h ..
  | mulh => exact formed_binary h ..
  | mulhu => exact formed_binary h ..
  | mulhsu => exact formed_binary h ..
  | div => exact formed_binary h ..
  | divu => exact formed_binary h ..
  | rem => exact formed_binary h ..
  | remu => exact formed_binary h ..
  | addi => exact formed_immediate h ..
  | andi => exact formed_immediate h ..
  | ori => exact formed_immediate h ..
  | xori => exact formed_immediate h ..
  | slli => exact formed_shiftImm h ..
  | srli => exact formed_shiftImm h ..
  | srai => exact formed_shiftImm h ..
  | slti => exact formed_execSlti h ..
  | sltiu => exact formed_execSltiu h ..
  | lui => exact formed_execLui h ..
  | auipc => exact formed_execAuipc h ..
  | ldx => exact formed_execLdx h ..
  | fadd => exact formed_fbinary h ..
  | fsub => exact formed_fbinary h ..
  | fmul => exact formed_fbinary h ..
  | fdiv => exact formed_fbinary h ..
  | fsqrt => exact formed_execFsqrt h ..
  | fmin => exact formed_execFmin h ..
  | fmax => exact formed_execFmax h ..
  | fsgnj => exact formed_execFsgnj h ..
  | fsgnjn => exact formed_execFsgnjn h ..
  | fsgnjx => exact formed_execFsgnjx h ..
  | feq => exact formed_fbinary h ..
  | flt => exact formed_fbinary h ..
  | fle => exact formed_fbinary h ..
  | fmadd => exact formed_fternary h ..
  | fmsub => exact formed_fternary h ..
  | fnmadd => exact formed_fternary h ..
  | fnmsub => exact formed_fternary h ..
  | fcvt => exact formed_execFcvt h ..
  | fclass => exact formed_execFclass h ..
  | beq => exact formed_branch h ..
  | bne => exact formed_branch h ..
  | blt => exact formed_branch h ..
  | bge => exact formed_branch h ..
  | bltu => exact formed_branch h ..
  | bgeu => exact formed_branch h ..
  | bmany => exact formed_branchMask h ..
  | bmnone => exact formed_branchMask h ..
  | jal => exact formed_execJal h ..
  | jalr => exact formed_execJalr h ..
  | sysc => exact formed_execSysc h ..
  | brk => exact formed_execBrk h ..
  | exit => exact formed_execExit h ..
  | yield => exact formed_execYield h ..
  | svcRecv => exact formed_execSvcRecv h ..
  | svcResume => exact formed_execSvcResume h ..
  | svcKill => exact formed_execSvcKill h ..
  | csrr => exact formed_execCsrr h ..
  | csrw => exact formed_execCsrw h ..
  | csrs => exact formed_execCsrs h ..
  | csrc => exact formed_execCsrc h ..
  | gear => exact formed_execGear h ..
  | send => exact formed_execSend h ..
  | courier => exact formed_execCourier h ..
  | bind => exact formed_execBind h ..
  | unbind => exact formed_execUnbind h ..
  | launch => exact formed_execLaunch h ..
  | relaunch => exact formed_execRelaunch h ..
  | wbSkip => exact formed_execWbSkip h ..
  | wbAll => exact formed_execWbAll h ..
  | vadd => exact formed_execVadd h ..
  | vsub => exact formed_execVsub h ..
  | vand => exact formed_execVand h ..
  | vor => exact formed_execVor h ..
  | vxor => exact formed_execVxor h ..
  | vandn => exact formed_execVandn h ..
  | vsll => exact formed_execVsll h ..
  | vsrl => exact formed_execVsrl h ..
  | vsra => exact formed_execVsra h ..
  | vmin => exact formed_execVmin h ..
  | vmax => exact formed_execVmax h ..
  | vminu => exact formed_execVminu h ..
  | vmaxu => exact formed_execVmaxu h ..
  | vmul => exact formed_execVmul h ..
  | vmulh => exact formed_execVmulh h ..
  | vmulhu => exact formed_execVmulhu h ..
  | vsadd => exact formed_execVsadd h ..
  | vsaddu => exact formed_execVsaddu h ..
  | vssub => exact formed_execVssub h ..
  | vssubu => exact formed_execVssubu h ..
  | vfadd => exact formed_execVfadd h ..
  | vfsub => exact formed_execVfsub h ..
  | vfmul => exact formed_execVfmul h ..
  | vfdiv => exact formed_execVfdiv h ..
  | vfsqrt => exact formed_execVfsqrt h ..
  | vfmin => exact formed_execVfmin h ..
  | vfmax => exact formed_execVfmax h ..
  | vfsgnj => exact formed_execVfsgnj h ..
  | vfsgnjn => exact formed_execVfsgnjn h ..
  | vfsgnjx => exact formed_execVfsgnjx h ..
  | vfmadd => exact formed_execVfmadd h ..
  | vfmsub => exact formed_execVfmsub h ..
  | vfnmadd => exact formed_execVfnmadd h ..
  | vfnmsub => exact formed_execVfnmsub h ..
  | vcmpEq => exact formed_execVcmpEq h ..
  | vcmpNe => exact formed_execVcmpNe h ..
  | vcmpLt => exact formed_execVcmpLt h ..
  | vcmpGe => exact formed_execVcmpGe h ..
  | vcmpLtu => exact formed_execVcmpLtu h ..
  | vcmpGeu => exact formed_execVcmpGeu h ..
  | vfcmpEq => exact formed_execVfcmpEq h ..
  | vfcmpNe => exact formed_execVfcmpNe h ..
  | vfcmpLt => exact formed_execVfcmpLt h ..
  | vfcmpLe => exact formed_execVfcmpLe h ..
  | vfcmpUo => exact formed_execVfcmpUo h ..
  | vredsum => exact formed_execVredsum h ..
  | vredmin => exact formed_execVredmin h ..
  | vredmax => exact formed_execVredmax h ..
  | vredminu => exact formed_execVredminu h ..
  | vredmaxu => exact formed_execVredmaxu h ..
  | vredand => exact formed_execVredand h ..
  | vredor => exact formed_execVredor h ..
  | vredxor => exact formed_execVredxor h ..
  | vscan => exact formed_execVscan h ..
  | vfredo => exact formed_execVfredo h ..
  | vfredp => exact formed_execVfredp h ..
  | vfredmino => exact formed_execVfredmino h ..
  | vfredmaxo => exact formed_execVfredmaxo h ..
  | vfredminp => exact formed_execVfredminp h ..
  | vfredmaxp => exact formed_execVfredmaxp h ..
  | vfscano => exact formed_execVfscano h ..
  | vbcast => exact formed_execVbcast h ..
  | vextract => exact formed_execVextract h ..
  | vinsert => exact formed_execVinsert h ..
  | vslideup => exact formed_execVslideup h ..
  | vslidedown => exact formed_execVslidedown h ..
  | vperm => exact formed_execVperm h ..
  | vsel => exact formed_execVsel h ..
  | vsext => exact formed_execVsext h ..
  | vzext => exact formed_execVzext h ..
  | vnarrow => exact formed_execVnarrow h ..
  | vnarrowsu => exact formed_execVnarrowsu h ..
  | vnarrowu => exact formed_execVnarrowu h ..
  | vtrunc => exact formed_execVtrunc h ..
  | vfwiden => exact formed_execVfwiden h ..
  | vfwidenBf => exact formed_execVfwidenBf h ..
  | vfnarrow => exact formed_execVfnarrow h ..
  | vfcvtFX => exact formed_execVfcvtFX h ..
  | vfcvtFXu => exact formed_execVfcvtFXu h ..
  | vfcvtXF => exact formed_execVfcvtXF h ..
  | vfcvtXuF => exact formed_execVfcvtXuF h ..
  | vps8 => exact formed_execVps8 h ..
  | mand => exact formed_execMand h ..
  | mor => exact formed_execMor h ..
  | mxor => exact formed_execMxor h ..
  | mandn => exact formed_execMandn h ..
  | mnot => exact formed_execMnot h ..
  | mset => exact formed_execMset h ..
  | mget => exact formed_execMget h ..
  | mpopc => exact formed_execMpopc h ..
  | mfirst => exact formed_execMfirst h ..
  | mfirstn => exact formed_execMfirstn h ..
  | vld => exact formed_execVld h ..
  | vst => exact formed_execVst h ..
  | vldm => exact formed_execVldm h ..
  | vlds => exact formed_execVlds h ..
  | vgath => exact formed_execVgath h ..
  | vstm => exact formed_execVstm h ..
  | vsts => exact formed_execVsts h ..
  | vscat => exact formed_execVscat h ..
  | ld => exact formed_execLd h ..
  | st => exact formed_execSt h ..
  | amoadd => exact formed_amo h ..
  | amoand => exact formed_amo h ..
  | amoor => exact formed_amo h ..
  | amoxor => exact formed_amo h ..
  | amomin => exact formed_amo h ..
  | amomax => exact formed_amo h ..
  | amominu => exact formed_amo h ..
  | amomaxu => exact formed_amo h ..
  | amoswap => exact formed_amo h ..
  | amocas => exact formed_amo h ..
  | fence => exact formed_execFence h ..
  | ldsync => exact formed_execLdsync h ..
  | stfe => exact formed_execStfe h ..
  | feclr => exact formed_execFeclr h ..
  | waitv => exact formed_execWaitv h ..
  | ldAcq => exact formed_execLdAcq h ..
  | stRel => exact formed_execStRel h ..
  | barInit => exact formed_execBarInit h ..
  | barExpect => exact formed_execBarExpect h ..
  | barArrive => exact formed_execBarArrive h ..
  | barArriveC => exact formed_execBarArriveC h ..
  | barWait => exact formed_execBarWait h ..
  | barWaitDoze => exact formed_execBarWaitDoze h ..
  | barTest => exact formed_execBarTest h ..
  | stashMap => exact formed_execStashMap h ..
  | stashUnmap => exact formed_execStashUnmap h ..
  | stashFlush => exact formed_execStashFlush h ..
  | cacheResize => exact formed_execCacheResize h ..
  | pref => exact formed_execPref h ..
  | cflush => exact formed_execCflush h ..
  | cwait => exact formed_execCwait h ..
  | crel => exact formed_execCrel h ..
  | ctest => exact formed_execCtest h ..
  | accAlloc => exact formed_execAccAlloc h ..
  | accFree => exact formed_execAccFree h ..
  | accZero => exact formed_execAccZero h ..
  | accRd => exact formed_execAccRd h ..
  | accWr => exact formed_execAccWr h ..
  | accSt => exact formed_execAccSt h ..
  | pld => exact formed_panelMove h ..
  | pst => exact formed_panelMove h ..
  | pzero => exact formed_execPzero h ..
  | mmaBf16 => exact formed_mma h ..
  | mmaFp16 => exact formed_mma h ..
  | mmaPs8 => exact formed_mma h ..
  | mmaPs4 => exact formed_mma h ..
  | mmaTern => exact formed_mma h ..
  | mmaFp64 => exact formed_mma h ..
  | mscale => exact formed_execMscale h ..
  | mout => exact formed_execMout h ..
  | msend => exact formed_execMsend h ..
  | mwait => exact formed_execMwait h ..
  | drayTpl => exact formed_execDrayTpl h ..
  | drayGo => exact formed_execDrayGo h ..
  | draySlack => exact formed_execDraySlack h ..
  | drayCancel => exact formed_execDrayCancel h ..
  | drayStat => exact formed_execDrayStat h ..
  | drayAper => exact formed_execDrayAper h ..
  | strmBind => exact formed_execStrmBind h ..
  | strmUnbind => exact formed_execStrmUnbind h ..
  | strmPos => exact formed_execStrmPos h ..
  | feltCfg => exact formed_execFeltCfg h ..
  | feltScale => exact formed_execFeltScale h ..
  | feltIc => exact formed_execFeltIc h ..
  | feltRun => exact formed_execFeltRun h ..
  | feltSettle => exact formed_execFeltSettle h ..
  | feltSample => exact formed_execFeltSample h ..
  | feltHalt => exact formed_execFeltHalt h ..
  | feltStat => exact formed_execFeltStat h ..
  | ximm => exact formed_execXimm h ..
  | hintNop => exact formed_execHintNop h ..
  | hintTaken t => exact formed_execHintTaken h t
  | hintSpin n => exact formed_execHintSpin h n
  | hintKeep => exact formed_execHintKeep h ..
  | modFrm => exact formed_execModFrm h ..
  | modQsel => exact formed_execModQsel h ..

end

section

variable {s : State}

/-- The state that fetching leaves. -/
def fetchedState : Fetched → State
  | .word _ s => s
  | .made s => s

theorem formed_fetch (h : Formed s) : Formed (fetchedState (fetch s)) := by
  unfold fetch
  split
  · exact h
  · have hr := (keeps_fetchBody (me s).pc).result_formed s h
    dsimp only
    split <;> simp only [*, ResultFormed] at hr
    · exact hr
    · exact formed_takeFault h _
    · exact formed_takeFault (formed_rolledBack _ hr) _
    · exact formed_waiting hr

theorem formed_nextWord (h : Formed s) : Formed (fetchedState (nextWord s)) := by
  unfold nextWord
  dsimp only
  split
  · exact formed_tick h
  · split
    · exact formed_tick (formed_postPending h _)
    · split
      · exact formed_tick (formed_endActivation h ..)
      · split
        · exact formed_takeFault h _
        · exact formed_takeFault h _
        · exact formed_fetch h

/-! ### Turn -/

theorem formed_eventStep (h : Formed s) (i : Instr) : OutFormed (eventStep i s) := by
  unfold eventStep
  split
  · exact formed_exec h i
  · exact outFormed_next h

theorem formed_wordStep (h : Formed s) (w : Word32) : OutFormed (wordStep w s) := by
  unfold wordStep
  split
  · exact formed_exec h _
  · exact outFormed_next (formed_takeFault h _)

theorem formed_agentStep (h : Formed s) : OutFormed (agentStep s) := by
  have hn := formed_nextWord h
  unfold agentStep
  split <;> simp only [*, fetchedState] at hn
  · exact outFormed_next hn
  · exact formed_wordStep hn _

theorem formed_turn (h : Formed s) : OutFormed (turn s) := by
  have hfree : Formed { s with free := s.free + 1 } := h
  unfold turn
  split
  · rename_i i rest _
    have hrest : Formed { s with urgent := rest } := h
    exact formed_eventStep hrest i
  · split
    · exact formed_agentStep h
    · rename_i i rest _
      have hrest : Formed { s with free := s.free + 1, agenda := rest } := h
      dsimp only
      split
      · exact formed_eventStep hrest i
      · exact formed_agentStep hfree

/-! ### Step -/

theorem formed_step (h : Formed s) : OutFormed (step s) := formed_turn (formed_regionsOut (formed_recordsOut h))

end

/-- Settles O59: every part of a step keeps the form of the memories it works on (`formed_step`), and the memories of a state are those that
`Formed` speaks of (`formed_iff`). -/
theorem memoriesKeepTheirForm : Obligations.MemoriesKeepTheirForm := by
  unfold Obligations.MemoriesKeepTheirForm
  intro s t hs hstep
  exact (formed_iff t).mp ((formed_step ((formed_iff s).mpr hs)).next_formed t hstep)

end Sys2Proof.Machine
end

section
/-!
PROOFS. The checks of a request word and a request's turn at its granules (06 R181, R182, R185, R191).
-/
namespace Sys2Proof.Machine

/-! ## A request's turn at its granules (06 R185) -/

@[simp] theorem dirOf_charged (s : State) (p : Packet) (g : Nat) : dirOf (charged s p) g = dirOf s g := by
  unfold charged
  split <;> rfl

theorem withTurn_first {s : State} {g : Nat} (p : Packet) (serve : State → State) (h : (dirOf s g).waiting = []) :
    withTurn s [g] p serve = serve s := by
  simp [withTurn, setAside, putBack, h]

theorem withTurn_behind {s : State} {g : Nat} {p q : Packet} {rest : List Packet} (serve : State → State)
    (h : (dirOf s g).waiting = q :: rest) (hq : q ≠ p) (hp : p ∉ rest) : withTurn s [g] p serve = waitGranule s g p := by
  have hpq : p ≠ q := Ne.symm hq
  simp [withTurn, h, hq, hpq, hp]

/-! ## The checks of a request word (06 R181, R182, R191) -/

section
variable {s : State} {p : Packet} {write : Bool}

theorem Servable.legal (h : Servable s p write) : requestWordLegal p.body = true := by
  obtain ⟨hreserved, hsize, haligned, hhome, -, -⟩ := h
  have hpa : fieldAt p.body 0 6 < 17592186044416 := hhome.trans (by decide)
  have hal : fieldAt p.body 0 6 % 2 ^ bits (fieldAt p.body 15 1) 2 0 = 0 := haligned
  simp [requestWordLegal, hpa, hreserved, hsize, hal]

theorem Servable.not_stale (h : Servable s p write) : staleEpoch s p.body = false := by
  have he := h.epoch
  simpa [staleEpoch, or_iff_not_imp_left] using he

theorem populated_of_home {pa : Nat} (h : pa < hbmSize) : populated pa = true := by simp [populated, h]

theorem withRequest_illegal (n : Nat) (f : State → Nat → BitVec 8 → State) (h : requestWordLegal p.body = false) :
    withRequest s p write n f = acknowledge s p (p.body.take 16) 8 0 0 0 := by
  simp [withRequest, refuseWord, h]

theorem withRequest_stale (n : Nat) (f : State → Nat → BitVec 8 → State) (hlegal : requestWordLegal p.body = true)
    (hhome : requestPa p < hbmSize) (hstale : staleEpoch s p.body = true) :
    withRequest s p write n f = acknowledge s p (p.body.take 16) 5 0 0 0 := by
  have hpop : populated (fieldAt p.body 0 6) = true := populated_of_home hhome
  simp [withRequest, refuseWord, hlegal, hpop, hstale]

theorem withRequest_servable (h : Servable s p write) (n : Nat) (f : State → Nat → BitVec 8 → State) :
    withRequest s p write n f = withTurn
      (if (numbersFrom (requestPa p / 64) n).any (fun g => (dirOf s g).waiting.contains p) then s else charged s p)
      (numbersFrom (requestPa p / 64) n) p (fun s => f s (requestPa p) (requestKey p)) := by
  have hlegal := h.legal
  have hstale := h.not_stale
  have hpop : populated (fieldAt p.body 0 6) = true := populated_of_home h.home
  have hhome : ¬ hbmSize ≤ fieldAt p.body 0 6 := Nat.not_le.mpr h.home
  have hyoung : (write && staleGeneration s p.src.toNat (BitVec.ofNat 32 (fieldAt p.body 8 4)) (fieldAt p.body 12 2)) = false := by
    cases write with
    | false => rfl
    | true => exact h.young rfl
  simp [withRequest, hlegal, hstale, hpop, hhome, hyoung, requestPa, requestKey]

theorem withRequest_first (h : Servable s p write) (hfirst : (dirOf s (requestPa p / 64)).waiting = []) (f : State → Nat → BitVec 8 → State) :
    withRequest s p write 1 f = f (charged s p) (requestPa p) (requestKey p) := by
  rw [withRequest_servable h, show numbersFrom (requestPa p / 64) 1 = [requestPa p / 64] from rfl]
  simp [hfirst, withTurn_first]

theorem withRequest_behind {q : Packet} {rest : List Packet} (h : Servable s p write)
    (hwait : (dirOf s (requestPa p / 64)).waiting = q :: rest) (hq : q ≠ p) (hp : p ∉ rest) (f : State → Nat → BitVec 8 → State) :
    withRequest s p write 1 f = waitGranule (charged s p) (requestPa p / 64) p := by
  have hpq : p ≠ q := Ne.symm hq
  have hturn := withTurn_behind (s := charged s p) (fun s => f s (requestPa p) (requestKey p)) ((dirOf_charged ..).symm ▸ hwait) hq hp
  rw [withRequest_servable h, show numbersFrom (requestPa p / 64) 1 = [requestPa p / 64] from rfl]
  simpa [hwait, hpq, hp] using hturn

/-- A request of no granules waits for none. -/
theorem withRequest_none (h : Servable s p write) (f : State → Nat → BitVec 8 → State) :
    withRequest s p write 0 f = f (charged s p) (requestPa p) (requestKey p) := by
  rw [withRequest_servable h]
  rfl
end

end Sys2Proof.Machine
end

section
/-!
PROOFS. Requests at their home depot, snoops, replies and time-outs (06 R181 to R187, R191; 14 R330; O48).
-/
namespace Sys2Proof.Machine

/-! ## Requests served at their home depot (06 R182 to R187; 14 R330) -/

section
variable {s s1 s2 s3 : State} {p : Packet}

theorem exec_rd_first (h : Servable s p false) (hfirst : (dirOf s (requestPa p / 64)).waiting = []) (hlen : p.body.length ≠ 32) :
    exec (.rd p) s = .next (answeredBy p (depotRead (charged s p) (requestPa p / 64) (requestKey p)) (fun v t =>
      sendData (modDir t (requestPa p / 64) (fun d => addSharer d p.src.toNat)) p v)) := by
  rw [exec_rd, execRd, event, if_neg hlen, withRequest_first h hfirst]
  dsimp only
  cases depotRead (charged s p) (requestPa p / 64) (requestKey p) <;> rfl

theorem exec_wr_first (h : Servable s p true) (hfirst : (dirOf s (requestPa p / 64)).waiting = []) :
    exec (.wr p) s = .next (answeredBy p
      (depotWrite (charged s p) (requestPa p / 64) (requestKey p) (vecOfBytes ((p.body.drop 24).take 64)) (fieldAt p.body 16 8) 0)
      (fun _ t => acknowledge (apertureLanding t (requestPa p) (fieldAt p.body 16 8) (vecOfBytes ((p.body.drop 24).take 64))) p
        (p.body.take 16) 0 0 0 0)) := by
  rw [exec_wr, execWr, event, withRequest_first h hfirst]
  dsimp only
  cases depotWrite (charged s p) (requestPa p / 64) (requestKey p) (vecOfBytes ((p.body.drop 24).take 64)) (fieldAt p.body 16 8) 0 <;> rfl

theorem exec_rdx_first {u w : Unit} {v : Vec} (h : Servable s p true) (hfirst : (dirOf s (requestPa p / 64)).waiting = [])
    (hsettle : settle (charged s p) (requestPa p / 64) none = .ok u s1) (hinv : invalidate s1 (requestPa p / 64) none = .ok w s2)
    (hread : readSector s2 (requestPa p / 64) (requestKey p) = .ok v s3) :
    exec (.rdx p) s = .next (sendData (markMaps (modDir s3 (requestPa p / 64) (fun d =>
      { d with st := .owned, clusters := [], ownerDev := some p.src.toNat })) (requestPa p / 64) 0) p v) := by
  rw [exec_rdx, execRdx, event, withRequest_first h hfirst]
  simp only [hsettle, hinv, hread]

/-- An AMO whose operation, size and alignment are legal, in its turn (14 R330). -/
theorem exec_amoPacket_first {n : Nat} {v : Vec} {new : Option Nat} (h : Servable s p true)
    (hfirst : (dirOf s (requestPa p / 64)).waiting = []) (hn : n = 4 ∨ n = 8) (hsize : fieldAt p.body 17 1 = n)
    (hop : fieldAt p.body 16 1 ≤ 9) (hal : requestPa p % n = 0)
    (hread : depotRead (charged s p) (requestPa p / 64) (requestKey p) = .ok v s1)
    (hnew : amoNew (fieldAt p.body 16 1) n (fieldAt (vecBytes v) (requestPa p % 64) n) (fieldAt p.body 24 8 % 2 ^ (8 * n))
      (fieldAt p.body 32 8 % 2 ^ (8 * n)) = new) :
    exec (.amoPacket p) s = .next (match new with
      | none => acknowledge s1 p (p.body.take 16) 0 0 0 (fieldAt (vecBytes v) (requestPa p % 64) n)
      | some x => answeredBy p (depotWrite s1 (requestPa p / 64) (requestKey p) (granuleImage (requestPa p % 64) (leBytes n x))
          (maskAt (requestPa p % 64) n) 0)
          (fun _ t => acknowledge t p (p.body.take 16) 0 0 0 (fieldAt (vecBytes v) (requestPa p % 64) n))) := by
  subst hsize
  have hlegal : (!decide (fieldAt p.body 17 1 = 4) && !decide (fieldAt p.body 17 1 = 8) || decide (9 < fieldAt p.body 16 1) ||
      !decide (requestPa p % fieldAt p.body 17 1 = 0)) = false := by
    rcases hn with hn | hn <;> simp [hn, hop, hn ▸ hal]
  rw [exec_amoPacket, execAmoPacket, event, withRequest_first h hfirst]
  simp only [hlegal, hread, hnew, Bool.false_eq_true, if_false]
  cases new with
  | none => rfl
  | some x =>
    dsimp only
    cases depotWrite s1 (requestPa p / 64) (requestKey p) (granuleImage (requestPa p % 64) (leBytes (fieldAt p.body 17 1) x))
      (maskAt (requestPa p % 64) (fieldAt p.body 17 1)) 0 <;> rfl

theorem exec_draywr_first {u w : Unit} (h : Servable s p true) (hfirst : (dirOf s (requestPa p / 64)).waiting = [])
    (hlen : fieldAt p.body 16 2 = 64) (hend : requestPa p + 64 ≤ hbmSize)
    (htake : depotTakes (charged s p) true [requestPa p / 64] = .ok w s1)
    (hwrite : drayGranules s1 (requestPa p / 64) (requestKey p) (p.body.drop 24) 1 = .ok u s2) :
    exec (.draywr p) s = .next (acknowledge s2 p (p.body.take 16) 0 0 0 0) := by
  have hone : numbersFrom (requestPa p / 64) (64 / 64) = [requestPa p / 64] := rfl
  rw [exec_draywr, execDraywr, event, hlen, show min 32 (64 / 64) = 1 from rfl, withRequest_first h hfirst]
  simp [Nat.not_lt.mpr hend, hone, htake, hwrite, Served.andThen]

theorem exec_rd_carriage (hlen : p.body.length = 32) (hlegal : requestWordLegal p.body = true) (hstale : staleEpoch s p.body = false) :
    exec (.rd p) s = .next (match fetchServe s (2 ^ 50 + p.src.toNat * 2 ^ 32 + p.tag.toNat) (BitVec.ofNat 16 (fieldAt p.body 24 2))
        (fieldAt p.body 16 8) (fieldAt p.body 26 2) with
      | .ok v s1 => sendData (charged s1 p) p v
      | .bad code sub s1 => refuse s1 p (fetchFailCode code) sub
      | .busy s1 => later s1 [.rd p]) := by
  rw [exec_rd, execRd, event, if_pos hlen, fetchPacket, if_neg (by simp [wordRefused, hlegal, hstale])] <;>
    cases fetchServe s (2 ^ 50 + p.src.toNat * 2 ^ 32 + p.tag.toNat) (BitVec.ofNat 16 (fieldAt p.body 24 2)) (fieldAt p.body 16 8)
      (fieldAt p.body 26 2) <;> rfl

/-! ## Requests behind others, and requests that their word refuses -/

section
variable {q : Packet} {rest : List Packet} (hwait : (dirOf s (requestPa p / 64)).waiting = q :: rest) (hq : q ≠ p) (hp : p ∉ rest)
include hwait hq hp

theorem exec_rd_behind (h : Servable s p false) (hlen : p.body.length ≠ 32) :
    exec (.rd p) s = .next (waitGranule (charged s p) (requestPa p / 64) p) := by
  rw [exec_rd, execRd, event, if_neg hlen, withRequest_behind h hwait hq hp]

theorem exec_write_behind (h : Servable s p true) {i : Instr} (hi : i ∈ [Instr.rdx p, .wr p, .amoPacket p]) :
    exec i s = .next (waitGranule (charged s p) (requestPa p / 64) p) := by
  have hturn := withRequest_behind h hwait hq hp
  simp only [List.mem_cons, List.not_mem_nil, or_false] at hi
  rcases hi with rfl | rfl | rfl
  · exact congrArg Host.Outcome.next (hturn _)
  · exact congrArg Host.Outcome.next (hturn _)
  · exact congrArg Host.Outcome.next (hturn _)
end

/-- The packets that begin with a request word. -/
theorem exec_of_word_refused {i : Instr} (hi : i ∈ [Instr.snp p, .inv p, .rd p, .rdx p, .wr p, .amoPacket p, .wb p, .draywr p]) {status : Nat}
    (hword : wordRefused s p = true) (hrefuse : refuseWord s p = acknowledge s p (p.body.take 16) status 0 0 0)
    (hrequest : ∀ write n f, withRequest s p write n f = acknowledge s p (p.body.take 16) status 0 0 0) :
    exec i s = .next (acknowledge s p (p.body.take 16) status 0 0 0) := by
  simp only [List.mem_cons, List.not_mem_nil, or_false] at hi
  rcases hi with rfl | rfl | rfl | rfl | rfl | rfl | rfl | rfl
  · rw [exec_snp, execSnp, event, if_pos hword, hrefuse]
  · rw [exec_inv, execInv, event, if_pos hword, hrefuse]
  · rw [exec_rd, execRd, event, fetchPacket, if_pos hword, hrefuse, hrequest, ite_self]
  · exact congrArg Host.Outcome.next (hrequest ..)
  · exact congrArg Host.Outcome.next (hrequest ..)
  · exact congrArg Host.Outcome.next (hrequest ..)
  · exact congrArg Host.Outcome.next (hrequest ..)
  · exact congrArg Host.Outcome.next (hrequest ..)

theorem exec_of_stale_epoch (hzero : fieldAt p.body 6 2 ≠ 0) (hepoch : fieldAt p.body 6 2 ≠ s.ostler.epoch.toNat)
    (hform : bits (fieldAt p.body 15 1) 5 0 = 0) (hhome : requestPa p < hbmSize) {i : Instr}
    (hi : i ∈ [Instr.snp p, .inv p, .rd p, .rdx p, .wr p, .amoPacket p, .wb p, .draywr p]) :
    exec i s = .next (acknowledge s p (p.body.take 16) 5 0 0 0) := by
  have hhigh : bits (fieldAt p.body 15 1) 5 3 = 0 := by
    simp only [bits, Nat.reducePow, Nat.reduceAdd, Nat.reduceSub] at hform ⊢
    omega
  have hlow : bits (fieldAt p.body 15 1) 2 0 = 0 := by
    simp only [bits, Nat.reducePow, Nat.reduceAdd, Nat.reduceSub] at hform ⊢
    omega
  have hpa : fieldAt p.body 0 6 < 17592186044416 := hhome.trans (by decide)
  have hlegal : requestWordLegal p.body = true := by simp [requestWordLegal, hpa, hhigh, hlow, Nat.mod_one]
  have hstale : staleEpoch s p.body = true := by simp [staleEpoch, hzero, hepoch]
  exact exec_of_word_refused hi (by simp [wordRefused, hstale]) (by simp [refuseWord, hlegal]) fun _ n f =>
    withRequest_stale n f hlegal hhome hstale

theorem exec_of_illegal_word (hlegal : requestWordLegal p.body = false) {i : Instr}
    (hi : i ∈ [Instr.snp p, .inv p, .snprsp p, .rd p, .rdx p, .wr p, .amoPacket p, .wb p, .draywr p]) :
    exec i s = .next (acknowledge s p (p.body.take 16) 8 0 0 0) := by
  have hrefuse : refuseWord s p = acknowledge s p (p.body.take 16) 8 0 0 0 := by simp [refuseWord, hlegal]
  by_cases h : i = .snprsp p
  · subst h
    rw [exec_snprsp, execSnprsp, event, if_pos (by simp [hlegal]), hrefuse]
  · refine exec_of_word_refused ?_ (by simp [wordRefused, hlegal]) hrefuse fun _ n f => withRequest_illegal n f hlegal
    simpa [h] using hi

/-! ## Writebacks (06 R185, R186) -/

theorem exec_wb_derelict (h : Servable s p true) (hst : (dirOf (charged s p) (requestPa p / 64)).st = .derelict) :
    exec (.wb p) s = .next (refuse (charged s p) p 0x07 0x04) := by
  rw [exec_wb, execWb, event, withRequest_none h]
  simp only [hst, beq_self_eq_true, Bool.true_or, if_true]

section
variable (h : Servable s p true) (hst : (dirOf (charged s p) (requestPa p / 64)).st ≠ .derelict)
  (hsector : (sectorOf (charged s p) (requestPa p / 64)).derelict = false)
include h hst hsector

theorem exec_wb_late (howner : (dirOf (charged s p) (requestPa p / 64)).ownerDev ≠ some p.src.toNat) :
    exec (.wb p) s = .next (acknowledge (charged s p) p (p.body.take 16) 0 0 0 0) := by
  rw [exec_wb, execWb, event, withRequest_none h]
  simp only [beq_eq_false_iff_ne.mpr hst, hsector, beq_eq_false_iff_ne.mpr howner, Bool.or_self, Bool.false_eq_true, if_false]

theorem exec_wb_owner (howner : (dirOf (charged s p) (requestPa p / 64)).ownerDev = some p.src.toNat) :
    exec (.wb p) s = .next (acknowledge (releaseWaiting (modDir (markMaps
      (writeSector (charged s p) (requestPa p / 64) (requestKey p) (vecOfBytes ((p.body.drop 16).take 64))) (requestPa p / 64) 0)
      (requestPa p / 64) (fun d => { d with st := .uncached, ownerDev := none, snooping := false })) (requestPa p / 64)) p
      (p.body.take 16) 0 0 0 0) := by
  rw [exec_wb, execWb, event, withRequest_none h]
  simp only [beq_eq_false_iff_ne.mpr hst, hsector, howner, beq_self_eq_true, Bool.or_self, Bool.false_eq_true, if_false, if_true]
end
end

/-! ## Snoops and invalidations of lines held here (06 R186; 07 R195) -/

section
variable {s : State} {p : Packet}

/-- Whether a line holds a granule that a snoop or an invalidation of its home names. -/
def namesLine (p : Packet) (l : L2Line) : Bool := l.dev == p.src.toNat && l.pa == requestPa p / 64 * 64

/-- Whether a posting holds such a granule. -/
def namesPosting (p : Packet) (q : OutPost) : Bool :=
  q.dev = p.src.toNat && q.pa / 64 * 64 = requestPa p / 64 * 64 && !(q.stage = .queued)

/-- The body of a HIT, with the data that it brings home. -/
def hitBody (s : State) (p : Packet) (bytes : List Byte) : List Byte := dataWord s p.body ++ [1, 0, 0, 0, 0, 0, 0, 0] ++ bytes

section
variable (hlegal : requestWordLegal p.body = true) (hstale : staleEpoch s p.body = false)
include hlegal hstale

theorem word_taken : ¬ wordRefused s p = true := by simp [wordRefused, hlegal, hstale]

theorem exec_snp_of_line {l : L2Line} (hl : s.l2.find? (namesLine p) = some l) :
    exec (.snp p) s = .next (replyTo
      { s with l2 := s.l2.map (fun x => if namesLine p x then { x with owned := false, dirty := false } else x) } p 0x07
      (hitBody s p (if l.dirty then vecBytes l.data else []))) := by
  have hl' : s.l2.find? (fun l => l.dev == p.src.toNat && l.pa == fieldAt p.body 0 6 / 64 * 64) = some l := hl
  rw [exec_snp, execSnp, event, if_neg (word_taken hlegal hstale)]
  simp only [hl']
  rfl

section
variable (hl : s.l2.find? (namesLine p) = none)
include hl

theorem exec_snp_miss (hq : s.outPosts.find? (namesPosting p) = none) :
    exec (.snp p) s = .next (replyTo s p 0x07 (dataWord s p.body ++ List.replicate 8 0)) := by
  have hl' : s.l2.find? (fun l => l.dev == p.src.toNat && l.pa == fieldAt p.body 0 6 / 64 * 64) = none := hl
  have hq' : s.outPosts.find? (fun q => q.dev = p.src.toNat && q.pa / 64 * 64 = fieldAt p.body 0 6 / 64 * 64 && !(q.stage = .queued)) = none := hq
  rw [exec_snp, execSnp, event, if_neg (word_taken hlegal hstale)]
  simp only [hl', hq']

theorem exec_snp_of_posting {q : OutPost} (hq : s.outPosts.find? (namesPosting p) = some q) :
    exec (.snp p) s = .next (if q.stage = .asked ∨ q.stage = .slot then modPost s q.id (fun q => { q with snoop := some p })
      else replyTo s p 0x07 (hitBody s p q.head)) := by
  have hl' : s.l2.find? (fun l => l.dev == p.src.toNat && l.pa == fieldAt p.body 0 6 / 64 * 64) = none := hl
  have hq' : s.outPosts.find? (fun q => q.dev = p.src.toNat && q.pa / 64 * 64 = fieldAt p.body 0 6 / 64 * 64 && !(q.stage = .queued)) = some q := hq
  rw [exec_snp, execSnp, event, if_neg (word_taken hlegal hstale)]
  simp only [hl', hq']
  rfl
end

theorem exec_inv_taken :
    exec (.inv p) s = .next (acknowledge { s with
      l2 := s.l2.filter (fun l => !namesLine p l)
      requests := s.requests.map (fun r => if r.2.dev == p.src.toNat && r.2.pa == requestPa p / 64 * 64 then (r.1, { r.2 with stale := true }) else r) }
      p (p.body.take 16) 0 0 0 0) := by
  rw [exec_inv, execInv, event, if_neg (word_taken hlegal hstale)]
  rfl
end

/-! ## Replies (06 R183, R186, R191) -/

/-- The requests that a reply may answer: those sent to its sender under its tag. -/
def answers (p : Packet) (r : Nat × Request) : Bool := r.1 == p.tag.toNat && r.2.dev == p.src.toNat

section
variable {tag : Nat} {r : Request} (hr : s.requests.find? (answers p) = some (tag, r))
include hr

theorem exec_dataPacket_of_request :
    exec (.dataPacket p) s = .next (answered (believes s r.dev (fieldAt p.body 6 2)) tag r
      { data := some (requestPa p / 64 * 64, vecOfBytes ((p.body.drop 16).take 64)) }) := by
  have hr' : s.requests.find? (fun r => r.1 == p.tag.toNat && r.2.dev == p.src.toNat) = some (tag, r) := hr
  rw [exec_dataPacket, execDataPacket, event]
  simp only [hr']
  rfl

theorem exec_ackPacket_of_request {x : Answer}
    (hx : x = { code := (statusCode p.body).1, sub := (statusCode p.body).2, value := BitVec.ofNat 64 (fieldAt p.body 24 8) }) :
    exec (.ackPacket p) s = .next (if fieldAt p.body 16 1 = 5 then makeGone (answered s tag r x) r.dev 2
      else answered { s with ostler := { s.ostler with believed := s.ostler.believed.set r.dev (BitVec.ofNat 16 (fieldAt p.body 18 2)) } } tag r x) := by
  have hr' : s.requests.find? (fun r => r.1 == p.tag.toNat && r.2.dev == p.src.toNat) = some (tag, r) := hr
  rw [exec_ackPacket, execAckPacket, event, hx]
  simp only [hr']

end

@[simp] theorem requests_believes (s : State) (dev epoch : Nat) : (believes s dev epoch).requests = s.requests := by
  unfold believes
  split <;> rfl

@[simp] theorem dirOf_believes (s : State) (dev epoch g : Nat) : dirOf (believes s dev epoch) g = dirOf s g := by
  unfold believes
  split <;> rfl

/-- The answer of a snoop that is out: HIT data comes home and the line is shared, MISS makes the entry DERELICT. -/
theorem exec_snprsp_of_snoop {tag h : Nat} {r : Request} (hr : s.requests.find? (answers p) = some (tag, r)) (hkind : r.kind = .snoop h)
    (hlegal : requestWordLegal p.body = true) (hsnoop : (dirOf s h).snooping = true) {s1 : State}
    (hs1 : s1 = { believes s p.src.toNat (fieldAt p.body 6 2) with requests := s.requests.del tag }) :
    exec (.snprsp p) s = .next (if fieldAt p.body 16 1 = 1 then
      releaseWaiting (modDir (if 88 ≤ p.body.length then markMaps (writeSector s1 h (requestKey p) (vecOfBytes ((p.body.drop 24).take 64))) h 0 else s1) h
        (fun d => { d with st := .shared, ownerDev := none, remotes := with1 d.remotes p.src.toNat, snooping := false })) h
      else makeDerelict s1 h p.src.toNat) := by
  obtain ⟨dev, agent, kind⟩ := r
  obtain rfl : kind = .snoop h := hkind
  subst hs1
  have hr' : s.requests.find? (fun r => r.1 == p.tag.toNat && r.2.dev == p.src.toNat) = some (tag, _) := hr
  have hdir : (dirOf { believes s p.src.toNat (fieldAt p.body 6 2) with requests := s.requests.del tag } h).snooping = true :=
    (congrArg DirEntry.snooping (dirOf_believes ..)).trans hsnoop
  rw [exec_snprsp, execSnprsp, event, if_neg (by simp [hlegal])]
  simp only [requests_believes, hr', hdir, Bool.not_true, Bool.false_eq_true, if_false]
  rfl

section
variable (hnone : s.requests = [])
include hnone

theorem exec_dataPacket_unasked : exec (.dataPacket p) s = .next s := by
  rw [exec_dataPacket, execDataPacket, event]
  simp only [hnone, List.find?_nil]

theorem exec_ackPacket_unasked : exec (.ackPacket p) s = .next s := by
  rw [exec_ackPacket, execAckPacket, event]
  simp only [hnone, List.find?_nil]

theorem exec_requestTimeout_unasked (tag : Nat) : exec (.requestTimeout tag) s = .next s := by
  rw [exec_requestTimeout, execRequestTimeout, event]
  simp only [hnone, List.find?_nil]

/-- An answer to no snoop is discarded, and INV goes to its sender. -/
theorem exec_snprsp_unasked (hlegal : requestWordLegal p.body = true) {s1 : State} (hs1 : s1 = believes s p.src.toNat (fieldAt p.body 6 2)) :
    exec (.snprsp p) s = .next (sendRequest s1 p.src.toNat none (.invalidate (requestPa p / 64)) (BitVec.ofNat 64 (requestPa p)) 0 0x0A
      (requestWord s1 p.src.toNat (requestPa p) 0 0 6 false false)).1 := by
  subst hs1
  rw [exec_snprsp, execSnprsp, event, if_neg (by simp [hlegal])]
  simp only [requests_believes, hnone, List.find?_nil]
  rfl
end

/-! ## Time-outs (06 R186, R191) -/

section
variable {tag : Nat} {r : Request} (hr : s.requests.find? (fun r => r.1 == tag) = some (tag, r))
include hr

theorem exec_requestTimeout_early (hnow : s.now < r.since + 100000) : exec (.requestTimeout tag) s = .next (later s [.requestTimeout tag]) := by
  rw [exec_requestTimeout, execRequestTimeout, event]
  simp only [hr, hnow, if_true]

theorem exec_requestTimeout_gone (hnow : r.since + 100000 ≤ s.now) (hgone : r.dev ∈ s.ostler.gone) :
    exec (.requestTimeout tag) s = .next (answered s tag r { code := 0x0A, sub := 3 }) := by
  have hsame : makeGone s r.dev 3 = s := if_pos (.inl hgone)
  rw [exec_requestTimeout, execRequestTimeout, event]
  simp only [hr, Nat.not_lt.mpr hnow, if_false, hsame]

theorem exec_requestTimeout_answers_all (hnow : r.since + 100000 ≤ s.now)
    (hall : (makeGone s r.dev 3).requests.find? (fun r => r.1 == tag) = none) : exec (.requestTimeout tag) s = .next (makeGone s r.dev 3) := by
  rw [exec_requestTimeout, execRequestTimeout, event]
  simp only [hr, Nat.not_lt.mpr hnow, if_false, hall]
end

theorem exec_snoopTimeout_answered {g : Nat} (h : (dirOf s g).snooping = false) : exec (.snoopTimeout g) s = .next s := by
  rw [exec_snoopTimeout, execSnoopTimeout, event]
  simp only [h, Bool.false_eq_true, if_false]

section
variable {g : Nat} (h : (dirOf s g).snooping = true)
include h

theorem exec_snoopTimeout_early (hnow : s.now < (dirOf s g).snoopTick + 1000 * s.depot.dtmo.toNat) :
    exec (.snoopTimeout g) s = .next (later s [.snoopTimeout g]) := by
  rw [exec_snoopTimeout, execSnoopTimeout, event]
  simp only [h, hnow, if_true]

theorem exec_snoopTimeout_owner (hnow : (dirOf s g).snoopTick + 1000 * s.depot.dtmo.toNat ≤ s.now) {dev : Nat}
    (howner : (dirOf s g).ownerDev = some dev) :
    exec (.snoopTimeout g) s = .next (makeDerelict { s with requests := s.requests.filter (fun r => !(r.2.kind == .snoop g)) } g dev) := by
  rw [exec_snoopTimeout, execSnoopTimeout, event]
  simp only [h, Nat.not_lt.mpr hnow, if_true, if_false, howner]
end
end

/-- Settles O48, a lemma for each packet and each of its answers. -/
theorem requestsAreServedAtTheirHome : Obligations.RequestsAreServedAtTheirHome := by
  unfold Obligations.RequestsAreServedAtTheirHome
  intro s s1 s2 s3 p u w v n s0 pa g key b ack data
  refine ⟨fun hfirst => ⟨fun hlen h => ?_, fun h => ⟨?_, ?_, ?_, ?_, ?_⟩⟩, fun hlen hlegal hstale => ?_, fun q rest hwait hq hp => ⟨?_, ?_⟩,
    fun h => ⟨?_, ?_, ?_⟩, fun hzero hepoch hform hhome i hi => ?_, fun hlegal i hi => ?_, fun hlegal hstale => ⟨?_, ?_, ?_, ?_⟩,
    fun tag r hr => ⟨?_, ⟨?_, ?_⟩, ?_⟩, fun hnone => ⟨?_, ?_, ?_, ?_⟩, fun tag r hr => ⟨?_, ?_, ?_⟩, ?_, fun hsnoop => ⟨?_, ?_⟩, ?_⟩
  · have hrd := exec_rd_first h hfirst hlen
    refine ⟨hrd, fun hread => hrd.trans ?_⟩
    rw [hread]
    rfl
  · exact exec_wr_first h hfirst
  · intro hwrite
    refine (exec_wr_first h hfirst).trans ?_
    rw [hwrite]
    rfl
  · exact exec_rdx_first h hfirst
  · intro hn hsize hop hal hread old new
    exact ⟨exec_amoPacket_first h hfirst hn hsize hop hal hread, fun x => exec_amoPacket_first h hfirst hn hsize hop hal hread⟩
  · exact exec_draywr_first h hfirst
  · have hrd := exec_rd_carriage hlen hlegal hstale
    refine ⟨fun hread => hrd.trans ?_, fun code sub hread => hrd.trans ?_, fun hread => hrd.trans ?_⟩ <;> rw [hread]
  · exact fun hlen h => exec_rd_behind hwait hq hp h hlen
  · exact fun h i hi => exec_write_behind hwait hq hp h hi
  · exact exec_wb_derelict h
  · exact exec_wb_late h
  · exact exec_wb_owner h
  · exact exec_of_stale_epoch hzero hepoch hform hhome hi
  · exact exec_of_illegal_word hlegal hi
  · exact exec_snp_miss hlegal hstale
  · intro q hl hq
    have hsnp := exec_snp_of_posting hlegal hstale hl hq
    exact ⟨fun hstage => hsnp.trans (congrArg _ (if_pos hstage)),
      fun hasked hslot => hsnp.trans (congrArg _ (if_neg (not_or.mpr ⟨hasked, hslot⟩)))⟩
  · exact fun l hl => exec_snp_of_line hlegal hstale hl
  · exact exec_inv_taken hlegal hstale
  · exact exec_dataPacket_of_request hr
  · exact fun hstatus => (exec_ackPacket_of_request hr rfl).trans (congrArg _ (if_neg hstatus))
  · exact fun hstatus => (exec_ackPacket_of_request hr rfl).trans (congrArg _ (if_pos hstatus))
  · intro h hkind hlegal hsnoop s1
    have hrsp := exec_snprsp_of_snoop hr hkind hlegal hsnoop (s1 := s1) rfl
    refine ⟨fun hmiss => hrsp.trans (congrArg _ (if_neg hmiss)), fun hhit hlen => (hrsp.trans (congrArg _ (if_pos hhit))).trans ?_⟩
    rw [if_pos hlen]
  · exact exec_dataPacket_unasked hnone
  · exact exec_ackPacket_unasked hnone
  · exact exec_requestTimeout_unasked hnone _
  · exact fun hlegal => exec_snprsp_unasked hnone hlegal rfl
  · exact exec_requestTimeout_early hr
  · exact exec_requestTimeout_gone hr
  · exact exec_requestTimeout_answers_all hr
  · exact exec_snoopTimeout_answered
  · exact exec_snoopTimeout_early hsnoop
  · exact fun hnow dev howner => exec_snoopTimeout_owner hsnoop hnow howner
  · exact exec_reservedOpcode p s

end Sys2Proof.Machine
end

section
/-!
PROOFS. Messages of the fabric, the depots' commands, and waits of agents (06 R166 to R170, R184, R188, R189; O49).
-/
namespace Sys2Proof.Machine

/-! ## The bytes of a granule -/

theorem leBytes_ofBytes (bs : List Byte) : leBytes bs.length (ofBytes bs) = bs := by
  induction bs with
  | nil => rfl
  | cons b rest ih =>
    have hb : BitVec.ofNat 8 (b.toNat + 256 * ofBytes rest) = b := by
      apply BitVec.eq_of_toNat_eq
      have := b.isLt
      simp only [BitVec.toNat_ofNat]
      omega
    have hrest : (b.toNat + 256 * ofBytes rest) / 256 = ofBytes rest := by
      have := b.isLt
      omega
    simp only [List.length_cons, ofBytes, leBytes, hb, hrest, ih]

theorem ofBytes_lt (bs : List Byte) : ofBytes bs < 2 ^ (8 * bs.length) := by
  induction bs with
  | nil => exact Nat.one_pos
  | cons b rest ih =>
    have hb := b.isLt
    rw [List.length_cons, Nat.mul_succ, Nat.pow_add, ofBytes]
    omega

theorem vecBytes_vecOfBytes {bs : List Byte} (h : bs.length = 64) : vecBytes (vecOfBytes bs) = bs := by
  have hlt : ofBytes bs < 2 ^ 512 := by simpa only [h, Nat.reduceMul] using ofBytes_lt bs
  have hle := leBytes_ofBytes bs
  rw [h] at hle
  rw [vecBytes, vecOfBytes, BitVec.toNat_ofNat, Nat.mod_eq_of_lt hlt, hle]

@[simp] theorem length_memRead (m : Memory) (a n : Nat) : (memRead m a n).length = n := by
  induction n generalizing a with
  | zero => rfl
  | succ n ih => rw [memRead, List.length_cons, ih]

theorem drop_memRead (m : Memory) (a k n : Nat) : (memRead m a (k + n)).drop k = memRead m (a + k) n := by
  induction k generalizing a with
  | zero => rw [Nat.zero_add]; rfl
  | succ k ih =>
    rw [show k + 1 + n = k + n + 1 by omega, memRead, List.drop_succ_cons, ih, show a + 1 + k = a + (k + 1) by omega]

theorem take_memRead (m : Memory) (a k n : Nat) : (memRead m a (k + n)).take k = memRead m a k := by
  induction k generalizing a with
  | zero => rfl
  | succ k ih => rw [show k + 1 + n = k + n + 1 by omega, memRead, List.take_succ_cons, ih, memRead]

/-- A field of what is read is what is read there. -/
theorem fieldAt_memRead (m : Memory) (a k n l : Nat) : fieldAt (memRead m a (k + (n + l))) k n = ofBytes (memRead m (a + k) n) := by
  rw [fieldAt, drop_memRead, take_memRead]

@[simp] theorem length_leBytes (n v : Nat) : (leBytes n v).length = n := by
  induction n generalizing v with
  | zero => rfl
  | succ n ih => rw [leBytes, List.length_cons, ih]

theorem length_words (ws : Vector Word 8) : (ws.toList.flatMap (fun w => leBytes 8 w.toNat)).length = 64 := by
  simp [List.length_flatMap]

/-! ## PEEK and RECLAIM (06 R188, R189) -/

section
variable {s : State} {keyid : BitVec 8}

theorem exec_peek_outside (h : hbmSize ≤ 64 * daddrLine s) : exec (.peek keyid) s = .next { s with depot := { s.depot with derr := true } } := by
  rw [exec_peek, execPeek, event]
  exact congrArg _ (if_pos h)

/-- PEEK with the sector's key of a sector without an uncorrectable error: memory stays, DDATA takes the bytes, DSTAT the states. -/
theorem exec_peek_inside (h : 64 * daddrLine s < hbmSize) (hkey : (sectorOf s (daddrLine s)).key = keyid)
    (hsound : (sectorOf s (daddrLine s)).uncorrectable = false) :
    ∃ t, exec (.peek keyid) s = .next t ∧ t.hbm = s.hbm ∧
      ((dirOf s (daddrLine s)).st = .uncached → (sectorOf s (daddrLine s)).derelict = false →
        t.depot.dstat = BitVec.ofNat 64 (2 ^ 61 + if (sectorOf s (daddrLine s)).poisoned then 2 ^ 59 else 0)) ∧
      ∀ k < 8, t.depot.ddata.toList.getD k 0 = BitVec.ofNat 64 (ofBytes (memRead s.hbm (64 * daddrLine s + 8 * k) 8)) := by
  rw [exec_peek, execPeek, event]
  refine ⟨_, congrArg _ (if_neg (Nat.not_le.mpr h)), rfl, fun hst hder => ?_, fun k hk => ?_⟩
  · have hdir : (DirState.uncached == DirState.derelict) = false := rfl
    simp [hkey, hsound, hst, hder, hdir, dirCode, b2n]
  · have hbytes := vecBytes_vecOfBytes (length_memRead s.hbm (64 * daddrLine s) 64)
    have hfield := fieldAt_memRead s.hbm (64 * daddrLine s) (8 * k) 8 (56 - 8 * k)
    rw [show 8 * k + (8 + (56 - 8 * k)) = 64 by omega] at hfield
    simp only [hsound, hkey, if_true, Bool.false_eq_true, if_false, hbytes]
    rw [← hfield]
    simp [List.getD_eq_getElem?_getD, hk]

theorem reclaim_refused (hst : (dirOf s (daddrLine s)).st ≠ .derelict) (hder : (sectorOf s (daddrLine s)).derelict = false)
    (f : State → Nat → State) : reclaim s f = { s with depot := { s.depot with derr := true } } := by
  have hst' : ((dirOf s (daddrLine s)).st == .derelict) = false := beq_eq_false_iff_ne.mpr hst
  exact if_pos (by simp only [hst', hder, Bool.not_false, Bool.and_self])

/-- A DERELICT line that is given back, before anything is written to it. -/
def reclaimed (s : State) : State :=
  let s1 := modSector (modDir s (daddrLine s) (fun d => { st := .uncached, waiting := d.waiting })) (daddrLine s) (fun m => { m with derelict := false })
  { s1 with depot := { s1.depot with drlCnt := s1.depot.drlCnt - 1 } }

theorem dirOf_reclaimed (s : State) : dirOf (reclaimed s) (daddrLine s) = { st := .uncached, waiting := (dirOf s (daddrLine s)).waiting } :=
  smap_get_set ..

theorem sectorOf_reclaimed (s : State) : (sectorOf (reclaimed s) (daddrLine s)).derelict = false :=
  congrArg Sector.derelict (smap_get_set ..)

theorem ddata_reclaimed (s : State) : (reclaimed s).depot.ddata = s.depot.ddata := rfl
theorem hbm_reclaimed (s : State) : (reclaimed s).hbm = s.hbm := rfl
theorem dirOf_writeSector (s : State) (g h : Nat) (key : BitVec 8) (v : Vec) : dirOf (writeSector s g key v) h = dirOf s h := by
  simp only [writeSector, modSector, dirOf]
theorem hbm_writeSector (s : State) (g : Nat) (key : BitVec 8) (v : Vec) :
    (writeSector s g key v).hbm = memWrite s.hbm (64 * g) (vecBytes v) := by
  simp only [writeSector, modSector]

/-- A reclaim of a line that nothing waits for. -/
theorem reclaim_of_derelict (hst : (dirOf s (daddrLine s)).st = .derelict) (hwait : (dirOf s (daddrLine s)).waiting = [])
    {f : State → Nat → State} (hf : dirOf (f (reclaimed s) (daddrLine s)) (daddrLine s) = dirOf (reclaimed s) (daddrLine s)) :
    reclaim s f = f (reclaimed s) (daddrLine s) := by
  have hst' : ((dirOf s (daddrLine s)).st == .derelict) = true := beq_iff_eq.mpr hst
  have hnone : (dirOf (f (reclaimed s) (daddrLine s)) (daddrLine s)).waiting = [] := by rw [hf, dirOf_reclaimed, hwait]
  have hrelease : releaseWaiting (f (reclaimed s) (daddrLine s)) (daddrLine s) = f (reclaimed s) (daddrLine s) := by
    rw [releaseWaiting, hnone]
  refine (if_neg (by simp only [hst', Bool.not_true, Bool.false_and, Bool.false_eq_true, not_false_eq_true])).trans hrelease

section
variable (hst : (dirOf s (daddrLine s)).st = .derelict) (hwait : (dirOf s (daddrLine s)).waiting = [])
include hst hwait

theorem exec_reclaimKeep_of_derelict : exec .reclaimKeep s = .next (reclaimed s) := by
  rw [exec_reclaimKeep, execReclaimKeep, event, reclaim_of_derelict hst hwait rfl]

theorem exec_reclaimData_of_derelict : exec (.reclaimData keyid) s = .next (writeSector (reclaimed s) (daddrLine s) keyid
    (vecOfBytes (s.depot.ddata.toList.flatMap (fun w => leBytes 8 w.toNat)))) := by
  have hr := reclaim_of_derelict (f := fun s g => writeSector s g keyid (vecOfBytes (s.depot.ddata.toList.flatMap (fun w => leBytes 8 w.toNat))))
    hst hwait (dirOf_writeSector ..)
  rw [exec_reclaimData, execReclaimData, event, hr, ddata_reclaimed]
end

theorem derelict_writeSector (s : State) (g : Nat) (key : BitVec 8) (v : Vec) :
    (sectorOf (writeSector s g key v) g).derelict = (sectorOf s g).derelict := by
  simp [writeSector, modSector, sectorOf]

theorem memRead_writeSector (s : State) (g : Nat) (key : BitVec 8) {bs : List Byte} (hlen : bs.length = 64) (h : s.hbm.wf = true) :
    memRead (writeSector s g key (vecOfBytes bs)).hbm (64 * g) 64 = bs := by
  have hread := memRead_memWrite bs s.hbm (64 * g) h
  rwa [hlen, ← vecBytes_vecOfBytes hlen, ← hbm_writeSector s g key, vecBytes_vecOfBytes hlen] at hread
end

section
variable {s s1 : State} {p : Packet}

/-! ## Charges and notices (04 R126; 01 R37) -/

theorem holdAccounts_nil (s : State) : holdAccounts s [] = s := by
  have hnone : overdrawn s [] = [] := by simp [overdrawn]
  simp [holdAccounts, hnone]

theorem exec_charge_tag (hone : fieldAt p.body 0 2 = 1) (htag : fieldAt p.body 8 2 ≠ 0) {acct : Nat}
    (hacct : acct = s.fareTags.get 0 (fieldAt p.body 8 2)) :
    exec (.charge p) s = .next (acknowledge (holdAccounts { s with
      balances := s.balances.set acct (s.balances.get 0 acct - (fieldAt p.body 12 4 : Int)) } [acct]) p [] 0 0 0 0) := by
  subst hacct
  rw [exec_charge, execCharge, event]
  simp [hone, htag, chargedTags]

theorem exec_charge_untagged (hone : fieldAt p.body 0 2 = 1) (htag : fieldAt p.body 8 2 = 0) :
    exec (.charge p) s = .next (acknowledge s p [] 0 0 0 0) := by
  rw [exec_charge, execCharge, event]
  simp [hone, htag, chargedTags, holdAccounts_nil]

theorem exec_chargeSend_none (h : s.charges = []) : exec .chargeSend s = .next s := by
  have hs : { s with charges := [] } = s := by rw [← h]
  rw [exec_chargeSend, execChargeSend, event]
  simp only [h, List.map_nil, List.dedup_nil, List.foldl_nil]
  exact congrArg _ hs

theorem exec_chargeSend_one {dev n m : Nat} (h : s.charges = [(dev, n, m)]) :
    exec .chargeSend s = .next { (sendRequest s dev none .charge 0 0 0x0D
      (leBytes 2 1 ++ List.replicate 6 0 ++ leBytes 2 n ++ [0, 0] ++ leBytes 4 m)).1 with charges := [] } := by
  have hof : chargesOf s dev = [(n, m)] := by simp [chargesOf, h]
  rw [exec_chargeSend, execChargeSend, event]
  simp [h, hof, sendCharges]

theorem exec_chargeSend_empties (s : State) : ∃ t, exec .chargeSend s = .next t ∧ t.charges = [] := by
  rw [exec_chargeSend, execChargeSend, event]
  exact ⟨_, rfl, rfl⟩

theorem exec_notice_bad (h : fieldAt p.body 0 8 % 32 ≠ 0 ∨ hbmSize ≤ fieldAt p.body 0 8) :
    exec (.notice p) s = .next (acknowledge s p [] 9 0x04 0x06 0) := by
  rw [exec_notice, execNotice, event]
  exact congrArg _ (if_pos (by simpa [or_iff_not_imp_left] using h))

theorem exec_notice_written {u : Unit} (hal : fieldAt p.body 0 8 % 32 = 0) (hhome : fieldAt p.body 0 8 < hbmSize)
    (hfirst : (dirOf s (fieldAt p.body 0 8 / 64)).waiting = [])
    (hwrite : depotWrite s (fieldAt p.body 0 8 / 64) 0 (granuleImage (fieldAt p.body 0 8 % 64) ((p.body.drop 8).take 32))
      (maskAt (fieldAt p.body 0 8 % 64) 32) 0 = .ok u s1) :
    exec (.notice p) s = .next (acknowledge s1 p [] 0 0 0 0) := by
  rw [exec_notice, execNotice, event]
  dsimp only
  rw [if_neg (by simp [hal, hhome]), withTurn_first p _ hfirst, hwrite]

/-! ## Messages of other devices (16 R390, R391; 15 R361) -/

theorem exec_sendPacket_bad (h : targetBad (fieldAt p.body 0 8) true = true) :
    exec (.sendPacket p) s = .next (refuse s { p with body := [] } 0x01 0x01) := by
  rw [exec_sendPacket, execSendPacket, event]
  exact congrArg _ (if_pos h)

section
variable (htarget : targetBad (fieldAt p.body 0 8) true = false)
include htarget

theorem exec_sendPacket_ostler (h : ostlerTile s ((targetOf (fieldAt p.body 0 8)).core / 4) = true) :
    exec (.sendPacket p) s = .next (refuse s { p with body := [] } 0x04 0x02) := by
  rw [exec_sendPacket, execSendPacket, event]
  exact congrArg _ ((if_neg (by simp [htarget])).trans (if_pos h))

theorem exec_sendPacket_delivered (h : ostlerTile s ((targetOf (fieldAt p.body 0 8)).core / 4) = false) :
    exec (.sendPacket p) s = (match sendArrives s (targetOf (fieldAt p.body 0 8)) (BitVec.ofNat 32 (fieldAt p.body 8 4)) none
        (vecOfBytes ((p.body.drop 16).take 64)) with
      | .held s1 => .next (acknowledge (charged s1 p) p [] 0 0 0 0)
      | .refused code sub => .next (refuse s { p with body := [] } code sub)
      | .full => .next (later s [.sendPacket p])) := by
  rw [exec_sendPacket, execSendPacket, event]
  simp only [htarget, h, Bool.false_eq_true, if_false]
  cases sendArrives s (targetOf (fieldAt p.body 0 8)) (BitVec.ofNat 32 (fieldAt p.body 8 4)) none (vecOfBytes ((p.body.drop 16).take 64)) <;> rfl
end

theorem exec_courierPacket_bad (h : targetBad (fieldAt p.body 0 8) false = true) :
    exec (.courierPacket p) s = .next (refuse s { p with body := [] } 0x01 0x01) := by
  rw [exec_courierPacket, execCourierPacket, event]
  exact congrArg _ (if_pos h)

section
variable (htarget : targetBad (fieldAt p.body 0 8) false = false) (hostler : ostlerTile s ((targetOf (fieldAt p.body 0 8)).core / 4) = false)
include htarget hostler

theorem exec_courierPacket_waits (h : 32 ≤ inboxUsed (getCore s (targetOf (fieldAt p.body 0 8)).core)) :
    exec (.courierPacket p) s = .next (later s [.courierPacket p]) := by
  rw [exec_courierPacket, execCourierPacket, event]
  exact congrArg _ ((if_neg (by simp [htarget])).trans ((if_neg (by simp [hostler])).trans (if_pos h)))

theorem exec_courierPacket_delivered (h : inboxUsed (getCore s (targetOf (fieldAt p.body 0 8)).core) < 32) :
    exec (.courierPacket p) s = .next (inboxCourier (charged s p) (targetOf (fieldAt p.body 0 8)).core
      (courierOf (p.body.drop 8) (fieldAt (p.body.drop 8) 1 1) 0 0 (some p))) := by
  rw [exec_courierPacket, execCourierPacket, event]
  exact congrArg _ ((if_neg (by simp [htarget])).trans ((if_neg (by simp [hostler])).trans (if_neg (Nat.not_le.mpr h))))
end

theorem fieldAt_drop (bs : List Byte) (k start n : Nat) : fieldAt (bs.drop k) start n = fieldAt bs (k + start) n := by
  rw [fieldAt, List.drop_drop, fieldAt]

@[simp] theorem getCore_charged (s : State) (p : Packet) (k : Nat) : getCore (charged s p) k = getCore s k := by
  unfold charged
  split <;> rfl

theorem inbox_inboxCourier (s : State) (core : Nat) (m : CourierMsg) :
    (getCore (inboxCourier s core m) core).inbox = (getCore s core).inbox ++ [.courier m] := by
  simp [inboxCourier]

theorem exec_msendPacket_ostler (h : ostlerTile s (msendTile p.body) = true) :
    exec (.msendPacket p) s = .next (refuse s { p with body := [] } 0x04 0x02) := by
  rw [exec_msendPacket, execMsendPacket, event, if_pos h]

theorem exec_msendPacket_arrives (h : ostlerTile s (msendTile p.body) = false) :
    exec (.msendPacket p) s = .next (msendArrives (charged s p) 0 0 (some p) p.body) := by
  rw [exec_msendPacket, execMsendPacket, event, if_neg (by simp [h])]

/-! ## TRINV (06 R167, R170) -/

section
variable (hheld : s.ostler.trinvHeld = []) {waits : List Nat × List EngineWork} {done : State}
  (hwaits : waits = trinvWaits s (fieldAt p.body 0 8) (fieldAt p.body 8 8) (fieldAt p.body 16 8))
  (hdone : done = trinvPart s (fieldAt p.body 0 8) (fieldAt p.body 8 8) (fieldAt p.body 16 8))
include hheld hwaits hdone

theorem exec_trinvPacket_first : exec (.trinvPacket p) s = .next (if waitsOn done waits.1 waits.2 then
      later { done with ostler := { done.ostler with trinvHeld := done.ostler.trinvHeld ++ [(p, waits)] } } [.trinvPacket p]
    else acknowledge done p [] 0 0 0 0) := by
  subst hwaits hdone
  rw [exec_trinvPacket, execTrinvPacket, event]
  simp only [hheld, List.find?_nil]
end

theorem exec_trinv_command {i : Instr} {v : Word} (hi : i ∈ [Instr.trinvRange v, .trinvAll v, .trinvGrants v]) :
    exec i s = .next (trinv s v) := by
  simp only [List.mem_cons, List.not_mem_nil, or_false] at hi
  rcases hi with rfl | rfl | rfl
  · rfl
  · rfl
  · rfl

/-- A command's own part on the device that it was written to. -/
def trinvOwn (s : State) (v : Word) : State := trinvPart (trinvStore s v) v.toNat s.ostler.trVa.toNat s.ostler.trLen.toNat

/-- A command that has done its own part and gone to other devices. -/
def trinvOrdered (s : State) (v : Word) (devs : List Nat) : State :=
  let waits := trinvWaits s v.toNat s.ostler.trVa.toNat s.ostler.trLen.toNat
  let body := leBytes 8 v.toNat ++ leBytes 8 s.ostler.trVa.toNat ++ leBytes 8 s.ostler.trLen.toNat
  let sent := devs.foldl (fun s d => (sendRequest s d none .trinv 0 0 0x0B body).1) (trinvOwn s v)
  { sent with ostler := { sent.ostler with trAcks := devs, trWait := waits.1, trUnits := waits.2 } }

section
variable {v : Word}

theorem trinv_busy (h : trinvBusy s = true) : trinv s v = { s with ostler := { s.ostler with trErr := true } } := if_pos h

section
variable (hbusy : trinvBusy s = false)
include hbusy

theorem trinv_refused (h3 : bits v.toNat 59 57 ≠ 3) (h4 : bits v.toNat 59 57 ≠ 4) : trinv s v = trinvRefuse (trinvStore s v) :=
  (if_neg (by simp [hbusy])).trans (if_pos (by simp [h3, h4]))

theorem trinv_ordered (h : bits v.toNat 59 57 = 3 ∨ bits v.toNat 59 57 = 4) :
    trinv s v = trinvOrdered s v (if bits v.toNat 59 57 = 4 then
      (List.range 8192).filter (fun d => !(d = devnum s) && hasRoute (trinvOwn s v) d) else []) :=
  (if_neg (by simp [hbusy])).trans (if_neg (by simpa [or_iff_not_imp_left] using h))

theorem trinv_here (h : bits v.toNat 59 57 = 3) : trinv s v = trinvOrdered s v [] := by
  rw [trinv_ordered hbusy (.inl h), if_neg (by simp [h])]

theorem trinv_domain (h : bits v.toNat 59 57 = 4) {dests : List Nat}
    (hdests : dests = (List.range 8192).filter (fun d => !(d = devnum s) && hasRoute (trinvOwn s v) d)) : trinv s v = trinvOrdered s v dests := by
  rw [trinv_ordered hbusy (.inr h), if_pos h, hdests]
end
end

end

section
variable {s : State}

/-- After TRINV_GRANTS no core's lookaside holds an entry of the domain. -/
theorem pdom_trinvOwn {v : Word} (h : bits v.toNat 63 60 = 3) (c : Nat) {e : PlbEntry} (he : e ∈ (getCore (trinvOwn s v) c).plb) :
    e.pdom.toNat ≠ bits v.toNat 47 32 := by
  have hcores : (trinvOwn s v).cores = s.cores.map (fun k => (k.1, { k.2 with plb := k.2.plb.filter (fun e => !(e.pdom.toNat = bits v.toNat 47 32)) })) := by
    simp [trinvOwn, trinvPart, trinvHere, staleReads, h, trinvStore]
  have hcore : (getCore (trinvOwn s v) c).plb = (getCore s c).plb.filter (fun e => !(e.pdom.toNat = bits v.toNat 47 32)) := by
    rw [getCore, hcores]
    exact congrArg CoreUnit.plb (smap_get_map s.cores (fun u => { u with plb := u.plb.filter (fun e => !(e.pdom.toNat = bits v.toNat 47 32)) }) {} c)
  rw [hcore] at he
  simpa using (List.mem_filter.mp he).2

theorem exec_goneClear_of_no_kill {dev : Nat} (h : s.contexts.filter (fun c => c.2.killing && decide (dev ∈ c.2.killAcks)) = []) :
    exec (.goneClear dev) s = .next { s with ostler := { s.ostler with gone := without s.ostler.gone dev } } := by
  rw [exec_goneClear, execGoneClear, event]
  simp only [h, List.foldl_nil]

/-! ## Waits of agents (06 R166; 02 R57) -/

section
variable {a : Agent}

theorem exec_migReread_idle (h : (getAgent s a).migReads = none) : exec (.migReread a) s = .next s := by
  rw [exec_migReread, execMigReread, event, h]

section
variable {ea n m : Nat}

theorem exec_migReread_done (h : (getAgent s a).migReads = some (ea, n, none)) : exec (.migReread a) s = .next s := by
  rw [exec_migReread, execMigReread, event, h]

theorem exec_migReread_waiting (h : (getAgent s a).migReads = some (ea, n, some m)) :
    exec (.migReread a) s = .next (if s.now < m then later s [.migReread a]
      else modAgent s a (fun t => { t with migReads := some (ea, n, none) })) := by
  rw [exec_migReread, execMigReread, event, h]
end

/-- The two ways in which a peer read brings nothing. -/
theorem exec_peer_failed {bytes : List Byte} {i : Instr} (hi : i ∈ [Instr.peerReadCompletion a false bytes, .peerLoadTimeout a]) :
    exec i s = .next (peerAnswer s a none) := by
  simp only [List.mem_cons, List.not_mem_nil, or_false] at hi
  rcases hi with rfl | rfl
  · rfl
  · rfl

theorem peerAnswer_of_load {bus n kind : Nat} {va : Word} (h : (getAgent s a).status = .awaitPeer bus n kind va) (bs : Option (List Byte)) :
    peerAnswer s a bs = modAgent s a (fun t => match bs with
      | some b => { t with status := .ready, peerBytes := t.peerBytes ++ [(bus, padTo n b)] }
      | none => { t with status := .ready, replyFault := some (faultInfo 0x0A 0x04 kind va 0) }) := by
  unfold peerAnswer
  simp only [h] <;> rfl

theorem peerAnswer_of_unit {r : Agent × Nat × Nat} (hready : (getAgent s a).status = .ready) (hr : s.peerReads.find? (fun r => r.1 == a) = some r)
    (bs : Option (List Byte)) : peerAnswer s a bs = { s with peerReads := s.peerReads.erase r, peerData := s.peerData.set r.2.1 bs } := by
  unfold peerAnswer
  simp only [hready, hr]

theorem peerAnswer_of_courier {c : Nat} (hready : (getAgent s (.courier c)).status = .ready)
    (hnone : s.peerReads.find? (fun r => r.1 == Agent.courier c) = none) (bs : Option (List Byte)) :
    peerAnswer s (.courier c) bs = if 2 ^ 40 ≤ c then pieceAnswer s (c - 2 ^ 40) bs
      else if 4096 ≤ c then slotAnswer s (c - 4096) (padTo 64 (bs.getD [])) else s := by
  unfold peerAnswer
  simp only [hready, hnone]
end

/-- A coach's fetcher gets its piece, named by coach, carriage and number. -/
theorem pieceAnswer_named {i j k : Nat} (hj : j < 4096) (hk : k < 2 ^ 20) (bs : Option (List Byte)) :
    pieceAnswer s ((4096 * i + j) * 2 ^ 20 + k) bs = later s (match bs with
      | some b => if b.isEmpty then [.carriageFetchFail i j 0x14] else [.carriagePiece i j (4096 * k) b]
      | none => [.carriageFetchFail i j 0x14]) := by
  have hcoach : ((4096 * i + j) * 2 ^ 20 + k) / 2 ^ 32 = i := by omega
  have hcarriage : ((4096 * i + j) * 2 ^ 20 + k) / 2 ^ 20 % 4096 = j := by omega
  have hpiece : ((4096 * i + j) * 2 ^ 20 + k) % 2 ^ 20 = k := by omega
  unfold pieceAnswer
  dsimp only
  rw [hcoach, hcarriage, hpiece] <;> rfl

theorem peerAnswer_of_piece {i j k : Nat} (hj : j < 4096) (hk : k < 2 ^ 20) (hready : (getAgent s (pieceAgent i j k)).status = .ready)
    (hnone : s.peerReads.find? (fun r => r.1 == pieceAgent i j k) = none) (bs : Option (List Byte)) :
    peerAnswer s (pieceAgent i j k) bs = later s (match bs with
      | some b => if b.isEmpty then [.carriageFetchFail i j 0x14] else [.carriagePiece i j (4096 * k) b]
      | none => [.carriageFetchFail i j 0x14]) := by
  refine (peerAnswer_of_courier hready hnone bs).trans ?_
  rw [if_pos (Nat.le_add_right ..), Nat.add_sub_cancel_left, pieceAnswer_named hj hk]

theorem peerAnswer_of_slot {slot : Nat} (hslot : slot < 65536) (hready : (getAgent s (.courier (4096 + slot))).status = .ready)
    (hnone : s.peerReads.find? (fun r => r.1 == Agent.courier (4096 + slot)) = none) (bs : Option (List Byte)) :
    peerAnswer s (.courier (4096 + slot)) bs = slotAnswer s slot (padTo 64 (bs.getD [])) := by
  rw [peerAnswer_of_courier hready hnone, if_neg (by omega), if_pos (Nat.le_add_right ..), Nat.add_sub_cancel_left]

end

/-- Settles O49, a lemma for each message and each of its outcomes. -/
theorem fabricMessagesAct : Obligations.FabricMessagesAct := by
  unfold Obligations.FabricMessagesAct
  intro s s1 p v keyid a n m ea bus kind dev slot va bytes b mt no okay line d recorded
  refine ⟨exec_gen p s, fun hone => ⟨fun htag => exec_charge_tag hone htag rfl, exec_charge_untagged hone⟩, exec_chargeSend_none, exec_chargeSend_one,
    exec_chargeSend_empties s, exec_notice_bad, fun _ => exec_notice_written, exec_sendPacket_bad, exec_sendPacket_ostler, exec_sendPacket_delivered,
    exec_courierPacket_bad, fun htarget hostler => ⟨fun hroom => ?_, exec_courierPacket_waits htarget hostler⟩, exec_msendPacket_ostler,
    exec_msendPacket_arrives, exec_killPacket p s, ⟨fun hheld hwait => ?_, fun hheld hwait => ?_⟩, fun i hi => ?_, exec_goneClear_of_no_kill,
    exec_peek_outside, exec_peek_inside, fun hst hder i hi => ?_, fun hst hwait => ⟨?_, ?_⟩, exec_migReread_idle, exec_migReread_done,
    fun hmig => ⟨fun hnow => ?_, fun hnow => ?_⟩, fun hload => ⟨?_, fun i hi => ?_⟩, fun r hready hr => ⟨?_, fun i hi => ?_⟩,
    fun i _ j hj k hk => ?_, fun hslot => ?_⟩
  · refine ⟨_, courierOf (b.drop 8) (fieldAt (b.drop 8) 1 1) 0 0 (some p), exec_courierPacket_delivered htarget hostler hroom, ?_, fieldAt_drop b 8 1 1, rfl⟩
    rw [inbox_inboxCourier, getCore_charged]
  · exact (exec_trinvPacket_first hheld rfl rfl).trans (congrArg _ (if_neg (ne_true_of_eq_false hwait)))
  · exact (exec_trinvPacket_first hheld rfl rfl).trans (congrArg _ (if_pos hwait))
  · intro waits here dests body sent
    have hcmd := exec_trinv_command (s := s) hi
    have hdests : dests = (List.range 8192).filter (fun d => !(d = devnum s) && hasRoute (trinvOwn s v) d) := rfl
    clear_value dests
    refine ⟨fun hbusy => hcmd.trans (congrArg _ (trinv_busy hbusy)), fun hbusy h => hcmd.trans (congrArg _ (trinv_here hbusy h)),
      fun hbusy h => hcmd.trans (congrArg _ (trinv_domain hbusy h hdests)),
      fun hbusy h3 h4 => hcmd.trans (congrArg _ (trinv_refused hbusy h3 h4)), fun h c e he => pdom_trinvOwn h c he⟩
  · simp only [List.mem_cons, List.not_mem_nil, or_false] at hi
    rcases hi with rfl | rfl
    · exact congrArg Host.Outcome.next (reclaim_refused hst hder _)
    · exact congrArg Host.Outcome.next (reclaim_refused hst hder _)
  · exact ⟨_, exec_reclaimKeep_of_derelict hst hwait, congrArg DirEntry.st (dirOf_reclaimed s), sectorOf_reclaimed s, hbm_reclaimed s, rfl⟩
  · refine ⟨_, exec_reclaimData_of_derelict hst hwait, ?_, (derelict_writeSector ..).trans (sectorOf_reclaimed s), fun hwf => ?_⟩
    · exact congrArg DirEntry.st ((dirOf_writeSector ..).trans (dirOf_reclaimed s))
    · exact memRead_writeSector (reclaimed s) line keyid (length_words _) hwf
  · exact (exec_migReread_waiting hmig).trans (congrArg _ (if_pos hnow))
  · exact (exec_migReread_waiting hmig).trans (congrArg _ (if_neg (Nat.not_lt.mpr hnow)))
  · exact congrArg Host.Outcome.next (peerAnswer_of_load hload (some bytes))
  · exact (exec_peer_failed hi).trans (congrArg _ (peerAnswer_of_load hload none))
  · exact congrArg Host.Outcome.next (peerAnswer_of_unit hready hr (some bytes))
  · exact (exec_peer_failed hi).trans (congrArg _ (peerAnswer_of_unit hready hr none))
  · intro q hready hnone
    have hanswer := peerAnswer_of_piece hj hk hready hnone
    refine ⟨fun hbytes => congrArg Host.Outcome.next ((hanswer (some bytes)).trans ?_), congrArg Host.Outcome.next (hanswer none)⟩
    simp [hbytes]
  · intro q hready hnone
    have hanswer := peerAnswer_of_slot hslot hready hnone (some bytes)
    refine ⟨fun hfetch => congrArg Host.Outcome.next (hanswer.trans ?_), fun hfetch => congrArg Host.Outcome.next (hanswer.trans ?_)⟩
    · rw [slotAnswer, hfetch]
      rfl
    · rw [slotAnswer, hfetch]
      rfl

end Sys2Proof.Machine
end

section
/-!
PROOFS. Bit fields that are written and read back (00 R11), and one step of a barrier word (07 R202, R203; O34).
-/
namespace Sys2Proof.Machine

/-! ## A field read after a field is written (00 R11) -/

theorem testBit_bits (v hi lo i : Nat) : (bits v hi lo).testBit i = (decide (i < hi + 1 - lo) && v.testBit (lo + i)) := by
  rw [bits, Nat.testBit_mod_two_pow, Nat.testBit_div_two_pow, Nat.add_comm i lo]

/-- The new field stands between what was above it and what was below it. -/
theorem setBits_eq_parts (v hi lo x : Nat) :
    setBits v hi lo x = 2 ^ lo * (2 ^ (hi + 1 - lo) * (v / 2 ^ lo / 2 ^ (hi + 1 - lo)) + x % 2 ^ (hi + 1 - lo)) + v % 2 ^ lo := by
  have hlow := Nat.div_add_mod v (2 ^ lo)
  have hfield := Nat.div_add_mod (v / 2 ^ lo) (2 ^ (hi + 1 - lo))
  have hv : v = 2 ^ lo * (2 ^ (hi + 1 - lo) * (v / 2 ^ lo / 2 ^ (hi + 1 - lo))) + bits v hi lo * 2 ^ lo + v % 2 ^ lo := by
    rw [bits, Nat.mul_comm _ (2 ^ lo), ← Nat.mul_add, hfield, hlow]
  rw [setBits, Nat.mul_add, Nat.mul_comm (x % _) (2 ^ lo)]
  omega

theorem testBit_setBits {hi lo : Nat} (h : lo ≤ hi) (v x i : Nat) :
    (setBits v hi lo x).testBit i = if lo ≤ i ∧ i ≤ hi then x.testBit (i - lo) else v.testBit i := by
  rw [setBits_eq_parts, Nat.testBit_two_pow_mul_add _ (Nat.mod_lt _ (Nat.two_pow_pos lo))]
  by_cases hbelow : i < lo
  · rw [if_pos hbelow, if_neg (by omega), Nat.testBit_mod_two_pow, decide_eq_true hbelow, Bool.true_and]
  · rw [if_neg hbelow, Nat.testBit_two_pow_mul_add _ (Nat.mod_lt _ (Nat.two_pow_pos _))]
    by_cases habove : i ≤ hi
    · rw [if_pos (by omega), if_pos (by omega), Nat.testBit_mod_two_pow, decide_eq_true (by omega), Bool.true_and]
    · rw [if_neg (by omega), if_neg (by omega), Nat.testBit_div_two_pow, Nat.testBit_div_two_pow]
      congr 1
      omega

/-- The field itself is what was written, cut to its width. -/
@[simp] theorem bits_setBits_same (v hi lo x : Nat) : bits (setBits v hi lo x) hi lo = x % 2 ^ (hi + 1 - lo) := by
  rw [bits, setBits_eq_parts, Nat.mul_add_div (Nat.two_pow_pos lo), Nat.div_eq_of_lt (Nat.mod_lt _ (Nat.two_pow_pos lo)), Nat.add_zero,
    Nat.mul_add_mod, Nat.mod_mod]

@[simp] theorem bits_setBits_of_below {hi lo hi' lo' : Nat} (h : lo ≤ hi) (hb : hi' < lo) (v x : Nat) :
    bits (setBits v hi lo x) hi' lo' = bits v hi' lo' := by
  refine Nat.eq_of_testBit_eq fun i => ?_
  rw [testBit_bits, testBit_bits, testBit_setBits h]
  by_cases hin : i < hi' + 1 - lo'
  · rw [if_neg (by omega)]
  · rw [decide_eq_false hin, Bool.false_and, Bool.false_and]

@[simp] theorem bits_setBits_of_above {hi lo hi' lo' : Nat} (h : lo ≤ hi) (ha : hi < lo') (v x : Nat) :
    bits (setBits v hi lo x) hi' lo' = bits v hi' lo' := by
  refine Nat.eq_of_testBit_eq fun i => ?_
  rw [testBit_bits, testBit_bits, testBit_setBits h, if_neg (by omega)]

/-! ## ERR takes the first failure's code (07 R203) -/

section
variable {w code : Nat}

theorem err_barErr (hcode : code < 128) : bits (barErr w code) 62 56 = if bits w 62 56 = 0 then code else bits w 62 56 := by
  by_cases hfirst : bits w 62 56 = 0
  · rw [barErr, if_pos hfirst, if_pos hfirst, bits_setBits_same]
    exact Nat.mod_eq_of_lt hcode
  · rw [barErr, if_neg hfirst, if_neg hfirst]

@[simp] theorem bits_barErr_of_below {hi lo : Nat} (h : hi < 56) : bits (barErr w code) hi lo = bits w hi lo := by
  rw [barErr]
  split <;> simp [h]

@[simp] theorem bits_barErr_of_above {hi lo : Nat} (h : 62 < lo) : bits (barErr w code) hi lo = bits w hi lo := by
  rw [barErr]
  split <;> simp [h]

end

/-! ## An update before the phase test (07 R203) -/

section
variable (w n : Nat)

theorem arrivals_arrive : bits (barApply w .arrive) 55 32 = (bits w 55 32 + (2 ^ 24 - 1)) % 2 ^ 24 := by simp [barApply]

theorem bytes_arrive : bits (barApply w .arrive) 31 0 = bits w 31 0 := by simp [barApply]

theorem bytes_expect : bits (barApply w (.expect n)) 31 0 = (bits w 31 0 + n) % 2 ^ 32 := by simp [barApply]

theorem arrivals_expect : bits (barApply w (.expect n)) 55 32 = bits w 55 32 := by simp [barApply]

theorem arrivals_land : bits (barApply w (.land n)) 55 32 = bits w 55 32 := by simp [barApply]

variable {n} (hn : n ≤ 2 ^ 32)
include hn

/-- Counting `n` bytes down modulo 2^32 does not see the multiples of 2^32 in `n`. -/
theorem bytes_down (b : Nat) : (b + (0x100000000 - n % 0x100000000)) % 2 ^ 32 = (b + 2 ^ 32 - n) % 2 ^ 32 := by omega

theorem bytes_land : bits (barApply w (.land n)) 31 0 = (bits w 31 0 + 2 ^ 32 - n) % 2 ^ 32 := by
  simpa [barApply] using bytes_down hn (bits w 31 0)

theorem bytes_fail (code : Nat) : bits (barApply w (.fail code n)) 31 0 = (bits w 31 0 + 2 ^ 32 - n) % 2 ^ 32 := by
  simpa [barApply] using bytes_down hn (bits w 31 0)

end

theorem err_fail (w n : Nat) {code : Nat} (hcode : code < 128) :
    bits (barApply w (.fail code n)) 62 56 = if bits w 62 56 = 0 then code else bits w 62 56 := by
  simp [barApply, err_barErr hcode]

/-- No update touches PHASE: only the test after it does. -/
theorem phase_barApply (w : Nat) (u : BarUpdate) : bits (barApply w u) 63 63 = bits w 63 63 := by
  cases u with
  | arrive => simp [barApply]
  | expect n => simp [barApply]
  | land n => simp [barApply]
  | fail code n => simp [barApply]
  | arriveFail code => simp [barApply]

/-! ## The phase test (07 R203) -/

/-- The word of the next phase: PHASE flipped, ARRIVALS from the reload word, BYTES 0. -/
def nextPhase (v reload : Nat) : Nat :=
  setBits (setBits (setBits v 63 63 (1 - bits v 63 63)) 55 32 (bits reload 23 0)) 31 0 0

theorem barStep_of_zero {w reload : Nat} {u : BarUpdate} (ha : bits (barApply w u) 55 32 = 0) (hb : bits (barApply w u) 31 0 = 0) :
    barStep w reload u = nextPhase (barApply w u) reload := by
  rw [barStep, if_pos (by simp [ha, hb]), nextPhase]

theorem barStep_of_ne {w reload : Nat} {u : BarUpdate} (h : bits (barApply w u) 55 32 ≠ 0 ∨ bits (barApply w u) 31 0 ≠ 0) :
    barStep w reload u = barApply w u := by
  rw [barStep, if_neg (by simpa [← not_and_or] using h)]

section
variable (v reload : Nat)

@[simp] theorem phase_nextPhase : bits (nextPhase v reload) 63 63 = 1 - bits v 63 63 := by
  have hone : (1 - bits v 63 63) % 2 = 1 - bits v 63 63 := by omega
  simp [nextPhase, hone]

@[simp] theorem err_nextPhase : bits (nextPhase v reload) 62 56 = bits v 62 56 := by simp [nextPhase]

@[simp] theorem arrivals_nextPhase : bits (nextPhase v reload) 55 32 = bits reload 23 0 := by
  have hwidth : bits reload 23 0 < 2 ^ 24 := Nat.mod_lt _ (by decide)
  simpa [nextPhase] using Nat.mod_eq_of_lt hwidth

@[simp] theorem bytes_nextPhase : bits (nextPhase v reload) 31 0 = 0 := by simp [nextPhase]

end

/-- Settles O34, field by field: an update by what it writes, the phase test by `nextPhase`. -/
theorem barrierStepsCountAndFlip : Obligations.BarrierStepsCountAndFlip := by
  unfold Obligations.BarrierStepsCountAndFlip
  intro w reload n code u _ _ hcode v r
  refine ⟨⟨arrivals_arrive w, bytes_arrive w⟩, ⟨bytes_expect w n, arrivals_expect w n⟩,
    fun hn => ⟨bytes_land w hn, arrivals_land w n, bytes_fail w hn code, err_fail w n hcode⟩,
    phase_barApply w u, fun ha hb => ?_, barStep_of_ne⟩
  have hr : r = nextPhase v reload := barStep_of_zero ha hb
  have hphase : bits v 63 63 = bits w 63 63 := phase_barApply w u
  simp [hr, hphase]

end Sys2Proof.Machine
end

section
/-!
PROOFS. NaN results of the floating-point operations (09 R229, R235; O6).
-/
namespace Sys2Proof.Machine

/-! ## The fields of a datum (09 R229) -/

/-- The least widths at which a format has finite numbers and a quiet NaN apart from infinity. -/
structure Fmt.Proper (f : Fmt) : Prop where
  ebits : 0 < f.ebits
  fbits : 0 < f.fbits

theorem proper_of_mem_formats {f : Fmt} (hf : f ∈ formats) : f.Proper := by
  simp only [formats, List.mem_cons, List.not_mem_nil, or_false] at hf
  rcases hf with rfl | rfl | rfl | rfl <;> exact ⟨by decide, by decide⟩

theorem expMax_lt (f : Fmt) : f.expMax < 2 ^ f.ebits := Nat.sub_lt (Nat.two_pow_pos _) one_pos

section
variable {f : Fmt} (hf : f.Proper)
include hf

/-- A datum is a NaN where its exponent field is all ones and its fraction is not zero. -/
theorem isNan_fdecode (b : Nat) : isNan (fdecode f b) = true ↔ b / 2 ^ f.fbits % 2 ^ f.ebits = f.expMax ∧ b % 2 ^ f.fbits ≠ 0 := by
  have hfrac : bits b (f.fbits - 1) 0 = b % 2 ^ f.fbits := by
    rw [bits, pow_zero, Nat.div_one, Nat.sub_zero, Nat.sub_add_cancel hf.fbits]
  have hexp : bits b (f.fbits + f.ebits - 1) f.fbits = b / 2 ^ f.fbits % 2 ^ f.ebits := by
    have := hf.ebits
    rw [bits, show f.fbits + f.ebits - 1 + 1 - f.fbits = f.ebits by omega]
  unfold fdecode
  simp only [hfrac, hexp]
  split
  case isTrue hex => split <;> simp [isNan, *]
  case isFalse hex => split <;> simp [isNan, hex]

/-- A datum put together from its fields is no NaN, unless the exponent is all ones and the fraction is not zero. -/
theorem isNan_fields {neg : Bool} {ex frac : Nat} (hex : ex < 2 ^ f.ebits) (hfrac : frac < 2 ^ f.fbits) (hfin : ex = f.expMax → frac = 0) :
    isNan (fdecode f (zeroBits f neg + ex * 2 ^ f.fbits + frac)) = false := by
  have hsign : ∃ s, zeroBits f neg = s * 2 ^ f.ebits * 2 ^ f.fbits := by
    unfold zeroBits Fmt.width
    cases neg with
    | false => exact ⟨0, by simp⟩
    | true => exact ⟨1, by rw [if_pos rfl, one_mul, ← pow_add, Nat.add_assoc, Nat.add_sub_cancel_left]⟩
  obtain ⟨s, hs⟩ := hsign
  have hdatum : zeroBits f neg + ex * 2 ^ f.fbits + frac = 2 ^ f.fbits * (2 ^ f.ebits * s + ex) + frac := by rw [hs]; ring
  rw [Bool.eq_false_iff, Ne, isNan_fdecode hf, hdatum, Nat.mul_add_div (Nat.two_pow_pos _), Nat.div_eq_of_lt hfrac, Nat.add_zero,
    Nat.mul_add_mod, Nat.mod_eq_of_lt hex, Nat.mul_add_mod, Nat.mod_eq_of_lt hfrac]
  exact fun ⟨hmax, hne⟩ => hne (hfin hmax)

theorem expMax_pos : 0 < f.expMax := Nat.sub_pos_of_lt (Nat.one_lt_two_pow hf.ebits.ne')

theorem isNan_zeroBits (neg : Bool) : isNan (fdecode f (zeroBits f neg)) = false := by
  simpa using isNan_fields hf (neg := neg) (Nat.two_pow_pos _) (Nat.two_pow_pos _) (fun _ => rfl)

theorem isNan_infBits (neg : Bool) : isNan (fdecode f (infBits f neg)) = false :=
  isNan_fields hf (neg := neg) (frac := 0) (expMax_lt f) (Nat.two_pow_pos _) (fun _ => rfl)

/-- The greatest finite datum has every field at its greatest value. -/
theorem maxFinite_eq (neg : Bool) : maxFinite f neg = zeroBits f neg + (f.expMax - 1) * 2 ^ f.fbits + (2 ^ f.fbits - 1) := by
  have hpow := Nat.two_pow_pos f.fbits
  have hmul : f.expMax * 2 ^ f.fbits = (f.expMax - 1) * 2 ^ f.fbits + 2 ^ f.fbits := by
    rw [← Nat.succ_mul, Nat.succ_eq_add_one, Nat.sub_add_cancel (expMax_pos hf)]
  have hinf : infBits f neg = zeroBits f neg + f.expMax * 2 ^ f.fbits := rfl
  rw [maxFinite, hinf]
  omega

end

/-! ## A rounded magnitude fits its format (09 R235) -/

theorem lt_two_pow_bitLen (m : Nat) : m < 2 ^ bitLen m := by
  unfold bitLen
  split
  · simp [*]
  · exact Nat.lt_log2_self

/-- A magnitude below 2^(`q` + `w`) is rounded to no more than 2^`w` multiples of 2^`q`. -/
theorem roundTo_le (mode : Nat) (neg : Bool) (m : Nat) (e q : Int) (sticky : Bool) (w : Nat) (h : e + (bitLen m : Nat) ≤ q + w) :
    (roundTo mode neg m e q sticky).1 ≤ 2 ^ w := by
  have hm := lt_two_pow_bitLen m
  unfold roundTo
  split
  case isTrue hq =>
    calc m * 2 ^ (e - q).toNat ≤ 2 ^ bitLen m * 2 ^ (e - q).toNat := Nat.mul_le_mul_right _ hm.le
      _ = 2 ^ (bitLen m + (e - q).toNat) := (pow_add ..).symm
      _ ≤ 2 ^ w := Nat.pow_le_pow_right two_pos (by omega)
  case isFalse hq =>
    have hlt : m / 2 ^ (q - e).toNat < 2 ^ w := by
      rw [Nat.div_lt_iff_lt_mul (Nat.two_pow_pos _), ← pow_add]
      exact hm.trans_le (Nat.pow_le_pow_right two_pos (by omega))
    dsimp only
    split <;> omega

/-- A magnitude of 2^(`n` + 1) multiples of 2^`q` is written as 2^`n` of the next power. -/
theorem carry_lt {k n : Nat} (q : Int) (hk : k ≤ 2 ^ (n + 1)) : (if k = 2 ^ (n + 1) then (2 ^ n, q + 1) else (k, q)).1 < 2 ^ (n + 1) := by
  split
  · exact Nat.pow_lt_pow_succ one_lt_two
  · exact lt_of_le_of_ne hk ‹_›

section
variable {f : Fmt} (hf : f.Proper)
include hf

/-- Rounding gives an infinity or the fields of a finite datum. -/
theorem fround_inf_or_fin (mode : Nat) (neg : Bool) (m : Nat) (e : Int) (sticky : Bool) :
    (fround f mode neg m e sticky).1 = infBits f neg ∨
    ∃ ex frac, ex < f.expMax ∧ frac < 2 ^ f.fbits ∧ (fround f mode neg m e sticky).1 = zeroBits f neg + ex * 2 ^ f.fbits + frac := by
  have hmax := expMax_pos hf
  unfold fround
  split
  case isTrue => exact .inr ⟨0, 0, hmax, Nat.two_pow_pos _, by simp⟩
  dsimp only
  set q := max (e + (bitLen m : Nat) - 1 - f.fbits) (f.emin - f.fbits) with hq
  have hk := roundTo_le mode neg m e q sticky (f.fbits + 1) (by push_cast; omega)
  have hcarry := carry_lt q hk
  generalize (if (roundTo mode neg m e q sticky).1 = 2 ^ (f.fbits + 1) then _ else _) = p at hcarry ⊢
  split
  case isTrue =>
    split
    · exact .inl rfl
    · exact .inr ⟨f.expMax - 1, 2 ^ f.fbits - 1, Nat.sub_lt hmax one_pos, Nat.sub_lt (Nat.two_pow_pos _) one_pos, maxFinite_eq hf neg⟩
  case isFalse hover =>
    split
    case isTrue hnormal => exact .inr ⟨_, p.1 - 2 ^ f.fbits, by omega, by omega, rfl⟩
    case isFalse hsub => exact .inr ⟨0, p.1, hmax, not_le.mp hsub, by rw [Nat.zero_mul, Nat.add_zero]; rfl⟩

theorem isNan_fround (mode : Nat) (neg : Bool) (m : Nat) (e : Int) (sticky : Bool) :
    isNan (fdecode f (fround f mode neg m e sticky).1) = false := by
  obtain h | ⟨ex, frac, hex, hfrac, h⟩ := fround_inf_or_fin hf mode neg m e sticky
  · rw [h, isNan_infBits hf]
  · rw [h]
    exact isNan_fields hf (hex.trans (expMax_lt f)) hfrac (fun hmax => absurd hmax hex.ne)

end

/-! ## An operation's result is canonical where it is a NaN (09 R235) -/

/-- A result that is no NaN but the canonical one. -/
structure CanonicalIfNan (f : Fmt) (r : Nat × Nat) : Prop where
  canonical : isNan (fdecode f r.1) = true → r.1 = canonNan f

theorem CanonicalIfNan.canon {f : Fmt} (flags : Nat) : CanonicalIfNan f (canonNan f, flags) := ⟨fun _ => rfl⟩

theorem CanonicalIfNan.of_not_nan {f : Fmt} {r : Nat × Nat} (h : isNan (fdecode f r.1) = false) : CanonicalIfNan f r :=
  ⟨fun hnan => absurd hnan (by simp [h])⟩

theorem CanonicalIfNan.ite {f : Fmt} {p : Prop} [Decidable p] {r r' : Nat × Nat} (hr : CanonicalIfNan f r) (hr' : CanonicalIfNan f r') :
    CanonicalIfNan f (if p then r else r') := by
  split
  · exact hr
  · exact hr'

section
variable {f : Fmt} (hf : f.Proper) (mode : Nat)
include hf

theorem canonical_infBits (neg : Bool) (flags : Nat) : CanonicalIfNan f (infBits f neg, flags) := .of_not_nan (isNan_infBits hf neg)

theorem canonical_zeroBits (neg : Bool) (flags : Nat) : CanonicalIfNan f (zeroBits f neg, flags) := .of_not_nan (isNan_zeroBits hf neg)

theorem canonical_fround (neg : Bool) (m : Nat) (e : Int) (sticky : Bool) : CanonicalIfNan f (fround f mode neg m e sticky) :=
  .of_not_nan (isNan_fround hf mode neg m e sticky)

theorem canonical_froundInt (v e : Int) (zneg : Bool) : CanonicalIfNan f (froundInt f mode v e zneg) :=
  .ite (canonical_zeroBits hf ..) (canonical_fround hf ..)

theorem canonical_fpack (v : FVal) : CanonicalIfNan f (fpack f mode v) := by
  cases v with
  | nan s => exact .canon _
  | inf n => exact canonical_infBits hf ..
  | fin n m e => exact canonical_fround hf ..

theorem canonical_faddV (x y : FVal) : CanonicalIfNan f (faddV f mode x y) := by
  unfold faddV
  split
  · exact .canon _
  · exact .canon _
  · exact .ite (canonical_infBits hf ..) (.canon _)
  · exact canonical_infBits hf ..
  · exact canonical_infBits hf ..
  · exact .ite (canonical_zeroBits hf ..) (canonical_froundInt hf ..)

theorem canonical_fmul (x y : Nat) : CanonicalIfNan f (fmul f mode x y) := by
  unfold fmul
  split
  · exact .canon _
  · exact canonical_fpack hf ..

theorem canonical_ffma (np nc : Bool) (x y z : Nat) : CanonicalIfNan f (ffma f mode np nc x y z) := by
  unfold ffma
  dsimp only
  split
  · exact .canon _
  · exact .ite (.canon _) (canonical_faddV hf ..)

theorem canonical_fdiv (x y : Nat) : CanonicalIfNan f (fdiv f mode x y) := by
  unfold fdiv
  dsimp only
  split
  · exact .canon _
  · exact .canon _
  · exact .canon _
  · exact canonical_infBits hf ..
  · exact canonical_zeroBits hf ..
  · exact .ite (.ite (.canon _) (canonical_infBits hf ..)) (.ite (canonical_zeroBits hf ..) (canonical_fround hf ..))

theorem canonical_fsqrt (x : Nat) : CanonicalIfNan f (fsqrt f mode x) := by
  unfold fsqrt
  split
  · exact .canon _
  · exact .ite (.canon _) (canonical_infBits hf ..)
  · exact .ite (canonical_zeroBits hf ..) (.ite (.canon _) (canonical_fround hf ..))

end

/-! ## NaN operands and invalid operations (09 R235) -/

theorem eq_nan_of_isNan {v : FVal} (h : isNan v = true) : ∃ s, v = .nan s := by
  cases v with
  | nan s => exact ⟨s, rfl⟩
  | inf n => cases h
  | fin n m e => cases h

theorem snanFlag_two (u v : FVal) : snanFlag [u, v] = if isSnan u || isSnan v then 16 else 0 := by
  simp [snanFlag]

theorem snanFlag_three (u v w : FVal) : snanFlag [u, v, w] = if isSnan u || isSnan v || isSnan w then 16 else 0 := by
  simp [snanFlag, Bool.or_assoc]

section
variable {f : Fmt} {mode x y z : Nat} {np nc : Bool}

theorem faddV_of_nan {v w : FVal} (h : isNan v = true ∨ isNan w = true) :
    faddV f mode v w = (canonNan f, if isSnan v || isSnan w then 16 else 0) := by
  rcases h with h | h
  · obtain ⟨s, rfl⟩ := eq_nan_of_isNan h
    rfl
  · obtain ⟨s, rfl⟩ := eq_nan_of_isNan h
    cases v <;> rfl

theorem mulV_of_nan {v w : FVal} (h : isNan v = true ∨ isNan w = true) : mulV v w = some (.nan (isSnan v || isSnan w)) := by
  rcases h with h | h
  · obtain ⟨s, rfl⟩ := eq_nan_of_isNan h
    rfl
  · obtain ⟨s, rfl⟩ := eq_nan_of_isNan h
    cases v <;> rfl

@[simp] theorem isNan_negV (v : FVal) : isNan (negV v) = isNan v := by cases v <;> rfl

@[simp] theorem isSnan_negV (v : FVal) : isSnan (negV v) = isSnan v := by cases v <;> rfl

theorem fmul_of_some {v : FVal} (h : mulV (fdecode f x) (fdecode f y) = some v) : fmul f mode x y = fpack f mode v := by
  rw [fmul, h]

theorem fmul_of_none (h : mulV (fdecode f x) (fdecode f y) = none) : fmul f mode x y = (canonNan f, 16) := by
  rw [fmul, h]

theorem ffma_of_none (h : mulV (fdecode f x) (fdecode f y) = none) : ffma f mode np nc x y z = (canonNan f, 16) := by
  simp only [ffma, h]

theorem ffma_of_some {v : FVal} (h : mulV (fdecode f x) (fdecode f y) = some v) : ffma f mode np nc x y z =
    if isNan v || isNan (fdecode f z) then (canonNan f, snanFlag [fdecode f x, fdecode f y, fdecode f z])
    else faddV f mode (if np then negV v else v) (if nc then negV (fdecode f z) else fdecode f z) := by
  simp only [ffma, h]

theorem fdiv_of_nan (h : isNan (fdecode f x) = true ∨ isNan (fdecode f y) = true) :
    fdiv f mode x y = (canonNan f, if isSnan (fdecode f x) || isSnan (fdecode f y) then 16 else 0) := by
  rw [← snanFlag_two, fdiv]
  rcases h with h | h
  · obtain ⟨s, hs⟩ := eq_nan_of_isNan h
    rw [hs]
  · obtain ⟨s, hs⟩ := eq_nan_of_isNan h
    cases hx : fdecode f x <;> rw [hs]

theorem fsqrt_of_nan (h : isNan (fdecode f x) = true) : fsqrt f mode x = (canonNan f, if isSnan (fdecode f x) then 16 else 0) := by
  obtain ⟨s, hs⟩ := eq_nan_of_isNan h
  rw [fsqrt, hs]
  rfl

theorem ffma_of_nan (h : isNan (fdecode f x) = true ∨ isNan (fdecode f y) = true ∨ isNan (fdecode f z) = true) :
    (ffma f mode np nc x y z).1 = canonNan f ∧
    (isSnan (fdecode f x) || isSnan (fdecode f y) || isSnan (fdecode f z) → (ffma f mode np nc x y z).2 = 16) := by
  cases hmul : mulV (fdecode f x) (fdecode f y) with
  | none => simp [ffma_of_none hmul]
  | some v =>
    have hnan : (isNan v || isNan (fdecode f z)) = true := by
      rw [← or_assoc] at h
      rcases h with h | h
      · rw [mulV_of_nan h] at hmul
        cases hmul
        rfl
      · rw [h, Bool.or_true]
    rw [ffma_of_some hmul, if_pos hnan]
    exact ⟨rfl, fun hsnan => (snanFlag_three ..).trans (if_pos hsnan)⟩

theorem fdiv_inf_inf {g h : Bool} (hx : fdecode f x = .inf g) (hy : fdecode f y = .inf h) : fdiv f mode x y = (canonNan f, 16) := by
  rw [fdiv, hx, hy]

theorem fdiv_zero_zero {g h : Bool} {d e : Int} (hx : fdecode f x = .fin g 0 d) (hy : fdecode f y = .fin h 0 e) :
    fdiv f mode x y = (canonNan f, 16) := by
  rw [fdiv, hx, hy]
  rfl

theorem faddV_inf_inf {g h : Bool} (hne : g ≠ h) : faddV f mode (.inf g) (.inf h) = (canonNan f, 16) := if_neg hne

theorem mulV_inf_zero {g h : Bool} {e : Int} {v w : FVal} (hvw : (v = .inf g ∧ w = .fin h 0 e) ∨ (v = .fin h 0 e ∧ w = .inf g)) :
    mulV v w = none := by
  rcases hvw with ⟨rfl, rfl⟩ | ⟨rfl, rfl⟩
  · rfl
  · rfl

theorem fsqrt_of_negative {m : Nat} {e : Int} (hx : fdecode f x = .inf true ∨ (fdecode f x = .fin true m e ∧ 0 < m)) :
    fsqrt f mode x = (canonNan f, 16) := by
  rcases hx with hx | ⟨hx, hm⟩
  · rw [fsqrt, hx]
    rfl
  · rw [fsqrt, hx]
    exact if_neg hm.ne'

theorem ffma_inf_inf {g h : Bool} (hz : fdecode f z = .inf h) (hmul : mulV (fdecode f x) (fdecode f y) = some (.inf g))
    (hne : (g != np) ≠ (h != nc)) : ffma f mode np nc x y z = (canonNan f, 16) := by
  have hneg (k p : Bool) : (if p then negV (.inf k) else .inf k) = FVal.inf (k != p) := by cases p <;> simp [negV]
  rw [ffma_of_some hmul, hz, if_neg (by simp [isNan]), hneg, hneg, faddV_inf_inf hne]

end

/-- Settles O6: a NaN result by `CanonicalIfNan`, then each operation at NaN operands and at its invalid cases. -/
theorem nanResultsAreCanonical : Obligations.NanResultsAreCanonical := by
  unfold Obligations.NanResultsAreCanonical
  intro f hmem mode x y z np nc a b c invalid fused
  have hf := proper_of_mem_formats hmem
  refine ⟨?_, fun hnan => ?_, fsqrt_of_nan, fun g h ha hb => ⟨fdiv_inf_inf ha hb, fun hne => ?_, fun heq => ?_⟩,
    fun g h e hab => ⟨fmul_of_none (mulV_inf_zero hab), ffma_of_none (mulV_inf_zero hab)⟩, fun g h d e => fdiv_zero_zero,
    fun m e => fsqrt_of_negative, ffma_of_nan, fun g h => ffma_inf_inf⟩
  · simp only [List.forall_mem_cons]
    exact ⟨(canonical_faddV hf mode a b).canonical, (canonical_faddV hf mode a (negV b)).canonical, (canonical_fmul hf mode x y).canonical,
      (canonical_fdiv hf mode x y).canonical, (canonical_fsqrt hf mode x).canonical, (canonical_ffma hf mode np nc x y z).canonical, nofun⟩
  · simp only [List.forall_mem_cons]
    refine ⟨faddV_of_nan hnan, ?_, (fmul_of_some (mulV_of_nan hnan)).trans rfl, fdiv_of_nan hnan, nofun⟩
    have hsub := faddV_of_nan (f := f) (mode := mode) (v := a) (w := negV b) (by rwa [isNan_negV])
    rwa [isSnan_negV] at hsub
  · exact (congrArg₂ (faddV f mode) ha hb).trans (faddV_inf_inf hne)
  · have hb' : negV b = .inf (!h) := congrArg negV hb
    exact (congrArg₂ (faddV f mode) ha hb').trans (faddV_inf_inf (by simp [heq]))

end Sys2Proof.Machine
end

section
/-!
PROOFS. The conversion to an integer against the exact number (09 R236, 00 R11; O7).
-/
namespace Sys2Proof.Machine

/-! ## A number strictly between two neighbouring integers (00 R11) -/

/-- Whether a mode takes a number `b + t`, with 0 < t < 1, to `b + 1` and not to `b`. -/
def takesUp (mode : Nat) (b : Int) (t : Rat) : Bool :=
  match mode with
  | 0 => decide (1 / 2 < t) || (decide (t = 1 / 2) && decide (b % 2 = 1))
  | 1 => decide (b < 0)
  | 2 => false
  | 3 => true
  | _ => decide (1 / 2 < t) || (decide (t = 1 / 2) && decide (0 ≤ b))

@[simp] theorem roundedInt_intCast (mode : Nat) (n : Int) : roundedInt mode n = n := by
  unfold roundedInt
  split <;> simp

/-- A choice by a threshold, whose tie is resolved by `up`, said from below and from above. -/
theorem ite_below_eq_ite_above (t c : Rat) (up : Bool) (x y : Int) :
    (if t < c ∨ (t = c ∧ up = false) then x else y) = if decide (c < t) || (decide (t = c) && up) then y else x := by
  rcases lt_trichotomy t c with h | h | h
  · simp [h, h.ne, h.not_gt]
  · cases up <;> simp [h]
  · simp [h, h.ne', h.not_gt]

section
variable {b : Int} {t : Rat} (hpos : 0 < t) (hlt : t < 1)
include hpos hlt

theorem floor_between : ⌊(b : Rat) + t⌋ = b := by
  rw [Int.floor_intCast_add, Int.floor_eq_zero_iff.mpr ⟨hpos.le, hlt⟩, add_zero]

theorem ceil_between : ⌈(b : Rat) + t⌉ = b + 1 :=
  Int.ceil_eq_iff.mpr ⟨by push_cast; linarith, by push_cast; linarith⟩

theorem roundedInt_between (mode : Nat) : roundedInt mode (b + t) = if takesUp mode b t then b + 1 else b := by
  have hfloor := floor_between (b := b) hpos hlt
  have hceil := ceil_between (b := b) hpos hlt
  have hnonneg : 0 ≤ (b : Rat) + t ↔ 0 ≤ b := by rw [← Int.floor_nonneg, hfloor]
  unfold roundedInt takesUp
  simp only [hfloor, hceil, hnonneg, add_sub_cancel_left]
  match mode with
  | 0 => exact ite_below_eq_ite_above ..
  | 1 => simp only [decide_eq_true_eq, ← not_le, ite_not]
  | 2 => rfl
  | 3 => rfl
  | _ + 4 => exact ite_below_eq_ite_above ..

theorem intCast_ne_between (n : Int) : (n : Rat) ≠ b + t := by
  intro h
  have hfloor := floor_between (b := b) hpos hlt
  have hceil := ceil_between (b := b) hpos hlt
  rw [← h, Int.floor_intCast] at hfloor
  rw [← h, Int.ceil_intCast] at hceil
  omega

end

/-! ## The remainder of a magnitude against the half (09 R236) -/

section
variable {mode sh r : Nat} (hsh : 0 < sh)
include hsh

theorem fraction_eq (r : Nat) : (r : Rat) / 2 ^ sh = r / 2 ^ (sh - 1) * (1 / 2) := by
  rw [mul_one_div, div_div, ← pow_succ, Nat.sub_add_cancel hsh]

theorem half_lt_fraction : 1 / 2 < (r : Rat) / 2 ^ sh ↔ 2 ^ (sh - 1) < r := by
  rw [fraction_eq hsh, lt_mul_iff_one_lt_left (by norm_num), one_lt_div (by positivity)]
  norm_cast

theorem fraction_eq_half : (r : Rat) / 2 ^ sh = 1 / 2 ↔ r = 2 ^ (sh - 1) := by
  rw [fraction_eq hsh, mul_eq_right₀ (by norm_num), div_eq_one_iff_eq (by positivity)]
  norm_cast

/-- Above zero, rounding up the magnitude takes the number up. -/
theorem roundsUp_of_pos (hmode : mode < 5) (hr : r ≠ 0) (k : Nat) :
    roundsUp mode false (k % 2 = 1) r sh false = takesUp mode k (r / 2 ^ sh) := by
  unfold roundsUp takesUp
  simp only [half_lt_fraction hsh, fraction_eq_half hsh]
  rw [Bool.eq_iff_iff]
  match mode, hmode with
  | 0, _ =>
    simp
    omega
  | 1, _ => simp
  | 2, _ => simp
  | 3, _ => simp [hr]
  | 4, _ =>
    simp
    omega

/-- Below zero, rounding up the magnitude takes the number down. -/
theorem roundsUp_of_neg (hmode : mode < 5) (hr : r ≠ 0) (hlt : r < 2 ^ sh) (k : Nat) :
    roundsUp mode true (k % 2 = 1) r sh false = !takesUp mode (-(k + 1 : Int)) ((2 ^ sh - r : Nat) / 2 ^ sh) := by
  have hhalf : 2 ^ sh = 2 * 2 ^ (sh - 1) := by rw [← pow_succ', Nat.sub_add_cancel hsh]
  unfold roundsUp takesUp
  simp only [half_lt_fraction hsh, fraction_eq_half hsh]
  rw [Bool.eq_iff_iff]
  match mode, hmode with
  | 0, _ =>
    simp
    omega
  | 1, _ =>
    simp
    omega
  | 2, _ => simp [hr]
  | 3, _ => simp
  | 4, _ =>
    simp
    omega

end

/-! ## Rounding to an integer -/

/-- The integer of a sign and a magnitude. -/
def signedInt (neg : Bool) (k : Nat) : Int := if neg then -k else k

section
variable {mode : Nat}

theorem cast_signedInt (neg : Bool) (k : Nat) : ((signedInt neg k : Int) : Rat) = (if neg then -1 else 1) * k := by
  cases neg <;> simp [signedInt]

theorem exactly_of_nonneg {neg : Bool} {m : Nat} {e : Int} (he : 0 ≤ e) : exactly neg m e = signedInt neg (m * 2 ^ e.toNat) := by
  obtain ⟨n, rfl⟩ := Int.eq_ofNat_of_zero_le he
  cases neg <;> simp [exactly, signedInt]

/-- Below exponent 0, the magnitude is a whole number and a remainder of the power of two that divides it. -/
theorem exactly_of_neg (neg : Bool) (m sh : Nat) :
    exactly neg m (-sh) = (if neg then -1 else 1) * ((m / 2 ^ sh : Nat) + (m % 2 ^ sh : Nat) / 2 ^ sh) := by
  have hparts : (m : Rat) = 2 ^ sh * (m / 2 ^ sh : Nat) + (m % 2 ^ sh : Nat) := by exact_mod_cast (Nat.div_add_mod m (2 ^ sh)).symm
  rw [exactly, mul_assoc, hparts, zpow_neg, zpow_natCast]
  field_simp

theorem roundsUp_of_exact (mode : Nat) (neg lsb : Bool) (sh : Nat) : roundsUp mode neg lsb 0 sh false = false := by
  simp [roundsUp, (Nat.two_pow_pos (sh - 1)).ne]

/-- A magnitude that its remainder rounds, with its sign, is a number between two integers that the mode rounds. -/
theorem signedInt_roundsUp (hmode : mode < 5) (neg : Bool) (k : Nat) {r sh : Nat} (hsh : 0 < sh) (hr : r ≠ 0) (hlt : r < 2 ^ sh) :
    ∃ (b : Int) (t : Rat), 0 < t ∧ t < 1 ∧ (if neg then -1 else 1) * (k + r / 2 ^ sh) = b + t ∧
      signedInt neg (k + if roundsUp mode neg (k % 2 = 1) r sh false then 1 else 0) = if takesUp mode b t then b + 1 else b := by
  have hpow : (0 : Rat) < 2 ^ sh := by positivity
  have hfraction (n : Nat) (hn : n ≠ 0) (hn' : n < 2 ^ sh) : 0 < (n : Rat) / 2 ^ sh ∧ (n : Rat) / 2 ^ sh < 1 :=
    ⟨by positivity, (div_lt_one hpow).mpr (by exact_mod_cast hn')⟩
  cases neg with
  | false =>
    obtain ⟨hpos, hone⟩ := hfraction r hr hlt
    refine ⟨k, r / 2 ^ sh, hpos, hone, by simp, ?_⟩
    rw [roundsUp_of_pos hsh hmode hr]
    split <;> simp [signedInt]
  | true =>
    obtain ⟨hpos, hone⟩ := hfraction (2 ^ sh - r) (by omega) (by omega)
    refine ⟨-(k + 1 : Int), (2 ^ sh - r : Nat) / 2 ^ sh, hpos, hone, ?_, ?_⟩
    · rw [if_pos rfl, Nat.cast_sub hlt.le]
      push_cast
      field_simp
      ring
    · rw [roundsUp_of_neg hsh hmode hr hlt]
      cases takesUp mode (-(k + 1 : Int)) ((2 ^ sh - r : Nat) / 2 ^ sh) <;> simp [signedInt]

/-- A number rounded to an integer is that integer, or lies strictly between two of which the mode takes one. -/
theorem roundTo_integer_cases (hmode : mode < 5) (neg : Bool) (m : Nat) (e : Int) :
    (∃ k, roundTo mode neg m e 0 false = (k, false) ∧ exactly neg m e = signedInt neg k) ∨
    (∃ (k : Nat) (b : Int) (t : Rat), roundTo mode neg m e 0 false = (k, true) ∧ 0 < t ∧ t < 1 ∧ exactly neg m e = b + t ∧
      signedInt neg k = if takesUp mode b t then b + 1 else b) := by
  rcases le_or_gt 0 e with he | he
  · exact .inl ⟨_, by rw [roundTo, if_pos he, sub_zero], exactly_of_nonneg he⟩
  · obtain ⟨sh, rfl⟩ : ∃ sh : Nat, e = -sh := ⟨e.natAbs, by omega⟩
    have hsh : 0 < sh := by omega
    have hround : roundTo mode neg m (-sh) 0 false = (m / 2 ^ sh +
        (if roundsUp mode neg (m / 2 ^ sh % 2 = 1) (m % 2 ^ sh) sh false then 1 else 0), !decide (m % 2 ^ sh = 0)) := by
      rw [roundTo, if_neg he.not_ge]
      simp
    have hexact := exactly_of_neg neg m sh
    by_cases hr : m % 2 ^ sh = 0
    · exact .inl ⟨m / 2 ^ sh, by simp [hround, hr, roundsUp_of_exact], by rw [hexact, hr, cast_signedInt]; simp⟩
    · obtain ⟨b, t, hpos, hlt, hnumber, hsigned⟩ := signedInt_roundsUp hmode neg (m / 2 ^ sh) hsh hr (Nat.mod_lt _ (Nat.two_pow_pos sh))
      exact .inr ⟨_, b, t, by rw [hround, decide_eq_false hr]; rfl, hpos, hlt, hexact.trans hnumber, hsigned⟩

theorem signedInt_roundTo (hmode : mode < 5) (neg : Bool) (m : Nat) (e : Int) :
    signedInt neg (roundTo mode neg m e 0 false).1 = roundedInt mode (exactly neg m e) := by
  obtain ⟨k, hround, hexact⟩ | ⟨k, b, t, hround, hpos, hlt, hexact, hsigned⟩ := roundTo_integer_cases hmode neg m e
  · rw [hround, hexact, roundedInt_intCast]
  · rw [hround, hexact, roundedInt_between hpos hlt, hsigned]

theorem inexact_roundTo (hmode : mode < 5) (neg : Bool) (m : Nat) (e : Int) :
    (roundTo mode neg m e 0 false).2 = !decide ((roundedInt mode (exactly neg m e) : Rat) = exactly neg m e) := by
  obtain ⟨k, hround, hexact⟩ | ⟨k, b, t, hround, hpos, hlt, hexact, -⟩ := roundTo_integer_cases hmode neg m e
  · simp [hround, hexact]
  · simp [hround, hexact, intCast_ne_between hpos hlt]

end

/-! ## The conversion (09 R236) -/

/-- The least integer of `n` bits (R236). -/
def leastInt (n : Nat) (signed : Bool) : Int := if signed then -(2 ^ (n - 1)) else 0

/-- The greatest integer of `n` bits (R236). -/
def greatestInt (n : Nat) (signed : Bool) : Int := if signed then 2 ^ (n - 1) - 1 else 2 ^ n - 1

theorem leastInt_le_greatestInt (n : Nat) (signed : Bool) : leastInt n signed ≤ greatestInt n signed := by
  have hn : (0 : Int) < 2 ^ n := by positivity
  have hn' : (0 : Int) < 2 ^ (n - 1) := by positivity
  unfold leastInt greatestInt
  split <;> omega

section
variable {f : Fmt} {mode n x : Nat} {signed : Bool}

theorem ftoint_of_nan (hx : isNan (fdecode f x) = true) : ftoint f mode n signed x = (greatestInt n signed, 16) := by
  obtain ⟨s, hs⟩ := eq_nan_of_isNan hx
  rw [ftoint, hs]
  rfl

theorem ftoint_of_inf {neg : Bool} (hx : fdecode f x = .inf neg) :
    ftoint f mode n signed x = (if neg then leastInt n signed else greatestInt n signed, 16) := by
  rw [ftoint, hx]
  rfl

/-- A finite datum gives the rounded number, brought into the range. -/
theorem ftoint_of_fin (hmode : mode < 5) {neg : Bool} {m : Nat} {e : Int} (hx : fdecode f x = .fin neg m e) :
    ftoint f mode n signed x =
      if roundedInt mode (exactly neg m e) < leastInt n signed then (leastInt n signed, 16)
      else if greatestInt n signed < roundedInt mode (exactly neg m e) then (greatestInt n signed, 16)
      else (roundedInt mode (exactly neg m e), if (roundedInt mode (exactly neg m e) : Rat) = exactly neg m e then 0 else 1) := by
  have hflag : (if (roundTo mode neg m e 0 false).2 then 1 else 0) =
      if (roundedInt mode (exactly neg m e) : Rat) = exactly neg m e then 0 else 1 := by
    simp [inexact_roundTo hmode]
  rw [← hflag, ← signedInt_roundTo hmode]
  rw [ftoint, hx]
  rfl

end

/-- Settles O7, by the datum: a NaN, an infinity, and a finite one, whose rounded number lies below, above or in the range. -/
theorem integerConversionSaturates : Obligations.IntegerConversionSaturates := by
  unfold Obligations.IntegerConversionSaturates
  intro f _ n _ mode x signed hmode lo hi r
  refine ⟨ftoint_of_nan, fun neg => ftoint_of_inf, fun neg m e hfin => ?_⟩
  intro v k
  have hrange : lo ≤ hi := leastInt_le_greatestInt n signed
  have hr : r = if k < lo then (lo, 16) else if hi < k then (hi, 16) else (k, if (k : Rat) = v then 0 else 1) := ftoint_of_fin hmode hfin
  refine ⟨fun hbelow => ?_, fun habove => ?_, fun hlo hhi => ?_⟩
  · rw [hr, if_pos hbelow]
  · rw [hr, if_neg (by omega), if_pos habove]
  · rw [hr, if_neg (by omega), if_neg (by omega)]

end Sys2Proof.Machine
end

section
/-!
The arrays of the Felt: what an update of an array gives and leaves alone, how run phases end, and the steps that take commands, time the
phases and convert (10 R253 to R264; 16 R375, R376; O44).
-/
namespace Sys2Proof.Machine

/-! ## An array and its updates -/

@[simp] theorem toArray_val (k : Fin 8) : toArray k.val = k := Fin.ext (Nat.mod_eq_of_lt k.isLt)

section
variable (s : State) (k : Nat) (f : FeltArray → FeltArray)

@[simp] theorem modArray_now : (modArray s k f).now = s.now := rfl
@[simp] theorem modArray_ports : (modArray s k f).ports = s.ports := rfl
@[simp] theorem modArray_hbm : (modArray s k f).hbm = s.hbm := rfl
@[simp] theorem getCtx_modArray (c : BitVec 32) : getCtx (modArray s k f) c = getCtx s c := rfl
@[simp] theorem getArray_later (l : List Instr) : getArray (later s l) k = getArray s k := rfl
@[simp] theorem getArray_feltNext (j : Nat) : getArray (feltNext s j) k = getArray s k := rfl
@[simp] theorem getArray_clearPieces (unit : Nat) : getArray (clearPieces s unit) k = getArray s k := rfl

theorem getArray_modArray_eq (j : Nat) :
    getArray (modArray s k f) j = if j = k ∧ j < 8 then f (getArray s j) else getArray s j := by
  by_cases hk : j = k
  · subst hk
    by_cases hj : j < 8 <;> simp [getArray, modArray, List.getD_eq_getElem?_getD, hj]
  · simp [getArray, modArray, List.getD_eq_getElem?_getD, hk]

theorem getArray_modArray_ne {j : Nat} (h : j ≠ k) : getArray (modArray s k f) j = getArray s j := by
  rw [getArray_modArray_eq, if_neg (fun hk => h hk.1)]

/-- What an update keeps of the array that it changes it keeps of every array. -/
theorem getArray_modArray_keeps {α : Type} (get : FeltArray → α) (h : get (f (getArray s k)) = get (getArray s k)) (j : Nat) :
    get (getArray (modArray s k f) j) = get (getArray s j) := by
  rw [getArray_modArray_eq]
  split
  next hj => rw [hj.1, h]
  next => rfl

end

@[simp] theorem getArray_modArray (s : State) (k : Fin 8) (f : FeltArray → FeltArray) :
    getArray (modArray s k.val f) k.val = f (getArray s k.val) := by
  rw [getArray_modArray_eq, if_pos ⟨rfl, k.isLt⟩]

/-- Only arrays and the agenda have changed. -/
def FeltFrame (s u : State) : Prop := u = { s with felt := u.felt, agenda := u.agenda }

namespace FeltFrame
variable {s t u : State}

theorem refl (s : State) : FeltFrame s s := rfl

theorem trans (h : FeltFrame s t) (h' : FeltFrame t u) : FeltFrame s u := by
  rw [FeltFrame, h] at h'
  exact h'

theorem now (h : FeltFrame s u) : u.now = s.now := by rw [h]
theorem ports (h : FeltFrame s u) : u.ports = s.ports := by rw [h]
theorem hbm (h : FeltFrame s u) : u.hbm = s.hbm := by rw [h]
theorem svcInbox (h : FeltFrame s u) : u.svcInbox = s.svcInbox := by rw [h]
theorem getCtx (h : FeltFrame s u) (c : BitVec 32) : getCtx u c = Machine.getCtx s c := by rw [h]; rfl

end FeltFrame

theorem feltFrame_modArray (s : State) (k : Nat) (f : FeltArray → FeltArray) : FeltFrame s (modArray s k f) := rfl
theorem feltFrame_later (s : State) (l : List Instr) : FeltFrame s (later s l) := rfl
theorem feltFrame_feltNext (s : State) (k : Nat) : FeltFrame s (feltNext s k) := rfl
theorem feltFrame_calibrate (s : State) (k : Nat) : FeltFrame s (calibrate s k) := rfl

/-! ## Gangs (10 R263) -/

theorem gangHead_congr {s u : State} (h : ∀ j, (getArray u j).slots = (getArray s j).slots ∧ (getArray u j).aslot = (getArray s j).aslot)
    (k : Nat) : gangHead u k = gangHead s k := by
  have hslot : ∀ j i, slotOf (getArray u j) i = slotOf (getArray s j) i := fun j i => by rw [slotOf, (h j).1, slotOf]
  simp only [gangHead, hslot, h]

/-- Gangs depend on the slots of the arrays and on which one is active. -/
theorem gangHead_modArray (s : State) (k j : Nat) (f : FeltArray → FeltArray) (hslots : ∀ x, (f x).slots = x.slots)
    (haslot : ∀ x, (f x).aslot = x.aslot) : gangHead (modArray s k f) j = gangHead s j :=
  gangHead_congr (fun i => ⟨getArray_modArray_keeps s k f (·.slots) (hslots _) i, getArray_modArray_keeps s k f (·.aslot) (haslot _) i⟩) j

theorem gangHead_of_not_member {s : State} {k : Nat} (h : gangMember s k = false) : gangHead s k = k := by
  rw [gangHead]
  split
  next hgang =>
    simp only [Bool.and_eq_true] at hgang
    simp only [gangMember, hgang.1, Bool.and_true, Bool.not_eq_false', decide_eq_true_eq] at h
    omega
  next => rfl

theorem mem_gangOf_self (k : Nat) : k ∈ gangOf k :=
  List.mem_map.mpr ⟨k % 4, List.mem_range.mpr (Nat.mod_lt _ (by decide)), by omega⟩

/-! ## Calibrations that an array's IDLE begins (10 R264) -/

/-- The part of one array in `idleCalibration` of the arrays with head `k`. -/
def idleStep (k : Nat) (s : State) (g : Nat) : State :=
  if gangHead s g = k && decide ((getArray s g).lastCal + 10000000 < s.now) && !(getArray s g).calibrating then calibrate s g else s

theorem idleCalibration_eq_foldl (s : State) (k : Nat) : idleCalibration s k = (gangOf k).foldl (idleStep k) s := rfl

/-- An array after its part: a calibration that was due has begun. -/
def idled (s : State) (k j : Nat) : FeltArray :=
  if gangHead s j = k ∧ (getArray s j).lastCal + 10000000 < s.now ∧ (getArray s j).calibrating = false then
    { getArray s j with calibrating := true, startTick := s.now }
  else getArray s j

theorem feltFrame_idleStep (k : Nat) (s : State) (g : Nat) : FeltFrame s (idleStep k s g) := by
  rw [idleStep]
  split
  · exact feltFrame_calibrate s g
  · exact FeltFrame.refl s

theorem feltFrame_idleCalibration (s : State) (k : Nat) : FeltFrame s (idleCalibration s k) := by
  rw [idleCalibration_eq_foldl]
  induction gangOf k generalizing s with
  | nil => exact FeltFrame.refl s
  | cons g l ih => exact (feltFrame_idleStep k s g).trans (ih _)

theorem getArray_idleStep_self {s : State} {k j : Nat} (hj : j < 8) : getArray (idleStep k s j) j = idled s k j := by
  simp only [idleStep, idled, Bool.and_eq_true, decide_eq_true_eq, Bool.not_eq_true', and_assoc]
  split
  next => simp [calibrate, getArray_modArray_eq, hj]
  next => rfl

theorem getArray_idleStep_ne {s : State} {k j g : Nat} (h : j ≠ g) : getArray (idleStep k s g) j = getArray s j := by
  rw [idleStep]
  split
  next => exact getArray_modArray_ne s g _ h
  next => rfl

theorem gangHead_idleStep (s : State) (k g j : Nat) : gangHead (idleStep k s g) j = gangHead s j := by
  rw [idleStep]
  split
  next => exact gangHead_modArray s g j _ (fun _ => rfl) (fun _ => rfl)
  next => rfl

/-- The part of an array comes to the same before and after another's, and is not done twice. -/
theorem idled_idleStep (s : State) (k g : Nat) {j : Nat} (hj : j < 8) : idled (idleStep k s g) k j = idled s k j := by
  have hnow := (feltFrame_idleStep k s g).now
  have hhead := gangHead_idleStep s k g j
  by_cases hg : j = g
  · subst hg
    rw [idled, hnow, hhead, getArray_idleStep_self hj]
    simp only [idled]
    split <;> simp_all
  · rw [idled, hnow, hhead, getArray_idleStep_ne hg, idled]

theorem getArray_foldl_idleStep (l : List Nat) (s : State) (k : Nat) {j : Nat} (hj : j < 8) :
    getArray (l.foldl (idleStep k) s) j = if j ∈ l then idled s k j else getArray s j := by
  induction l generalizing s with
  | nil => simp
  | cons g l ih =>
    rw [List.foldl_cons, ih, idled_idleStep s k g hj]
    by_cases hg : j = g
    · subst hg
      simp [getArray_idleStep_self hj]
    · simp [getArray_idleStep_ne hg, hg]

theorem getArray_idleCalibration_self (s : State) (k : Fin 8) : getArray (idleCalibration s k.val) k.val = idled s k.val k.val := by
  rw [idleCalibration_eq_foldl, getArray_foldl_idleStep _ _ _ k.isLt, if_pos (mem_gangOf_self k.val)]

theorem getArray_idleCalibration_other {s : State} {k j : Nat} (hj : j < 8) (h : gangHead s j ≠ k) :
    getArray (idleCalibration s k) j = getArray s j := by
  rw [idleCalibration_eq_foldl, getArray_foldl_idleStep _ _ _ hj]
  simp [idled, h]

/-- A calibration that begins changes two fields of its array. -/
theorem getArray_idleCalibration_keeps {α : Type} (get : FeltArray → α)
    (h : ∀ (x : FeltArray) (b : Bool) (n : Nat), get { x with calibrating := b, startTick := n } = get x) (s : State) (k : Fin 8) :
    get (getArray (idleCalibration s k.val) k.val) = get (getArray s k.val) := by
  rw [getArray_idleCalibration_self, idled]
  split
  next => rw [h]
  next => rfl

/-! ## The end of a HOLD (10 R253) -/

/-- An array in HOLD that has gone to IDLE, before calibrations are looked at. -/
def holdOver (s : State) (k : Nat) : State := modArray s k (fun f => { f with state := 0, startTick := s.now })

theorem endHold_of_hold {s : State} {k : Nat} (h : (getArray s k).state = 3) : endHold s k = idleCalibration (holdOver s k) k := if_pos h

theorem gangHead_holdOver (s : State) (k j : Nat) : gangHead (holdOver s k) j = gangHead s j :=
  gangHead_modArray s k j _ (fun _ => rfl) (fun _ => rfl)

theorem feltFrame_endHold (s : State) (k : Nat) : FeltFrame s (endHold s k) := by
  rw [endHold]
  split
  · exact (feltFrame_modArray ..).trans (feltFrame_idleCalibration ..)
  · exact FeltFrame.refl s

theorem queue_endHold (s : State) (k : Fin 8) : (getArray (endHold s k.val) k.val).queue = (getArray s k.val).queue := by
  rw [endHold]
  split
  · rw [getArray_idleCalibration_keeps (·.queue) (fun _ _ _ => rfl), getArray_modArray]
  · rfl

/-- The array that left HOLD: IDLE from now on, and in calibration if that is due. -/
theorem getArray_endHold_of_hold {s : State} {k : Fin 8} (h : (getArray s k.val).state = 3) :
    getArray (endHold s k.val) k.val = { getArray s k.val with
      state := 0, startTick := s.now
      calibrating := (getArray s k.val).calibrating
        || (decide (gangHead s k.val = k.val) && decide ((getArray s k.val).lastCal + 10000000 < s.now)) } := by
  have hover : getArray (holdOver s k.val) k.val = { getArray s k.val with state := 0, startTick := s.now } := getArray_modArray ..
  have hnow : (holdOver s k.val).now = s.now := rfl
  rw [endHold_of_hold h, getArray_idleCalibration_self, idled, hover, gangHead_holdOver, hnow]
  cases hcal : (getArray s k.val).calibrating with
  | true => simp [hcal]
  | false =>
    by_cases hdue : gangHead s k.val = k.val ∧ (getArray s k.val).lastCal + 10000000 < s.now
    · simp [hdue.1, hdue.2]
    · rw [if_neg (by tauto)]
      simp_all

theorem getArray_endHold_other {s : State} {k j : Nat} (hj : j < 8) (hne : j ≠ k) (hhead : gangHead s j ≠ k) :
    getArray (endHold s k) j = getArray s j := by
  rw [endHold]
  split
  · exact (getArray_idleCalibration_other hj (by rwa [← gangHead_holdOver s k j] at hhead)).trans (getArray_modArray_ne s k _ hne)
  · rfl

/-! ## The end of a run phase (10 R253, R256, R257, R265) -/

/-- A run phase that ends with a RESULT is not followed by HOLD (10 R253, R265). -/
abbrev GoesIdle (s : State) (k code : Nat) : Prop :=
  code = 3 ∨ (getArray s k).haltp ∨ (getArray s k).skipHold ∨ (getArray s k).ctx.any (fun c => (getCtx s c).held)

/-- An array whose run phase has ended with a RESULT, nobody waiting for it: in HOLD, or in IDLE for one of the causes of R253 and R265. -/
structure PhaseOver (s : State) (k : Nat) (code : Nat) (u : State) : Prop where
  result : (getArray u k).result = code
  haltp : (getArray u k).haltp = false
  state : (getArray u k).state = if GoesIdle s k code then 0 else 3
  sats : (getArray u k).sats = (getArray s k).sats
  frame : FeltFrame s u

theorem endPhase_over {s : State} {k : Fin 8} (code : Nat) (hsettlers : (getArray s k.val).settlers = [])
    (hrun : (getArray s k.val).runCmd = none) : PhaseOver s k.val code (endPhase s k.val code) := by
  simp only [endPhase, hsettlers, hrun, List.foldl_nil]
  split
  next hhold =>
    have hcause : ¬GoesIdle s k.val code := by
      simpa [and_assoc] using hhold
    exact ⟨by simp, by simp, by rw [if_neg hcause]; simp, by simp, rfl⟩
  next hhold =>
    have hcause : GoesIdle s k.val code := by
      by_contra hcause
      exact hhold (by simpa [and_assoc] using hcause)
    refine ⟨?_, ?_, ?_, ?_, ((feltFrame_modArray ..).trans (feltFrame_idleCalibration ..)).trans (feltFrame_feltNext ..)⟩
    · simp [getArray_idleCalibration_keeps (·.result) (fun _ _ _ => rfl)]
    · simp [getArray_idleCalibration_keeps (·.haltp) (fun _ _ _ => rfl)]
    · rw [if_pos hcause]
      simp [getArray_idleCalibration_keeps (·.state) (fun _ _ _ => rfl)]
    · simp [getArray_idleCalibration_keeps (·.sats) (fun _ _ _ => rfl)]

/-! ## The SAT message (10 R257) -/

theorem ofBytes_leBytes {n v : Nat} (h : v < 2 ^ (8 * n)) : ofBytes (leBytes n v) = v := by
  induction n generalizing v with
  | zero => simp_all [leBytes, ofBytes]
  | succ n ih =>
    have hv : v / 256 < 2 ^ (8 * n) := by
      rw [show 8 * (n + 1) = 8 * n + 8 by omega, Nat.pow_add] at h
      omega
    rw [leBytes, ofBytes, ih hv, BitVec.toNat_ofNat]
    omega

theorem fieldAt_leBytes_append {n v : Nat} (h : v < 2 ^ (8 * n)) (rest : List Byte) : fieldAt (leBytes n v ++ rest) 0 n = v := by
  rw [fieldAt, List.drop_zero, List.take_left' (length_leBytes n v), ofBytes_leBytes h]

theorem fieldAt_append_add (pre rest : List Byte) (i n : Nat) : fieldAt (pre ++ rest) (pre.length + i) n = fieldAt rest i n := by
  rw [fieldAt, List.drop_length_add_append, fieldAt]

theorem satMessage_fields {s : State} {k : Nat} {c : FeltCmd} {summer : Bool} {element stamp : Nat} {seq : BitVec 32} {msg : List Byte}
    (h : msg = satMessage s k c summer element stamp seq) :
    fieldAt msg 0 1 = 0x0C ∧ fieldAt msg 2 2 = (if summer then 2 else 1) ∧ fieldAt msg 4 4 = c.ctx.toNat ∧ fieldAt msg 8 4 = c.run.toNat := by
  have hmsg : ∃ rest, satMessage s k c summer element stamp seq = [0x0C, 0x80] ++ (leBytes 2 (if summer then 2 else 1) ++
      (leBytes 4 c.ctx.toNat ++ (leBytes 4 c.run.toNat ++ rest))) := by
    simp only [satMessage, List.append_assoc]
    exact ⟨_, rfl⟩
  obtain ⟨rest, hmsg⟩ := hmsg
  have hskip := fieldAt_append_add [0x0C, 0x80]
    (leBytes 2 (if summer then 2 else 1) ++ (leBytes 4 c.ctx.toNat ++ (leBytes 4 c.run.toNat ++ rest)))
  rw [h, hmsg]
  refine ⟨rfl, ?_, ?_, ?_⟩
  · exact (hskip 0 2).trans (fieldAt_leBytes_append (by split <;> decide) _)
  · exact (hskip 2 4).trans ((fieldAt_append_add (leBytes 2 _) _ 0 4).trans (fieldAt_leBytes_append c.ctx.isLt _))
  · exact (hskip 6 4).trans ((fieldAt_append_add (leBytes 2 _) _ 4 4).trans ((fieldAt_append_add (leBytes 4 _) _ 0 4).trans
      (fieldAt_leBytes_append c.run.isLt _)))

theorem postSat_of_nil {s : State} {k : Nat} (h : (getArray s k).sats = []) : postSat s k = s := by simp [postSat, h]

/-- The ostler SVC role has a message more. -/
def svcTakes (s : State) (msg : BitVec 32 → List Byte) : State :=
  { s with svcInbox := s.svcInbox ++ [msg s.svcPosted], svcPosted := s.svcPosted + 1 }

theorem svcTakes_svcInbox (s : State) (msg : BitVec 32 → List Byte) : (svcTakes s msg).svcInbox = s.svcInbox ++ [msg s.svcPosted] := rfl

/-- A message for the SVC role, whose mailbox is 0, is posted at once. -/
theorem postSat_of_service_zero {s : State} {k : Nat} {c : FeltCmd} {summer : Bool} {element stamp : Nat} {rest : List (FeltCmd × Bool × Nat × Nat)}
    (h : (getArray s k).sats = (c, summer, element, stamp) :: rest) (hmb : (getCtx s c.ctx).service = 0) :
    postSat s k = modArray (svcTakes s (satMessage s k c summer element stamp)) k (fun f => { f with sats := rest }) := by
  simp [postSat, h, hmb, postMessage, svcTakes]

/-- An array comes to owe one more message. -/
def owes (s : State) (k : Nat) (m : FeltCmd × Bool × Nat × Nat) : State := modArray s k (fun f => { f with sats := f.sats ++ [m] })

/-- Where none was owed before, it is posted, and of the array nothing has changed. -/
theorem postSat_owes {s : State} {k : Fin 8} {c : FeltCmd} {summer : Bool} {element stamp : Nat} (hsats : (getArray s k.val).sats = [])
    (hmb : (getCtx s c.ctx).service = 0) :
    ∃ t u, postSat (owes s k.val (c, summer, element, stamp)) k.val = u ∧
      u.svcInbox = s.svcInbox ++ [satMessage t k.val c summer element stamp t.svcPosted] ∧ getArray u k.val = getArray s k.val ∧
      u.ports = s.ports ∧ u.hbm = s.hbm := by
  have howes : getArray (owes s k.val (c, summer, element, stamp)) k.val = { getArray s k.val with sats := [(c, summer, element, stamp)] } := by
    simp [owes, hsats]
  refine ⟨_, _, postSat_of_service_zero (congrArg FeltArray.sats howes) hmb, rfl, ?_, rfl, rfl⟩
  rw [getArray_modArray]
  exact (congrArg (fun x : FeltArray => { x with sats := [] }) howes).trans (by rw [← hsats])

/-! ## Commands taken from the queue (10 R252 to R256, R262; 16 R376) -/

section
variable {s : State} {k : Fin 8} {c : FeltCmd} {rest : List FeltCmd} (hsats : (getArray s k.val).sats = [])
include hsats

theorem exec_feltCommandExecute_of_queue_nil (hqueue : (getArray s k.val).queue = []) : exec (.feltCommandExecute k) s = .next s := by
  simp [exec_feltCommandExecute, execFeltCommandExecute, event, postSat_of_nil hsats, hqueue]

variable (hqueue : (getArray s k.val).queue = c :: rest) (hconverting : (getArray s k.val).converting = none)
include hqueue hconverting

theorem exec_feltCommandExecute_halt (hop : c.op = .halt) : exec (.feltCommandExecute k) s = .next (
    if gangMember s k.val then cmdDone s k.val c 1 else cmdDone (feltHalt s k.val) k.val c 0) := by
  simp [exec_feltCommandExecute, execFeltCommandExecute, event, postSat_of_nil hsats, hqueue, hconverting, hop]

theorem exec_feltCommandExecute_stat (hop : c.op = .stat) (hwaits : feltWaits s c = true) : exec (.feltCommandExecute k) s = .next (
    feltAnswer (popCmd s k.val) c.strand (feltStatus (getArray s (gangHead s k.val)) (getArray s (gangHead s k.val)).result)) := by
  simp [exec_feltCommandExecute, execFeltCommandExecute, event, postSat_of_nil hsats, hqueue, hconverting, hop, hwaits]

theorem exec_feltCommandExecute_settle_idle {n : Nat} (hop : c.op = .settle n) (hwaits : feltWaits s c = true)
    (hmember : gangMember s k.val = false) (hphase : inPhase (getArray s k.val) = false) : exec (.feltCommandExecute k) s = .next (
    feltAnswer (popCmd s k.val) c.strand (feltStatus (getArray s k.val) (getArray s k.val).result)) := by
  simp [exec_feltCommandExecute, execFeltCommandExecute, event, postSat_of_nil hsats, hqueue, hconverting, hop, hwaits, hmember, hphase,
    gangHead_of_not_member hmember]

theorem exec_feltCommandExecute_cfg_inactive {slot : Nat} {addr : Word} (hop : c.op = .cfg slot addr) (hslot : (getArray s k.val).aslot ≠ slot) :
    exec (.feltCommandExecute k) s = .next (feltCfg s k.val c slot addr) := by
  simp [exec_feltCommandExecute, execFeltCommandExecute, event, postSat_of_nil hsats, hqueue, hconverting, hop, hslot]

theorem exec_feltCommandExecute_table_empty {slot : Nat} {addr : Word} (hop : c.op = .scale slot addr ∨ c.op = .ic slot addr)
    (hslot : slotOf (getArray s k.val) slot = none) : exec (.feltCommandExecute k) s = .next (cmdDone s k.val c 1) := by
  obtain hop | hop := hop <;>
    simp [exec_feltCommandExecute, execFeltCommandExecute, event, postSat_of_nil hsats, hqueue, hconverting, hop, feltTable, hslot]

theorem exec_feltCommandExecute_sample {grid : Bool} {dst : Word} (hop : c.op = .sample grid dst) (hmember : gangMember s k.val = false)
    (hphase : inPhase (getArray s k.val) = false) : exec (.feltCommandExecute k) s = .next (
    later (beginConversion (popCmd s k.val) k.val c) [.feltConversion k]) := by
  simp [exec_feltCommandExecute, execFeltCommandExecute, event, postSat_of_nil hsats, hqueue, hconverting, hop, hmember, hphase]

theorem exec_feltCommandExecute_run {slot : Nat} (hop : c.op = .run slot) :
    exec (.feltCommandExecute k) s = .next (feltRunCmd s k.val c slot) := by
  simp [exec_feltCommandExecute, execFeltCommandExecute, event, postSat_of_nil hsats, hqueue, hconverting, hop]

end

/-! ## FELT.RUN (10 R253, R255, R263, R264) -/

section
variable {s : State} {k : Nat} {c : FeltCmd} {slot : Nat} {x : FeltSlot}

theorem feltRunCmd_empty (hslot : slotOf (getArray s k) slot = none) : feltRunCmd s k c slot = cmdDone s k c 1 := by
  simp [feltRunCmd, hslot]

theorem feltRunCmd_member (hslot : slotOf (getArray s k) slot = some x) (hmember : gangMember s k = true) :
    feltRunCmd s k c slot = cmdDone s k c 1 := by
  simp [feltRunCmd, hslot, hmember]

variable (hslot : slotOf (getArray s k) slot = some x) (hsingle : x.gang = false) (hmember : gangMember s k = false)
  (hphase : inPhase (getArray s k) = false)
include hslot hsingle hmember hphase

theorem feltRunCmd_calibrating (hcal : (getArray (endHold s k) k).calibrating = true) : feltRunCmd s k c slot = feltNext (endHold s k) k := by
  simp [feltRunCmd, hslot, hsingle, hmember, hphase, hcal]

/-- The array whose run phase begins. -/
def runBegun (s : State) (k : Nat) (c : FeltCmd) (slot : Nat) (x : FeltSlot) (now : Nat) : State :=
  modArray (modArray s k (fun f => { f with aslot := slot })) k (fun f => { f with
    state := 1, result := 0, haltp := false, skipHold := false, runCmd := some c, lastRun := some c, used := (x.sigma, x.ic), startTick := now })

theorem feltRunCmd_begins (hcal : (getArray (endHold s k) k).calibrating = false) :
    feltRunCmd s k c slot = later (popCmd (runBegun (endHold s k) k c slot x s.now) k) [.feltLoadEnd (toArray k)] := by
  simp [feltRunCmd, hslot, hsingle, hmember, hphase, hcal, runBegun]

end

@[simp] theorem getArray_popCmd (s : State) (k : Fin 8) :
    getArray (popCmd s k.val) k.val = { getArray s k.val with queue := (getArray s k.val).queue.drop 1 } := by
  simp [popCmd]

@[simp] theorem popCmd_ports (s : State) (k : Nat) : (popCmd s k).ports = s.ports := rfl
@[simp] theorem popCmd_hbm (s : State) (k : Nat) : (popCmd s k).hbm = s.hbm := rfl

theorem feltFrame_runBegun (s : State) (k : Nat) (c : FeltCmd) (slot : Nat) (x : FeltSlot) (now : Nat) : FeltFrame s (runBegun s k c slot x now) := rfl

theorem mem_agenda_later {s : State} {l : List Instr} {i : Instr} (h : i ∈ l) : i ∈ (later s l).agenda := List.mem_append_right _ h

/-- A FELT.RUN that has been taken: LOAD of its slot, and the event that ends it. -/
theorem runBegun_load {s : State} {k : Fin 8} {c : FeltCmd} {rest : List FeltCmd} (hqueue : (getArray s k.val).queue = c :: rest) (slot : Nat)
    (x : FeltSlot) : ∃ u, u = later (popCmd (runBegun (endHold s k.val) k.val c slot x s.now) k.val) [.feltLoadEnd k] ∧
      (getArray u k.val).state = 1 ∧ (getArray u k.val).aslot = slot ∧ (getArray u k.val).runCmd = some c ∧ (getArray u k.val).queue = rest ∧
      .feltLoadEnd k ∈ u.agenda ∧ u.ports = s.ports ∧ u.hbm = s.hbm := by
  have hframe : FeltFrame s (runBegun (endHold s k.val) k.val c slot x s.now) := (feltFrame_endHold s k.val).trans (feltFrame_runBegun ..)
  refine ⟨_, rfl, ?_, ?_, ?_, ?_, mem_agenda_later (List.mem_singleton_self _), ?_, ?_⟩
  · simp [runBegun]
  · simp [runBegun]
  · simp [runBegun]
  · simp [runBegun, queue_endHold, hqueue]
  · rw [later_ports, popCmd_ports, hframe.ports]
  · rw [later_hbm, popCmd_hbm, hframe.hbm]

/-! ## The timers of a run phase (10 R253, R256) -/

section
variable {s : State} {k : Fin 8}

theorem exec_feltLoadEnd_charged (h : (getArray s k.val).state = 1) : exec (.feltLoadEnd k) s = .next (
    later (modArray s k.val (fun f => { f with state := 2, startTick := s.now })) [.feltRunmax k]) := by
  simp [exec_feltLoadEnd, execFeltLoadEnd, event, h]

theorem exec_feltLoadEnd_eq_self (h : (getArray s k.val).state ≠ 1) : exec (.feltLoadEnd k) s = .next s := by
  simp [exec_feltLoadEnd, execFeltLoadEnd, event, h]

theorem exec_settleDetect_eq_self (h : (getArray s k.val).state ≠ 2 ∨ s.now < (getArray s k.val).startTick + dwell (getArray s k.val)) :
    exec (.settleDetect k) s = .next s := by
  rw [exec_settleDetect, execSettleDetect, event]
  refine congrArg _ (if_neg ?_)
  simp only [Bool.and_eq_true, decide_eq_true_eq]
  omega

theorem exec_settleDetect_ends (h : (getArray s k.val).state = 2) (hdwell : (getArray s k.val).startTick + dwell (getArray s k.val) ≤ s.now) :
    exec (.settleDetect k) s = .next (endPhase s k.val 1) := by
  simp [exec_settleDetect, execSettleDetect, event, h, hdwell]

theorem exec_feltRunmax_eq_self (h : (getArray s k.val).state ≠ 2) : exec (.feltRunmax k) s = .next s := by
  simp [exec_feltRunmax, execFeltRunmax, event, h]

theorem exec_feltRunmax_waits (h : (getArray s k.val).state = 2) (hmax : s.now < (getArray s k.val).startTick + runMax (getArray s k.val)) :
    exec (.feltRunmax k) s = .next (later s [.feltRunmax k]) := by
  simp [exec_feltRunmax, execFeltRunmax, event, h, hmax]

theorem exec_feltRunmax_ends (h : (getArray s k.val).state = 2) (hmax : (getArray s k.val).startTick + runMax (getArray s k.val) ≤ s.now) :
    exec (.feltRunmax k) s = .next (endPhase s k.val 2) := by
  simp [exec_feltRunmax, execFeltRunmax, event, h, hmax.not_gt]

theorem exec_holdTimeout_eq_self (h : (getArray s k.val).state ≠ 3) : exec (.holdTimeout k) s = .next s := by
  simp [exec_holdTimeout, execHoldTimeout, event, h]

theorem exec_holdTimeout_waits (h : (getArray s k.val).state = 3) (htime : s.now < (getArray s k.val).startTick + 1000000000) :
    exec (.holdTimeout k) s = .next (later s [.holdTimeout k]) := by
  simp [exec_holdTimeout, execHoldTimeout, event, h, htime]

theorem exec_holdTimeout_ends (h : (getArray s k.val).state = 3) (htime : (getArray s k.val).startTick + 1000000000 ≤ s.now) :
    exec (.holdTimeout k) s = .next (feltNext (endHold s k.val) k.val) := by
  simp [exec_holdTimeout, execHoldTimeout, event, h, htime.not_gt]

end

/-! ## Saturation (10 R257) -/

section
variable {s : State} {k : Fin 8} {summer : Bool} {element : Nat}

theorem exec_feltSaturation_eq_self
    (h : ((getArray s k.val).state ≠ 2 ∧ (getArray s k.val).state ≠ 3) ∨ canSaturate (getArray s k.val) summer element = false) :
    exec (.feltSaturation k summer element) s = .next s := by
  rw [exec_feltSaturation, execFeltSaturation, event]
  refine congrArg _ (if_pos ?_)
  simp only [Bool.or_eq_true, Bool.not_eq_true', Bool.or_eq_false_iff, decide_eq_false_iff_not]
  exact h

/-- The array that saturates in HOLD, before its message. -/
def holdSaturated (s : State) (k : Nat) : State :=
  feltNext (idleCalibration (modArray s k (fun f => { f with state := 0, result := 3, startTick := s.now })) k) k

variable (hsat : canSaturate (getArray s k.val) summer element = true)
include hsat

theorem exec_feltSaturation_run (h : (getArray s k.val).state = 2) (hlast : (getArray s k.val).lastRun = none) :
    exec (.feltSaturation k summer element) s = .next (endPhase s k.val 3) := by
  simp [exec_feltSaturation, execFeltSaturation, event, h, hsat, hlast]

theorem exec_feltSaturation_run_posts {c : FeltCmd} (h : (getArray s k.val).state = 2) (hlast : (getArray s k.val).lastRun = some c) :
    exec (.feltSaturation k summer element) s = .next (
      postSat (owes (endPhase s k.val 3) k.val (c, summer, element, s.now)) k.val) := by
  simp [exec_feltSaturation, execFeltSaturation, event, h, hsat, hlast, owes]

theorem exec_feltSaturation_hold (h : (getArray s k.val).state = 3) (hlast : (getArray s k.val).lastRun = none) :
    exec (.feltSaturation k summer element) s = .next (holdSaturated s k.val) := by
  simp [exec_feltSaturation, execFeltSaturation, event, h, hsat, hlast, holdSaturated]

end

theorem holdSaturated_idle (s : State) (k : Fin 8) : (getArray (holdSaturated s k.val) k.val).state = 0 ∧
    (getArray (holdSaturated s k.val) k.val).result = 3 ∧ FeltFrame s (holdSaturated s k.val) := by
  rw [holdSaturated]
  refine ⟨?_, ?_, ((feltFrame_modArray ..).trans (feltFrame_idleCalibration ..)).trans (feltFrame_feltNext ..)⟩
  · rw [getArray_feltNext, getArray_idleCalibration_keeps (·.state) (fun _ _ _ => rfl), getArray_modArray]
  · rw [getArray_feltNext, getArray_idleCalibration_keeps (·.result) (fun _ _ _ => rfl), getArray_modArray]

/-! ## Calibration (10 R264) -/

section
variable {s : State} {k : Fin 8}

theorem exec_calibration_begins (hcal : (getArray s k.val).calibrating = false) (hidle : (getArray s k.val).state = 0)
    (hhead : (getArray s (gangHead s k.val)).state = 0) (hdue : (getArray s k.val).lastCal + 10000000 ≤ s.now) :
    exec (.calibration k) s = .next (
      later (modArray s k.val (fun f => { f with calibrating := true, startTick := s.now })) [.calibration k]) := by
  simp [exec_calibration, execCalibration, event, hcal, hidle, hhead, hdue, calibrate]

theorem exec_calibration_eq_self (hcal : (getArray s k.val).calibrating = false) (h : (getArray s k.val).state ≠ 0 ∨
      (getArray s (gangHead s k.val)).state ≠ 0 ∨ s.now < (getArray s k.val).lastCal + 10000000) :
    exec (.calibration k) s = .next s := by
  rw [exec_calibration, execCalibration, event]
  refine congrArg _ ((if_neg (by simp [hcal])).trans (if_neg ?_))
  simp only [Bool.and_eq_true, decide_eq_true_eq]
  omega

theorem exec_calibration_waits (hcal : (getArray s k.val).calibrating = true) (htime : s.now < (getArray s k.val).startTick + 20000) :
    exec (.calibration k) s = .next (later s [.calibration k]) := by
  simp [exec_calibration, execCalibration, event, hcal, htime]

theorem exec_calibration_ends (hcal : (getArray s k.val).calibrating = true) (htime : (getArray s k.val).startTick + 20000 ≤ s.now) :
    exec (.calibration k) s = .next (feltNext (modArray s k.val (fun f => { f with calibrating := false, lastCal := s.now })) k.val) := by
  simp [exec_calibration, execCalibration, event, hcal, htime.not_gt]

end

/-! ## Conversions (08 R225; 10 R262; 16 R377) -/

/-- A conversion is over and its array free for the next command. -/
def conversionOver (k : Nat) (c : FeltCmd) (s : State) (m : Option (Word × List Byte)) : State :=
  checkRun (feltNext (modArray (clearPieces (sampleOver s c m) (feltUnit k)) k (fun f => { f with converting := none })) k) c.run

section
variable {s s1 : State} {k : Fin 8} {c : FeltCmd} {grid : Bool} {dst : Word}

theorem exec_feltConversion_eq_self (h : (getArray s k.val).converting = none) : exec (.feltConversion k) s = .next s := by
  simp [exec_feltConversion, execFeltConversion, event, h]

variable (hconverting : (getArray s k.val).converting = some c) (hop : c.op = .sample grid dst)
include hconverting hop

theorem exec_feltConversion_decides {old : Option (List Byte)} (hlogged : (getArray s k.val).record.logged = none)
    (hreplay : replayed s c (getArray s k.val).record.fp = .ok old s1) : exec (.feltConversion k) s = .next (
    later (modArray s1 k.val (fun f => { f with
      record := { (getArray s k.val).record with bytes := old.getD (getArray s k.val).record.bytes, logged := some old.isSome } })) [.feltConversion k]) := by
  simp [exec_feltConversion, execFeltConversion, event, hconverting, hop, hlogged, hreplay]

variable {logged : Bool} (hlogged : (getArray s k.val).record.logged = some logged)
include hlogged

theorem exec_feltConversion_outside (hfits : sampleFits s c dst (getArray s k.val).record.bytes.length = false) :
    exec (.feltConversion k) s = .next (conversionOver k.val c (sampleFails s c 0x04 (getArray s k.val).record.bytes.length) none) := by
  simp [exec_feltConversion, execFeltConversion, event, hconverting, hop, hlogged, hfits, conversionOver]

variable (hfits : sampleFits s c dst (getArray s k.val).record.bytes.length = true)
include hfits

theorem exec_feltConversion_fails {code sub : Nat} (hstore : sampleStore s k.val c dst (getArray s k.val).record.bytes = .bad code sub s1) :
    exec (.feltConversion k) s = .next (conversionOver k.val c (sampleFails s1 c code (getArray s k.val).record.bytes.length) none) := by
  simp [exec_feltConversion, execFeltConversion, event, hconverting, hop, hlogged, hfits, hstore, conversionOver]

theorem exec_feltConversion_lands (hstore : sampleStore s k.val c dst (getArray s k.val).record.bytes = .ok () s1) :
    exec (.feltConversion k) s = .next (conversionOver k.val c (sampleLands s1 k.val c dst (getArray s k.val).record.bytes.length)
      (if logged then none else some ((getArray s k.val).record.fp, (getArray s k.val).record.bytes))) := by
  simp [exec_feltConversion, execFeltConversion, event, hconverting, hop, hlogged, hfits, hstore, conversionOver]

end

/-! ## The arrays' steps (O44) -/

/-- A step that ends a run phase and leaves all else to the arrays and the agenda. -/
def EndsPhase (s : State) (k : Nat) (i : Instr) (code : Nat) : Prop :=
  ∃ u, exec i s = .next u ∧ (getArray u k).result = code ∧ (getArray u k).haltp = false ∧
    (getArray u k).state = (if GoesIdle s k code then 0 else 3) ∧ u.ports = s.ports ∧ u.hbm = s.hbm

theorem PhaseOver.exec {s u : State} {k code : Nat} {i : Instr} (h : PhaseOver s k code u) (hexec : exec i s = .next u) : EndsPhase s k i code :=
  ⟨u, hexec, h.result, h.haltp, h.state, h.frame.ports, h.frame.hbm⟩

/-- A run phase that saturates ends as any other does, and its message is the newest of the SVC role's. -/
theorem exec_feltSaturation_run_posted {s : State} {k : Fin 8} {summer : Bool} {element : Nat} {c : FeltCmd}
    (hstate : (getArray s k.val).state = 2) (hsettlers : (getArray s k.val).settlers = []) (hrun : (getArray s k.val).runCmd = none)
    (hlast : (getArray s k.val).lastRun = some c) (hsat : canSaturate (getArray s k.val) summer element = true)
    (hsats : (getArray s k.val).sats = []) (hmb : (getCtx s c.ctx).service = 0) :
    EndsPhase s k.val (.feltSaturation k summer element) 3 ∧
      ∃ u msg, exec (.feltSaturation k summer element) s = .next u ∧ u.svcInbox = s.svcInbox ++ [msg] ∧ fieldAt msg 0 1 = 0x0C ∧
        fieldAt msg 2 2 = (if summer then 2 else 1) ∧ fieldAt msg 4 4 = c.ctx.toNat ∧ fieldAt msg 8 4 = c.run.toNat := by
  obtain ⟨hresult, hhaltp, hidle, hsats', hframe⟩ := endPhase_over (s := s) (k := k) 3 hsettlers hrun
  have hmb' := (congrArg Context.service (hframe.getCtx c.ctx)).trans hmb
  obtain ⟨t, u, hposted, hinbox, harray, hports, hhbm⟩ := postSat_owes (summer := summer) (element := element) (stamp := s.now)
    (hsats'.trans hsats) hmb'
  have hexec := exec_feltSaturation_run_posts hsat hstate hlast
  rw [hposted] at hexec
  rw [← harray] at hresult hhaltp hidle
  rw [hframe.svcInbox] at hinbox
  exact ⟨⟨u, hexec, hresult, hhaltp, hidle, hports.trans hframe.ports, hhbm.trans hframe.hbm⟩,
    u, satMessage t k.val c summer element s.now t.svcPosted, hexec, hinbox, satMessage_fields rfl⟩

/-- After 1 s in HOLD an array is IDLE; arrays outside its gang stay as they are. -/
theorem exec_holdTimeout_frees {s : State} {k : Fin 8} (h : (getArray s k.val).state = 3)
    (htime : (getArray s k.val).startTick + 1000000000 ≤ s.now) :
    ∃ u, exec (.holdTimeout k) s = .next u ∧ u = { s with felt := u.felt, agenda := u.agenda } ∧
      getArray u k.val = { getArray s k.val with
        state := 0, startTick := s.now
        calibrating := (getArray s k.val).calibrating
          || (decide (gangHead s k.val = k.val) && decide ((getArray s k.val).lastCal + 10000000 < s.now)) } ∧
      (∀ j < 8, j ≠ k.val → gangHead s j ≠ k.val → getArray u j = getArray s j) ∧ .feltCommandExecute k ∈ u.agenda := by
  refine ⟨_, exec_holdTimeout_ends h htime, (feltFrame_endHold ..).trans (feltFrame_feltNext ..), getArray_endHold_of_hold h,
    fun j hj hne hhead => getArray_endHold_other hj hne hhead, ?_⟩
  rw [feltNext, toArray_val]
  exact mem_agenda_later (List.mem_singleton_self _)

/-- The first array at which a strand waits with a time-out, and the tick at which that passes. -/
def settlerAt (s : State) (n : Nat) : Option (Nat × Nat) :=
  (List.range 8).findSome? (fun k => ((getArray s k).settlers.find? (fun e => e.1 == n && !(e.2 = 0))).map (fun e => (k, e.2)))

theorem exec_settleTimeout_of_none {s : State} {n : Nat} (h : settlerAt s n = none) : exec (.settleTimeout (.strand n)) s = .next s := by
  rw [settlerAt] at h
  simp only [exec_settleTimeout, execSettleTimeout, event, h]

theorem exec_settleTimeout_of_some {s : State} {n k deadline : Nat} (h : settlerAt s n = some (k, deadline)) :
    let s1 := modArray s k (fun f => { f with settlers := f.settlers.filter (fun e => !(e.1 == n)) })
    exec (.settleTimeout (.strand n)) s = .next (
      if s.now < deadline then later s [.settleTimeout (.strand n)] else feltAnswer s1 n (feltStatus (getArray s1 k) 2)) := by
  rw [settlerAt] at h
  simp only [exec_settleTimeout, execSettleTimeout, event, h]

/-- Settles O44: command by command and timer by timer, each by the lemma of its step. -/
theorem feltStepsRunTheArrays : Obligations.FeltStepsRunTheArrays := by
  unfold Obligations.FeltStepsRunTheArrays
  intro s s1 k c rest x slot element n core code sub summer grid addr dst old f fresh
  refine ⟨exec_feltCommandExecute_of_queue_nil, fun hsats hqueue hconv hmember => ⟨?_, ?_, ?_, ?_, ?_, ?_, ?_, ?_⟩,
    fun hsats hqueue hconv hmember => ⟨?_, ?_⟩, exec_feltLoadEnd_charged, exec_feltLoadEnd_eq_self,
    fun h => ⟨exec_settleDetect_eq_self (.inl h), exec_feltRunmax_eq_self h⟩, fun h => exec_settleDetect_eq_self (.inr h), exec_feltRunmax_waits,
    ?_, ?_, exec_feltSaturation_eq_self, exec_holdTimeout_waits, exec_holdTimeout_frees, exec_holdTimeout_eq_self, exec_calibration_begins,
    exec_calibration_eq_self, exec_calibration_waits, exec_calibration_ends, rfl, ?_, exec_feltConversion_eq_self, ?_⟩
  · intro hop
    rw [exec_feltCommandExecute_halt hsats hqueue hconv hop, if_neg (by simp [hmember])]
  · intro hop hwaits
    rw [exec_feltCommandExecute_stat hsats hqueue hconv hop hwaits, gangHead_of_not_member hmember]
  · exact fun hop hwaits => exec_feltCommandExecute_settle_idle hsats hqueue hconv hop hwaits hmember
  · exact exec_feltCommandExecute_cfg_inactive hsats hqueue hconv
  · exact exec_feltCommandExecute_table_empty hsats hqueue hconv
  · exact fun hop => exec_feltCommandExecute_sample hsats hqueue hconv hop hmember
  · intro hop hslot
    rw [exec_feltCommandExecute_run hsats hqueue hconv hop, feltRunCmd_empty hslot]
  · intro hop hslot hsingle hphase ended
    have hrun := exec_feltCommandExecute_run hsats hqueue hconv hop
    refine ⟨fun hcal => ?_, fun hcal => ?_⟩
    · rw [hrun, feltRunCmd_calibrating hslot hsingle hmember hphase hcal]
    · obtain ⟨u, hu, hload⟩ := runBegun_load hqueue slot x
      rw [feltRunCmd_begins hslot hsingle hmember hphase hcal, toArray_val, ← hu] at hrun
      exact ⟨u, hrun, hload⟩
  · rintro (hop | ⟨slot, hop, hloaded⟩)
    · rw [exec_feltCommandExecute_halt hsats hqueue hconv hop, if_pos hmember]
    · obtain ⟨x, hslot⟩ := Option.isSome_iff_exists.mp hloaded
      rw [exec_feltCommandExecute_run hsats hqueue hconv hop, feltRunCmd_member hslot hmember]
  · exact exec_feltCommandExecute_stat hsats hqueue hconv
  · intro hstate hsettlers hrun ends
    have hends : ∀ i code, exec i s = .next (endPhase s k.val code) → ends i code := fun i code hexec =>
      (endPhase_over code hsettlers hrun).exec hexec
    exact ⟨fun hdwell => hends _ _ (exec_settleDetect_ends hstate hdwell), fun hmax => hends _ _ (exec_feltRunmax_ends hstate hmax),
      fun hlast hsat => hends _ _ (exec_feltSaturation_run hsat hstate hlast), exec_feltSaturation_run_posted hstate hsettlers hrun⟩
  · intro hstate hlast hsat
    obtain ⟨hidle, hresult, hframe⟩ := holdSaturated_idle s k
    exact ⟨_, exec_feltSaturation_hold hsat hstate hlast, hidle, hresult, hframe.ports, hframe.hbm⟩
  · rintro found rfl
    exact ⟨exec_settleTimeout_of_none, fun deadline => exec_settleTimeout_of_some⟩
  · intro hconv hop r n finished
    exact ⟨exec_feltConversion_decides hconv hop, fun logged hlogged => ⟨exec_feltConversion_outside hconv hop hlogged,
      fun hfits => exec_feltConversion_fails hconv hop hlogged hfits, exec_feltConversion_lands hconv hop hlogged⟩⟩

end Sys2Proof.Machine
end

section
/-!
PROOFS. The encoder and the decoder agree (11 R269 to R273): what the decoder reads from a word has that word for its encoding, and the
decoder reads back what the encoder writes (`RoundTrip`).
-/
namespace Sys2Proof.Laws

/-! ## Bits that a word shows -/

/-- The bits of a word from bit `lo` on are `x`. -/
def Shows (w : Word32) (lo : Nat) {n : Nat} (x : BitVec n) : Prop := field w lo n = x

section
variable {w : Word32}

theorem shows_append {lo m n : Nat} {x : BitVec m} {y : BitVec n} : Shows w lo (x ++ y) ↔ Shows w (lo + n) x ∧ Shows w lo y := by
  have join : field w (lo + n) m ++ field w lo n = field w lo (m + n) :=
    BitVec.extractLsb'_append_extractLsb'_eq_extractLsb' (Nat.add_comm lo n ▸ by omega)
  unfold Shows
  constructor
  · intro h
    rw [← join] at h
    have hx := congrArg (BitVec.extractLsb' n m) h
    have hy := congrArg (BitVec.extractLsb' 0 n) h
    rw [field_above _ _ _ _ (Nat.le_refl n), field_above _ _ _ _ (Nat.le_refl n), Nat.sub_self, field_whole, field_whole] at hx
    rw [field_below _ _ _ _ (by omega), field_below _ _ _ _ (by omega), field_whole, field_whole] at hy
    exact ⟨hx, hy⟩
  · rintro ⟨rfl, rfl⟩
    exact join.symm

theorem shows_field {lo n : Nat} : Shows w lo (field w lo n) := rfl

theorem shows_ofNat {lo n k : Nat} : Shows w lo (BitVec.ofNat n k) ↔ field w lo n = BitVec.ofNat n k := Iff.rfl

/-- A field that reaches the top of the word holds the major opcode and what is below it. -/
theorem field_top {lo k : Nat} {c : BitVec (k + 6)} (hlo : lo + k = 26) (_hk : 0 < k) :
    field w lo (k + 6) = c ↔ field w 26 6 = c.extractLsb' k 6 ∧ field w lo k = c.extractLsb' 0 k := by
  rw [field, field_split w lo (k + 6) k 26 6 c rfl hlo.symm]
  exact and_comm

theorem major_eq {m : Nat} (h : (field w 26 6).toNat = m) : field w 26 6 = BitVec.ofNat 6 m := by
  rw [← h, BitVec.ofNat_toNat, BitVec.setWidth_eq]

/-! ## What a word is read as encodes to it -/

/-- An answer of the decoder that encodes to the word it was read from. -/
def ReadsBack (w : Word32) (r : Except Reject Instr) : Prop := ∀ i, r = .ok i → encode i = some w

@[simp] theorem readsBack_error (e : Reject) : ReadsBack w (.error e) := by
  intro i h
  cases h

theorem readsBack_ok {i : Instr} {x : Word32} (he : encode i = some x) (hx : Shows w 0 x) : ReadsBack w (.ok i) := by
  intro j h
  cases h
  rw [he, ← hx, field, field_whole]

theorem readsBack_ite {c : Prop} [Decidable c] {r r' : Except Reject Instr} (h : c → ReadsBack w r) (h' : ReadsBack w r') :
    ReadsBack w (if c then r else r') := by
  split
  · exact h ‹_›
  · exact h'

theorem readsBack_decodeIll (hm : field w 26 6 = 0x00#6) : ReadsBack w (decodeIll w) :=
  readsBack_ok rfl (by simp [↓shows_append, shows_field, shows_ofNat, hm])

theorem readsBack_decodeOpi (hm : field w 26 6 = 0x01#6) : ReadsBack w (decodeOpi w) := by
  unfold decodeOpi
  repeat' refine readsBack_ite (fun h => readsBack_ok rfl ?_) ?_
  all_goals simp [↓shows_append, shows_field, shows_ofNat, *]

theorem readsBack_decodeMulDiv (hm : field w 26 6 = 0x02#6) : ReadsBack w (decodeMulDiv w) := by
  unfold decodeMulDiv
  repeat' refine readsBack_ite (fun h => readsBack_ok rfl ?_) ?_
  all_goals simp [↓shows_append, shows_field, shows_ofNat, *]

theorem readsBack_decodeShiftI (hm : field w 26 6 = 0x07#6) : ReadsBack w (decodeShiftI w) := by
  unfold decodeShiftI
  repeat' refine readsBack_ite (fun h => readsBack_ok rfl ?_) ?_
  all_goals simp [↓shows_append, shows_field, shows_ofNat, *]

theorem readsBack_decodeLui (hm : field w 26 6 = 0x0a#6) : ReadsBack w (decodeLui w) :=
  readsBack_ok rfl (by simp [↓shows_append, shows_field, shows_ofNat, hm])

theorem readsBack_decodeLdx (hm : field w 26 6 = 0x0c#6) : ReadsBack w (decodeLdx w) := by
  unfold decodeLdx
  repeat' refine readsBack_ite (fun h => readsBack_ok rfl ?_) ?_
  all_goals simp [↓shows_append, shows_field, shows_ofNat, *]

theorem readsBack_decodeFop (hm : field w 26 6 = 0x10#6) : ReadsBack w (decodeFop w) := by
  unfold decodeFop
  repeat' refine readsBack_ite (fun h => readsBack_ok rfl ?_) ?_
  all_goals simp [↓shows_append, shows_field, shows_ofNat, *]

theorem readsBack_decodeFma (hm : field w 26 6 = 0x11#6) : ReadsBack w (decodeFma w) := by
  unfold decodeFma
  repeat' refine readsBack_ite (fun h => readsBack_ok rfl ?_) ?_
  all_goals simp [↓shows_append, shows_field, shows_ofNat, *]

theorem readsBack_decodeCvt (hm : field w 26 6 = 0x12#6) : ReadsBack w (decodeCvt w) := by
  unfold decodeCvt
  repeat' refine readsBack_ite (fun h => readsBack_ok rfl ?_) ?_
  all_goals simp [↓shows_append, shows_field, shows_ofNat, *]

theorem readsBack_decodeBr (hm : field w 26 6 = 0x18#6) : ReadsBack w (decodeBr w) := by
  unfold decodeBr
  repeat' refine readsBack_ite (fun h => readsBack_ok rfl ?_) ?_
  all_goals simp [↓shows_append, shows_field, shows_ofNat, *]

theorem readsBack_decodeSys (hm : field w 26 6 = 0x1b#6) : ReadsBack w (decodeSys w) := by
  unfold decodeSys
  repeat' refine readsBack_ite (fun h => readsBack_ok rfl ?_) ?_
  all_goals simp (disch := decide) [↓shows_append, shows_field, shows_ofNat, field_top, *]

theorem readsBack_decodeCsr (hm : field w 26 6 = 0x1c#6) : ReadsBack w (decodeCsr w) := by
  unfold decodeCsr
  repeat' refine readsBack_ite (fun h => readsBack_ok rfl ?_) ?_
  all_goals simp [↓shows_append, shows_field, shows_ofNat, *]

theorem readsBack_decodeGear (hm : field w 26 6 = 0x1d#6) : ReadsBack w (decodeGear w) := by
  unfold decodeGear
  repeat' refine readsBack_ite (fun h => readsBack_ok rfl ?_) ?_
  all_goals simp [↓shows_append, shows_field, shows_ofNat, *]

theorem readsBack_decodeMsg (hm : field w 26 6 = 0x1e#6) : ReadsBack w (decodeMsg w) := by
  unfold decodeMsg
  repeat' refine readsBack_ite (fun h => readsBack_ok rfl ?_) ?_
  all_goals simp (disch := decide) [↓shows_append, shows_field, shows_ofNat, field_top, *]

theorem readsBack_decodeWork (hm : field w 26 6 = 0x1f#6) : ReadsBack w (decodeWork w) := by
  unfold decodeWork
  repeat' refine readsBack_ite (fun h => readsBack_ok rfl ?_) ?_
  all_goals simp (disch := decide) [↓shows_append, shows_field, shows_ofNat, field_top, *]

theorem readsBack_decodeVop (hm : field w 26 6 = 0x20#6) : ReadsBack w (decodeVop w) := by
  unfold decodeVop
  repeat' refine readsBack_ite (fun h => readsBack_ok rfl ?_) ?_
  all_goals simp [↓shows_append, shows_field, shows_ofNat, *]

theorem readsBack_decodeVfop (hm : field w 26 6 = 0x21#6) : ReadsBack w (decodeVfop w) := by
  unfold decodeVfop
  repeat' refine readsBack_ite (fun h => readsBack_ok rfl ?_) ?_
  all_goals simp [↓shows_append, shows_field, shows_ofNat, *]

theorem readsBack_decodeVfmaA (hm : field w 26 6 = 0x22#6) : ReadsBack w (decodeVfmaA w) := by
  unfold decodeVfmaA
  repeat' refine readsBack_ite (fun h => readsBack_ok rfl ?_) ?_
  all_goals simp [↓shows_append, shows_field, shows_ofNat, *]

theorem readsBack_decodeVfmaB (hm : field w 26 6 = 0x23#6) : ReadsBack w (decodeVfmaB w) := by
  unfold decodeVfmaB
  repeat' refine readsBack_ite (fun h => readsBack_ok rfl ?_) ?_
  all_goals simp [↓shows_append, shows_field, shows_ofNat, *]

theorem readsBack_decodeVcmp (hm : field w 26 6 = 0x24#6) : ReadsBack w (decodeVcmp w) := by
  unfold decodeVcmp
  repeat' refine readsBack_ite (fun h => readsBack_ok rfl ?_) ?_
  all_goals simp [↓shows_append, shows_field, shows_ofNat, *]

theorem readsBack_decodeVred (hm : field w 26 6 = 0x25#6) : ReadsBack w (decodeVred w) := by
  unfold decodeVred
  repeat' refine readsBack_ite (fun h => readsBack_ok rfl ?_) ?_
  all_goals simp [↓shows_append, shows_field, shows_ofNat, *]

theorem readsBack_decodeVperm (hm : field w 26 6 = 0x26#6) : ReadsBack w (decodeVperm w) := by
  unfold decodeVperm
  repeat' refine readsBack_ite (fun h => readsBack_ok rfl ?_) ?_
  all_goals simp [↓shows_append, shows_field, shows_ofNat, *]

theorem readsBack_decodeVcvt (hm : field w 26 6 = 0x27#6) : ReadsBack w (decodeVcvt w) := by
  unfold decodeVcvt
  repeat' refine readsBack_ite (fun h => readsBack_ok rfl ?_) ?_
  all_goals simp [↓shows_append, shows_field, shows_ofNat, *]

theorem readsBack_decodeMask (hm : field w 26 6 = 0x33#6) : ReadsBack w (decodeMask w) := by
  unfold decodeMask
  repeat' refine readsBack_ite (fun h => readsBack_ok rfl ?_) ?_
  all_goals simp [↓shows_append, shows_field, shows_ofNat, *]

theorem readsBack_decodeVld (hm : field w 26 6 = 0x28#6) : ReadsBack w (decodeVld w) := by
  unfold decodeVld
  repeat' refine readsBack_ite (fun h => readsBack_ok rfl ?_) ?_
  all_goals simp [↓shows_append, shows_field, shows_ofNat, *]

theorem readsBack_decodeVst (hm : field w 26 6 = 0x29#6) : ReadsBack w (decodeVst w) := by
  unfold decodeVst
  repeat' refine readsBack_ite (fun h => readsBack_ok rfl ?_) ?_
  all_goals simp [↓shows_append, shows_field, shows_ofNat, *]

theorem readsBack_decodeVgath (hm : field w 26 6 = 0x2a#6) : ReadsBack w (decodeVgath w) := by
  unfold decodeVgath
  repeat' refine readsBack_ite (fun h => readsBack_ok rfl ?_) ?_
  all_goals simp [↓shows_append, shows_field, shows_ofNat, *]

theorem readsBack_decodeVscat (hm : field w 26 6 = 0x2b#6) : ReadsBack w (decodeVscat w) := by
  unfold decodeVscat
  repeat' refine readsBack_ite (fun h => readsBack_ok rfl ?_) ?_
  all_goals simp [↓shows_append, shows_field, shows_ofNat, *]

theorem readsBack_decodeSt (hm : field w 26 6 = 0x2d#6) : ReadsBack w (decodeSt w) := by
  unfold decodeSt
  repeat' refine readsBack_ite (fun h => readsBack_ok rfl ?_) ?_
  all_goals simp [↓shows_append, shows_field, shows_ofNat, *]

theorem readsBack_decodeAmo (hm : field w 26 6 = 0x2e#6) : ReadsBack w (decodeAmo w) := by
  unfold decodeAmo
  repeat' refine readsBack_ite (fun h => readsBack_ok rfl ?_) ?_
  all_goals simp [↓shows_append, shows_field, shows_ofNat, *]

theorem readsBack_decodeSync (hm : field w 26 6 = 0x2f#6) : ReadsBack w (decodeSync w) := by
  unfold decodeSync
  repeat' refine readsBack_ite (fun h => readsBack_ok rfl ?_) ?_
  all_goals simp (disch := decide) [↓shows_append, shows_field, shows_ofNat, field_top, *]

theorem readsBack_decodeBar (hm : field w 26 6 = 0x30#6) : ReadsBack w (decodeBar w) := by
  unfold decodeBar
  repeat' refine readsBack_ite (fun h => readsBack_ok rfl ?_) ?_
  all_goals simp (disch := decide) [↓shows_append, shows_field, shows_ofNat, field_top, *]

theorem readsBack_decodeStash (hm : field w 26 6 = 0x31#6) : ReadsBack w (decodeStash w) := by
  unfold decodeStash
  repeat' refine readsBack_ite (fun h => readsBack_ok rfl ?_) ?_
  all_goals simp (disch := decide) [↓shows_append, shows_field, shows_ofNat, field_top, *]

theorem readsBack_decodeCarriage (hm : field w 26 6 = 0x32#6) : ReadsBack w (decodeCarriage w) := by
  unfold decodeCarriage
  repeat' refine readsBack_ite (fun h => readsBack_ok rfl ?_) ?_
  all_goals simp (disch := decide) [↓shows_append, shows_field, shows_ofNat, field_top, *]

theorem readsBack_decodeAcc (hm : field w 26 6 = 0x34#6) : ReadsBack w (decodeAcc w) := by
  unfold decodeAcc
  repeat' refine readsBack_ite (fun h => readsBack_ok rfl ?_) ?_
  all_goals simp (disch := decide) [↓shows_append, shows_field, shows_ofNat, field_top, *]

theorem readsBack_decodePanel (hm : field w 26 6 = 0x35#6) : ReadsBack w (decodePanel w) := by
  unfold decodePanel
  repeat' refine readsBack_ite (fun h => readsBack_ok rfl ?_) ?_
  all_goals simp [↓shows_append, shows_field, shows_ofNat, *]

theorem readsBack_decodeMma (hm : field w 26 6 = 0x36#6) : ReadsBack w (decodeMma w) := by
  unfold decodeMma
  repeat' refine readsBack_ite (fun h => readsBack_ok rfl ?_) ?_
  all_goals simp [↓shows_append, shows_field, shows_ofNat, *]

theorem readsBack_decodeMscale (hm : field w 26 6 = 0x37#6) : ReadsBack w (decodeMscale w) := by
  unfold decodeMscale
  repeat' refine readsBack_ite (fun h => readsBack_ok rfl ?_) ?_
  all_goals simp [↓shows_append, shows_field, shows_ofNat, *]

theorem readsBack_decodeMsend (hm : field w 26 6 = 0x38#6) : ReadsBack w (decodeMsend w) := by
  unfold decodeMsend
  repeat' refine readsBack_ite (fun h => readsBack_ok rfl ?_) ?_
  all_goals simp (disch := decide) [↓shows_append, shows_field, shows_ofNat, field_top, *]

theorem readsBack_decodeDray (hm : field w 26 6 = 0x3a#6) : ReadsBack w (decodeDray w) := by
  unfold decodeDray
  repeat' refine readsBack_ite (fun h => readsBack_ok rfl ?_) ?_
  all_goals simp (disch := decide) [↓shows_append, shows_field, shows_ofNat, field_top, *]

theorem readsBack_decodeStrm (hm : field w 26 6 = 0x3b#6) : ReadsBack w (decodeStrm w) := by
  unfold decodeStrm
  repeat' refine readsBack_ite (fun h => readsBack_ok rfl ?_) ?_
  all_goals simp [↓shows_append, shows_field, shows_ofNat, *]

theorem readsBack_decodeFelt (hm : field w 26 6 = 0x3c#6) : ReadsBack w (decodeFelt w) := by
  unfold decodeFelt
  repeat' refine readsBack_ite (fun h => readsBack_ok rfl ?_) ?_
  all_goals simp (disch := decide) [↓shows_append, shows_field, shows_ofNat, field_top, *]

theorem readsBack_decodeHint (hm : field w 26 6 = 0x3f#6) : ReadsBack w (decodeHint w) := by
  unfold decodeHint
  repeat' refine readsBack_ite (fun h => readsBack_ok rfl ?_) ?_
  repeat' refine readsBack_ite (fun _ => readsBack_error _) ?_
  all_goals simp (disch := decide) [↓shows_append, shows_field, shows_ofNat, field_top, *]

theorem readsBack_decodeWord (w : Word32) : ReadsBack w (decodeWord w) := by
  unfold decodeWord
  split <;> rename_i hm
  · exact readsBack_decodeIll (major_eq hm)
  · exact readsBack_decodeOpi (major_eq hm)
  · exact readsBack_decodeMulDiv (major_eq hm)
  · exact readsBack_ok rfl (by simp [↓shows_append, shows_field, shows_ofNat, major_eq hm])
  · exact readsBack_ok rfl (by simp [↓shows_append, shows_field, shows_ofNat, major_eq hm])
  · exact readsBack_ok rfl (by simp [↓shows_append, shows_field, shows_ofNat, major_eq hm])
  · exact readsBack_ok rfl (by simp [↓shows_append, shows_field, shows_ofNat, major_eq hm])
  · exact readsBack_decodeShiftI (major_eq hm)
  · exact readsBack_ok rfl (by simp [↓shows_append, shows_field, shows_ofNat, major_eq hm])
  · exact readsBack_ok rfl (by simp [↓shows_append, shows_field, shows_ofNat, major_eq hm])
  · exact readsBack_decodeLui (major_eq hm)
  · exact readsBack_ok rfl (by simp [↓shows_append, shows_field, shows_ofNat, major_eq hm])
  · exact readsBack_decodeLdx (major_eq hm)
  · exact readsBack_decodeFop (major_eq hm)
  · exact readsBack_decodeFma (major_eq hm)
  · exact readsBack_decodeCvt (major_eq hm)
  · exact readsBack_decodeBr (major_eq hm)
  · exact readsBack_ok rfl (by simp [↓shows_append, shows_field, shows_ofNat, major_eq hm])
  · exact readsBack_ok rfl (by simp [↓shows_append, shows_field, shows_ofNat, major_eq hm])
  · exact readsBack_decodeSys (major_eq hm)
  · exact readsBack_decodeCsr (major_eq hm)
  · exact readsBack_decodeGear (major_eq hm)
  · exact readsBack_decodeMsg (major_eq hm)
  · exact readsBack_decodeWork (major_eq hm)
  · exact readsBack_decodeVop (major_eq hm)
  · exact readsBack_decodeVfop (major_eq hm)
  · exact readsBack_decodeVfmaA (major_eq hm)
  · exact readsBack_decodeVfmaB (major_eq hm)
  · exact readsBack_decodeVcmp (major_eq hm)
  · exact readsBack_decodeVred (major_eq hm)
  · exact readsBack_decodeVperm (major_eq hm)
  · exact readsBack_decodeVcvt (major_eq hm)
  · exact readsBack_decodeMask (major_eq hm)
  · exact readsBack_decodeVld (major_eq hm)
  · exact readsBack_decodeVst (major_eq hm)
  · exact readsBack_decodeVgath (major_eq hm)
  · exact readsBack_decodeVscat (major_eq hm)
  · exact readsBack_ok rfl (by simp [↓shows_append, shows_field, shows_ofNat, major_eq hm])
  · exact readsBack_decodeSt (major_eq hm)
  · exact readsBack_decodeAmo (major_eq hm)
  · exact readsBack_decodeSync (major_eq hm)
  · exact readsBack_decodeBar (major_eq hm)
  · exact readsBack_decodeStash (major_eq hm)
  · exact readsBack_decodeCarriage (major_eq hm)
  · exact readsBack_decodeAcc (major_eq hm)
  · exact readsBack_decodePanel (major_eq hm)
  · exact readsBack_decodeMma (major_eq hm)
  · exact readsBack_decodeMscale (major_eq hm)
  · exact readsBack_decodeMsend (major_eq hm)
  · exact readsBack_decodeDray (major_eq hm)
  · exact readsBack_decodeStrm (major_eq hm)
  · exact readsBack_decodeFelt (major_eq hm)
  · exact readsBack_decodeHint (major_eq hm)
  · exact readsBack_error _

end

/-! ## What an instruction encodes to is read as it -/

theorem roundTrip (i : Instr) : RoundTrip.Statement i :=
  Instr.casesOn (motive := RoundTrip.Statement) i
    RoundTrip.packageReset RoundTrip.ppsEdge RoundTrip.timeOfDayMessage RoundTrip.junctionThrottle RoundTrip.junctionShutdown RoundTrip.wearTrigger
    RoundTrip.spareSwap RoundTrip.roleMove RoundTrip.lossOfLock RoundTrip.healthWindow RoundTrip.timingReplay RoundTrip.idleFlit RoundTrip.dataFlit
    RoundTrip.ackFlit RoundTrip.nakFlit RoundTrip.trainFlit RoundTrip.replayTimeout RoundTrip.ackTimer RoundTrip.nakHoldoffExpiry
    RoundTrip.linkRetryBound RoundTrip.trainingTimeout RoundTrip.partnerReset RoundTrip.noticeRecord RoundTrip.classOHoldEnd RoundTrip.portDisable
    RoundTrip.portTrain RoundTrip.portReset RoundTrip.swreq RoundTrip.bankSwitch RoundTrip.routingBankWrite RoundTrip.devnumWrite
    RoundTrip.transitPacket RoundTrip.rd RoundTrip.rdx RoundTrip.wr RoundTrip.amoPacket RoundTrip.wb RoundTrip.snp RoundTrip.snprsp
    RoundTrip.dataPacket RoundTrip.ackPacket RoundTrip.inv RoundTrip.trinvPacket RoundTrip.gen RoundTrip.charge RoundTrip.mgmt RoundTrip.notice
    RoundTrip.sendPacket RoundTrip.courierPacket RoundTrip.msendPacket RoundTrip.draywr RoundTrip.killPacket RoundTrip.reply RoundTrip.reservedOpcode
    RoundTrip.requestTimeout RoundTrip.goneClear RoundTrip.chargeSend RoundTrip.snoopTimeout RoundTrip.peek RoundTrip.reclaimKeep
    RoundTrip.reclaimData RoundTrip.doorbell RoundTrip.queueCreate RoundTrip.destroy RoundTrip.destroyKill RoundTrip.queueResume RoundTrip.packetFetch
    RoundTrip.fetchReread RoundTrip.launchPacket RoundTrip.relaunchPacket RoundTrip.coach RoundTrip.destroyPacket RoundTrip.signal RoundTrip.waitmem
    RoundTrip.waitmemPoll RoundTrip.nopPacket RoundTrip.packetCompletion RoundTrip.timesliceExpiry RoundTrip.partitionReset RoundTrip.partcfgWrite
    RoundTrip.qhctlWrite RoundTrip.ctxctlWrite RoundTrip.errorRingSetup RoundTrip.storageBlockWrite RoundTrip.bar4Read RoundTrip.bar4Write
    RoundTrip.peerLoadTimeout RoundTrip.chunk RoundTrip.commit RoundTrip.attest RoundTrip.reboot RoundTrip.abort RoundTrip.hotPatchApply
    RoundTrip.patchTimeout RoundTrip.bindRecordWrite RoundTrip.blockDispatch RoundTrip.blockActivation RoundTrip.mfwWrite RoundTrip.cut
    RoundTrip.dispatchResume RoundTrip.kill RoundTrip.killFenceEnd RoundTrip.hold RoundTrip.release RoundTrip.fareEstimate RoundTrip.fgrant
    RoundTrip.trinvRange RoundTrip.trinvAll RoundTrip.trinvGrants RoundTrip.migReread RoundTrip.gearRailSettled RoundTrip.l2RailLower RoundTrip.park
    RoundTrip.wake RoundTrip.lattolWrite RoundTrip.dragStep RoundTrip.clockMaskAdjust RoundTrip.triggerLatch RoundTrip.courierStart
    RoundTrip.matrixCommandStart RoundTrip.kStep RoundTrip.draySegment RoundTrip.drayApertureStart RoundTrip.storageCompletion
    RoundTrip.storageTimeout RoundTrip.streamTransfer RoundTrip.feltCommandExecute RoundTrip.feltLoadEnd RoundTrip.settleDetect RoundTrip.feltRunmax
    RoundTrip.feltSaturation RoundTrip.holdTimeout RoundTrip.feltConversion RoundTrip.calibration RoundTrip.carriagePiece RoundTrip.carriageFetchFail
    RoundTrip.eviction RoundTrip.relaunchRound RoundTrip.registerWrite RoundTrip.settleTimeout RoundTrip.peerReadCompletion
    RoundTrip.partitionResetEnd RoundTrip.matrixCommandEnd RoundTrip.carriageEvicted RoundTrip.l2RailRisen RoundTrip.wearingLaneReplace
    RoundTrip.lockAcquired RoundTrip.ill RoundTrip.add RoundTrip.sub RoundTrip.and RoundTrip.or RoundTrip.xor RoundTrip.andn RoundTrip.sll
    RoundTrip.srl RoundTrip.sra RoundTrip.slt RoundTrip.sltu RoundTrip.min RoundTrip.max RoundTrip.minu RoundTrip.maxu RoundTrip.clz RoundTrip.ctz
    RoundTrip.popc RoundTrip.mul RoundTrip.mulh RoundTrip.mulhu RoundTrip.mulhsu RoundTrip.div RoundTrip.divu RoundTrip.rem RoundTrip.remu
    RoundTrip.addi RoundTrip.andi RoundTrip.ori RoundTrip.xori RoundTrip.slli RoundTrip.srli RoundTrip.srai RoundTrip.slti RoundTrip.sltiu
    RoundTrip.lui RoundTrip.auipc RoundTrip.ldx RoundTrip.fadd RoundTrip.fsub RoundTrip.fmul RoundTrip.fdiv RoundTrip.fsqrt RoundTrip.fmin
    RoundTrip.fmax RoundTrip.fsgnj RoundTrip.fsgnjn RoundTrip.fsgnjx RoundTrip.feq RoundTrip.flt RoundTrip.fle RoundTrip.fmadd RoundTrip.fmsub
    RoundTrip.fnmadd RoundTrip.fnmsub RoundTrip.fcvt RoundTrip.fclass RoundTrip.beq RoundTrip.bne RoundTrip.blt RoundTrip.bge RoundTrip.bltu
    RoundTrip.bgeu RoundTrip.bmany RoundTrip.bmnone RoundTrip.jal RoundTrip.jalr RoundTrip.sysc RoundTrip.brk RoundTrip.exit RoundTrip.yield
    RoundTrip.svcRecv RoundTrip.svcResume RoundTrip.svcKill RoundTrip.csrr RoundTrip.csrw RoundTrip.csrs RoundTrip.csrc RoundTrip.gear RoundTrip.send
    RoundTrip.courier RoundTrip.bind RoundTrip.unbind RoundTrip.launch RoundTrip.relaunch RoundTrip.wbSkip RoundTrip.wbAll RoundTrip.vadd
    RoundTrip.vsub RoundTrip.vand RoundTrip.vor RoundTrip.vxor RoundTrip.vandn RoundTrip.vsll RoundTrip.vsrl RoundTrip.vsra RoundTrip.vmin
    RoundTrip.vmax RoundTrip.vminu RoundTrip.vmaxu RoundTrip.vmul RoundTrip.vmulh RoundTrip.vmulhu RoundTrip.vsadd RoundTrip.vsaddu RoundTrip.vssub
    RoundTrip.vssubu RoundTrip.vfadd RoundTrip.vfsub RoundTrip.vfmul RoundTrip.vfdiv RoundTrip.vfsqrt RoundTrip.vfmin RoundTrip.vfmax RoundTrip.vfsgnj
    RoundTrip.vfsgnjn RoundTrip.vfsgnjx RoundTrip.vfmadd RoundTrip.vfmsub RoundTrip.vfnmadd RoundTrip.vfnmsub RoundTrip.vcmpEq RoundTrip.vcmpNe
    RoundTrip.vcmpLt RoundTrip.vcmpGe RoundTrip.vcmpLtu RoundTrip.vcmpGeu RoundTrip.vfcmpEq RoundTrip.vfcmpNe RoundTrip.vfcmpLt RoundTrip.vfcmpLe
    RoundTrip.vfcmpUo RoundTrip.vredsum RoundTrip.vredmin RoundTrip.vredmax RoundTrip.vredminu RoundTrip.vredmaxu RoundTrip.vredand RoundTrip.vredor
    RoundTrip.vredxor RoundTrip.vscan RoundTrip.vfredo RoundTrip.vfredp RoundTrip.vfredmino RoundTrip.vfredmaxo RoundTrip.vfredminp
    RoundTrip.vfredmaxp RoundTrip.vfscano RoundTrip.vbcast RoundTrip.vextract RoundTrip.vinsert RoundTrip.vslideup RoundTrip.vslidedown
    RoundTrip.vperm RoundTrip.vsel RoundTrip.vsext RoundTrip.vzext RoundTrip.vnarrow RoundTrip.vnarrowsu RoundTrip.vnarrowu RoundTrip.vtrunc
    RoundTrip.vfwiden RoundTrip.vfwidenBf RoundTrip.vfnarrow RoundTrip.vfcvtFX RoundTrip.vfcvtFXu RoundTrip.vfcvtXF RoundTrip.vfcvtXuF RoundTrip.vps8
    RoundTrip.mand RoundTrip.mor RoundTrip.mxor RoundTrip.mandn RoundTrip.mnot RoundTrip.mset RoundTrip.mget RoundTrip.mpopc RoundTrip.mfirst
    RoundTrip.mfirstn RoundTrip.vld RoundTrip.vst RoundTrip.vldm RoundTrip.vlds RoundTrip.vgath RoundTrip.vstm RoundTrip.vsts RoundTrip.vscat
    RoundTrip.ld RoundTrip.st RoundTrip.amoadd RoundTrip.amoand RoundTrip.amoor RoundTrip.amoxor RoundTrip.amomin RoundTrip.amomax RoundTrip.amominu
    RoundTrip.amomaxu RoundTrip.amoswap RoundTrip.amocas RoundTrip.fence RoundTrip.ldsync RoundTrip.stfe RoundTrip.feclr RoundTrip.waitv
    RoundTrip.ldAcq RoundTrip.stRel RoundTrip.barInit RoundTrip.barExpect RoundTrip.barArrive RoundTrip.barArriveC RoundTrip.barWait
    RoundTrip.barWaitDoze RoundTrip.barTest RoundTrip.stashMap RoundTrip.stashUnmap RoundTrip.stashFlush RoundTrip.cacheResize RoundTrip.pref
    RoundTrip.cflush RoundTrip.cwait RoundTrip.crel RoundTrip.ctest RoundTrip.accAlloc RoundTrip.accFree RoundTrip.accZero RoundTrip.accRd
    RoundTrip.accWr RoundTrip.accSt RoundTrip.pld RoundTrip.pst RoundTrip.pzero RoundTrip.mmaBf16 RoundTrip.mmaFp16 RoundTrip.mmaPs8 RoundTrip.mmaPs4
    RoundTrip.mmaTern RoundTrip.mmaFp64 RoundTrip.mscale RoundTrip.mout RoundTrip.msend RoundTrip.mwait RoundTrip.drayTpl RoundTrip.drayGo
    RoundTrip.draySlack RoundTrip.drayCancel RoundTrip.drayStat RoundTrip.drayAper RoundTrip.strmBind RoundTrip.strmUnbind RoundTrip.strmPos
    RoundTrip.feltCfg RoundTrip.feltScale RoundTrip.feltIc RoundTrip.feltRun RoundTrip.feltSettle RoundTrip.feltSample RoundTrip.feltHalt
    RoundTrip.feltStat RoundTrip.ximm RoundTrip.hintNop RoundTrip.hintTaken RoundTrip.hintSpin RoundTrip.hintKeep RoundTrip.modFrm RoundTrip.modQsel

theorem decodeWord_of_encode {i : Instr} {w : Word32} (h : encode i = some w) : decodeWord w = .ok i := by
  have hi := roundTrip i
  rw [RoundTrip.Statement, h] at hi
  exact hi

end Sys2Proof.Laws

namespace Sys2Proof.Machine

/-- Settles O55: the decoder reads back what the encoder writes (`roundTrip`), and what it reads encodes to the word (`readsBack_decodeWord`). -/
theorem wordsHaveOneMeaning : Obligations.WordsHaveOneMeaning := by
  unfold Obligations.WordsHaveOneMeaning
  exact fun i w => ⟨Laws.decodeWord_of_encode, Laws.readsBack_decodeWord w i⟩

/-- Settles O56: each word is the encoding of its instruction, which the decoder reads back; the last one's kind is reserved. -/
theorem writtenWordsDecode : Obligations.WrittenWordsDecode := by
  unfold Obligations.WrittenWordsDecode
  have reads : ∀ {i : Instr} {w : Word32}, encode i = some w → decodeWord w = .ok i := Laws.decodeWord_of_encode
  exact ⟨reads rfl, reads rfl, reads rfl, reads rfl, reads rfl, reads rfl, reads rfl, reads rfl, reads rfl, reads rfl, reads rfl, reads rfl,
    .reservedKind, rfl⟩

end Sys2Proof.Machine
end

section
/-!
PROOFS. What completing an instruction leaves alone (11 R266, R274; 00 R10).
-/
namespace Sys2Proof.Machine

/-! ## What moves beside the agent -/

/-- What may differ between a state and the one that completing an instruction makes of it, the agents' own states left open. -/
structure MovesBesideAgents (s t : State) : Prop where
  frame : t = { s with
    strands := t.strands
    couriers := t.couriers
    now := t.now
    free := t.free
    cur := t.cur
    turns := t.turns
    cores := t.cores
    tiles := t.tiles
    clusters := t.clusters
    agenda := t.agenda }
  tile : ∀ n, getTile t n = { getTile s n with doze := (getTile t n).doze, changing := (getTile t n).changing }
  core : ∀ n, getCore t n = { getCore s n with yields := (getCore t n).yields }
  cluster : ∀ n, getCluster t n = { getCluster s n with railLow := (getCluster t n).railLow }
  clock : s.now ≤ t.now
  agenda : ∃ more, t.agenda = s.agenda ++ more

section
variable {s t u : State}

theorem movesBesideAgents_refl (s : State) : MovesBesideAgents s s where
  frame := rfl
  tile _ := rfl
  core _ := rfl
  cluster _ := rfl
  clock := Nat.le_refl _
  agenda := ⟨[], (List.append_nil _).symm⟩

theorem MovesBesideAgents.trans (h : MovesBesideAgents s t) (h' : MovesBesideAgents t u) : MovesBesideAgents s u where
  frame := h'.frame.trans (by rw [h.frame])
  tile n := (h'.tile n).trans (by rw [h.tile n])
  core n := (h'.core n).trans (by rw [h.core n])
  cluster n := (h'.cluster n).trans (by rw [h.cluster n])
  clock := h.clock.trans h'.clock
  agenda := by
    obtain ⟨more, hm⟩ := h.agenda
    obtain ⟨more', hm'⟩ := h'.agenda
    exact ⟨more ++ more', by rw [hm', hm, List.append_assoc]⟩

theorem movesBesideAgents_modMe (s : State) (f : Strand → Strand) : MovesBesideAgents s (modMe s f) where
  frame := by
    unfold modMe modAgent putAgent
    cases s.cur <;> rfl
  tile n := by rw [getTile_modMe_other]
  core n := by rw [getCore_modMe_other]
  cluster n := by rw [getCluster_modMe_other]
  clock := by rw [modMe_now]
  agenda := ⟨[], by rw [modMe_agenda, List.append_nil]⟩

theorem movesBesideAgents_later (s : State) (steps : List Instr) : MovesBesideAgents s (later s steps) :=
  { movesBesideAgents_refl s with frame := rfl, agenda := ⟨steps, rfl⟩ }

theorem movesBesideAgents_tick (s : State) : MovesBesideAgents s (tick s) :=
  { movesBesideAgents_refl s with frame := rfl, clock := Nat.le_add_right _ _ }

theorem movesBesideAgents_modTile (s : State) (k : Nat) {f : Tile → Tile} (hf : ∀ t, f t = { t with doze := (f t).doze, changing := (f t).changing }) :
    MovesBesideAgents s (modTile s k f) :=
  { movesBesideAgents_refl s with
    frame := rfl
    tile := fun n => by
      by_cases hn : n = k
      · rw [hn, getTile_modTile]
        exact hf _
      · rw [getTile_modTile_ne s f hn] }

theorem movesBesideAgents_modCluster (s : State) (k : Nat) {f : Cluster → Cluster} (hf : ∀ c, f c = { c with railLow := (f c).railLow }) :
    MovesBesideAgents s (modCluster s k f) :=
  { movesBesideAgents_refl s with
    frame := rfl
    cluster := fun n => by
      by_cases hn : n = k
      · rw [hn, getCluster_modCluster]
        exact hf _
      · rw [getCluster_modCluster_ne s f hn] }

theorem movesBesideAgents_modCore (s : State) (k : Nat) {f : CoreUnit → CoreUnit} (hf : ∀ c, f c = { c with yields := (f c).yields }) :
    MovesBesideAgents s (modCore s k f) :=
  { movesBesideAgents_refl s with
    frame := rfl
    core := fun n => by
      by_cases hn : n = k
      · rw [hn, getCore_modCore]
        exact hf _
      · rw [getCore_modCore_ne s f hn] }

theorem movesBesideAgents_gearCheck (s : State) (k : Nat) : MovesBesideAgents s (gearCheck s k) := by
  have hdoze : MovesBesideAgents s (modTile s k (fun t => { t with doze := tileDozes s k })) := movesBesideAgents_modTile s k fun _ => rfl
  unfold gearCheck
  dsimp only
  refine hdoze.trans ?_
  generalize modTile s k (fun t => { t with doze := tileDozes s k }) = s1
  split
  · rcases idleCheck_cases s1 k with h | h <;> rw [h]
    · exact movesBesideAgents_refl s1
    · exact movesBesideAgents_later s1 _
  · have hchange : MovesBesideAgents s1 (later (modTile s1 k (fun t => { t with changing := some (wantedGear s k) })) [.gearRailSettled k]) :=
      (movesBesideAgents_modTile s1 k fun _ => rfl).trans (movesBesideAgents_later _ _)
    unfold beginChange
    split
    · exact hchange.trans ((movesBesideAgents_modCluster _ _ fun _ => rfl).trans (movesBesideAgents_later _ _))
    · exact hchange

theorem movesBesideAgents_leaveDoze (s : State) (dozed : Bool) (a : Agent) : MovesBesideAgents s (leaveDoze s dozed a) := by
  unfold leaveDoze
  split
  · exact movesBesideAgents_gearCheck s _
  · exact movesBesideAgents_refl s

theorem movesBesideAgents_noteIssue (s : State) : MovesBesideAgents s (noteIssue s) := by
  unfold noteIssue
  split
  · split
    · exact movesBesideAgents_refl s
    · exact movesBesideAgents_modCore s _ fun _ => rfl
  · exact movesBesideAgents_refl s

theorem movesBesideAgents_completed (s : State) : MovesBesideAgents s (completed s) :=
  (movesBesideAgents_modMe s _).trans ((movesBesideAgents_leaveDoze _ _ _).trans (movesBesideAgents_noteIssue _))

theorem done_eq_tick (s : State) : done s = tick (completed s) := rfl

theorem movesBesideAgents_done (s : State) : MovesBesideAgents s (done s) :=
  (movesBesideAgents_completed s).trans (movesBesideAgents_tick _)

end

/-! ## The registers with a constant in place 0 (11 R266) -/

theorem writeX_of_ne_zero (t : Strand) {r : BitVec 5} (v : Word) (h : r ≠ 0) : writeX t r v = { t with x := t.x.set r.toNat v r.isLt } :=
  if_neg h

theorem writeM_of_ne_zero (t : Strand) {k : BitVec 3} (v : Word) (h : k ≠ 0) : writeM t k v = { t with m := t.m.set k.toNat v k.isLt } :=
  if_neg h

theorem readM_writeM_same (t : Strand) {k : BitVec 3} (v : Word) (h : k ≠ 0) : readM (writeM t k v) k = v := by
  rw [writeM_of_ne_zero t v h, readM, if_neg h]
  exact Vector.getElem_set_self _

theorem readM_writeM_ne (t : Strand) {j k : BitVec 3} (v : Word) (h : j ≠ k) : readM (writeM t k v) j = readM t j := by
  have hn : k.toNat ≠ j.toNat := fun e => h (BitVec.eq_of_toNat_eq e.symm)
  unfold readM writeM
  split
  · rfl
  · split
    · rfl
    · exact Vector.getElem_set_ne k.isLt j.isLt hn

theorem readV_writeV_same (t : Strand) (r : BitVec 5) (y : Vec) : readV (writeV t r y) r = y := Vector.getElem_set_self _

theorem readV_writeV_ne (t : Strand) {q r : BitVec 5} (y : Vec) (h : q ≠ r) : readV (writeV t r y) q = readV t q :=
  Vector.getElem_set_ne r.isLt q.isLt fun e => h (BitVec.eq_of_toNat_eq e.symm)

/-- Settles O58: each part of completing an instruction moves only what `MovesBesideAgents` allows, and the agents follow `getAgent_retire`;
the registers are vectors, of which a write sets one place. -/
theorem completionChangesItsAgentAlone : Obligations.CompletionChangesItsAgentAlone := by
  unfold Obligations.CompletionChangesItsAgentAlone
  refine ⟨fun s => ?_, fun t d r k j v y => ?_⟩
  · obtain ⟨hframe, htile, hcore, hcluster, hclock, hagenda⟩ := movesBesideAgents_done s
    exact ⟨getAgent_retire s _, fun _ => getAgent_retire_ne s _, hframe, htile, hcore, hcluster, hclock, hagenda⟩
  · exact ⟨rfl, readX_zero t, rfl, readM_zero t, fun hd => ⟨writeX_of_ne_zero t v hd, (readX_writeX t d v).trans (if_neg hd)⟩, readX_writeX_ne t v,
      fun hk => ⟨writeM_of_ne_zero t v hk, readM_writeM_same t v hk⟩, readM_writeM_ne t v, rfl, readV_writeV_same t d y, readV_writeV_ne t y⟩

end Sys2Proof.Machine
end

section
/-!
PROOFS. Vector operands that a QSEL modifier marks: the groups of a strand's streams (05 R153, 11 R279, 13 R307).
-/
namespace Sys2Proof.Machine

/-! ## One stream of a strand -/

theorem streamOf_setStream_same (t : Strand) {q : Nat} (hq : q < 8) (f : Stream → Stream) : streamOf (setStream t q f) q = f (streamOf t q) := by
  simp [streamOf, setStream, List.getD, hq]

/-- The stream unit's transfer is put off; the issuing agent is as it was. -/
theorem streamWork_ok (q : Nat) (s : State) : ∃ s1, streamWork q s = .ok ((), s1) ∧ me s1 = me s := by
  rw [streamWork, exec_theAgent_bind]
  cases s.cur with
  | strand n => exact ⟨_, rfl, me_later_other _ _⟩
  | courier core => exact ⟨s, rfl, rfl⟩

section
variable {s : State} {q : Nat} {off : Int}

/-- A stream that is not bound, or whose pattern is over, raises STREAM as a source and as a destination. -/
theorem streamRead_over (h : (streamOf (me s) q).bound = false ∨ patternLength (streamOf (me s) q).dims ≤ (streamOf (me s) q).position) :
    streamRead q s = .error (.fault (faultInfo 0x11 0 0 0 0)) := by
  unfold streamRead
  rw [exec_self_bind, exec_ite, if_pos (by rcases h with h | h <;> simp [h])]
  exact exec_raise ..

theorem streamReady_over (h : (streamOf (me s) q).bound = false ∨ patternLength (streamOf (me s) q).dims ≤ (streamOf (me s) q).position) :
    streamReady q s = .error (.fault (faultInfo 0x11 0 0 0 0)) := by
  unfold streamReady
  rw [exec_self_bind, exec_ite, if_pos (by rcases h with h | h <;> simp [h])]
  exact exec_raise ..

/-- The next group of a stream lies in its pattern and its place in the scratchpad. -/
structure GroupAt (s : State) (q : Nat) (off : Int) : Prop where
  bound : (streamOf (me s) q).bound = true
  within : (streamOf (me s) q).position < patternLength (streamOf (me s) q).dims
  place : patternOffset (streamOf (me s) q).base (streamOf (me s) q).dims (streamOf (me s) q).position = some off
  inside : groupInside (getTile s (agentTile s.cur)) off = true

theorem streamRead_empty (h : GroupAt s q off) (hout : (streamOf (me s) q).out = false) (hbuf : (streamOf (me s) q).buffer = []) :
    streamRead q s = if groupReadable (getTile s (agentTile s.cur)) off then .error (.wait s)
      else .error (.fault (faultInfo 0x08 0x03 0 (BitVec.ofNat 64 (windowBase + off.toNat)) 0)) := by
  simp [streamRead, exec_ite, h.bound, hout, Nat.not_le.mpr h.within, h.place, h.inside, hbuf]

theorem streamRead_buffered (h : GroupAt s q off) (hout : (streamOf (me s) q).out = false) {g : Vec} {rest : List Vec}
    (hbuf : (streamOf (me s) q).buffer = g :: rest) :
    ∃ s1, streamRead q s = .ok (g, s1) ∧ me s1 = setStream (me s) q (fun x => { x with buffer := rest, position := x.position + 1 }) := by
  obtain ⟨s1, hwork, hme⟩ := streamWork_ok q (modMe s (fun t => setStream t q (fun x => { x with buffer := rest, position := x.position + 1 })))
  refine ⟨s1, ?_, hme.trans (me_modMe s _)⟩
  simp [streamRead, h.bound, hout, Nat.not_le.mpr h.within, h.place, h.inside, hbuf, exec_bind_ok hwork, -bind_pure_comp]

theorem streamReady_full (h : GroupAt s q off) (hout : (streamOf (me s) q).out = true) (hfull : 4 ≤ (streamOf (me s) q).buffer.length) :
    streamReady q s = .error (.wait s) := by
  simp [streamReady, h.bound, hout, Nat.not_le.mpr h.within, h.place, h.inside, hfull]

theorem streamReady_room (h : GroupAt s q off) (hout : (streamOf (me s) q).out = true) (hroom : (streamOf (me s) q).buffer.length < 4) :
    streamReady q s = .ok ((), s) := by
  simp [streamReady, h.bound, hout, Nat.not_le.mpr h.within, h.place, h.inside, Nat.not_le.mpr hroom]

theorem streamWrite_ok (s : State) (q : Nat) (v : Vec) : ∃ s1, streamWrite q v s = .ok ((), s1) ∧
    me s1 = setStream (me s) q (fun x => { x with buffer := x.buffer ++ [v], position := x.position + 1 }) := by
  obtain ⟨s1, hwork, hme⟩ := streamWork_ok q
    (modMe s (fun t => setStream t q (fun x => { x with buffer := x.buffer ++ [v], position := x.position + 1 })))
  exact ⟨s1, hwork, hme.trans (me_modMe s _)⟩

end

/-! ## Operands -/

section
variable (r : BitVec 5) (f : Vec → Vec) (s : State)

theorem vsource_marked : vsource true r s = streamRead (r.toNat % 8) s := rfl

theorem vdest_marked : vdest true r f s = (streamReady (r.toNat % 8) >>= fun _ => streamWrite (r.toNat % 8) (f 0)) s := rfl

end

/-- Settles O16: an operand that is not marked is its register by definition; a marked one does what `streamRead` and `streamReady` with
`streamWrite` do in each state of its stream (the fault of a group with an uncorrectable error is assumption log 59). -/
theorem vectorOperandsReadAndLand : Obligations.VectorOperandsReadAndLand := by
  unfold Obligations.VectorOperandsReadAndLand
  intro s r f off st
  have hq : r.toNat % 8 < 8 := Nat.mod_lt _ (by decide)
  refine ⟨rfl, rfl, fun hover => ⟨streamRead_over hover, ?_⟩, fun hbound hwithin hplace hinside => ?_⟩
  · rw [vdest_marked]
    exact exec_bind_error (streamReady_over hover)
  · have hgroup : GroupAt s (r.toNat % 8) off := ⟨hbound, hwithin, hplace, hinside⟩
    refine ⟨streamRead_empty hgroup, fun hout g rest hbuf => ?_, fun hout hfull => ?_, fun hout hroom => ?_⟩
    · obtain ⟨s1, hread, hme⟩ := streamRead_buffered hgroup hout hbuf
      refine ⟨s1, hread, ?_⟩
      rw [hme, streamOf_setStream_same _ hq]
      exact ⟨rfl, rfl, rfl⟩
    · rw [vdest_marked]
      exact exec_bind_error (streamReady_full hgroup hout hfull)
    · obtain ⟨s1, hwrite, hme⟩ := streamWrite_ok s (r.toNat % 8) (f 0)
      refine ⟨s1, ?_, ?_⟩
      · rw [vdest_marked, exec_bind_ok (streamReady_room hgroup hout hroom)]
        exact hwrite
      · rw [hme, streamOf_setStream_same _ hq]
        exact ⟨rfl, rfl, rfl⟩

end Sys2Proof.Machine
end

section
/-!
PROOFS. The words that fill the latches and the hints (11 R275 to R278).
-/
namespace Sys2Proof.Machine

section
variable {s : State} {form : Strand → Form}

theorem issueState_before {body : Exec State} {f : FaultInfo} (h : before form s = some f) :
    issueState form body s = .next (takeFault s f) := by
  unfold issueState
  rw [h]

/-- The checks before an instruction's own work see its form of the issuing agent alone. -/
theorem before_congr {form' : Strand → Form} (h : form (me s) = form' (me s)) : before form s = before form' s := by
  simp only [before, h]

/-! ## Light words -/

/-- A light word that passes its checks changes of its agent what its body does, and pc and budget. -/
theorem lightWord_passed {body : Exec Unit} {f : Strand → Strand} (hp : Passes form s) (hb : body (started s) = .ok ((), modMe (started s) f)) :
    lightWord form body s = .next (lightly s f) :=
  issueState_next hp (exec_bind_ok hb)

/-- A light word that fails a latch check of its own raises ILLEGAL with the sub-code of that check. -/
theorem lightWord_latch {body : Exec Unit} {sub : Nat} (hd : (me s).deferred = none) (hf : form (me s) = { lightForm (me s) with latch := some sub }) :
    lightWord form body s = .next (takeFault s (faultInfo 0x01 sub 0 0 0)) := by
  refine issueState_before ?_
  simp [before, hd, hf, formFault, latchFault, lightForm]

end

/-- The latch shifted by the 24 bits of an XIMM is the latch with those bits appended, of which 48 are kept. -/
theorem xlBits_append (bits : BitVec 48) (p : BitVec 24) : BitVec.ofNat 48 (bits.toNat * 2 ^ 24 + p.toNat) = (bits ++ p).setWidth 48 := by
  apply BitVec.eq_of_toNat_eq
  rw [BitVec.toNat_ofNat, BitVec.toNat_setWidth, BitVec.toNat_append, ← Nat.shiftLeft_add_eq_or_of_lt p.isLt, Nat.shiftLeft_eq]

/-! ## The forms of the words that fill a latch -/

section
variable {t : Strand} {r : BitVec 3}

theorem ximmForm_room (h : t.xlCount < 2) : ximmForm t = lightForm t := by
  simp [ximmForm, lightForm, Nat.not_le.mpr h]

theorem ximmForm_full (h : 2 ≤ t.xlCount) : ximmForm t = { lightForm t with latch := some 3 } := by
  simp [ximmForm, h]

theorem modFrmForm_room (h : t.frm = none) (hr : r.toNat < 5) : modFrmForm r t = lightForm t := by
  simp [modFrmForm, lightForm, h, hr]

theorem modFrmForm_bad (h : t.frm ≠ none ∨ 5 ≤ r.toNat) : modFrmForm r t = { lightForm t with latch := some 4 } := by
  simp [modFrmForm, Option.isSome_iff_ne_none, h]

theorem modQselForm_room (h : t.qsel = none) : modQselForm t = lightForm t := by
  simp [modQselForm, lightForm, h]

theorem modQselForm_full (h : t.qsel ≠ none) : modQselForm t = { lightForm t with latch := some 4 } := by
  simp [modQselForm, Option.isSome_iff_ne_none, h]

end

/-- Settles O24: a hint has no work of its own; a word that fills a latch has the form of a hint while there is room, and fails its latch
check otherwise. -/
theorem lightWordsFillTheLatches : Obligations.LightWordsFillTheLatches := by
  unfold Obligations.LightWordsFillTheLatches
  intro s p tk n r q
  refine ⟨fun hp => ?_, fun hd => ?_⟩
  · have hint : lightWord lightForm (pure ()) s = .next (lightly s id) :=
      lightWord_passed hp (by rw [started_id]; exact exec_pure () _)
    refine ⟨hint, hint, hint, hint, fun hcount => ?_, fun hfrm hr => ?_, fun hqsel => ?_⟩
    · rw [exec_ximm, execXimm, lightWord_passed ((before_congr (ximmForm_room hcount)).trans hp) (exec_setSelf _ _)]
      simp only [xlBits_append]
    · exact lightWord_passed ((before_congr (modFrmForm_room hfrm hr)).trans hp) (exec_setSelf _ _)
    · exact lightWord_passed ((before_congr (modQselForm_room hqsel)).trans hp) (exec_setSelf _ _)
  · rw [exec_ximm, execXimm, exec_modFrm, execModFrm, exec_modQsel, execModQsel]
    exact ⟨fun hcount => lightWord_latch hd (ximmForm_full hcount), fun hbad => lightWord_latch hd (modFrmForm_bad hbad),
      fun hqsel => lightWord_latch hd (modQselForm_full hqsel)⟩

end Sys2Proof.Machine
end

section
/-!
PROOFS. The control registers of a strand (11 R267, R268; 16 R385, R386).
-/
namespace Sys2Proof.Machine

/-! ## Values -/

section
variable {s : State} (h : isCourier s.cur = false)
include h

theorem csrValue_pshape {n : Nat} (hn : n < 16) : csrValue s s.cur (0x100 + n) = some ((me s).pshape.toList.getD n 0).toNat := by
  have hrange : 0x100 ≤ 0x100 + n ∧ 0x100 + n < 0x110 := by omega
  simp (disch := omega) only [csrValue, h, Bool.false_and, Bool.false_eq_true, if_false, if_neg, if_pos hrange, Nat.add_sub_cancel_left, me]

theorem csrValue_run {n : Nat} (hn : 0x200 ≤ n ∧ n < 0x300) : csrValue s s.cur n = runCsr s s.cur n := by
  simp (disch := omega) only [csrValue, h, Bool.false_and, Bool.false_eq_true, if_false, if_neg, if_pos hn]

theorem csrValue_pbLo : csrValue s s.cur 0x300 = some (getTile s (agentTile s.cur)).pbLo := by
  simp [csrValue, h]

end

/-! ## Stores -/

theorem csrStore_fcsr (v : Nat) (s : State) : csrStore 0x001 v s =
    if 5 ≤ bits v 7 5 then .error (.fault (faultInfo 0x01 0x05 0 0 0)) else .ok ((), modMe s (fun t => { t with fcsr := BitVec.ofNat 9 v })) := by
  simp [csrStore, exec_ite]

section
variable {s : State} (h : isCourier s.cur = false)
include h

theorem csrStore_pshape {n : Nat} (v : Nat) (hn : n < 16) : csrStore (0x100 + n) v s =
    .ok ((), modMe s (fun t => { t with pshape := t.pshape.mapIdx (fun i x => if i = n then shapeStored v else x) })) := by
  have hrange : 0x100 ≤ 0x100 + n ∧ 0x100 + n < 0x110 := by omega
  simp (disch := omega) only [csrStore, exec_theAgent_bind, exec_theState_bind, h, Bool.false_and, Bool.false_eq_true, if_false, if_neg,
    if_pos hrange, exec_setSelf, Nat.add_sub_cancel_left]

theorem csrStore_pbLo (v : Nat) : csrStore 0x300 v s = .ok ((), modTile s (agentTile s.cur) (fun t => { t with pbLo := v % 2 ^ 16 })) := by
  simp [csrStore, h]

end

/-- A PSHAPE write changes its register and no other. -/
theorem getD_pshape_set (p : Vector Word 16) (w : Word) (n k : Nat) (hn : n < 16) :
    (p.mapIdx (fun i x => if i = n then w else x)).toList.getD k 0 = if k = n then w else p.toList.getD k 0 := by
  by_cases hk : k < 16
  · simp [List.getD, hk]
  · have hne : k ≠ n := by omega
    simp [List.getD, hk, hne]

/-! ## Writes of the privileged CSRs -/

theorem getTile_completed_pbLo (s : State) (k : Nat) : (getTile (completed s) k).pbLo = (getTile s k).pbLo := by
  rw [(movesBesideAgents_completed s).tile k]

/-- With nothing in the latches and no fault that waits, only its privilege can stop a strand's CSR word. -/
theorem before_csrAccess {s : State} {n : BitVec 12} {xs : List (BitVec 5)} {write : Bool} (h : isCourier s.cur = false) (hd : (me s).deferred = none)
    (hr : (me s).replyFault = none) (hx : (me s).xlCount = 0) (hf : (me s).frm = none) (hq : (me s).qsel = none) :
    before (csrAccess n xs write) s = if csrPriv false write n.toNat && !ostlerMode s s.cur then some (faultInfo 0x02 0 0 0 0) else none := by
  cases hp : csrPriv false write n.toNat && !ostlerMode s s.cur <;>
    simp [before, hd, hr, formFault, latchFault, csrAccess, hx, hf, hq, h, hp]

/-- A CSR write that passes its checks, but that of XL: the store is made, X[d] receives the old value, and the word completes. -/
theorem exec_csrw_stored {s s1 : State} {d a : BitVec 5} {n : BitVec 12} {old : Nat} (hn : n ≠ 2#12) (hp : Passes (csrAccess n [d, a] true) s)
    (hv : csrValue (started s) s.cur n.toNat = some old) (hst : csrStore n.toNat (readX (me s) a).toNat (started s) = .ok ((), s1)) :
    exec (.csrw d a n) s = .next (done (modMe s1 (fun t => writeX t d (BitVec.ofNat 64 old)))) := by
  rw [← Nat.mod_eq_of_lt (readX (me s) a).isLt] at hst
  rw [exec_csrw, execCsrw, csrForm]
  refine issueState_next hp (s2 := completed (modMe s1 (fun t => writeX t d (BitVec.ofNat 64 old))))
    (s1 := modMe s1 (fun t => writeX t d (BitVec.ofNat 64 old))) ?_
  simp [hv, hn, exec_bind_ok hst, -bind_pure_comp, -BitVec.toNat_mod_cancel, -Nat.reducePow]

/-- Settles O28: `csrValue` and `csrStore` register by register; in block mode the one check that fails is that of the privilege, in ostler
mode none does and the store reaches the tile, with the 16 bits of assumption log 36 (`exec_csrw_stored`). -/
theorem csrsHoldTheirRegisters : Obligations.CsrsHoldTheirRegisters := by
  unfold Obligations.CsrsHoldTheirRegisters
  refine ⟨fun s n v h => ?_, fun s d a n h hd hr hx hf hq => ⟨fun hmode hn => ?_, ?_⟩⟩
  · refine ⟨by simp [csrValue, h, me], by simp [csrValue, h], by simp [csrValue, h, me], csrValue_pshape h,
      csrValue_run h (by omega), csrValue_run h (by omega), csrValue_run h (by omega), csrValue_pbLo h, by simp [csrValue, h], by simp [csrValue, h],
      csrStore_fcsr v s, fun hn => ⟨_, csrStore_pshape h v hn, ?_, fun k hk => ?_⟩⟩
    · rw [me_modMe, getD_pshape_set _ _ _ _ hn, if_pos rfl]
    · rw [me_modMe, getD_pshape_set _ _ _ _ hn, if_neg hk]
  · have hpriv : csrPriv false true n.toNat = true := by
      rcases hn with rfl | rfl | rfl | rfl | rfl <;> rfl
    refine issueState_before ?_
    rw [before_csrAccess h hd hr hx hf hq, hpriv, hmode]
    rfl
  · rintro hmode rfl
    have hpass : Passes (csrAccess 0x300 [d, a] true) s := by
      rw [Passes, before_csrAccess h hd hr hx hf hq, hmode, Bool.not_true, Bool.and_false]
      rfl
    have hstarted : isCourier (started s).cur = false := by rw [started_cur, h]
    refine ⟨_, exec_csrw_stored (by decide) hpass (started_cur s ▸ csrValue_pbLo hstarted) (csrStore_pbLo hstarted _), ?_⟩
    rw [done_eq_tick, getTile_tick_other, getTile_completed_pbLo, getTile_modMe_other, started_cur, getTile_modTile]

end Sys2Proof.Machine
end

section
/-!
PROOFS. What a step runs: a pending step of the device, or the word at the issuing agent's pc (11 R274 step 1, R271; 05 R142; assumption
log 1).
-/
namespace Sys2Proof.Machine

section
variable {s : State}

/-! ## Between steps -/

theorem recordsOut_of_no_fresh (h : s.mgmt.fresh = []) : recordsOut s = s := by
  rw [recordsOut, h, List.filter_nil, List.filter_nil, List.foldl_nil, ← h]

theorem regionsFlush_of_none_parked (h : ∀ r ∈ s.runs, r.2.parked = []) : regionsFlush s = s := by
  have hnone : s.runs.filter (fun e => !e.2.parked.isEmpty) = [] := List.filter_eq_nil_iff.mpr fun r hr => by simp [h r hr]
  rw [regionsFlush, hnone, List.foldl_nil]

theorem regionsOut_of_idle (h : ∀ r ∈ s.runs, r.2.parked = [] ∧ r.2.arming = none ∧ r.2.finishing = none) : regionsOut s = s := by
  have hnone : s.runs.filter (fun e => e.2.arming.isSome || e.2.finishing.isSome) = [] :=
    List.filter_eq_nil_iff.mpr fun r hr => by
      obtain ⟨-, harming, hfinishing⟩ := h r hr
      simp [harming, hfinishing]
  rw [regionsOut, regionsFlush_of_none_parked fun r hr => (h r hr).1]
  rw [hnone, List.foldl_nil]

theorem betweenSteps_of_idle (hfresh : s.mgmt.fresh = []) (hruns : ∀ r ∈ s.runs, r.2.parked = [] ∧ r.2.arming = none ∧ r.2.finishing = none) :
    betweenSteps s = s := by
  rw [betweenSteps, recordsOut_of_no_fresh hfresh, regionsOut_of_idle hruns]

/-! ## The turn -/

section
variable {i : Instr} {rest : List Instr}

/-- A pending entry that is a step of the device and names units that exist is executed. -/
theorem eventStep_of_event (hi : encode i = none) (hw : wellFormed i = true) (u : State) : eventStep i u = exec i u := by
  simp [eventStep, hi, hw]

theorem turn_nothing_pending (hu : s.urgent = []) (ha : s.agenda = []) : turn s = agentStep s := by
  simp only [turn, hu, ha]

theorem turn_urgent (hu : s.urgent = i :: rest) : turn s = eventStep i { s with urgent := rest } := by
  simp only [turn, hu]

theorem turn_agenda (hu : s.urgent = []) (ha : s.agenda = i :: rest) :
    turn s = if Config.freeTurn s.free then eventStep i { s with free := s.free + 1, agenda := rest } else agentStep { s with free := s.free + 1 } := by
  simp only [turn, hu, ha]

end

/-! ## The agent's word -/

section
variable {w : Word32} {u : State}

/-- An agent that can issue, with nothing to finish and no fault to take, fetches. -/
theorem nextWord_fetches (hrun : runnable s s.cur = true) (hpost : (me s).status ≠ .posting)
    (hwords : isCourier s.cur = true → (me s).pc.toNat / 4 < (me s).words.length) (hd : (me s).deferred = none) (hr : (me s).replyFault = none) :
    nextWord s = fetch s := by
  have hend : (isCourier s.cur && decide ((me s).words.length ≤ (me s).pc.toNat / 4)) = false := by
    cases hc : isCourier s.cur with
    | false => rfl
    | true => simpa using hwords hc
  simp [nextWord, hrun, hpost, hend, hd, hr]

theorem fetch_courier (h : isCourier s.cur = true) : fetch s = .word ((me s).words.getD ((me s).pc.toNat / 4) 0) s := by
  simp [fetch, h]

theorem fetch_strand (h : isCourier s.cur = false) {bs : List Byte} (hb : fetchBody (me s).pc s = .ok (bs, u)) :
    fetch s = .word (BitVec.ofNat 32 (ofBytes bs)) u := by
  simp [fetch, h, hb]

theorem agentStep_of_word (h : nextWord s = .word w u) : agentStep s = wordStep w u := by
  simp only [agentStep, h]

theorem wordStep_of_ok {i : Instr} (h : decodeWord w = .ok i) : wordStep w u = exec i u := by
  simp only [wordStep, h]

theorem wordStep_of_error {e : Reject} (h : decodeWord w = .error e) : wordStep w u = .next (takeFault u (undecodable u w)) := by
  simp only [wordStep, h]

/-- The word that an agent fetches is executed where it decodes, and raises ILLEGAL where it does not. -/
theorem agentStep_runs {i : Instr} (h : nextWord s = .word w u) :
    (decodeWord w = .ok i → agentStep s = exec i u) ∧ (∀ e, decodeWord w = .error e → agentStep s = .next (takeFault u (undecodable u w))) := by
  rw [agentStep_of_word h]
  exact ⟨wordStep_of_ok, fun _ => wordStep_of_error⟩

end

end

/-- Settles O54: `turn` case by case, and `nextWord` of an agent that fetches. -/
theorem aStepRunsTheNextWord : Obligations.AStepRunsTheNextWord := by
  unfold Obligations.AStepRunsTheNextWord
  intro s s1 i bs rest t b runs
  refine ⟨betweenSteps_of_idle, turn_nothing_pending, fun hi hw => ⟨fun hu => ?_, fun hu ha => ?_⟩,
    fun hrun hpost hd hr => ⟨fun hc hpc => ?_, fun hc hb => ?_⟩⟩
  · exact (turn_urgent hu).trans (eventStep_of_event hi hw _)
  · refine (turn_agenda hu ha).trans ?_
    rw [eventStep_of_event hi hw]
  · exact agentStep_runs ((nextWord_fetches hrun hpost (fun _ => hpc) hd hr).trans (fetch_courier hc))
  · exact agentStep_runs ((nextWord_fetches hrun hpost (fun h => by simp [h] at hc) hd hr).trans (fetch_strand hc hb))

end Sys2Proof.Machine
end

section
/-!
PROOFS. The scalar and lane operations of the model compute those of chapters 12 and 13 on words of any width (12 R292, R293; 09 R227, R228).
-/
namespace Sys2Proof.Machine

/-! ## Words as integers -/

theorem sext_toNat {n : Nat} (x : BitVec n) : sext x.toNat n = x.toInt := by
  rw [sext, Nat.mod_eq_of_lt x.isLt, BitVec.toInt_eq_toNat_cond]
  cases n with
  | zero => simp [BitVec.of_length_zero]
  | succ k =>
    have hpow : 2 ^ (k + 1) = 2 * 2 ^ k := by rw [Nat.pow_succ, Nat.mul_comm]
    rw [Nat.add_sub_cancel]
    by_cases hlow : x.toNat < 2 ^ k
    · rw [if_pos hlow, if_pos (by omega)]
    · rw [if_neg hlow, if_neg (by omega)]
      push_cast
      rfl

theorem sext_mod {m : Nat} (v n : Nat) (h : n ≤ m) : sext (v % 2 ^ m) n = sext v n := by
  rw [sext, sext, Nat.mod_mod_of_dvd _ (Nat.pow_dvd_pow 2 h)]

theorem sext_eq_toInt (v n : Nat) : sext v n = (BitVec.ofNat n v).toInt := by
  rw [← sext_toNat, BitVec.toNat_ofNat, sext_mod v n (Nat.le_refl n)]

theorem wrap_eq_toNat (n : Nat) (v : Int) : wrap n v = (BitVec.ofInt n v).toNat := by
  rw [wrap, BitVec.toNat_ofInt]
  norm_cast

/-- An operation on the unsigned and signed readings of two words computes, modulo 2^n, an operation on words. -/
def Computes (f : Nat → Nat → Nat → Int → Int → Int) (g : WordOp) : Prop :=
  ∀ n, 0 < n → ∀ x y : BitVec n, BitVec.ofInt n (f n x.toNat y.toNat x.toInt y.toInt) = g n x y

theorem ofInt_toNat {n : Nat} (x : BitVec n) : BitVec.ofInt n x.toNat = x := by simp

theorem computes_add : Computes (fun _ x y _ _ => x + y) (fun _ x y => x + y) := fun n _ x y => by
  simp [BitVec.ofInt_add]

theorem computes_sub : Computes (fun _ x y _ _ => x - y) (fun _ x y => x - y) := fun n _ x y => by
  simp [Int.sub_eq_add_neg, BitVec.ofInt_add, BitVec.ofInt_neg, BitVec.sub_eq_add_neg]

theorem computes_mul : Computes (fun _ x y _ _ => x * y) (fun _ x y => x * y) := fun n _ x y => by
  simp [BitVec.ofInt_mul]

/-- An operation on the unsigned readings that gives a natural number below 2^n. -/
theorem computes_of_toNat {f : Nat → Nat → Nat → Nat} {g : WordOp}
    (h : ∀ n, 0 < n → ∀ x y : BitVec n, f n x.toNat y.toNat % 2 ^ n = (g n x y).toNat) : Computes (fun n x y _ _ => (f n x y : Nat)) g := fun n hn x y => by
  apply BitVec.eq_of_toNat_eq
  rw [BitVec.ofInt_natCast, BitVec.toNat_ofNat, h n hn]

/-- An operation whose integer has the word for its residue. -/
theorem computes_of_toInt {f : Nat → Nat → Nat → Int → Int → Int} {g : WordOp}
    (h : ∀ n, 0 < n → ∀ x y : BitVec n, (f n x.toNat y.toNat x.toInt y.toInt).bmod (2 ^ n) = (g n x y).toInt) : Computes f g := fun n hn x y => by
  apply BitVec.eq_of_toInt_eq
  rw [BitVec.toInt_ofInt, h n hn]

theorem toInt_bmod {n : Nat} (x : BitVec n) : x.toInt.bmod (2 ^ n) = x.toInt := by
  conv_rhs => rw [← BitVec.ofInt_toInt (x := x), BitVec.toInt_ofInt]

theorem computes_and : Computes (fun _ x y _ _ => (x &&& y : Nat)) (fun _ x y => x &&& y) :=
  computes_of_toNat fun n _ x y => by
    rw [BitVec.toNat_and, Nat.mod_eq_of_lt (Nat.and_lt_two_pow _ y.isLt)]

theorem computes_or : Computes (fun _ x y _ _ => (x ||| y : Nat)) (fun _ x y => x ||| y) :=
  computes_of_toNat fun n _ x y => by
    rw [BitVec.toNat_or, Nat.mod_eq_of_lt (Nat.or_lt_two_pow x.isLt y.isLt)]

theorem computes_xor : Computes (fun _ x y _ _ => (x ^^^ y : Nat)) (fun _ x y => x ^^^ y) :=
  computes_of_toNat fun n _ x y => by
    rw [BitVec.toNat_xor, Nat.mod_eq_of_lt (Nat.xor_lt_two_pow x.isLt y.isLt)]

/-- The bits that two words share and those that only the first has add up to the first. -/
theorem and_not_add_and {n : Nat} (x y : BitVec n) : (x &&& ~~~y) + (x &&& y) = x := by
  rw [BitVec.add_eq_or_of_and_eq_zero]
  · ext i hi
    simp only [BitVec.getElem_or, BitVec.getElem_and, BitVec.getElem_not]
    cases x[i] <;> cases y[i] <;> rfl
  · ext i hi
    simp only [BitVec.getElem_and, BitVec.getElem_not, BitVec.getElem_zero]
    cases x[i] <;> cases y[i] <;> rfl

theorem computes_andn : Computes (fun _ x y _ _ => (x - (x &&& y) : Nat)) (fun _ x y => x &&& ~~~y) :=
  computes_of_toNat (f := fun _ x y => x - (x &&& y)) fun n _ x y => by
    have hle : x &&& y ≤ x := BitVec.le_def.mpr (by rw [BitVec.toNat_and]; exact Nat.and_le_left)
    rw [eq_sub_of_add_eq (and_not_add_and x y), BitVec.toNat_sub_of_le hle, BitVec.toNat_and,
      Nat.mod_eq_of_lt (Nat.lt_of_le_of_lt (Nat.sub_le _ _) x.isLt)]

theorem computes_shiftLeft : Computes (fun n x y _ _ => x * 2 ^ (y % n)) (fun n x y => x <<< (y.toNat % n)) := fun n _ x y => by
  have hnat : (x.toNat : Int) * 2 ^ (y.toNat % n) = ((x.toNat * 2 ^ (y.toNat % n) : Nat) : Int) := by push_cast; rfl
  apply BitVec.eq_of_toNat_eq
  beta_reduce
  rw [hnat, BitVec.ofInt_natCast, BitVec.toNat_ofNat, BitVec.toNat_shiftLeft, Nat.shiftLeft_eq]

theorem computes_shiftRight : Computes (fun n x y _ _ => (x / 2 ^ (y % n) : Nat)) (fun n x y => x >>> (y.toNat % n)) :=
  computes_of_toNat fun n _ x y => by
    rw [BitVec.toNat_ushiftRight, Nat.shiftRight_eq_div_pow, Nat.mod_eq_of_lt (Nat.lt_of_le_of_lt (Nat.div_le_self _ _) x.isLt)]

theorem computes_sshiftRight : Computes (fun n _ y sx _ => sx / 2 ^ (y % n)) (fun n x y => x.sshiftRight (y.toNat % n)) :=
  computes_of_toInt fun n _ x y => by
    have hdiv : x.toInt / 2 ^ (y.toNat % n) = (x.sshiftRight (y.toNat % n)).toInt := by
      rw [BitVec.toInt_sshiftRight, Int.shiftRight_eq_div_pow]
      norm_cast
    rw [hdiv, toInt_bmod]

theorem ofInt_truth {n : Nat} (c : Bool) : BitVec.ofInt n (flag c) = truth c := by
  cases c <;> simp [flag, truth]

/-- Not less is at least, in both orders. -/
theorem not_slt_eq_decide {n : Nat} (x y : BitVec n) : (!x.slt y) = decide (y.toInt ≤ x.toInt) := by
  rw [BitVec.slt_eq_decide, ← decide_not]
  exact decide_eq_decide.mpr Int.not_lt

theorem not_ult_eq_decide {n : Nat} (x y : BitVec n) : (!x.ult y) = decide (y.toNat ≤ x.toNat) := by
  rw [BitVec.ult_eq_decide, ← decide_not]
  exact decide_eq_decide.mpr Nat.not_lt

theorem computes_slt : Computes (fun _ _ _ sx sy => flag (decide (sx < sy))) (fun _ x y => truth (x.slt y)) := fun n _ x y => by
  simp only [ofInt_truth, BitVec.slt_eq_decide]

theorem computes_sltu : Computes (fun _ x y _ _ => flag (decide (x < y))) (fun _ x y => truth (x.ult y)) := fun n _ x y => by
  simp only [ofInt_truth, BitVec.ult_eq_decide]

theorem computes_min : Computes (fun _ _ _ sx sy => min sx sy) (fun _ x y => if x.slt y then x else y) := fun n _ x y => by
  simp only [BitVec.slt_eq_decide, decide_eq_true_eq]
  split <;> rename_i h
  · rw [min_eq_left (by omega), BitVec.ofInt_toInt]
  · rw [min_eq_right (by omega), BitVec.ofInt_toInt]

theorem computes_max : Computes (fun _ _ _ sx sy => max sx sy) (fun _ x y => if x.slt y then y else x) := fun n _ x y => by
  simp only [BitVec.slt_eq_decide, decide_eq_true_eq]
  split <;> rename_i h
  · rw [max_eq_right (by omega), BitVec.ofInt_toInt]
  · rw [max_eq_left (by omega), BitVec.ofInt_toInt]

theorem computes_minu : Computes (fun _ x y _ _ => (min x y : Nat)) (fun _ x y => if x.ult y then x else y) := fun n _ x y => by
  simp only [BitVec.ult_eq_decide, decide_eq_true_eq]
  split <;> rename_i h
  · rw [min_eq_left (by omega), ofInt_toNat]
  · rw [min_eq_right (by omega), ofInt_toNat]

theorem computes_maxu : Computes (fun _ x y _ _ => (max x y : Nat)) (fun _ x y => if x.ult y then y else x) := fun n _ x y => by
  simp only [BitVec.ult_eq_decide, decide_eq_true_eq]
  split <;> rename_i h
  · rw [max_eq_right (by omega), ofInt_toNat]
  · rw [max_eq_left (by omega), ofInt_toNat]

/-! ## Division (09 R228) -/

/-- The quotient that overflows is congruent to its dividend: twice the least word is zero modulo 2^n. -/
theorem bmod_neg_intMin {n : Nat} (hn : 0 < n) : (-(-(2 ^ (n - 1)) : Int)).bmod (2 ^ n) = (-(2 ^ (n - 1)) : Int).bmod (2 ^ n) := by
  have htwice : (-(-(2 ^ (n - 1)) : Int)) = -(2 ^ (n - 1)) + ((2 ^ n : Nat) : Int) := by
    obtain ⟨k, rfl⟩ := Nat.exists_eq_succ_of_ne_zero hn.ne'
    push_cast
    rw [Nat.succ_eq_add_one, pow_succ]
    ring
  rw [htwice, Int.add_bmod_right]

theorem toInt_ne_zero {n : Nat} {y : BitVec n} (h : y ≠ 0) : y.toInt ≠ 0 := fun e =>
  h (BitVec.eq_of_toInt_eq (e.trans BitVec.toInt_zero.symm))

theorem divS_zero (n : Nat) (a : Int) : divS n a 0 = (-1, a) := if_pos rfl

theorem divS_overflow (n : Nat) : divS n (-(2 ^ (n - 1))) (-1) = (-(2 ^ (n - 1)), 0) := by simp [divS]

theorem divS_of_ne {n : Nat} {a b : Int} (hb : b ≠ 0) (h : ¬ (a = -(2 ^ (n - 1)) ∧ b = -1)) : divS n a b = (a.tdiv b, a.tmod b) := by
  rw [divS, if_neg hb, if_neg h]

theorem computes_div : Computes (fun n _ _ sx sy => (divS n sx sy).1) (fun n x y => if y = 0 then BitVec.allOnes n else x.sdiv y) := fun n hn x y => by
  beta_reduce
  by_cases hy : y = 0
  · rw [if_pos hy, hy, BitVec.ofNat_eq_ofNat, BitVec.toInt_zero, divS_zero, BitVec.neg_one_eq_allOnes.symm, BitVec.ofInt_neg]; rfl
  · rw [if_neg hy]
    apply BitVec.eq_of_toInt_eq
    rw [BitVec.toInt_sdiv, BitVec.toInt_ofInt]
    by_cases hover : x.toInt = -(2 ^ (n - 1)) ∧ y.toInt = -1
    · obtain ⟨hx, hone⟩ := hover
      rw [hx, hone, divS_overflow, Int.tdiv_neg, Int.tdiv_one, bmod_neg_intMin hn]
    · rw [divS_of_ne (toInt_ne_zero hy) hover]

theorem computes_divu : Computes (fun n x y _ _ => ((divU n x y).1 : Nat)) (fun n x y => if y = 0 then BitVec.allOnes n else x / y) :=
  computes_of_toNat (f := fun n x y => (divU n x y).1) fun n _ x y => by
    by_cases h : y = 0
    · have hpos := Nat.two_pow_pos n
      simp [divU, h, Nat.mod_eq_of_lt (Nat.sub_lt hpos Nat.one_pos)]
    · have h' : y.toNat ≠ 0 := fun e => h (BitVec.eq_of_toNat_eq e)
      rw [divU, if_neg h', if_neg h, BitVec.toNat_udiv, Nat.mod_eq_of_lt (Nat.lt_of_le_of_lt (Nat.div_le_self _ _) x.isLt)]

theorem computes_rem : Computes (fun n _ _ sx sy => (divS n sx sy).2) (fun _ x y => if y = 0 then x else x.srem y) := fun n _ x y => by
  beta_reduce
  by_cases hy : y = 0
  · rw [if_pos hy, hy, BitVec.ofNat_eq_ofNat, BitVec.toInt_zero, divS_zero, BitVec.ofInt_toInt]
  · rw [if_neg hy]
    apply BitVec.eq_of_toInt_eq
    rw [BitVec.toInt_ofInt, ← toInt_bmod (x.srem y), BitVec.toInt_srem]
    by_cases hover : x.toInt = -(2 ^ (n - 1)) ∧ y.toInt = -1
    · obtain ⟨hx, hone⟩ := hover
      rw [hx, hone, divS_overflow, Int.tmod_neg, Int.tmod_one]
    · rw [divS_of_ne (toInt_ne_zero hy) hover]

theorem computes_remu : Computes (fun n x y _ _ => ((divU n x y).2 : Nat)) (fun _ x y => if y = 0 then x else x % y) :=
  computes_of_toNat (f := fun n x y => (divU n x y).2) fun n _ x y => by
    by_cases h : y = 0
    · simp [divU, h, Nat.mod_eq_of_lt x.isLt]
    · have h' : y.toNat ≠ 0 := fun e => h (BitVec.eq_of_toNat_eq e)
      rw [divU, if_neg h', if_neg h, BitVec.toNat_umod, Nat.mod_eq_of_lt (Nat.lt_of_le_of_lt (Nat.mod_le _ _) x.isLt)]

/-! ## High halves of products (09 R227) -/

/-- The high half of a word of 2n bits is what division of its integer by 2^n leaves modulo 2^n. -/
theorem ofInt_div_two_pow (n : Nat) (v : Int) : BitVec.ofInt n (v / 2 ^ n) = (BitVec.ofInt (2 * n) v).extractLsb' n n := by
  have hpos : (0 : Int) < 2 ^ n := by positivity
  have hsquare : (2 : Int) ^ (2 * n) = 2 ^ n * 2 ^ n := by rw [two_mul, pow_add]
  have hquot : v / 2 ^ n = v % 2 ^ (2 * n) / 2 ^ n + 2 ^ n * (v / 2 ^ (2 * n)) := by
    conv_lhs => rw [← Int.emod_add_mul_ediv v (2 ^ (2 * n)), hsquare, mul_assoc, Int.add_mul_ediv_left _ _ hpos.ne', ← hsquare]
  have hnonneg : 0 ≤ v % 2 ^ (2 * n) := Int.emod_nonneg _ (by positivity)
  apply BitVec.eq_of_toNat_eq
  rw [BitVec.extractLsb'_toNat, BitVec.toNat_ofInt, BitVec.toNat_ofInt, hquot, Nat.shiftRight_eq_div_pow]
  push_cast
  rw [Int.add_mul_emod_self_left, Int.toNat_emod (Int.ediv_nonneg hnonneg hpos.le) hpos.le]
  obtain ⟨r, hr⟩ := Int.eq_ofNat_of_zero_le hnonneg
  rw [hr]
  norm_cast

theorem computes_highHalf {p q : ∀ n : Nat, BitVec n → BitVec (2 * n)} {f g : ∀ n : Nat, BitVec n → Int}
    (hp : ∀ n (x : BitVec n), p n x = BitVec.ofInt (2 * n) (f n x)) (hq : ∀ n (x : BitVec n), q n x = BitVec.ofInt (2 * n) (g n x)) (n : Nat) (x y : BitVec n) :
    BitVec.ofInt n (f n x * g n y / 2 ^ n) = (p n x * q n y).extractLsb' n n := by
  rw [ofInt_div_two_pow, BitVec.ofInt_mul, hp, hq]

theorem setWidth_eq_ofInt (m : Nat) {n : Nat} (x : BitVec n) : x.setWidth m = BitVec.ofInt m x.toNat := by
  rw [BitVec.ofInt_natCast, BitVec.ofNat_toNat]

theorem computes_mulh : Computes (fun n _ _ sx sy => sx * sy / 2 ^ n)
    (fun n x y => (x.signExtend (2 * n) * y.signExtend (2 * n)).extractLsb' n n) := fun n _ x y =>
  computes_highHalf (fun _ _ => rfl) (fun _ _ => rfl) n x y

theorem computes_mulhu : Computes (fun n x y _ _ => (x * y / 2 ^ n : Nat))
    (fun n x y => (x.setWidth (2 * n) * y.setWidth (2 * n)).extractLsb' n n) := fun n _ x y => by
  have h := computes_highHalf (fun n x => setWidth_eq_ofInt (2 * n) x) (fun n x => setWidth_eq_ofInt (2 * n) x) n x y
  beta_reduce
  rw [← h]
  push_cast
  rfl

theorem computes_mulhsu : Computes (fun n _ y sx _ => sx * y / 2 ^ n)
    (fun n x y => (x.signExtend (2 * n) * y.setWidth (2 * n)).extractLsb' n n) := fun n _ x y =>
  computes_highHalf (fun _ _ => rfl) (fun n x => setWidth_eq_ofInt (2 * n) x) n x y

end Sys2Proof.Machine
end

section
/-!
PROOFS. Scalar integer instructions, branches and jumps (12 R292 to R296, R303 to R306).
-/
namespace Sys2Proof.Machine

/-! ## The two widths of a scalar operation (12 R292) -/

theorem setWidth_toNat_mod (x : Word) (n : Nat) : x.toNat % 2 ^ n = (x.setWidth n).toNat := (BitVec.toNat_setWidth ..).symm

theorem word_sext_wrap (v : Int) : word (sext (wrap 32 v) 32) = (BitVec.ofInt 32 v).signExtend 64 := by
  rw [wrap_eq_toNat, sext_toNat, word, BitVec.signExtend]

/-- A scalar operation that computes a word operation in each width is that operation in its form. -/
theorem scalarOp_of_computes {f : Nat → Nat → Nat → Int → Int → Int} {g : WordOp} (h : Computes f g) (w : BitVec 1) (a b : Word) :
    scalarOp w (f (formWidth w)) a b = inForm w g a b := by
  unfold scalarOp
  dsimp only
  rw [setWidth_toNat_mod, setWidth_toNat_mod, sext_toNat, sext_toNat]
  by_cases hw : w = 1
  · subst hw
    exact (word_sext_wrap _).trans (congrArg _ (h 32 (by decide) _ _))
  · have hwidth : formWidth w = 64 := if_neg hw
    rw [hwidth, formResult, inForm, if_neg hw, if_neg hw]
    exact h 64 (by decide) _ _

theorem formResult_natCast (w : BitVec 1) (v : Nat) : formResult w v = if w = 1 then (BitVec.ofNat 32 v).signExtend 64 else BitVec.ofNat 64 v := by
  unfold formResult
  split
  · rw [word_sext_wrap, BitVec.ofInt_natCast]
  · exact BitVec.ofInt_natCast ..

/-- A count of the bits of an operand is the word's own count in each width. -/
theorem formResult_of_count {c : Nat → Nat → Nat} {g : WordOp} (h : ∀ n, 0 < n → ∀ x : BitVec n, BitVec.ofNat n (c n x.toNat) = g n x 0)
    (hmod : ∀ n v, c n (v % 2 ^ n) = c n v) (w : BitVec 1) (a : Word) : formResult w (c (formWidth w) a.toNat : Nat) = inForm w g a 0 := by
  rw [formResult_natCast]
  by_cases hw : w = 1
  · subst hw
    rw [if_pos rfl, inForm, if_pos rfl, ← hmod, setWidth_toNat_mod]
    exact congrArg _ (h 32 (by decide) _)
  · have hwidth : formWidth w = 64 := if_neg hw
    rw [if_neg hw, inForm, if_neg hw, hwidth]
    exact h 64 (by decide) a

/-! ## Counts of bits -/

theorem ofNat_clzN {n : Nat} (x : BitVec n) : BitVec.ofNat n (clzN n x.toNat) = x.clz := by
  by_cases hx : x = 0#n
  · rw [BitVec.clz_eq_iff_eq_zero.mpr hx, hx]
    simp [clzN, bitLen]
  · have hn : 0 < n := Nat.pos_of_ne_zero fun h => hx (by subst h; exact BitVec.of_length_zero)
    have hlt : x.clz.toNat < n := by simpa [BitVec.lt_def] using BitVec.clz_lt_iff_ne_zero.mpr hx
    have hne : x.toNat ≠ 0 := fun h => hx (BitVec.eq_of_toNat_eq h)
    have hlog : x.toNat.log2 = n - 1 - x.clz.toNat := (Nat.log2_eq_iff hne).mpr
      ⟨BitVec.two_pow_sub_clz_le_toNat_of_ne_zero hn hx, by
        rw [show n - 1 - x.clz.toNat + 1 = n - x.clz.toNat by omega]
        exact BitVec.toNat_lt_two_pow_sub_clz⟩
    have hcount : clzN n x.toNat = x.clz.toNat := by
      rw [clzN, Nat.mod_eq_of_lt x.isLt, bitLen, if_neg hne, hlog]
      omega
    rw [hcount, BitVec.ofNat_toNat, BitVec.setWidth_eq]

theorem ofNat_ctzN {n : Nat} (x : BitVec n) : BitVec.ofNat n (ctzN n x.toNat) = x.ctz := by
  by_cases hx : x = 0#n
  · have hnone : (List.range n).find? (fun i => x.toNat.testBit i) = none := by simp [hx]
    have hctz : x.ctz = BitVec.ofNat n n := by
      rw [BitVec.ctz_eq_reverse_clz]
      exact BitVec.clz_eq_iff_eq_zero.mpr (BitVec.reverse_eq_zero_iff.mpr hx)
    rw [ctzN, hnone, Option.getD_none, hctz]
  · have hlt : x.ctz.toNat < n := by simpa [BitVec.lt_def] using BitVec.ctz_lt_iff_ne_zero.mpr hx
    have hfirst : (List.range n).find? (fun i => x.toNat.testBit i) = some x.ctz.toNat :=
      List.find?_range_eq_some.mpr ⟨BitVec.getLsbD_true_ctz_of_ne_zero hx, List.mem_range.mpr hlt, fun j hj => by
        rw [BitVec.testBit_toNat, BitVec.getLsbD_false_of_lt_ctz hj]
        rfl⟩
    rw [ctzN, hfirst, Option.getD_some, BitVec.ofNat_toNat, BitVec.setWidth_eq]

theorem length_filter_testBit {n : Nat} (x : BitVec n) (k : Nat) :
    ((List.range k).filter (fun i => x.toNat.testBit i)).length = x.cpopNatRec k 0 := by
  induction k with
  | zero => rfl
  | succ k ih =>
    rw [List.range_succ, List.filter_append, List.length_append, ih, BitVec.cpopNatRec_succ, BitVec.cpopNatRec_eq (0 + _), Nat.zero_add,
      ← BitVec.testBit_toNat]
    cases h : x.toNat.testBit k <;> simp [h]

theorem ofNat_popN {n : Nat} (x : BitVec n) : BitVec.ofNat n (popN n x.toNat) = x.cpop := by
  rw [popN, length_filter_testBit, BitVec.cpop]

theorem clzN_mod (n v : Nat) : clzN n (v % 2 ^ n) = clzN n v := by rw [clzN, clzN, Nat.mod_mod]

theorem testBit_mod_of_lt {n i : Nat} (v : Nat) (h : i < n) : (v % 2 ^ n).testBit i = v.testBit i := by
  rw [Nat.testBit_mod_two_pow, decide_eq_true h, Bool.true_and]

theorem ctzN_mod (n v : Nat) : ctzN n (v % 2 ^ n) = ctzN n v := by
  rw [ctzN, ctzN, List.find?_congr fun i hi => testBit_mod_of_lt v (List.mem_range.mp hi)]

theorem popN_mod (n v : Nat) : popN n (v % 2 ^ n) = popN n v := by
  rw [popN, popN, List.filter_congr fun i hi => testBit_mod_of_lt v (List.mem_range.mp hi)]

/-! ## Completing a scalar instruction -/

section
variable {s : State} {d a b : BitVec 5}

/-- An instruction whose own work is an update of its agent alone. -/
theorem issue_wrote {form : Strand → Form} {body : Exec Unit} {f : Strand → Strand} (hp : Passes form s)
    (hb : body (started s) = .ok ((), modMe (started s) f)) : issue form body s = .next (wrote s f) :=
  issue_next hp hb

theorem binary_wrote (hp : Passes (xForm [d, a, b]) s) (f : Word → Word → Word) :
    binary d a b f s = .next (wrote s (fun t => writeX t d (f (readX (me s) a) (readX (me s) b)))) :=
  issue_wrote hp (by simp)

theorem unary_wrote (hp : Passes (xForm [d, a]) s) (f : Word → Word) :
    unary d a f s = .next (wrote s (fun t => writeX t d (f (readX (me s) a)))) :=
  issue_wrote hp (by simp)

theorem immediate_wrote (hp : Passes (immForm [d, a]) s) (i : BitVec 16) (f : Word → Word → Word) :
    immediate d a i f s = .next (wrote s (fun t => writeX t d (f (readX (me s) a) (immSigned (me s) 16 i.toNat 1)))) :=
  issue_wrote hp (by simp [immSigned])

theorem shiftImm_wrote {w : BitVec 1} {k : BitVec 6} (hp : Passes (shiftForm d a w k) s) (f : Word → Word → Word) :
    shiftImm d a w k f s = .next (wrote s (fun t => writeX t d (f (readX (me s) a) (BitVec.ofNat 64 k.toNat)))) :=
  issue_wrote hp (by simp)

/-- A two-source row whose operation computes a word operation in each width. -/
theorem binary_of_computes (hp : Passes (xForm [d, a, b]) s) {f : Nat → Nat → Nat → Int → Int → Int} {g : WordOp} (h : Computes f g) (w : BitVec 1) :
    binary d a b (scalarOp w (f (formWidth w))) s = .next (wrote s (fun t => writeX t d (inForm w g (readX (me s) a) (readX (me s) b)))) := by
  rw [binary_wrote hp, scalarOp_of_computes h]

/-- A one-source row that counts bits. -/
theorem unary_of_count (hp : Passes (xForm [d, a]) s) {c : Nat → Nat → Nat} {g : WordOp} (h : ∀ n, 0 < n → ∀ x : BitVec n, BitVec.ofNat n (c n x.toNat) = g n x 0)
    (hmod : ∀ n v, c n (v % 2 ^ n) = c n v) (w : BitVec 1) :
    unary d a (fun x => formResult w (c (formWidth w) x.toNat : Nat)) s = .next (wrote s (fun t => writeX t d (inForm w g (readX (me s) a) 0))) := by
  rw [unary_wrote hp, formResult_of_count h hmod]

end

theorem shiftAmount_eq_mod (w : BitVec 1) (b : Nat) : shiftAmount w b = b % formWidth w := by
  unfold shiftAmount formWidth
  split <;> rfl

theorem opSll_eq (w : BitVec 1) : opSll w = scalarOp w (fun x y _ _ => x * 2 ^ (y % formWidth w)) := by
  unfold opSll
  simp only [shiftAmount_eq_mod]

theorem opSrl_eq (w : BitVec 1) : opSrl w = scalarOp w (fun x y _ _ => (x / 2 ^ (y % formWidth w) : Nat)) := by
  unfold opSrl
  simp only [shiftAmount_eq_mod]

theorem opSra_eq (w : BitVec 1) : opSra w = scalarOp w (fun _ y sx _ => sx / 2 ^ (y % formWidth w)) := by
  unfold opSra
  simp only [shiftAmount_eq_mod]

/-- Settles O1: each row's operation computes the word operation of its row (`Computes`), in the width of its form. -/
theorem opiWritesItsResult : Obligations.OpiWritesItsResult := by
  unfold Obligations.OpiWritesItsResult
  intro s d a b w
  refine ⟨fun hp => ?_, fun hp => ?_⟩
  · simp only [opiRows, List.forall_mem_cons, List.not_mem_nil, false_implies, implies_true, and_true]
    rw [exec_sll, execSll, opSll_eq, exec_srl, execSrl, opSrl_eq, exec_sra, execSra, opSra_eq]
    exact ⟨binary_of_computes hp computes_add w, binary_of_computes hp computes_sub w, binary_of_computes hp computes_and w,
      binary_of_computes hp computes_or w, binary_of_computes hp computes_xor w, binary_of_computes hp computes_andn w,
      binary_of_computes hp computes_shiftLeft w, binary_of_computes hp computes_shiftRight w, binary_of_computes hp computes_sshiftRight w,
      binary_of_computes hp computes_slt w, binary_of_computes hp computes_sltu w, binary_of_computes hp computes_min w,
      binary_of_computes hp computes_max w, binary_of_computes hp computes_minu w, binary_of_computes hp computes_maxu w⟩
  · simp only [unaryRows, List.forall_mem_cons, List.not_mem_nil, false_implies, implies_true, and_true]
    exact ⟨unary_of_count hp (fun _ _ => ofNat_clzN) clzN_mod w, unary_of_count hp (fun _ _ => ofNat_ctzN) ctzN_mod w,
      unary_of_count hp (fun _ _ => ofNat_popN) popN_mod w⟩

/-! ## High halves of products (12 R293) -/

theorem opMulh_eq (x y : Word) : opMulh x y = highHalf (x.signExtend 128) (y.signExtend 128) :=
  (scalarOp_of_computes computes_mulh 0 x y).trans rfl

theorem opMulhu_eq (x y : Word) : opMulhu x y = highHalf (x.setWidth 128) (y.setWidth 128) :=
  (scalarOp_of_computes computes_mulhu 0 x y).trans rfl

theorem opMulhsu_eq (x y : Word) : opMulhsu x y = highHalf (x.signExtend 128) (y.setWidth 128) :=
  (scalarOp_of_computes computes_mulhsu 0 x y).trans rfl

/-- Settles O2: the rows with a 32-bit form compute their word operation; the others take the high half of an exact product. -/
theorem muldivWritesItsResult : Obligations.MuldivWritesItsResult := by
  unfold Obligations.MuldivWritesItsResult
  intro s d a b hp
  refine ⟨fun w => ?_, ?_⟩
  · simp only [muldivRows, List.forall_mem_cons, List.not_mem_nil, false_implies, implies_true, and_true]
    exact ⟨binary_of_computes hp computes_mul w, binary_of_computes hp computes_div w, binary_of_computes hp computes_divu w,
      binary_of_computes hp computes_rem w, binary_of_computes hp computes_remu w⟩
  · simp only [highRows, List.forall_mem_cons, List.not_mem_nil, false_implies, implies_true, and_true]
    rw [exec_mulh, execMulh, binary_wrote hp, opMulh_eq, exec_mulhu, execMulhu, binary_wrote hp, opMulhu_eq, exec_mulhsu, execMulhsu, binary_wrote hp,
      opMulhsu_eq]
    exact ⟨rfl, rfl, rfl⟩

/-! ## Immediates (11 R276) -/

theorem append_toNat {m n : Nat} (x : BitVec m) (y : BitVec n) : (x ++ y).toNat = x.toNat * 2 ^ n + y.toNat := by
  rw [BitVec.toNat_append, ← Nat.shiftLeft_add_eq_or_of_lt y.isLt, Nat.shiftLeft_eq]

theorem immSigned_eq_mul (t : Strand) (n : Nat) (i : BitVec n) (scale : Nat) :
    immSigned t n i.toNat scale = extended t n i * BitVec.ofNat 64 scale := by
  have hw : min (n + 24 * t.xlCount) 64 ≤ 64 := Nat.min_le_right _ _
  unfold immSigned extended
  dsimp only
  rw [← append_toNat, sext_mod _ _ hw, sext_eq_toInt, word, BitVec.ofInt_mul, BitVec.ofInt_natCast, BitVec.signExtend,
    BitVec.ofNat_toNat]

theorem immSigned_eq (t : Strand) (n : Nat) (i : BitVec n) : immSigned t n i.toNat 1 = extended t n i := by
  rw [immSigned_eq_mul]
  exact BitVec.mul_one _

theorem mul_65536 (x : Word) : x * 0x10000 = x <<< 16 := BitVec.mul_twoPow_eq_shiftLeft x 16

theorem word_flag (c : Bool) : word (flag c) = truth c := ofInt_truth c

theorem passes_iff (form : Strand → Form) (s : State) :
    Passes form s ↔ (me s).deferred = none ∧ formFault (form (me s)) (me s) (isCourier s.cur) (ostlerMode s s.cur) = none ∧ (me s).replyFault = none := by
  rw [Passes, before]
  cases (me s).deferred with
  | some f => simp
  | none => cases formFault (form (me s)) (me s) (isCourier s.cur) (ostlerMode s s.cur) <;> simp

theorem latchFault_of_formFault {f : Form} {t : Strand} {courier ostler : Bool} (h : formFault f t courier ostler = none) : latchFault f t = none := by
  unfold formFault at h
  cases hl : latchFault f t with
  | none => rfl
  | some e => simp [hl] at h

/-- A word that passes its checks has no field that breaks R271. -/
theorem reserved_of_passes {form : Strand → Form} {s : State} (h : Passes form s) : (form (me s)).reserved = false := by
  obtain ⟨-, hform, -⟩ := (passes_iff form s).mp h
  have hlatch := latchFault_of_formFault hform
  unfold latchFault at hlatch
  split at hlatch
  · contradiction
  · split at hlatch
    · contradiction
    · split at hlatch
      · contradiction
      · simpa using hlatch

/-- A shift by a constant below the width of its form. -/
theorem inForm_shift {w : BitVec 1} {k : BitVec 6} (h : (w = 1 && k.getLsbD 5) = false) (f : ∀ n : Nat, BitVec n → Nat → BitVec n) (x : Word) :
    inForm w (fun n x y => f n x (y.toNat % n)) x (BitVec.ofNat 64 k.toNat) = shiftedBy w f x k.toNat := by
  have hk := k.isLt
  by_cases hw : w = 1
  · have hbit : k.getLsbD 5 = false := by simpa [hw] using h
    have hlow : k.toNat < 32 := by
      by_contra hge
      have hdiv : k.toNat / 2 ^ 5 = 1 := by omega
      rw [BitVec.getLsbD, Nat.testBit_eq_decide_div_mod_eq, hdiv] at hbit
      simp at hbit
    rw [inForm, shiftedBy, if_pos hw, if_pos hw]
    rw [BitVec.toNat_setWidth, BitVec.toNat_ofNat, Nat.mod_mod_of_dvd _ (by decide), Nat.mod_mod_of_dvd _ (by decide), Nat.mod_eq_of_lt hlow]
  · rw [inForm, shiftedBy, if_neg hw, if_neg hw]
    rw [BitVec.toNat_ofNat, Nat.mod_mod_of_dvd _ (by decide), Nat.mod_eq_of_lt hk]

/-- Settles O3: the immediate that a word forms is `extended`; a shift amount that passes the checks is below the width of its form. -/
theorem immediatesWriteTheirResult : Obligations.ImmediatesWriteTheirResult := by
  unfold Obligations.ImmediatesWriteTheirResult
  intro s d a
  refine ⟨fun i hp => ?_, fun w k hp => ?_, fun i hp => ⟨?_, ?_⟩⟩
  · simp only [immediateRows, List.forall_mem_cons, List.not_mem_nil, false_implies, implies_true, and_true, exec_addi, exec_andi, exec_ori, exec_xori,
      exec_slti, exec_sltiu]
    have row (f : Word → Word → Word) : immediate d a i f s = .next (wrote s (fun t => writeX t d (f (readX (me s) a) (extended (me s) 16 i)))) := by
      rw [immediate_wrote hp, immSigned_eq]
    simp only [BitVec.slt_eq_decide, BitVec.ult_eq_decide, ← word_flag]
    exact ⟨row (· + ·), row (· &&& ·), row (· ||| ·), row (· ^^^ ·), row fun x i => word (flag (decide (x.toInt < i.toInt))),
      row fun x i => word (flag (decide (x.toNat < i.toNat)))⟩
  · have hk : (w = 1 && k.getLsbD 5) = false := (Bool.or_eq_false_iff.mp (reserved_of_passes hp)).2
    have row {f : Nat → Nat → Nat → Int → Int → Int} (g : ∀ n : Nat, BitVec n → Nat → BitVec n) (h : Computes f (fun n x y => g n x (y.toNat % n))) :
        shiftImm d a w k (scalarOp w (f (formWidth w))) s = .next (wrote s (fun t => writeX t d (shiftedBy w g (readX (me s) a) k.toNat))) := by
      rw [shiftImm_wrote hp, scalarOp_of_computes h, inForm_shift hk]
    simp only [shiftRows, List.forall_mem_cons, List.not_mem_nil, false_implies, implies_true, and_true]
    rw [exec_slli, execSlli, opSll_eq, exec_srli, execSrli, opSrl_eq, exec_srai, execSrai, opSra_eq]
    exact ⟨(row (fun _ x k => x <<< k) computes_shiftLeft :), (row (fun _ x k => x >>> k) computes_shiftRight :),
      (row (fun _ x k => x.sshiftRight k) computes_sshiftRight :)⟩
  · rw [exec_lui, execLui, ← mul_65536, ← immSigned_eq]
    exact issue_wrote hp (by rw [exec_self_bind, exec_setX, me_started]; rfl)
  · rw [exec_auipc, execAuipc, ← mul_65536, ← immSigned_eq]
    exact issue_wrote hp (by rw [exec_self_bind, exec_setX, me_started]; rfl)

/-! ## Branches and jumps (12 R303 to R306) -/

theorem relTarget_eq (t : Strand) (n : Nat) (i : BitVec n) : relTarget t n i.toNat = branchTarget t n i := by
  rw [relTarget, immSigned_eq_mul]
  rfl

/-- A target whose offset counts words is aligned where the branch itself is. -/
theorem branchTarget_aligned {t : Strand} (h : t.pc.toNat % 4 = 0) (n : Nat) (i : BitVec n) : (branchTarget t n i).toNat % 4 = 0 := by
  have hfour : (4 : Word).toNat = 4 := rfl
  rw [branchTarget, BitVec.toNat_add, BitVec.toNat_mul, hfour]
  omega

theorem jumpTo_zero (s : State) : jumpTo 0 s = .error (.fault (faultInfo 0x05 0x01 3 0 0)) := rfl

theorem jumpTo_aligned {t : Word} (hne : t ≠ 0) (h : t.toNat % 4 = 0) (s : State) : jumpTo t s = .ok ((), s) := by
  simp only [jumpTo, if_neg hne, h, decide_true, Bool.not_true, Bool.false_eq_true, if_false, exec_pure]

theorem jumpTo_misaligned {t : Word} (hne : t ≠ 0) (h : t.toNat % 4 ≠ 0) (s : State) : jumpTo t s = .error (.fault (faultInfo 0x03 0 3 t 0)) := by
  simp only [jumpTo, if_neg hne, h, decide_false, Bool.not_false, if_true, exec_raise]

theorem modMe_congr {s : State} {f g : Strand → Strand} (h : f (me s) = g (me s)) : modMe s f = modMe s g :=
  congrArg (putAgent s s.cur) h

/-- An instruction that changes its agent alone and says where it goes on. -/
theorem issueTo_wentTo {form : Strand → Form} {body : Exec Word} {s : State} {f : Strand → Strand} {npc : Word} (hp : Passes form s)
    (hb : body (started s) = .ok (npc, modMe (started s) f)) : issueTo form body s = .next (wentTo s f npc) :=
  issueTo_next hp hb

theorem wentTo_next_word (s : State) : wentTo s id ((me s).pc + 4) = wrote s id := by
  rw [wentTo, wrote, done, started_id, me_started]

section
variable {s : State} {a b : BitVec 5} {o : BitVec 13}

theorem branch_untaken (hp : Passes (branchForm a b o) s) {taken : Word → Word → Bool} (h : taken (readX (me s) a) (readX (me s) b) = false) :
    branch a b o taken s = .next (wrote s id) := by
  rw [← wentTo_next_word]
  refine issueTo_wentTo hp ?_
  simp [h]

theorem branch_taken (hp : Passes (branchForm a b o) s) {taken : Word → Word → Bool} (h : taken (readX (me s) a) (readX (me s) b) = true)
    (hpc : (me s).pc.toNat % 4 = 0) :
    branch a b o taken s = .next (
      if branchTarget (me s) 13 o = 0 then takeFault s (faultInfo 0x05 0x01 3 0 0) else wentTo s id (branchTarget (me s) 13 o)) := by
  have htarget : relTarget (me (started s)) 13 o.toNat = branchTarget (me s) 13 o := by rw [me_started]; exact relTarget_eq (me s) 13 o
  split
  · rename_i hzero
    refine issueTo_fault hp ?_
    simp only [exec_self_bind, exec_getX_bind, me_started, readX_status, h, if_true]
    rw [me_started] at htarget
    exact exec_bind_error (by rw [htarget, hzero]; exact jumpTo_zero _)
  · rename_i hne
    refine issueTo_wentTo hp ?_
    simp only [exec_self_bind, exec_getX_bind, me_started, readX_status, h, if_true, started_id]
    rw [me_started] at htarget
    rw [htarget, exec_bind_ok (jumpTo_aligned hne (branchTarget_aligned hpc 13 o) _)]
    rfl

theorem branchMask_untaken (hp : Passes (branchMaskForm a o) s) {any : Bool} (h : ((readM (me s) (a.setWidth 3) == 0) != any) = false) :
    branchMask a o any s = .next (wrote s id) := by
  rw [← wentTo_next_word]
  refine issueTo_wentTo hp ?_
  simp only [exec_self_bind, exec_getM_bind, me_started, readM_status, BitVec.ofNat_toNat, h, started_id]
  rfl

theorem branchMask_taken (hp : Passes (branchMaskForm a o) s) {any : Bool} (h : ((readM (me s) (a.setWidth 3) == 0) != any) = true)
    (hpc : (me s).pc.toNat % 4 = 0) (hne : branchTarget (me s) 13 o ≠ 0) :
    branchMask a o any s = .next (wentTo s id (branchTarget (me s) 13 o)) := by
  refine issueTo_wentTo hp ?_
  have htarget : relTarget (me (started s)) 13 o.toNat = branchTarget (me s) 13 o := by rw [me_started]; exact relTarget_eq (me s) 13 o
  simp only [exec_self_bind, exec_getM_bind, me_started, readM_status, BitVec.ofNat_toNat, h, if_true, started_id]
  rw [me_started] at htarget
  rw [htarget, exec_bind_ok (jumpTo_aligned hne (branchTarget_aligned hpc 13 o) _)]
  rfl

end

/-- The register branches: `taken` is the condition of the row. -/
theorem branch_goes {s : State} {a b : BitVec 5} {o : BitVec 13} (hp : Passes (branchForm a b o) s) (taken : Word → Word → Bool) :
    (taken (readX (me s) a) (readX (me s) b) = false → branch a b o taken s = .next (wrote s id)) ∧
    (taken (readX (me s) a) (readX (me s) b) = true → (me s).pc.toNat % 4 = 0 →
      branch a b o taken s = .next (
        if branchTarget (me s) 13 o = 0 then takeFault s (faultInfo 0x05 0x01 3 0 0) else wentTo s id (branchTarget (me s) 13 o))) :=
  ⟨branch_untaken hp, branch_taken hp⟩

section
variable {s : State} {d a : BitVec 5}

theorem exec_jal_goes {i : BitVec 21} (hp : Passes (jalForm d i) s) (hpc : (me s).pc.toNat % 4 = 0) :
    exec (.jal d i) s = .next (
      if branchTarget (me s) 21 i = 0 then takeFault s (faultInfo 0x05 0x01 3 (branchTarget (me s) 21 i) 0)
      else wentTo s (fun u => writeX u d (u.pc + 4)) (branchTarget (me s) 21 i)) := by
  have htarget : relTarget (me (started s)) 21 i.toNat = branchTarget (me s) 21 i := by rw [me_started]; exact relTarget_eq (me s) 21 i
  rw [exec_jal, execJal]
  split
  · rename_i hzero
    refine issueTo_fault hp ?_
    rw [exec_self_bind, htarget, hzero]
    exact exec_bind_error (jumpTo_zero _)
  · rename_i hne
    refine issueTo_wentTo hp ?_
    rw [exec_self_bind, htarget, exec_bind_ok (jumpTo_aligned hne (branchTarget_aligned hpc 21 i) _), exec_setX_bind, me_started]
    exact congrArg (fun x => Except.ok (_, x)) (modMe_congr (by rw [me_started]))

theorem exec_jalr_goes {i : BitVec 16} (hp : Passes (jalrForm d a) s) :
    exec (.jalr d a i) s = .next (
      let t := readX (me s) a + extended (me s) 16 i
      if t = 0 then takeFault s (faultInfo 0x05 0x01 3 t 0)
      else if t.toNat % 4 = 0 then wentTo s (fun u => writeX u d (u.pc + 4)) t
      else takeFault s (faultInfo 0x03 0 3 t 0)) := by
  have himm : immSigned (me (started s)) 16 i.toNat 1 = extended (me s) 16 i := by rw [me_started]; exact immSigned_eq (me s) 16 i
  rw [exec_jalr, execJalr]
  dsimp only
  split
  · rename_i hzero
    refine issueTo_fault hp ?_
    rw [exec_self_bind, exec_getX_bind, himm, me_started, readX_status, hzero]
    exact exec_bind_error (jumpTo_zero _)
  · rename_i hne
    split
    · rename_i haligned
      refine issueTo_wentTo hp ?_
      rw [exec_self_bind, exec_getX_bind, himm]
      simp only [me_started, readX_status]
      rw [exec_bind_ok (jumpTo_aligned hne haligned _), exec_setX_bind]
      exact congrArg (fun x => Except.ok (_, x)) (modMe_congr (by rw [me_started]))
    · rename_i haligned
      refine issueTo_fault hp ?_
      rw [exec_self_bind, exec_getX_bind, himm, me_started, readX_status]
      exact exec_bind_error (jumpTo_misaligned hne haligned _)

end

/-- Settles O4: the branches by whether they are taken; JAL and JALR by whether `jumpTo` lets their target pass. -/
theorem branchesAndJumpsGo : Obligations.BranchesAndJumpsGo := by
  unfold Obligations.BranchesAndJumpsGo
  refine ⟨fun s a b o => ⟨?_, fun hp => ?_⟩, fun s d a => ⟨fun i hp hpc => exec_jal_goes hp hpc, fun i hp => exec_jalr_goes hp⟩⟩
  · simp only [branchRows, List.forall_mem_cons, List.not_mem_nil, false_implies, implies_true, and_true, exec_beq, execBeq, exec_bne, execBne, exec_blt,
      execBlt, exec_bge, execBge, exec_bltu, execBltu, exec_bgeu, execBgeu, not_slt_eq_decide, not_ult_eq_decide]
    simp only [BitVec.slt_eq_decide, BitVec.ult_eq_decide]
    exact ⟨fun hp => branch_goes hp (· == ·), fun hp => branch_goes hp (· != ·), fun hp => branch_goes hp fun x y => decide (x.toInt < y.toInt),
      fun hp => branch_goes hp fun x y => decide (y.toInt ≤ x.toInt), fun hp => branch_goes hp fun x y => decide (x.toNat < y.toNat),
      fun hp => branch_goes hp fun x y => decide (y.toNat ≤ x.toNat)⟩
  · exact ⟨fun h => branchMask_untaken hp (by rw [h]; rfl), fun h => branchMask_untaken hp (by rw [beq_false_of_ne h]; rfl),
      fun hpc hne => ⟨fun h => branchMask_taken hp (by rw [beq_false_of_ne h]; rfl) hpc hne, fun h => branchMask_taken hp (by rw [h]; rfl) hpc hne⟩⟩

end Sys2Proof.Machine
end

section
/-!
PROOFS. Scalar floating-point instructions: registers, flags and classes (12 R298, R299, R301, R302; 09 R229, R230, R234, R238).
-/
namespace Sys2Proof.Machine

theorem modeOf_status (t : Strand) (st : Status) : modeOf { t with status := st } = modeOf t := rfl

/-! ## Fields of the datum in a register (09 R229, R230) -/

/-- The topmost bit of a field below 2^n is 0 exactly below 2^(n-1). -/
theorem testBit_top {n v : Nat} (hn : 0 < n) (h : v < 2 ^ n) : v.testBit (n - 1) = !decide (v < 2 ^ (n - 1)) := by
  have hpow : 2 ^ n = 2 * 2 ^ (n - 1) := by rw [← Nat.pow_succ', Nat.succ_eq_add_one, Nat.sub_add_cancel hn]
  rw [Nat.testBit_eq_decide_div_mod_eq, ← decide_not, decide_eq_decide]
  by_cases hlow : v < 2 ^ (n - 1)
  · rw [Nat.div_eq_of_lt hlow]
    simp [hlow]
  · have hone : v / 2 ^ (n - 1) = 1 := Nat.div_eq_of_lt_le (by omega) (by omega)
    rw [hone]
    simp [hlow]

section
variable {f : Fmt} (hf : f.Proper) (x : Word)

theorem signOf_datum : signOf f (datum f x) = x.toNat.testBit (f.ebits + f.fbits) := by
  have hplace : f.width - 1 = f.ebits + f.fbits := by rw [Fmt.width]; omega
  rw [signOf, datum, hplace, testBit_mod_of_lt _ (by rw [Fmt.width]; omega)]

theorem fraction_datum : datum f x % 2 ^ f.fbits = x.toNat % 2 ^ f.fbits :=
  Nat.mod_mod_of_dvd _ (Nat.pow_dvd_pow 2 (by rw [Fmt.width]; omega))

theorem exponent_datum : datum f x / 2 ^ f.fbits % 2 ^ f.ebits = x.toNat / 2 ^ f.fbits % 2 ^ f.ebits := by
  have hwidth : 2 ^ f.width = 2 ^ f.fbits * 2 ^ (1 + f.ebits) := by rw [← Nat.pow_add, Fmt.width, Nat.add_comm]
  rw [datum, hwidth, Nat.mod_mul_right_div_self, Nat.mod_mod_of_dvd _ (Nat.pow_dvd_pow 2 (Nat.le_add_left _ _))]

include hf

theorem bits_fraction (b : Nat) : bits b (f.fbits - 1) 0 = b % 2 ^ f.fbits := by
  have hfields := hf.fbits
  rw [bits, show f.fbits - 1 + 1 - 0 = f.fbits by omega, pow_zero, Nat.div_one]

theorem bits_exponent (b : Nat) : bits b (f.fbits + f.ebits - 1) f.fbits = b / 2 ^ f.fbits % 2 ^ f.ebits := by
  have hfields := hf.ebits
  rw [bits, show f.fbits + f.ebits - 1 + 1 - f.fbits = f.ebits by omega]

/-- What FCLASS's table names is the class of the datum that the register holds. -/
theorem fclassify_datum : fclassify f (datum f x) = classBit f x := by
  have hfrac : x.toNat % 2 ^ f.fbits < 2 ^ f.fbits := Nat.mod_lt _ (Nat.two_pow_pos _)
  unfold fclassify fdecode classBit
  dsimp only
  rw [bits_fraction hf, bits_exponent hf, fraction_datum, exponent_datum, signOf_datum, testBit_top hf.fbits hfrac, Fmt.expMax]
  by_cases hmax : x.toNat / 2 ^ f.fbits % 2 ^ f.ebits = 2 ^ f.ebits - 1
  · rw [if_pos hmax, if_pos hmax]
    by_cases hzero : x.toNat % 2 ^ f.fbits = 0
    · rw [if_pos hzero, if_pos hzero]
    · rw [if_neg hzero, if_neg hzero, Bool.not_not]
      by_cases hlow : x.toNat % 2 ^ f.fbits < 2 ^ (f.fbits - 1) <;> simp [hlow]
  · rw [if_neg hmax, if_neg hmax]
    by_cases hexp : x.toNat / 2 ^ f.fbits % 2 ^ f.ebits = 0
    · rw [if_pos hexp, if_pos hexp]
      dsimp only
      rw [if_pos hfrac]
    · have hnormal : 2 ^ f.fbits + x.toNat % 2 ^ f.fbits ≠ 0 := by have := Nat.two_pow_pos f.fbits; omega
      rw [if_neg hexp, if_neg hexp]
      dsimp only
      rw [if_neg hnormal, if_neg (by omega)]

end

theorem proper_of_codeFmt {k : BitVec 4} {f : Fmt} (h : codeFmt k = some f) : f.Proper := by
  refine proper_of_mem_formats ?_
  unfold codeFmt at h
  repeat' split at h
  all_goals first | contradiction | (injection h with h; subst h; decide)

theorem ofNat_two_pow (n c : Nat) : BitVec.ofNat n (2 ^ c) = BitVec.twoPow n c := by
  apply BitVec.eq_of_toNat_eq
  rw [BitVec.toNat_ofNat, BitVec.toNat_twoPow]

/-! ## Completing a floating-point instruction -/

section
variable {s : State} {d a b c : BitVec 5}

theorem issue_wroteFlags {form : Strand → Form} {body : Exec Unit} {f : Strand → Strand} {fl : Nat} (hp : Passes form s)
    (hb : body (started s) = .ok ((), setFlags (modMe (started s) f) fl)) : issue form body s = .next (wroteFlags s f fl) :=
  issue_next hp hb

theorem putF_started (d : BitVec 5) (r : Nat × Nat) (s : State) :
    putF d r s = .ok ((), setFlags (modMe s (fun t => writeX t d (BitVec.ofNat 64 r.1))) r.2) := rfl

theorem fbinary_wrote {frm : Bool} {p : BitVec 1} (hp : Passes (fForm frm [d, a, b]) s) (f : Fmt → Nat → Nat → Nat → Nat × Nat) :
    fbinary frm d a b p f s = .next (
      let r := f (precision p) (modeOf (me s)) (datum (precision p) (readX (me s) a)) (datum (precision p) (readX (me s) b))
      wroteFlags s (fun t => writeX t d (BitVec.ofNat 64 r.1)) r.2) := by
  refine issue_wroteFlags hp ?_
  rw [exec_self_bind, exec_getX_bind, exec_getX_bind, me_started, readX_status, readX_status, modeOf_status]
  exact putF_started ..

theorem fternary_wrote {p : BitVec 1} (hp : Passes (fForm true [d, a, b, c]) s) (np nc : Bool) :
    fternary d a b c p np nc s = .next (
      let r := ffma (precision p) (modeOf (me s)) np nc (datum (precision p) (readX (me s) a)) (datum (precision p) (readX (me s) b))
        (datum (precision p) (readX (me s) c))
      wroteFlags s (fun t => writeX t d (BitVec.ofNat 64 r.1)) r.2) := by
  refine issue_wroteFlags hp ?_
  rw [exec_self_bind, exec_getX_bind, exec_getX_bind, exec_getX_bind, me_started, readX_status, readX_status, readX_status, modeOf_status]
  exact putF_started ..

end

/-- Settles O5: each row reads its operands, puts its result and raises its flags; FCLASS's bit is the class of the datum
(`fclassify_datum`). -/
theorem floatWritesResultAndFlags : Obligations.FloatWritesResultAndFlags := by
  unfold Obligations.FloatWritesResultAndFlags
  refine ⟨fun s d a b c p => ⟨?_, fun hp => ?_, ?_⟩, fun s d a t k => ⟨fun hp => ?_, fun f hf hp => ?_⟩⟩
  · simp only [fopRows, List.forall_mem_cons, List.not_mem_nil, false_implies, implies_true, and_true, exec_fadd, exec_fsub, exec_fmul, exec_fdiv, exec_fmin,
      exec_fmax, exec_fsgnj, exec_fsgnjn, exec_fsgnjx, exec_feq, exec_flt, exec_fle]
    exact ⟨fun hp => fbinary_wrote hp fadd, fun hp => fbinary_wrote hp fsub, fun hp => fbinary_wrote hp fmul, fun hp => fbinary_wrote hp fdiv,
      fun hp => fbinary_wrote hp fun k _ x y => fminmax k false x y, fun hp => fbinary_wrote hp fun k _ x y => fminmax k true x y,
      fun hp => fbinary_wrote hp fun k _ x y => (fsign k 0 x y, 0), fun hp => fbinary_wrote hp fun k _ x y => (fsign k 1 x y, 0),
      fun hp => fbinary_wrote hp fun k _ x y => (fsign k 2 x y, 0), fun hp => fbinary_wrote hp (compareAs 0),
      fun hp => fbinary_wrote hp (compareAs 1), fun hp => fbinary_wrote hp (compareAs 2)⟩
  · rw [exec_fsqrt, execFsqrt]
    refine issue_wroteFlags hp ?_
    rw [exec_self_bind, exec_getX_bind, me_started, readX_status, modeOf_status]
    exact putF_started ..
  · simp only [fmaRows, List.forall_mem_cons, List.not_mem_nil, false_implies, implies_true, and_true, exec_fmadd, exec_fmsub, exec_fnmadd, exec_fnmsub]
    exact ⟨fun hp => fternary_wrote hp false false, fun hp => fternary_wrote hp false true, fun hp => fternary_wrote hp true true,
      fun hp => fternary_wrote hp true false⟩
  · rw [exec_fcvt, execFcvt]
    refine issue_wroteFlags hp ?_
    rw [exec_self_bind, exec_getX_bind, me_started, readX_status, modeOf_status]
    rfl
  · rw [exec_fclass, execFclass]
    refine issue_wrote hp ?_
    simp only [exec_getX_bind, me_started, readX_status, hf, exec_setX, fclassify_datum (proper_of_codeFmt hf), ofNat_two_pow]

end Sys2Proof.Machine
end

section
/-!
PROOFS. Vector lanes under a mask, and vector words on lanes (13 R307 to R313).
-/
namespace Sys2Proof.Machine

/-! ## Lanes as words (13 R307) -/

theorem laneAt_toNat (w : Nat) (v : Vec) (l : Nat) : (laneAt w v l).toNat = lane v w l := by
  rw [laneAt, BitVec.extractLsb'_toNat, lane, Nat.shiftRight_eq_div_pow]

theorem lane_lt (w : Nat) (v : Vec) (l : Nat) : lane v w l < 2 ^ w := Nat.mod_lt _ (Nat.two_pow_pos _)

theorem sext_lane (w : Nat) (v : Vec) (l : Nat) : sext (lane v w l) w = (laneAt w v l).toInt := by
  rw [← laneAt_toNat, sext_toNat]

theorem active_eq_getLsbD (mask : Word) (l : Nat) : active mask l = mask.getLsbD l := BitVec.testBit_toNat ..

theorem laneWidth_pos (e : BitVec 2) : 0 < laneWidth e := Nat.mul_pos (by decide) (Nat.two_pow_pos _)

/-- The lanes of a vector divide it without rest. -/
theorem laneCount_mul_laneWidth (e : BitVec 2) : laneCount (laneWidth e) * laneWidth e = 512 := by
  have h : ∀ k < 4, laneCount (8 * 2 ^ k) * (8 * 2 ^ k) = 512 := by decide
  exact h e.toNat e.isLt

/-- The number put together from lanes is below the power of their width. -/
theorem foldr_lanes_lt (w : Nat) (ls : List Nat) : ls.foldr (fun x acc => x % 2 ^ w + 2 ^ w * acc) 0 < 2 ^ (w * ls.length) := by
  induction ls with
  | nil => simp
  | cons x xs ih =>
    have hlow : x % 2 ^ w < 2 ^ w := Nat.mod_lt _ (Nat.two_pow_pos _)
    rw [List.foldr_cons, List.length_cons, Nat.mul_succ, Nat.pow_add, Nat.mul_comm (2 ^ (w * xs.length))]
    calc x % 2 ^ w + 2 ^ w * xs.foldr (fun x acc => x % 2 ^ w + 2 ^ w * acc) 0
      _ < 2 ^ w + 2 ^ w * xs.foldr (fun x acc => x % 2 ^ w + 2 ^ w * acc) 0 := Nat.add_lt_add_right hlow _
      _ = 2 ^ w * (xs.foldr (fun x acc => x % 2 ^ w + 2 ^ w * acc) 0 + 1) := by ring
      _ ≤ 2 ^ w * 2 ^ (w * xs.length) := Nat.mul_le_mul_left _ ih

theorem foldr_lanes_div_mod (w : Nat) (ls : List Nat) (l : Nat) :
    ls.foldr (fun x acc => x % 2 ^ w + 2 ^ w * acc) 0 / 2 ^ (w * l) % 2 ^ w = ls.getD l 0 % 2 ^ w := by
  induction ls generalizing l with
  | nil => simp
  | cons x xs ih =>
    cases l with
    | zero => simp
    | succ k =>
      rw [List.foldr_cons, Nat.mul_succ, Nat.add_comm (w * k), Nat.pow_add, ← Nat.div_div_eq_div_mul, Nat.add_mul_div_left _ _ (Nat.two_pow_pos w),
        Nat.div_eq_of_lt (Nat.mod_lt _ (Nat.two_pow_pos w)), Nat.zero_add, ih, List.getD_cons_succ]

/-- A lane of a vector that is put together from whole lanes. -/
theorem lane_ofLanes {w : Nat} {ls : List Nat} (h : w * ls.length ≤ 512) (l : Nat) : lane (ofLanes w ls) w l = ls.getD l 0 % 2 ^ w := by
  rw [lane, ofLanes, BitVec.toNat_ofNat, Nat.mod_eq_of_lt (Nat.lt_of_lt_of_le (foldr_lanes_lt w ls) (Nat.pow_le_pow_right (by decide) h)),
    foldr_lanes_div_mod]

theorem lane_maskedLanes {w : Nat} (h : laneCount w * w = 512) (mask : Word) (old : Vec) (res : Nat → Nat) {l : Nat} (hl : l < laneCount w) :
    lane (maskedLanes w mask old res) w l = if active mask l then res l % 2 ^ w else lane old w l := by
  have hlen : w * ((List.range (laneCount w)).map (fun l => if active mask l then res l else lane old w l)).length ≤ 512 := by
    rw [List.length_map, List.length_range, Nat.mul_comm, h]
  have hget : ((List.range (laneCount w)).map (fun l => if active mask l then res l else lane old w l)).getD l 0 =
      if active mask l then res l else lane old w l := by
    simp [List.getD, hl]
  rw [maskedLanes, lane_ofLanes hlen, hget]
  split
  · rfl
  · exact Nat.mod_eq_of_lt (lane_lt ..)

/-- Settles O15: a lane of a masked result is the instruction's result modulo 2^w, or the old lane. -/
theorem inactiveLanesAreKept : Obligations.InactiveLanesAreKept := by
  unfold Obligations.InactiveLanesAreKept
  intro e mask old res l w hl
  apply BitVec.eq_of_toNat_eq
  rw [laneAt_toNat, lane_maskedLanes (laneCount_mul_laneWidth e) mask old res hl, active_eq_getLsbD]
  split
  · rw [BitVec.toNat_ofNat]
  · rw [laneAt_toNat]

/-! ## Masked results and flags that agree -/

/-- Only the active lanes of the results count. -/
theorem maskedLanes_congr {w : Nat} {mask : Word} {old : Vec} {r r' : Nat → Nat}
    (h : ∀ l < laneCount w, active mask l = true → r l = r' l) : maskedLanes w mask old r = maskedLanes w mask old r' := by
  refine congrArg (ofLanes w) (List.map_congr_left fun l hl => ?_)
  split
  · rename_i hactive
    exact h l (List.mem_range.mp hl) hactive
  · rfl

/-- Lanes are taken modulo 2^w when they are put together. -/
theorem ofLanes_mod (w : Nat) (ls : List Nat) : ofLanes w (ls.map (· % 2 ^ w)) = ofLanes w ls := by
  rw [ofLanes, ofLanes, List.foldr_map]
  simp only [Nat.mod_mod]

theorem activeFlags_zero (w : Nat) (mask : Word) : activeFlags w mask (fun _ => 0) = 0 := by
  unfold activeFlags
  induction List.range (laneCount w) with
  | nil => rfl
  | cons l ls ih => simp

theorem setFlags_zero (s : State) : setFlags s 0 = s := if_pos rfl

/-! ## Running a vector word -/

theorem together_ok {α : Type} {body : Exec α} {s s1 : State} {v : α} (h : body s = .ok (v, s1)) : together body s = .ok (v, s1) := by
  rw [together, h]

/-- A source read from a stream moves its stream and nothing else of the agent. -/
theorem streamRead_keeps {q : Nat} {s s1 : State} {v : Vec} (h : streamRead q s = .ok (v, s1)) : ∃ f, me s1 = setStream (me s) q f := by
  rw [streamRead, exec_self_bind, exec_ite] at h
  split at h
  · contradiction
  · rw [exec_theAgent_bind, exec_theState_bind] at h
    cases hplace : patternOffset (streamOf (me s) q).base (streamOf (me s) q).dims (streamOf (me s) q).position with
    | none =>
      simp only [hplace] at h
      contradiction
    | some off =>
      simp only [hplace, exec_ite] at h
      split at h
      · contradiction
      · cases hbuf : (streamOf (me s) q).buffer with
        | nil =>
          simp only [hbuf, exec_ite] at h
          split at h <;> contradiction
        | cons g rest =>
          obtain ⟨s2, hwork, hme⟩ := streamWork_ok q (modMe s (fun t => setStream t q (fun x => { x with buffer := rest, position := x.position + 1 })))
          simp only [hbuf, exec_setSelf_bind, exec_bind_ok hwork, exec_pure, Except.ok.injEq, Prod.mk.injEq] at h
          obtain ⟨-, rfl⟩ := h
          exact ⟨_, hme.trans (me_modMe s _)⟩

theorem vsource_keeps {marked : Bool} {r : BitVec 5} {s s1 : State} {v : Vec} (h : vsource marked r s = .ok (v, s1)) :
    (me s1).x = (me s).x ∧ (me s1).m = (me s).m := by
  cases marked with
  | false =>
    obtain ⟨-, rfl⟩ : readV (me s) r = v ∧ s = s1 := by simpa [vsource, getV] using h
    exact ⟨rfl, rfl⟩
  | true =>
    obtain ⟨f, hf⟩ := streamRead_keeps ((vsource_marked r s).symm.trans h)
    rw [hf]
    exact ⟨rfl, rfl⟩

theorem readX_congr {t u : Strand} (h : t.x = u.x) (r : BitVec 5) : readX t r = readX u r := by rw [readX, readX, h]
theorem readM_congr {t u : Strand} (h : t.m = u.m) (r : BitVec 3) : readM t r = readM u r := by rw [readM, readM, h]

section
variable {marked : Bool} {r : BitVec 5} {s s1 : State} {v : Vec} (h : vsource marked r s = .ok (v, s1))
include h

theorem readX_vsource (q : BitVec 5) : readX (me s1) q = readX (me s) q := readX_congr (vsource_keeps h).1 q
theorem readM_vsource (q : BitVec 3) : readM (me s1) q = readM (me s) q := readM_congr (vsource_keeps h).2 q

end

section
variable {s s1 s2 s3 : State} {d a b c : BitVec 5} {m : BitVec 3} {va vb vc : Vec}

theorem marksOf_started (s : State) : marksOf (me (started s)) = marksOf (me s) := by rw [me_started]; rfl
theorem modeOf_started (s : State) : modeOf (me (started s)) = modeOf (me s) := by rw [me_started]; rfl
theorem readX_started (s : State) (r : BitVec 5) : readX (me (started s)) r = readX (me s) r := by rw [me_started]; rfl
theorem readM_started (s : State) (r : BitVec 3) : readM (me (started s)) r = readM (me s) r := by rw [me_started]; rfl
theorem readV_started (s : State) (r : BitVec 5) : readV (me (started s)) r = readV (me s) r := by rw [me_started]; rfl

theorem readM_of_readsA (h : ReadsA s a va s1) (r : BitVec 3) : readM (me s1) r = readM (me s) r := by
  rw [readM_vsource h, readM_started]

theorem readX_of_readsA (h : ReadsA s a va s1) (r : BitVec 5) : readX (me s1) r = readX (me s) r := by
  rw [readX_vsource h, readX_started]

theorem readM_of_readsB (h : ReadsB s b vb s1) (r : BitVec 3) : readM (me s1) r = readM (me s) r := by
  rw [readM_vsource h, readM_started]

theorem readM_of_readsAB (h : ReadsAB s a b va vb s2) (r : BitVec 3) : readM (me s2) r = readM (me s) r := by
  obtain ⟨s1, ha, hb⟩ := h
  rw [readM_vsource hb, readM_of_readsA ha]

theorem readM_of_readsABC (h : ReadsABC s a b c va vb vc s3) (r : BitVec 3) : readM (me s3) r = readM (me s) r := by
  obtain ⟨s2, hab, hc⟩ := h
  rw [readM_vsource hc, readM_of_readsAB hab]

/-- Lanes land under the mask, and the flags of the active ones are raised. -/
theorem putLanes_lands {w : Nat} {mask : Word} {f : LaneOp} (h : Lands s d (fun old => maskedLanes w mask old (fun l => (f l).1)) s2 s3) :
    putLanes w (marksOf (me s)).vd d mask f s2 = .ok ((), setFlags s3 (activeFlags w mask (fun l => (f l).2))) := by
  rw [putLanes, exec_bind_ok h]
  rfl

/-- A lane operation on two vectors. -/
theorem vlaneOp_vectors {frm : Bool} {w : Nat} {f : Nat → Nat → Nat → Nat × Nat} (hp : Passes (vbinForm frm d a b m 0) s) (hr : ReadsAB s a b va vb s2)
    (hl : Lands s d (fun old => maskedLanes w (readM (me s) m) old (fun l => (f (modeOf (me s)) (lane va w l) (lane vb w l)).1)) s2 s3) :
    vlaneOp frm w d a b m 0 f s =
      .next (done (setFlags s3 (activeFlags w (readM (me s) m) (fun l => (f (modeOf (me s)) (lane va w l) (lane vb w l)).2)))) := by
  refine issue_next hp (together_ok ?_)
  have hmask := readM_of_readsAB hr m
  obtain ⟨s1, ha, hb⟩ := hr
  have hsecond : secondLanes 0 (marksOf (me s)).vb b w s1 = .ok (lane vb w, s2) := by
    rw [secondLanes, if_neg (by decide), exec_bind_ok hb]
    rfl
  rw [exec_self_bind, marksOf_started, exec_bind_ok ha, exec_bind_ok hsecond, exec_getM_bind, hmask, modeOf_started]
  exact putLanes_lands hl

/-- A lane operation on a vector and a scalar. -/
theorem vlaneOp_scalar {frm : Bool} {w : Nat} {f : Nat → Nat → Nat → Nat × Nat} (hp : Passes (vbinForm frm d a b m 1) s) (hr : ReadsA s a va s2)
    (hl : Lands s d (fun old => maskedLanes w (readM (me s) m) old (fun l => (f (modeOf (me s)) (lane va w l) ((readX (me s) b).toNat % 2 ^ w)).1)) s2 s3) :
    vlaneOp frm w d a b m 1 f s =
      .next (done (setFlags s3 (activeFlags w (readM (me s) m) (fun l => (f (modeOf (me s)) (lane va w l) ((readX (me s) b).toNat % 2 ^ w)).2)))) := by
  refine issue_next hp (together_ok ?_)
  have hsecond : secondLanes 1 (marksOf (me s)).vb b w s2 = .ok (fun _ => (readX (me s) b).toNat % 2 ^ w, s2) := by
    rw [secondLanes, if_pos rfl, exec_getX_bind, readX_of_readsA hr]
    rfl
  rw [exec_self_bind, marksOf_started, exec_bind_ok hr, exec_bind_ok hsecond, exec_getM_bind, readM_of_readsA hr, modeOf_started]
  exact putLanes_lands hl

end

/-! ## Integer lanes (13 R310) -/

section
variable {s s2 s3 : State} {d a b : BitVec 5} {m : BitVec 3} {e : BitVec 2} {va vb : Vec}

theorem wrap_of_computes {f : Nat → Nat → Nat → Int → Int → Int} {g : WordOp} (h : Computes f g) {w : Nat} (hw : 0 < w) (x y : BitVec w) :
    wrap w (f w x.toNat y.toNat (sext x.toNat w) (sext y.toNat w)) = (g w x y).toNat := by
  rw [wrap_eq_toNat, sext_toNat, sext_toNat, h w hw]

/-! ## Saturating lanes (13 R310, R311) -/

/-- A saturating operation on the readings of two words gives the word and the mark of clamping that `g` states. -/
def Saturates (signed : Bool) (f : Int → Int → Int) (g : ∀ n : Nat, BitVec n → BitVec n → BitVec n × Bool) : Prop :=
  ∀ n, 0 < n → ∀ x y : BitVec n,
    saturate n signed (if signed then f x.toInt y.toInt else f x.toNat y.toNat) = ((g n x y).1.toNat, if (g n x y).2 then 0x100 else 0)

theorem wrap_toInt {n : Nat} (x : BitVec n) : wrap n x.toInt = x.toNat := by rw [wrap_eq_toNat, BitVec.ofInt_toInt]

/-- A signed result outside the range of its width is clamped towards the sign of the first operand. -/
theorem saturate_signed {n : Nat} (hn : 0 < n) {v : Int} {x : BitVec n} (hhi : 2 ^ (n - 1) ≤ v → x.msb = false) (hlo : v < -2 ^ (n - 1) → x.msb = true) :
    saturate n true v =
      (let clamped := decide (2 ^ (n - 1) ≤ v) || decide (v < -2 ^ (n - 1))
      ((if clamped then (if x.msb then BitVec.intMin n else BitVec.intMax n) else BitVec.ofInt n v).toNat, if clamped then 0x100 else 0)) := by
  have hmax : (2 : Int) ^ (n - 1) - 1 = (BitVec.intMax n).toInt := BitVec.toInt_intMax.symm
  have hmin : -(2 : Int) ^ (n - 1) = (BitVec.intMin n).toInt := (BitVec.toInt_intMin_of_pos hn).symm
  have hpos : (0 : Int) < 2 ^ (n - 1) := by positivity
  rw [saturate, if_pos rfl, if_pos rfl]
  dsimp only
  by_cases hover : (2 : Int) ^ (n - 1) ≤ v
  · rw [if_pos (by omega), hhi hover, hmax, wrap_toInt]
    simp [hover]
  · rw [if_neg (by omega)]
    by_cases hunder : v < -2 ^ (n - 1)
    · rw [if_pos hunder, hlo hunder, hmin, wrap_toInt, ← hmin]
      simp [hunder]
    · rw [if_neg hunder, wrap_eq_toNat]
      simp [hover, hunder]

/-- An unsigned result above the range of its width is clamped to all ones, one below it to zero. -/
theorem saturate_unsigned_above {n : Nat} {v : Int} (h : 2 ^ n ≤ v) : saturate n false v = ((BitVec.allOnes n).toNat, 256) := by
  have hmax : (2 : Int) ^ n - 1 = ((BitVec.allOnes n).toNat : Int) := by
    rw [BitVec.toNat_allOnes, Nat.cast_sub (Nat.one_le_two_pow)]
    push_cast
    rfl
  rw [saturate, if_neg Bool.false_ne_true, if_neg Bool.false_ne_true]
  rw [if_pos (by omega), hmax, wrap_eq_toNat, ofInt_toNat]

theorem saturate_unsigned_below {n : Nat} {v : Int} (h : v < 0) : saturate n false v = (0, 256) := by
  have hpos : (0 : Int) < 2 ^ n := by positivity
  rw [saturate, if_neg Bool.false_ne_true, if_neg Bool.false_ne_true]
  rw [if_neg (by omega), if_pos h, wrap_eq_toNat]
  simp

theorem saturate_unsigned_inside {n : Nat} {v : Int} (h : 0 ≤ v) (h' : v < 2 ^ n) : saturate n false v = ((BitVec.ofInt n v).toNat, 0) := by
  rw [saturate, if_neg Bool.false_ne_true, if_neg Bool.false_ne_true]
  rw [if_neg (by omega), if_neg (by omega), wrap_eq_toNat]

theorem saturates_add : Saturates true (· + ·) (fun n x y =>
    (if x.saddOverflow y then (if x.msb then BitVec.intMin n else BitVec.intMax n) else x + y, x.saddOverflow y)) := fun n hn x y => by
  have hx := BitVec.toInt_lt (x := x)
  have hx' := BitVec.le_toInt x
  have hy := BitVec.toInt_lt (x := y)
  have hy' := BitVec.le_toInt y
  have hsum : BitVec.ofInt n (x.toInt + y.toInt) = x + y := by rw [BitVec.ofInt_add, BitVec.ofInt_toInt, BitVec.ofInt_toInt]
  rw [if_pos rfl, saturate_signed hn (x := x), hsum]
  · rfl
  · exact fun h => BitVec.msb_eq_toInt.trans (decide_eq_false (by beta_reduce at h; omega))
  · exact fun h => BitVec.msb_eq_toInt.trans (decide_eq_true (by beta_reduce at h; omega))

theorem saturates_sub : Saturates true (· - ·) (fun n x y =>
    (if x.ssubOverflow y then (if x.msb then BitVec.intMin n else BitVec.intMax n) else x - y, x.ssubOverflow y)) := fun n hn x y => by
  have hx := BitVec.toInt_lt (x := x)
  have hx' := BitVec.le_toInt x
  have hy := BitVec.toInt_lt (x := y)
  have hy' := BitVec.le_toInt y
  have hdiff : BitVec.ofInt n (x.toInt - y.toInt) = x - y := by
    rw [Int.sub_eq_add_neg, BitVec.ofInt_add, BitVec.ofInt_neg, BitVec.ofInt_toInt, BitVec.ofInt_toInt, BitVec.sub_eq_add_neg]
  rw [if_pos rfl, saturate_signed hn (x := x), hdiff]
  · rfl
  · exact fun h => BitVec.msb_eq_toInt.trans (decide_eq_false (by beta_reduce at h; omega))
  · exact fun h => BitVec.msb_eq_toInt.trans (decide_eq_true (by beta_reduce at h; omega))

theorem saturates_addu : Saturates false (· + ·) (fun n x y => (if x.uaddOverflow y then BitVec.allOnes n else x + y, x.uaddOverflow y)) := fun n hn x y => by
  rw [if_neg Bool.false_ne_true]
  by_cases h : 2 ^ n ≤ x.toNat + y.toNat
  · have hclamped : x.uaddOverflow y = true := decide_eq_true h
    simp only [hclamped, if_true]
    exact saturate_unsigned_above (by exact_mod_cast h)
  · have hinside : x.uaddOverflow y = false := decide_eq_false h
    simp only [hinside, Bool.false_eq_true, if_false]
    rw [saturate_unsigned_inside (by omega) (by exact_mod_cast Nat.not_le.mp h), computes_add n hn x y]

theorem saturates_subu : Saturates false (· - ·) (fun _ x y => (if x.usubOverflow y then 0 else x - y, x.usubOverflow y)) := fun n hn x y => by
  have hx : (x.toNat : Int) < 2 ^ n := by exact_mod_cast x.isLt
  rw [if_neg Bool.false_ne_true]
  by_cases h : x.toNat < y.toNat
  · have hclamped : x.usubOverflow y = true := decide_eq_true h
    simp only [hclamped, if_true]
    exact saturate_unsigned_below (by omega)
  · have hinside : x.usubOverflow y = false := decide_eq_false h
    simp only [hinside, Bool.false_eq_true, if_false]
    rw [saturate_unsigned_inside (by omega) (by omega), computes_sub n hn x y]

/-- Both forms of a row of VOP that wraps. -/
theorem vintOp_lands {f : Nat → Nat → Nat → Int → Int → Int} {g : WordOp} (h : Computes f g) :
    (Passes (vbinForm false d a b m 0) s → ReadsAB s a b va vb s2 →
      Lands s d (fun old => maskedLanes (laneWidth e) (readM (me s) m) old
        (fun l => (g (laneWidth e) (laneAt (laneWidth e) va l) (laneAt (laneWidth e) vb l)).toNat)) s2 s3 →
      vintOp d a b m e 0 f s = .next (done s3)) ∧
    (Passes (vbinForm false d a b m 1) s → ReadsA s a va s2 →
      Lands s d (fun old => maskedLanes (laneWidth e) (readM (me s) m) old
        (fun l => (g (laneWidth e) (laneAt (laneWidth e) va l) ((readX (me s) b).setWidth (laneWidth e))).toNat)) s2 s3 →
      vintOp d a b m e 1 f s = .next (done s3)) := by
  refine ⟨fun hp hr hl => ?_, fun hp hr hl => ?_⟩
  · rw [vintOp, vlaneOp_vectors hp hr (s3 := s3), activeFlags_zero, setFlags_zero]
    simpa only [← laneAt_toNat, wrap_of_computes h (laneWidth_pos e)] using hl
  · rw [vintOp, vlaneOp_scalar hp hr (s3 := s3), activeFlags_zero, setFlags_zero]
    simpa only [← laneAt_toNat, setWidth_toNat_mod, wrap_of_computes h (laneWidth_pos e)] using hl

/-- Both forms of a row of VOP that saturates. -/
theorem vsatOp_lands {signed : Bool} {f : Int → Int → Int} {g : ∀ n : Nat, BitVec n → BitVec n → BitVec n × Bool} (h : Saturates signed f g) :
    (Passes (vbinForm false d a b m 0) s → ReadsAB s a b va vb s2 →
      Lands s d (fun old => maskedLanes (laneWidth e) (readM (me s) m) old
        (fun l => (g (laneWidth e) (laneAt (laneWidth e) va l) (laneAt (laneWidth e) vb l)).1.toNat)) s2 s3 →
      vsatOp d a b m e 0 signed f s = .next (done (setFlags s3 (activeFlags (laneWidth e) (readM (me s) m)
        (fun l => if (g (laneWidth e) (laneAt (laneWidth e) va l) (laneAt (laneWidth e) vb l)).2 then 0x100 else 0))))) ∧
    (Passes (vbinForm false d a b m 1) s → ReadsA s a va s2 →
      Lands s d (fun old => maskedLanes (laneWidth e) (readM (me s) m) old
        (fun l => (g (laneWidth e) (laneAt (laneWidth e) va l) ((readX (me s) b).setWidth (laneWidth e))).1.toNat)) s2 s3 →
      vsatOp d a b m e 1 signed f s = .next (done (setFlags s3 (activeFlags (laneWidth e) (readM (me s) m)
        (fun l => if (g (laneWidth e) (laneAt (laneWidth e) va l) ((readX (me s) b).setWidth (laneWidth e))).2 then 0x100 else 0))))) := by
  have hlane : ∀ l y, saturate (laneWidth e) signed (if signed then f (sext (lane va (laneWidth e) l) (laneWidth e)) (sext y.toNat (laneWidth e))
        else f (lane va (laneWidth e) l) y.toNat) =
      ((g (laneWidth e) (laneAt (laneWidth e) va l) y).1.toNat, if (g (laneWidth e) (laneAt (laneWidth e) va l) y).2 then 0x100 else 0) := fun l y => by
    rw [sext_lane, sext_toNat, ← laneAt_toNat, h (laneWidth e) (laneWidth_pos e)]
  refine ⟨fun hp hr hl => ?_, fun hp hr hl => ?_⟩
  · rw [vsatOp, vlaneOp_vectors hp hr (s3 := s3)]
    · simp only [← laneAt_toNat _ vb, hlane]
    · simpa only [← laneAt_toNat _ vb, hlane] using hl
  · rw [vsatOp, vlaneOp_scalar hp hr (s3 := s3)]
    · simp only [setWidth_toNat_mod, hlane]
    · simpa only [setWidth_toNat_mod, hlane] using hl

end

/-- Settles O17: a row that wraps computes a word operation on each lane (`Computes`), a row that saturates clamps as its row states
(`Saturates`). -/
theorem vectorIntegerLanes : Obligations.VectorIntegerLanes := by
  unfold Obligations.VectorIntegerLanes
  intro s s2 s3 d a b m e va vb w mask sc
  refine ⟨?_, ?_⟩
  · simp only [vopRows, List.forall_mem_cons, List.not_mem_nil, false_implies, implies_true, and_true, exec_vadd, exec_vsub, exec_vand, exec_vor, exec_vxor,
      exec_vandn, exec_vsll, exec_vsrl, exec_vsra, exec_vmin, exec_vmax, exec_vminu, exec_vmaxu, exec_vmul, exec_vmulh, exec_vmulhu]
    exact ⟨(vintOp_lands computes_add :), (vintOp_lands computes_sub :), (vintOp_lands computes_and :), (vintOp_lands computes_or :),
      (vintOp_lands computes_xor :), (vintOp_lands computes_andn :), (vintOp_lands computes_shiftLeft :), (vintOp_lands computes_shiftRight :),
      (vintOp_lands computes_sshiftRight :), (vintOp_lands computes_min :), (vintOp_lands computes_max :), (vintOp_lands computes_minu :),
      (vintOp_lands computes_maxu :), (vintOp_lands computes_mul :), (vintOp_lands computes_mulh :), (vintOp_lands computes_mulhu :)⟩
  · simp only [vsatRows, List.forall_mem_cons, List.not_mem_nil, false_implies, implies_true, and_true, exec_vsadd, exec_vsaddu, exec_vssub, exec_vssubu]
    exact ⟨(vsatOp_lands saturates_add :), (vsatOp_lands saturates_addu :), (vsatOp_lands saturates_sub :), (vsatOp_lands saturates_subu :)⟩

end Sys2Proof.Machine
end

section
/-!
PROOFS. Vector words on floating-point lanes, and comparisons (13 R312 to R314).
-/
namespace Sys2Proof.Machine

section
variable {s s2 s3 : State} {d a b c : BitVec 5} {m : BitVec 3} {e : BitVec 2} {va vb vc : Vec}

/-! ## Floating-point lanes (13 R312, R313) -/

/-- A lane operation of one vector source. -/
theorem vunary_lands {frm reserved : Bool} {w : Nat} {f : Nat → Vec → LaneOp} (hp : Passes (vunaryForm frm reserved d a m) s) (hr : ReadsA s a va s2)
    (hl : Lands s d (fun old => maskedLanes w (readM (me s) m) old (fun l => (f (modeOf (me s)) va l).1)) s2 s3) :
    vunary frm reserved w d a m f s = .next (done (setFlags s3 (activeFlags w (readM (me s) m) (fun l => (f (modeOf (me s)) va l).2)))) := by
  refine issue_next hp (together_ok ?_)
  rw [exec_self_bind, marksOf_started, exec_bind_ok hr, exec_getM_bind, readM_of_readsA hr, modeOf_started]
  exact putLanes_lands hl

/-- A fused multiply-add of lanes. -/
theorem vfma_lands {np nc : Bool} (hp : Passes (vfmaForm d a b c m) s) (hr : ReadsABC s a b c va vb vc s2)
    (hl : Lands s d (fun old => maskedLanes (fmtOf e).width (readM (me s) m) old (fun l =>
      (ffma (fmtOf e) (modeOf (me s)) np nc (lane va (fmtOf e).width l) (lane vb (fmtOf e).width l) (lane vc (fmtOf e).width l)).1)) s2 s3) :
    vfma d a b c m e np nc s = .next (done (setFlags s3 (activeFlags (fmtOf e).width (readM (me s) m) (fun l =>
      (ffma (fmtOf e) (modeOf (me s)) np nc (lane va (fmtOf e).width l) (lane vb (fmtOf e).width l) (lane vc (fmtOf e).width l)).2)))) := by
  refine issue_next hp (together_ok ?_)
  have hmask := readM_of_readsABC hr m
  obtain ⟨s1, ⟨s0, ha, hb⟩, hc⟩ := hr
  rw [exec_self_bind, marksOf_started, exec_bind_ok ha, exec_bind_ok hb, exec_bind_ok hc, exec_getM_bind, hmask, modeOf_started]
  exact putLanes_lands hl

/-- Both forms of a row of VFOP. -/
theorem vfloatOp_lands (frm : Bool) (f : Fmt → Nat → Nat → Nat → Nat × Nat) :
    (Passes (vbinForm frm d a b m 0) s → ReadsAB s a b va vb s2 →
      Lands s d (fun old => maskedLanes (fmtOf e).width (readM (me s) m) old
        (fun l => (f (fmtOf e) (modeOf (me s)) (lane va (fmtOf e).width l) (lane vb (fmtOf e).width l)).1)) s2 s3 →
      vfloatOp frm d a b m e 0 f s = .next (done (setFlags s3 (activeFlags (fmtOf e).width (readM (me s) m)
        (fun l => (f (fmtOf e) (modeOf (me s)) (lane va (fmtOf e).width l) (lane vb (fmtOf e).width l)).2))))) ∧
    (Passes (vbinForm frm d a b m 1) s → ReadsA s a va s2 →
      Lands s d (fun old => maskedLanes (fmtOf e).width (readM (me s) m) old
        (fun l => (f (fmtOf e) (modeOf (me s)) (lane va (fmtOf e).width l) ((readX (me s) b).toNat % 2 ^ (fmtOf e).width)).1)) s2 s3 →
      vfloatOp frm d a b m e 1 f s = .next (done (setFlags s3 (activeFlags (fmtOf e).width (readM (me s) m)
        (fun l => (f (fmtOf e) (modeOf (me s)) (lane va (fmtOf e).width l) ((readX (me s) b).toNat % 2 ^ (fmtOf e).width)).2))))) :=
  ⟨fun hp hr hl => vlaneOp_vectors hp hr hl, fun hp hr hl => vlaneOp_scalar hp hr hl⟩

end

/-- Settles O18: each row puts the scalar operation of its lanes under the mask, with the flags of the active ones. -/
theorem vectorFloatLanes : Obligations.VectorFloatLanes := by
  unfold Obligations.VectorFloatLanes
  intro s s2 s3 d a b c m e va vb vc
  refine ⟨?_, fun hp hr hl => ?_, ?_⟩
  · simp only [vfopRows, List.forall_mem_cons, List.not_mem_nil, false_implies, implies_true, and_true, exec_vfadd, exec_vfsub, exec_vfmul, exec_vfdiv,
      exec_vfmin, exec_vfmax, exec_vfsgnj, exec_vfsgnjn, exec_vfsgnjx]
    exact ⟨vfloatOp_lands true fadd, vfloatOp_lands true fsub, vfloatOp_lands true fmul, vfloatOp_lands true fdiv,
      vfloatOp_lands false fun k _ x y => fminmax k false x y, vfloatOp_lands false fun k _ x y => fminmax k true x y,
      vfloatOp_lands false fun k _ x y => (fsign k 0 x y, 0), vfloatOp_lands false fun k _ x y => (fsign k 1 x y, 0),
      vfloatOp_lands false fun k _ x y => (fsign k 2 x y, 0)⟩
  · exact vunary_lands (f := fun mode v l => fsqrt (fmtOf e) mode (lane v (fmtOf e).width l)) hp hr hl
  · simp only [vfmaRows, List.forall_mem_cons, List.not_mem_nil, false_implies, implies_true, and_true, exec_vfmadd, exec_vfmsub, exec_vfnmadd, exec_vfnmsub]
    exact ⟨vfma_lands, vfma_lands, vfma_lands, vfma_lands⟩

/-! ## Comparisons (13 R314) -/

section
variable {s s2 : State} {d a b : BitVec 5} {m : BitVec 3} {e : BitVec 2} {va vb : Vec}

/-- A write of m0 is discarded, so the old value that the model puts in its place does not count. -/
theorem writeM_maskResult (s : State) (w : Nat) (mask : Word) (md : BitVec 3) (cond : Nat → Bool) :
    modMe s (fun t => writeM t md (maskResult w mask (if md = 0 then 0 else readM (me s) md) cond)) =
      modMe s (fun t => writeM t md (maskResult w mask (readM t md) cond)) := by
  refine modMe_congr ?_
  by_cases h : md = 0
  · rw [h]
    rfl
  · rw [if_neg h]

theorem vcompare_vectors {w : Nat} {f : Nat → Nat → Bool × Nat} (hp : Passes (vcmpForm d a b m 0) s) (hr : ReadsAB s a b va vb s2) :
    vcompare w d a b m 0 f s = .next (done (setFlags
      (modMe s2 (fun t => writeM t (d.setWidth 3) (maskResult w (readM (me s) m) (readM t (d.setWidth 3)) (fun l => (f (lane va w l) (lane vb w l)).1))))
      (activeFlags w (readM (me s) m) (fun l => (f (lane va w l) (lane vb w l)).2)))) := by
  refine issue_next hp (together_ok ?_)
  have hmask := readM_of_readsAB hr m
  obtain ⟨s1, ha, hb⟩ := hr
  have hsecond : secondLanes 0 (marksOf (me s)).vb b w s1 = .ok (lane vb w, s2) := by
    rw [secondLanes, if_neg (by decide), exec_bind_ok hb]
    rfl
  rw [exec_self_bind, marksOf_started, exec_bind_ok ha, exec_bind_ok hsecond, exec_getM_bind, hmask, exec_getM_bind, BitVec.ofNat_toNat,
    exec_bind_ok (exec_setM ..), writeM_maskResult]
  rfl

theorem vcompare_scalar {w : Nat} {f : Nat → Nat → Bool × Nat} (hp : Passes (vcmpForm d a b m 1) s) (hr : ReadsA s a va s2) :
    vcompare w d a b m 1 f s = .next (done (setFlags
      (modMe s2 (fun t => writeM t (d.setWidth 3) (maskResult w (readM (me s) m) (readM t (d.setWidth 3))
        (fun l => (f (lane va w l) ((readX (me s) b).toNat % 2 ^ w)).1))))
      (activeFlags w (readM (me s) m) (fun l => (f (lane va w l) ((readX (me s) b).toNat % 2 ^ w)).2)))) := by
  refine issue_next hp (together_ok ?_)
  have hsecond : secondLanes 1 (marksOf (me s)).vb b w s2 = .ok (fun _ => (readX (me s) b).toNat % 2 ^ w, s2) := by
    rw [secondLanes, if_pos rfl, exec_getX_bind, readX_of_readsA hr]
    rfl
  rw [exec_self_bind, marksOf_started, exec_bind_ok hr, exec_bind_ok hsecond, exec_getM_bind, readM_of_readsA hr, exec_getM_bind, BitVec.ofNat_toNat,
    exec_bind_ok (exec_setM ..), writeM_maskResult]
  rfl

/-- Both forms of an integer row of VCMP, by the condition on words. -/
theorem vintCmp_writes (f : Nat → Nat → Int → Int → Bool) (g : ∀ n : Nat, BitVec n → BitVec n → Bool)
    (h : ∀ n (x y : BitVec n), f x.toNat y.toNat x.toInt y.toInt = g n x y) :
    (Passes (vcmpForm d a b m 0) s → ReadsAB s a b va vb s2 →
      vintCmp d a b m e 0 f s = .next (done (modMe s2 (fun t => writeM t (d.setWidth 3) (maskResult (laneWidth e) (readM (me s) m) (readM t (d.setWidth 3))
        (fun l => g (laneWidth e) (laneAt (laneWidth e) va l) (laneAt (laneWidth e) vb l))))))) ∧
    (Passes (vcmpForm d a b m 1) s → ReadsA s a va s2 →
      vintCmp d a b m e 1 f s = .next (done (modMe s2 (fun t => writeM t (d.setWidth 3) (maskResult (laneWidth e) (readM (me s) m) (readM t (d.setWidth 3))
        (fun l => g (laneWidth e) (laneAt (laneWidth e) va l) ((readX (me s) b).setWidth (laneWidth e)))))))) := by
  refine ⟨fun hp hr => ?_, fun hp hr => ?_⟩
  · rw [vintCmp, vcompare_vectors hp hr, activeFlags_zero, setFlags_zero]
    simp only [← laneAt_toNat, sext_toNat, h]
  · rw [vintCmp, vcompare_scalar hp hr, activeFlags_zero, setFlags_zero]
    simp only [← laneAt_toNat, setWidth_toNat_mod, sext_toNat, h]

/-- Both forms of a floating-point row of VCMP. -/
theorem vfloatCmp_writes (f : Fmt → Nat → Nat → Bool × Nat) :
    (Passes (vcmpForm d a b m 0) s → ReadsAB s a b va vb s2 →
      vfloatCmp d a b m e 0 f s = .next (done (setFlags
        (modMe s2 (fun t => writeM t (d.setWidth 3) (maskResult (fmtOf e).width (readM (me s) m) (readM t (d.setWidth 3))
          (fun l => (f (fmtOf e) (lane va (fmtOf e).width l) (lane vb (fmtOf e).width l)).1))))
        (activeFlags (fmtOf e).width (readM (me s) m) (fun l => (f (fmtOf e) (lane va (fmtOf e).width l) (lane vb (fmtOf e).width l)).2))))) ∧
    (Passes (vcmpForm d a b m 1) s → ReadsA s a va s2 →
      vfloatCmp d a b m e 1 f s = .next (done (setFlags
        (modMe s2 (fun t => writeM t (d.setWidth 3) (maskResult (fmtOf e).width (readM (me s) m) (readM t (d.setWidth 3))
          (fun l => (f (fmtOf e) (lane va (fmtOf e).width l) ((readX (me s) b).toNat % 2 ^ (fmtOf e).width)).1))))
        (activeFlags (fmtOf e).width (readM (me s) m)
          (fun l => (f (fmtOf e) (lane va (fmtOf e).width l) ((readX (me s) b).toNat % 2 ^ (fmtOf e).width)).2))))) :=
  ⟨fun hp hr => vcompare_vectors hp hr, fun hp hr => vcompare_scalar hp hr⟩

end

theorem beq_toNat {n : Nat} (x y : BitVec n) : (x.toNat == y.toNat) = (x == y) := by
  rw [beq_eq_decide, beq_eq_decide, decide_eq_decide]
  exact BitVec.toNat_inj

/-- Settles O19: the conditions of the integer rows are those on words; the flags of the floating-point rows are those of the active lanes. -/
theorem vectorComparisonsWriteAMask : Obligations.VectorComparisonsWriteAMask := by
  unfold Obligations.VectorComparisonsWriteAMask
  intro s s2 d a b m e va vb
  refine ⟨?_, ?_⟩
  · simp only [vcmpRows, List.forall_mem_cons, List.not_mem_nil, false_implies, implies_true, and_true, exec_vcmpEq, exec_vcmpNe, exec_vcmpLt, exec_vcmpGe,
      exec_vcmpLtu, exec_vcmpGeu]
    exact ⟨vintCmp_writes (fun p q _ _ => p == q) (fun _ x y => x == y) fun _ => beq_toNat,
      vintCmp_writes (fun p q _ _ => p != q) (fun _ x y => x != y) fun _ x y => congrArg (!·) (beq_toNat x y),
      vintCmp_writes (fun _ _ p q => decide (p < q)) (fun _ x y => x.slt y) fun _ _ _ => BitVec.slt_eq_decide.symm,
      vintCmp_writes (fun _ _ p q => decide (q ≤ p)) (fun _ x y => !x.slt y) fun _ x y => (not_slt_eq_decide x y).symm,
      vintCmp_writes (fun p q _ _ => decide (p < q)) (fun _ x y => x.ult y) fun _ _ _ => BitVec.ult_eq_decide.symm,
      vintCmp_writes (fun p q _ _ => decide (q ≤ p)) (fun _ x y => !x.ult y) fun _ x y => (not_ult_eq_decide x y).symm⟩
  · simp only [vfcmpRows, List.forall_mem_cons, List.not_mem_nil, false_implies, implies_true, and_true, exec_vfcmpEq, exec_vfcmpNe, exec_vfcmpLt,
      exec_vfcmpLe, exec_vfcmpUo]
    exact ⟨vfloatCmp_writes fun k p q => fcompare k 0 p q, vfloatCmp_writes fun k p q => (!(fcompare k 0 p q).1, (fcompare k 0 p q).2),
      vfloatCmp_writes fun k p q => fcompare k 1 p q, vfloatCmp_writes fun k p q => fcompare k 2 p q,
      vfloatCmp_writes fun k p q => (isNan (fdecode k p) || isNan (fdecode k q), snanFlag [fdecode k p, fdecode k q])⟩

end Sys2Proof.Machine
end

section
/-!
PROOFS. Vector reductions and scans (13 R315, 09 R245).
-/
namespace Sys2Proof.Machine

/-! ## Reductions (13 R315) -/

section
variable {s s2 s3 : State} {d a b : BitVec 5} {m : BitVec 3} {e : BitVec 2} {va vb : Vec}

/-- A reduction writes the register and raises the flags that its combination gives. -/
theorem vreduce_writes {frm : Bool} {w : Nat} {f : Nat → Word → Nat → Vec → Word × Nat} (hp : Passes (vredForm frm d a b m) s) (hr : ReadsB s b vb s2) :
    vreduce frm w d a b m f s = .next (done (setFlags
      (modMe s2 (fun t => writeX t d (f (modeOf (me s)) (readM (me s) m) ((readX (me s) a).toNat % 2 ^ w) vb).1))
      (f (modeOf (me s)) (readM (me s) m) ((readX (me s) a).toNat % 2 ^ w) vb).2)) := by
  refine issue_next hp (together_ok ?_)
  rw [exec_self_bind, marksOf_started, modeOf_started, exec_getX_bind, readX_started, exec_bind_ok hr, exec_getM_bind, readM_of_readsB hr,
    exec_bind_ok (exec_setX ..)]
  rfl

/-- The active lanes combined as numbers, when the combination of numbers is that of words. -/
theorem foldl_activeLanes {f : Nat → Nat → Nat} {w : Nat} {g : BitVec w → BitVec w → BitVec w} (h : ∀ x y, f x.toNat y.toNat = (g x y).toNat)
    (ls : List Nat) (v : Vec) (x : BitVec w) : (ls.map (lane v w)).foldl f x.toNat = ((ls.map (laneAt w v)).foldl g x).toNat := by
  rw [List.foldl_map, List.foldl_map]
  exact List.foldl_hom BitVec.toNat (g₁ := fun p l => g p (laneAt w v l)) (g₂ := fun p l => f p (lane v w l)) fun p l => by rw [← laneAt_toNat, h]

/-- A row of the integer reductions, by its combination of words. -/
theorem vintRed_writes (signed : Bool) (f : Nat → Nat → Nat → Nat) (g : WordOp) (h : ∀ n (x y : BitVec n), f n x.toNat y.toNat = (g n x y).toNat)
    (hp : Passes (vredForm false d a b m) s) (hr : ReadsB s b vb s2) :
    vintRed d a b m e signed f s = .next (done (modMe s2 (fun t => writeX t d
      (let r := (((List.range (512 / laneWidth e)).filter (fun l => (readM (me s) m).getLsbD l)).map (laneAt (laneWidth e) vb)).foldl (g (laneWidth e))
        ((readX (me s) a).setWidth (laneWidth e))
      if signed then r.signExtend 64 else r.setWidth 64)))) := by
  have hactive : active (readM (me s) m) = fun l => (readM (me s) m).getLsbD l := funext (active_eq_getLsbD _)
  rw [vintRed, vreduce_writes hp hr, setFlags_zero]
  simp only [activeLanes, hactive, setWidth_toNat_mod, foldl_activeLanes (h (laneWidth e)), sext_toNat]
  rw [Nat.mod_eq_of_lt (BitVec.isLt _), BitVec.ofNat_toNat]
  rfl

/-- A row of the floating-point reductions. -/
theorem vfloatRed_writes (frm pairwise : Bool) (f : Fmt → Nat → Nat → Nat → Nat × Nat) (hp : Passes (vredForm frm d a b m) s) (hr : ReadsB s b vb s2) :
    vfloatRed frm pairwise d a b m e f s = .next (
      let k := fmtOf e
      let x := (readX (me s) a).toNat % 2 ^ k.width
      let r := if pairwise then pairOrder (f k (modeOf (me s))) k.width (readM (me s) m) x vb
        else laneOrder (f k (modeOf (me s))) x (activeLanes k.width (readM (me s) m) vb)
      done (setFlags (modMe s2 (fun t => writeX t d (BitVec.ofNat 64 r.1))) r.2)) := by
  rw [vfloatRed, vreduce_writes hp hr]

/-! ## Scans (13 R315) -/

/-- The running value after a lane combines the start value with the active lanes up to it. -/
theorem running_getD {f : Nat → Nat → Nat × Nat} {w : Nat} {mask : Word} {v : Vec} (ls : List Nat) (x fl : Nat) {i : Nat} (hi : i < ls.length) :
    (running f w mask v x fl ls).1.getD i 0 = (((ls.take (i + 1)).filter (active mask)).map (lane v w)).foldl (fun p q => (f p q).1) x := by
  induction ls generalizing x fl i with
  | nil => exact absurd hi (Nat.not_lt_zero i)
  | cons l ls ih =>
    have hfirst : (if active mask l then f x (lane v w l) else (x, 0)).1 =
        ((([l].filter (active mask)).map (lane v w)).foldl (fun p q => (f p q).1) x) := by
      cases hl : active mask l <;> simp [hl]
    rw [running, ← List.singleton_append (x := l), List.take_append, List.filter_append, List.map_append, List.foldl_append]
    cases i with
    | zero => simpa using hfirst
    | succ j =>
      rw [List.getD_cons_succ, ih _ _ (Nat.lt_of_succ_lt_succ hi), hfirst]
      rfl

/-- A combination without flags leaves none. -/
theorem running_flags {f : Nat → Nat → Nat × Nat} (h : ∀ p q, (f p q).2 = 0) (w : Nat) (mask : Word) (v : Vec) (ls : List Nat) (x fl : Nat) :
    (running f w mask v x fl ls).2 = fl := by
  induction ls generalizing x fl with
  | nil => rfl
  | cons l ls ih =>
    rw [running, ih]
    split <;> simp [h]

theorem vscanOp_lands {frm : Bool} {w : Nat} {f : Nat → Nat → Nat → Nat × Nat} (hp : Passes (vscanForm frm d a b m) s) (hr : ReadsB s b vb s2)
    (hl : Lands s d (fun old => maskedLanes w (readM (me s) m) old (fun l =>
      (running (f (modeOf (me s))) w (readM (me s) m) vb ((readX (me s) a).toNat % 2 ^ w) 0 (List.range (laneCount w))).1.getD l 0)) s2 s3) :
    vscanOp frm w d a b m f s = .next (done (setFlags s3
      (running (f (modeOf (me s))) w (readM (me s) m) vb ((readX (me s) a).toNat % 2 ^ w) 0 (List.range (laneCount w))).2)) := by
  refine issue_next hp (together_ok ?_)
  rw [exec_self_bind, marksOf_started, modeOf_started, exec_getX_bind, readX_started, exec_bind_ok hr, exec_getM_bind, readM_of_readsB hr]
  exact exec_bind_ok hl

theorem vscan_lands (hp : Passes (vscanForm false d a b m) s) (hr : ReadsB s b vb s2)
    (hl : Lands s d (fun old => maskedLanes (laneWidth e) (readM (me s) m) old (fun l =>
      ((((List.range (l + 1)).filter (fun j => (readM (me s) m).getLsbD j)).map (laneAt (laneWidth e) vb)).foldl (· + ·)
        ((readX (me s) a).setWidth (laneWidth e))).toNat)) s2 s3) :
    execVscan d a b m e s = .next (done s3) := by
  have hactive : active (readM (me s) m) = fun l => (readM (me s) m).getLsbD l := funext (active_eq_getLsbD _)
  have hadd : ∀ x y : BitVec (laneWidth e), (x.toNat + y.toNat) % 2 ^ laneWidth e = (x + y).toNat := fun x y => (BitVec.toNat_add x y).symm
  rw [execVscan, vscanOp_lands hp hr (s3 := s3), running_flags (fun _ _ => rfl), setFlags_zero]
  refine Eq.trans (congrArg (fun f => vdest _ d f s2) (funext fun old => maskedLanes_congr fun l hl _ => ?_)) hl
  rw [running_getD _ _ _ (by rwa [List.length_range]), List.take_range, Nat.min_eq_left hl, hactive, setWidth_toNat_mod]
  exact foldl_activeLanes hadd _ vb _

end

theorem ite_toNat {n : Nat} (c : Prop) [Decidable c] (x y : BitVec n) : (if c then x.toNat else y.toNat) = (if c then x else y).toNat :=
  (apply_ite BitVec.toNat c x y).symm

/-- Settles O20: an integer combination of numbers is one of words (`foldl_activeLanes`); the running values of a scan are folds (`running_getD`). -/
theorem vectorReductionsAndScans : Obligations.VectorReductionsAndScans := by
  unfold Obligations.VectorReductionsAndScans
  intro s s2 s3 d a b m e vb
  refine ⟨?_, ?_, fun hp hr hl => vscan_lands hp hr hl, fun hp hr hl => vscanOp_lands hp hr hl⟩
  · simp only [vredRows, List.forall_mem_cons, List.not_mem_nil, false_implies, implies_true, and_true, exec_vredsum, exec_vredmin, exec_vredmax,
      exec_vredminu, exec_vredmaxu, exec_vredand, exec_vredor, exec_vredxor]
    refine ⟨vintRed_writes true (fun n p q => (p + q) % 2 ^ n) (fun _ x y => x + y) fun n x y => (BitVec.toNat_add x y).symm,
      vintRed_writes true (fun n p q => if sext q n < sext p n then q else p) (fun _ x y => if y.slt x then y else x) fun n x y => ?_,
      vintRed_writes true (fun n p q => if sext p n < sext q n then q else p) (fun _ x y => if x.slt y then y else x) fun n x y => ?_,
      vintRed_writes false (fun _ p q => min p q) (fun _ x y => if y.ult x then y else x) fun n x y => ?_,
      vintRed_writes false (fun _ p q => max p q) (fun _ x y => if x.ult y then y else x) fun n x y => ?_,
      vintRed_writes true (fun _ p q => p &&& q) (fun _ x y => x &&& y) fun n x y => (BitVec.toNat_and x y).symm,
      vintRed_writes true (fun _ p q => p ||| q) (fun _ x y => x ||| y) fun n x y => (BitVec.toNat_or x y).symm,
      vintRed_writes true (fun _ p q => p ^^^ q) (fun _ x y => x ^^^ y) fun n x y => (BitVec.toNat_xor x y).symm⟩
    · simp only [sext_toNat, BitVec.slt_iff_toInt_lt, ite_toNat]
    · simp only [sext_toNat, BitVec.slt_iff_toInt_lt, ite_toNat]
    · simp only [BitVec.ult_iff_lt, BitVec.lt_def, ← ite_toNat]
      split <;> omega
    · simp only [BitVec.ult_iff_lt, BitVec.lt_def, ← ite_toNat]
      split <;> omega
  · simp only [vfredRows, List.forall_mem_cons, List.not_mem_nil, false_implies, implies_true, and_true, exec_vfredo, exec_vfredp, exec_vfredmino,
      exec_vfredmaxo, exec_vfredminp, exec_vfredmaxp]
    exact ⟨vfloatRed_writes true false fadd, vfloatRed_writes true true fadd, vfloatRed_writes false false fun k _ x y => fminmax k false x y,
      vfloatRed_writes false false fun k _ x y => fminmax k true x y, vfloatRed_writes false true fun k _ x y => fminmax k false x y,
      vfloatRed_writes false true fun k _ x y => fminmax k true x y⟩

end Sys2Proof.Machine
end

section
/-!
PROOFS. Vector permutes and conversions, and mask words (13 R317 to R321).
-/
namespace Sys2Proof.Machine

/-! ## Masks of lanes -/

/-- The mask of the lanes below `n` that satisfy a condition. -/
theorem sum_two_pow_lt (p : Nat → Bool) (n : Nat) : ((List.range n).map (fun l => if p l then 2 ^ l else 0)).sum < 2 ^ n := by
  induction n with
  | zero => exact Nat.one_pos
  | succ n ih =>
    rw [List.range_succ, List.map_append, List.sum_append, List.map_singleton, List.sum_singleton, Nat.pow_succ]
    split <;> omega

theorem testBit_sum_two_pow (p : Nat → Bool) (n l : Nat) :
    (((List.range n).map (fun l => if p l then 2 ^ l else 0)).sum).testBit l = (decide (l < n) && p l) := by
  induction n with
  | zero => simp
  | succ n ih =>
    have hlow := sum_two_pow_lt p n
    rw [List.range_succ, List.map_append, List.sum_append, List.map_singleton, List.sum_singleton]
    obtain hl | rfl | hl := Nat.lt_trichotomy l n
    · have hkeep : (((List.range n).map (fun l => if p l then 2 ^ l else 0)).sum + if p n then 2 ^ n else 0).testBit l =
          (((List.range n).map (fun l => if p l then 2 ^ l else 0)).sum).testBit l := by
        split
        · rw [Nat.add_comm, Nat.testBit_two_pow_add_gt hl]
        · rfl
      rw [hkeep, ih, decide_eq_true hl, decide_eq_true (Nat.lt_succ_of_lt hl)]
    · cases hp : p l with
      | false => rw [if_neg Bool.false_ne_true, Nat.add_zero, ih, hp, Bool.and_false, Bool.and_false]
      | true => rw [if_pos rfl, Nat.add_comm, Nat.testBit_two_pow_add_eq, Nat.testBit_lt_two_pow hlow, decide_eq_true (Nat.lt_succ_self l)]; rfl
    · have hhigh : ((List.range n).map (fun l => if p l then 2 ^ l else 0)).sum + (if p n then 2 ^ n else 0) < 2 ^ l := by
        have hpow : 2 ^ (n + 1) ≤ 2 ^ l := Nat.pow_le_pow_right (by decide) hl
        rw [Nat.pow_succ] at hpow
        split <;> omega
      rw [Nat.testBit_lt_two_pow hhigh, decide_eq_false (by omega), Bool.false_and]

theorem laneCount_le (e : BitVec 2) : laneCount (laneWidth e) ≤ 64 := by
  have h : ∀ k < 4, laneCount (8 * 2 ^ k) ≤ 64 := by decide
  exact h e.toNat e.isLt

/-- The lanes that a slide up reaches. -/
theorem active_laneMask (p : Nat → Bool) (e : BitVec 2) {l : Nat} (hl : l < laneCount (laneWidth e)) :
    active (BitVec.ofNat 64 ((List.range (laneCount (laneWidth e))).map (fun l => if p l then 2 ^ l else 0)).sum) l = p l := by
  rw [active_eq_getLsbD, BitVec.getLsbD_ofNat, testBit_sum_two_pow, decide_eq_true hl, decide_eq_true (Nat.lt_of_lt_of_le hl (laneCount_le e))]
  rfl

/-! ## Permutes (13 R317) -/

section
variable {s s2 s3 : State} {d a b : BitVec 5} {m : BitVec 3} {e : BitVec 2} {va vb : Vec}

/-- Lanes without flags. -/
theorem putLanes_lands_plain {w : Nat} {mask : Word} {r : Nat → Nat} (h : Lands s d (fun old => maskedLanes w mask old r) s2 s3) :
    putLanes w (marksOf (me s)).vd d mask (fun l => (r l, 0)) s2 = .ok ((), s3) := by
  rw [putLanes_lands (f := fun l => (r l, 0)) h, activeFlags_zero, setFlags_zero]

/-- Only what lands counts, not how it is written. -/
theorem lands_congr {f g : Vec → Vec} (h : ∀ old, f old = g old) (hl : Lands s d g s2 s3) : Lands s d f s2 s3 := by
  rwa [funext h]

theorem ofLanes_map_congr {w : Nat} {ls : List Nat} {f g : Nat → Nat} (h : ∀ l, f l % 2 ^ w = g l % 2 ^ w) : ofLanes w (ls.map f) = ofLanes w (ls.map g) := by
  rw [← ofLanes_mod w (ls.map f), ← ofLanes_mod w (ls.map g), List.map_map, List.map_map]
  exact congrArg (ofLanes w) (List.map_congr_left fun l _ => h l)

theorem maskedLanes_mod (w : Nat) (mask : Word) (old : Vec) (r : Nat → Nat) : maskedLanes w mask old (fun l => r l % 2 ^ w) = maskedLanes w mask old r := by
  refine ofLanes_map_congr fun l => ?_
  split
  · exact Nat.mod_mod ..
  · rfl

theorem vbcast_lands (hp : Passes (vbcastForm d a m) s)
    (hl : Lands s d (fun old => maskedLanes (laneWidth e) (readM (me s) m) old (fun _ => (readX (me s) a).toNat)) (started s) s3) :
    execVbcast d a m e s = .next (done s3) := by
  refine issue_next hp (together_ok ?_)
  rw [exec_self_bind, marksOf_started, exec_getX_bind, readX_started, exec_getM_bind, readM_started]
  exact putLanes_lands_plain (lands_congr (fun old => maskedLanes_mod ..) hl)

theorem vextract_writes (hp : Passes (vextractForm d a b) s) (hr : ReadsA s a va s2) :
    execVextract d a b e s = .next (done (modMe s2 (fun t => writeX t d (BitVec.ofNat 64
      (if (readX (me s) b).toNat < 512 / laneWidth e then lane va (laneWidth e) (readX (me s) b).toNat else 0))))) := by
  refine issue_next hp (together_ok ?_)
  rw [exec_self_bind, marksOf_started, exec_bind_ok hr, exec_getX_bind, readX_of_readsA hr, apply_ite (BitVec.ofNat 64)]
  rfl

theorem vinsert_lands (hp : Passes (vinsertForm d a b) s)
    (hl : Lands s d (fun old => ofLanes (laneWidth e) ((List.range (512 / laneWidth e)).map (fun l =>
      if l = (readX (me s) b).toNat then (readX (me s) a).toNat else lane old (laneWidth e) l))) (started s) s3) :
    execVinsert d a b e s = .next (done s3) := by
  refine issue_next hp (together_ok ?_)
  rw [exec_self_bind, marksOf_started, exec_getX_bind, readX_started, exec_getX_bind, readX_started]
  refine lands_congr (fun old => ?_) hl
  refine ofLanes_map_congr fun l => ?_
  split
  · exact Nat.mod_mod ..
  · rfl

theorem vslideup_lands (hp : Passes (vslideForm d a b m) s) (hr : ReadsA s a va s2)
    (hl : Lands s d (fun old => ofLanes (laneWidth e) ((List.range (512 / laneWidth e)).map (fun l =>
      if (readM (me s) m).getLsbD l ∧ (readX (me s) b).toNat ≤ l then lane va (laneWidth e) (l - (readX (me s) b).toNat)
      else lane old (laneWidth e) l))) s2 s3) :
    execVslideup d a b m e s = .next (done s3) := by
  refine issue_next hp (together_ok ?_)
  rw [exec_self_bind, marksOf_started, exec_bind_ok hr, exec_getX_bind, readX_of_readsA hr, exec_getM_bind, readM_of_readsA hr]
  refine putLanes_lands_plain (lands_congr (fun old => congrArg (ofLanes _) (List.map_congr_left fun l hl => ?_)) hl)
  rw [active_laneMask _ e (List.mem_range.mp hl), active_eq_getLsbD]
  simp only [Bool.and_eq_true, decide_eq_true_eq]

theorem vslidedown_lands (hp : Passes (vslideForm d a b m) s) (hr : ReadsA s a va s2)
    (hl : Lands s d (fun old => maskedLanes (laneWidth e) (readM (me s) m) old (fun l =>
      if l + (readX (me s) b).toNat < 512 / laneWidth e then lane va (laneWidth e) (l + (readX (me s) b).toNat) else 0)) s2 s3) :
    execVslidedown d a b m e s = .next (done s3) := by
  refine issue_next hp (together_ok ?_)
  rw [exec_self_bind, marksOf_started, exec_bind_ok hr, exec_getX_bind, readX_of_readsA hr, exec_getM_bind, readM_of_readsA hr]
  exact putLanes_lands_plain hl

theorem vperm_lands (hp : Passes (vpairForm false false d a b m) s) (hr : ReadsAB s a b va vb s2)
    (hl : Lands s d (fun old => maskedLanes (laneWidth e) (readM (me s) m) old (fun l =>
      if lane vb (laneWidth e) l < 512 / laneWidth e then lane va (laneWidth e) (lane vb (laneWidth e) l) else 0)) s2 s3) :
    execVperm d a b m e s = .next (done s3) := by
  refine issue_next hp (together_ok ?_)
  have hmask := readM_of_readsAB hr m
  obtain ⟨s1, ha, hb⟩ := hr
  rw [exec_self_bind, marksOf_started, exec_bind_ok ha, exec_bind_ok hb, exec_getM_bind, hmask]
  exact putLanes_lands_plain hl

theorem vsel_lands (hp : Passes (vpairForm false false d a b m) s) (hr : ReadsAB s a b va vb s2)
    (hl : Lands s d (fun _ => ofLanes (laneWidth e) ((List.range (512 / laneWidth e)).map (fun l =>
      if (readM (me s) m).getLsbD l then lane va (laneWidth e) l else lane vb (laneWidth e) l))) s2 s3) :
    execVsel d a b m e s = .next (done s3) := by
  refine issue_next hp (together_ok ?_)
  have hmask := readM_of_readsAB hr m
  obtain ⟨s1, ha, hb⟩ := hr
  rw [exec_self_bind, marksOf_started, exec_bind_ok ha, exec_bind_ok hb, exec_getM_bind, hmask]
  refine lands_congr (fun _ => congrArg (ofLanes _) (List.map_congr_left fun l _ => ?_)) hl
  rw [active_eq_getLsbD]

end

/-- Settles O21: each permute by its lemma; scalars are taken modulo 2^w when the lanes are put together. -/
theorem vectorPermutes : Obligations.VectorPermutes := by
  unfold Obligations.VectorPermutes
  intro s s2 s3 d a b m e va vb
  simp only [exec_vbcast, exec_vextract, exec_vinsert, exec_vslideup, exec_vslidedown, exec_vperm, exec_vsel]
  exact ⟨vbcast_lands, vextract_writes, vinsert_lands, fun hp hr => ⟨vslideup_lands hp hr, vslidedown_lands hp hr⟩,
    fun hp hr => ⟨vperm_lands hp hr, vsel_lands hp hr⟩⟩

/-! ## Conversions (13 R318 to R320) -/

section
variable {s s2 s3 : State} {d a b : BitVec 5} {m : BitVec 3} {va vb : Vec}

/-- A narrowing of two sources. -/
theorem vnarrowOp_lands {frm reserved : Bool} {w : Nat} {f : Nat → Nat → Nat × Nat} (hp : Passes (vpairForm frm reserved d a b m) s)
    (hr : ReadsAB s a b va vb s2)
    (hl : Lands s d (fun old => maskedLanes w (readM (me s) m) old (fun l => (f (modeOf (me s)) (pairLane w va vb l)).1)) s2 s3) :
    vnarrowOp frm reserved w d a b m f s =
      .next (done (setFlags s3 (activeFlags w (readM (me s) m) (fun l => (f (modeOf (me s)) (pairLane w va vb l)).2)))) := by
  refine issue_next hp (together_ok ?_)
  have hmask := readM_of_readsAB hr m
  obtain ⟨s1, ha, hb⟩ := hr
  rw [exec_self_bind, marksOf_started, exec_bind_ok ha, exec_bind_ok hb, exec_getM_bind, hmask, modeOf_started]
  exact putLanes_lands hl

/-- What a conversion between numbers and integers gives. -/
theorem vconvert_lands {e : BitVec 2} {f : Fmt → Nat → Nat → Nat × Nat} {r : Nat → Nat × Nat}
    (h : ∀ l, f (fmtOf e) (modeOf (me s)) (lane va (fmtOf e).width l) = r l)
    (hp : Passes (vunaryForm true (!(decide (b = 0))) d a m) s) (hr : ReadsA s a va s2)
    (hl : Lands s d (fun old => maskedLanes (fmtOf e).width (readM (me s) m) old (fun l => (r l).1)) s2 s3) :
    vconvert d a b m e f s = .next (done (setFlags s3 (activeFlags (fmtOf e).width (readM (me s) m) (fun l => (r l).2)))) := by
  obtain rfl : (fun l => f (fmtOf e) (modeOf (me s)) (lane va (fmtOf e).width l)) = r := funext h
  exact vunary_lands (f := fun mode v l => f (fmtOf e) mode (lane v (fmtOf e).width l)) hp hr hl

end

/-- Settles O22: each conversion puts its lanes under the mask, with the flags of the active ones. -/
theorem vectorConversions : Obligations.VectorConversions := by
  unfold Obligations.VectorConversions
  intro s s2 s3 d a b m p e h va vb w k mask mode half pair lanes
  have hsext : ∀ l, wrap w (sext (lane va (w / 2) (half w l)) (w / 2)) = ((laneAt (w / 2) va (half w l)).signExtend w).toNat := fun l => by
    rw [sext_lane, wrap_eq_toNat]
    rfl
  refine ⟨fun hr => ⟨fun hp => ⟨fun hl => ?_, fun hl => ?_⟩, fun hp hl => ?_, fun hp hl => ?_, fun hp => ⟨?_, ?_, ?_, ?_⟩, fun hp hl => ?_⟩,
    fun hr => ⟨fun hp => ⟨fun hl => ?_, fun hl => ?_, fun hl => ?_, fun hl => ?_⟩, fun hp hl => ?_⟩⟩
  · simp only [← hsext] at hl
    exact vunary_lands (f := fun _ v l => (wrap w (sext (lane v (w / 2) (halfLane w h l)) (w / 2)), 0)) hp hr hl
  · exact vunary_lands (f := fun _ v l => (lane v (w / 2) (halfLane w h l), 0)) hp hr hl
  · exact vunary_lands (f := fun mode v l => fconvert (if e = 3 then fp32 else fp16) k mode
      (lane v (if e = 3 then fp32 else fp16).width (halfLane k.width h l))) hp hr hl
  · exact vunary_lands (f := fun mode v l => fconvert bf16 fp32 mode (lane v 16 (halfLane 32 h l))) hp hr hl
  · exact vconvert_lands (f := fun k mode x => fofint k mode (sext x k.width)) (fun l => by rw [sext_lane]) hp hr
  · exact vconvert_lands (f := fun k mode x => fofint k mode x) (fun l => by rw [laneAt_toNat]) hp hr
  · exact vconvert_lands (f := fun k mode x => (wrap k.width (ftoint k mode k.width true x).1, (ftoint k mode k.width true x).2)) (fun l => rfl) hp hr
  · exact vconvert_lands (f := fun k mode x => (wrap k.width (ftoint k mode k.width false x).1, (ftoint k mode k.width false x).2)) (fun l => rfl) hp hr
  · exact vunary_lands (f := fun _ v l => (ps8To k (lane v 8 (p.toNat * laneCount k.width + l)), 0)) hp hr hl
  · exact vnarrowOp_lands (f := fun _ x => saturate w true (sext x (2 * w))) hp hr hl
  · exact vnarrowOp_lands (f := fun _ x => saturate w false (sext x (2 * w))) hp hr hl
  · exact vnarrowOp_lands (f := fun _ x => saturate w false x) hp hr hl
  · exact vnarrowOp_lands (f := fun _ x => (x % 2 ^ w, 0)) hp hr (lands_congr (fun old => maskedLanes_mod ..) hl)
  · exact vnarrowOp_lands (f := fun mode x => fconvert (if e = 2 then fp64 else fp32) k mode x) hp hr hl

/-! ## Mask words (13 R321) -/

theorem mreg_eq (r : BitVec 5) : mreg r = r.setWidth 3 := BitVec.ofNat_toNat ..

/-- The mask of the first lanes. -/
theorem ofNat_two_pow_min_sub_one (n : Nat) :
    BitVec.ofNat 64 (2 ^ min n 64 - 1) = if 64 ≤ n then BitVec.allOnes 64 else BitVec.twoPow 64 n - 1 := by
  split
  · rename_i h
    rw [Nat.min_eq_right h]
    rfl
  · rename_i h
    rw [Nat.min_eq_left (by omega), BitVec.ofNat_sub_ofNat_of_le _ _ (by decide) Nat.one_le_two_pow |>.symm, ofNat_two_pow]
    rfl

/-- Settles O23: each row of MASK writes the mask or the register that its reading gives. -/
theorem maskRowsWriteTheirResult : Obligations.MaskRowsWriteTheirResult := by
  unfold Obligations.MaskRowsWriteTheirResult
  intro s d a b rm x
  have hrm : ∀ r : BitVec 5, readM (me (started s)) (r.setWidth 3) = rm r := fun r => readM_started s _
  have hbinary : ∀ f, Passes (maskForm [d, a, b] []) s → maskBinary d a b f s = .next (wrote s (fun t => writeM t (d.setWidth 3) (f (rm a) (rm b)))) :=
    fun f hp => issue_wrote hp (by rw [exec_getM_bind, exec_getM_bind, mreg_eq, mreg_eq, mreg_eq, hrm, hrm]; rfl)
  simp only [exec_mnot, exec_mset, exec_mfirstn, exec_mget, exec_mpopc, exec_mfirst]
  refine ⟨fun hp => ?_, fun hp => (issue_wrote hp ?_ :), fun hp => ⟨(issue_wrote hp ?_ :), (issue_wrote hp ?_ :)⟩,
    fun hp => ⟨(issue_wrote hp ?_ :), (issue_wrote hp ?_ :), (issue_wrote hp ?_ :)⟩⟩
  · simp only [maskRows, List.forall_mem_cons, List.not_mem_nil, false_implies, implies_true, and_true, exec_mand, exec_mor, exec_mxor, exec_mandn]
    exact ⟨hbinary (fun x y => x &&& y) hp, hbinary (fun x y => x ||| y) hp, hbinary (fun x y => x ^^^ y) hp, hbinary (fun x y => x &&& ~~~y) hp⟩
  · rw [exec_getM_bind, mreg_eq, mreg_eq, hrm]
    rfl
  · rw [exec_getX_bind, readX_started, mreg_eq]
    rfl
  · rw [exec_getX_bind, readX_started, mreg_eq, ofNat_two_pow_min_sub_one]
    rfl
  · rw [exec_getM_bind, mreg_eq, hrm]
    rfl
  · rw [exec_getM_bind, mreg_eq, hrm, ofNat_popN]
    rfl
  · rw [exec_getM_bind, mreg_eq, hrm, ofNat_ctzN]
    rfl

end Sys2Proof.Machine
end

section
/-!
PROOFS. Accesses: the order of their checks, local memory, loads and stores, atomic operations, gathers and scatters, and the SYNC words
(14 R322 to R336, 12 R297).
-/
namespace Sys2Proof.Machine

/-! ## The checks of an access in their order (14 R322; 06 R157, R163) -/

section
variable {s : State} {k : Kind} {va : Word} {n : Nat}

theorem exec_canonical_ok (kind : Nat) (h : va.toNat < 2 ^ 57) (s : State) : canonical kind va s = .ok ((), s) := by
  rw [canonical, if_pos (canonical_of_lt h)]
  rfl

theorem exec_canonical_fault (kind : Nat) (h : 2 ^ 57 ≤ va.toNat) (s : State) : canonical kind va s = .error (.fault (faultInfo 0x05 0x02 kind va 0)) := by
  rw [canonical, if_neg (not_canonical_of_le h va.isLt)]
  rfl

theorem lt_of_inWindow (h : inWindow va.toNat = true) : va.toNat < 2 ^ 57 := ((inWindow_iff _).mp h).2

theorem lt_of_inOstler (h : inOstler va.toNat = true) : va.toNat < 2 ^ 57 :=
  Nat.lt_of_lt_of_le ((inOstler_iff _).mp h).2 (by decide)

theorem not_inWindow_of_inOstler (h : inOstler va.toNat = true) : inWindow va.toNat = false :=
  Bool.eq_false_iff.mpr fun hw => Nat.not_lt_of_le ((inWindow_iff _).mp hw).1 ((inOstler_iff _).mp h).2

theorem check_not_canonical (h : 2 ^ 57 ≤ va.toNat) : check k va n s = .error (.fault (faultInfo 0x05 0x02 k.kind va 0)) := by
  rw [check, exec_theAgent_bind, exec_theState_bind]
  exact exec_bind_error (exec_canonical_fault k.kind h s)

variable (hc : isCourier s.cur = false)
include hc

theorem check_misaligned (hv : va.toNat < 2 ^ 57) (h : va.toNat % n ≠ 0) : check k va n s = .error (.fault (faultInfo 0x03 0 k.kind va 0)) := by
  rw [check, exec_theAgent_bind, exec_theState_bind, exec_bind_ok (exec_canonical_ok k.kind hv s)]
  simp [hc, h]

theorem check_window (ha : va.toNat % n = 0) (hw : inWindow va.toNat = true) :
    check k va n s = if inSpillOrScratch (getTile s (localTile s)) (localOff va) n then .ok (.pool (localOff va), s)
      else .error (.fault (faultInfo 0x04 0x03 k.kind va 0)) := by
  rw [check, exec_theAgent_bind, exec_theState_bind, exec_bind_ok (exec_canonical_ok k.kind (lt_of_inWindow hw) s)]
  simp [hc, ha, hw, exec_ite]
  rfl

theorem check_ostler_refused (ha : va.toNat % n = 0) (ho : inOstler va.toNat = true) (hm : ostlerMode s s.cur = false) :
    check k va n s = .error (.fault (faultInfo 0x04 0x02 k.kind va 0)) := by
  rw [check, exec_theAgent_bind, exec_theState_bind, exec_bind_ok (exec_canonical_ok k.kind (lt_of_inOstler ho) s)]
  simp [hc, ha, ho, hm, not_inWindow_of_inOstler ho]

end

/-- Settles O11: each fault is that of the first check that fails. -/
theorem accessChecksInOrder : Obligations.AccessChecksInOrder := by
  unfold Obligations.AccessChecksInOrder
  intro s k va n hc _
  refine ⟨fun h => exec_bind_error (check_not_canonical h), fun hv h => exec_bind_error (check_misaligned hc hv h), fun ha hw hout => ?_,
    fun ha ho hm => exec_bind_error (check_ostler_refused hc ha ho hm)⟩
  refine exec_bind_error ((check_window hc ha hw).trans ?_)
  rw [if_neg (by rw [localTile, localOff, hout]; exact Bool.false_ne_true)]

/-! ## Local accesses -/

section
variable {s : State} {k : Kind} {va : Word} {n : Nat}

theorem check_local (h : Local s va n) : check k va n s = .ok (.pool (localOff va), s) := by
  rw [check_window h.strand h.aligned h.window, localTile, localOff, if_pos h.inside]

theorem exec_poolSound (kind : Nat) {tile off : Nat} (h : Sound s tile off n) : poolSound kind va tile off n s = .ok ((), s) := by
  rw [poolSound, exec_theState_bind, if_neg (by rw [h]; exact Bool.false_ne_true)]
  rfl

theorem getTile_started (s : State) (tile : Nat) : getTile (started s) tile = getTile s tile := getTile_modMe_other s _ tile

theorem local_started (h : Local s va n) : Local (started s) va n := by
  obtain ⟨hs, ha, hw, hi, hb⟩ := h
  refine ⟨by rwa [started_cur], ha, hw, ?_, ?_⟩
  · rwa [started_cur, getTile_started]
  · rwa [Sound, started_cur, getTile_started]

theorem localTile_started (s : State) : localTile (started s) = localTile s := congrArg agentTile (started_cur s)

theorem localBytes_started (s : State) (va : Word) (n : Nat) : localBytes (started s) va n = localBytes s va n := by
  rw [localBytes, localBytes, localTile_started, poolRead, poolRead, getTile_started]

end

/-! ## Loads and stores (14 R323 to R325, R332; 12 R297) -/

theorem accessSize_eq : ∀ w : BitVec 3, accessSize w = bytesOf w := by decide

theorem extendLoad_eq (w : BitVec 3) (bs : List Byte) : extendLoad w bs = loadedAs w (ofBytes bs) := by
  have hzero : ∀ w : BitVec 3, ¬ w = 0 → ¬ w = 1 → ¬ w = 2 → ¬ w.toNat ≤ 2 := by decide
  rw [extendLoad, loadedAs, sext_eq_toInt]
  by_cases h0 : w = 0
  · rw [h0]
    rfl
  by_cases h1 : w = 1
  · rw [h1]
    rfl
  by_cases h2 : w = 2
  · rw [h2]
    rfl
  rw [if_neg (hzero w h0 h1 h2), if_neg h0, if_neg h1, if_neg h2]

section
variable {s s1 s2 : State} {d a b : BitVec 5} {o : BitVec 13} {w sc : BitVec 3} {va : Word} {n : Nat} {bs : List Byte}

theorem loadInto_writes {k : Kind} (h : loadBytes k va (bytesOf w) s = .ok (bs, s1)) :
    loadInto k d w va s = .ok ((), modMe s1 (fun t => writeX t d (loadedAs w (ofBytes bs)))) := by
  rw [loadInto, accessSize_eq, exec_bind_ok h, extendLoad_eq]
  rfl

theorem immSigned_started (s : State) (o : BitVec 13) (n : Nat) :
    immSigned (me (started s)) 13 o.toNat n = extended (me s) 13 o * BitVec.ofNat 64 n := by
  rw [me_started]
  exact immSigned_eq_mul (me s) 13 o n

/-- Settles O8: a load writes what its access gives, extended by its width code (`loadInto_writes`). -/
theorem loadsWriteWhatTheyRead : Obligations.LoadsWriteWhatTheyRead := by
  unfold Obligations.LoadsWriteWhatTheyRead
  intro s s1 d a b o w sc bs
  refine ⟨fun hp h => issue_next hp ?_, fun hp h => issue_next hp ?_, fun hp h => issue_next hp ?_, fun hp h => issue_next hp ?_⟩
  · rw [exec_self_bind, exec_getX_bind, readX_started, immSigned_started, accessSize_eq]
    exact loadInto_writes h
  · rw [exec_getX_bind, readX_started, exec_getX_bind, readX_started, accessSize_eq]
    exact loadInto_writes h
  · rw [exec_getX_bind, readX_started]
    exact loadInto_writes h
  · rw [exec_self_bind, exec_getX_bind, readX_started, immSigned_started]
    exact exec_bind_ok h

theorem exec_waitAcks_ok (h : (me s).acks = 0) : waitAcks s = .ok ((), s) := by
  rw [waitAcks, exec_self_bind, h]
  rfl

theorem exec_waitAcks_wait (h : 0 < (me s).acks) : waitAcks s = .error (.wait s) := by
  rw [waitAcks, exec_self_bind, if_pos h]
  rfl

theorem acks_started (s : State) : (me (started s)).acks = (me s).acks := by rw [me_started]

theorem wideScope_false (h : sc.toNat < 4) : wideScope sc = false := decide_eq_false (Nat.not_le_of_lt h)

theorem wideScope_true (h : 4 ≤ sc.toNat) : wideScope sc = true := decide_eq_true h

/-- A wait on the acknowledgements that its condition lets pass. -/
theorem exec_waitAcks_if {α : Type} {c : Bool} {k : Unit → Exec α} (h : (me s).acks = 0 ∨ c = false) : (if c then waitAcks >>= k else k ()) s = k () s := by
  cases c with
  | false => rfl
  | true => exact exec_bind_ok (exec_waitAcks_ok (h.resolve_right (by decide)))

end

/-- Settles O9: a store leaves what the store of its bytes leaves; ST.REL waits for the acknowledgements first. -/
theorem storesStoreTheirData : Obligations.StoresStoreTheirData := by
  unfold Obligations.StoresStoreTheirData
  intro s s1 d a o w sc n
  refine ⟨fun hp h => issue_next hp ?_, fun hp h => issue_next hp ?_, fun hp => ⟨fun hsc hacks => ?_, fun hsc h => issue_next hp ?_⟩⟩
  · rw [exec_self_bind, exec_getX_bind, readX_started, exec_getX_bind, readX_started, immSigned_started]
    exact h
  · rw [exec_self_bind, exec_getX_bind, readX_started, exec_getV_bind, readV_started, immSigned_started]
    exact h
  · have hwide : wideScope sc = true := wideScope_true (by rcases hsc with rfl | rfl <;> decide)
    refine issue_wait hp ?_
    rw [hwide]
    exact exec_bind_error (exec_waitAcks_wait (by rwa [acks_started]))
  · have hpass : (me (started s)).acks = 0 ∨ wideScope sc = false := hsc.imp (by rw [acks_started]; exact id) wideScope_false
    refine (exec_waitAcks_if hpass).trans ?_
    beta_reduce
    rw [exec_getX_bind, readX_started, exec_getX_bind, readX_started]
    exact h

/-! ## Atomic operations on local memory (14 R328, R329) -/

/-- What an AMO of a number stores is what its row gives of words. -/
def AmoStores (op : Nat) (f : ∀ n : Nat, BitVec n → BitVec n → BitVec n → Option (BitVec n)) : Prop :=
  ∀ n, ∀ o b c : BitVec (8 * n), amoNew op n o.toNat b.toNat c.toNat = (f (8 * n) o b c).map BitVec.toNat

theorem localBytes_length (s : State) (va : Word) (n : Nat) : (localBytes s va n).length = n := by
  rw [localBytes, poolRead, length_memRead]

section
variable {s : State} {d a b : BitVec 5} {sc : BitVec 3} {r q z : BitVec 1} {va : Word} {n : Nat}

theorem rmwLocal_local {k : Kind} {f : Nat → Option Nat} (h : Local s va n) :
    rmwLocal k va n (.pool (localOff va)) f true s = .ok (ofBytes (localBytes s va n),
      match f (ofBytes (localBytes s va n)) with
      | some v => poolWrite s (localTile s) (localOff va) (leBytes n v)
      | none => s) := by
  rw [rmwLocal, exec_theAgent_bind, exec_theState_bind]
  dsimp only
  refine (exec_bind_ok (exec_poolSound k.kind h.sound)).trans ?_
  rw [localBytes, localTile]
  cases f (ofBytes (poolRead s (agentTile s.cur) (localOff va) n)) <;> rfl

theorem amo_local {op : Nat} {f : ∀ n : Nat, BitVec n → BitVec n → BitVec n → Option (BitVec n)} (hf : AmoStores op f)
    (hp : Passes (amoForm d a b sc r q) s) (hl : Local s (readX (me s) a) (if z = 1 then 8 else 4)) (hacks : (me s).acks = 0) :
    amo op d a b sc r q z s = .next (amoDid s (readX (me s) a) (if z = 1 then 8 else 4) d f (readX (me s) b) (readX (me s) d)) := by
  generalize hn : (if z = 1 then 8 else 4) = n at hl ⊢
  have hlt : ofBytes (localBytes s (readX (me s) a) n) < 2 ^ (8 * n) := by
    have h := ofBytes_lt (localBytes s (readX (me s) a) n)
    rwa [localBytes_length] at h
  have hold : (BitVec.ofNat (8 * n) (ofBytes (localBytes s (readX (me s) a) n))).toNat = ofBytes (localBytes s (readX (me s) a) n) :=
    BitVec.toNat_ofNat .. |>.trans (Nat.mod_eq_of_lt hlt)
  have hnew := hf n (BitVec.ofNat (8 * n) (ofBytes (localBytes s (readX (me s) a) n))) ((readX (me s) b).setWidth (8 * n))
    ((readX (me s) d).setWidth (8 * n))
  rw [hold, BitVec.toNat_setWidth, BitVec.toNat_setWidth] at hnew
  refine issue_next hp ?_
  rw [exec_self_bind]
  refine (exec_waitAcks_if (.inl (by rwa [acks_started]))).trans ?_
  dsimp only
  rw [exec_getX_bind, readX_started, hn, exec_getX_bind, readX_started, exec_getX_bind, readX_started]
  rw [exec_bind_ok (check_local (local_started hl)), exec_bind_ok (rmwLocal_local (local_started hl)), localBytes_started, localTile_started, hnew,
    ← hold, sext_toNat, hold, exec_setX]
  cases f (8 * n) (BitVec.ofNat (8 * n) (ofBytes (localBytes s (readX (me s) a) n))) ((readX (me s) b).setWidth (8 * n))
    ((readX (me s) d).setWidth (8 * n)) <;> rfl

end

/-- Settles O12: each row stores what its operation on words gives (`AmoStores`). -/
theorem localAmosReadModifyWrite : Obligations.LocalAmosReadModifyWrite := by
  unfold Obligations.LocalAmosReadModifyWrite
  intro s d a b sc r q z
  simp only [amoRows, List.forall_mem_cons, List.not_mem_nil, false_implies, implies_true, and_true, exec_amoadd, exec_amoand, exec_amoor, exec_amoxor,
    exec_amomin, exec_amomax, exec_amominu, exec_amomaxu, exec_amoswap, exec_amocas]
  refine ⟨amo_local ?_, amo_local ?_, amo_local ?_, amo_local ?_, amo_local ?_, amo_local ?_, amo_local ?_, amo_local ?_, amo_local ?_, amo_local ?_⟩ <;>
    intro n x y c
  · exact congrArg some (BitVec.toNat_add x y).symm
  · exact congrArg some (BitVec.toNat_and x y).symm
  · exact congrArg some (BitVec.toNat_or x y).symm
  · exact congrArg some (BitVec.toNat_xor x y).symm
  · simp only [amoNew, sext_toNat, BitVec.slt_iff_toInt_lt, ite_toNat]
    rfl
  · simp only [amoNew, sext_toNat, BitVec.slt_iff_toInt_lt, ite_toNat]
    rfl
  · refine congrArg some ?_
    simp only [BitVec.ult_iff_lt, BitVec.lt_def, ← ite_toNat]
    split <;> omega
  · refine congrArg some ?_
    simp only [BitVec.ult_iff_lt, BitVec.lt_def, ← ite_toNat]
    split <;> omega
  · rfl
  · by_cases h : x = c
    · simp [amoNew, h]
    · have hne : x.toNat ≠ c.toNat := fun e => h (BitVec.eq_of_toNat_eq e)
      simp [amoNew, h, hne]

/-! ## Gathers and scatters (14 R326, R327) -/

section
variable {s s0 s1 s2 : State} {d : BitVec 5} {w : Nat} {mask : Word} {addr : Nat → Word} {got : List (Nat × Nat)} {v : Vec}

theorem gather_writes (hcheck : eachLane (fun l => do let _ ← laneCheck kGather (w / 8) (addr l)) (lanesOf w mask) s = .ok ((), s0))
    (hload : gatherLanes (w / 8) addr (lanesOf w mask) s0 = .ok (got, s1)) :
    gather d w mask addr s = .ok ((), modMe s1 (fun t => writeV t d (maskedLanes w mask (readV t d) (fun l =>
      ((got.find? (fun x => x.1 == l)).map (·.2)).getD 0)))) := by
  rw [gather, exec_bind_ok hcheck, exec_bind_ok hload]
  rfl

theorem scatter_stores (hcheck : eachLane (fun l => prepareLane (w / 8) (addr l)) (lanesOf w mask) s = .ok ((), s1))
    (hstore : eachLane (scatterLane v w addr (lanesOf w mask)) (lanesOf w mask) s1 = .ok ((), s2)) :
    scatter v w mask addr s = .ok ((), s2) := by
  rw [scatter, exec_bind_ok hcheck, hstore]

end

/-- Settles O13: the three address forms of a gather (`gather_writes`) and of a scatter (`scatter_stores`). -/
theorem gathersAndScattersByLane : Obligations.GathersAndScattersByLane := by
  unfold Obligations.GathersAndScattersByLane
  intro s s0 s1 s2 d a b m e got w mask gathered scattered
  refine ⟨fun hp => ⟨fun hc hl => issue_next hp ?_, fun hc hl => issue_next hp ?_⟩, fun hp => ⟨fun hc hl => issue_next hp ?_, fun hc hl => issue_next hp ?_⟩,
    fun hp => ⟨fun hc hl => issue_next hp ?_, fun hc hl => issue_next hp ?_⟩⟩
  · rw [exec_getX_bind, readX_started, exec_getM_bind, readM_started]
    exact gather_writes hc hl
  · rw [exec_getX_bind, readX_started, exec_getV_bind, readV_started, exec_getM_bind, readM_started]
    exact scatter_stores hc hl
  · rw [exec_getX_bind, readX_started, exec_getX_bind, readX_started, exec_getM_bind, readM_started]
    exact gather_writes hc hl
  · rw [exec_getX_bind, readX_started, exec_getX_bind, readX_started, exec_getV_bind, readV_started, exec_getM_bind, readM_started]
    exact scatter_stores hc hl
  · rw [exec_getX_bind, readX_started, exec_getV_bind, readV_started, exec_getM_bind, readM_started]
    exact gather_writes hc hl
  · rw [exec_getX_bind, readX_started, exec_getV_bind, readV_started, exec_getV_bind, readV_started, exec_getM_bind, readM_started]
    exact scatter_stores hc hl

/-! ## The SYNC words (14 R333 to R336) -/

section
variable {s s1 s2 s3 : State} {d a b : BitVec 5} {w sc : BitVec 3} {k : BitVec 4} {va : Word} {line x : Nat} {e : StashEntry} {bs : List Byte}

theorem isFull_started (s : State) (tile line : Nat) : isFull (started s) tile line = isFull s tile line := by
  rw [isFull, isFull, getTile_started]

theorem flagLine_scratch (hc : isCourier s.cur = false) (hw : inWindow va.toNat = true)
    (hi : inScratch (getTile s (localTile s)) (localOff va) 1 = true) : flagLine va s = .ok (localOff va / 128, s) := by
  rw [flagLine, exec_theAgent_bind, exec_theState_bind, exec_bind_ok (exec_canonical_ok 1 (lt_of_inWindow hw) s)]
  rw [localTile, localOff] at hi
  simp [hc, hw, hi, localOff]

/-- FENCE waits for the acknowledgements where its scope is wide and it orders writes. -/
theorem fence_completes (hp : Passes (syncForm [] (badScope sc || decide (k = 0)) true) s) (h : sc.toNat < 4 ∨ k.toNat < 4 ∨ (me s).acks = 0) :
    execFence sc k s = .next (wrote s id) := by
  have hbody : (if wideScope sc && decide (4 ≤ k.toNat) then waitAcks else pure () : Exec Unit) (started s) = .ok ((), started s) := by
    rw [exec_ite]
    split
    · rename_i hc
      rw [Bool.and_eq_true, wideScope, decide_eq_true_eq, decide_eq_true_eq] at hc
      exact exec_waitAcks_ok (by rw [acks_started]; omega)
    · rfl
  rw [execFence, issue_next hp hbody, wrote, started_id]

theorem fence_waits (hp : Passes (syncForm [] (badScope sc || decide (k = 0)) true) s) (hsc : 4 ≤ sc.toNat) (hk : 4 ≤ k.toNat)
    (hacks : 0 < (me s).acks) : execFence sc k s = .next (waiting (started s)) := by
  refine issue_wait hp ?_
  rw [exec_ite, wideScope_true hsc, decide_eq_true hk]
  exact exec_waitAcks_wait (by rwa [acks_started])

theorem flag_updates (hf : flagLine (readX (me s) a) (started s) = .ok (line, s1)) (hp : Passes (syncForm [a] false true) s) :
    execStfe a s = .next (done (setFull s1 (localTile s) line)) ∧ execFeclr a s = .next (done (clearFull s1 (localTile s) line)) := by
  refine ⟨issue_next hp ?_, issue_next hp ?_⟩
  all_goals
    rw [exec_theAgent_bind, exec_getX_bind, readX_started, exec_bind_ok hf, started_cur]
    rfl

theorem ldsync_local (hp : Passes (syncForm [d, a] (decide (w = 7)) false) s) (hl : Local s (readX (me s) a) (bytesOf w))
    (hi : inScratch (getTile s (localTile s)) (localOff (readX (me s) a)) (bytesOf w) = true) :
    execLdsync d a w s = .next (if isFull s (localTile s) (localOff (readX (me s) a) / 128) then
      wrote s (fun t => writeX t d (loadedAs w (ofBytes (localBytes s (readX (me s) a) (bytesOf w))))) else waiting (started s)) := by
  have hs := local_started hl
  have hsound := exec_poolSound (va := readX (me s) a) 0 hs.sound
  cases hfull : isFull s (localTile s) (localOff (readX (me s) a) / 128) with
  | true =>
    refine issue_next hp ?_
    rw [exec_theAgent_bind, exec_getX_bind, readX_started, accessSize_eq]
    dsimp only
    rw [exec_bind_ok (check_local hs), exec_theState_bind]
    dsimp only
    rw [exec_ite, exec_ite, isFull_started, getTile_started, started_cur]
    rw [localTile] at hi hfull
    rw [hi, hfull, if_neg (by decide), if_neg (by decide)]
    rw [started_cur] at hsound
    refine (exec_bind_ok hsound).trans ?_
    rw [exec_setX, extendLoad_eq, ← localBytes_started, localBytes, localTile_started]
    rfl
  | false =>
    refine issue_wait hp ?_
    rw [exec_theAgent_bind, exec_getX_bind, readX_started, accessSize_eq]
    dsimp only
    rw [exec_bind_ok (check_local hs), exec_theState_bind]
    dsimp only
    rw [exec_ite, exec_ite, isFull_started, getTile_started, started_cur]
    rw [localTile] at hi hfull
    rw [hi, hfull, if_neg (by decide), if_pos (by decide)]
    rfl

theorem ldsync_stash (hp : Passes (syncForm [d, a] (decide (w = 7)) false) s)
    (hc : check kWait (readX (me s) a) (bytesOf w) (started s) = .ok (.global x, s1))
    (hline : stashOf s1 (localTile s) (agentCtx s1 s.cur) (readX (me s) a).toNat = some (line, e))
    (ht : stashTouch (readX (me s) a) false s1 = .ok ((), s2)) :
    (isFull s2 (localTile s) line = true → loadBytes kWait (readX (me s) a) (bytesOf w) s2 = .ok (bs, s3) →
      execLdsync d a w s = .next (done (modMe s3 (fun u => writeX u d (loadedAs w (ofBytes bs)))))) ∧
    (isFull s2 (localTile s) line = false → execLdsync d a w s = .next (waiting s2)) := by
  rw [localTile] at hline ⊢
  refine ⟨fun hfull hload => issue_next hp ?_, fun hfull => issue_wait hp ?_⟩
  all_goals
    rw [exec_theAgent_bind, exec_getX_bind, readX_started, accessSize_eq, started_cur]
    dsimp only
    rw [exec_bind_ok hc, exec_theState_bind]
    dsimp only
    rw [hline]
    dsimp only
    rw [exec_bind_ok ht, exec_theState_bind, exec_ite, hfull]
  · exact (if_neg (by decide)).trans (loadInto_writes hload)
  · exact if_pos (by decide)

theorem waitv_loads {c : BitVec 1} (hp : Passes (syncForm [d, a, b] (badScope sc || decide (w = 7)) false) s)
    (h : loadBytes kWait (readX (me s) a) (bytesOf w) (started s) = .ok (bs, s1)) :
    let holds := ofBytes bs = (readX (me s) b).toNat % 2 ^ (8 * bytesOf w)
    ((holds ↔ c = 1) → execWaitv d a b sc c w s = .next (done (modMe s1 (fun u => writeX u d (loadedAs w (ofBytes bs)))))) ∧
    (¬ (holds ↔ c = 1) → execWaitv d a b sc c w s = .next (waiting (started s))) := by
  refine ⟨fun hc => issue_next hp ?_, fun hc => issue_wait hp ?_⟩
  all_goals
    rw [exec_theState_bind, exec_getX_bind, readX_started, exec_getX_bind, readX_started, accessSize_eq]
    rw [exec_bind_ok h, exec_ite]
  · rw [if_pos (decide_eq_decide.mpr hc), extendLoad_eq]
    rfl
  · exact if_neg fun e => hc (decide_eq_decide.mp e)

end

/-- Settles O14: each word by what it does when its condition holds and when it does not. -/
theorem syncFormsAct : Obligations.SyncFormsAct := by
  unfold Obligations.SyncFormsAct
  intro s s1 s2 s3 d a b sc w k c bs line x e va n loads
  refine ⟨fun hp => ⟨fence_completes hp, fence_waits hp⟩, fun hp hf => flag_updates hf hp, fun hc hw hi => ?_, fun hp hl hi => ?_,
    fun hp hc _ hline ht => ldsync_stash hp hc hline ht, fun hp h => waitv_loads hp h⟩
  · have hi' : inScratch (getTile (started s) (localTile (started s))) (localOff va) 1 = true := by rwa [getTile_started, localTile_started]
    exact flagLine_scratch (by rwa [started_cur]) hw hi'
  · exact ⟨fun hfull => (ldsync_local hp hl hi).trans (by rw [hfull]; rfl), fun hfull => (ldsync_local hp hl hi).trans (by rw [hfull]; rfl)⟩

end Sys2Proof.Machine
end

section
/-!
PROOFS. The words on barrier objects (14 R337 to R340, 04 R111).
-/
namespace Sys2Proof.Machine

/-! ## What starting an instruction leaves alone -/

section
variable (s : State)

theorem getAgent_started_cur : getAgent (started s) s.cur = { me s with status := .ready } := by
  rw [← me_started, me, started_cur]

theorem agentRun_started : agentRun (started s) s.cur = agentRun s s.cur := by
  rw [agentRun, getAgent_started_cur]
  rfl

theorem agentCtx_started : agentCtx (started s) s.cur = agentCtx s s.cur := by
  rw [agentCtx, agentRun_started, started, getRun_modMe_other]
  rfl

theorem devnum_started : devnum (started s) = devnum s := by simp [devnum, started]

theorem ostlerTile_started (tile : Nat) : ostlerTile (started s) tile = ostlerTile s tile := by
  rw [ostlerTile, started, getCluster_modMe_other]
  rfl

theorem hasImage_started (tile : Nat) (run : BitVec 32) : hasImage (started s) tile run = hasImage s tile run := by
  rw [hasImage, getTile_started]
  rfl

theorem barRead_started (tile : Nat) (va : Word) : barRead (started s) tile va = barRead s tile va := by
  rw [barRead, barRead, poolRead, poolRead, getTile_started]

end

/-- What the end of a body makes of an instruction: it completes, takes its fault, or waits. -/
def outcomeOf (s : State) : Except Stop (Unit × State) → Out
  | .ok (_, s1) => .next (done s1)
  | .error (.fault f) => .next (takeFault s f)
  | .error (.failed f s1) => .next (takeFault (rolledBack s s1) f)
  | .error (.wait s1) => .next (waiting s1)

theorem issue_outcome {form : Strand → Form} {body : Exec Unit} {s : State} (hp : Passes form s) :
    issue form body s = outcomeOf s (body (started s)) := by
  cases h : body (started s) with
  | ok p => exact issue_next hp h
  | error x =>
    cases x with
    | fault f => exact issue_fault hp h
    | wait s1 => exact issue_wait hp h
    | failed f s1 =>
      have hbody : (do body; let t ← self; pure (t.pc + 4) : Exec Word) (modMe s (fun t => { t with status := .ready })) = .error (.failed f s1) :=
        exec_bind_error h
      rw [issue, issueTo]
      rw [hp]
      simp only [hbody, outcomeOf]

/-! ## The checks of a barrier's address and words (14 R338, R415; 06 R178) -/

section
variable {s : State} {va : Word}

theorem BarrierAt.started (h : BarrierAt s va) : BarrierAt (started s) va := by
  obtain ⟨ha, hw, hi⟩ := h
  exact ⟨ha, hw, by rwa [localTile_started, getTile_started]⟩

theorem barCheck_ok (h : BarrierAt s va) : barCheck va s = .ok ((), s) := by
  obtain ⟨ha, hw, hi⟩ := h
  rw [localTile, localOff] at hi
  rw [barCheck, exec_theAgent_bind, exec_theState_bind, exec_bind_ok (exec_canonical_ok 2 (lt_of_inWindow hw) s)]
  simp [ha, hw, hi]

theorem barCheck_not_canonical (h : 2 ^ 57 ≤ va.toNat) : barCheck va s = .error (.fault (faultInfo 0x05 0x02 2 va 0)) := by
  rw [barCheck, exec_theAgent_bind, exec_theState_bind]
  exact exec_bind_error (exec_canonical_fault 2 h s)

theorem barCheck_misaligned (hv : va.toNat < 2 ^ 57) (h : va.toNat % 16 ≠ 0) : barCheck va s = .error (.fault (faultInfo 0x03 0 2 va 0)) := by
  rw [barCheck, exec_theAgent_bind, exec_theState_bind, exec_bind_ok (exec_canonical_ok 2 hv s)]
  simp [h]

theorem barCheck_outside (hv : va.toNat < 2 ^ 57) (ha : va.toNat % 16 = 0) (h : inWindow va.toNat = false) :
    barCheck va s = .error (.fault (faultInfo 0x04 0x03 2 va 0)) := by
  rw [barCheck, exec_theAgent_bind, exec_theState_bind, exec_bind_ok (exec_canonical_ok 2 hv s)]
  simp [ha, h]

/-- A barrier's words are read, or their uncorrectable error is the fault. -/
theorem exec_barSound_bind {α : Type} (tile : Nat) (k : Unit → Exec α) (s : State) :
    (barSound va tile >>= k) s = if !wordsHit (getTile s tile).poolBad (localOff va) 16 then k () s
      else .error (.fault (faultInfo 0x08 0x03 2 va 0)) := by
  rw [barSound, poolSound, exec_seq, exec_theState_bind, exec_ite]
  rw [localOff]
  cases wordsHit (getTile s tile).poolBad (va.toNat - windowBase) 16 <;> rfl

end

/-! ## The barrier words (14 R337, R340) -/

theorem exec_barHere (va : Word) (u : BarUpdate) (s : State) : barHere va u (started s) = .ok ((), barUpdate (started s) (localTile s) va u) := by
  rw [localTile, ← started_cur s]
  rfl

section
variable {s : State} {d a b : BitVec 5}

theorem barInit_writes (hp : Passes (noCourier [a, b]) s) (h : BarrierAt s (readX (me s) a)) :
    execBarInit a b s = if 1 ≤ (readX (me s) b).toNat ∧ (readX (me s) b).toNat < 2 ^ 24 then
      .next (done (poolWrite (started s) (localTile s) (localOff (readX (me s) a))
        (leBytes 8 ((readX (me s) b).toNat * 2 ^ 32) ++ leBytes 8 (readX (me s) b).toNat)))
      else .next (takeFault s (faultInfo 0x01 0x01 0 0 0)) := by
  have hlimit : ((decide ((readX (me s) b).toNat = 0) || decide (2 ^ 24 ≤ (readX (me s) b).toNat)) = true) ↔
      ¬ (1 ≤ (readX (me s) b).toNat ∧ (readX (me s) b).toNat < 2 ^ 24) := by
    rw [Bool.or_eq_true, decide_eq_true_eq, decide_eq_true_eq]
    omega
  rw [execBarInit, issue_outcome hp, exec_theAgent_bind, exec_getX_bind, readX_started, exec_getX_bind, readX_started,
    exec_bind_ok (barCheck_ok h.started), started_cur, exec_ite]
  simp only [hlimit, ite_not]
  split <;> rfl

theorem barExpect_counts (hp : Passes (noCourier [a, b]) s) (h : BarrierAt s (readX (me s) a)) :
    execBarExpect a b s = if 2 ^ 31 ≤ (readX (me s) b).toNat then .next (takeFault s (faultInfo 0x01 0x01 0 0 0))
      else if !wordsHit (getTile s (localTile s)).poolBad (localOff (readX (me s) a)) 16 then
        .next (done (barUpdate (started s) (localTile s) (readX (me s) a) (.expect (readX (me s) b).toNat)))
      else .next (takeFault s (faultInfo 0x08 0x03 2 (readX (me s) a) 0)) := by
  rw [execBarExpect, issue_outcome hp, exec_getX_bind, readX_started, exec_getX_bind, readX_started, exec_bind_ok (barCheck_ok h.started), exec_ite]
  beta_reduce
  rw [exec_theAgent_bind, exec_barSound_bind, exec_barHere, getTile_started, started_cur, localTile]
  split
  · rfl
  · split <;> rfl

theorem barArriveC_reaches {target : Nat} (hp : Passes (noCourier [a, b]) s) (h : BarrierAt s (readX (me s) a))
    (ht : target = localTile s / 8 * 8 + bits (readX (me s) b).toNat 2 0) (ho : ostlerTile s target = false) :
    execBarArriveC a b s = if hasImage s target (agentRun s s.cur) = false then .next (takeFault s (faultInfo 0x0A 0x05 2 (readX (me s) a) (devnum s)))
      else if !wordsHit (getTile s target).poolBad (localOff (readX (me s) a)) 16 then .next (done (barUpdate (started s) target (readX (me s) a) .arrive))
      else .next (takeFault s (faultInfo 0x08 0x03 2 (readX (me s) a) 0)) := by
  subst ht
  rw [localTile] at ho ⊢
  rw [execBarArriveC, issue_outcome hp, exec_theAgent_bind, exec_getX_bind, readX_started, exec_getX_bind, readX_started,
    exec_bind_ok (barCheck_ok h.started), exec_theState_bind, started_cur, exec_ite, exec_ite, ostlerTile_started, ho, hasImage_started, agentRun_started,
    devnum_started, exec_barSound_bind, getTile_started]
  cases hasImage s (agentTile s.cur / 8 * 8 + bits (readX (me s) b).toNat 2 0) (agentRun s s.cur) with
  | false => rfl
  | true =>
    cases wordsHit (getTile s (agentTile s.cur / 8 * 8 + bits (readX (me s) b).toNat 2 0)).poolBad (localOff (readX (me s) a)) 16 <;> rfl

theorem barArrive_returns (hp : Passes (noCourier [d, a]) s) (h : BarrierAt s (readX (me s) a)) :
    execBarArrive d a s = if !wordsHit (getTile s (localTile s)).poolBad (localOff (readX (me s) a)) 16 then
        .next (done (modMe (barUpdate (started s) (localTile s) (readX (me s) a) .arrive)
          (fun t => writeX t d (BitVec.ofNat 64 (barRead s (localTile s) (readX (me s) a))))))
      else .next (takeFault s (faultInfo 0x08 0x03 2 (readX (me s) a) 0)) := by
  rw [execBarArrive, issue_outcome hp, exec_theAgent_bind, exec_getX_bind, readX_started, exec_bind_ok (barCheck_ok h.started), exec_barSound_bind,
    getTile_started, started_cur, exec_theState_bind, barRead_started, exec_bind_ok (exec_barHere _ _ s), localTile]
  split <;> rfl

/-! The words that only read: their barrier's words are read first. -/

theorem barTest_reads (hp : Passes (noCourier [d, a, b]) s) (h : BarrierAt s (readX (me s) a)) :
    execBarTest d a b s = if !wordsHit (getTile s (localTile s)).poolBad (localOff (readX (me s) a)) 16 then
        .next (done (modMe (started s) (fun t => writeX t d (BitVec.ofNat 64 (barRead s (localTile s) (readX (me s) a))))))
      else .next (takeFault s (faultInfo 0x08 0x03 2 (readX (me s) a) 0)) := by
  rw [execBarTest, issue_outcome hp, exec_theAgent_bind, exec_getX_bind, readX_started, exec_bind_ok (barCheck_ok h.started), exec_barSound_bind,
    getTile_started, started_cur, exec_theState_bind, barRead_started, localTile]
  split <;> rfl

theorem barWait_reads (hp : Passes (noCourier [d, a, b]) s) (h : BarrierAt s (readX (me s) a)) :
    execBarWait d a b s = if !wordsHit (getTile s (localTile s)).poolBad (localOff (readX (me s) a)) 16 then
        .next (if phaseChanged (barRead s (localTile s) (readX (me s) a)) (readX (me s) b) then
          done (modMe (started s) (fun t => writeX t d (BitVec.ofNat 64 (barRead s (localTile s) (readX (me s) a))))) else waiting (started s))
      else .next (takeFault s (faultInfo 0x08 0x03 2 (readX (me s) a) 0)) := by
  rw [execBarWait, issue_outcome hp, exec_theAgent_bind, exec_getX_bind, readX_started, exec_getX_bind, readX_started,
    exec_bind_ok (barCheck_ok h.started), exec_barSound_bind, getTile_started, started_cur, exec_theState_bind, barRead_started, exec_ite, localTile]
  split
  · split <;> rfl
  · rfl

theorem barWaitDoze_reads (hp : Passes (noCourier [d, a, b]) s) (h : BarrierAt s (readX (me s) a)) :
    execBarWaitDoze d a b s = if !wordsHit (getTile s (localTile s)).poolBad (localOff (readX (me s) a)) 16 then
        .next (match (me s).sysValue with
          | some v => wrote s (fun t => writeX t d v)
          | none =>
            let w := barRead s (localTile s) (readX (me s) a)
            if phaseChanged w (readX (me s) b) = false then
              waiting (gearCheck (modMe (started s) (fun t => { t with dozing := true, status := .stalled })) (localTile s))
            else if (getTile s (localTile s)).doze = false then done (modMe (started s) (fun t => writeX t d (BitVec.ofNat 64 w)))
            else waiting (gearCheck (modMe (started s) (fun t => { t with dozing := false, sysValue := some (BitVec.ofNat 64 w), status := .stalled }))
              (localTile s)))
      else .next (takeFault s (faultInfo 0x08 0x03 2 (readX (me s) a) 0)) := by
  rw [execBarWaitDoze, issue_outcome hp, exec_theAgent_bind, exec_getX_bind, readX_started, exec_getX_bind, readX_started,
    exec_bind_ok (barCheck_ok h.started), exec_barSound_bind, getTile_started, started_cur, exec_theState_bind, barRead_started, me_started, localTile]
  split
  · dsimp only
    cases (me s).sysValue with
    | some v => rfl
    | none =>
      dsimp only
      rw [exec_ite, exec_ite, getTile_started]
      cases phaseChanged (barRead s (agentTile s.cur) (readX (me s) a)) (readX (me s) b) with
      | false => rfl
      | true => cases (getTile s (agentTile s.cur)).doze <;> rfl
  · rfl

end

/-- Settles O33: the checks of a barrier's address come first, then the operand's, then the reading of its words. -/
theorem barrierFormsActOnTheirWord : Obligations.BarrierFormsActOnTheirWord := by
  unfold Obligations.BarrierFormsActOnTheirWord
  intro s d a b va y w read put old bad
  have hfault : ∀ {f}, barCheck va (started s) = .error (.fault f) → ∀ i ∈ [Instr.barInit a b, .barExpect a b, .barArriveC a b],
      Passes (noCourier [a, b]) s → exec i s = .next (takeFault s f) := by
    intro f h
    simp only [List.forall_mem_cons, List.not_mem_nil, false_implies, implies_true, and_true, exec_barInit, exec_barExpect, exec_barArriveC]
    refine ⟨fun hp => issue_fault hp ?_, fun hp => issue_fault hp ?_, fun hp => issue_fault hp ?_⟩
    · rw [exec_theAgent_bind, exec_getX_bind, readX_started, exec_getX_bind]
      exact exec_bind_error h
    · rw [exec_getX_bind, readX_started, exec_getX_bind]
      exact exec_bind_error h
    · rw [exec_theAgent_bind, exec_getX_bind, readX_started, exec_getX_bind]
      exact exec_bind_error h
  refine ⟨fun i hi hp => ⟨fun h => hfault (barCheck_not_canonical h) i hi hp, fun hv h => hfault (barCheck_misaligned hv h) i hi hp,
    fun hv ha h => hfault (barCheck_outside hv ha h) i hi hp⟩, fun h => ⟨fun hp => ⟨barInit_writes hp h, barExpect_counts hp h,
    fun target ht ho => barArriveC_reaches hp h ht ho⟩, fun hp => barArrive_returns hp h, fun hp hbad => ?_, fun hp hread => ?_⟩⟩
  · have hunread : (!wordsHit (getTile s (localTile s)).poolBad (localOff va) 16) = false := hbad
    simp only [List.forall_mem_cons, List.not_mem_nil, false_implies, implies_true, and_true, exec_barTest, exec_barWait, exec_barWaitDoze]
    exact ⟨(barTest_reads hp h).trans (if_neg (by rw [hunread]; exact Bool.false_ne_true)),
      (barWait_reads hp h).trans (if_neg (by rw [hunread]; exact Bool.false_ne_true)),
      (barWaitDoze_reads hp h).trans (if_neg (by rw [hunread]; exact Bool.false_ne_true))⟩
  · have hdoze := (barWaitDoze_reads hp h).trans (if_pos hread)
    refine ⟨(barTest_reads hp h).trans (if_pos hread), (barWait_reads hp h).trans (if_pos hread), fun v hv => ?_, fun hv hc hd => ?_, fun hv hc => ?_,
      fun hv hc hd => ?_⟩
    · exact hdoze.trans (by rw [hv])
    · refine hdoze.trans ?_
      rw [hv]
      exact congrArg _ ((if_neg (by rw [hc]; decide)).trans (if_pos hd))
    · refine hdoze.trans ?_
      rw [hv]
      exact congrArg _ (if_pos hc)
    · refine hdoze.trans ?_
      rw [hv]
      exact congrArg _ ((if_neg (by rw [hc]; decide)).trans (if_neg (by rw [hd]; decide)))

end Sys2Proof.Machine
end

section
/-!
PROOFS. Stash and cache control (14 R342 to R345).
-/
namespace Sys2Proof.Machine

section
variable {s s1 : State} {d a b : BitVec 5} {va len : Word}

theorem entryNumber_started (s : State) (n : Word) : entryNumber (started s) s.cur n = entryNumber s s.cur n := by
  rw [entryNumber, entryNumber, getTile_started, agentCtx_started]

theorem fillsOut_started (s : State) : fillsOut (started s) = fillsOut s := by
  funext tile e
  simp [fillsOut, started]

/-! ## STASH.MAP (14 R342) -/

/-- What a STASH.MAP whose range passed its checks does. -/
def stashMapped (s : State) (tile : Nat) (ctx : BitVec 32) (va len : Word) (d : BitVec 5) : State :=
  let mine := stashEntries (getTile s tile) ctx
  if mine.any (fun e => decide (e.base < va.toNat + len.toNat) && decide (va.toNat < e.base + e.length)) then modMe s (fun t => writeX t d (-2))
  else
    match (List.range 32).find? (fun k => !mine.any (fun e => e.number == k)), freeLines (getTile s tile) (len.toNat / 128) with
    | some k, some line => modMe (modTile s tile (fun t =>
        let other := fun (l : Nat) => !(decide (line ≤ l) && decide (l < line + len.toNat / 128))
        { t with
          stash := t.stash ++ [{ ctx := ctx, number := k, base := va.toNat, length := len.toNat, firstLine := line }]
          full := t.full.filter other
          stashFilled := t.stashFilled.filter other })) (fun t => writeX t d (BitVec.ofNat 64 k))
    | _, _ => modMe s (fun t => writeX t d (-1))

theorem stashMap_maps (hp : Passes (noCourier [d, a, b]) s) (h : stashRange (readX (me s) a) (readX (me s) b) (started s) = .ok ((), s1)) :
    execStashMap d a b s = .next (done (stashMapped s1 (localTile s) (agentCtx s1 s.cur) (readX (me s) a) (readX (me s) b) d)) := by
  refine issue_next hp ?_
  rw [exec_theAgent_bind, exec_getX_bind, readX_started, exec_getX_bind, readX_started, exec_bind_ok h, exec_theState_bind, started_cur, exec_ite, stashMapped,
    localTile]
  split
  · rfl
  · cases (List.range 32).find? (fun k => !(stashEntries (getTile s1 (agentTile s.cur)) (agentCtx s1 s.cur)).any (fun e => e.number == k)) <;>
      cases freeLines (getTile s1 (agentTile s.cur)) ((readX (me s) b).toNat / 128) <;> rfl

/-! ## STASH.UNMAP and STASH.FLUSH (14 R343) -/

theorem stashUnmap_unmaps (hp : Passes (noCourier [a]) s) :
    execStashUnmap a s = .next (match entryNumber s s.cur (readX (me s) a) with
      | some e => if fillsOut s (localTile s) e then waiting (started s) else done (unmapEntry (started s) (localTile s) e)
      | none => wrote s id) := by
  rw [execStashUnmap, issue_outcome hp, exec_theAgent_bind, exec_getX_bind, readX_started, exec_theState_bind, started_cur, entryNumber_started, localTile,
    wrote, started_id]
  cases entryNumber s s.cur (readX (me s) a) with
  | none => rfl
  | some e =>
    dsimp only
    rw [exec_ite, fillsOut_started]
    split <;> rfl

theorem stashFlush_flushes (hp : Passes (noCourier [a]) s) :
    execStashFlush a s = .next (match entryNumber s s.cur (readX (me s) a) with
      | some e => done (flushRange (started s) (agentCluster s.cur) e.base e.length)
      | none => wrote s id) := by
  rw [execStashFlush, issue_outcome hp, exec_theAgent_bind, exec_getX_bind, readX_started, exec_theState_bind, started_cur, entryNumber_started, wrote,
    started_id]
  cases entryNumber s s.cur (readX (me s) a) <;> rfl

/-! ## CACHE.RESIZE, PREF and CFLUSH (14 R344, R345) -/

/-- The boundary that a CACHE.RESIZE asks for. -/
def resizedTo (s : State) (a : BitVec 5) : Int := (getTile s (localTile s)).pbHi - 4 * (readX (me s) a).toInt

/-- The entries that a boundary cuts off. -/
def cutEntries (s : State) (hi : Nat) : List StashEntry :=
  (getTile s (localTile s)).stash.filter (fun e => decide (32 * hi < e.firstLine + e.length / 128))

theorem cacheResize_moves (hp : Passes (noCourier [d, a]) s) :
    execCacheResize d a s = .next (
      if resizedTo s a < (getTile s (localTile s)).pbMid ∨ 192 < resizedTo s a then
        done (modMe (started s) (fun t => writeX t d (BitVec.ofNat 64 (getTile s (localTile s)).pbHi)))
      else if (cutEntries s (resizedTo s a).toNat).any (fillsOut s (localTile s)) then waiting (started s)
      else done (modMe (modTile ((cutEntries s (resizedTo s a).toNat).foldl (fun u e => unmapEntry u (localTile s) e) (started s)) (localTile s)
        (fun t => { t with pbHi := (resizedTo s a).toNat })) (fun t => writeX t d (BitVec.ofNat 64 (resizedTo s a).toNat)))) := by
  rw [execCacheResize, issue_outcome hp, exec_theAgent_bind, exec_getX_bind, readX_started, exec_theState_bind, started_cur, getTile_started, exec_ite,
    exec_ite, fillsOut_started, resizedTo, cutEntries, localTile]
  simp only [Bool.or_eq_true, decide_eq_true_eq]
  split
  · rfl
  · split <;> rfl

theorem pref_keeps (hp : Passes (xForm [a]) s) : execPref a s = .next (wrote s id) := by
  rw [execPref, issue_next hp (exec_pure () _), wrote, started_id]

theorem cflush_window (hp : Passes (noCourier [a]) s) (hw : inWindow (readX (me s) a).toNat = true) : execCflush a s = .next (wrote s id) := by
  rw [execCflush, issue_outcome hp, exec_theAgent_bind, exec_getX_bind, readX_started, exec_theState_bind,
    exec_bind_ok (exec_canonical_ok 1 (lt_of_inWindow hw) _), exec_ite, if_pos (by rw [hw]; rfl), wrote, started_id]
  rfl

end

/-- Settles O35: each word by the lemma that says what it does in every case. -/
theorem stashAndCacheForms : Obligations.StashAndCacheForms := by
  unfold Obligations.StashAndCacheForms
  intro s s1 d a b
  dsimp only
  refine ⟨fun hp hr _ => ?_, fun hp => ⟨fun e he => ?_, fun he => ?_, fun hw => cflush_window hp hw⟩, fun hp => ⟨fun hout => ?_, fun hlo hhi hfill => ?_,
    fun hlo hhi hfill => ?_⟩, pref_keeps⟩
  · have hmap := stashMap_maps hp hr
    refine ⟨fun ho => hmap.trans ?_, fun ho hnone => hmap.trans ?_, fun k line ho hk hline => hmap.trans ?_⟩
    · exact congrArg (Host.Outcome.next ∘ done) (if_pos ho)
    · refine congrArg (Host.Outcome.next ∘ done) ((if_neg (ne_true_of_eq_false ho)).trans ?_)
      rcases hnone with h | h
      · rw [h]
      · rw [h]
        cases (List.range 32).find? (fun k => !(stashEntries (getTile s1 (localTile s)) (agentCtx s1 s.cur)).any (fun e => e.number == k)) <;> rfl
    · refine congrArg (Host.Outcome.next ∘ done) ((if_neg (ne_true_of_eq_false ho)).trans ?_)
      rw [hk, hline]
  · refine ⟨fun hf => ?_, fun hf => ?_, ?_⟩
    · exact (stashUnmap_unmaps hp).trans (by rw [he]; exact congrArg _ (if_neg (ne_true_of_eq_false hf)))
    · exact (stashUnmap_unmaps hp).trans (by rw [he]; exact congrArg _ (if_pos hf))
    · exact (stashFlush_flushes hp).trans (by rw [he])
  · exact ⟨(stashUnmap_unmaps hp).trans (by rw [he]), (stashFlush_flushes hp).trans (by rw [he])⟩
  · exact (cacheResize_moves hp).trans (congrArg _ (if_pos hout))
  · exact (cacheResize_moves hp).trans (congrArg _ ((if_neg (not_or.mpr ⟨not_lt.mpr hlo, not_lt.mpr hhi⟩)).trans (if_pos hfill)))
  · exact (cacheResize_moves hp).trans (congrArg _ ((if_neg (not_or.mpr ⟨not_lt.mpr hlo, not_lt.mpr hhi⟩)).trans
      (if_neg (ne_true_of_eq_false hfill))))

end Sys2Proof.Machine
end

section
/-!
PROOFS. What the depots, the caches and the links leave of a state while they serve an access: who issues, the coaches, the devices that are
gone and this device's number (06 R162 to R187, 03 R96).
-/
namespace Sys2Proof.Machine

/-- The part of a state that no access to memory changes. -/
def site (s : State) : Agent × List Coach × List Nat × Nat := (s.cur, s.coaches, s.ostler.gone, devnum s)

theorem site_foldl {α : Type} {f : State → α → State} (h : ∀ u a, site (f u a) = site u) (l : List α) (s : State) : site (l.foldl f s) = site s :=
  List.foldlRecOn l f (motive := fun u => site u = site s) rfl (fun u hu a _ => (h u a).trans hu)

theorem site_foldl_of_keeps {α β : Type} {f : State × β → α → State × β} (h : ∀ u a, site (f u a).1 = site u.1) (l : List α) (s : State × β) :
    site (l.foldl f s).1 = site s.1 :=
  List.foldlRecOn l f (motive := fun u => site u.1 = site s.1) rfl (fun u hu a _ => (h u a).trans hu)

/-! ## Updates of the state -/

section
variable (s : State)

@[simp] theorem site_later (l : List Instr) : site (later s l) = site s := rfl
@[simp] theorem site_soon (l : List Instr) : site (soon s l) = site s := rfl
@[simp] theorem site_modTile (k : Nat) (f : Tile → Tile) : site (modTile s k f) = site s := rfl
@[simp] theorem site_modCore (k : Nat) (f : CoreUnit → CoreUnit) : site (modCore s k f) = site s := rfl
@[simp] theorem site_modCluster (k : Nat) (f : Cluster → Cluster) : site (modCluster s k f) = site s := rfl
@[simp] theorem site_modRun (r : BitVec 32) (f : Run → Run) : site (modRun s r f) = site s := rfl
@[simp] theorem site_modCtx (c : BitVec 32) (f : Context → Context) : site (modCtx s c f) = site s := rfl
@[simp] theorem site_modDir (g : Nat) (f : DirEntry → DirEntry) : site (modDir s g f) = site s := rfl
@[simp] theorem site_modSector (g : Nat) (f : Sector → Sector) : site (modSector s g f) = site s := rfl
@[simp] theorem site_writeSector (g : Nat) (key : BitVec 8) (v : Vec) : site (writeSector s g key v) = site s := by
  simp only [site, writeSector, modSector, devnum]

@[simp] theorem site_setPort (p : Nat) (f : Port → Port) : site (setPort s p f) = site s := rfl
@[simp] theorem site_logRecord (r : Report) : site (logRecord s r) = site s := rfl
@[simp] theorem site_poolWrite (tile off : Nat) (bs : List Byte) : site (poolWrite s tile off bs) = site s := rfl
@[simp] theorem site_l2Write (c vline off : Nat) (bs : List Byte) (tag : BitVec 32) : site (l2Write s c vline off bs tag) = site s := rfl
@[simp] theorem site_dropLine (c g dev : Nat) : site (dropLine s c g dev) = site s := rfl
@[simp] theorem site_modAgent (a : Agent) (f : Strand → Strand) : site (modAgent s a f) = site s := by cases a <;> rfl
@[simp] theorem site_modMe (f : Strand → Strand) : site (modMe s f) = site s := site_modAgent s s.cur f

@[simp] theorem site_setFull (tile line : Nat) : site (setFull s tile line) = site s := by
  unfold setFull
  split
  · rfl
  · extract_lets s1
    split <;> rfl

@[simp] theorem site_recordRead (a : Agent) (va n : Nat) : site (recordRead s a va n) = site s := by
  unfold recordRead
  split
  · extract_lets sw
    split
    · exact site_modAgent ..
    · rfl
  · rfl

/-! ## Packets that leave -/

@[simp] theorem site_sendFlit (p cls off : Nat) (bs : List Byte) : site (sendFlit s p cls off bs) = site s := by
  unfold sendFlit
  extract_lets port
  split
  · unfold putFlit
    extract_lets
    split <;> rfl
  · rfl

@[simp] theorem site_noteSent (p : Nat) (pk : Packet) : site (noteSent s p pk) = site s := by
  unfold noteSent
  repeat' split
  all_goals rfl

@[simp] theorem site_sendFrom (p : Nat) (pk : Packet) : site (sendFrom s p pk) = site s := by
  unfold sendFrom
  extract_lets s1 cls
  exact (site_foldl_of_keeps (fun u _ => site_sendFlit u.1 _ _ _ _) _ (s1, true)).trans (site_noteSent _ p pk)

@[simp] theorem site_sendPacket (pk : Packet) : site (sendPacket s pk) = site s := by
  unfold sendPacket
  extract_lets dest live
  split
  · split
    · exact site_sendFrom ..
    · rfl
  · split
    · rfl
    · split
      · exact site_sendFrom ..
      · rfl

@[simp] theorem site_sendRequest (dev : Nat) (agent : Option Agent) (kind : ReqKind) (addr : Word) (ctx : BitVec 32) (op : Nat) (body : List Byte) :
    site (sendRequest s dev agent kind addr ctx op body).1 = site s := site_sendPacket ..

@[simp] theorem site_acknowledge (p : Packet) (reqWord : List Byte) (status sub code value : Nat) :
    site (acknowledge s p reqWord status sub code value) = site s := site_sendPacket ..

/-! ## The directory, the sectors and the waybills' maps -/

@[simp] theorem site_makeDerelict (g owner : Nat) : site (makeDerelict s g owner) = site s := by
  unfold makeDerelict
  extract_lets d s1 s2 s3 s4
  split
  · rfl
  · exact site_foldl (fun u p => site_acknowledge u ..) d.waiting s2

@[simp] theorem site_markRun (run : BitVec 32) (r : Run) (g : Nat) (tag : BitVec 32) : site (markRun s run r g tag) = site s := by
  unfold markRun
  split
  · rfl
  · refine site_foldl (fun u e => ?_) r.armed s
    repeat' split
    all_goals rfl

@[simp] theorem site_markMaps (g : Nat) (tag : BitVec 32) : site (markMaps s g tag) = site s := site_foldl (fun _ _ => site_markRun ..) s.runs s

@[simp] theorem site_writeBack (l : L2Line) : site (writeBack s l) = site s := by
  unfold writeBack
  extract_lets g s1
  split
  · rfl
  · have hs1 : site s1 = site s := site_writeSector ..
    rw [site_foldl (fun u tag => site_markMaps u g tag)]
    split
    · exact (site_modSector ..).trans hs1
    · exact hs1

@[simp] theorem site_evictLine (l : L2Line) : site (evictLine s l) = site s := by
  unfold evictLine
  extract_lets g s1
  have hs1 : site s1 = site s := (site_dropLine ..).trans (site_writeBack s l)
  split
  · exact (site_modDir ..).trans hs1
  · exact hs1

@[simp] theorem site_l2Scrub (c vline : Nat) : site (l2Scrub s c vline) = site s := by
  unfold l2Scrub
  split
  · rfl
  · split
    · rfl
    · exact site_evictLine ..

@[simp] theorem site_l2Fill (l : L2Line) : site (l2Fill s l) = site s := by
  unfold l2Fill
  extract_lets old s1 way s2
  have hs1 : site s1 = site s := site_foldl site_evictLine old s
  have hs2 : site s2 = site s := (site_foldl site_evictLine _ _).trans hs1
  split
  · exact hs1
  · exact hs2

/-! ## Services of the depots -/

/-- A depot's service that leaves the site, whatever its answer. -/
def ServesSite {α : Type} (s : State) (r : Served α) : Prop := site r.state = site s

theorem ServesSite.of_ok {α : Type} {s s1 : State} {v : α} (h : site s1 = site s) : ServesSite s (.ok v s1) := h
theorem ServesSite.of_bad {α : Type} {s s1 : State} {code sub : Nat} (h : site s1 = site s) : ServesSite s (.bad code sub s1 : Served α) := h
theorem ServesSite.of_busy {α : Type} {s s1 : State} (h : site s1 = site s) : ServesSite s (.busy s1 : Served α) := h
theorem ServesSite.after {α : Type} {s s1 : State} {r : Served α} (h1 : site s1 = site s) (h : ServesSite s1 r) : ServesSite s r := Eq.trans h h1

theorem servesSite_readSector (g : Nat) (key : BitVec 8) : ServesSite s (readSector s g key) := by
  unfold readSector
  extract_lets m s1
  have hs1 : site s1 = site s := by
    unfold s1
    split <;> rfl
  repeat' split
  · exact .of_bad rfl
  · exact .of_bad rfl
  · exact .of_bad rfl
  · exact .of_ok hs1
  · exact .of_bad hs1

theorem servesSite_snoopLocal (g c : Nat) : ServesSite s (snoopLocal s g c) := by
  unfold snoopLocal
  split
  · exact .of_busy rfl
  · split
    · exact .of_ok (site_writeBack ..)
    · exact .of_bad (site_makeDerelict ..)

theorem servesSite_settle (g : Nat) (keep : Option Nat) : ServesSite s (settle s g keep) := by
  unfold settle
  extract_lets d
  split
  · exact .of_bad rfl
  · split
    · exact .of_busy rfl
    · split
      · exact .of_busy (site_sendRequest ..)
      · split
        · split
          · split
            · exact .of_ok rfl
            · exact servesSite_snoopLocal ..
          · exact .of_ok rfl
        · exact .of_ok rfl

theorem servesSite_invalidate (g : Nat) (keep : Option Nat) : ServesSite s (invalidate s g keep) := by
  unfold invalidate
  extract_lets d s1 cl others s2
  split
  · exact .of_busy rfl
  · split
    · exact .of_ok rfl
    · exact .of_busy (site_foldl (fun u dev => site_sendRequest ..) others s1)

theorem servesSite_homeRead (g : Nat) (key : BitVec 8) : ServesSite s (homeRead s g key) := by
  unfold homeRead
  split
  · split
    · exact .of_bad rfl
    · split
      · exact .after rfl (servesSite_readSector ..)
      · exact .of_ok rfl
  · exact servesSite_readSector ..

theorem servesSite_nodeWait {α : Type} (g : Nat) : ServesSite s (nodeWait s g : Served α) := by
  have h := servesSite_settle s g none
  unfold nodeWait
  cases hs : settle s g none <;> rw [hs] at h <;> exact h

theorem servesSite_tableRead (pa n : Nat) : ServesSite s (tableRead s pa n) := by
  have h := servesSite_homeRead s (pa / 64) 0
  unfold tableRead
  extract_lets g
  split
  · exact servesSite_nodeWait ..
  · cases hs : homeRead s g 0 <;> rw [hs] at h <;> exact h

theorem servesSite_depotRead (g : Nat) (key : BitVec 8) : ServesSite s (depotRead s g key) := by
  have h := servesSite_settle s g none
  unfold depotRead
  cases hs : settle s g none with
  | ok _ s1 =>
    rw [hs] at h
    exact .after h (servesSite_readSector s1 g key)
  | bad _ _ s1 => rwa [hs] at h
  | busy s1 => rwa [hs] at h

/-- The granule is settled and its copies are invalidated before it is taken. -/
theorem servesSite_taken {g : Nat} {s1 s2 : State} {u v : Unit} (hs : settle s g none = .ok u s1) (hi : invalidate s1 g none = .ok v s2) :
    site s2 = site s := by
  have hsettle := servesSite_settle s g none
  have hinv := servesSite_invalidate s1 g none
  rw [hs] at hsettle
  rw [hi] at hinv
  exact hinv.trans hsettle

theorem servesSite_depotApply (g : Nat) (key : BitVec 8) (mask : Nat) (f : Vec → Vec) : ServesSite s (depotApply s g key mask f) := by
  have hsettle := servesSite_settle s g none
  unfold depotApply
  cases hs : settle s g none with
  | bad _ _ s1 => rwa [hs] at hsettle
  | busy s1 => rwa [hs] at hsettle
  | ok _ s1 =>
    rw [hs] at hsettle
    have hinv := servesSite_invalidate s1 g none
    dsimp only
    cases hi : invalidate s1 g none with
    | bad _ _ s2 =>
      rw [hi] at hinv
      exact .after hsettle hinv
    | busy s2 =>
      rw [hi] at hinv
      exact .after hsettle hinv
    | ok _ s2 =>
      have htaken := servesSite_taken s hs hi
      have hread := servesSite_readSector s2 g key
      dsimp only
      split
      · exact .of_ok ((site_writeSector ..).trans htaken)
      · cases hr : readSector s2 g key <;> rw [hr] at hread
        · exact .of_ok ((site_writeSector ..).trans (ServesSite.after htaken hread))
        · exact .after htaken hread
        · exact .after htaken hread

theorem servesSite_depotWrite (g : Nat) (key : BitVec 8) (v : Vec) (mask : Nat) (tag : BitVec 32) : ServesSite s (depotWrite s g key v mask tag) := by
  unfold depotWrite
  split
  · next u s1 hs =>
    have h : ServesSite s (.ok u s1) := hs ▸ servesSite_depotApply s g key mask _
    exact .of_ok ((site_markMaps ..).trans h)
  · exact servesSite_depotApply ..

theorem servesSite_clusterFill (c vline g : Nat) (key : BitVec 8) : ServesSite s (clusterFill s c vline g key) := by
  have h := servesSite_depotRead s g key
  unfold clusterFill
  cases hs : depotRead s g key <;> rw [hs] at h
  · exact .of_ok ((site_modDir ..).trans ((site_l2Fill ..).trans h))
  · exact h
  · exact h

theorem servesSite_own (c vline g : Nat) (key : BitVec 8) (whole : Bool) (tag : BitVec 32) :
    ServesSite s (clusterOwn.own c vline g key whole tag s) := by
  have hsettle := servesSite_settle s g none
  unfold clusterOwn.own
  cases hs : settle s g none with
  | bad _ _ s1 => rwa [hs] at hsettle
  | busy s1 => rwa [hs] at hsettle
  | ok _ s1 =>
    rw [hs] at hsettle
    have hinv := servesSite_invalidate s1 g none
    dsimp only
    cases hi : invalidate s1 g none with
    | bad _ _ s2 =>
      rw [hi] at hinv
      exact .after hsettle hinv
    | busy s2 =>
      rw [hi] at hinv
      exact .after hsettle hinv
    | ok _ s2 =>
      have htaken := servesSite_taken s hs hi
      have hfill : ∀ (u : State) (l : L2Line) (f : DirEntry → DirEntry), site u = site s →
          ServesSite s (.ok () (markMaps (modDir (l2Fill u l) g f) g tag)) := fun u l f hu =>
        .of_ok ((site_markMaps ..).trans ((site_modDir ..).trans ((site_l2Fill ..).trans hu)))
      have hread := servesSite_readSector s2 g key
      dsimp only
      split
      · exact hfill _ _ _ htaken
      · cases hr : readSector s2 g key <;> rw [hr] at hread
        · exact hfill _ _ _ (ServesSite.after htaken hread)
        · exact .after htaken hread
        · exact .after htaken hread

theorem servesSite_clusterOwn (c vline g : Nat) (key : BitVec 8) (whole : Bool) (tag : BitVec 32) :
    ServesSite s (clusterOwn s c vline g key whole tag) := by
  unfold clusterOwn
  split
  · split
    · exact .of_ok rfl
    · exact servesSite_own ..
  · exact servesSite_own ..

end

end Sys2Proof.Machine
end

section
/-!
PROOFS. Executions that leave who issues, the coaches, the devices that are gone and this device's number (06 R162 to R187, 14 R346).
-/
namespace Sys2Proof.Machine

/-- An execution that leaves the site when it ends with a value. -/
structure KeepsSite {α : Type} (e : Exec α) : Prop where
  site_eq : ∀ s v s1, e s = .ok (v, s1) → site s1 = site s

section
variable {α β : Type}

theorem keepsSite_pure (a : α) : KeepsSite (pure a : Exec α) := ⟨fun s v s1 h => by
  obtain ⟨-, rfl⟩ : a = v ∧ s = s1 := by simpa using h
  rfl⟩

theorem keepsSite_bind {e : Exec α} {k : α → Exec β} (he : KeepsSite e) (hk : ∀ a, KeepsSite (k a)) : KeepsSite (e >>= k) := by
  refine ⟨fun s v s2 h => ?_⟩
  rw [exec_seq] at h
  cases hes : e s with
  | ok p =>
    rw [hes] at h
    exact ((hk p.1).site_eq p.2 v s2 h).trans (he.site_eq s p.1 p.2 hes)
  | error x =>
    rw [hes] at h
    contradiction

theorem keepsSite_theState_bind {k : State → Exec β} (hk : ∀ s, KeepsSite (k s)) : KeepsSite (theState >>= k) := ⟨fun s => (hk s).site_eq s⟩
theorem keepsSite_theAgent_bind {k : Agent → Exec β} (hk : ∀ a, KeepsSite (k a)) : KeepsSite (theAgent >>= k) := ⟨fun s => (hk s.cur).site_eq s⟩

/-- An execution that never ends with a value. -/
theorem keepsSite_of_error {e : Exec α} (h : ∀ s, ∃ x, e s = .error x) : KeepsSite e := ⟨fun s v s1 hok => by
  obtain ⟨x, hx⟩ := h s
  rw [hx] at hok
  contradiction⟩

theorem keepsSite_raise (code sub kind : Nat) (addr : Word) (entry : Nat) : KeepsSite (raise code sub kind addr entry : Exec α) :=
  keepsSite_of_error fun _ => ⟨_, rfl⟩
theorem keepsSite_stall : KeepsSite (stall : Exec α) := keepsSite_of_error fun _ => ⟨_, rfl⟩
theorem keepsSite_waitIn (s : State) : KeepsSite (waitIn s : Exec α) := keepsSite_of_error fun _ => ⟨_, rfl⟩
theorem keepsSite_failIn (code sub kind : Nat) (va : Word) (entry : Nat) (s : State) : KeepsSite (failIn code sub kind va entry s : Exec α) :=
  keepsSite_of_error fun _ => ⟨_, rfl⟩

theorem keepsSite_update {f : State → State} (hf : ∀ s, site (f s) = site s) : KeepsSite (update f) := ⟨fun s v s1 h => by
  obtain rfl : f s = s1 := by simpa using h
  exact hf s⟩

theorem keepsSite_setSelf (f : Strand → Strand) : KeepsSite (setSelf f) := keepsSite_update fun s => site_modMe s f

theorem keepsSite_served (kind : Nat) (addr : Word) {f : State → Served α} (hf : ∀ s, ServesSite s (f s)) : KeepsSite (served kind addr f) := by
  refine ⟨fun s v s1 h => ?_⟩
  have hfs := hf s
  rw [served] at h
  cases hr : f s <;> rw [hr] at h hfs
  · obtain ⟨-, rfl⟩ := Prod.mk.inj (Except.ok.inj h)
    exact hfs
  · contradiction
  · contradiction

/-- A check that raises a fault, and the work after it. -/
theorem keepsSite_guard {c : Prop} [Decidable c] {code sub kind : Nat} {addr : Word} {entry : Nat} {j : α → Exec β} {e : Exec β} (he : KeepsSite e) :
    KeepsSite (if c then raise code sub kind addr entry >>= j else e) := by
  split
  · exact keepsSite_of_error fun _ => ⟨_, rfl⟩
  · exact he

end

/-! ## Accesses -/

section
variable (s : State)

theorem servesSite_searchGrants (pdom : BitVec 16) (base i count va n : Nat) : ServesSite s (searchGrants s pdom base i count va n) := by
  induction count generalizing s i with
  | zero => exact .of_ok rfl
  | succ k ih =>
    have h := servesSite_tableRead s (base + 16 * i) 16
    unfold searchGrants
    cases hs : tableRead s (base + 16 * i) 16 with
    | bad _ _ s1 => rwa [hs] at h
    | busy s1 => rwa [hs] at h
    | ok bs s1 =>
      rw [hs] at h
      dsimp only
      split
      · split
        · exact .of_ok h
        · exact .after h (ih s1 (i + 1))
      · exact .after h (ih s1 (i + 1))

theorem servesSite_plbLookup (core : Nat) (ctx : BitVec 32) (va n : Nat) : ServesSite s (plbLookup s core ctx va n) := by
  unfold plbLookup
  extract_lets pdom
  split
  · exact .of_ok rfl
  · have h := servesSite_searchGrants s pdom (grantList s ctx).1 0 (grantList s ctx).2 va n
    dsimp only
    split
    · next hs => rw [hs] at h; exact .of_ok h
    · exact h

theorem servesSite_deepProbe (va : Nat) (zs : List Nat) : ServesSite s (deepProbe s va zs) := by
  induction zs generalizing s with
  | nil => exact .of_ok rfl
  | cons z rest ih =>
    have hlow := servesSite_tableRead s (deepLine s va z) 64
    unfold deepProbe
    cases hl : tableRead s (deepLine s va z) 64 with
    | bad _ _ s1 => rwa [hl] at hlow
    | busy s1 => rwa [hl] at hlow
    | ok a s1 =>
      rw [hl] at hlow
      have hhigh := servesSite_tableRead s1 (deepLine s va z + 64) 64
      dsimp only
      cases hh : tableRead s1 (deepLine s va z + 64) 64 with
      | bad _ _ s2 => rw [hh] at hhigh; exact .after hlow hhigh
      | busy s2 => rw [hh] at hhigh; exact .after hlow hhigh
      | ok b s2 =>
        rw [hh] at hhigh
        have hboth : site s2 = site s := ServesSite.after hlow hhigh
        dsimp only
        split
        · exact .of_ok hboth
        · exact .after hboth (ih s2)

theorem servesSite_deepFind (va : Nat) : ServesSite s (deepFind s va) := by
  unfold deepFind
  split
  · exact servesSite_deepProbe ..
  · exact .of_ok rfl

@[simp] theorem site_tlbInsert (c va size pte : Nat) : site (tlbInsert s c va size pte) = site s := by
  unfold tlbInsert
  extract_lets dev g e
  split <;> rfl

@[simp] theorem site_physWriteKey (pa : Nat) (key : BitVec 8) (bs : List Byte) : site (physWriteKey s pa key bs) = site s := by
  have hpoke : ∀ (u : State) (pa : Nat) (b : Byte), site (physPoke u pa b) = site u := fun u pa b => by
    simp only [site, physPoke, devnum]
  rw [physWriteKey, site_foldl fun u g => site_modSector u g _]
  exact site_foldl (f := fun u (e : Nat × Byte) => physPoke u (pa + e.1) e.2) (fun u e => hpoke u (pa + e.1) e.2) _ s

theorem site_deepGens (gens : SMap (Nat × BitVec 16)) : site { s with ostler := { s.ostler with deepGens := gens } } = site s := rfl

@[simp] theorem site_deepInsert (va size pte : Nat) : site (deepInsert s va size pte) = site s := by
  unfold deepInsert
  split
  · rfl
  · extract_lets z line w tag s1 gens
    have hs1 : site s1 = site s := site_physWriteKey ..
    exact (site_deepGens s1 gens).trans hs1

@[simp] theorem site_nodeNote (g : Nat) : site (nodeNote s g) = site s := by
  have h := servesSite_homeRead s g 0
  unfold nodeNote
  cases hs : homeRead s g 0 <;> rw [hs] at h <;> exact h

@[simp] theorem site_walkNotes (va node : Nat) (levels : List (Nat × Nat)) : site (walkNotes s va node levels) = site s := by
  induction levels generalizing s node with
  | nil => rfl
  | cons level rest ih =>
    unfold walkNotes
    extract_lets ea
    split
    · rfl
    · split
      · exact site_nodeNote ..
      · exact (ih ..).trans (site_nodeNote ..)

end

section
variable {α : Type}

theorem keepsSite_spanRights (kind need : Nat) (va : Word) (n : Nat) : KeepsSite (spanRights kind need va n) := by
  refine keepsSite_theAgent_bind fun a => keepsSite_bind (keepsSite_served _ _ fun s => servesSite_plbLookup ..) fun r => ?_
  grind [keepsSite_raise, keepsSite_pure]

theorem keepsSite_windowForm (k : Kind) (va : Word) (n : Nat) : KeepsSite (windowForm k va n) := by
  grind [windowForm, keepsSite_raise, keepsSite_pure]

theorem keepsSite_canonical (kind : Nat) (va : Word) : KeepsSite (canonical kind va) := by
  grind [canonical, keepsSite_raise, keepsSite_pure]

theorem keepsSite_check (k : Kind) (va : Word) (n : Nat) : KeepsSite (check k va n) := by
  refine keepsSite_theAgent_bind fun a => keepsSite_theState_bind fun s => keepsSite_bind (keepsSite_canonical ..) fun _ =>
    keepsSite_guard (keepsSite_guard ?_)
  split
  · grind [keepsSite_pure, keepsSite_raise]
  · split
    · grind [keepsSite_bind, keepsSite_windowForm, keepsSite_pure, keepsSite_raise]
    · grind [keepsSite_bind, keepsSite_spanRights, keepsSite_theState_bind, keepsSite_pure, keepsSite_raise]

theorem keepsSite_leafOf (kind : Nat) (va : Word) : KeepsSite (leafOf kind va) := by
  refine keepsSite_theAgent_bind fun a => keepsSite_theState_bind fun s0 => ?_
  dsimp only
  split
  · exact keepsSite_pure _
  · refine keepsSite_bind (keepsSite_served _ _ fun s => servesSite_deepFind ..) fun found => ?_
    split
    · exact keepsSite_bind (keepsSite_update fun s => site_tlbInsert ..) fun _ => keepsSite_pure _
    · refine keepsSite_theState_bind fun s => ?_
      split
      · exact keepsSite_waitIn s
      · cases walk s va.toNat with
        | ok dev pa key size pte =>
          exact keepsSite_bind (keepsSite_update fun s => (site_tlbInsert ..).trans ((site_deepInsert ..).trans (site_walkNotes ..))) fun _ =>
            keepsSite_bind (keepsSite_setSelf _) fun _ => keepsSite_pure _
        | fault code sub e => exact keepsSite_failIn ..
        | mig e ea =>
          simp only
          split
          · exact keepsSite_waitIn _
          · exact keepsSite_failIn ..
        | bad g => exact keepsSite_failIn ..
        | busy g => exact keepsSite_served _ _ fun s => servesSite_nodeWait s _

theorem keepsSite_translate (kind : Nat) (va : Word) : KeepsSite (translate kind va) := by
  grind [translate, keepsSite_bind, keepsSite_leafOf, keepsSite_theState_bind, keepsSite_raise, keepsSite_pure]

theorem keepsSite_noteRead (va : Word) (n : Nat) : KeepsSite (noteRead va n) := keepsSite_update fun s => site_recordRead s s.cur _ _

theorem keepsSite_granule (kind : Nat) (va : Word) (acq : Bool) : KeepsSite (granule kind va acq) := by
  refine keepsSite_theAgent_bind fun a => keepsSite_bind (keepsSite_update fun s => site_l2Scrub s _ _) fun _ => keepsSite_theState_bind fun _ => ?_
  dsimp only
  split
  · grind [keepsSite_pure, keepsSite_raise]
  · refine keepsSite_bind (keepsSite_translate ..) fun p => keepsSite_theState_bind fun s => ?_
    split
    · exact keepsSite_served _ _ fun s => servesSite_clusterFill s _ _ _ _
    · grind [keepsSite_raise, keepsSite_stall, keepsSite_waitIn]

theorem keepsSite_stashTouch (va : Word) (acq : Bool) : KeepsSite (stashTouch va acq) := by
  refine keepsSite_theAgent_bind fun a => keepsSite_theState_bind fun s => ?_
  split
  · exact keepsSite_pure _
  · split
    · exact keepsSite_pure _
    · exact keepsSite_bind (keepsSite_spanRights ..) fun _ => keepsSite_bind (keepsSite_granule ..) fun _ => keepsSite_bind (keepsSite_granule ..) fun _ =>
        keepsSite_bind (keepsSite_noteRead ..) fun _ => keepsSite_update fun s => (site_setFull ..).trans (site_modTile ..)

theorem keepsSite_depotPlace (kind : Nat) (va : Word) : KeepsSite (depotPlace kind va) := by
  grind [depotPlace, keepsSite_bind, keepsSite_theAgent_bind, keepsSite_theState_bind, keepsSite_translate, keepsSite_pure]

theorem keepsSite_homeOf (k : Kind) (va : Word) : KeepsSite (homeOf k va) := by
  grind [homeOf, keepsSite_bind, keepsSite_theAgent_bind, keepsSite_theState_bind, keepsSite_translate, keepsSite_pure]

theorem keepsSite_poolSound (kind : Nat) (va : Word) (tile off n : Nat) : KeepsSite (poolSound kind va tile off n) := by
  grind [poolSound, keepsSite_theState_bind, keepsSite_raise, keepsSite_pure]

theorem keepsSite_rmwLocal (k : Kind) (va : Word) (n : Nat) (t : Target) (f : Nat → Option Nat) (recorded : Bool) :
    KeepsSite (rmwLocal k va n t f recorded) := by
  refine keepsSite_theAgent_bind fun a => keepsSite_theState_bind fun s => ?_
  cases t with
  | pool off => grind [keepsSite_bind, keepsSite_poolSound, keepsSite_update, keepsSite_pure, !site_poolWrite]
  | direct pa => grind [keepsSite_bind, keepsSite_served, keepsSite_pure, !servesSite_tableRead, !servesSite_depotWrite]
  | _ =>
    refine keepsSite_bind (keepsSite_depotPlace ..) fun place => ?_
    split
    · exact keepsSite_raise ..
    · refine keepsSite_bind (keepsSite_stashTouch ..) fun _ => keepsSite_bind (keepsSite_update fun s => site_l2Scrub s _ _) fun _ =>
        keepsSite_theState_bind fun s => keepsSite_bind ?_ fun home => keepsSite_theState_bind fun s => keepsSite_guard
          (keepsSite_bind (keepsSite_served _ _ fun s => servesSite_clusterOwn s _ _ _ _ _ _) fun _ => keepsSite_bind (keepsSite_granule ..) fun v => ?_)
      · grind [keepsSite_raise, keepsSite_pure, keepsSite_translate]
      · grind [keepsSite_bind, keepsSite_noteRead, keepsSite_update, keepsSite_pure, !site_l2Write]

theorem keepsSite_carriageCheck (va : Word) : KeepsSite (carriageCheck va) := by
  refine keepsSite_theAgent_bind fun a => keepsSite_bind (keepsSite_check ..) fun t => keepsSite_theState_bind fun s => ?_
  cases t with
  | global rights => grind [keepsSite_bind, keepsSite_depotPlace, keepsSite_raise, keepsSite_pure]
  | _ => exact keepsSite_raise ..

theorem keepsSite_flagLoad (va : Word) : KeepsSite (flagLoad va) := by
  grind [flagLoad, keepsSite_bind, keepsSite_homeOf, keepsSite_theState_bind, keepsSite_stashTouch, keepsSite_granule, keepsSite_raise, keepsSite_pure]

theorem keepsSite_flagUpdate (va : Word) (target : Target) (f : Nat → Option Nat) : KeepsSite (flagUpdate va target f) := by
  grind [flagUpdate, keepsSite_bind, keepsSite_flagLoad, keepsSite_rmwLocal, keepsSite_pure]

end

end Sys2Proof.Machine
end

section
/-!
PROOFS. Carriages: the words at their flag word, their fetches and their eviction (14 R346 to R348, 03 R95 to R99).
-/
namespace Sys2Proof.Machine

/-! ## CTEST, CREL and CWAIT (14 R347, R348) -/

section
variable {s s1 s2 : State} {d a : BitVec 5} {target : Target} {i j w : Nat}

theorem ctest_reads (hp : Passes (noCourier [d, a]) s) (hf : FlagAt s (readX (me s) a) target i j s1)
    (hu : flagUpdate (readX (me s) a) target (fun _ => none) s1 = .ok (w, s2)) :
    execCtest d a s = .next (done (modMe s2 (fun t => writeX t d (BitVec.ofNat 64 w)))) := by
  refine issue_next hp ?_
  rw [exec_getX_bind, readX_started, exec_bind_ok hf]
  dsimp only
  rw [exec_bind_ok hu]
  rfl

theorem crel_gives_back (hp : Passes (noCourier [a]) s) (hf : FlagAt s (readX (me s) a) target i j s1)
    (hu : flagUpdate (readX (me s) a) target (fun w => if flagState w = 2 ∧ 0 < flagRiders w then some (w - 2 ^ 40) else none) s1 = .ok (w, s2)) :
    execCrel a s = .next (if flagState w = 2 ∧ 0 < flagRiders w then done s2 else takeFault s (faultInfo 0x13 0 2 (readX (me s) a) 0)) := by
  have hstep : (fun w => if flagState w = 2 && decide (0 < flagRiders w) then some (w - 2 ^ 40) else none) =
      fun w => if flagState w = 2 ∧ 0 < flagRiders w then some (w - 2 ^ 40) else none := by
    funext w
    simp only [Bool.and_eq_true, decide_eq_true_eq]
  rw [execCrel, issue_outcome hp, exec_getX_bind, readX_started, exec_bind_ok hf]
  dsimp only
  rw [hstep, exec_bind_ok hu, exec_ite]
  simp only [Bool.and_eq_true, decide_eq_true_eq]
  split <;> rfl

/-- The state in which a CWAIT has taken a rider: the carriage's bytes are recorded as read, its last CWAIT is now, and X[d] is 0. -/
def ridden (s : State) (i j : Nat) (d : BitVec 5) : State :=
  let s1 := match ((s.coaches[i]?).map (fun c => c.carriages)).bind (fun cs => cs[j]?) with
    | some k => recordRead s s.cur (BitVec.ofNat 64 k.devAddr).toNat k.length
    | none => s
  modMe (modCarriage s1 i j (fun k => { k with lastWait := s1.now })) (fun t => writeX t d 0)

/-- What a CWAIT makes of a flag word: it takes a rider, asks for the fetch, or stores nothing. -/
def riderStep (auto asked : Bool) (w : Nat) : Option Nat :=
  if flagState w = 2 ∧ flagRiders w < 2 ^ 14 - 1 then some (w + 2 ^ 40)
  else if auto = true ∧ flagState w = 0 ∧ asked = false then some (setBits w 63 61 1) else none

theorem cwait_answers {auto : Bool} (hp : Passes (noCourier [d, a]) s) (hf : FlagAt s (readX (me s) a) target i j s1)
    (hauto : (s1.coaches[i]?).any (·.autoFetch) = auto) (hu : flagUpdate (readX (me s) a) target (riderStep auto (me s1).asked) s1 = .ok (w, s2)) :
    execCwait d a s = .next (
      if flagState w = 2 ∧ flagRiders w < 2 ^ 14 - 1 then done (ridden s2 i j d)
      else if flagState w = 4 then done (modMe s2 (fun t => writeX t d (BitVec.ofNat 64 (flagErr w))))
      else if auto = true ∧ flagState w = 0 ∧ (me s1).asked = false then
        waiting (later (modMe s2 (fun t => { t with asked := true })) [.carriagePiece i j 0 []])
      else waiting s2) := by
  have hany : ((s1.coaches[i]?).map (·.autoFetch)).getD false = auto := by
    rw [← hauto]
    cases s1.coaches[i]? <;> rfl
  have hask : ∀ w, ((decide (flagState w = 0) && auto && !(me s1).asked) = true) ↔ (auto = true ∧ flagState w = 0 ∧ (me s1).asked = false) := fun w => by
    rw [Bool.and_eq_true, Bool.and_eq_true, decide_eq_true_eq, Bool.not_eq_true', and_comm (a := flagState w = 0), and_assoc]
  have hstep : (fun w => if flagState w = 2 && decide (flagRiders w < 2 ^ 14 - 1) then some (w + 2 ^ 40)
      else if flagState w = 0 && auto && !(me s1).asked then some (setBits w 63 61 1) else none) = riderStep auto (me s1).asked := by
    funext w
    simp only [riderStep, hask, Bool.and_eq_true, decide_eq_true_eq]
  rw [execCwait, issue_outcome hp, exec_getX_bind, readX_started, exec_bind_ok hf]
  dsimp only
  rw [exec_self_bind, exec_theState_bind, hany, hstep, exec_bind_ok hu, exec_ite, exec_ite, exec_ite]
  simp only [hask, Bool.and_eq_true, decide_eq_true_eq]
  split
  · rw [exec_theState_bind, ridden]
    cases ((s2.coaches[i]?).map (fun c => c.carriages)).bind (fun cs => cs[j]?) <;> rfl
  · split
    · rfl
    · split <;> rfl

/-! What stands after a CWAIT has taken a rider. -/

theorem me_recordRead (s : State) (va n : Nat) : ∃ b, me (recordRead s s.cur va n) = { me s with buffer := b } := by
  unfold recordRead
  split
  · dsimp only
    split
    · refine ⟨recordRange (me s).buffer (swatchesOf va n).1 (swatchesOf va n).2, ?_⟩
      exact me_modMe s _
    · exact ⟨(me s).buffer, rfl⟩
  · exact ⟨(me s).buffer, rfl⟩

theorem recordRead_hbm (s : State) (a : Agent) (va n : Nat) : (recordRead s a va n).hbm = s.hbm := by
  unfold recordRead
  split
  · dsimp only
    split
    · exact modAgent_hbm ..
    · rfl
  · rfl

theorem ridden_spec (s : State) (i j : Nat) (d : BitVec 5) :
    (ridden s i j d).cur = s.cur ∧ (ridden s i j d).hbm = s.hbm ∧ (me (ridden s i j d)).pc = (me s).pc ∧ (d ≠ 0 → readX (me (ridden s i j d)) d = 0) := by
  have hcarriage : ∀ (u : State) (f : Carriage → Carriage), me (modCarriage u i j f) = me u := fun _ _ => rfl
  have hx : d ≠ 0 → ∀ t : Strand, readX (writeX t d 0) d = 0 := fun hd t => (readX_writeX t d 0).trans (if_neg hd)
  unfold ridden
  cases hk : ((s.coaches[i]?).map (fun c => c.carriages)).bind (fun cs => cs[j]?) with
  | none =>
    dsimp only
    rw [me_modMe, writeX_pc, modMe_cur, modMe_hbm, hcarriage]
    exact ⟨rfl, rfl, rfl, fun hd => hx hd _⟩
  | some k =>
    obtain ⟨b, hb⟩ := me_recordRead s (BitVec.ofNat 64 k.devAddr).toNat k.length
    have hsite := congrArg Prod.fst (site_recordRead s s.cur (BitVec.ofNat 64 k.devAddr).toNat k.length)
    dsimp only
    rw [me_modMe, writeX_pc, modMe_cur, modMe_hbm, hcarriage, hb]
    exact ⟨hsite, recordRead_hbm .., rfl, fun hd => hx hd _⟩

theorem cur_of_flagAt {va : Word} {f : Nat → Option Nat} (hf : FlagAt s va target i j s1) (hu : flagUpdate va target f s1 = .ok (w, s2)) :
    s2.cur = s.cur := by
  have hcheck := congrArg Prod.fst ((keepsSite_carriageCheck va).site_eq _ _ _ hf)
  have hupdate := congrArg Prod.fst ((keepsSite_flagUpdate va target f).site_eq _ _ _ hu)
  exact hupdate.trans (hcheck.trans (started_cur s))

theorem done_ridden (h : s2.cur = s.cur) : ∃ t, done (ridden s2 i j d) = t ∧ (d ≠ 0 → readX (getAgent t s.cur) d = 0) ∧ t.hbm = s2.hbm ∧
    (getAgent t s.cur).pc = (me s2).pc + 4 := by
  obtain ⟨hcur, hhbm, hpc, hx⟩ := ridden_spec s2 i j d
  have hagent : getAgent (done (ridden s2 i j d)) s.cur = consume (me (ridden s2 i j d)) ((me s2).pc + 4) := by
    rw [← h, ← hcur, done, getAgent_retire, hpc]
  refine ⟨_, rfl, fun hd => ?_, (retire_hbm ..).trans hhbm, by rw [hagent]; rfl⟩
  rw [hagent]
  exact hx hd

end

/-! ## The steps of a fetch (03 R95 to R98) -/

section
variable {s0 s s1 s2 : State} {i j off : Nat} {k : Coach} {c : Carriage}

theorem withCarriage_nil {f : Coach → Carriage → State} (h : s0.coaches = []) : withCarriage s0 i j f = s0 := by
  rw [withCarriage, h]
  rfl

theorem withCarriage_eq {f : Coach → Carriage → State} (hk : s0.coaches[i]? = some k) (hc : k.carriages[j]? = some c) : withCarriage s0 i j f = f k c := by
  simp only [withCarriage, hk, hc]

theorem withFlag_ready {again : Instr} {f : State → Nat → State} (h : flagReady s0 c = .ok () s) : withFlag s0 c again f = f s (flagGet s c) := by
  simp only [withFlag, h]

theorem site_flagPut (s : State) (c : Carriage) (w : Nat) : site (flagPut s c w) = site s := by
  unfold flagPut
  split
  · next pa key _ =>
    have h := servesSite_depotWrite s (pa / 64) key (granuleImage (pa % 64) (leBytes 8 w)) (maskAt (pa % 64) 8) 0
    cases hs : depotWrite s (pa / 64) key (granuleImage (pa % 64) (leBytes 8 w)) (maskAt (pa % 64) 8) 0 <;> rw [hs] at h <;> exact h
  · rfl

theorem servesSite_flagReady (s : State) (c : Carriage) : ServesSite s (flagReady s c) := by
  unfold flagReady
  split
  · exact .of_ok rfl
  · next pa key _ =>
    have hsettle := servesSite_settle s (pa / 64) none
    cases hs : settle s (pa / 64) none with
    | ok _ s1 =>
      rw [hs] at hsettle
      exact .after hsettle (servesSite_invalidate s1 (pa / 64) none)
    | bad _ _ s1 => rwa [hs] at hsettle
    | busy s1 => rwa [hs] at hsettle

theorem servesSite_flagsReady (s : State) (cs : List Carriage) : ServesSite s (flagsReady s cs) := by
  induction cs generalizing s with
  | nil => exact .of_ok rfl
  | cons c rest ih =>
    have h := servesSite_flagReady s c
    unfold flagsReady
    cases hs : flagReady s c with
    | ok _ s1 => rw [hs] at h; exact .after h (ih s1)
    | bad _ _ s1 => rw [hs] at h; exact .after h (ih s1)
    | busy s1 => rwa [hs] at h

section
variable (hk : s0.coaches[i]? = some k) (hc : k.carriages[j]? = some c) (hs : flagReady s0 c = .ok () s)
include hk hc hs

/-- Without bytes a piece is the step by which a fetch begins and goes on. -/
theorem carriagePiece_begins (hw : flagState (flagGet s c) = 0) :
    execCarriagePiece i j off [] s0 = .next (askSource (flagPut s c (setBits (flagGet s c) 63 61 1)) i j k { c with asked := 0 }) := by
  rw [execCarriagePiece, withCarriage_eq hk hc, withFlag_ready hs]
  exact congrArg event ((if_pos rfl).trans (if_pos hw))

theorem carriagePiece_asks_peer (hw : flagState (flagGet s c) = 0) (hsrc : c.src = 1) (hdev : c.srcHi.toNat ≠ devnum s) (hgone : c.srcHi.toNat ∉ s.ostler.gone)
    (hroute : hasRoute (modCarriage (flagPut s c (setBits (flagGet s c) 63 61 1)) i j (fun _ => { c with asked := c.length, got := 0, part := [], landed := [] }))
      c.srcHi.toNat = true) :
    let t := modCarriage (flagPut s c (setBits (flagGet s c) 63 61 1)) i j (fun _ => { c with asked := c.length, got := 0, part := [], landed := [] })
    execCarriagePiece i j off [] s0 = .next (sendRequest t c.srcHi.toNat none (.carriage i j 0) c.srcAddr k.ctx
      0x01 (fetchReadBody t c.srcHi.toNat k.ctx c.srcAddr (min (64 - c.srcAddr.toNat % 64) c.length))).1 := by
  have hput := site_flagPut s c (setBits (flagGet s c) 63 61 1)
  have hput_gone : (flagPut s c (setBits (flagGet s c) 63 61 1)).ostler.gone = s.ostler.gone := congrArg (·.2.2.1) hput
  have hput_dev : devnum (flagPut s c (setBits (flagGet s c) 63 61 1)) = devnum s := congrArg (·.2.2.2) hput
  intro t
  have ht_gone : c.srcHi.toNat ∉ t.ostler.gone := by rwa [← hput_gone] at hgone
  have ht_dev : c.srcHi.toNat ≠ devnum t := by rwa [← hput_dev] at hdev
  have hsrc0 : ¬ c.src = 0 := by rw [hsrc]; decide
  rw [carriagePiece_begins hk hc hs hw, askSource, if_neg hsrc0, if_pos hsrc, askPeer]
  dsimp only
  rw [if_neg ht_gone, if_neg ht_dev, if_neg (by rw [hroute]; decide), BitVec.add_zero]
  rfl

theorem carriagePiece_asks_host (hw : flagState (flagGet s c) = 0) (hsrc : c.src = 0) :
    let t := flagPut s c (setBits (flagGet s c) 63 61 1)
    execCarriagePiece i j off [] s0 = .next (modCarriage { t with
      busOut := t.busOut ++ (List.range ((c.length + 4095) / 4096)).map (fun p =>
        BusOp.read (c.srcAddr + BitVec.ofNat 64 (4096 * p)) (min 4096 (c.length - 4096 * p)) (pieceAgent i j p)) }
      i j (fun c => { c with asked := c.length, landed := [] })) := by
  rw [carriagePiece_begins hk hc hs hw, askSource, if_pos hsrc]
  rfl

theorem carriageFetchFail_fails (code : BitVec 7) : execCarriageFetchFail i j code s0 = .next (
    if flagState (flagGet s c) = 1 ∧ code ≠ 0 then
      modCarriage (flagPut s c (setBits (setBits (flagGet s c) 63 61 4) 60 54 code.toNat)) i j (fun c => { c with landed := [], asked := 0 })
    else s) := by
  rw [execCarriageFetchFail, withCarriage_eq hk hc, withFlag_ready hs, fetchFails, event]
  by_cases hcode : code = 0
  · simp only [ne_eq, hcode, not_true_eq_false, and_false, if_true, if_false]
  · simp only [ne_eq, hcode, not_false_eq_true, and_true, if_false]

theorem carriageEvicted_absent : execCarriageEvicted i j s0 = .next (
    if flagState (flagGet s c) = 3 then modCarriage (flagPut s c 0) i j (fun c => { c with landed := [], asked := 0 }) else s) := by
  rw [execCarriageEvicted, withCarriage_eq hk hc, withFlag_ready hs, event]

/-! A piece that lands (03 R95). -/

/-- The pieces that CARRIAGE_PIECE drops: out of turn, of the wrong place or size, or landed before. -/
theorem carriagePiece_drops {bytes : List Byte} (hpeer : ¬ (c.src = 1 ∧ off = noPiece + c.got)) (hb : bytes ≠ [])
    (hbad : flagState (flagGet s c) ≠ 1 ∨ off % 4096 ≠ 0 ∨ fetchTotal s k c ≤ off ∨ bytes.length ≠ min 4096 (fetchTotal s k c - off) ∨ off ∈ c.landed) :
    execCarriagePiece i j off bytes s0 = .next s := by
  have hdrop : (!decide (flagState (flagGet s c) = 1) || !decide (off % 4096 = 0) || decide (fetchTotal s k c ≤ off) ||
      !decide (bytes.length = min 4096 (fetchTotal s k c - off)) || decide (off ∈ c.landed)) = true := by
    simpa only [Bool.or_eq_true, Bool.not_eq_true', decide_eq_true_eq, decide_eq_false_iff_not, or_assoc] using hbad
  rw [execCarriagePiece, withCarriage_eq hk hc, withFlag_ready hs]
  dsimp only
  rw [if_neg (by simpa using hb), if_neg (by simpa using hpeer), if_pos hdrop, event]

theorem carriagePiece_lands {bytes : List Byte} (hpeer : ¬ (c.src = 1 ∧ off = noPiece + c.got)) (hb : bytes ≠ [])
    (hw : flagState (flagGet s c) = 1) (hoff : off % 4096 = 0) (hlt : off < fetchTotal s k c)
    (hn : bytes.length = min 4096 (fetchTotal s k c - off)) (hnew : off ∉ c.landed) (hend : c.devAddr + off + bytes.length ≤ 2 ^ 57)
    (hwindow : inWindow (c.devAddr + off) = false) (hostler : inOstler (c.devAddr + off) = false) (hdeep : deepRange s (c.devAddr + off) = none)
    (hrights : ctxRights s k.ctx 2 (c.devAddr + off) bytes.length = .ok () s1) :
    let e : Engine := { unit := coachUnit i j, tile := coachTile s (coachPart s k), ctx := k.ctx, run := 0 }
    let c1 := { c with landed := c.landed ++ [off] }
    engineStores s1 e off (granuleParts (bytes.length / 64 + 2) (c.devAddr + off) bytes) = .ok () s2 →
    execCarriagePiece i j off bytes s0 = .next (modCarriage (fillStashes
      (flagPut (clearPieces s2 e.unit) c (arrivedWord c1 (fetchTotal s k c) (flagGet s2 c))) (c.devAddr + off) bytes.length) i j (fun _ => c1)) := by
  intro e c1 hstores
  have hpos : 0 < bytes.length := List.length_pos_of_ne_nil hb
  have hlow : ∀ v, v < 2 ^ 57 → bits v 63 57 = 0 := fun v hv => by
    rw [bits, Nat.div_eq_of_lt hv, Nat.zero_mod]
  have htakes : ¬ (!decide (flagState (flagGet s c) = 1) || !decide (off % 4096 = 0) || decide (fetchTotal s k c ≤ off) ||
      !decide (bytes.length = min 4096 (fetchTotal s k c - off)) || decide (off ∈ c.landed)) = true := by
    simp only [Bool.or_eq_true, Bool.not_eq_true', decide_eq_true_eq, decide_eq_false_iff_not, not_or, not_not, not_le]
    exact ⟨⟨⟨⟨hw, hoff⟩, hlt⟩, hn⟩, hnew⟩
  have hcanonical : ¬ (!decide (bits (c.devAddr + off) 63 57 = 0) || !decide (bits (c.devAddr + off + bytes.length - 1) 63 57 = 0)) = true := by
    simp only [Bool.or_eq_true, Bool.not_eq_true', decide_eq_false_iff_not, hlow _ (show c.devAddr + off < 2 ^ 57 by omega),
      hlow _ (show c.devAddr + off + bytes.length - 1 < 2 ^ 57 by omega), not_true_eq_false, or_self, not_false_eq_true]
  rw [execCarriagePiece, withCarriage_eq hk hc, withFlag_ready hs]
  dsimp only
  rw [if_neg (by simpa using hb), if_neg (by simpa using hpeer), if_neg htakes, if_neg hcanonical, if_neg (ne_true_of_eq_false hwindow),
    if_neg (ne_true_of_eq_false hostler), if_neg (by rw [hdeep]; decide), hrights]
  dsimp only
  rw [hstores]
  rfl

end

/-- The piece of a carriage of one piece makes it RESIDENT, with the carriage's length in ARRIVED. -/
theorem arrivedWord_onePiece {w : Nat} (hsrc : c.src = 0) (hlanded : c.landed = []) (hlen : c.length ≤ 4096) (hlt : 0 < fetchTotal s k c) :
    arrivedWord { c with landed := c.landed ++ [0] } (fetchTotal s k c) w = setBits (setBits w 39 0 c.length) 63 61 2 := by
  have htotal : fetchTotal s k c = c.length := by
    rw [fetchTotal, hsrc]
    rfl
  rw [htotal] at hlt ⊢
  have hpieces : (c.length + 4095) / 4096 = 1 := by omega
  have harrived : arrived { c with landed := c.landed ++ [0] } c.length = c.length := by
    rw [arrived, hpieces, hlanded]
    exact Nat.min_self _
  rw [arrivedWord, harrived, hpieces, hlanded]
  exact if_pos (by simp)

/-! ## Eviction (03 R97, R99) -/

theorem mem_range_zip {α : Type} {xs : List α} {n : Nat} {x : α} : (n, x) ∈ (List.range xs.length).zip xs ↔ xs[n]? = some x := by
  rw [List.mem_iff_getElem?]
  constructor
  · rintro ⟨m, hm⟩
    obtain ⟨hrange, hx⟩ := List.getElem?_zip_eq_some.mp hm
    obtain ⟨_, hmn⟩ := List.getElem?_eq_some_iff.mp hrange
    rw [List.getElem_range] at hmn
    obtain rfl : m = n := hmn
    exact hx
  · intro hx
    obtain ⟨hlt, _⟩ := List.getElem?_eq_some_iff.mp hx
    exact ⟨n, List.getElem?_zip_eq_some.mpr ⟨List.getElem?_range hlt, hx⟩⟩

/-- A carriage's place in R99's order. -/
def victimKey (i j : Nat) (k : Coach) (c : Carriage) : Nat × Nat × Nat × Nat × Nat := (i, j, k.priority, c.eclass.toNat, c.lastWait)

theorem mem_victims {part : Nat} {v : Nat × Nat × Nat × Nat × Nat} : v ∈ victims s part ↔ ∃ i k j c, s.coaches[i]? = some k ∧ coachPart s k = part ∧
    k.carriages[j]? = some c ∧ (flagState (flagGet s c) = 2 ∧ flagRiders (flagGet s c) = 0) ∧ v = victimKey i j k c := by
  rw [victims, List.mem_flatMap]
  constructor
  · rintro ⟨⟨i, k⟩, hk, hv⟩
    by_cases hpart : coachPart s k = part
    · rw [if_pos hpart] at hv
      obtain ⟨⟨j, c⟩, hc, hv⟩ := List.mem_filterMap.mp hv
      dsimp only at hv
      split at hv
      · next hfree => exact ⟨i, k, j, c, mem_range_zip.mp hk, hpart, mem_range_zip.mp hc, by simpa using hfree, (Option.some.inj hv).symm⟩
      · cases hv
    · rw [if_neg hpart] at hv
      cases hv
  · rintro ⟨i, k, j, c, hk, hpart, hc, hfree, rfl⟩
    refine ⟨(i, k), mem_range_zip.mpr hk, ?_⟩
    rw [if_pos hpart]
    refine List.mem_filterMap.mpr ⟨(j, c), mem_range_zip.mpr hc, ?_⟩
    exact if_pos (by simpa using hfree)

/-- A carriage is found among the victims of its partition exactly if it is RESIDENT and nobody rides it. -/
theorem find_victim (hk : s.coaches[i]? = some k) (hc : k.carriages[j]? = some c) :
    (victims s (coachPart s k)).find? (fun v => v.1 = i && v.2.1 = j) =
      if flagState (flagGet s c) = 2 ∧ flagRiders (flagGet s c) = 0 then some (victimKey i j k c) else none := by
  have hone : ∀ v ∈ victims s (coachPart s k), v.1 = i → v.2.1 = j →
      (flagState (flagGet s c) = 2 ∧ flagRiders (flagGet s c) = 0) ∧ v = victimKey i j k c := by
    rintro v hv hi hj
    obtain ⟨i', k', j', c', hk', -, hc', hfree, rfl⟩ := mem_victims.mp hv
    obtain rfl : i' = i := hi
    obtain rfl : j' = j := hj
    obtain rfl : k = k' := Option.some.inj (hk.symm.trans hk')
    obtain rfl : c = c' := Option.some.inj (hc.symm.trans hc')
    exact ⟨hfree, rfl⟩
  cases hfind : (victims s (coachPart s k)).find? (fun v => v.1 = i && v.2.1 = j) with
  | some v =>
    have hv := List.find?_some hfind
    simp only [Bool.and_eq_true, decide_eq_true_eq] at hv
    obtain ⟨hfree, rfl⟩ := hone v (List.mem_of_find?_eq_some hfind) hv.1 hv.2
    rw [if_pos hfree]
  | none =>
    rw [if_neg]
    intro hfree
    have hno := List.find?_eq_none.mp hfind _ (mem_victims.mpr ⟨i, k, j, c, hk, rfl, hc, hfree, rfl⟩)
    simp [victimKey] at hno

theorem eviction_takes (hk : s0.coaches[i]? = some k) (hc : k.carriages[j]? = some c)
    (hs : flagsReady s0 ((s0.coaches.filter (fun o => coachPart s0 o = coachPart s0 k)).flatMap (·.carriages)) = .ok () s) :
    execEviction i j s0 = .next (
      if (flagState (flagGet s c) = 2 ∧ flagRiders (flagGet s c) = 0) ∧ (victims s (coachPart s k)).all (fun o => !evictBefore o (victimKey i j k c)) = true then
        later (flagPut s c (setBits (flagGet s c) 63 61 3)) [.carriageEvicted i j]
      else s) := by
  have hcoaches : s.coaches = s0.coaches := by
    have h := servesSite_flagsReady s0 ((s0.coaches.filter (fun o => coachPart s0 o = coachPart s0 k)).flatMap (·.carriages))
    rw [hs] at h
    exact congrArg (·.2.1) h
  rw [execEviction, withCarriage_eq hk hc]
  dsimp only
  rw [hs]
  dsimp only
  rw [find_victim (by rw [hcoaches]; exact hk) hc, event]
  by_cases hfree : flagState (flagGet s c) = 2 ∧ flagRiders (flagGet s c) = 0
  · rw [if_pos hfree]
    dsimp only
    by_cases hfirst : (victims s (coachPart s k)).any (fun o => evictBefore o (victimKey i j k c)) = true
    · rw [if_pos hfirst, if_neg]
      rintro ⟨-, hall⟩
      rw [← List.not_any_eq_all_not, hfirst] at hall
      cases hall
    · rw [if_neg hfirst, if_pos]
      refine ⟨hfree, ?_⟩
      rw [← List.not_any_eq_all_not, eq_false_of_ne_true hfirst]
      rfl
  · rw [if_neg hfree, if_neg (fun h => hfree h.1)]

end

/-- Settles O36: each word acts by the flag word that it updates, each step of a fetch by the carriage that it names, and the carriage that an
eviction names is the first of the victims where nobody precedes it. -/
theorem carriagesFetchRideAndLeave : Obligations.CarriagesFetchRideAndLeave := by
  unfold Obligations.CarriagesFetchRideAndLeave
  constructor
  · intro s s1 s2 s3 d a target i j w
    dsimp only
    intro hf
    refine ⟨fun hp => ⟨fun hu => ?_, fun auto hauto hu => ?_⟩, fun hp hu => ?_⟩
    · rw [exec_ctest, ctest_reads hp hf hu]
    · rw [exec_cwait, cwait_answers hp hf hauto hu]
      refine ⟨fun h2 hr => ?_, fun h4 => ?_, fun h0 ha hask => ?_, fun h0 hno => ?_, fun hother => ?_⟩
      · rw [if_pos ⟨h2, hr⟩]
        obtain ⟨t, ht, hspec⟩ := done_ridden (i := i) (j := j) (d := d) (cur_of_flagAt hf hu)
        exact ⟨t, by rw [ht], hspec⟩
      · rw [if_neg (by omega), if_pos h4]
      · rw [if_neg (by omega), if_neg (by omega), if_pos ⟨ha, h0, hask⟩]
      · rw [if_neg (by omega), if_neg (by omega), if_neg]
        rintro ⟨ha, -, hask⟩
        rcases hno with h | h
        · rw [h] at ha
          cases ha
        · rw [h] at hask
          cases hask
      · rw [if_neg (by omega), if_neg (by omega), if_neg (fun h => by omega)]
    · rw [exec_crel, crel_gives_back hp hf hu]
  · intro s0 s s1 s2 i j off k c code bytes
    dsimp only
    refine ⟨fun hnone x hx => ?_, fun hk hc hs hpeer => ⟨?_, ?_, ?_, ?_, ?_, ?_, ?_, ?_⟩, fun hk hc hs => ⟨fun h => ?_, fun h2 hr hfirst => ?_⟩⟩
    · simp only [List.mem_cons, List.not_mem_nil, or_false] at hx
      rcases hx with rfl | rfl | rfl | rfl
      · exact congrArg event (withCarriage_nil hnone)
      · exact congrArg event (withCarriage_nil hnone)
      · exact congrArg event (withCarriage_nil hnone)
      · exact congrArg event (withCarriage_nil hnone)
    · exact carriagePiece_asks_peer hk hc hs
    · exact carriagePiece_asks_host hk hc hs
    · exact carriagePiece_drops hk hc hs hpeer
    · intro hb hw hoff hlt hn hnew hend hwindow hostler hdeep hrights hstores
      refine ⟨carriagePiece_lands hk hc hs hpeer hb hw hoff hlt hn hnew hend hwindow hostler hdeep hrights hstores, ?_⟩
      rintro hsrc hlanded rfl hlen
      exact arrivedWord_onePiece hsrc hlanded hlen hlt
    · intro hw hcode
      exact (carriageFetchFail_fails hk hc hs code).trans (by rw [if_pos ⟨hw, hcode⟩])
    · intro h
      exact (carriageFetchFail_fails hk hc hs code).trans (by rw [if_neg (fun hboth => h.elim (absurd hboth.1) hboth.2)])
    · intro hw
      exact (carriageEvicted_absent hk hc hs).trans (by rw [if_neg hw])
    · intro hw
      exact (carriageEvicted_absent hk hc hs).trans (by rw [if_pos hw])
    · refine (eviction_takes hk hc hs).trans ?_
      rw [if_neg]
      rintro ⟨⟨h2, hr⟩, hall⟩
      rcases h with h | h | h
      · exact h h2
      · omega
      · exact absurd (h.symm.trans hall) (by decide)
    · exact (eviction_takes hk hc hs).trans (by rw [if_pos ⟨⟨h2, hr⟩, hfirst⟩])

end Sys2Proof.Machine
end

section
/-!
PROOFS. Every instruction and every step of the device answers a next state (O57).
-/
namespace Sys2Proof.Machine

/-! ## The families of words -/

section
variable (s : State) (a b c d : BitVec 5)

theorem binary_answers (f : Word → Word → Word) : ∃ t, binary d a b f s = .next t := issue_answers ..

theorem unary_answers (f : Word → Word) : ∃ t, unary d a f s = .next t := issue_answers ..

theorem immediate_answers (i : BitVec 16) (f : Word → Word → Word) : ∃ t, immediate d a i f s = .next t := issue_answers ..

theorem shiftImm_answers (w : BitVec 1) (sh : BitVec 6) (f : Word → Word → Word) : ∃ t, shiftImm d a w sh f s = .next t := issue_answers ..

theorem fbinary_answers (frm : Bool) (p : BitVec 1) (f : Fmt → Nat → Nat → Nat → Nat × Nat) : ∃ t, fbinary frm d a b p f s = .next t :=
  issue_answers ..

theorem fternary_answers (p : BitVec 1) (np nc : Bool) : ∃ t, fternary d a b c p np nc s = .next t := issue_answers ..

theorem branch_answers (o : BitVec 13) (taken : Word → Word → Bool) : ∃ t, branch a b o taken s = .next t := issueTo_answers ..

theorem branchMask_answers (o : BitVec 13) (any : Bool) : ∃ t, branchMask a o any s = .next t := issueTo_answers ..

theorem maskBinary_answers (f : Word → Word → Word) : ∃ t, maskBinary d a b f s = .next t := issue_answers ..

theorem lightWord_answers (form : Strand → Form) (body : Exec Unit) : ∃ t, lightWord form body s = .next t := issueState_answers ..

end

/-- Settles O57, by what makes an instruction's step: a step of the device is a next state outright; a word of an agent completes, waits or takes
a fault (`issueTo_answers`), and so does a word that gives the whole next state (`issueState_answers`). -/
theorem everyInstructionAnswersANextState : Obligations.EveryInstructionAnswersANextState := by
  unfold Obligations.EveryInstructionAnswersANextState
  intro i s
  cases i with
  | packageReset | ppsEdge | timeOfDayMessage | junctionThrottle | junctionShutdown | wearTrigger | spareSwap | roleMove | lossOfLock
  | healthWindow | timingReplay | idleFlit | dataFlit | ackFlit | nakFlit | trainFlit | replayTimeout | ackTimer | nakHoldoffExpiry
  | linkRetryBound | trainingTimeout | partnerReset | noticeRecord | classOHoldEnd | portDisable | portTrain | portReset | swreq | bankSwitch
  | routingBankWrite | devnumWrite | transitPacket | rd | rdx | wr | amoPacket | wb | snp | snprsp | dataPacket | ackPacket | inv | trinvPacket
  | gen | charge | mgmt | notice | sendPacket | courierPacket | msendPacket | draywr | killPacket | reply | reservedOpcode | requestTimeout
  | goneClear | chargeSend | snoopTimeout | peek | reclaimKeep | reclaimData | doorbell | queueCreate | destroy | destroyKill | queueResume
  | packetFetch | fetchReread | launchPacket | relaunchPacket | coach | destroyPacket | signal | waitmem | waitmemPoll | nopPacket
  | packetCompletion | timesliceExpiry | partitionReset | partcfgWrite | qhctlWrite | ctxctlWrite | errorRingSetup | storageBlockWrite | bar4Read
  | bar4Write | peerLoadTimeout | chunk | commit | attest | reboot | abort | hotPatchApply | patchTimeout | bindRecordWrite | blockDispatch
  | blockActivation | mfwWrite | cut | dispatchResume | kill | killFenceEnd | hold | release | fareEstimate | fgrant | trinvRange | trinvAll
  | trinvGrants | migReread | gearRailSettled | l2RailLower | park | wake | lattolWrite | dragStep | clockMaskAdjust | triggerLatch | courierStart
  | matrixCommandStart | kStep | draySegment | drayApertureStart | storageCompletion | storageTimeout | streamTransfer | feltCommandExecute
  | feltLoadEnd | settleDetect | feltRunmax | feltSaturation | holdTimeout | feltConversion | calibration | carriagePiece | carriageFetchFail
  | eviction | relaunchRound | registerWrite | settleTimeout | peerReadCompletion | partitionResetEnd | matrixCommandEnd | carriageEvicted
  | l2RailRisen | wearingLaneReplace | lockAcquired =>
    exact ⟨_, rfl⟩
  | exit | yield | csrr | csrw | csrs | csrc => exact issueState_answers ..
  | add | sub | and | or | xor | andn | sll | srl | sra | slt | sltu | min | max | minu | maxu | mul | mulh | mulhu | mulhsu | div | divu | rem
  | remu =>
    exact binary_answers ..
  | clz | ctz | popc =>
    exact unary_answers ..
  | addi | andi | ori | xori | slti | sltiu =>
    simp only [exec_addi, execAddi, exec_andi, execAndi, exec_ori, execOri, exec_xori, execXori, exec_slti, execSlti, exec_sltiu, execSltiu]
    exact immediate_answers ..
  | slli | srli | srai =>
    simp only [exec_slli, execSlli, exec_srli, execSrli, exec_srai, execSrai]
    exact shiftImm_answers ..
  | fadd | fsub | fmul | fdiv | fmin | fmax | fsgnj | fsgnjn | fsgnjx | feq | flt | fle =>
    simp only [exec_fadd, execFadd, exec_fsub, execFsub, exec_fmul, execFmul, exec_fdiv, execFdiv, exec_fmin, execFmin, exec_fmax, execFmax, exec_fsgnj, execFsgnj, exec_fsgnjn, execFsgnjn, exec_fsgnjx, execFsgnjx, exec_feq, execFeq, exec_flt, execFlt, exec_fle, execFle]
    exact fbinary_answers ..
  | fmadd | fmsub | fnmadd | fnmsub =>
    simp only [exec_fmadd, execFmadd, exec_fmsub, execFmsub, exec_fnmadd, execFnmadd, exec_fnmsub, execFnmsub]
    exact fternary_answers ..
  | beq | bne | blt | bge | bltu | bgeu =>
    simp only [exec_beq, execBeq, exec_bne, execBne, exec_blt, execBlt, exec_bge, execBge, exec_bltu, execBltu, exec_bgeu, execBgeu]
    exact branch_answers ..
  | bmany | bmnone =>
    simp only [exec_bmany, execBmany, exec_bmnone, execBmnone]
    exact branchMask_answers ..
  | mand | mor | mxor | mandn =>
    simp only [exec_mand, execMand, exec_mor, execMor, exec_mxor, execMxor, exec_mandn, execMandn]
    exact maskBinary_answers ..
  | ximm | hintNop | hintTaken | hintSpin | hintKeep | modFrm | modQsel =>
    simp only [exec_ximm, execXimm, exec_hintNop, execHintNop, exec_hintTaken, execHintTaken, exec_hintSpin, execHintSpin, exec_hintKeep, execHintKeep, exec_modFrm, execModFrm, exec_modQsel, execModQsel]
    exact lightWord_answers ..
  | ill | lui | auipc | fsqrt | fcvt | sysc | brk | gear | mnot | mset | mget | mpopc | mfirst | mfirstn | pref | strmPos =>
    simp only [exec_ill, execIll, exec_lui, execLui, exec_auipc, execAuipc, exec_fsqrt, execFsqrt, exec_fcvt, execFcvt, exec_sysc, execSysc, exec_brk, execBrk, exec_gear, execGear, exec_mnot, execMnot, exec_mset, execMset, exec_mget, execMget, exec_mpopc, execMpopc, exec_mfirst, execMfirst, exec_mfirstn, execMfirstn, exec_pref, execPref, exec_strmPos, execStrmPos]
    exact issue_answers ..
  | jal | jalr =>
    simp only [exec_jal, exec_jalr, execJal, execJalr]
    exact issueTo_answers ..
  | _ => exact issue_answers ..

end Sys2Proof.Machine
end

section
/-!
PROOFS. Taking a fault (06 R172, 16 R383) and the reply to it (16 R384).
-/
namespace Sys2Proof.Machine

/-! ## The fields of a message, from its parts -/

theorem fieldAt_append_skip {pre : List Byte} {k : Nat} (rest : List Byte) (n : Nat) (h : pre.length ≤ k) :
    fieldAt (pre ++ rest) k n = fieldAt rest (k - pre.length) n := by
  obtain ⟨i, rfl⟩ := Nat.exists_eq_add_of_le h
  rw [fieldAt_append_add, Nat.add_sub_cancel_left]

theorem leBytes_mod (n v : Nat) : leBytes n v = leBytes n (v % 2 ^ (8 * n)) := by
  induction n generalizing v with
  | zero => rfl
  | succ n ih =>
    have hpow : 2 ^ (8 * (n + 1)) = 256 * 2 ^ (8 * n) := by rw [show 8 * (n + 1) = 8 + 8 * n by omega, Nat.pow_add]
    have hbyte : BitVec.ofNat 8 (v % 2 ^ (8 * (n + 1))) = BitVec.ofNat 8 v := by
      apply BitVec.eq_of_toNat_eq
      rw [BitVec.toNat_ofNat, BitVec.toNat_ofNat, hpow, Nat.mod_mod_of_dvd _ (Nat.dvd_mul_right ..)]
    have hrest : v % 2 ^ (8 * (n + 1)) / 256 = v / 256 % 2 ^ (8 * n) := by rw [hpow, Nat.mod_mul_right_div_self]
    rw [leBytes, leBytes, hbyte, hrest, ← ih]

/-- A number's field holds it modulo the field's width. -/
theorem fieldAt_leBytes_mod (n v : Nat) (rest : List Byte) : fieldAt (leBytes n v ++ rest) 0 n = v % 2 ^ (8 * n) := by
  rw [leBytes_mod, fieldAt_leBytes_append (Nat.mod_lt _ (Nat.two_pow_pos _))]

theorem fieldAt_word {w : Nat} (n : Nat) (x : BitVec w) (rest : List Byte) (h : w ≤ 8 * n) : fieldAt (leBytes n x.toNat ++ rest) 0 n = x.toNat :=
  fieldAt_leBytes_append (Nat.lt_of_lt_of_le x.isLt (Nat.pow_le_pow_right (by decide) h)) rest

theorem fieldAt_byte (b : Byte) (rest : List Byte) : fieldAt (b :: rest) 0 1 = b.toNat := by
  rw [fieldAt, List.drop_zero, List.take_succ_cons, List.take_zero]
  exact (ofBytes_lt_byte b)
where
  ofBytes_lt_byte (b : Byte) : ofBytes [b] = b.toNat := by rw [ofBytes, ofBytes, Nat.mul_zero, Nat.add_zero]

theorem fieldAt_cons_succ (b : Byte) (rest : List Byte) (k n : Nat) : fieldAt (b :: rest) (k + 1) n = fieldAt rest k n := rfl

/-! ## The message of a fault (06 R172) -/

section
variable (s : State) (a : Agent) (f : FaultInfo) (seq : BitVec 32)

theorem length_faultMessage : (faultMessage s a f seq).length = 64 := by
  simp only [faultMessage, List.length_append, length_leBytes, List.length_cons, List.length_nil]

/-- The message with its parts in a row. -/
theorem faultMessage_parts : ∃ block pdom dev, ∃ kind : List Byte, kind.length = 2 ∧ ∃ source,
    faultMessage s a f seq = f.code :: f.kind :: (leBytes 2 f.sub.toNat ++ (leBytes 4 (agentCtx s a).toNat ++ (leBytes 4 (agentRun s a).toNat ++
      (leBytes 4 block ++ (leBytes 8 f.addr.toNat ++ (leBytes 8 (getAgent s a).pc.toNat ++ (leBytes 2 source ++ (leBytes 2 pdom ++ (leBytes 2 dev ++
      (kind ++ (leBytes 8 s.now ++ (leBytes 8 f.entry.toNat ++ (leBytes 4 seq.toNat ++ [0, 0, 0, 0]))))))))))))) := by
  refine ⟨agentBlock s a, (getCtx s (agentCtx s a)).pdom.toNat, devnum s, [BitVec.ofNat 8 (b2n (isCourier a)), 0], rfl, ?_⟩
  simp only [faultMessage, List.append_assoc]
  exact ⟨_, rfl⟩

theorem faultMessage_fields : let msg := faultMessage s a f seq
    fieldAt msg 0 1 = f.code.toNat ∧ fieldAt msg 1 1 = f.kind.toNat ∧ fieldAt msg 2 2 = f.sub.toNat ∧ fieldAt msg 4 4 = (agentCtx s a).toNat ∧
    fieldAt msg 8 4 = (agentRun s a).toNat ∧ fieldAt msg 16 8 = f.addr.toNat ∧ fieldAt msg 24 8 = (getAgent s a).pc.toNat ∧
    fieldAt msg 40 8 = s.now % 2 ^ 64 ∧ fieldAt msg 48 8 = f.entry.toNat ∧ fieldAt msg 56 4 = seq.toNat := by
  obtain ⟨block, pdom, dev, kind, hkind, source, hparts⟩ := faultMessage_parts s a f seq
  dsimp only
  rw [hparts]
  simp only [fieldAt_cons_succ, fieldAt_append_skip, length_leBytes, hkind, Nat.reduceLeDiff, Nat.reduceSub]
  exact ⟨fieldAt_byte .., fieldAt_byte .., fieldAt_word 2 _ _ (by decide), fieldAt_word 4 _ _ (by decide), fieldAt_word 4 _ _ (by decide),
    fieldAt_word 8 _ _ (by decide), fieldAt_word 8 _ _ (by decide), fieldAt_leBytes_mod .., fieldAt_word 8 _ _ (by decide), fieldAt_word 4 _ _ (by decide)⟩

end

/-! ## The agent at a fault -/

section
variable (s : State)

@[simp] theorem idleCheck_now (k : Nat) : (idleCheck s k).now = s.now := by
  rcases idleCheck_cases s k with h | h
  · rw [h]
  · rw [h]
    rfl

@[simp] theorem gearCheck_now (k : Nat) : (gearCheck s k).now = s.now := by
  unfold gearCheck
  simp only
  split
  · simp
  · unfold beginChange
    split <;> simp

@[simp] theorem leaveDoze_now (b : Bool) (a : Agent) : (leaveDoze s b a).now = s.now := by
  unfold leaveDoze
  split <;> simp

/-- The state in which the message of a fault is made: the agent is stopped, and its tile has left the doze. -/
def stopped (f : FaultInfo) : State := leaveDoze (modMe s (fun t => faulted t f)) (me s).dozing s.cur

@[simp] theorem getAgent_stopped (f : FaultInfo) : getAgent (stopped s f) s.cur = faulted (me s) f := by
  rw [stopped, getAgent_leaveDoze]
  exact getAgent_modAgent s s.cur _

theorem getAgent_stopped_ne (f : FaultInfo) {b : Agent} (h : b ≠ s.cur) : getAgent (stopped s f) b = getAgent s b := by
  rw [stopped, getAgent_leaveDoze]
  exact getAgent_modMe_ne s _ h

/-- A fault forgets what the agent waited for, and keeps its registers and its place. -/
theorem faulted_keeps (t : Strand) (f : FaultInfo) : let u := faulted t f
    (u.pc = t.pc ∧ u.x = t.x ∧ u.v = t.v ∧ u.m = t.m ∧ u.fcsr = t.fcsr ∧ u.a = t.a ∧ u.q = t.q ∧ u.pshape = t.pshape ∧ u.act = t.act) ∧
    (if f.code = 0x01 then u.xlCount = 0 ∧ u.frm = none ∧ u.qsel = none
      else u.xlCount = t.xlCount ∧ u.xlBits = t.xlBits ∧ u.frm = t.frm ∧ u.qsel = t.qsel) ∧
    u.pending = some f ∧ u.acks = t.acks := by
  dsimp only
  unfold faulted
  split
  · exact ⟨⟨rfl, rfl, rfl, rfl, rfl, rfl, rfl, rfl, rfl⟩, ⟨rfl, rfl, rfl⟩, rfl, rfl⟩
  · exact ⟨⟨rfl, rfl, rfl, rfl, rfl, rfl, rfl, rfl, rfl⟩, ⟨rfl, rfl, rfl, rfl⟩, rfl, rfl⟩

theorem agentRun_stopped (f : FaultInfo) : agentRun (stopped s f) s.cur = agentRun s s.cur := by
  obtain ⟨⟨-, -, -, -, -, -, -, -, hact⟩, -⟩ := faulted_keeps (me s) f
  rw [agentRun, getAgent_stopped, hact]
  rfl

theorem agentCtx_stopped (f : FaultInfo) : agentCtx (stopped s f) s.cur = agentCtx s s.cur := by
  rw [agentCtx, agentRun_stopped, getRun, stopped, leaveDoze_runs, modMe_runs]
  rfl

/-- A message posted to the ostler SVC role. -/
def postedTo (t : State) (msg : List Byte) : State := { t with svcInbox := t.svcInbox ++ [msg], svcPosted := t.svcPosted + 1 }

/-- The state in which the agent waits for the reply to its fault's message. -/
def awaiting (f : FaultInfo) : State :=
  modAgent (postedTo (stopped s f) (faultMessage (stopped s f) s.cur f s.svcPosted)) s.cur (fun t => { t with status := .awaitReply 0 s.svcPosted })

theorem getAgent_awaiting (f : FaultInfo) : getAgent (awaiting s f) s.cur = { faulted (me s) f with status := .awaitReply 0 s.svcPosted } := by
  rw [awaiting, getAgent_modAgent]
  exact congrArg (fun t : Strand => { t with status := .awaitReply 0 s.svcPosted }) (getAgent_stopped s f)

theorem getAgent_awaiting_ne (f : FaultInfo) {b : Agent} (h : b ≠ s.cur) : getAgent (awaiting s f) b = getAgent s b := by
  rw [awaiting, getAgent_modAgent_ne _ _ h]
  exact getAgent_stopped_ne s f h

theorem svcPosted_stopped (f : FaultInfo) : (stopped s f).svcPosted = s.svcPosted := by rw [stopped, leaveDoze_svcPosted, modMe_svcPosted]

theorem svcInbox_stopped (f : FaultInfo) : (stopped s f).svcInbox = s.svcInbox := by rw [stopped, leaveDoze_svcInbox, modMe_svcInbox]

/-- The mailbox holds one message more; the memories and the contexts stand. -/
theorem awaiting_frame (f : FaultInfo) : (awaiting s f).svcPosted = s.svcPosted + 1 ∧
    (awaiting s f).svcInbox = s.svcInbox ++ [faultMessage (stopped s f) s.cur f s.svcPosted] ∧
    (awaiting s f).hbm = s.hbm ∧ (awaiting s f).l2 = s.l2 ∧ (awaiting s f).contexts = s.contexts := by
  refine ⟨?_, ?_, ?_, ?_, ?_⟩
  · rw [awaiting, modAgent_svcPosted, postedTo, svcPosted_stopped]
  · rw [awaiting, modAgent_svcInbox, postedTo, svcInbox_stopped]
  · rw [awaiting, modAgent_hbm, postedTo, stopped, leaveDoze_hbm, modMe_hbm]
  · rw [awaiting, modAgent_l2, postedTo, stopped, leaveDoze_l2, modMe_l2]
  · rw [awaiting, modAgent_contexts, postedTo, stopped, leaveDoze_contexts, modMe_contexts]

/-- With the mailbox at the ostler SVC role and no acknowledgement outstanding, the message is posted at once and the agent waits for its reply. -/
theorem takeFault_posts {f : FaultInfo} (hacks : (me s).acks = 0) (hmb : (getCtx s (agentCtx s s.cur)).service = 0) :
    takeFault s f = tick (awaiting s f) := by
  obtain ⟨-, -, hpending, hkept⟩ := faulted_keeps (me s) f
  have hctx : (getCtx (stopped s f) (agentCtx s s.cur)).service = 0 := by
    rw [← hmb, getCtx, getCtx, stopped, leaveDoze_contexts, modMe_contexts]
  rw [takeFault]
  show tick (postPending (stopped s f) s.cur) = _
  simp only [postPending, getAgent_stopped, hpending, hkept, hacks, Nat.lt_irrefl, if_false, agentCtx_stopped, hctx, postMessage, if_true,
    svcPosted_stopped, awaiting, postedTo]

end

/-! ## SYSC, BRK and ILL (16 R379 to R381, 11 R273) -/

section
variable {s : State}

theorem sysc_faults {d a : BitVec 5} {c : BitVec 12} (hp : Passes (noCourier [d, a]) s) :
    execSysc d a c s = .next (takeFault s { faultInfo 0x0D c.toNat 0 (readX (me s) a) 0 with dest := d }) := by
  refine issue_fault hp ?_
  rw [exec_getX_bind, readX_started]

theorem brk_faults {c : BitVec 12} (hp : Passes (noCourier []) s) : execBrk c s = .next (takeFault s (faultInfo 0x0E c.toNat 0 0 0)) :=
  issue_fault hp rfl

/-- Every check of ILL's latches and fields ends in an ILLEGAL. -/
theorem latchFault_ill (t : Strand) : ∃ sub, latchFault (illForm t) t = some (faultInfo 0x01 sub 0 0 0) := by
  unfold latchFault
  split
  · exact ⟨0x02, rfl⟩
  · split
    · exact ⟨0x04, rfl⟩
    · exact ⟨0x01, rfl⟩

theorem ill_faults {x : BitVec 26} (h : (me s).deferred = none) : ∃ sub, execIll x s = .next (takeFault s (faultInfo 0x01 sub 0 0 0)) := by
  obtain ⟨sub, hsub⟩ := latchFault_ill (me s)
  refine ⟨sub, issue_before ?_⟩
  simp only [before, h, formFault, hsub]

end

/-- Settles O25: the state in which the fault is taken changes the issuing agent alone (`faulted_keeps`), and the message posted from it has the
fields of R172 (`faultMessage_fields`). -/
theorem faultsAreTakenPrecisely : Obligations.FaultsAreTakenPrecisely := by
  unfold Obligations.FaultsAreTakenPrecisely
  constructor
  · intro s f hacks hmb
    obtain ⟨hregs, hlatches, hpending, -⟩ := faulted_keeps (me s) f
    have hfields := faultMessage_fields (stopped s f) s.cur f s.svcPosted
    rw [agentCtx_stopped, agentRun_stopped, getAgent_stopped, hregs.1,
      show (stopped s f).now = s.now by rw [stopped, leaveDoze_now, modMe_now]] at hfields
    dsimp only
    rw [takeFault_posts s hacks hmb]
    simp only [getAgent_tick_other, getAgent_awaiting]
    obtain ⟨hposted, hinbox, hhbm, hl2, hcontexts⟩ := awaiting_frame s f
    exact ⟨hregs, hlatches, hpending, trivial, hposted, ⟨_, hinbox, length_faultMessage .., hfields⟩, fun b hb => getAgent_awaiting_ne s f hb,
      hhbm, hl2, hcontexts⟩
  · intro s d a c x
    refine ⟨fun hp => ?_, fun hp => ?_, fun h => ?_⟩
    · rw [exec_sysc, sysc_faults hp]
    · rw [exec_brk, brk_faults hp]
    · rw [exec_ill]
      exact ill_faults h

/-! ## A reply that comes before the acknowledgement of its posting (16 R384) -/

/-- Strand 0's fault goes to a mailbox of device 1: the update that posts message 4 is under way, and its acknowledgement has not come. -/
def earlyReplied : State :=
  { cur := .strand 0
    strands := [(0, { act := .block 1 0, pending := some (faultInfo 0x04 1 1 0 0), status := .awaitPost 9 })]
    outPosts := [{ id := 9, agent := some (.strand 0), ctx := 7, source := 0, fault := faultInfo 0x04 1 1 0 0, mailbox := 0x40000000, dev := 1, pa := 0,
                   key := 0, message := [], stage := .update, head := leBytes 4 5 }] }

/-- The reply to it: RETRY. -/
def earlyReply : FaultReply := { mailbox := 0x40000000, seq := 4, disp := 0, poster := 0, posterFlags := 0, value := 0, from? := none }

theorem posterAgent_earlyReplied : posterAgent earlyReplied earlyReply.poster.toNat (earlyReply.posterFlags.getLsbD 0) = some (.strand 0) := by
  decide +kernel

/-- The strand has not the status of a posted message, and the reply is for it all the same: its instruction is free to be tried again. -/
theorem deliverReply_earlyReplied :
    (getAgent earlyReplied (.strand 0)).status ≠ .awaitReply earlyReply.mailbox earlyReply.seq ∧
    (getAgent (deliverReply earlyReplied (.strand 0) earlyReply.mailbox earlyReply.seq earlyReply.disp earlyReply.value) (.strand 0)).pending = none ∧
    (getAgent earlyReplied (.strand 0)).pending ≠ none := by
  decide +kernel

/-- Refutes O26: a reply may come before the acknowledgement of the update that posted its message on another device, and then acts on a strand
whose status is not yet that of waiting for the message (`earlyReplied`), while the statement has every such reply discarded. -/
theorem not_repliesResumeTheirPoster : ¬ Obligations.RepliesResumeTheirPoster := by
  intro h
  obtain ⟨-, -, -, hdiscarded⟩ := (h earlyReplied earlyReplied (.strand 0) earlyReply (faultInfo 0x04 1 1 0 0)
    { dest := 0, src := 1, key := 0, fareTag := 0, opcode := 0x11, flags := 1, length := 0, tag := 1, body := [] }).1 posterAgent_earlyReplied
  obtain ⟨hstatus, hafter, hbefore⟩ := deliverReply_earlyReplied
  rw [hdiscarded hstatus] at hafter
  exact hbefore hafter

end Sys2Proof.Machine
end

section
/-!
PROOFS. Control registers, EXIT, YIELD and GEAR (16 R381, R382, R385 to R387).
-/
namespace Sys2Proof.Machine

/-! ## The agent of a completed instruction -/

section
variable (s : State)

@[simp] theorem completed_cur : (completed s).cur = s.cur := by
  have hdoze : ∀ (u : State) (b : Bool) (a : Agent), (leaveDoze u b a).cur = u.cur := fun u b a => by
    unfold leaveDoze gearCheck
    split
    · dsimp only
      split
      · rcases idleCheck_cases (modTile u (agentTile a) (fun t => { t with doze := tileDozes u (agentTile a) })) (agentTile a) with h | h
        · rw [h]
          rfl
        · rw [h]
          rfl
      · unfold beginChange
        split <;> rfl
    · rfl
  have hnote : ∀ u : State, (noteIssue u).cur = u.cur := fun u => by
    unfold noteIssue
    split
    · split <;> rfl
    · rfl
  rw [completed, hnote, hdoze, modMe_cur]

theorem getAgent_completed : getAgent (completed s) s.cur = consume (me s) ((me s).pc + 4) := getAgent_retire s _

end

theorem issueState_fault {form : Strand → Form} {body : Exec State} {s : State} {f : FaultInfo} (hp : Passes form s)
    (hb : body (started s) = .error (.fault f)) : issueState form body s = .next (takeFault s f) := by
  have hb' : body (modMe s (fun t => { t with status := .ready })) = .error (.fault f) := hb
  unfold issueState
  rw [hp]
  dsimp only
  rw [hb']

/-! ## CSR forms (16 R385) -/

section
variable {s s1 : State} {n : BitVec 12} {xs : List (BitVec 5)} {d a : BitVec 5} {new : Nat → Exec Nat} {old v : Nat}

theorem csrForm_unnamed {write : Bool} (hp : Passes (csrAccess n xs write) s) (hv : csrValue (started s) s.cur n.toNat = none) :
    csrForm n xs write d new s = .next (takeFault s (faultInfo 0x01 0x05 0 0 0)) := by
  refine issueState_fault hp ?_
  rw [exec_theAgent_bind, exec_theState_bind, started_cur, hv]
  rfl

theorem csrForm_reads (hp : Passes (csrAccess n xs false) s) (hv : csrValue (started s) s.cur n.toNat = some old)
    (hnew : new old (started s) = .ok (v, started s)) : csrForm n xs false d new s = .next (wrote s (fun t => writeX t d (BitVec.ofNat 64 old))) := by
  refine issueState_next hp (s2 := completed (modMe (started s) (fun t => writeX t d (BitVec.ofNat 64 old))))
    (s1 := modMe (started s) (fun t => writeX t d (BitVec.ofNat 64 old))) ?_
  rw [exec_theAgent_bind, exec_theState_bind, started_cur, hv]
  exact exec_bind_ok hnew

/-- A write that its CSR takes: X[d] receives the old value, and the word completes. -/
theorem csrForm_stores (hn : n ≠ 2) (hp : Passes (csrAccess n xs true) s) (hv : csrValue (started s) s.cur n.toNat = some old)
    (hnew : new old (started s) = .ok (v, started s)) (hst : csrStore n.toNat (v % 2 ^ 64) (started s) = .ok ((), s1)) :
    csrForm n xs true d new s = .next (done (modMe s1 (fun t => writeX t d (BitVec.ofNat 64 old)))) := by
  refine issueState_next hp (s2 := completed (modMe s1 (fun t => writeX t d (BitVec.ofNat 64 old))))
    (s1 := modMe s1 (fun t => writeX t d (BitVec.ofNat 64 old))) ?_
  rw [exec_theAgent_bind, exec_theState_bind, started_cur, hv]
  dsimp only
  rw [exec_bind_ok hnew, if_pos rfl, exec_bind_ok hst, exec_self_bind, exec_setX_bind, exec_theState_bind, if_neg (by simpa using hn)]
  rfl

theorem csrForm_refused {f : FaultInfo} (hp : Passes (csrAccess n xs true) s) (hv : csrValue (started s) s.cur n.toNat = some old)
    (hnew : new old (started s) = .ok (v, started s)) (hst : csrStore n.toNat (v % 2 ^ 64) (started s) = .error (.fault f)) :
    csrForm n xs true d new s = .next (takeFault s f) := by
  refine issueState_fault hp ?_
  rw [exec_theAgent_bind, exec_theState_bind, started_cur, hv]
  dsimp only
  rw [exec_bind_ok hnew, if_pos rfl, exec_bind_error hst]

/-! The new values: a register's word, and the old value with bits of it set or cleared. -/

theorem csrs_value : (do let x ← getX a; pure (old ||| x.toNat)) (started s) = .ok (old ||| (readX (me s) a).toNat, started s) := by
  rw [exec_getX_bind, readX_started, exec_pure]

theorem csrc_value : (do let x ← getX a; pure (old &&& (2 ^ 64 - 1 - x.toNat))) (started s) = .ok (old &&& (~~~(readX (me s) a)).toNat, started s) := by
  rw [exec_getX_bind, readX_started, exec_pure, BitVec.toNat_not]

/-- A strand whose latch XL a word has loaded. -/
def withXl (t : Strand) (v : Word) : Strand := { t with xlCount := bits v.toNat 63 62, xlBits := BitVec.ofNat 48 v.toNat }

theorem csrValue_xl (hc : isCourier s.cur = false) : csrValue (started s) s.cur (2 : BitVec 12).toNat = some ((me s).xlCount * 2 ^ 62 + (me s).xlBits.toNat) := by
  rw [csrValue, hc, ← started_cur s]
  show some ((me (started s)).xlCount * 2 ^ 62 + (me (started s)).xlBits.toNat) = _
  rw [me_started]

theorem csrStore_xl {w : Word} (hc : isCourier s.cur = false) (hcount : bits w.toNat 63 62 ≠ 3) :
    csrStore (2 : BitVec 12).toNat w.toNat s = .ok ((), modMe s (fun t => withXl t w)) := by
  rw [csrStore, exec_theAgent_bind, exec_theState_bind, hc, if_neg (by decide), if_neg (by decide), if_pos (by decide), if_neg hcount]
  rfl

/-- A write of XL loads the latch, and completing does not consume what it loaded. -/
theorem csrw_loads_xl (hp : Passes (csrAccess 2 [d, a] true) s) (hc : isCourier s.cur = false) (hcount : bits (readX (me s) a).toNat 63 62 ≠ 3) :
    ∃ t, execCsrw d a 2 s = .next t ∧ (getAgent t s.cur).xlCount = bits (readX (me s) a).toNat 63 62 ∧
      (getAgent t s.cur).xlBits = (readX (me s) a).setWidth 48 ∧ (getAgent t s.cur).pc = (me s).pc + 4 := by
  obtain ⟨w, hw⟩ : ∃ w, w = readX (me s) a := ⟨_, rfl⟩
  obtain ⟨stored, hstored⟩ : ∃ u, u = modMe (modMe (started s) (fun t => withXl t w))
      (fun t => writeX t d (BitVec.ofNat 64 ((me s).xlCount * 2 ^ 62 + (me s).xlBits.toNat))) := ⟨_, rfl⟩
  have hcur : stored.cur = s.cur := by rw [hstored, modMe_cur, modMe_cur, started_cur]
  have hbody : execCsrw d a 2 s = .next (tick (modMe (completed stored) (fun u => withXl u w))) := by
    refine issueState_next hp (s1 := stored) ?_
    rw [exec_theAgent_bind, exec_theState_bind, started_cur, csrValue_xl hc]
    dsimp only
    rw [exec_bind_ok (exec_getX_bind ..), readX_started, if_pos rfl, Nat.mod_eq_of_lt (readX (me s) a).isLt, ← hw,
      exec_bind_ok (csrStore_xl (by rw [started_cur, hc]) (hw ▸ hcount)), exec_self_bind, exec_setX_bind, exec_theState_bind, ← hstored, me_modMe]
    rfl
  refine ⟨_, hbody, ?_⟩
  have hpc : (me stored).pc = (me s).pc := by rw [hstored, me_modMe, writeX_pc, me_modMe, me_started, withXl]
  rw [getAgent_tick_other, ← hcur, ← completed_cur, modMe, getAgent_modAgent, completed_cur, getAgent_completed, hpc, ← hw]
  exact ⟨rfl, rfl, rfl⟩

/-- A rounding mode of 5 to 7 is refused, and FCSR stands. -/
theorem csrw_refuses_rounding (hp : Passes (csrAccess 1 [d, a] true) s) (hmode : 5 ≤ bits (readX (me s) a).toNat 7 5) :
    execCsrw d a 1 s = .next (takeFault s (faultInfo 0x01 0x05 0 0 0)) := by
  have hvalue : ∃ old, csrValue (started s) s.cur (1 : BitVec 12).toNat = some old := ⟨(getAgent (started s) s.cur).fcsr.toNat, by simp [csrValue]⟩
  obtain ⟨old, hold⟩ := hvalue
  refine csrForm_refused (v := (readX (me s) a).toNat) hp hold (by rw [exec_getX_bind, readX_started, exec_pure]) ?_
  rw [Nat.mod_eq_of_lt (readX (me s) a).isLt]
  exact (csrStore_fcsr _ _).trans (if_pos hmode)

end

/-- Settles O27: each form is `csrForm` with its new value; the value is a word, so that what is stored is the value itself. -/
theorem csrFormsReadAndWrite : Obligations.CsrFormsReadAndWrite := by
  unfold Obligations.CsrFormsReadAndWrite
  intro s d a n old
  refine ⟨fun hp => ⟨fun hv => ?_, fun hv => ?_⟩, fun hp hv => ⟨?_, ?_⟩, fun hp hn hv s1 => ⟨fun hst => ?_, fun ha hst => ?_, fun ha hst => ?_⟩,
    fun hp hc hcount => ?_, fun hp hmode => ?_⟩
  · exact csrForm_unnamed hp hv
  · exact csrForm_reads hp hv (exec_pure ..)
  · exact csrForm_reads hp hv (csrs_value (a := 0))
  · exact csrForm_reads hp hv (csrc_value (a := 0))
  · exact exec_csrw_stored hn hp hv hst
  · rw [exec_csrs, execCsrs, decide_eq_false ha]
    exact csrForm_stores hn hp hv csrs_value hst
  · rw [exec_csrc, execCsrc, decide_eq_false ha]
    refine csrForm_stores hn hp hv csrc_value ?_
    rwa [Nat.mod_eq_of_lt (Nat.and_lt_two_pow _ (BitVec.isLt _))]
  · exact csrw_loads_xl hp hc hcount
  · exact csrw_refuses_rounding hp hmode

/-! ## EXIT (16 R381; 05 R136, R152) -/

section
variable {s : State}

theorem exit_leaks (hp : Passes plainForm s) (h : (me s).a.toList.any Option.isSome = true) :
    execExit s = .next (takeFault s (faultInfo 0x0B 0 0 0 (boundNames (me s)))) := by
  refine issueState_fault hp ?_
  rw [exec_theAgent_bind, exec_self_bind, me_started, if_pos h]
  rfl

theorem unbindStream_unbound {q : Nat} (h : (streamOf (me s) q).bound = false) : unbindStream q s = .ok ((), s) := by
  rw [unbindStream, exec_theAgent_bind, exec_self_bind, h]
  rfl

/-- An execution that each lane in turn leaves as it is. -/
theorem eachLane_keeps {f : Nat → Exec Unit} {ls : List Nat} (h : ∀ l ∈ ls, f l s = .ok ((), s)) : eachLane f ls s = .ok ((), s) := by
  induction ls with
  | nil => rfl
  | cons l ls ih =>
    rw [eachLane, exec_bind_ok (h l List.mem_cons_self)]
    exact ih fun k hk => h k (List.mem_cons_of_mem l hk)

theorem exit_ends (hp : Passes plainForm s) (hnames : (me s).a.toList.any Option.isSome = false) (hstreams : ∀ q < 8, (streamOf (me s) q).bound = false) :
    execExit s = .next (tick (endActivation (started s) s.cur 0)) := by
  refine issueState_next hp (s1 := started s) ?_
  have hunbound : eachLane unbindStream (List.range 8) (started s) = .ok ((), started s) :=
    eachLane_keeps fun q hq => unbindStream_unbound (by rw [me_started]; exact hstreams q (List.mem_range.mp hq))
  rw [exec_theAgent_bind, exec_self_bind, me_started, if_neg (ne_true_of_eq_false hnames)]
  beta_reduce
  rw [exec_bind_ok hunbound, started_cur]
  rfl

/-! The end of a block outside a recorded run. -/

/-- What a run counts of its blocks. -/
def blockCounts (r : Run) : SMap BlockState × Nat × Nat × BitVec 8 := (r.blocks, r.exited, r.remaining, r.faultCode)

theorem writeEntry_unrecorded {run : BitVec 32} (h : (getRun s run).lr.record = false) (block : Nat) (b : ReadBuffer) (valid : Bool) :
    writeEntry s run block b valid = s := by
  rw [writeEntry, h]
  rfl

theorem endEntry_unrecorded {run : BitVec 32} (h : (getRun s run).lr.record = false) (block : Nat) (b : ReadBuffer) (valid : Bool) :
    endEntry s run block b valid = s := by
  rw [endEntry, h, Bool.false_and, if_neg Bool.false_ne_true, writeEntry_unrecorded h]

/-- Closing the entries of a run that records nothing forgets them, and counts no block. -/
theorem closeEntries_unrecorded {run : BitVec 32} (h : (getRun s run).lr.record = false) :
    (closeEntries s run).strands = s.strands ∧ blockCounts (getRun (closeEntries s run) run) = blockCounts (getRun s run) := by
  unfold closeEntries
  generalize (getRun s run).ending.filter _ = entries
  induction entries generalizing s with
  | nil => exact ⟨rfl, rfl⟩
  | cons e entries ih =>
    have hdropped : (getRun (modRun s run (fun r => { r with ending := r.ending.del e.1 })) run).lr.record = false := by
      rw [getRun_modRun]
      exact h
    obtain ⟨hstrands, hcounts⟩ := ih hdropped
    rw [List.foldl_cons, writeEntry_unrecorded hdropped]
    refine ⟨hstrands, hcounts.trans ?_⟩
    rw [getRun_modRun]
    rfl

/-- A run with blocks that remain goes on. -/
theorem checkRun_remaining {run : BitVec 32} (h : (getRun s run).lr.record = false) (hr : (getRun s run).remaining ≠ 0) :
    (checkRun s run).strands = s.strands ∧ blockCounts (getRun (checkRun s run) run) = blockCounts (getRun s run) := by
  have hclosed : ∀ t, blockCounts (getRun t run) = blockCounts (getRun s run) →
      (!(t.runs.has run.toNat) || !decide ((getRun t run).remaining = 0) || runBusy t run) = true := by
    intro t ht
    have hremaining : (getRun t run).remaining = (getRun s run).remaining := congrArg (·.2.2.1) ht
    rw [hremaining, decide_eq_false hr, Bool.not_false, Bool.or_true, Bool.true_or]
  rw [checkRun]
  by_cases hending : (getRun s run).ending.isEmpty = true
  · rw [if_pos hending, if_pos (hclosed s rfl)]
    exact ⟨rfl, rfl⟩
  · obtain ⟨hstrands, hcounts⟩ := closeEntries_unrecorded h
    rw [if_neg hending, if_pos (hclosed _ hcounts)]
    exact ⟨hstrands, hcounts⟩

theorem gearCheck_strands (s : State) (k : Nat) : (gearCheck s k).strands = s.strands := by
  unfold gearCheck
  dsimp only
  split
  · rcases idleCheck_cases (modTile s k (fun t => { t with doze := tileDozes s k })) k with h | h
    · rw [h]
      rfl
    · rw [h]
      rfl
  · unfold beginChange
    split <;> rfl

theorem has_del_self {α : Type} (m : SMap α) (k : Nat) : (m.del k).has k = false := by
  rw [SMap.has, SMap.del, List.any_eq_false]
  intro e he
  simpa using (List.mem_filter.mp he).2

theorem freeStrand_frees (s : State) (n : Nat) : (freeStrand s n).strands.has n = false ∧ (freeStrand s n).runs = s.runs := by
  rw [freeStrand]
  dsimp only
  rw [gearCheck_strands, gearCheck_runs]
  split
  · exact ⟨has_del_self .., rfl⟩
  · exact ⟨has_del_self .., rfl⟩

theorem getRun_congr {t : State} (h : t.runs = s.runs) (run : BitVec 32) : getRun t run = getRun s run := by
  rw [getRun, getRun, h]

/-- A block of a run that records nothing exits: its strand is free, and its run counts it. -/
theorem finishBlock_exits {n i : Nat} {run : BitVec 32} (hact : (s.strands.get {} n).act = .block run i) (hrec : (getRun s run).lr.record = false)
    (hmore : 1 < (getRun s run).remaining) : (finishBlock s n 0).strands.has n = false ∧ blockCounts (getRun (finishBlock s n 0) run) =
      ((getRun s run).blocks.set i .exited, (getRun s run).exited + 1, (getRun s run).remaining - 1, (getRun s run).faultCode) := by
  let exits : Run → Run := fun r => { r with blocks := r.blocks.set i .exited, exited := r.exited + 1, remaining := r.remaining - 1,
                                             faultCode := if r.faultCode = 0 then 0 else r.faultCode }
  obtain ⟨hfree, hruns⟩ := freeStrand_frees (freeBanks (modRun s run exits) n) n
  have hrun : getRun (freeStrand (freeBanks (modRun s run exits) n) n) run = exits (getRun s run) := by
    rw [getRun_congr hruns, getRun_congr (s := modRun s run exits) (t := freeBanks (modRun s run exits) n) rfl, getRun_modRun]
  have hfinish : finishBlock s n 0 = checkRun (freeStrand (freeBanks (modRun s run exits) n) n) run := by
    rw [finishBlock, hact]
    dsimp only
    rw [endEntry_unrecorded hrec]
    rfl
  obtain ⟨hstrands, hcounts⟩ := checkRun_remaining (s := freeStrand (freeBanks (modRun s run exits) n) n) (run := run) (by rw [hrun]; exact hrec)
    (by rw [hrun]; exact Nat.sub_ne_zero_of_lt hmore)
  refine ⟨by rw [hfinish, hstrands, hfree], ?_⟩
  rw [hfinish, hcounts, hrun]
  refine congrArg (fun f => ((getRun s run).blocks.set i .exited, (getRun s run).exited + 1, (getRun s run).remaining - 1, f)) ?_
  exact (ite_eq_right_iff.mpr Eq.symm)

end

/-! ## YIELD and GEAR (16 R382, R387) -/

section
variable {s : State}

/-- The strands of `n`'s core, but itself, that hold work and can issue. -/
def otherReady (s : State) (n : Nat) : List Nat :=
  (List.range 4).filterMap (fun k =>
    let t := s.strands.get {} (4 * (n / 4) + k)
    if 4 * (n / 4) + k = n || decide (t.act = .free) || !decide (t.status = .ready) then none else some (4 * (n / 4) + k))

theorem mem_otherReady {n k : Nat} : k ∈ otherReady s n ↔ (∃ j < 4, k = 4 * (n / 4) + j) ∧ k ≠ n ∧ (s.strands.get {} k).act ≠ .free ∧
    (s.strands.get {} k).status = .ready := by
  simp only [otherReady, List.mem_filterMap, List.mem_range]
  constructor
  · rintro ⟨j, hj, hk⟩
    split at hk
    · cases hk
    · next h =>
      cases hk
      simp only [Bool.or_eq_true, decide_eq_true_eq, Bool.not_eq_true', decide_eq_false_iff_not, not_or, not_not] at h
      exact ⟨⟨j, hj, rfl⟩, h.1.1, h.1.2, h.2⟩
  · rintro ⟨⟨j, hj, rfl⟩, hne, hact, hstatus⟩
    refine ⟨j, hj, ?_⟩
    rw [if_neg]
    simp only [Bool.or_eq_true, decide_eq_true_eq, Bool.not_eq_true', decide_eq_false_iff_not, not_or, not_not]
    exact ⟨⟨hne, hact⟩, hstatus⟩

/-- The state of a YIELD before time passes. -/
def yielded (s : State) : State :=
  match s.cur with
  | .strand n => if (otherReady s n).isEmpty then completed s
      else modCore (completed s) (n / 4) (fun u => { u with yields := u.yields ++ [(n, otherReady s n)] })
  | .courier _ => completed s

theorem yield_waits (hp : Passes (noCourier []) s) : execYield s = .next (tick (yielded (started s))) := by
  refine issueState_next hp (s1 := started s) ?_
  rw [exec_theAgent_bind, exec_theState_bind, yielded]
  cases (started s).cur <;> rfl

theorem getAgent_yielded (a : Agent) : getAgent (yielded s) a = getAgent (completed s) a := by
  unfold yielded
  split
  · split <;> rfl
  · rfl

theorem yields_yielded {n k : Nat} (hcur : s.cur = .strand n) (hk : k ∈ otherReady s n) :
    (n, otherReady s n) ∈ (getCore (yielded s) (n / 4)).yields := by
  have hsome : ¬ (otherReady s n).isEmpty = true := by
    rw [List.isEmpty_iff]
    exact List.ne_nil_of_mem hk
  rw [yielded, hcur]
  dsimp only
  rw [if_neg hsome, getCore_modCore]
  exact List.mem_append_right _ (List.mem_singleton.mpr rfl)

theorem gear_swaps {d : BitVec 5} {g : BitVec 1} (hp : Passes (noCourier [d]) s) : execGear d g s = .next (done (gearCheck
    (modMe (started s) (fun t => { writeX t d (if t.gearReq then 1 else 0) with gearReq := decide (g = 1) })) (agentTile s.cur))) := by
  have hword : ∀ b : Bool, BitVec.ofNat 64 (b2n b) = if b then 1 else 0 := by decide
  refine issue_next hp ?_
  have hstate : modMe (modMe (started s) (fun t => writeX t d (BitVec.ofNat 64 (b2n (me (started s)).gearReq)))) (fun t => { t with gearReq := decide (g = 1) }) =
      modMe (started s) (fun t => { writeX t d (if t.gearReq then 1 else 0) with gearReq := decide (g = 1) }) := by
    rw [modMe_modMe, hword]
    exact modMe_congr rfl
  rw [exec_theAgent_bind, exec_self_bind, exec_setX_bind, started_cur, ← hstate]
  rfl

end

/-- Settles O29, word by word: an EXIT that nothing holds up is the end of its activation, which counts the block once (`finishBlock_exits`), and a
YIELD waits for the strands that are ready beside its own (`mem_otherReady`). -/
theorem exitYieldAndGear : Obligations.ExitYieldAndGear := by
  unfold Obligations.ExitYieldAndGear
  intro s d g
  refine ⟨fun hp => ⟨fun h => exit_leaks hp h, fun hnames hstreams _ => exit_ends hp hnames hstreams⟩, fun n i run hact hrec hmore => ?_, fun hp => ?_,
    fun hp => gear_swaps hp⟩
  · obtain ⟨hfree, hcounts⟩ := finishBlock_exits hact hrec hmore
    refine ⟨hfree, congrArg (·.2.1) hcounts, congrArg (·.2.2.1) hcounts, ?_, congrArg (·.2.2.2) hcounts⟩
    have hblocks : (getRun (finishBlock s n 0) run).blocks = (getRun s run).blocks.set i .exited := congrArg (·.1) hcounts
    exact (congrArg (fun m : SMap BlockState => m.get .waiting i) hblocks).trans (smap_get_set ..)
  · refine ⟨_, yield_waits hp, ?_, ?_⟩
    · rw [getAgent_tick_other, getAgent_yielded, ← started_cur s, getAgent_completed, me_started]
      rfl
    · intro n hcur k hj hne hact hstatus
      have hget : (started s).strands.get {} k = s.strands.get {} k :=
        getAgent_modMe_ne s (b := .strand k) _ (by rw [hcur]; exact fun h => hne (Agent.strand.inj h))
      have hk : k ∈ otherReady (started s) n := mem_otherReady.mpr ⟨hj, hne, by rw [hget]; exact hact, by rw [hget]; exact hstatus⟩
      exact ⟨_, yields_yielded (by rw [started_cur, hcur]) hk, hk⟩

end Sys2Proof.Machine
end

section
/-!
PROOFS. Messages, the mailbox and work (16 R383, R384, R389 to R391, R393 to R396).
-/
namespace Sys2Proof.Machine

section
variable {s : State} {d a b : BitVec 5}

/-! ## What an agent sees of a started state -/

theorem getCore_started (s : State) (k : Nat) : getCore (started s) k = getCore s k := by
  rw [started, getCore_modMe_other]

theorem getRun_started (s : State) (run : BitVec 32) : getRun (started s) run = getRun s run := by
  rw [started, getRun_modMe_other]

theorem recording_started (s : State) : recording (started s) s.cur = recording s s.cur := by
  rw [recording, getRun_started, agentRun_started, recording]

theorem exec_namedBarrier_zero {va : Word} (h : va = 0) (s : State) : namedBarrier va s = .ok ((), s) := by
  rw [namedBarrier, if_pos h]
  rfl

/-- A word that completes leaves its cores' inboxes and handlers. -/
theorem getCore_done (s : State) (k : Nat) : (getCore (done s) k).inbox = (getCore s k).inbox ∧ (getCore (done s) k).handlers = (getCore s k).handlers := by
  rw [(movesBesideAgents_done s).core k]
  exact ⟨rfl, rfl⟩

/-! ## SEND (16 R390) -/

theorem send_arrives (hp : Passes (sendForm d a b) s) (hbad : targetBad (readX (me s) a).toNat true = false)
    (hdev : (targetOf (readX (me s) a).toNat).dev = devnum s) (host : ostlerTile s ((targetOf (readX (me s) a).toNat).core / 4) = false)
    (hrun : (readX (me s) b).toNat < 2 ^ 32) :
    let m := targetOf (readX (me s) a).toNat
    let run := if readX (me s) b = 0 then agentRun s s.cur else (readX (me s) b).setWidth 32
    execSend d a b s = .next (match sendArrives (started s) m run (some (agentCtx s s.cur)) (readV (me s) d) with
      | .held s1 => done s1
      | .refused code sub => takeFault s (faultInfo code sub 1 (readX (me s) a) (if code = 0x0A then m.dev else 0))
      | .full => waiting (started s)) := by
  intro m run
  rw [execSend, issue_outcome hp, exec_theAgent_bind, exec_getX_bind, readX_started, exec_getX_bind, readX_started, exec_getV_bind, readV_started,
    exec_self_bind, exec_theState_bind]
  dsimp only
  rw [if_neg (ne_true_of_eq_false hbad)]
  rw [started_cur, agentRun_started, agentCtx_started, devnum_started, if_pos hdev, ostlerTile_started, host, Bool.false_and,
    if_neg Bool.false_ne_true, if_neg (Nat.not_le.mpr hrun)]
  show outcomeOf s ((match sendArrives (started s) m run (some (agentCtx s s.cur)) (readV (me s) d) with
    | .held s1 => update (fun _ => s1)
    | .refused code sub => raise code sub 1 (readX (me s) a) (if code = 0x0A then m.dev else 0)
    | .full => stall) (started s)) = _
  cases sendArrives (started s) m run (some (agentCtx s s.cur)) (readV (me s) d) with
  | held s1 => rfl
  | refused code sub => rfl
  | full => rfl

/-! ## COURIER (16 R391, 05 R141) -/

theorem fieldAt_patch_after {bs new : List Byte} {k : Nat} (n : Nat) (h : new.length ≤ k) : new.length ≤ bs.length → fieldAt (patch bs 0 new) k n = fieldAt bs k n := by
  intro hlen
  have hwhole : patch bs 0 new = new ++ bs.drop new.length := by
    rw [patch, List.take_zero, List.nil_append, Nat.zero_add]
    exact List.take_of_length_le (by rw [List.length_append, List.length_drop, Nat.add_sub_cancel' hlen])
  rw [hwhole, fieldAt_append_skip _ _ h, fieldAt_drop, Nat.add_sub_cancel' h]

/-- The message that a strand's COURIER with the entry at `va` makes, with the budget of a strand's couriers. -/
def courierMade (s : State) (va : Word) : CourierMsg :=
  courierOf (patch (localBytes s va 128) 0 [2, 64]) 64 (localTile s) (imageId s (localTile s) (agentRun s s.cur)) none

theorem courier_leaves (hp : Passes (xForm [a, b]) s) (hcur : isCourier s.cur = false) (hbad : targetBad (readX (me s) a).toNat false = false)
    (hdev : (targetOf (readX (me s) a).toNat).dev = devnum s) (host : ostlerTile s ((targetOf (readX (me s) a).toNat).core / 4) = false)
    (halign : (readX (me s) b).toNat % 128 = 0) (hwindow : inWindow (readX (me s) b).toNat = true)
    (hscratch : inScratch (getTile s (localTile s)) (localOff (readX (me s) b)) 128 = true) (hsound : Sound s (localTile s) (localOff (readX (me s) b)) 128)
    (hroom : inboxUsed (getCore s (targetOf (readX (me s) a).toNat).core) < 32) :
    let desc := localBytes s (readX (me s) b) 128
    1 ≤ fieldAt desc 2 1 → fieldAt desc 2 1 ≤ 16 → zeroAt desc 3 1 = true → zeroAt desc 56 8 = true → fieldAt desc 8 8 = 0 →
    execCourier a b s = .next (done (inboxCourier (started s) (targetOf (readX (me s) a).toNat).core (courierMade s (readX (me s) b)))) := by
  intro desc hlo hhi hzero3 hzero56 hbar
  rw [execCourier, issue_outcome hp, exec_theAgent_bind, exec_getX_bind, readX_started, exec_getX_bind, readX_started, exec_self_bind, exec_theState_bind]
  dsimp only
  rw [exec_bind_ok (exec_canonical_ok 0 (lt_of_inWindow hwindow) _), started_cur, hcur, Bool.false_and, if_neg Bool.false_ne_true]
  rw [if_neg (ne_true_of_eq_false hbad)]
  have hinside : (inWindow (readX (me s) b).toNat && inScratch (getTile (started s) (agentTile s.cur)) ((readX (me s) b).toNat - windowBase) 128) = true := by
    rw [getTile_started, hwindow, Bool.true_and]
    exact hscratch
  have hpool : poolSound 0 (readX (me s) b) (agentTile s.cur) ((readX (me s) b).toNat - windowBase) 128 (started s) = .ok ((), started s) :=
    exec_poolSound 0 (by rw [Sound, getTile_started]; exact hsound)
  have hdesc : poolRead (started s) (agentTile s.cur) ((readX (me s) b).toNat - windowBase) 128 = desc := by
    have hpool : poolRead (started s) (agentTile s.cur) ((readX (me s) b).toNat - windowBase) 128 =
        poolRead s (agentTile s.cur) ((readX (me s) b).toNat - windowBase) 128 := by rw [poolRead, poolRead, getTile_started]
    exact hpool
  have hlegal : ¬ (decide (fieldAt desc 2 1 = 0) || decide (16 < fieldAt desc 2 1) || !zeroAt desc 3 1 || !zeroAt desc 56 8) = true := by
    simp only [hzero3, hzero56, Bool.not_true, Bool.or_false, Bool.or_eq_true, decide_eq_true_eq]
    omega
  have himage : imageId (started s) (agentTile s.cur) (agentRun s s.cur) = imageId s (agentTile s.cur) (agentRun s s.cur) := by
    rw [imageId, imageId, getTile_started]
  rw [if_neg (by rw [halign]; decide), if_neg (by rw [hinside]; decide), exec_bind_ok hpool, hdesc, if_neg hlegal, hbar,
    exec_bind_ok (exec_namedBarrier_zero (va := 0#64) rfl _), devnum_started, if_pos hdev, ostlerTile_started, host, Bool.false_and, if_neg Bool.false_ne_true,
    getCore_started, if_neg (Nat.not_le.mpr hroom), exec_update, agentRun_started, himage]
  simp only [Bool.false_eq_true, if_false]
  rfl

/-! ## BIND and UNBIND (05 R144) -/

theorem mem_setHandler_none {u : CoreUnit} {run r : BitVec 32} {slot k : Nat} {h : Word} : (r, k, h) ∈ (setHandler u run slot none).handlers ↔
    (r, k, h) ∈ u.handlers ∧ ¬ (r = run ∧ k = slot) := by
  simp only [setHandler, Option.map_none, Option.toList_none, List.append_nil, List.mem_filter, Bool.not_eq_true', Bool.and_eq_false_iff, beq_eq_false_iff_ne,
    ne_eq, not_and_or]

theorem mem_setHandler_some {u : CoreUnit} {run r : BitVec 32} {slot k : Nat} {x h : Word} : (r, k, h) ∈ (setHandler u run slot (some x)).handlers ↔
    if r = run ∧ k = slot then h = x else (r, k, h) ∈ u.handlers := by
  have hsplit : (r, k, h) ∈ (setHandler u run slot (some x)).handlers ↔ (r, k, h) ∈ (setHandler u run slot none).handlers ∨ (r, k, h) = (run, slot, x) := by
    simp only [setHandler, Option.map_some, Option.toList_some, Option.map_none, Option.toList_none, List.append_nil, List.mem_append, List.mem_singleton]
  rw [hsplit, mem_setHandler_none, Prod.mk.injEq, Prod.mk.injEq]
  by_cases hrk : r = run ∧ k = slot
  · rw [if_pos hrk]
    simp only [hrk, and_self, not_true_eq_false, and_false, true_and, false_or]
  · rw [if_neg hrk]
    constructor
    · rintro (⟨hmem, -⟩ | ⟨hr, hk, -⟩)
      · exact hmem
      · exact absurd ⟨hr, hk⟩ hrk
    · exact fun hmem => .inl ⟨hmem, hrk⟩

theorem exec_slotChecked {v : Word} (hv : v.toNat < 4) (hboot : (bootOfSlot (getRun s (agentRun s s.cur)).lr v.toNat).isSome = true) :
    slotChecked v (started s) = .ok ((), started s) := by
  have hnone : (bootOfSlot (getRun s (agentRun s s.cur)).lr v.toNat).isNone = false := by rw [← Option.not_isSome, hboot]; rfl
  rw [slotChecked, exec_theAgent_bind, exec_theState_bind, started_cur, agentRun_started, getRun_started, hnone, Bool.or_false, if_neg (by simpa using hv)]
  rfl

theorem bind_sets (hp : Passes (noCourier [a, b]) s) (hne : readX (me s) a ≠ 0) (halign : (readX (me s) a).toNat % 4 = 0) (hslot : (readX (me s) b).toNat < 4)
    (hboot : (bootOfSlot (getRun s (agentRun s s.cur)).lr (readX (me s) b).toNat).isSome = true) :
    execBind a b s = .next (done (wakeCore (modCore (started s) (agentCore s.cur)
      (fun u => setHandler u (agentRun s s.cur) (readX (me s) b).toNat (some (readX (me s) a)))) (agentCore s.cur))) := by
  rw [execBind, issue_outcome hp, exec_theAgent_bind, exec_getX_bind, readX_started, exec_getX_bind, readX_started, if_neg (Nat.not_le.mpr hslot)]
  beta_reduce
  rw [if_neg (by simp only [Bool.or_eq_true, decide_eq_true_eq, Bool.not_eq_true', decide_eq_false_iff_not]; exact fun h => h.elim hne (absurd halign))]
  beta_reduce
  rw [exec_bind_ok (exec_slotChecked hslot hboot), started_cur, exec_update, agentRun_started]
  rfl

theorem unbind_clears (hp : Passes (noCourier [b]) s) (hslot : (readX (me s) b).toNat < 4)
    (hboot : (bootOfSlot (getRun s (agentRun s s.cur)).lr (readX (me s) b).toNat).isSome = true) :
    execUnbind b s = .next (done (modCore (started s) (agentCore s.cur) (fun u => setHandler u (agentRun s s.cur) (readX (me s) b).toNat none))) := by
  rw [execUnbind, issue_outcome hp, exec_theAgent_bind, exec_getX_bind, readX_started, exec_bind_ok (exec_slotChecked hslot hboot), started_cur, exec_update,
    agentRun_started]
  rfl

end

/-- Settles O30, word by word: what the target core answers decides a SEND, and COURIER, BIND and UNBIND change the inbox or the handlers of
their core. -/
theorem messagesReachTheirCore : Obligations.MessagesReachTheirCore := by
  unfold Obligations.MessagesReachTheirCore
  intro s d a b
  dsimp only
  refine ⟨fun hp hbad hdev host hrun => send_arrives hp hbad hdev host hrun, ?_, fun hp hne halign hslot hboot => ?_, fun hp hslot hboot => ?_⟩
  · intro hp hcur hbad hdev host halign hwindow hscratch hsound hroom hlo hhi hzero3 hzero56 hbar
    refine ⟨_, courierMade s (readX (me s) b), courier_leaves hp hcur hbad hdev host halign hwindow hscratch hsound hroom hlo hhi hzero3 hzero56 hbar, rfl, ?_, ?_⟩
    · exact congrArg (BitVec.ofNat 32) (fieldAt_patch_after 4 (by decide) (by rw [localBytes, poolRead, length_memRead]; decide))
    · rw [(getCore_done _ _).1, inboxCourier, getCore_later_other, getCore_modCore, getCore_started]
  · refine ⟨_, bind_sets hp hne halign hslot hboot, fun r k h => ?_⟩
    rw [(getCore_done _ _).2, wakeCore, getCore_later_other, getCore_modCore, getCore_started]
    exact mem_setHandler_some
  · refine ⟨_, unbind_clears hp hslot hboot, fun r k h => ?_⟩
    rw [(getCore_done _ _).2, getCore_modCore, getCore_started]
    exact mem_setHandler_none

/-! ## The mailbox (16 R383, R384) -/

section
variable {s s1 s2 s3 : State} {d a : BitVec 5} {tg : Target} {old slot : Nat} {mb : Word} {msg : List Byte}

theorem recv_noncanonical (hp : Passes (noCourier [d, a]) s) (h : 2 ^ 57 ≤ (readX (me s) a).toNat) :
    execSvcRecv d a s = .next (takeFault s (faultInfo 0x05 0x02 2 (readX (me s) a) 0)) := by
  rw [execSvcRecv, issue_outcome hp, exec_getX_bind, readX_started, exec_bind_error (exec_canonical_fault 2 h _)]
  rfl

theorem recv_misaligned (hp : Passes (noCourier [d, a]) s) (h : (readX (me s) a).toNat < 2 ^ 57) (halign : (readX (me s) a).toNat % 8192 ≠ 0) :
    execSvcRecv d a s = .next (takeFault s (faultInfo 0x03 0 2 (readX (me s) a) 0)) := by
  rw [execSvcRecv, issue_outcome hp, exec_getX_bind, readX_started, exec_bind_ok (exec_canonical_ok 2 h _), if_pos (by simpa using halign)]
  rfl

theorem recv_claims (hp : Passes (noCourier [d, a]) s) (h : (readX (me s) a).toNat < 2 ^ 57) (halign : (readX (me s) a).toNat % 8192 = 0)
    (hcheck : mailboxCheck (readX (me s) a) (started s) = .ok (tg, s1)) (hreply : (me s1).replyValue = none)
    (hword : mailboxWord (readX (me s) a) s1 = .ok (old, s2)) :
    (bits old 31 0 = bits old 63 32 → execSvcRecv d a s = .next (waiting s2)) ∧
    (bits old 31 0 ≠ bits old 63 32 → mailboxSwap (readX (me s) a) tg old (setBits old 63 32 (bits old 63 32 + 1)) s2 = .ok (true, s3) →
      execSvcRecv d a s = .next (done (modMe s3 (fun t => writeX t d (readX (me s) a + 128 + BitVec.ofNat 64 (64 * (bits old 63 32 % 64))))))) := by
  refine ⟨fun heq => ?_, fun hne hswap => ?_⟩
  · rw [execSvcRecv, issue_outcome hp, exec_getX_bind, readX_started, exec_bind_ok (exec_canonical_ok 2 h _), if_neg (by rw [halign]; decide)]
    beta_reduce
    rw [exec_bind_ok hcheck, exec_self_bind, hreply]
    dsimp only
    rw [exec_bind_ok hword, if_pos heq]
    rfl
  · rw [execSvcRecv, issue_outcome hp, exec_getX_bind, readX_started, exec_bind_ok (exec_canonical_ok 2 h _), if_neg (by rw [halign]; decide)]
    beta_reduce
    rw [exec_bind_ok hcheck, exec_self_bind, hreply]
    dsimp only
    rw [exec_bind_ok hword, if_neg hne, claimNext, exec_bind_ok hswap]
    rfl

theorem resume_replies {c : BitVec 12} (hp : Passes (resumeForm d a c) s) (hacks : (me s).acks = 0)
    (hslot : busySlot (readX (me s) a) (started s) = .ok ((mb, slot, msg), s1)) (hdev : fieldAt msg 36 2 = devnum s1) :
    execSvcResume d a c s = .next (done (later s1 [.reply (replyFor mb msg c.toNat (readX (me s) d))])) := by
  rw [execSvcResume, issue_outcome hp, exec_bind_ok (exec_waitAcks_ok (by rw [me_started]; exact hacks)), exec_getX_bind, readX_started, exec_getX_bind,
    readX_started, exec_theAgent_bind, exec_bind_ok hslot]
  dsimp only
  rw [exec_update, if_pos hdev]
  rfl

theorem kill_starts (hp : Passes (noCourier [a]) s) (hslot : busySlot (readX (me s) a) (started s) = .ok ((mb, slot, msg), s1))
    (hclear : clearBusy s1 mb slot = .ok () s2) (hdev : fieldAt msg 36 2 = devnum s2) :
    execSvcKill a s = .next (done (later s2 [.kill (BitVec.ofNat 32 (fieldAt msg 4 4))])) := by
  have hserved : served 2 (readX (me s) a) (fun s => clearBusy s mb slot) s1 = .ok ((), s2) := by rw [served, hclear]
  rw [execSvcKill, issue_outcome hp, exec_getX_bind, readX_started, exec_theAgent_bind, exec_bind_ok hslot]
  dsimp only
  rw [exec_bind_ok hserved, exec_update, if_pos hdev]
  rfl

end

/-- Settles O31, word by word; a claim is won when the mailbox word is still the one that was read (`recv_claims`). -/
theorem serviceFormsUseTheMailbox : Obligations.ServiceFormsUseTheMailbox := by
  unfold Obligations.ServiceFormsUseTheMailbox
  intro s s1 s2 s3 d a c tg old slot mb msg
  exact ⟨fun hp => ⟨fun h => recv_noncanonical hp h, fun h halign => recv_misaligned hp h halign,
      fun h halign hcheck hreply hword => recv_claims hp h halign hcheck hreply hword⟩,
    fun hp hacks hslot hdev => resume_replies hp hacks hslot hdev, fun hp hslot hclear hdev => kill_starts hp hslot hclear hdev⟩

/-! ## Work (16 R393 to R396) -/

section
variable {s s1 s2 : State} {d a b : BitVec 5} {bytes : List Byte}

theorem launch_refuses (hp : Passes (noCourier [d, a, b]) s) (hb : readX (me s) b = 0) (hread : readRecord (readX (me s) a) (started s) = .ok (bytes, s1))
    (hvalid : recordValid bytes = false) : execLaunch d a b s = .next (done (modMe s1 (fun t => writeX t d 0))) := by
  rw [execLaunch, issue_outcome hp, exec_theAgent_bind, exec_getX_bind, readX_started, exec_getX_bind, readX_started,
    exec_bind_ok (exec_namedBarrier_zero hb _), exec_bind_ok hread, exec_theState_bind, hvalid]
  rfl

theorem launch_starts (hp : Passes (noCourier [d, a, b]) s) (hb : readX (me s) b = 0) (hread : readRecord (readX (me s) a) (started s) = .ok (bytes, s1))
    (hvalid : recordValid bytes = true) (hheld : regionHeld s1 (agentCtx s1 s.cur) (recordOf bytes) = .ok true s2) :
    let r := startRun s2 (agentCtx s1 s.cur) (recordOf bytes) 0 (blockCount (recordOf bytes)) .none
    execLaunch d a b s = .next (done (modMe (bindRun r.1 r.2 (getCtx r.1 (agentCtx s1 s.cur)).prio) (fun t => writeX t d (r.2.setWidth 64)))) := by
  intro r
  have hserved : served 0 (readX (me s) a) (fun u => regionHeld u (agentCtx s1 s.cur) (recordOf bytes)) s1 = .ok (true, s2) := by rw [served, hheld]
  have hcompletion : completionAt s2 s.cur 0 = .none := rfl
  rw [execLaunch, issue_outcome hp, exec_theAgent_bind, exec_getX_bind, readX_started, exec_getX_bind, readX_started,
    exec_bind_ok (exec_namedBarrier_zero hb _), exec_bind_ok hread, exec_theState_bind, hvalid, hb, started_cur]
  dsimp only
  rw [if_neg (by decide), exec_bind_ok hserved, if_neg (by decide), exec_theState_bind, hcompletion]
  rw [exec_update_bind, exec_setX, BitVec.ofNat_toNat]
  rfl

theorem relaunch_unknown {l : BitVec 8} (hp : Passes (noCourier [d, a, b]) s) (hb : readX (me s) b = 0)
    (hrun : s.runs.has ((readX (me s) a).setWidth 32).toNat = false) : execRelaunch d a b l s = .next (wrote s (fun t => writeX t d 1)) := by
  have hruns : (started s).runs.has (BitVec.ofNat 32 (readX (me s) a).toNat).toNat = false := by
    rw [started, modMe_runs]
    exact hrun
  rw [execRelaunch, issue_outcome hp, exec_theAgent_bind, exec_getX_bind, readX_started, exec_getX_bind, readX_started,
    exec_bind_ok (exec_namedBarrier_zero hb _), exec_theState_bind]
  rw [hruns, if_pos (by simp)]
  rfl

theorem wbAll_records (hp : Passes (noCourier []) s) : execWbAll s = .next (
    if recording s s.cur then wrote s (fun t => { t with buffer := { t.buffer with all := true } }) else wrote s id) := by
  rw [execWbAll, issue_outcome hp, exec_theAgent_bind, exec_theState_bind, started_cur, recording_started, exec_ite]
  split
  · rfl
  · rw [wrote, started_id]
    rfl

theorem wbSkip_unrecorded (hp : Passes (noCourier [a, b]) s) (h : recording s s.cur = false) : execWbSkip a b s = .next (wrote s id) := by
  rw [execWbSkip, issue_outcome hp, exec_theAgent_bind, exec_getX_bind, readX_started, exec_getX_bind, readX_started, exec_theState_bind, started_cur,
    recording_started, h, wrote, started_id]
  rfl

end

/-- Settles O32, word by word. -/
theorem workFormsStartRuns : Obligations.WorkFormsStartRuns := by
  unfold Obligations.WorkFormsStartRuns
  intro s s1 s2 d a b l bytes
  exact ⟨fun hp hb hread => ⟨fun hvalid => launch_refuses hp hb hread hvalid, fun hvalid hheld => launch_starts hp hb hread hvalid hheld⟩,
    fun hp hb hrun => relaunch_unknown hp hb hrun, fun hp => wbAll_records hp, fun hp h => wbSkip_unrecorded hp h⟩

end Sys2Proof.Machine
end

section
/-!
PROOFS. The Felt words (16 R375 to R377).
-/
namespace Sys2Proof.Machine

/-! ## A command at its array's queue -/

section
variable {s s1 : State} {g : Nat} {op : FeltOp} {bar : Word}

theorem feltMayJoin_iff : FeltMayJoin s op ↔ feltIssue.feltOperand op = false ∨ (me s).acks = 0 := by
  have hmemory : ∀ a : Word, (∀ x, some a = some x → inWindow x.toNat = false → (me s).acks = 0) ↔ (!inWindow a.toNat) = false ∨ (me s).acks = 0 := by
    intro a
    cases hw : inWindow a.toNat with
    | false => exact ⟨fun h => .inr (h a rfl hw), fun h x hx _ => h.resolve_left (by decide)⟩
    | true => exact ⟨fun _ => .inl rfl, fun _ x hx hno => by cases hx; rw [hw] at hno; cases hno⟩
  cases op with
  | cfg _ a => exact hmemory a
  | scale _ a => exact hmemory a
  | ic _ a => exact hmemory a
  | sample _ a => exact hmemory a
  | run | settle | halt | stat => exact ⟨fun _ => .inl rfl, fun _ x hx => by cases hx⟩

theorem exec_feltIssue_joins (h : FeltMayJoin s op) (hroom : (getArray s g).queue.length < 8) : feltIssue g op bar s = .ok ((), feltJoined s g op bar) := by
  rw [feltIssue, exec_theAgent_bind, exec_self_bind]
  by_cases hop : feltIssue.feltOperand op = true
  · have hacks := (feltMayJoin_iff.mp h).resolve_left (ne_false_of_eq_true hop)
    rw [if_pos hop, exec_bind_ok (exec_waitAcks_ok hacks)]
    beta_reduce
    rw [exec_theState_bind, if_neg (Nat.not_le.mpr hroom)]
    rfl
  · rw [if_neg hop]
    beta_reduce
    rw [exec_theState_bind, if_neg (Nat.not_le.mpr hroom)]
    rfl

theorem exec_feltIssue_waits (h : ¬ FeltMayJoin s op ∨ 8 ≤ (getArray s g).queue.length) : feltIssue g op bar s = .error (.wait s) := by
  rw [feltMayJoin_iff, not_or, Bool.not_eq_false] at h
  rw [feltIssue, exec_theAgent_bind, exec_self_bind]
  by_cases hwaits : feltIssue.feltOperand op = true ∧ (me s).acks ≠ 0
  · rw [if_pos hwaits.1]
    exact exec_bind_error (exec_waitAcks_wait (Nat.pos_of_ne_zero hwaits.2))
  · have hfull := h.resolve_left hwaits
    by_cases hop : feltIssue.feltOperand op = true
    · have hacks : (me s).acks = 0 := not_not.mp fun hne => hwaits ⟨hop, hne⟩
      rw [if_pos hop, exec_bind_ok (exec_waitAcks_ok hacks)]
      beta_reduce
      rw [exec_theState_bind, if_pos hfull]
      rfl
    · rw [if_neg hop]
      beta_reduce
      rw [exec_theState_bind, if_pos hfull]
      rfl

theorem exec_namedBarrier (h : MayName s bar) : namedBarrier bar s = .ok ((), s) := by
  rw [namedBarrier]
  split
  · rfl
  · next hne => exact barCheck_ok (h.resolve_left hne)

theorem MayName.started (h : MayName s bar) : MayName (started s) bar := h.imp_right BarrierAt.started

/-- An instruction whose body comes to a command's place in the queue. -/
theorem feltJoins_of_body {form : Strand → Form} {body : Exec Unit} {i : Instr} (hi : exec i s = issue form body s) (hp : Passes form s)
    (hbody : body (started s) = feltIssue g op bar s1) : FeltJoins s s1 g op bar i := by
  refine ⟨fun h hroom => ?_, fun h => ?_⟩
  · rw [hi, issue_outcome hp, hbody, exec_feltIssue_joins h hroom]
    rfl
  · rw [hi, issue_outcome hp, hbody, exec_feltIssue_waits h]
    rfl

end

/-! ## The words -/

theorem getArray_started (s : State) (k : Nat) : getArray (started s) k = getArray s k := by
  rw [getArray, getArray, started, modMe_felt]

theorem grantedArray_started (s : State) (ctx : BitVec 32) (k : Nat) : grantedArray (started s) ctx k = grantedArray s ctx k := by
  have hparts : partCount (started s) = partCount s := by rw [partCount, partCount, started, modMe_host]
  have hctx : getCtx (started s) ctx = getCtx s ctx := by rw [getCtx, getCtx, started, modMe_contexts]
  simp only [grantedArray, arrayOf, arraysPerPart, hparts, hctx, getArray_started]
  rfl

theorem slotNodes_started (s : State) (g slot : Nat) : slotNodes (started s) g slot = slotNodes s g slot := by
  rw [slotNodes, slotNodes, getArray_started]

section
variable {s s1 : State} {d a b : BitVec 5} {k sl : BitVec 3} {grid : BitVec 1} {g : Nat} {w : Word}

theorem feltNamed_granted (h : grantedArray s (agentCtx s s.cur) k.toNat = some g) : feltNamed k (started s) = .ok (g, started s) := by
  have hg : grantedArray (started s) (agentCtx (started s) (started s).cur) k.toNat = some g := by
    rw [started_cur, agentCtx_started, grantedArray_started, h]
  rw [feltNamed, exec_theAgent_bind, exec_theState_bind, hg]
  rfl

theorem feltNamed_none (h : grantedArray s (agentCtx s s.cur) k.toNat = none) :
    feltNamed k (started s) = .error (.fault (faultInfo 0x04 0x01 0 0 0)) := by
  have hg : grantedArray (started s) (agentCtx (started s) (started s).cur) k.toNat = none := by
    rw [started_cur, agentCtx_started, grantedArray_started, h]
  rw [feltNamed, exec_theAgent_bind, exec_theState_bind, hg]
  rfl

/-- A word of an array that is not granted takes PROT. -/
theorem issue_feltNamed_none {form : Strand → Form} {rest : Nat → Exec Unit} (hp : Passes form s) (h : grantedArray s (agentCtx s s.cur) k.toNat = none) :
    issue form (feltNamed k >>= rest) s = .next (takeFault s (faultInfo 0x04 0x01 0 0 0)) :=
  issue_fault hp (exec_bind_error (feltNamed_none h))

/-- A table that has passed its checks stands at a canonical address. -/
theorem canonical_of_feltTableAt {va : Word} {n : Nat} (h : feltTableAt va n s = .ok ((), s1)) : va.toNat < 2 ^ 57 := by
  by_contra hle
  rw [feltTableAt, exec_theAgent_bind, exec_theState_bind, exec_bind_error (exec_canonical_fault 0 (Nat.not_lt.mp hle) s)] at h
  cases h

section
variable (hg : grantedArray s (agentCtx s s.cur) k.toNat = some g)
include hg

theorem feltCfg_joins (hp : Passes (noCourier [a, b]) s) (hbar : MayName s1 (readX (me s) b)) (halign : (readX (me s) a).toNat % 64 = 0)
    (ht : feltTableAt (readX (me s) a) 64 (started s) = .ok ((), s1)) :
    FeltJoins s s1 g (.cfg sl.toNat (readX (me s) a)) (readX (me s) b) (.feltCfg a b k sl) := by
  refine feltJoins_of_body rfl hp ?_
  rw [exec_bind_ok (feltNamed_granted hg), exec_getX_bind, readX_started, exec_getX_bind, readX_started,
    exec_bind_ok (exec_canonical_ok 0 (canonical_of_feltTableAt ht) _), if_neg (by rw [halign]; decide)]
  beta_reduce
  rw [exec_bind_ok ht, exec_bind_ok (exec_namedBarrier hbar)]

theorem feltScale_joins (hp : Passes (noCourier [a, b]) s) (hbar : MayName s1 (readX (me s) b))
    (ht : feltTableAt (readX (me s) a) (slotNodes s g sl.toNat) (started s) = .ok ((), s1)) :
    FeltJoins s s1 g (.scale sl.toNat (readX (me s) a)) (readX (me s) b) (.feltScale a b k sl) := by
  refine feltJoins_of_body rfl hp ?_
  rw [exec_bind_ok (feltNamed_granted hg), exec_getX_bind, readX_started, exec_getX_bind, readX_started, exec_theState_bind, slotNodes_started,
    exec_bind_ok ht, exec_bind_ok (exec_namedBarrier hbar)]

theorem feltIc_joins (hp : Passes (noCourier [a, b]) s) (hbar : MayName s1 (readX (me s) b))
    (ht : feltTableAt (readX (me s) a) (2 * slotNodes s g sl.toNat) (started s) = .ok ((), s1)) :
    FeltJoins s s1 g (.ic sl.toNat (readX (me s) a)) (readX (me s) b) (.feltIc a b k sl) := by
  refine feltJoins_of_body rfl hp ?_
  rw [exec_bind_ok (feltNamed_granted hg), exec_getX_bind, readX_started, exec_getX_bind, readX_started, exec_theState_bind, slotNodes_started,
    exec_bind_ok ht, exec_bind_ok (exec_namedBarrier hbar)]

theorem feltRun_joins (hp : Passes (noCourier [b]) s) (hbar : MayName s (readX (me s) b)) :
    FeltJoins s (started s) g (.run sl.toNat) (readX (me s) b) (.feltRun b k sl) := by
  refine feltJoins_of_body rfl hp ?_
  rw [exec_bind_ok (feltNamed_granted hg), exec_getX_bind, readX_started, exec_bind_ok (exec_namedBarrier hbar.started)]

theorem feltHalt_joins (hp : Passes (noCourier []) s) : FeltJoins s (started s) g .halt 0 (.feltHalt k) := by
  refine feltJoins_of_body rfl hp ?_
  rw [exec_bind_ok (feltNamed_granted hg)]

end

/-- A SAMPLE whose checks have left `s1` joins, and its place in its block's log is counted. -/
theorem sample_joins {bar : Word} {op : FeltOp} {f : Strand → Strand} (hbar : MayName s1 bar) (hmay : FeltMayJoin s1 op) (hroom : (getArray s1 g).queue.length < 8) :
    (do namedBarrier bar; feltIssue g op bar; setSelf f) s1 = .ok ((), modMe (feltJoined s1 g op bar) f) := by
  rw [exec_bind_ok (exec_namedBarrier hbar), exec_bind_ok (exec_feltIssue_joins hmay hroom), exec_setSelf]

section
variable (hg : grantedArray s (agentCtx s s.cur) k.toNat = some g)
include hg

/-! A SAMPLE of the scratchpad, and of a mapped stash. -/

theorem feltSample_scratch (hp : Passes (noCourier [a, b]) s) (hbar : MayName (started s) (readX (me s) b)) (halign : (readX (me s) a).toNat % 128 = 0)
    (hwindow : inWindow (readX (me s) a).toNat = true) (hinside : inScratch (getTile s (localTile s)) (localOff (readX (me s) a)) 128 = true)
    (hroom : (getArray s g).queue.length < 8) :
    execFeltSample a b k grid s = .next (done (modMe (feltJoined (started s) g (.sample (decide (grid = 1)) (readX (me s) a)) (readX (me s) b))
      (fun t => { t with buffer := { t.buffer with issued := t.buffer.issued + 1 } }))) := by
  have hscratch : inScratch (getTile (started s) (agentTile s.cur)) ((readX (me s) a).toNat - windowBase) 128 = true := by
    rw [getTile_started]
    exact hinside
  have hmay : FeltMayJoin (started s) (.sample (decide (grid = 1)) (readX (me s) a)) :=
    feltMayJoin_iff.mpr (.inl (by rw [feltIssue.feltOperand, hwindow]; rfl))
  rw [execFeltSample, issue_outcome hp, exec_theAgent_bind, exec_bind_ok (feltNamed_granted hg), exec_getX_bind, readX_started, exec_getX_bind, readX_started,
    exec_theState_bind, exec_bind_ok (exec_canonical_ok 1 (lt_of_inWindow hwindow) _), if_neg (by rw [halign]; decide)]
  beta_reduce
  rw [if_pos hwindow, started_cur, hscratch, if_neg (by decide)]
  exact congrArg (outcomeOf s) (sample_joins hbar hmay (by rw [getArray_started]; exact hroom))

theorem feltSample_stash {r : Nat} (hp : Passes (noCourier [a, b]) s) (hbar : MayName s1 (readX (me s) b)) (hva : (readX (me s) a).toNat < 2 ^ 57)
    (halign : (readX (me s) a).toNat % 128 = 0) (hwindow : inWindow (readX (me s) a).toNat = false)
    (hstash : (stashOf s (localTile s) (agentCtx s s.cur) (readX (me s) a).toNat).isSome = true)
    (hrights : spanRights 1 2 (readX (me s) a) 128 (started s) = .ok (r, s1)) (hacks : (me s1).acks = 0) (hroom : (getArray s1 g).queue.length < 8) :
    execFeltSample a b k grid s = .next (done (modMe (feltJoined s1 g (.sample (decide (grid = 1)) (readX (me s) a)) (readX (me s) b))
      (fun t => { t with buffer := { t.buffer with issued := t.buffer.issued + 1 } }))) := by
  have hmapped : (stashOf (started s) (agentTile s.cur) (agentCtx s s.cur) (readX (me s) a).toNat).isNone = false := by
    rw [stashOf, getTile_started, ← stashOf, ← Option.not_isSome]
    exact congrArg not hstash
  have hmay : FeltMayJoin s1 (.sample (decide (grid = 1)) (readX (me s) a)) := feltMayJoin_iff.mpr (.inr hacks)
  rw [execFeltSample, issue_outcome hp, exec_theAgent_bind, exec_bind_ok (feltNamed_granted hg), exec_getX_bind, readX_started, exec_getX_bind, readX_started,
    exec_theState_bind, exec_bind_ok (exec_canonical_ok 1 hva _), if_neg (by rw [halign]; decide)]
  beta_reduce
  rw [if_neg (ne_true_of_eq_false hwindow), started_cur, agentCtx_started, if_neg (ne_true_of_eq_false hmapped), exec_bind_ok hrights]
  exact congrArg (outcomeOf s) (sample_joins hbar hmay hroom)

end

/-! STAT and SETTLE: the command joins the queue once, and the word waits for the answer. -/

/-- A word that an array answers: the command `op`, with no operand in memory. -/
def awaitArray (g : Nat) (op : FeltOp) (d : BitVec 5) : Exec Unit := do
  let t ← self
  match t.replyValue with
  | some w => setX d w
  | none => do
    if t.sent then stall
    feltIssue g op 0
    setSelf (fun t => { t with sent := true })
    stall

theorem awaitArray_answers {op : FeltOp} {o : Out} (hop : feltIssue.feltOperand op = false) (ho : o = outcomeOf s (awaitArray g op d (started s))) :
    ((me s).replyValue = some w → o = .next (wrote s (fun t => writeX t d w))) ∧
    ((me s).replyValue = none → (me s).sent = true → o = .next (waiting (started s))) ∧
    ((me s).replyValue = none → (me s).sent = false → (getArray s g).queue.length < 8 →
      o = .next (waiting (modMe (feltJoined (started s) g op 0) (fun t => { t with sent := true })))) := by
  subst ho
  refine ⟨fun hreply => ?_, fun hreply hsent => ?_, fun hreply hsent hroom => ?_⟩
  · rw [awaitArray, exec_self_bind, me_started, hreply]
    rfl
  · rw [awaitArray, exec_self_bind, me_started, hreply, hsent]
    rfl
  · have hjoin : feltIssue g op 0 (started s) = .ok ((), feltJoined (started s) g op 0) :=
      exec_feltIssue_joins (feltMayJoin_iff.mpr (.inl hop)) (by rw [getArray_started]; exact hroom)
    rw [awaitArray, exec_self_bind, me_started, hreply, hsent]
    dsimp only
    rw [if_neg (by decide), exec_bind_ok hjoin]
    rfl

end

/-- Settles O41: each word comes to its command's place in the queue (`exec_feltIssue_joins`) once its own checks have passed, and STAT and SETTLE
then wait for the array's word (`awaitArray`). -/
theorem feltWordsJoinTheirArray : Obligations.FeltWordsJoinTheirArray := by
  unfold Obligations.FeltWordsJoinTheirArray
  intro s s1 d a b k sl grid g w hc
  dsimp only
  refine ⟨fun h => ⟨fun hp => ?_, fun hp => ?_, fun hp => ?_⟩, fun hg => ⟨fun hp hcur hbar => ⟨?_, ?_, ?_, ?_, ?_⟩, fun hp hbar => ?_, fun hp => ?_, fun hp => ?_, fun hp => ?_⟩⟩
  · exact issue_feltNamed_none hp h
  · exact issue_feltNamed_none hp h
  · exact issue_feltNamed_none hp h
  · exact fun halign ht => feltCfg_joins hg hp hbar halign ht
  · exact fun ht => feltScale_joins hg hp hbar ht
  · exact fun ht => feltIc_joins hg hp hbar ht
  · rintro halign hwindow hinside rfl hroom
    exact feltSample_scratch hg hp hbar halign hwindow hinside hroom
  · intro r hva halign hwindow hstash hrights hacks hroom
    exact feltSample_stash hg hp hbar hva halign hwindow hstash hrights hacks hroom
  · exact feltRun_joins hg hp hbar
  · exact feltHalt_joins hg hp
  · exact awaitArray_answers (op := .stat) rfl ((issue_outcome hp).trans (congrArg (outcomeOf s) (exec_bind_ok (feltNamed_granted hg))))
  · refine awaitArray_answers (op := .settle (readX (me s) a).toNat) rfl ((issue_outcome hp).trans (congrArg (outcomeOf s) ?_))
    rw [exec_bind_ok (feltNamed_granted hg), exec_getX_bind, readX_started]
    rfl

end Sys2Proof.Machine
end

section
/-!
PROOFS. The words of the matrix engine at their tile's queue, and the accumulator names (15 R350 to R361).
-/
namespace Sys2Proof.Machine

/-! ## A command at its tile's queue -/

section
variable {s s1 : State} {n : Nat} {op : MatrixOp} {bar : Word}

theorem agentTile_strand (n : Nat) : agentTile (.strand n) = n / 16 := Nat.div_div_eq_div_mul n 4 4

theorem me_strand (hcur : s.cur = .strand n) : me s = s.strands.get {} n := by
  rw [me, hcur]
  rfl

theorem nameOf_strand (hcur : s.cur = .strand n) (k : Nat) : nameOf s n k = (me s).a.toList.getD k none := by rw [me_strand hcur, nameOf]

theorem exec_enqueue_room (hcur : s.cur = .strand n) (hroom : queueLength (getTile s (n / 16)) < 16) :
    enqueue op bar s = .ok ((), joinQueue s (n / 16) { strand := n, run := agentRun s s.cur, op := op, barrier := bar, block := blockNow s }) := by
  rw [enqueue, exec_theAgent_bind, exec_theState_bind, hcur]
  dsimp only
  rw [agentTile_strand, if_neg (Nat.not_le.mpr hroom)]
  rfl

theorem exec_enqueue_full (hcur : s.cur = .strand n) (hfull : 16 ≤ queueLength (getTile s (n / 16))) : enqueue op bar s = .error (.wait s) := by
  rw [enqueue, exec_theAgent_bind, exec_theState_bind, hcur]
  dsimp only
  rw [agentTile_strand, if_pos hfull]
  rfl

/-- An instruction whose body comes to a command's place in the matrix queue. -/
theorem joinsOrWaits_of_body {form : Strand → Form} {body : Exec Unit} {i : Instr} (hi : exec i s = issue form body s) (hp : Passes form s)
    (hcur : s1.cur = .strand n) (hbody : body (started s) = enqueue op bar s1) : JoinsOrWaits s s1 n op bar i := by
  rw [JoinsOrWaits, hi, issue_outcome hp, hbody]
  split
  · next hroom =>
    rw [exec_enqueue_room hcur hroom]
    rfl
  · next hfull =>
    rw [exec_enqueue_full hcur (Nat.not_lt.mp hfull)]
    rfl

end

/-! ## What a word checks -/

section
variable {s : State} {n p k : Nat} {x : AccName} (hcur : s.cur = .strand n)
include hcur

theorem started_strand : (started s).cur = .strand n := (started_cur s).trans hcur

theorem nameOf_started (k : Nat) : nameOf s n k = (me (started s)).a.toList.getD k none := by
  rw [nameOf_strand hcur, me_started]

theorem exec_panelCheck_in (h : panelIn (getTile s (n / 16)) p = true) : panelCheck p (started s) = .ok ((), started s) := by
  rw [panelCheck, exec_theAgent_bind, exec_theState_bind, started_strand hcur, agentTile_strand, getTile_started, if_pos h]
  rfl

theorem exec_panelCheck_out (h : panelIn (getTile s (n / 16)) p = false) :
    panelCheck p (started s) = .error (.fault (faultInfo 0x04 0x04 0 0 0)) := by
  rw [panelCheck, exec_theAgent_bind, exec_theState_bind, started_strand hcur, agentTile_strand, getTile_started, if_neg (ne_true_of_eq_false h)]
  rfl

theorem exec_boundName_any (h : nameOf s n k = some x) : boundName k none (started s) = .ok (x, started s) := by
  rw [boundName, exec_self_bind, ← nameOf_started hcur, h]
  rfl

theorem exec_boundName_none (h : nameOf s n k = none) {kind : Option Bool} :
    boundName k kind (started s) = .error (.fault (faultInfo 0x01 0x06 0 0 0)) := by
  rw [boundName, exec_self_bind, ← nameOf_started hcur, h]
  rfl

theorem exec_boundName_of_bound {fp64 : Bool} (h : Bound s n k fp64) : ∃ x, boundName k (some fp64) (started s) = .ok (x, started s) := by
  obtain ⟨x, hname, rfl⟩ := h
  refine ⟨x, ?_⟩
  rw [boundName, exec_self_bind, ← nameOf_started hcur, hname]
  exact congrFun (if_pos (beq_self_eq_true x.fp64)) (started s)

end

/-! ## The words that join the queue -/

section
variable {s : State} {n : Nat} {d a b e : BitVec 5} {c pa pb po : BitVec 4} {z : BitVec 1} {r : BitVec 6} {x : AccName}
variable (hcur : s.cur = .strand n)
include hcur

theorem mma_joins {form : Nat} {i : Instr} (hi : exec i s = mma form c pa pb z s) (hp : Passes (matrixForm (decide (16 < pa.toNat + formPanels form))) s)
    (hname : Bound s n c.toNat (decide (form = 5))) (ha : ∀ k < formPanels form, panelIn (getTile s (n / 16)) (pa.toNat + k) = true)
    (hb : panelIn (getTile s (n / 16)) pb.toNat = true) :
    JoinsOrWaits s (started s) n (.mma form c.toNat pa.toNat pb.toNat (decide (z = 1)) (mmaWord form c.toNat pa.toNat pb.toNat z.toNat)) 0 i := by
  obtain ⟨x, hbound⟩ := exec_boundName_of_bound hcur hname
  have hpanels : eachLane (fun k => panelCheck (pa.toNat + k)) (List.range (formPanels form)) (started s) = .ok ((), started s) :=
    eachLane_keeps fun k hk => exec_panelCheck_in hcur (ha k (List.mem_range.mp hk))
  refine joinsOrWaits_of_body hi hp (started_strand hcur) ?_
  rw [exec_bind_ok hbound, exec_bind_ok hpanels, exec_bind_ok (exec_panelCheck_in hcur hb)]

theorem mscale_joins (hp : Passes (matrixForm false) s) (hd : Bound s n c.toNat false) (hs : Bound s n pb.toNat false)
    (ha : panelIn (getTile s (n / 16)) pa.toNat = true) :
    JoinsOrWaits s (started s) n (.mscale c.toNat pb.toNat pa.toNat r.toNat) 0 (.mscale c pa r pb) := by
  obtain ⟨x, hx⟩ := exec_boundName_of_bound hcur hd
  obtain ⟨y, hy⟩ := exec_boundName_of_bound hcur hs
  refine joinsOrWaits_of_body rfl hp (started_strand hcur) ?_
  rw [exec_bind_ok hx, exec_bind_ok hy, exec_bind_ok (exec_panelCheck_in hcur ha)]

theorem mout_joins (hp : Passes (matrixForm (decide (8 < po.toNat))) s) (hd : Bound s n c.toNat false)
    (ha : panelIn (getTile s (n / 16)) pa.toNat = true) (hb : panelIn (getTile s (n / 16)) pb.toNat = true) :
    JoinsOrWaits s (started s) n (.mout c.toNat pa.toNat pb.toNat po.toNat) 0 (.mout c pa pb po) := by
  obtain ⟨x, hx⟩ := exec_boundName_of_bound hcur hd
  refine joinsOrWaits_of_body rfl hp (started_strand hcur) ?_
  rw [exec_bind_ok hx, exec_bind_ok (exec_panelCheck_in hcur ha), exec_bind_ok (exec_panelCheck_in hcur hb)]

theorem pzero_joins (hp : Passes (numberForm 16 d [] []) s) (hd : panelIn (getTile s (n / 16)) d.toNat = true) :
    JoinsOrWaits s (started s) n (.pzero d.toNat) 0 (.pzero d) :=
  joinsOrWaits_of_body rfl hp (started_strand hcur) (exec_bind_ok (exec_panelCheck_in hcur hd))

theorem pzero_outside (hp : Passes (numberForm 16 d [] []) s) (hd : panelIn (getTile s (n / 16)) d.toNat = false) :
    execPzero d s = .next (takeFault s (faultInfo 0x04 0x04 0 0 0)) :=
  issue_fault hp (exec_bind_error (exec_panelCheck_out hcur hd))

theorem accZero_joins (hp : Passes (numberForm 16 a [] []) s) (hname : nameOf s n a.toNat = some x) :
    JoinsOrWaits s (started s) n (.accZero a.toNat) 0 (.accZero a) :=
  joinsOrWaits_of_body rfl hp (started_strand hcur) (exec_bind_ok (exec_boundName_any hcur hname))

theorem accZero_unbound (hp : Passes (numberForm 16 a [] []) s) (hname : nameOf s n a.toNat = none) :
    execAccZero a s = .next (takeFault s (faultInfo 0x01 0x06 0 0 0)) :=
  issue_fault hp (exec_bind_error (exec_boundName_none hcur hname))

theorem accWr_joins (hp : Passes (numberForm 16 a [b] [d]) s) (hname : nameOf s n a.toNat = some x) (hg : (readX (me s) b).toNat < accSize x / 64) :
    JoinsOrWaits s (started s) n (.accWr a.toNat (readX (me s) b).toNat (readV (me s) d)) 0 (.accWr d a b) := by
  refine joinsOrWaits_of_body rfl hp (started_strand hcur) ?_
  rw [exec_bind_ok (exec_boundName_any hcur hname), exec_getX_bind, readX_started, groupCheck, if_pos hg,
    exec_pure_bind, exec_getV_bind, readV_started]

theorem accWr_outside (hp : Passes (numberForm 16 a [b] [d]) s) (hname : nameOf s n a.toNat = some x) (hg : ¬ (readX (me s) b).toNat < accSize x / 64) :
    execAccWr d a b s = .next (takeFault s (faultInfo 0x01 0x01 0 0 0)) := by
  refine issue_fault hp ?_
  rw [exec_bind_ok (exec_boundName_any hcur hname), exec_getX_bind, readX_started, groupCheck, if_neg hg]
  rfl

/-! ## The words that act at once -/

theorem accRd_outcome (hp : Passes (numberForm 16 a [b, e] [d]) s) (hname : nameOf s n a.toNat = some x)
    (hg : (readX (me s) b).toNat < accSize x / 64) :
    execAccRd d a b e s = .next (
      if wordsHit (getTile s (n / 16)).accBad (accAt x (64 * (readX (me s) b).toNat)) 64 then takeFault s (faultInfo 0x08 0x03 0 0 0)
      else wrote s (fun u => writeX (writeV u d (vecOfBytes (memRead (getTile s (n / 16)).acc (accAt x (64 * (readX (me s) b).toNat)) 64))) e
        (x.status.setWidth 64))) := by
  rw [execAccRd, issue_outcome hp, exec_theAgent_bind, exec_bind_ok (exec_boundName_any hcur hname), exec_getX_bind, readX_started,
    groupCheck, if_pos hg, exec_pure_bind, exec_theState_bind, started_strand hcur, agentTile_strand, getTile_started]
  split
  · rfl
  · beta_reduce
    rw [exec_bind_ok (exec_setV _ _ _), exec_setX, modMe_modMe, BitVec.ofNat_toNat]
    rfl

omit hcur in
theorem started_modMe_id (s : State) : modMe (started s) id = started s := modMe_modMe s _ id

theorem accFree_unbound (hp : Passes (numberForm 16 a [] []) s) (hname : nameOf s n a.toNat = none) : execAccFree a s = .next (wrote s id) := by
  rw [execAccFree, issue_outcome hp, exec_theAgent_bind, exec_self_bind, exec_theState_bind, ← nameOf_started hcur, hname]
  exact congrArg (fun u => Host.Outcome.next (done u)) (started_modMe_id s).symm

theorem accFree_bound (hp : Passes (numberForm 16 a [] []) s) (hname : nameOf s n a.toNat = some x) :
    execAccFree a s = .next (if commandsNaming (getTile s (n / 16)) n a.toNat then waiting (started s) else
      done (modMe (modTile (started s) (n / 16) (fun t => { t with banks := t.banks.filter (fun b => decide (b ∉ x.banks)) }))
        (fun u => { u with a := u.a.mapIdx (fun i y => if i = a.toNat then none else y) }))) := by
  rw [execAccFree, issue_outcome hp, exec_theAgent_bind, exec_self_bind, exec_theState_bind, ← nameOf_started hcur, hname]
  dsimp only
  rw [started_strand hcur, agentTile_strand, getTile_started]
  dsimp only
  split
  · rfl
  · simp only [exec_update_bind, exec_setSelf, decide_not, outcomeOf]

theorem accAlloc_outcome {k : BitVec 1} (hp : Passes (numberForm 16 a [d] []) s) (hname : nameOf s n a.toNat = none) :
    let t := getTile s (n / 16)
    let free := ((List.range 128).filter (fun b => decide (b ∉ t.banks))).take (if k = 1 then 16 else 8)
    let name : AccName := { banks := free, fp64 := decide (k = 1), status := 0, owner := 0 }
    execAccAlloc d a k s = .next (
      if free.length < (if k = 1 then 16 else 8) then wrote s (fun u => writeX u d 0)
      else done (modMe (modTile (started s) (n / 16) (fun t => accClear { t with banks := t.banks ++ free } name))
        (fun u => writeX { u with a := u.a.mapIdx (fun i y => if i = a.toNat then some name else y) } d 1))) := by
  dsimp only
  rw [execAccAlloc, issue_outcome hp, exec_theAgent_bind, exec_self_bind, exec_theState_bind, ← nameOf_started hcur, hname,
    started_strand hcur, agentTile_strand, getTile_started, if_neg (by decide)]
  simp only [decide_not]
  generalize (if k = 1 then 16 else 8) = need
  generalize List.take need _ = free
  split
  · rfl
  · simp only [exec_update_bind, exec_setSelf_bind, exec_setX, modMe_modMe, outcomeOf]

theorem mwait_outcome (hp : Passes (noCourier [d]) s) :
    execMwait d s = .next (
      if (getTile s (n / 16)).queue.any (fun c => c.strand == n && c.remote.isNone)
        || (getTile s (n / 16)).running.any (fun r => r.cmd.strand == n && r.cmd.remote.isNone)
      then waiting (started s) else wrote s (fun u => writeX u d 0)) := by
  rw [execMwait, issue_outcome hp, exec_theAgent_bind, exec_theState_bind, started_strand hcur, agentTile_strand, getTile_started]
  dsimp only
  split
  · rfl
  · rfl

end

/-- The rows of MMA are the six forms of the one body. -/
theorem exec_mmaRow {row : (BitVec 4 → BitVec 4 → BitVec 4 → BitVec 1 → Instr) × Nat} (h : row ∈ mmaRows) (c pa pb : BitVec 4) (z : BitVec 1) (s : State) :
    exec (row.1 c pa pb z) s = mma row.2 c pa pb z s := by
  simp only [mmaRows, List.mem_cons, List.not_mem_nil, or_false] at h
  rcases h with rfl | rfl | rfl | rfl | rfl | rfl <;> rfl

/-- Settles O37: each command comes to its place in the queue (`exec_enqueue_room`) once its names and panels have passed their checks. -/
theorem matrixWordsQueueTheirCommand : Obligations.MatrixWordsQueueTheirCommand := by
  unfold Obligations.MatrixWordsQueueTheirCommand
  intro s n d a b e c pa pb po z k r x hcur
  dsimp only
  refine ⟨fun row hrow hp hname ha hb => ?_, fun hp hd hs ha => ?_, fun hp hd ha hb => ?_, fun hp => ⟨fun hd => ?_, fun hd => ?_⟩,
    fun hp => ⟨fun hnone => ⟨?_, ?_⟩, fun hname => ⟨?_, ?_⟩⟩, fun hp hname => ?_, fun hp hname hg => ?_, fun hp hnone => ?_, fun hp => ?_⟩
  · exact mma_joins hcur (exec_mmaRow hrow c pa pb z s) hp hname ha hb
  · exact mscale_joins hcur hp hd hs ha
  · exact mout_joins hcur hp hd ha hb
  · exact pzero_joins hcur hp hd
  · exact pzero_outside hcur hp hd
  · exact accZero_unbound hcur hp hnone
  · exact accFree_unbound hcur hp hnone
  · exact accZero_joins hcur hp hname
  · exact accFree_bound hcur hp hname
  · split
    · next hg => exact accWr_joins hcur hp hname hg
    · next hg => exact accWr_outside hcur hp hname hg
  · exact accRd_outcome hcur hp hname hg
  · exact accAlloc_outcome hcur hp hnone
  · exact mwait_outcome hcur hp

end Sys2Proof.Machine
end

section
/-!
PROOFS. The copies of panels and accumulators at their queue, and MSEND (15 R351, R355, R360; 14 R415).
-/
namespace Sys2Proof.Machine

section
variable {s s1 : State} {n : Nat} {d a b : BitVec 5} {x : AccName} {base bar : Word}

theorem bits_high_of_lt {v : Nat} (h : v < 2 ^ 57) : bits v 63 57 = 0 := by
  rw [bits, Nat.div_eq_of_lt h]
  rfl

/-- What a copy between its span check and the queue tests of its barrier. -/
theorem exec_copyBarrier {β : Type} (hname : MayName s bar) (houtside : inWindow base.toNat = false → bar ≠ 0) (rest : Unit → Exec β) :
    (do if !inWindow base.toNat && bar = 0 then illegalOperand
        namedBarrier bar
        rest ()) s = rest () s := by
  have hnot : ¬ (!inWindow base.toNat && decide (bar = 0)) = true := by
    rw [Bool.and_eq_true, Bool.not_eq_true', decide_eq_true_eq]
    exact fun h => houtside h.1 h.2
  rw [if_neg hnot]
  exact exec_bind_ok (exec_namedBarrier hname)

section
variable (hcur : s.cur = .strand n) (hs1 : s1.cur = s.cur)
include hcur hs1

/-- PST, and PLD with `load`, once the span has passed its checks. -/
theorem panelMove_joins {load : Bool} {i : Instr} (hi : exec i s = panelMove d a b load s) (hp : Passes (numberForm 16 d [a, b] []) s)
    (hpanel : panelIn (getTile s (n / 16)) d.toNat = true) (hva : (readX (me s) a).toNat < 2 ^ 57) (halign : (readX (me s) a).toNat % 64 = 0)
    (hstride : shapeStride ((me s).pshape.toList.getD d.toNat 0) % 64 = 0) (hname : MayName s1 (readX (me s) b))
    (houtside : inWindow (readX (me s) a).toNat = false → readX (me s) b ≠ 0)
    (hspan : let shape := (me s).pshape.toList.getD d.toNat 0
      engineSpan (if load then 0 else 1) (if load then 1 else 2) true (readX (me s) a) ((shapeRows shape - 1) * shapeStride shape + 64 * shapeGroups shape) (started s)
        = .ok ((), s1)) :
    let shape := (me s).pshape.toList.getD d.toNat 0
    JoinsOrWaits s s1 n (if load then .pld d.toNat (readX (me s) a) shape else .pst d.toNat (readX (me s) a) shape) (readX (me s) b) i := by
  have hshape : (me (started s)).pshape = (me s).pshape := by rw [me_started]
  dsimp only at hspan ⊢
  refine joinsOrWaits_of_body hi hp (hs1.trans hcur) ?_
  rw [exec_self_bind, exec_getX_bind, readX_started, exec_getX_bind, readX_started, hshape]
  dsimp only
  rw [exec_bind_ok (exec_panelCheck_in hcur hpanel), if_neg (by rw [bits_high_of_lt hva]; decide), if_neg (by rw [halign]; decide),
    if_neg (by rw [hstride]; decide), exec_bind_ok hspan]
  exact exec_copyBarrier hname houtside fun _ => _

theorem accSt_joins (hp : Passes (numberForm 16 a [d, b] []) s) (hbound : nameOf s n a.toNat = some x) (hva : (readX (me s) d).toNat < 2 ^ 57)
    (halign : (readX (me s) d).toNat % 128 = 0) (hname : MayName s1 (readX (me s) b))
    (houtside : inWindow (readX (me s) d).toNat = false → readX (me s) b ≠ 0)
    (hspan : engineSpan 1 2 false (readX (me s) d) (accSize x) (started s) = .ok ((), s1)) :
    JoinsOrWaits s s1 n (.accSt a.toNat (readX (me s) d)) (readX (me s) b) (.accSt d a b) := by
  refine joinsOrWaits_of_body rfl hp (hs1.trans hcur) ?_
  rw [exec_bind_ok (exec_boundName_any hcur hbound), exec_getX_bind, readX_started, exec_getX_bind, readX_started,
    if_neg (by rw [bits_high_of_lt hva]; decide)]
  beta_reduce
  rw [if_neg (by rw [halign]; decide)]
  beta_reduce
  rw [exec_bind_ok hspan]
  exact exec_copyBarrier hname houtside fun _ => _

end

theorem msend_sends (hcur : s.cur = .strand n) (hp : Passes (noCourier [a]) s) (halign : (readX (me s) a).toNat % 64 = 0)
    (hwindow : inWindow (readX (me s) a).toNat = true) (hinside : inScratch (getTile s (n / 16)) (localOff (readX (me s) a)) 64 = true)
    (hsound : Sound s (n / 16) (localOff (readX (me s) a)) 64) :
    let desc := localBytes s (readX (me s) a) 64
    (wordOp (fieldAt desc 12 4)).isSome = true → zeroAt desc 10 2 = true → zeroAt desc 24 40 = true → fieldAt desc 8 2 < 2 ^ 14 →
      ostlerTile s (msendTile desc) = false → MayName s (BitVec.ofNat 64 (fieldAt desc 16 8)) →
      execMsend a s = .next (done (msendArrives (started s) (n / 16) (imageId s (n / 16) (agentRun s s.cur)) none desc)) := by
  intro desc hop hzero10 hzero24 hstrand host hname
  have htile : localTile s = n / 16 := by rw [localTile, hcur, agentTile_strand]
  have hinside' : (inWindow (readX (me s) a).toNat && inScratch (getTile (started s) (localTile s)) (localOff (readX (me s) a)) 64) = true := by
    rw [getTile_started, hwindow, Bool.true_and, htile]
    exact hinside
  have hpool : poolSound 0 (readX (me s) a) (localTile s) (localOff (readX (me s) a)) 64 (started s) = .ok ((), started s) :=
    exec_poolSound 0 (by rw [Sound, getTile_started, htile]; exact hsound)
  have hdesc : poolRead (started s) (localTile s) (localOff (readX (me s) a)) 64 = desc := by
    rw [poolRead, getTile_started]
    rfl
  have hlegal : ¬ ((wordOp (fieldAt desc 12 4)).isNone || !zeroAt desc 10 2 || !zeroAt desc 24 40 || decide (2 ^ 14 ≤ fieldAt desc 8 2)) = true := by
    rw [hzero10, hzero24, decide_eq_false (Nat.not_le.mpr hstrand), Option.isNone_eq_false_iff.mpr hop]
    decide
  have himage : imageId (started s) (n / 16) (agentRun (started s) s.cur) = imageId s (n / 16) (agentRun s s.cur) := by
    rw [agentRun_started, imageId, imageId, getTile_started]
  rw [execMsend, issue_outcome hp, exec_theAgent_bind, exec_getX_bind, readX_started, exec_theState_bind, started_cur, ← localTile, ← localOff]
  dsimp only
  rw [if_neg (by rw [bits_high_of_lt (lt_of_inWindow hwindow)]; decide), if_neg (by rw [halign]; decide), if_neg (by rw [hinside']; decide),
    exec_bind_ok hpool, hdesc, if_neg hlegal, ostlerTile_started, host, Bool.false_and, if_neg Bool.false_ne_true,
    exec_bind_ok (exec_namedBarrier hname.started), exec_update, htile, himage]
  rfl

end

/-- Settles O38: a copy comes to its place in the queue once its span and its barrier have passed their checks (`panelMove_joins`, `accSt_joins`). -/
theorem panelMovesQueueAndMsendSends : Obligations.PanelMovesQueueAndMsendSends := by
  unfold Obligations.PanelMovesQueueAndMsendSends
  intro s s1 n d a b x hcur hs1
  refine ⟨fun hp hpanel hva halign hstride hnamed => ⟨?_, ?_⟩, fun hp hbound hva halign hnamed hspan => ?_, fun hp halign hwindow hinside hsound => ?_⟩
  · exact panelMove_joins (load := false) hcur hs1 rfl hp hpanel hva halign hstride hnamed.1 hnamed.2
  · exact panelMove_joins (load := true) hcur hs1 rfl hp hpanel hva halign hstride hnamed.1 hnamed.2
  · exact accSt_joins hcur hs1 hp hbound hva halign hnamed.1 hnamed.2 hspan
  · exact msend_sends hcur hp halign hwindow hinside hsound

end Sys2Proof.Machine
end

section
/-!
PROOFS. The words of the dray: the template table, the copies that tags name, and GO (15 R362 to R367).
-/
namespace Sys2Proof.Machine

section
variable {s s1 s2 : State} {d a b : BitVec 5} {c : BitVec 2} {sl : BitVec 6} {copy x : Copy} {ch n : Nat}

theorem copyNamed_started (core : Nat) (tag : Word) : copyNamed (started s) core tag = copyNamed s core tag := by
  rw [copyNamed, copyNamed, getTile_started]

theorem ostlerMode_started : ostlerMode (started s) s.cur = ostlerMode s s.cur := by rw [ostlerMode, ostlerMode, ostlerTile_started]

/-! ## The table, and the copy that a tag names -/

theorem drayTpl_sets (hp : Passes (noCourier [a]) s) (halign : (readX (me s) a).toNat % 128 = 0) (hwindow : inWindow (readX (me s) a).toNat = true)
    (hinside : inScratch (getTile s (localTile s)) (localOff (readX (me s) a)) (128 * (sl.toNat + 1)) = true) :
    execDrayTpl a sl s =
      .next (done (setTable (started s) (localTile s) (agentCtx s s.cur) (fun t => { t with base := readX (me s) a, count := sl.toNat + 1 }))) := by
  have hinside' : (inWindow (readX (me s) a).toNat && inScratch (getTile (started s) (localTile s)) (localOff (readX (me s) a)) (128 * (sl.toNat + 1))) = true := by
    rw [getTile_started, hwindow, Bool.true_and]
    exact hinside
  rw [execDrayTpl, issue_outcome hp, exec_theAgent_bind, exec_getX_bind, readX_started, exec_theState_bind, started_cur, ← localTile, ← localOff]
  dsimp only
  rw [exec_bind_ok (exec_canonical_ok 0 (lt_of_inWindow hwindow) _), if_neg (by rw [halign]; decide), if_neg (by rw [hinside']; decide), exec_update,
    agentCtx_started]
  rfl

theorem drayAper_clears (hp : Passes (noCourier [a]) s) (hva : readX (me s) a = 0) :
    execDrayAper a s = .next (done (setTable (started s) (localTile s) (agentCtx s s.cur) (fun t => { t with aperture := 0 }))) := by
  rw [execDrayAper, issue_outcome hp, exec_theAgent_bind, exec_getX_bind, readX_started, if_pos hva, exec_update, started_cur, agentCtx_started]
  rfl

theorem drayAper_sets (hp : Passes (noCourier [a]) s) (hne : readX (me s) a ≠ 0) (hva : (readX (me s) a).toNat < 2 ^ 57)
    (halign : (readX (me s) a).toNat % 64 = 0) (hwindow : inWindow (readX (me s) a).toNat = false)
    (hspan : engineSpan 1 3 false (readX (me s) a) 64 (started s) = .ok ((), s1)) :
    execDrayAper a s = .next (done (setTable s1 (localTile s) (agentCtx s1 s.cur) (fun t => { t with aperture := readX (me s) a }))) := by
  rw [execDrayAper, issue_outcome hp, exec_theAgent_bind, exec_getX_bind, readX_started, if_neg hne, exec_bind_ok (exec_canonical_ok 1 hva _),
    if_neg (by rw [halign]; decide), if_neg (ne_true_of_eq_false hwindow)]
  beta_reduce
  rw [exec_bind_ok hspan, exec_update, started_cur]
  rfl

theorem drayCancel_unnamed (hp : Passes (noCourier [a]) s) (h : copyNamed s (agentCore s.cur) (readX (me s) a) = none) :
    execDrayCancel a s = .next (wrote s id) := by
  rw [execDrayCancel, issue_outcome hp, exec_theAgent_bind, exec_getX_bind, readX_started, exec_theState_bind, started_cur, copyNamed_started, h, wrote, started_modMe_id]
  rfl

theorem draySlack_unnamed (hp : Passes (noCourier [a, b]) s) (h : copyNamed s (agentCore s.cur) (readX (me s) a) = none) :
    execDraySlack a b s = .next (wrote s id) := by
  rw [execDraySlack, issue_outcome hp, exec_theAgent_bind, exec_getX_bind, readX_started, exec_getX_bind, exec_theState_bind, started_cur, copyNamed_started, h, wrote,
    started_modMe_id]
  rfl

theorem drayStat_unnamed (hp : Passes (noCourier [d, a]) s) (h : copyNamed s (agentCore s.cur) (readX (me s) a) = none) :
    execDrayStat d a s = .next (wrote s (fun t => writeX t d 0)) := by
  rw [execDrayStat, issue_outcome hp, exec_theAgent_bind, exec_getX_bind, readX_started, exec_theState_bind, started_cur, copyNamed_started, h]
  rfl

section
variable (h : copyNamed s (agentCore s.cur) (readX (me s) a) = some (ch, x))
include h

theorem draySlack_named (hp : Passes (noCourier [a, b]) s) :
    execDraySlack a b s = .next (done (modCopy (started s) (localTile s) ch x (fun y => { y with slack := min (readX (me s) b).toNat 255 }))) := by
  rw [execDraySlack, issue_outcome hp, exec_theAgent_bind, exec_getX_bind, readX_started, exec_getX_bind, readX_started, exec_theState_bind, started_cur,
    copyNamed_started, h]
  rfl

theorem drayStat_named (hp : Passes (noCourier [d, a]) s) :
    execDrayStat d a s = .next (wrote s (fun t => writeX t d (
      BitVec.ofNat 64 ((if x.paused then 3 else if x.started then 2 else 1) * 2 ^ 62 + x.slack * 2 ^ 40 + x.done)))) := by
  rw [execDrayStat, issue_outcome hp, exec_theAgent_bind, exec_getX_bind, readX_started, exec_theState_bind, started_cur, copyNamed_started, h]
  rfl

theorem drayCancel_named (hp : Passes (noCourier [a]) s) :
    execDrayCancel a s = .next (done (if x.active then modCopy (started s) (localTile s) ch x (fun y => { y with cancelled := true })
      else settleCopy (started s) (localTile s) ch x)) := by
  rw [execDrayCancel, issue_outcome hp, exec_theAgent_bind, exec_getX_bind, readX_started, exec_theState_bind, started_cur, copyNamed_started, h, ← localTile]
  dsimp only
  split
  · rfl
  · rfl

end

/-! ## GO (15 R364) -/

/-- What a GO whose checks have admitted `copy` does. -/
def goAdmitted (d : BitVec 5) (c : BitVec 2) (core : Nat) (copy : Copy) : Exec Unit := do
  let sources := if copy.tpl.kind = 2 then [] else sourceSpans copy.tpl copy.srcBase
  if sources.any (fun p => !inWindow p.1) || !inWindow copy.dstBase.toNat then waitAcks
  let s ← theState
  if 128 ≤ (copiesOf s core).length then stall
  let ranges := if copy.tpl.kind = 2 then [] else recordedRanges copy.tpl copy.srcBase
  eachLane (fun k => let p := ranges.getD k (0, 1); if inWindow p.1 then pure () else noteRead (BitVec.ofNat 64 p.1) p.2) (List.range ranges.length)
  let s ← theState
  let (s1, tag) := startCopy s (core / 4) c.toFin copy
  update (fun _ => s1)
  setX d (BitVec.ofNat 64 tag.toNat)

theorem drayGo_admitted (hcur : s.cur = .strand n) (hp : Passes (noCourier [d, a, b]) s)
    (hgo : goCopy (agentCore s.cur) (some n) (agentRun s s.cur) (agentCtx s s.cur) (ostlerMode s s.cur) sl.toNat (readX (me s) a) (readX (me s) b) (started s)
      = .ok (copy, s1)) :
    execDrayGo d a b c sl s = outcomeOf s (goAdmitted d c (agentCore s.cur) copy s1) := by
  have hstart : goCopy (agentCore s.cur) (some n) (agentRun (started s) s.cur) (agentCtx (started s) s.cur) (ostlerMode (started s) s.cur) sl.toNat
      (readX (me s) a) (readX (me s) b) (started s) = .ok (copy, s1) := by
    rw [agentRun_started, agentCtx_started, ostlerMode_started, hgo]
  rw [hcur] at hstart
  rw [execDrayGo, issue_outcome hp, exec_theAgent_bind, exec_getX_bind, readX_started, exec_getX_bind, readX_started, exec_theState_bind, started_cur, hcur]
  dsimp only
  rw [exec_bind_ok hstart]
  rfl

section
variable (s1)

/-- Whether the spans of a copy reach memory outside the window. -/
def goOutside (copy : Copy) : Bool :=
  (if copy.tpl.kind = 2 then [] else sourceSpans copy.tpl copy.srcBase).any (fun p => !inWindow p.1) || !inWindow copy.dstBase.toNat

theorem goAdmitted_awaits {core : Nat} (hout : goOutside copy = true) (hacks : 0 < (me s1).acks) : goAdmitted d c core copy s1 = .error (.wait s1) := by
  rw [goAdmitted]
  dsimp only
  rw [← goOutside, if_pos hout]
  exact exec_bind_error (exec_waitAcks_wait hacks)

section
variable {core : Nat} (hfree : (me s1).acks = 0 ∨ goOutside copy = false)
include hfree

theorem goAdmitted_full (hfull : 128 ≤ (copiesOf s1 core).length) : goAdmitted d c core copy s1 = .error (.wait s1) := by
  rw [goAdmitted]
  dsimp only
  refine (exec_waitAcks_if hfree).trans ?_
  rw [exec_theState_bind, if_pos hfull]
  rfl

theorem goAdmitted_starts (hroom : (copiesOf s1 core).length < 128)
    (hread : let ranges := if copy.tpl.kind = 2 then [] else recordedRanges copy.tpl copy.srcBase
      eachLane (fun k => let p := ranges.getD k (0, 1); if inWindow p.1 then pure () else noteRead (BitVec.ofNat 64 p.1) p.2)
        (List.range ranges.length) s1 = .ok ((), s2)) :
    let r := startCopy s2 (core / 4) c.toFin copy
    goAdmitted d c core copy s1 = .ok ((), modMe r.1 (fun t => writeX t d (r.2.setWidth 64))) := by
  dsimp only at hread ⊢
  rw [goAdmitted]
  dsimp only
  refine (exec_waitAcks_if hfree).trans ?_
  rw [exec_theState_bind, if_neg (Nat.not_le.mpr hroom), exec_bind_ok hread, exec_theState_bind, BitVec.ofNat_toNat]
  rfl

end
end

end

/-- Settles O39: the words of a tag go through `copyNamed`, and a GO whose checks have admitted its copy is `goAdmitted`. -/
theorem drayWordsActOnCopies : Obligations.DrayWordsActOnCopies := by
  unfold Obligations.DrayWordsActOnCopies
  intro s s1 s2 d a b c sl copy
  dsimp only
  refine ⟨fun hp => ⟨?_, ?_, ?_, ?_, ?_⟩, fun hp => ⟨?_, ?_⟩, fun hp => ⟨?_, ?_⟩, fun n hcur hs1 hs2 hp hgo => ⟨fun hout hacks => ?_, fun hfree => ⟨fun hfull => ?_, fun hroom hread => ?_⟩⟩⟩
  · exact drayTpl_sets hp
  · exact drayAper_clears hp
  · exact fun hne hva halign hwindow hspan _ => drayAper_sets hp hne hva halign hwindow hspan
  · exact drayCancel_unnamed hp
  · intro ch x h
    refine (drayCancel_named h hp).trans ?_
    simp only [settleCopy, List.isEmpty_iff]
  · exact draySlack_unnamed hp
  · exact fun ch x h => draySlack_named h hp
  · exact drayStat_unnamed hp
  · exact fun ch x h => drayStat_named h hp
  · exact (drayGo_admitted hcur hp hgo).trans (congrArg (outcomeOf s) (goAdmitted_awaits s1 hout hacks))
  · exact (drayGo_admitted hcur hp hgo).trans (congrArg (outcomeOf s) (goAdmitted_full s1 hfree.symm hfull))
  · exact (drayGo_admitted hcur hp hgo).trans (congrArg (outcomeOf s) (goAdmitted_starts s1 hfree.symm hroom hread))

end Sys2Proof.Machine
end

section
/-!
PROOFS. The words of the stream registers (15 R371, R372; 05 R153).
-/
namespace Sys2Proof.Machine

/-! ## A stream of a strand's record -/

theorem streamOf_setStream_ne (t : Strand) {q r : Nat} (hr : r ≠ q) (f : Stream → Stream) : streamOf (setStream t q f) r = streamOf t r := by
  simp only [streamOf, setStream, List.getD, Vector.toList_mapIdx, List.getElem?_mapIdx, if_neg hr, Option.map_id']

theorem setStream_id (t : Strand) (q : Nat) : setStream t q id = t := by
  have hsame : t.q.mapIdx (fun i x => if i = q then id x else x) = t.q := by
    ext i hi
    simp
  rw [setStream, hsame]

theorem pc_setStream (t : Strand) (q : Nat) (f : Stream → Stream) : (setStream t q f).pc = t.pc := rfl

theorem getAgent_setFull (s : State) (tile line : Nat) (a : Agent) : getAgent (setFull s tile line) a = getAgent s a := by
  unfold setFull
  split
  · rfl
  · dsimp only
    split <;> cases a <;> rfl

theorem cur_setFull (s : State) (tile line : Nat) : (setFull s tile line).cur = s.cur := by
  unfold setFull
  split
  · rfl
  · dsimp only
    split <;> rfl

/-! ## Unbinding -/

section
variable {s : State} {q : Nat}

theorem unbound_self (s : State) (q : Nat) : (unbound s s.cur q).cur = s.cur ∧ me (unbound s s.cur q) = setStream (me s) q (fun _ => {}) := by
  have hline : ∀ u : State, u.cur = s.cur → getAgent u s.cur = me s → (modAgent u s.cur (fun t => setStream t q (fun _ => {}))).cur = s.cur ∧
      me (modAgent u s.cur (fun t => setStream t q (fun _ => {}))) = setStream (me s) q (fun _ => {}) := by
    intro u hcur hself
    rw [← hcur] at hself ⊢
    exact ⟨modMe_cur u _, (me_modMe u _).trans (congrArg (setStream · q _) hself)⟩
  unfold unbound
  dsimp only
  split
  · split
    · exact hline _ (cur_setFull _ _ _) (getAgent_setFull _ _ _ _)
    · exact hline s rfl rfl
  · exact hline s rfl rfl

theorem unbindStream_waits (hbound : (streamOf (me s) q).bound = true) (hout : (streamOf (me s) q).out = true) (hbuffer : (streamOf (me s) q).buffer ≠ []) :
    unbindStream q s = .error (.wait s) := by
  rw [unbindStream, exec_theAgent_bind, exec_self_bind]
  rw [hbound, hout, if_neg (by decide), if_pos (by simpa using hbuffer)]
  rfl

theorem unbindStream_unbinds (hbound : (streamOf (me s) q).bound = true) (hfree : (streamOf (me s) q).out = false ∨ (streamOf (me s) q).buffer = []) :
    unbindStream q s = .ok ((), unbound s s.cur q) := by
  have hnot : ¬ ((streamOf (me s) q).out && !(streamOf (me s) q).buffer.isEmpty) = true := by
    rcases hfree with h | h <;> simp [h]
  rw [unbindStream, exec_theAgent_bind, exec_self_bind]
  rw [hbound, if_neg (by decide), if_neg hnot]
  rfl

/-- A binding that is over leaves the strand's other streams. -/
theorem unbindStream_ends (hfree : (streamOf (me s) q).bound = false ∨ (streamOf (me s) q).out = false ∨ (streamOf (me s) q).buffer = []) :
    ∃ u f, unbindStream q s = .ok ((), u) ∧ u.cur = s.cur ∧ me u = setStream (me s) q f := by
  cases hbound : (streamOf (me s) q).bound with
  | false =>
    exact ⟨s, id, unbindStream_unbound hbound, rfl, (setStream_id _ q).symm⟩
  | true =>
    obtain ⟨hcur, hself⟩ := unbound_self s q
    exact ⟨_, _, unbindStream_unbinds hbound (hfree.resolve_left (by rw [hbound]; decide)), hcur, hself⟩

/-- The requests of a stream's groups leave the agents. -/
theorem eachLane_streamWork (ls : List Nat) : ∃ u, eachLane (fun _ => streamWork q) ls s = .ok ((), u) ∧ u.cur = s.cur ∧ me u = me s := by
  induction ls generalizing s with
  | nil => exact ⟨s, rfl, rfl, rfl⟩
  | cons l ls ih =>
    have hone : ∃ v, streamWork q s = .ok ((), v) ∧ v.cur = s.cur ∧ me v = me s := by
      rw [streamWork, exec_theAgent_bind]
      cases hcur : s.cur with
      | strand n => exact ⟨_, rfl, hcur, me_later_other _ _⟩
      | courier core => exact ⟨s, rfl, hcur, rfl⟩
    obtain ⟨v, hv, hcur, hme⟩ := hone
    obtain ⟨u, hu, hcur', hme'⟩ := ih (s := v)
    exact ⟨u, (exec_bind_ok hv).trans hu, hcur'.trans hcur, hme'.trans hme⟩

end

/-! ## The words -/

section
variable {s : State} {n : Nat} {d a b : BitVec 5}

theorem lt_of_strmForm {xs : List (BitVec 5)} (hp : Passes (strmForm xs d) s) : d.toNat < 8 :=
  Nat.not_le.mp (of_decide_eq_false (reserved_of_passes hp))

theorem strmPos_reads (hp : Passes (strmForm [d] b) s) :
    execStrmPos d b s = .next (wrote s (fun t => writeX t d (
      if (streamOf (me s) b.toNat).bound then BitVec.ofNat 64 (streamOf (me s) b.toNat).position else BitVec.allOnes 64))) := by
  rw [execStrmPos, issue_outcome hp, exec_self_bind, Nat.mod_eq_of_lt (lt_of_strmForm hp), me_started]
  rfl

theorem strmUnbind_outcome (hp : Passes (strmForm [] d) s) :
    execStrmUnbind d s = .next (
      if (streamOf (me s) d.toNat).bound = false then wrote s id
      else if (streamOf (me s) d.toNat).out = true ∧ (streamOf (me s) d.toNat).buffer ≠ [] then waiting (started s)
      else done (unbound (started s) s.cur d.toNat)) := by
  have hstream : streamOf (me (started s)) d.toNat = streamOf (me s) d.toNat := by rw [me_started]; rfl
  rw [execStrmUnbind, issue_outcome hp, Nat.mod_eq_of_lt (lt_of_strmForm hp)]
  split
  · next h =>
    rw [unbindStream_unbound (by rw [hstream, h]), wrote, started_modMe_id]
    rfl
  · next hbound =>
    rw [Bool.not_eq_false] at hbound
    split
    · next h =>
      rw [unbindStream_waits (by rw [hstream, hbound]) (by rw [hstream, h.1]) (by rw [hstream]; exact h.2)]
      rfl
    · next h =>
      rw [Classical.not_and_iff_not_or_not, Bool.not_eq_true, not_not] at h
      rw [unbindStream_unbinds (by rw [hstream, hbound]) (by rwa [hstream]), started_cur]
      rfl

/-- What STRM.BIND does with the record it has read. -/
def bindRecord (q off : Nat) (record : Option (Nat × Bool × List (Nat × Int))) : Exec Unit :=
  match record with
  | none => illegalOperand
  | some (base, out, dims) => do
    unbindStream q
    setSelf (fun t => setStream t q (fun _ => { bound := true, out := out, recOffset := off, base := base, dims := dims }))
    if out then pure () else eachLane (fun _ => streamWork q) (List.range (min 4 (patternLength dims)))

theorem strmBind_reads (hcur : s.cur = .strand n) (hp : Passes (strmForm [a] d) s) (halign : (readX (me s) a).toNat % 32 = 0)
    (hwindow : inWindow (readX (me s) a).toNat = true) (hinside : inScratch (getTile s (n / 16)) (localOff (readX (me s) a)) 32 = true)
    (hsound : Sound s (n / 16) (localOff (readX (me s) a)) 32) :
    execStrmBind d a s = outcomeOf s (bindRecord d.toNat (localOff (readX (me s) a)) (patternRecord (localBytes s (readX (me s) a) 32)) (started s)) := by
  have htile : localTile s = n / 16 := by rw [localTile, hcur, agentTile_strand]
  have hinside' : (inWindow (readX (me s) a).toNat && inScratch (getTile (started s) (localTile s)) (localOff (readX (me s) a)) 32) = true := by
    rw [getTile_started, hwindow, Bool.true_and, htile]
    exact hinside
  have hpool : poolSound 0 (readX (me s) a) (localTile s) (localOff (readX (me s) a)) 32 (started s) = .ok ((), started s) :=
    exec_poolSound 0 (by rw [Sound, getTile_started, htile]; exact hsound)
  have hrecord : poolRead (started s) (localTile s) (localOff (readX (me s) a)) 32 = localBytes s (readX (me s) a) 32 := by
    rw [poolRead, getTile_started]
    rfl
  rw [execStrmBind, issue_outcome hp, exec_theAgent_bind, exec_getX_bind, readX_started, exec_theState_bind, started_cur, ← localTile, ← localOff]
  dsimp only
  rw [Nat.mod_eq_of_lt (lt_of_strmForm hp), if_neg (by rw [bits_high_of_lt (lt_of_inWindow hwindow)]; decide), if_neg (by rw [halign]; decide),
    if_neg (by rw [hinside']; decide), exec_bind_ok hpool, hrecord]
  rfl

/-- A legal record binds the register, whose binding is over, at position 0. -/
theorem bindRecord_binds {q off base : Nat} {out : Bool} {dims : List (Nat × Int)} (hq : q < 8)
    (hfree : (streamOf (me s) q).bound = false ∨ (streamOf (me s) q).out = false ∨ (streamOf (me s) q).buffer = []) :
    ∃ u, bindRecord q off (some (base, out, dims)) s = .ok ((), u) ∧ u.cur = s.cur ∧
      streamOf (me u) q = { bound := true, out := out, recOffset := off, base := base, dims := dims } ∧
      (∀ r ≠ q, streamOf (me u) r = streamOf (me s) r) ∧ (me u).pc = (me s).pc := by
  obtain ⟨v, f, hunbind, hcur, hv⟩ := unbindStream_ends hfree
  have hbound : ∀ u : State, me u = setStream (me v) q (fun _ => { bound := true, out := out, recOffset := off, base := base, dims := dims }) →
      streamOf (me u) q = { bound := true, out := out, recOffset := off, base := base, dims := dims } ∧
      (∀ r ≠ q, streamOf (me u) r = streamOf (me s) r) ∧ (me u).pc = (me s).pc := by
    intro u hu
    rw [hu]
    refine ⟨streamOf_setStream_same _ hq _, fun r hr => ?_, ?_⟩
    · rw [streamOf_setStream_ne _ hr, hv, streamOf_setStream_ne _ hr]
    · rw [pc_setStream, hv, pc_setStream]
  rw [bindRecord, exec_bind_ok hunbind, exec_setSelf_bind]
  cases out with
  | true => exact ⟨_, rfl, (modMe_cur v _).trans hcur, hbound _ (me_modMe v _)⟩
  | false =>
    obtain ⟨u, hu, hcur', hme⟩ := eachLane_streamWork (s := modMe v (fun t => setStream t q (fun _ => { bound := true, out := false, recOffset := off, base := base, dims := dims })))
      (q := q) (List.range (min 4 (patternLength dims)))
    exact ⟨u, hu, hcur'.trans ((modMe_cur v _).trans hcur), hbound u (hme.trans (me_modMe v _))⟩

end

/-- Settles O40: STRM.BIND reads its record and binds (`bindRecord_binds`); UNBIND ends a binding, and POS reads it. -/
theorem streamWordsBindAndUnbind : Obligations.StreamWordsBindAndUnbind := by
  unfold Obligations.StreamWordsBindAndUnbind
  intro s n d a b hcur
  have hstreams : ∀ q, streamOf (me (started s)) q = streamOf (me s) q := fun q => by
    rw [me_started]
    rfl
  dsimp only
  refine ⟨fun hp halign hwindow hinside hsound => ⟨fun hnone => ?_, fun base out dims hrecord => ⟨fun hbound hout hbuffer => ?_, fun hfree => ?_⟩⟩, strmUnbind_outcome, strmPos_reads⟩
  · refine (strmBind_reads hcur hp halign hwindow hinside hsound).trans ?_
    rw [hnone]
    rfl
  · refine (strmBind_reads hcur hp halign hwindow hinside hsound).trans ?_
    rw [hrecord, bindRecord, exec_bind_error (unbindStream_waits (by rwa [hstreams]) (by rwa [hstreams]) (by rwa [hstreams]))]
    rfl
  · obtain ⟨u, hu, hucur, hself, hothers, hpc⟩ := bindRecord_binds (s := started s) (off := localOff (readX (me s) a)) (base := base) (out := out) (dims := dims)
      (lt_of_strmForm hp) (by rwa [hstreams])
    have hagent : getAgent (done u) s.cur = consume (me u) ((me u).pc + 4) := by
      rw [← started_cur s, ← hucur]
      exact getAgent_retire u _
    refine ⟨done u, ?_, ?_, fun r hr => ?_, ?_⟩
    · refine (strmBind_reads hcur hp halign hwindow hinside hsound).trans ?_
      rw [hrecord, hu]
      rfl
    · rw [hagent]
      exact hself
    · rw [hagent]
      exact (hothers r hr).trans (hstreams r)
    · rw [hagent]
      refine (congrArg (· + 4) hpc).trans ?_
      rw [me_started]

end Sys2Proof.Machine
end

section
/-!
PROOFS. Reading an accumulator after its elements have been cleared or written (05 R151, 09 R240).
-/
namespace Sys2Proof.Machine

/-! ## Memory at other places -/

theorem memGet_memClear (m : Memory) (a n k : Nat) : memGet (memClear m a n) k = if a ≤ k ∧ k < a + n then emptyByte else memGet m k := by
  unfold memClear
  induction m with
  | nil => simp [memGet]
  | cons c rest ih =>
    obtain ⟨j, v⟩ := c
    by_cases hkeep : j < a ∨ a + n ≤ j
    · rw [List.filter_cons_of_pos (by simpa using hkeep), memGet, memGet, ih]
      by_cases hj : j = k
      · rw [if_pos hj, if_pos hj, if_neg (by omega)]
      · rw [if_neg hj, if_neg hj]
    · rw [List.filter_cons_of_neg (by simpa using hkeep), memGet, ih]
      by_cases hj : j = k
      · rw [if_pos (by omega), if_pos (by omega)]
      · rw [if_neg hj]

theorem memRead_congr {m m' : Memory} {a n : Nat} (h : ∀ k, a ≤ k → k < a + n → memGet m k = memGet m' k) : memRead m a n = memRead m' a n := by
  induction n generalizing a with
  | zero => rfl
  | succ n ih => rw [memRead, memRead, h a (Nat.le_refl a) (by omega), ih fun k hlo hhi => h k (by omega) (by omega)]

theorem memRead_memWrite_apart {m : Memory} {a b n : Nat} {bs : List Byte} (h : b + bs.length ≤ a ∨ a + n ≤ b) : memRead (memWrite m b bs) a n = memRead m a n :=
  memRead_congr fun k hlo hhi => memGet_memWrite_outside bs m b k (by omega)

theorem ofBytes_memRead_empty {m : Memory} {a n : Nat} (h : ∀ k, a ≤ k → k < a + n → memGet m k = emptyByte) : ofBytes (memRead m a n) = 0 := by
  induction n generalizing a with
  | zero => rfl
  | succ n ih =>
    rw [memRead, ofBytes, h a (Nat.le_refl a) (by omega), ih fun k hlo hhi => h k (by omega) (by omega)]
    rfl

theorem ofBytes_leBytes_mod (n v : Nat) : ofBytes (leBytes n v) = v % 2 ^ (8 * n) := by
  rw [leBytes_mod, ofBytes_leBytes (Nat.mod_lt _ (Nat.two_pow_pos _))]

/-! ## Writes of entries that lie apart -/

section
variable {α : Type} {at' : α → Nat} {bytes : α → List Byte} {w : Nat}

theorem memRead_writes_apart {es : List α} {m : Memory} {a : Nat} (hw : ∀ e ∈ es, (bytes e).length = w) (h : ∀ e ∈ es, at' e + w ≤ a ∨ a + w ≤ at' e) :
    memRead (es.foldl (fun m e => memWrite m (at' e) (bytes e)) m) a w = memRead m a w := by
  induction es generalizing m with
  | nil => rfl
  | cons e es ih =>
    rw [List.foldl_cons, ih (fun x hx => hw x (List.mem_cons_of_mem e hx)) fun x hx => h x (List.mem_cons_of_mem e hx), memRead_memWrite_apart]
    rw [hw e List.mem_cons_self]
    exact h e List.mem_cons_self

/-- Of entries that lie apart each reads as it was written. -/
theorem memRead_writes {es : List α} {m : Memory} {e : α} (hm : m.wf = true) (hw : ∀ x ∈ es, (bytes x).length = w) (he : e ∈ es)
    (h : ∀ x ∈ es, x = e ∨ at' x + w ≤ at' e ∨ at' e + w ≤ at' x) :
    memRead (es.foldl (fun m x => memWrite m (at' x) (bytes x)) m) (at' e) w = bytes e := by
  induction es generalizing m with
  | nil => exact absurd he List.not_mem_nil
  | cons x es ih =>
    rw [List.foldl_cons]
    have hw' : ∀ y ∈ es, (bytes y).length = w := fun y hy => hw y (List.mem_cons_of_mem x hy)
    by_cases hlater : e ∈ es
    · exact ih (memWrite_wf _ _ _ hm) hw' hlater fun y hy => h y (List.mem_cons_of_mem x hy)
    · obtain rfl := (List.mem_cons.mp he).resolve_right hlater
      rw [memRead_writes_apart hw' fun y hy => (h y (List.mem_cons_of_mem e hy)).resolve_left (fun heq => hlater (heq ▸ hy)), ← hw e List.mem_cons_self,
        memRead_memWrite _ _ _ hm]

end

/-! ## The elements of a name -/

/-- A name whose banks are its own and as many as its size asks for (05 R151). -/
structure WellBanked (x : AccName) : Prop where
  nodup : x.banks.Nodup
  length : x.banks.length = accSize x / 2048

section
variable {x : AccName} {t : Tile}

/-- The place of element `p` of a name, counted row by row. -/
def elementAt (x : AccName) (p : Nat) : Nat := accAt x (p * accWidth x)

theorem accGet_eq (t : Tile) (x : AccName) (i j : Nat) : accGet t x i j = ofBytes (memRead t.acc (elementAt x (64 * i + j)) (accWidth x)) := rfl

/-- Element `p` lies whole in one of the name's banks. -/
theorem elementAt_inBank (hx : WellBanked x) {p : Nat} (hp : p < 4096) : ∃ k, ∃ hk : k < x.banks.length,
    elementAt x p = 2048 * x.banks[k] + p * accWidth x % 2048 ∧ k = p * accWidth x / 2048 ∧ p * accWidth x % 2048 + accWidth x ≤ 2048 := by
  have hbounds : p * accWidth x / 2048 < accSize x / 2048 ∧ p * accWidth x % 2048 + accWidth x ≤ 2048 := by
    rw [accWidth, accSize]
    cases x.fp64 <;> simp only [if_true, if_false, Bool.false_eq_true] <;> omega
  refine ⟨p * accWidth x / 2048, by rw [hx.length]; exact hbounds.1, ?_, rfl, hbounds.2⟩
  rw [elementAt, accAt, List.getD_eq_getElem]

theorem elementAt_apart (hx : WellBanked x) {p q : Nat} (hp : p < 4096) (hq : q < 4096) (hne : p ≠ q) :
    elementAt x p + accWidth x ≤ elementAt x q ∨ elementAt x q + accWidth x ≤ elementAt x p := by
  obtain ⟨k, hk, hpat, hkp, hpin⟩ := elementAt_inBank hx hp
  obtain ⟨l, hl, hqat, hlq, hqin⟩ := elementAt_inBank hx hq
  rw [hpat, hqat]
  by_cases hkl : k = l
  · subst hkl
    have hplaces : p * accWidth x % 2048 + accWidth x ≤ q * accWidth x % 2048 ∨ q * accWidth x % 2048 + accWidth x ≤ p * accWidth x % 2048 := by
      revert hkp hlq
      rw [accWidth]
      cases x.fp64 <;> simp only [if_true, if_false, Bool.false_eq_true] <;> omega
    omega
  · have hbanks : x.banks[k] ≠ x.banks[l] := fun h => hkl ((List.Nodup.getElem_inj_iff hx.nodup).mp h)
    omega

/-! Clearing. -/

theorem memGet_clearBanks {bs : List Nat} {m : Memory} {k : Nat} (h : memGet m k = emptyByte ∨ ∃ b ∈ bs, 2048 * b ≤ k ∧ k < 2048 * b + 2048) :
    memGet (bs.foldl (fun m b => memClear m (2048 * b) 2048) m) k = emptyByte := by
  induction bs generalizing m with
  | nil => simpa using h
  | cons c bs ih =>
    refine ih ?_
    rw [memGet_memClear]
    by_cases hin : 2048 * c ≤ k ∧ k < 2048 * c + 2048
    · exact .inl (if_pos hin)
    · rw [if_neg hin]
      refine h.imp_right fun ⟨b, hb, hplace⟩ => ⟨b, (List.mem_cons.mp hb).resolve_left ?_, hplace⟩
      rintro rfl
      exact hin hplace

theorem wf_clearBanks {bs : List Nat} {m : Memory} (h : m.wf = true) : Memory.wf (bs.foldl (fun m b => memClear m (2048 * b) 2048) m) = true := by
  induction bs generalizing m with
  | nil => exact h
  | cons c bs ih => exact ih (memClear_wf m _ _ h)

theorem accGet_accClear (hx : WellBanked x) {i j : Nat} (hi : i < 64) (hj : j < 64) : accGet (accClear t x) x i j = 0 := by
  obtain ⟨k, hk, hat, -, hin⟩ := elementAt_inBank hx (p := 64 * i + j) (by omega)
  rw [accGet_eq]
  refine ofBytes_memRead_empty fun a hlo hhi => memGet_clearBanks (.inr ⟨x.banks[k], List.getElem_mem hk, ?_⟩)
  omega

/-! Writing. -/

theorem acc_accPut (t : Tile) (x : AccName) (es : List (Nat × Nat × Nat)) :
    (accPut t x es).acc = es.foldl (fun m e => memWrite m (elementAt x (64 * e.1 + e.2.1)) (leBytes (accWidth x) e.2.2)) t.acc := rfl

theorem accGet_accPut (hx : WellBanked x) (ht : t.acc.wf = true) {i j : Nat} (hi : i < 64) (hj : j < 64) (value : Nat → Nat → Nat) :
    accGet (accPut t x (allRows.flatMap fun i => allRows.map fun j => (i, j, value i j))) x i j = value i j % 2 ^ (8 * accWidth x) := by
  have hcells : ∀ e ∈ allRows.flatMap (fun i => allRows.map fun j => (i, j, value i j)), e.1 < 64 ∧ e.2.1 < 64 ∧ e.2.2 = value e.1 e.2.1 := by
    simp only [allRows, List.mem_flatMap, List.mem_map, List.mem_range]
    rintro e ⟨r, hr, c, hc, rfl⟩
    exact ⟨hr, hc, rfl⟩
  have hmem : (i, j, value i j) ∈ allRows.flatMap fun i => allRows.map fun j => (i, j, value i j) :=
    List.mem_flatMap.mpr ⟨i, List.mem_range.mpr hi, List.mem_map.mpr ⟨j, List.mem_range.mpr hj, rfl⟩⟩
  have hread := memRead_writes (at' := fun e : Nat × Nat × Nat => elementAt x (64 * e.1 + e.2.1)) (bytes := fun e => leBytes (accWidth x) e.2.2)
    ht (fun e _ => length_leBytes _ _) hmem fun e he => by
      obtain ⟨hr, hc, hv⟩ := hcells e he
      by_cases hsame : 64 * e.1 + e.2.1 = 64 * i + j
      · refine .inl (Prod.ext (by dsimp only; omega) (Prod.ext (by dsimp only; omega) ?_))
        rw [hv]
        congr 1 <;> omega
      · exact .inr (elementAt_apart hx (by omega) (by dsimp only; omega) hsame)
  rw [accGet_eq, acc_accPut, ← ofBytes_leBytes_mod]
  exact congrArg ofBytes hread

end

end Sys2Proof.Machine
end

section
/-!
PROOFS. The steps of the matrix engine (15 R356 to R358, 09 R239 to R242).
-/
namespace Sys2Proof.Machine

/-! ## One K step's arithmetic -/

theorem map_cells (rows : List Nat) (r : Nat → Nat → Nat × Nat) :
    (rows.flatMap fun i => rows.map fun j => (i, j, r i j)).map (fun c => (c.1, c.2.1, c.2.2.1)) =
      rows.flatMap fun i => rows.map fun j => (i, j, (r i j).1) := by
  rw [List.map_flatMap]
  simp only [List.map_map, Function.comp_def]

section
variable {t : Tile} {x : AccName} {form pa pb step i j : Nat} {fa fb : List Nat}

theorem accGet_mmaStep (hx : WellBanked x) (ht : t.acc.wf = true) (hi : i < 64) (hj : j < 64) :
    let st := mmaStep t x form pa pb step fa fb
    let product := fun (k : Nat) => (exactInt (formA form) (elemA t form pa i k)).getD 0 * (exactB form (elemB t form pb j k)).getD 0
    let sum := ((numbersFrom (step * formStep form) (formStep form)).map product).sum
    accGet st.1 x i j = (if i ∈ st.2.1 ∨ j ∈ st.2.2.1 then canonNan (accFmt x)
      else (addExact (accFmt x) (accGet t x i j) sum (exactUnit (formA form) + formUnitB form)).1) % 2 ^ (8 * accWidth x) := by
  dsimp only [mmaStep]
  rw [map_cells, accGet_accPut hx ht hi hj]
  congr 1
  split <;> rfl

theorem mmaOperand_first {z : Bool} (hz : z = true) (hstep : step = 0) : mmaOperand t x z step = (accClear t x, { x with status := 0 }) := by
  rw [mmaOperand, hz, hstep]
  rfl

theorem mmaOperand_later {z : Bool} (h : z = false ∨ step ≠ 0) : mmaOperand t x z step = (t, x) := by
  rw [mmaOperand, if_neg]
  rcases h with h | h <;> simp [h]

/-- What precedes step 0 leaves the panels and the name's banks, and the accumulator memory in its form. -/
theorem mmaOperand_keeps (t : Tile) (x : AccName) (z : Bool) (step : Nat) :
    (∀ form pa i k, elemA (mmaOperand t x z step).1 form pa i k = elemA t form pa i k) ∧
    (∀ form pb j k, elemB (mmaOperand t x z step).1 form pb j k = elemB t form pb j k) ∧
    (WellBanked x → WellBanked (mmaOperand t x z step).2) ∧ (t.acc.wf = true → (mmaOperand t x z step).1.acc.wf = true) := by
  unfold mmaOperand
  split
  · exact ⟨fun _ _ _ _ => rfl, fun _ _ _ _ => rfl, fun h => ⟨h.nodup, h.length⟩, wf_clearBanks⟩
  · exact ⟨fun _ _ _ _ => rfl, fun _ _ _ _ => rfl, id, id⟩

end

/-! ## MATRIX_COMMAND_START -/

section
variable {s : State} {tile : Nat} {cmd : MatrixCmd} {rest : List MatrixCmd} {form n pa pb : Nat} {z : Bool} {word : BitVec 32} {x : AccName}

/-- The command `cmd` at the head of the queue has become the running one, as `r`. -/
def takenAs (s : State) (tile : Nat) (rest : List MatrixCmd) (r : MatrixRun) : State := modTile s tile (fun t => { t with queue := rest, running := some r })

theorem modTile_takenAs (r r' : MatrixRun) :
    modTile (takenAs s tile rest r) tile (fun t => { t with running := some r' }) = takenAs s tile rest r' := by
  rw [modTile, takenAs, getTile_modTile, modTile, smap_set_set]
  rfl

theorem commandStart_idles (h : (getTile s tile).running.isSome = true ∨ (getTile s tile).queue = [] ∨ engineRuns s tile = false) :
    execMatrixCommandStart tile s = .next s := by
  rw [execMatrixCommandStart]
  dsimp only
  cases hfind : (getTile s tile).queue.find? (fun c => !mmaHeld s tile c) with
  | none => rfl
  | some cmd =>
    have hstays : ((getTile s tile).running.isSome || !engineRuns s tile) = true := by
      rcases h with h | h | h
      · rw [h, Bool.true_or]
      · rw [h] at hfind
        cases hfind
      · rw [h, Bool.not_false, Bool.or_true]
    dsimp only
    rw [if_pos hstays]
    rfl

/-- What an idle engine that works does with the head of its queue. -/
def startHead (s : State) (tile : Nat) (cmd : MatrixCmd) (rest : List MatrixCmd) : State :=
  if family cmd.op && !(unitsHeld s tile = 8) then
    (if (getCluster s (tile / 8)).requests.any (fun r => r.1 == tile) then s else requestUnits s tile (getRun s cmd.run).ctx)
  else
    let s1 := takenAs s tile rest { cmd := cmd, started := true }
    match cmd.op with
    | .mma _ n _ _ _ word =>
      match nameFor s cmd n with
      | none => matrixDone s1 tile cmd
      | some x =>
        if x.owner = word then
          later (modTile s1 tile (fun t =>
            { t with running := some { cmd := cmd, started := true, step := kstepOf x, flagA := cmd.flagA, flagB := cmd.flagB } })) [.kStep tile]
        else later (setNameFor s1 cmd n { (withKstep x 0) with owner := word }) [.kStep tile]
    | _ => later s1 [.matrixCommandEnd tile]

theorem commandStart_head (hqueue : (getTile s tile).queue = cmd :: rest) (hheld : mmaHeld s tile cmd = false)
    (hidle : (getTile s tile).running = none) (hruns : engineRuns s tile = true) : execMatrixCommandStart tile s = .next (startHead s tile cmd rest) := by
  have hfind : (getTile s tile).queue.find? (fun c => !mmaHeld s tile c) = some cmd := by
    rw [hqueue, List.find?_cons_of_pos (by rw [hheld]; rfl)]
  have hstarts : ¬ ((getTile s tile).running.isSome || !engineRuns s tile) = true := by
    rw [hidle, hruns]
    decide
  have htaken : modTile s tile (fun t => { t with queue := t.queue.erase cmd, running := some { cmd := cmd, started := true } }) =
      takenAs s tile rest { cmd := cmd, started := true } := by
    rw [takenAs, modTile, modTile, hqueue, List.erase_cons_head]
  rw [execMatrixCommandStart]
  dsimp only
  rw [hfind]
  dsimp only
  rw [if_neg hstarts, htaken]
  rfl

theorem startHead_ends (hop : ∀ f n a b z w, cmd.op ≠ .mma f n a b z w) (hunits : family cmd.op = false ∨ unitsHeld s tile = 8) :
    startHead s tile cmd rest = later (takenAs s tile rest { cmd := cmd, started := true }) [.matrixCommandEnd tile] := by
  rw [startHead, if_neg]
  · dsimp only
    split
    · next heq => exact absurd heq (hop _ _ _ _ _ _)
    · rfl
  · rcases hunits with h | h <;> simp [h]

section
variable (hfamily : family cmd.op = true) (hunits : unitsHeld s tile ≠ 8)
include hfamily hunits

theorem startHead_requests (hnone : ∀ r ∈ (getCluster s (tile / 8)).requests, r.1 ≠ tile) :
    startHead s tile cmd rest = requestUnits s tile (getRun s cmd.run).ctx := by
  rw [startHead, if_pos (by simp [hfamily, hunits]), if_neg]
  rw [List.any_eq_true]
  rintro ⟨r, hr, hsame⟩
  exact hnone r hr (beq_iff_eq.mp hsame)

theorem startHead_awaits (hsome : ∃ r ∈ (getCluster s (tile / 8)).requests, r.1 = tile) : startHead s tile cmd rest = s := by
  rw [startHead, if_pos (by simp [hfamily, hunits]), if_pos (by simpa using hsome)]

end

section
variable (hop : cmd.op = .mma form n pa pb z word) (hunits : unitsHeld s tile = 8) (hname : nameFor s cmd n = some x)
include hop hunits hname

theorem startHead_resumes (howner : x.owner = word) : startHead s tile cmd rest =
    later (takenAs s tile rest { cmd := cmd, started := true, step := kstepOf x, flagA := cmd.flagA, flagB := cmd.flagB }) [.kStep tile] := by
  rw [startHead, if_neg (by simp [hunits]), hop]
  dsimp only
  rw [hname]
  dsimp only
  rw [if_pos howner, modTile_takenAs]

theorem startHead_begins (howner : x.owner ≠ word) : startHead s tile cmd rest =
    later (setNameFor (takenAs s tile rest { cmd := cmd, started := true }) cmd n { (withKstep x 0) with owner := word }) [.kStep tile] := by
  rw [startHead, if_neg (by simp [hunits]), hop]
  dsimp only
  rw [hname]
  dsimp only
  rw [if_neg howner]

end

end

/-! ## K_STEP -/

section
variable {s : State} {tile : Nat} {r : MatrixRun} {form n pa pb : Nat} {z : Bool} {word : BitVec 32} {x : AccName}

theorem kStep_idles (h : (getTile s tile).running = none ∨ engineRuns s tile = false) : execKStep tile s = .next s := by
  rw [execKStep]
  dsimp only
  cases hrunning : (getTile s tile).running with
  | none => rfl
  | some r =>
    have hstops := h.resolve_left (by rw [hrunning]; simp)
    dsimp only
    rw [hstops]
    rfl

section
variable (hrunning : (getTile s tile).running = some r) (hruns : engineRuns s tile = true)
include hrunning hruns

theorem kStep_held (hheld : mmaHeld s tile r.cmd = true) : execKStep tile s = .next (setMmaAside s tile r) := by
  rw [execKStep]
  dsimp only
  rw [hrunning]
  dsimp only
  rw [hruns, hheld]
  rfl

/-- A K step of the MMA that runs, on its operands. -/
theorem kStep_mma (hop : r.cmd.op = .mma form n pa pb z word) (hheld : mmaHeld s tile r.cmd = false) (hname : nameFor s r.cmd n = some x) :
    let o := mmaOperand (getTile s tile) x z r.step
    let st := mmaStep o.1 o.2 form pa pb r.step r.flagA r.flagB
    let stepped := engineFlags (modTile s tile (fun _ =>
      { st.1 with running := some { r with step := r.step + 1, flagA := st.2.1, flagB := st.2.2.1 } })) tile st.2.2.2
    let name := withKstep (orStatus o.2 st.2.2.2) (r.step + 1)
    execKStep tile s = .next (
      if !mmaSound o.1 o.2 form pa pb r.step then matrixFails s tile r.cmd
      else if r.step + 1 < 8 then later (setNameFor stepped r.cmd n name) [.kStep tile]
      else matrixDone (setNameFor stepped r.cmd n { (withKstep name 0) with owner := 0 }) tile r.cmd) := by
  rw [execKStep]
  dsimp only
  rw [hrunning]
  dsimp only
  rw [hruns, hheld, if_neg (by decide), if_neg (by decide), hop]
  dsimp only
  rw [hname]
  rfl

end

end

/-! ## MATRIX_COMMAND_END -/

section
variable {s : State} {tile : Nat} {r : MatrixRun} {n g d p pa pb : Nat} {x y : AccName} {v : Vec}

theorem commandEnd_idles (h : (getTile s tile).running = none ∨ engineRuns s tile = false) : execMatrixCommandEnd tile s = .next s := by
  rw [execMatrixCommandEnd]
  cases hrunning : (getTile s tile).running with
  | none => rfl
  | some r =>
    have hstops := h.resolve_left (by rw [hrunning]; simp)
    dsimp only
    rw [hstops]
    rfl

section
variable (hrunning : (getTile s tile).running = some r) (hruns : engineRuns s tile = true)
include hrunning hruns

theorem commandEnd_pzero (hop : r.cmd.op = .pzero pa) :
    execMatrixCommandEnd tile s = .next (matrixDone (modTile s tile (fun t => poolClear t (panelAt t pa 0 0) 32768)) tile r.cmd) := by
  rw [execMatrixCommandEnd, hrunning]
  dsimp only
  rw [hruns, if_neg (by decide), hop]
  rfl

theorem commandEnd_accZero (hop : r.cmd.op = .accZero n) (hname : nameFor s r.cmd n = some x) :
    execMatrixCommandEnd tile s = .next (
      matrixDone (setNameFor (modTile s tile (fun t => accClear t x)) r.cmd n { x with status := 0 }) tile r.cmd) := by
  rw [execMatrixCommandEnd, hrunning]
  dsimp only
  rw [hruns, if_neg (by decide), hop]
  dsimp only
  rw [hname]
  rfl

theorem commandEnd_accWr (hop : r.cmd.op = .accWr n g v) (hname : nameFor s r.cmd n = some x) :
    execMatrixCommandEnd tile s = .next (
      matrixDone (modTile s tile (fun t => { t with
        acc := memWrite t.acc (accAt x (64 * g)) (vecBytes v), accBad := wordsLeft t.accBad (accAt x (64 * g)) 64 })) tile r.cmd) := by
  rw [execMatrixCommandEnd, hrunning]
  dsimp only
  rw [hruns, if_neg (by decide), hop]
  dsimp only
  rw [hname]
  rfl

theorem commandEnd_mscale (hop : r.cmd.op = .mscale d p pa g) (hd : nameFor s r.cmd d = some x) (hp : nameFor s r.cmd p = some y) :
    let m := mscaleStep (getTile s tile) x y pa g
    execMatrixCommandEnd tile s = .next (if mscaleSound (getTile s tile) x y pa g = false then matrixFails s tile r.cmd else
      matrixDone (engineFlags (setNameFor (modTile s tile (fun _ => m.1)) r.cmd d (orStatus x m.2)) tile m.2) tile r.cmd) := by
  rw [execMatrixCommandEnd, hrunning]
  dsimp only
  rw [hruns, if_neg (by decide), hop]
  dsimp only
  rw [hd, hp]
  simp only [Bool.not_eq_true']
  rfl

theorem commandEnd_mout (hop : r.cmd.op = .mout d pa pb g) (hd : nameFor s r.cmd d = some x) :
    let m := moutStep (getTile s tile) x pa pb g
    execMatrixCommandEnd tile s = .next (if moutSound (getTile s tile) x pa pb g = false then matrixFails s tile r.cmd else
      matrixDone (engineFlags (setNameFor (modTile s tile (fun _ => m.1)) r.cmd d (orStatus x m.2)) tile m.2) tile r.cmd) := by
  rw [execMatrixCommandEnd, hrunning]
  dsimp only
  rw [hruns, if_neg (by decide), hop]
  dsimp only
  rw [hd]
  simp only [Bool.not_eq_true']
  rfl

end

end

/-- Settles O42: an idle engine acts on the head of its queue (`startHead`), a K step puts each element's exact sum (`accGet_mmaStep`) over what
precedes it (`mmaOperand`), and the other commands do their work at their end. -/
theorem matrixStepsDoTheirCommand : Obligations.MatrixStepsDoTheirCommand := by
  unfold Obligations.MatrixStepsDoTheirCommand
  intro s tile cmd rest form n pa pb i j z word x y v
  dsimp only
  refine ⟨commandStart_idles, fun hqueue hheld hidle hruns => ?_, fun h => ⟨kStep_idles h, commandEnd_idles h⟩, ?_⟩
  · have hstart := commandStart_head hqueue hheld hidle hruns
    refine ⟨fun hop hunits => ?_, fun hfamily hunits hnone => ?_, fun hfamily hunits hsome => ?_, fun hop hunits hname => ⟨fun howner => ?_, fun howner => ?_⟩⟩
    · exact hstart.trans (congrArg _ (startHead_ends hop hunits))
    · exact hstart.trans (congrArg _ (startHead_requests hfamily hunits hnone))
    · exact hstart.trans (congrArg _ (startHead_awaits hfamily hunits hsome))
    · exact hstart.trans (congrArg _ (startHead_resumes hop hunits hname howner))
    · exact hstart.trans (congrArg _ (startHead_begins hop hunits hname howner))
  · rintro r hrunning rfl hruns
    refine ⟨kStep_held hrunning hruns, fun hop hheld hname => ⟨fun hbad => ?_, fun hz hstep => ?_, mmaOperand_later⟩,
      fun hop hheld hname hsound => ⟨fun hmore => ?_, fun hlast => ?_, fun hnodup hlength hi hj hwf => ?_⟩, commandEnd_pzero hrunning hruns,
      commandEnd_accZero hrunning hruns, commandEnd_accWr hrunning hruns, commandEnd_mscale hrunning hruns, commandEnd_mout hrunning hruns⟩
    · refine (kStep_mma hrunning hruns hop hheld hname).trans (congrArg _ (if_pos ?_))
      rw [hbad]
      rfl
    · rw [mmaOperand_first hz hstep]
      exact ⟨rfl, fun ⟨hnodup, hlength, hi, hj⟩ _ => accGet_accClear ⟨hnodup, hlength⟩ hi hj⟩
    · refine (kStep_mma hrunning hruns hop hheld hname).trans (congrArg _ ((if_neg ?_).trans (if_pos hmore)))
      rw [hsound]
      decide
    · refine (kStep_mma hrunning hruns hop hheld hname).trans (congrArg _ ((if_neg ?_).trans (if_neg (Nat.not_lt.mpr hlast))))
      rw [hsound]
      decide
    · obtain ⟨helemA, helemB, hbanked, hacc⟩ := mmaOperand_keeps (getTile s tile) y z r.step
      rw [accGet_mmaStep (hbanked ⟨hnodup, hlength⟩) (hacc hwf) hi hj]
      simp only [helemA, helemB]

end Sys2Proof.Machine
end

section
/-!
PROOFS. The steps of the dray and of the stream unit (15 R365 to R373, 05 R153).
-/
namespace Sys2Proof.Machine

/-! ## Segments of COPY and REDUCE -/

/-- A channel of a tile's dray as an engine. -/
def drayEngine (tile : Nat) (ch : Fin 4) (c : Copy) : Engine := { unit := drayUnit tile ch.val, tile := tile, ctx := c.ctx, run := c.run }

/-- The elements of a copy's next segment. -/
def nextElements (c : Copy) : List Nat := numbersFrom c.element (segmentLength c.tpl c.element)

section
variable {s s1 s2 : State} {tile : Nat} {ch : Fin 4} {c : Copy} {bs : List (List Byte)} {code sub : Nat}

theorem draySegment_idles (hnext : nextCopy s.now ((getTile s tile).dray.toList.getD ch.val []) = none) :
    execDraySegment tile ch s = .next s := by
  rw [execDraySegment, hnext]
  dsimp only
  rw [ite_self]
  rfl

theorem draySegment_next (hruns : engineRuns s tile = true) (hnext : nextCopy s.now ((getTile s tile).dray.toList.getD ch.val []) = some c) :
    execDraySegment tile ch s = .next (if c.tpl.kind = 2 then storageSegment s tile ch c else runSegment s tile ch c) := by
  have hgoes : ((getTile s tile).changing.isSome ||
      (!engineRuns s tile && !((getTile s tile).dray.toList.getD ch.val []).any (fun c => c.active && c.cancelled))) = false := by
    have hchanging := (Bool.and_eq_true_iff.mp (Bool.and_eq_true_iff.mp hruns).1).1
    rw [hruns, Bool.not_true, Bool.false_and, Bool.or_false, ← Option.not_isNone, hchanging]
    rfl
  rw [execDraySegment, hnext]
  dsimp only
  rw [hgoes]
  rfl

theorem runSegment_sourceFails (hdata : segmentData s (drayEngine tile ch c) c (nextElements c) = .bad code sub s1) :
    runSegment s tile ch c = failCopy s1 tile ch.val c code := by
  rw [runSegment, ← drayEngine, ← nextElements]
  dsimp only
  rw [hdata]

section
variable (hdata : segmentData s (drayEngine tile ch c) c (nextElements c) = .ok bs s1)
include hdata

theorem runSegment_storeFails
    (hstores : engineStores s1 (drayEngine tile ch c) 0 (segmentWrites s1 (drayEngine tile ch c) c (nextElements c) bs) = .bad code sub s2) :
    runSegment s tile ch c = failCopy s2 tile ch.val c code := by
  rw [runSegment, ← drayEngine, ← nextElements]
  dsimp only
  rw [hdata]
  dsimp only
  rw [hstores]

/-- The state in which a segment that succeeded has landed. -/
def segmentLanded (s : State) (tile : Nat) (ch : Fin 4) (c : Copy) : State :=
  later (barUpdate (fillLines (clearPieces s (drayEngine tile ch c).unit) tile (segmentLines s (drayEngine tile ch c) c (nextElements c))) tile c.tpl.bar
    (.land ((nextElements c).length * 2 ^ c.tpl.esz))) [.draySegment tile ch]

theorem runSegment_lands
    (hstores : engineStores s1 (drayEngine tile ch c) 0 (segmentWrites s1 (drayEngine tile ch c) c (nextElements c) bs) = .ok () s2) :
    runSegment s tile ch c =
      if c.element + (nextElements c).length = elementCount c.tpl then endCopy (segmentLanded s2 tile ch c) tile ch.val c
      else if c.cancelled then endCopy (barUpdate (segmentLanded s2 tile ch c) tile c.tpl.bar
        (.land (copyLeft (segmentLanded s2 tile ch c) tile { c with done := c.done + (nextElements c).length * 2 ^ c.tpl.esz }))) tile ch.val c
      else modCopy (segmentLanded s2 tile ch c) tile ch.val c (fun x =>
        { c with started := true, active := false, element := c.element + (nextElements c).length,
                 done := c.done + (nextElements c).length * 2 ^ c.tpl.esz, waitSince := s.now, slack := x.slack, paused := x.paused }) := by
  rw [runSegment, ← drayEngine, ← nextElements]
  dsimp only
  rw [hdata]
  dsimp only
  rw [hstores]
  rfl

end

/-! ## Segments of STORAGE -/

theorem storageSegment_invalid (h : storageValid s (partOfDie s (tile / 128)) = false) : storageSegment s tile ch c = storageStops s tile ch c 0x0A := by
  rw [storageSegment]
  dsimp only
  rw [h]
  rfl

section
variable (h : storageValid s (partOfDie s (tile / 128)) = true)
include h

theorem storageSegment_full (hfull : 2 ^ storageQlog s (partOfDie s (tile / 128)) ≤ storageOut s (partOfDie s (tile / 128)) + 1) :
    storageSegment s tile ch c = later s [.draySegment tile ch] := by
  rw [storageSegment]
  dsimp only
  rw [h, if_neg (by decide), if_pos hfull]

theorem storageSegment_submits (hroom : storageOut s (partOfDie s (tile / 128)) + 1 < 2 ^ storageQlog s (partOfDie s (tile / 128))) (hgoes : c.cancelled = false) :
    let part := partOfDie s (tile / 128)
    let len := 2 ^ storageQlog s part
    let tail := (s.host.storageRun.get (0, 0, true) part).1
    let head := (s.host.storageRun.get (0, 0, true) part).2.1
    let phase := (s.host.storageRun.get (0, 0, true) part).2.2
    let blocks := min (2 ^ (12 - storageLbas s part)) (elementCount c.tpl - c.element)
    let id := ch.val * 2 ^ 14 + c.issued % 2 ^ 14
    let dst := (c.dstBase.toNat + c.element * 2 ^ storageLbas s part + storageField s part 4) % 2 ^ 64
    engineStores s (drayEngine tile ch c) 0 (writeParts s (drayEngine tile ch c) (storageField s part 0 + 64 * tail)
      (submission id c.tpl.slices dst (c.srcBase.toNat + c.element) blocks)) = .ok () s1 →
    let s2 := clearPieces s1 (drayUnit tile ch.val)
    storageSegment s tile ch c = later (modCopy { s2 with
        host := { s2.host with storageRun := s2.host.storageRun.set part ((tail + 1) % len, head, phase) }
        busOut := s2.busOut ++ [.write (BitVec.ofNat 64 (storageField s part 2)) (leBytes 4 ((tail + 1) % len))] } tile ch.val c (fun _ =>
      { c with started := true, active := false, element := c.element + blocks, issued := c.issued + 1, waitSince := s.now,
               outstanding := c.outstanding ++ [(id, blocks * 2 ^ storageLbas s part)] })) [.draySegment tile ch] := by
  dsimp only
  intro hstores
  rw [storageSegment, ← drayEngine]
  dsimp only
  rw [h, if_neg (by decide), if_neg (Nat.not_le.mpr hroom), hstores]
  dsimp only
  rw [hgoes, if_neg Bool.false_ne_true]
  rfl

end

end

/-! ## The aperture -/

section
variable {s s1 : State} {tile : Nat} {ctx run : BitVec 32} {ch : Fin 4} {data : Word} {c : Copy}

theorem bits_high_of_lt_64 {v : Nat} (h : v < 64) : bits v 63 6 = 0 := by
  rw [bits]
  omega

theorem bits_high_ne_zero {v : Nat} (hv : v < 2 ^ 64) (h : 64 ≤ v) : bits v 63 6 ≠ 0 := by
  rw [bits]
  omega

theorem aperture_noImage (h : ∀ i ∈ (getTile s tile).images, i.2 ≠ ctx) :
    execDrayApertureStart (tile, ctx) ch data s = .next (execDrayApertureStart.dropped (tile, ctx) s) := by
  have hfind : (getTile s tile).images.reverse.find? (fun i => i.2 == ctx) = none := by
    rw [List.find?_eq_none]
    intro i hi
    rw [beq_iff_eq]
    exact h i (List.mem_reverse.mp hi)
  rw [execDrayApertureStart]
  dsimp only
  rw [hfind]
  rfl

theorem aperture_noSlot (h : 64 ≤ data.toNat) :
    execDrayApertureStart (tile, ctx) ch data s = .next (execDrayApertureStart.dropped (tile, ctx) s) := by
  rw [execDrayApertureStart]
  dsimp only
  split
  · rfl
  · rw [if_pos (by simpa using bits_high_ne_zero data.isLt h)]
    rfl

theorem aperture_starts (himage : (getTile s tile).images.reverse.find? (fun i => i.2 == ctx) = some (run, ctx)) (hdata : data.toNat < 64)
    (hgo : goCopy (4 * tile) none run ctx (ostlerTile s tile) data.toNat 0 0 s = .ok (c, s1)) (hroom : (copiesOf s1 (4 * tile)).length < 128) :
    execDrayApertureStart (tile, ctx) ch data s = .next (startCopy s1 tile ch c).1 := by
  rw [execDrayApertureStart]
  dsimp only
  rw [himage]
  dsimp only
  rw [if_neg (by rw [bits_high_of_lt_64 hdata]; decide), Nat.mod_eq_of_lt hdata, hgo]
  dsimp only
  rw [if_neg (Nat.not_le.mpr hroom)]
  rfl

end

/-! ## The completions of STORAGE (15 R369) -/

section
variable {s : State} {tile cid bytes : Nat} {ch : Fin 4} {c : Copy} {ok : Bool}

theorem storageCompletion_unknown (h : storageCopy s tile ch cid = none) : execStorageCompletion tile ch cid ok s = .next s := by
  rw [execStorageCompletion, h]
  rfl

theorem storageTimeout_unknown (h : storageCopy s tile ch cid = none) : execStorageTimeout tile ch cid s = .next s := by
  rw [execStorageTimeout, h]
  rfl

/-- The completion queue's head has moved past an entry. -/
def headMoved (s : State) (part : Nat) : State :=
  let old := s.host.storageRun.get (0, 0, true) part
  let head := (old.2.1 + 1) % 2 ^ storageQlog s part
  { s with
    host := { s.host with storageRun := s.host.storageRun.set part (old.1, head, if head = 0 then !old.2.2 else old.2.2) }
    busOut := s.busOut ++ [.write (BitVec.ofNat 64 (storageField s part 3)) (leBytes 4 head)] }

section
variable (h : storageCopy s tile ch cid = some (c, bytes))
include h

theorem storageCompletion_lands :
    let s1 := headMoved s (partOfDie s (tile / 128))
    let left := c.outstanding.filter (fun o => !(o.1 == cid))
    let lines := linesOfSpan s1 (drayEngine tile ch c) (c.dstBase.toNat + 4096 * segmentNumber c cid) bytes
    let landed := carriageLands (barUpdate (fillLines s1 tile lines) tile c.tpl.bar (.land bytes)) c cid bytes
    execStorageCompletion tile ch cid true s = .next (
      if left = [] ∧ c.active = false ∧ (c.cancelled = true ∨ c.element = elementCount c.tpl) then endCopy landed tile ch.val c
      else modCopy landed tile ch.val c (fun _ => { c with outstanding := left, done := c.done + bytes })) := by
  rw [execStorageCompletion, h]
  dsimp only
  rw [if_neg (by decide)]
  simp only [Bool.and_eq_true, Bool.or_eq_true, Bool.not_eq_true', decide_eq_true_eq, List.isEmpty_iff, and_assoc]
  rfl

theorem storageCompletion_fails :
    execStorageCompletion tile ch cid false s = .next (storageFail (headMoved s (partOfDie s (tile / 128))) tile ch c cid 0x14) := by
  rw [execStorageCompletion, h]
  rfl

/-- A storage block with V cleared. -/
def withoutV (block : Vector Word 8) : Vector Word 8 := block.mapIdx (fun i w => if i = 5 then w &&& ~~~(0x10000 : Word) else w)

/-- The storage block of a partition loses its V. -/
def storageOff (s : State) (part : Nat) : State :=
  { s with host := { s.host with storage := s.host.storage.set part (withoutV (s.host.storage.get (Vector.replicate 8 0) part)) } }

theorem storageTimeout_fails :
    execStorageTimeout tile ch cid s = .next (storageFail (storageOff s (partOfDie s (tile / 128))) tile ch c cid 0x0A) := by
  rw [execStorageTimeout, h]
  rfl

end

theorem storageV_storageOff (s : State) (part : Nat) : storageV (storageOff s part) part = false := by
  have hfive : ∀ block : Vector Word 8, ((withoutV block).toList.map (·.toNat)).getD 5 0 = (block[5] &&& ~~~(0x10000 : Word)).toNat := by
    intro block
    simp [withoutV, List.getD]
  rw [storageV, storageField, storageBlock, storageOff, smap_get_set, hfive, BitVec.toNat_and, Nat.testBit_and]
  exact Bool.and_false _

end

/-! ## The stream unit (05 R153) -/

section
variable {s : State} {tile n k : Nat} {q : Fin 8} {off : Int} {g : Vec} {rest : List Vec}

theorem streamTransfer_awaitsGear (h : (getTile s (n / 16)).changing ≠ none) : execStreamTransfer n q s = .next (later s [.streamTransfer n q]) := by
  rw [execStreamTransfer, if_pos (Option.isSome_iff_ne_none.mpr h)]
  rfl

/-- The work on stream `k` of a tile, once its turn is noted. -/
def streamServed (s : State) (tile k : Nat) : State :=
  let m := 16 * tile + k / 8
  let st := streamOf (getAgent s (.strand m)) (k % 8)
  let s1 := modTile s tile (fun t => { t with lastStream := k })
  if st.out then outputTransfer s1 m (k % 8) st else inputTransfer s1 m (k % 8) st

section
variable (hgear : (getTile s (n / 16)).changing = none)
include hgear

theorem streamTransfer_idles (hnext : nextStream s (n / 16) = none) : execStreamTransfer n q s = .next s := by
  rw [execStreamTransfer]
  dsimp only
  rw [hgear, hnext]
  rfl

theorem streamTransfer_serves (hnext : nextStream s (n / 16) = some k) : execStreamTransfer n q s = .next (streamServed s (n / 16) k) := by
  rw [execStreamTransfer]
  dsimp only
  rw [hgear, hnext]
  rfl

end

/-- The stream that the unit serves next is one of the tile's 128, and has work. -/
theorem nextStream_spec (h : nextStream s tile = some k) :
    k < 128 ∧ streamHasWork s (16 * tile + k / 8) (streamOf (getAgent s (.strand (16 * tile + k / 8))) (k % 8)) = true := by
  rw [nextStream] at h
  obtain ⟨hwork, hmem⟩ := And.intro (List.find?_some h) (List.mem_of_find?_eq_some h)
  rw [List.mem_map] at hmem
  obtain ⟨i, -, rfl⟩ := hmem
  exact ⟨Nat.mod_lt _ (by decide), (Bool.and_eq_true_iff.mp hwork).2⟩

/-- The unit's mark of the stream that it served last. -/
def turnNoted (s : State) (tile k : Nat) : State := modTile s tile (fun t => { t with lastStream := k })

theorem turnNoted_tile (s : State) (tile k : Nat) :
    (getTile (turnNoted s tile k) tile).lastStream = k ∧ (getTile (turnNoted s tile k) tile).pool = (getTile s tile).pool ∧
      ∀ off, groupReadable (getTile (turnNoted s tile k) tile) off = groupReadable (getTile s tile) off := by
  rw [turnNoted, getTile_modTile]
  exact ⟨rfl, rfl, fun _ => rfl⟩

theorem setFull_tile (s : State) (tile line j : Nat) :
    (getTile (setFull s tile line) j).lastStream = (getTile s j).lastStream ∧ (getTile (setFull s tile line) j).pool = (getTile s j).pool := by
  have hone : (getTile (modTile s tile (fun t => { t with full := t.full ++ [line] })) j).lastStream = (getTile s j).lastStream ∧
      (getTile (modTile s tile (fun t => { t with full := t.full ++ [line] })) j).pool = (getTile s j).pool := by
    by_cases hj : j = tile
    · subst hj
      rw [getTile_modTile]
      exact ⟨rfl, rfl⟩
    · rw [getTile_modTile_ne _ _ hj]
      exact ⟨rfl, rfl⟩
  unfold setFull
  split
  · exact ⟨rfl, rfl⟩
  · dsimp only
    split <;> exact hone

theorem poolWrite_tile (s : State) (tile off : Nat) (bs : List Byte) :
    (getTile (poolWrite s tile off bs) tile).lastStream = (getTile s tile).lastStream ∧
      (getTile (poolWrite s tile off bs) tile).pool = memWrite (getTile s tile).pool off bs := by
  rw [poolWrite, getTile_modTile]
  exact ⟨rfl, rfl⟩

theorem strandTile (tile : Nat) (hk : k < 128) : (16 * tile + k / 8) / 16 = tile := by omega

section
variable {st : Stream} (hst : streamOf (getAgent s (.strand (16 * tile + k / 8))) (k % 8) = st) (hnext : nextStream s tile = some k)
  (hoff : patternOffset st.base st.dims st.moved = some off)
include hst hnext hoff

theorem streamServed_input (hout : st.out = false) :
    (getTile (streamServed s tile k) tile).lastStream = k ∧ streamOf (getAgent (streamServed s tile k) (.strand (16 * tile + k / 8))) (k % 8) =
      { st with buffer := st.buffer ++ [vecOfBytes (poolRead s tile off.toNat 64)], moved := st.moved + 1 } := by
  obtain ⟨hk, hwork⟩ := nextStream_spec hnext
  rw [hst, streamHasWork, hout, hoff] at hwork
  simp only [Bool.false_eq_true, if_false, Bool.and_eq_true, Bool.not_eq_true', decide_eq_true_eq, Option.any_some, strandTile tile hk] at hwork
  obtain ⟨-, ⟨⟨-, hroom⟩, hmore⟩, hreadable⟩ := hwork
  obtain ⟨hturn, hpool, hsame⟩ := turnNoted_tile s tile k
  have hmoves : ¬ (4 ≤ st.buffer.length || decide (patternLength st.dims ≤ st.moved) || !groupReadable (getTile (turnNoted s tile k) tile) off) = true := by
    rw [hsame, hreadable, decide_eq_false (Nat.not_le.mpr hroom), decide_eq_false (Nat.not_le.mpr hmore)]
    decide
  have hself : streamOf (getAgent (turnNoted s tile k) (.strand (16 * tile + k / 8))) (k % 8) = st := hst
  rw [streamServed, hst, hout, if_neg Bool.false_ne_true, ← turnNoted, inputTransfer, hoff, strandTile tile hk]
  dsimp only
  rw [if_neg hmoves, getTile_modAgent_other, getAgent_modAgent, streamOf_setStream_same _ (Nat.mod_lt _ (by decide)), hself, poolRead, poolRead, hpool, hout]
  exact ⟨hturn, rfl⟩

omit hst hnext hoff in
/-- An output group has been written and has left its buffer. -/
theorem outputTransfer_moves {v : State} {a : Agent} {line : Nat} {b : Bool} (hself : streamOf (getAgent v a) (k % 8) = st)
    (hturn : (getTile v tile).lastStream = k) (hwf : (getTile v tile).pool.wf = true) :
    let w := modAgent (poolWrite v tile off.toNat (vecBytes g)) a (fun t => setStream t (k % 8) (fun x => { x with buffer := rest, moved := x.moved + 1 }))
    let u := if b then setFull w tile line else w
    (getTile u tile).lastStream = k ∧ poolRead u tile off.toNat 64 = vecBytes g ∧
      streamOf (getAgent u a) (k % 8) = { st with buffer := rest, moved := st.moved + 1 } := by
  intro w u
  have hw : (getTile w tile).lastStream = k ∧ memRead (getTile w tile).pool off.toNat 64 = vecBytes g ∧
      streamOf (getAgent w a) (k % 8) = { st with buffer := rest, moved := st.moved + 1 } := by
    have hread := memRead_memWrite (vecBytes g) (getTile v tile).pool off.toNat hwf
    rw [vecBytes, length_leBytes, ← vecBytes] at hread
    obtain ⟨hlast, hpool⟩ := poolWrite_tile v tile off.toNat (vecBytes g)
    have hstream : streamOf (getAgent (poolWrite v tile off.toNat (vecBytes g)) a) (k % 8) = st := hself
    rw [getTile_modAgent_other, hpool, hlast, getAgent_modAgent, streamOf_setStream_same _ (Nat.mod_lt _ (by decide)), hstream]
    exact ⟨hturn, hread, rfl⟩
  have hu : (getTile u tile).lastStream = (getTile w tile).lastStream ∧ (getTile u tile).pool = (getTile w tile).pool ∧ getAgent u a = getAgent w a := by
    cases b with
    | false => exact ⟨rfl, rfl, rfl⟩
    | true => exact ⟨(setFull_tile w tile line tile).1, (setFull_tile w tile line tile).2, getAgent_setFull w tile line a⟩
  rw [poolRead, hu.1, hu.2.1, hu.2.2]
  exact hw

/-- Before an output group is written, the line that the stream leaves is set full. -/
def lineLeft (s : State) (tile line : Nat) (st : Stream) : State :=
  match lastLine st with
  | some l => if l = line then s else setFull s tile l
  | none => s

omit hst hnext hoff in
theorem lineLeft_keeps (s : State) (tile line : Nat) (st : Stream) (a : Agent) :
    (getTile (lineLeft s tile line st) tile).lastStream = (getTile s tile).lastStream ∧ (getTile (lineLeft s tile line st) tile).pool = (getTile s tile).pool ∧
      getAgent (lineLeft s tile line st) a = getAgent s a := by
  unfold lineLeft
  split
  · split
    · exact ⟨rfl, rfl, rfl⟩
    · exact ⟨(setFull_tile _ _ _ _).1, (setFull_tile _ _ _ _).2, getAgent_setFull _ _ _ _⟩
  · exact ⟨rfl, rfl, rfl⟩

omit hst hnext in
theorem outputTransfer_writes {v : State} {m r : Nat} (hbuffer : st.buffer = g :: rest) : outputTransfer v m r st =
    let w := modAgent (poolWrite (lineLeft v (m / 16) (off.toNat / 128) st) (m / 16) off.toNat (vecBytes g)) (.strand m)
      (fun t => setStream t r (fun x => { x with buffer := rest, moved := x.moved + 1 }))
    if st.moved + 1 = patternLength st.dims then setFull w (m / 16) (off.toNat / 128) else w := by
  rw [outputTransfer, hbuffer, hoff]
  rfl

theorem streamServed_output (hout : st.out = true) (hbuffer : st.buffer = g :: rest) (hwf : (getTile s tile).pool.wf = true) :
    (getTile (streamServed s tile k) tile).lastStream = k ∧ poolRead (streamServed s tile k) tile off.toNat 64 = vecBytes g ∧
      streamOf (getAgent (streamServed s tile k) (.strand (16 * tile + k / 8))) (k % 8) = { st with buffer := rest, moved := st.moved + 1 } := by
  have hk := (nextStream_spec hnext).1
  obtain ⟨hnoted, hnotedPool, -⟩ := turnNoted_tile s tile k
  obtain ⟨hturn, hpool, hself⟩ := lineLeft_keeps (turnNoted s tile k) tile (off.toNat / 128) st (.strand (16 * tile + k / 8))
  rw [streamServed, hst, hout, if_pos rfl, ← turnNoted, outputTransfer_writes hoff hbuffer, strandTile tile hk]
  have h := outputTransfer_moves (g := g) (rest := rest) (off := off) (line := off.toNat / 128) (b := decide (st.moved + 1 = patternLength st.dims))
    ((congrArg (streamOf · (k % 8)) hself).trans hst) (hturn.trans hnoted) (by rwa [hpool, hnotedPool])
  rw [hout] at h
  simpa only [decide_eq_true_eq] using h

end

end

/-- Settles O43: a segment goes by `runSegment_lands` or `storageSegment_submits`, a completion by `storageCompletion_lands`, and the stream unit
serves the stream whose turn it is (`streamServed`). -/
theorem drayAndStreamStepsMoveData : Obligations.DrayAndStreamStepsMoveData := by
  unfold Obligations.DrayAndStreamStepsMoveData
  intro s s1 s2 tile n cid bytes k ch q c data bs code sub off g rest run ctx
  dsimp only
  refine ⟨fun _ hnext => draySegment_idles hnext, fun hruns hnext => ?_, aperture_noImage, aperture_noSlot, aperture_starts,
    fun h ok => ⟨storageCompletion_unknown h, storageTimeout_unknown h⟩,
    fun h => ⟨storageCompletion_lands h, storageCompletion_fails h, _, storageTimeout_fails h, storageV_storageOff s _, rfl⟩,
    ?_, ?_⟩
  · have hstep := draySegment_next hruns hnext
    refine ⟨fun hkind hdata => ?_, fun hkind hdata => ⟨fun hstores => ?_, fun hstores => ⟨fun hlast => ?_, fun hmore hcancelled => ?_, fun hmore hgoes => ?_⟩⟩,
      fun hkind hvalid => ?_, fun hkind hvalid hfull => ?_, fun hkind hvalid hroom hgoes hstores => ?_⟩
    · exact hstep.trans (congrArg _ ((if_neg hkind).trans (runSegment_sourceFails hdata)))
    · exact hstep.trans (congrArg _ ((if_neg hkind).trans (runSegment_storeFails hdata hstores)))
    · exact hstep.trans (congrArg _ ((if_neg hkind).trans ((runSegment_lands hdata hstores).trans (if_pos hlast))))
    · exact hstep.trans (congrArg _ ((if_neg hkind).trans ((runSegment_lands hdata hstores).trans ((if_neg hmore).trans (if_pos hcancelled)))))
    · exact hstep.trans (congrArg _ ((if_neg hkind).trans ((runSegment_lands hdata hstores).trans ((if_neg hmore).trans (if_neg (ne_true_of_eq_false hgoes))))))
    · exact hstep.trans (congrArg _ ((if_pos hkind).trans (storageSegment_invalid hvalid)))
    · exact hstep.trans (congrArg _ ((if_pos hkind).trans (storageSegment_full hvalid hfull)))
    · exact hstep.trans (congrArg _ ((if_pos hkind).trans (storageSegment_submits hvalid hroom hgoes hstores)))
  · rintro hgear rfl
    exact streamTransfer_awaitsGear hgear
  · rintro hgear rfl
    refine ⟨streamTransfer_idles hgear, fun hnext hoff => ⟨fun hout => ?_, fun hout hbuffer hwf => ?_⟩⟩
    · exact ⟨_, streamTransfer_serves hgear hnext, streamServed_input rfl hnext hoff hout⟩
    · exact ⟨_, streamTransfer_serves hgear hnext, streamServed_output rfl hnext hoff hout hbuffer hwf⟩

end Sys2Proof.Machine
end
